-- ==== Sys2Proof/Word.lean ====
section
/-! DEFINITION. The word types of the Volfen E8 and their plainest arithmetic (R7, R46). -/

set_option Elab.async false

namespace Sys2Proof

/-- A 64-bit scalar register value (R199). -/
abbrev Word := BitVec 64

/-- One byte of memory (R7). -/
abbrev Byte := BitVec 8

/-- One accumulator row, the value of a vector register (R98, R199). -/
abbrev Row := BitVec 2048

/-- A mask register (R199). -/
abbrev Mask := BitVec 256

end Sys2Proof
end

