-- ==== Sys2Proof/Config.lean ====
section
/-! DEFINITION. What this implementation fixes, and the values that the spec leaves open: an opaque constant has no body
that a proof can use, so a statement that holds, holds whatever the value is. -/

set_option Elab.async false

namespace Sys2Proof.Config

/-- PARTID of BAR0 (R365); the spec gives no value. FREE VALUE (log 2). -/
opaque partId : Word

/-- FWVER of BAR0 (R365), for the image that was booted; the spec gives no value. FREE VALUE (log 2). -/
opaque fwVersion : List Byte → Word

/-- The RSASSA-PSS signature that the device identity key makes of the 640 bytes given (R431): a function of the key, which the
spec keeps inside die 0, and of a random salt of 32 bytes (R430). FREE VALUE (log 3). -/
opaque signature : BitVec 256 → List Byte → BitVec 3072

/-- SHA-256 of the identity public key (R431). FREE VALUE (log 3). -/
opaque identityDigest : BitVec 256

/-- The DER certificate chain of the identity key (R431). FREE VALUE (log 3). -/
opaque certChain : List Byte

/-- The measurement digests of firmware stages, fuses and RWL values (R431), by slot 0 to 5, for the image that was booted and the RWL
values. FREE VALUE (log 3). -/
opaque measurement : Nat → List Byte → List Nat → BitVec 256

/-- The fused security version (R430, R431). FREE VALUE (log 3). -/
opaque fusedVersion : Word

/-- The signed image at these bytes verifies against the Darward key (R430). FREE VALUE (log 3). -/
opaque imageVerifies : List Byte → Bool

/-- The security version that a signed image carries (R430); the image format is not in the spec. FREE VALUE (log 3). -/
opaque imageVersion : List Byte → Word

/-- The stages of a die's boot chain verify (R430), for the image that it boots. FREE VALUE (log 3). -/
opaque bootVerifies : Nat → List Byte → Bool

/-- The sign of R71 at a position before the origin of a view, or 2^48 or more behind it, by key, domain and position: the spec defines
MIX64 for indices from 0 to 2^48 − 1 (R52). FREE VALUE (log 10). -/
opaque signOutside : Word → Nat → Int → Bool

/-- A word that the spec leaves open: what a seam macro makes of the 64 columns of a poisoned segment where it writes no bank row
(spop, spred). The argument counts the values drawn. FREE VALUE (log 11). -/
opaque freeWord : Nat → Word

end Sys2Proof.Config
end

