-- ==== Sys2Proof/Machine/Bits.lean ====
section
/-! DEFINITION. Bit fields, sign extension and byte order (R7, R11). -/

set_option Elab.async false

namespace Sys2Proof

/-- x[hi:lo], the unsigned integer formed from those bits of x (R7). -/
def field (x hi lo : Nat) : Nat := x / 2 ^ lo % 2 ^ (hi + 1 - lo)

/-- x[n], a single bit (R7). -/
def flag (x n : Nat) : Bool := x / 2 ^ n % 2 == 1

/-- The bit of a Boolean, for building words. -/
def ofFlag (b : Bool) : Nat := if b then 1 else 0

/-- The low w bits of x read as two's complement (R46). -/
def sextNat (w x : Nat) : Int :=
  let y := x % 2 ^ w
  if 2 ^ (w - 1) ≤ y then (y : Int) - 2 ^ w else y

/-- An integer modulo 2^w, as an unsigned value (R46). -/
def wrapInt (w : Nat) (x : Int) : Nat := (x % (2 ^ w : Int)).toNat

/-- An integer clamped to the range of a w-bit type of the given signedness (R46, R51). -/
def clampInt (w : Nat) (signed : Bool) (x : Int) : Int :=
  if signed then max (-(2 ^ (w - 1) : Int)) (min x (2 ^ (w - 1) - 1))
  else max 0 (min x (2 ^ w - 1))

/-- Byte k of a little-endian value (R7). -/
def byteAt (v k : Nat) : Byte := BitVec.ofNat 8 (v / 2 ^ (8 * k))

/-- The smallest multiple of m that is at least x; x itself when m is 0. -/
def roundUp (x m : Nat) : Nat := if m = 0 then x else (x + m - 1) / m * m

/-- floor(log2 x) for x > 0 (R60, R79). -/
def log2Floor (x : Nat) : Nat := Nat.log2 x

/-- The number of significant bits of x; 0 for 0 (R214). -/
def bitLength (x : Nat) : Nat := if x = 0 then 0 else Nat.log2 x + 1

/-- The number of one bits among the low n bits of x (R210, R265). -/
def popCount : Nat → Nat → Nat
  | 0, _ => 0
  | n + 1, x => x % 2 + popCount n (x / 2)

/-- x with bits [hi:lo] replaced by v (R213). -/
def setField (x hi lo v : Nat) : Nat :=
  x - field x hi lo * 2 ^ lo + v % 2 ^ (hi + 1 - lo) * 2 ^ lo

end Sys2Proof
end

