-- ==== Sys2Proof/Syntax.lean ====
section
/-! DEFINITION. The steps of the Volfen E8: the encoded instructions of R202 and the events of the opcode table
that no instruction word names. One constructor of Instr per row of the table. -/

set_option Elab.async false

namespace Sys2Proof

/-- A scalar source operand: S0 to S31 or a scalar latch (R179). -/
inductive SSrc where
  | reg (n : Fin 32)
  | ls | lm | lc0 | lc1
  deriving DecidableEq, Repr

/-- A vector source operand: V0 to V31 or a vector latch (R179). -/
inductive VSrc where
  | reg (n : Fin 32)
  | lv0 | lv1
  deriving DecidableEq, Repr

/-- The element types of form VR (R185). -/
inductive VTy where
  | f32 | bf16 | f16 | e4m3 | e5m2 | i32 | n32 | i16 | n16 | i8 | n8
  deriving DecidableEq, Repr

/-- The rounding modes of R47. -/
inductive RMode where
  | rne | rtz | rdn | rup | rsr
  deriving DecidableEq, Repr

/-- The scopes of R121. -/
inductive Scope where
  | core | die | mod | dom
  deriving DecidableEq, Repr

/-- The cache hints of R107. -/
inductive Hint where
  | none | noAlloc | bypass
  deriving DecidableEq, Repr

/-- The memory orderings of R239. -/
inductive Ord where
  | rlx | acq | rel | ar
  deriving DecidableEq, Repr

/-- The fence modes of R243. -/
inductive FenceMode where
  | acq | rel | ar | sc
  deriving DecidableEq, Repr

/-- The scalar comparison conditions of R211. -/
inductive SCond where
  | eq | ne | ltI | geI | ltN | geN | tst | ntst
  deriving DecidableEq, Repr

/-- The floating vector conditions of R259. -/
inductive FCond where
  | eq | ne | lt | le | gt | ge | uo | or
  deriving DecidableEq, Repr

/-- The integer vector conditions of R262. -/
inductive ICond where
  | eq | ne | lt | ge | tst | ntst
  deriving DecidableEq, Repr

/-- The mask operations of R265; `first` takes a scalar. -/
inductive MaskOp where
  | and (a b : Fin 8) | or (a b : Fin 8) | xor (a b : Fin 8) | andn (a b : Fin 8)
  | not (a : Fin 8) | first (a : SSrc)
  deriving DecidableEq, Repr

/-- The atomic operations of R239. -/
inductive AmoOp where
  | add | and | or | xor | minI | maxI | minN | maxN | swap
  deriving DecidableEq, Repr

/-- The floating atomic operations of R241. -/
inductive FamoOp where
  | add | min | max
  deriving DecidableEq, Repr

/-- The floating atomic types of R241. -/
inductive FamoTy where
  | f32 | bf16 | f16
  deriving DecidableEq, Repr

/-- What hchk returns (R234). -/
inductive HchkSel where
  | st | va | lo | last
  deriving DecidableEq, Repr

/-- The engine formats of mshape (R276). -/
inductive EngFmt where
  | mx4 | mx8 | mx84 | bf16 | ab4
  deriving DecidableEq, Repr

/-- The seam comparison conditions (R320). -/
inductive SeamCond where
  | eq | ne | lt | ge
  deriving DecidableEq, Repr

/-- The seam logic operations (R320). -/
inductive SeamLog where
  | and | or | xor | nor | andn | not
  deriving DecidableEq, Repr

/-- The raw seam row operations (R320). -/
inductive SeamRow where
  | and | nor | xor | or
  deriving DecidableEq, Repr

/-- The formats qscl scans for (R315). -/
inductive QsclFmt where
  | e4m3 | e5m2 | e2m1
  deriving DecidableEq, Repr

/-- Operands of a two-source scalar register instruction, form SR (R180). -/
structure SrOp where
  d : Fin 32
  a : SSrc
  b : SSrc
  nw : Bool
  g : Fin 8
  deriving DecidableEq, Repr

/-- Operands of a one-source scalar register instruction, form SR with B = 0 (R209). -/
structure SrOne where
  d : Fin 32
  a : SSrc
  nw : Bool
  g : Fin 8
  deriving DecidableEq, Repr

/-- Operands of a scalar immediate instruction, form SI with IMM18 (R216). -/
structure SiOp where
  d : Fin 32
  a : SSrc
  imm : BitVec 18
  deriving DecidableEq, Repr

/-- Operands of a memory instruction with an address, form MM (R183, R229). -/
structure MmOp where
  sz : Fin 4
  hint : Hint
  d : Fin 32
  h : Fin 16
  x : Fin 8
  imm : BitVec 14
  deriving DecidableEq, Repr

/-- The memory operand [hN + a] of class 0x4 (R238). -/
structure SyAddr where
  h : Fin 16
  a : Fin 32
  deriving DecidableEq, Repr

/-- A two-source vector instruction without a modifier, form VR (R185). -/
structure VBin where
  t : VTy
  d : Fin 32
  a : VSrc
  b : VSrc
  m : Fin 8
  nw : Bool
  deriving DecidableEq, Repr

/-- A two-source vector instruction with a rounding mode (R257). -/
structure VBinR where
  t : VTy
  md : RMode
  d : Fin 32
  a : VSrc
  b : VSrc
  m : Fin 8
  nw : Bool
  deriving DecidableEq, Repr

/-- A two-source integer vector instruction with a saturation choice (R261). -/
structure VBinS where
  t : VTy
  sat : Bool
  d : Fin 32
  a : VSrc
  b : VSrc
  m : Fin 8
  nw : Bool
  deriving DecidableEq, Repr

/-- A one-source vector instruction without a modifier (R257). -/
structure VUn where
  t : VTy
  d : Fin 32
  a : VSrc
  m : Fin 8
  nw : Bool
  deriving DecidableEq, Repr

/-- A one-source vector instruction with a rounding mode (R257, R269). -/
structure VUnR where
  t : VTy
  md : RMode
  d : Fin 32
  a : VSrc
  m : Fin 8
  nw : Bool
  deriving DecidableEq, Repr

/-- The operands of a class 0x8 instruction with three scalar sources (R275). -/
structure En3 where
  a : SSrc
  b : SSrc
  c : SSrc
  deriving DecidableEq, Repr

/-- The operands of a copy (R305): ticket register, card offset, source and destination handles. -/
structure CpyOp where
  a : Fin 32
  b : SSrc
  hs : Fin 16
  hd : Fin 16
  deriving DecidableEq, Repr

/-- The operand words of a two-source seam macro with the PRED bit (R319, R320). -/
structure SeamOp where
  a : SSrc
  b : SSrc
  c : SSrc
  pred : Bool
  deriving DecidableEq, Repr

/-- A field of a short pair: control word table entry and register offset (R188). -/
structure ShortForm where
  index : Fin 512
  ofs : Fin 32
  deriving DecidableEq, Repr

/-- Where a core-state soft error strikes (R341). -/
inductive SoftErr where
  | live | duplicate | shadow | withheld | restore
  deriving DecidableEq, Repr

/-- What a patrol scrub or an access finds on a line (R423). -/
inductive ScrubFinding where
  | clean | corrected | uncorrectable
  deriving DecidableEq, Repr

/-- The steps of the machine. The first part are the encoded instructions of R202; the second part the events.
In the event rows d is a die, c a core of it, t the index of a task, and n an index into the list the event names. -/
inductive Instr where
  -- class 0x0
  | add (o : SrOp) | sub (o : SrOp) | mul (o : SrOp) | mulhI (o : SrOp) | mulhN (o : SrOp)
  | and (o : SrOp) | or (o : SrOp) | xor (o : SrOp) | andn (o : SrOp)
  | shl (o : SrOp) | shr (o : SrOp) | sra (o : SrOp)
  | minI (o : SrOp) | maxI (o : SrOp) | minN (o : SrOp) | maxN (o : SrOp)
  | cmp (cond : SCond) (p : Fin 8) (a b : SSrc) (nw : Bool) (g : Fin 8)
  | sel (o : SrOp) (k : Fin 8)
  | clz (o : SrOne) | ctz (o : SrOne) | popc (o : SrOne)
  | bfx (o : SrOp)
  | bfi (o : SrOp) (e : SSrc)
  | mov (o : SrOne)
  | divI (o : SrOp) | divN (o : SrOp) | remI (o : SrOp) | remN (o : SrOp)
  -- class 0x1
  | addi (o : SiOp) | andi (o : SiOp) | ori (o : SiOp) | xori (o : SiOp)
  | shli (d : Fin 32) (a : SSrc) (n : Fin 64) | shri (d : Fin 32) (a : SSrc) (n : Fin 64)
  | srai (d : Fin 32) (a : SSrc) (n : Fin 64)
  | cmpi (cond : SCond) (p : Fin 8) (a : SSrc) (imm : BitVec 18)
  | movi (d : Fin 32) (imm : BitVec 18)
  | movhi (o : SiOp)
  | vaddr (d : Fin 32) (a : SSrc) (g : Fin 64)
  -- class 0x2
  | nop
  | br (d : BitVec 24)
  | brc (p : Fin 8) (neg : Bool) (d : BitVec 24)
  | brz (a : SSrc) (d : BitVec 24) | brnz (a : SSrc) (d : BitVec 24)
  | call (l : Fin 32) (d : BitVec 24)
  | ret (a : SSrc)
  | jmpr (a : SSrc) (n : BitVec 24)
  | loop (a : SSrc) (pre : Bool) (stages : Fin 8) (len : Fin 4096)
  | lbreak (p : Fin 8)
  | spawn (a : Fin 32) (named : Bool) (core : Fin 16) (entry : Fin 256)
  | done
  -- class 0x3
  | ld (o : MmOp) | st (o : MmOp) | ldv (o : MmOp) | stv (o : MmOp)
  | xlat (ro : Bool) (d : Fin 32) (h : Fin 16) (x : Fin 8) (imm : BitVec 14)
  | hchk (sel : HchkSel) (d : Fin 32) (h : Fin 16)
  | hdrop (h : Fin 16)
  | hmov (hd hs : Fin 16)
  | pf (sz : Fin 4) (hint : Hint) (h : Fin 16) (x : Fin 8) (imm : BitVec 14)
  | phase (n : Fin 8)
  -- class 0x4
  | amo (op : AmoOp) (w32 : Bool) (ord : Ord) (sc : Scope) (d : Fin 32) (m : SyAddr)
  | cas (w32 : Bool) (ord : Ord) (sc : Scope) (d : Fin 32) (m : SyAddr) (e : Fin 32)
  | famo (op : FamoOp) (ty : FamoTy) (sc : Scope) (m : SyAddr) (d : SSrc)
  | fence (mode : FenceMode) (sc : Scope)
  | stake (m : SyAddr) (d : Fin 32)
  | settle (m : SyAddr) (d : Fin 32)
  | ctag (d : Fin 32) (m : SyAddr)
  | unstake (m : SyAddr)
  | crewJoin (n : Fin 256) | crewLeave (n : Fin 256)
  | crewSync (n : Fin 256) (close : Bool)
  | cbArm (n : Fin 64) (a : SSrc)
  | cbWait (n : Fin 64) (sc : Scope)
  | cbAdd (n : Fin 64) (a : SSrc)
  | cbRead (d : Fin 32) (n : Fin 64)
  | stepCommit (a : SSrc)
  | atmClose (wait : Bool) (sc : Scope)
  -- class 0x5
  | vadd (o : VBinR) | vsub (o : VBinR) | vmul (o : VBinR)
  | vfma (o : VBinR) | vfms (o : VBinR) | vfnma (o : VBinR)
  | vmin (o : VBin) | vmax (o : VBin)
  | vabs (o : VUn) | vneg (o : VUn)
  | vcmp (cond : FCond) (t : VTy) (k : Fin 8) (a b : VSrc) (m : Fin 8) (nw : Bool)
  | vsel (o : VBin)
  | vscale (o : VBinR)
  | vround (o : VUnR)
  | vclass (o : VUn)
  -- class 0x6
  | viadd (o : VBinS) | visub (o : VBinS)
  | vimul (o : VBin) | vimulh (o : VBin)
  | vand (o : VBin) | vor (o : VBin) | vxor (o : VBin)
  | vshl (o : VBin) | vshr (o : VBin) | vsra (o : VBin)
  | vimin (o : VBin) | vimax (o : VBin)
  | vicmp (cond : ICond) (t : VTy) (k : Fin 8) (a b : VSrc) (m : Fin 8) (nw : Bool)
  | vcvt (o : VUnR) (ts : VTy) (p : Fin 4)
  | vbcast (t : VTy) (d : Fin 32) (a : SSrc) (m : Fin 8) (nw : Bool)
  | vperm (o : VBin)
  | vlrot (t : VTy) (d : Fin 32) (a : VSrc) (b : SSrc) (m : Fin 8) (nw : Bool)
  | vext (t : VTy) (d : Fin 32) (a : VSrc) (b : SSrc) (nw : Bool)
  | vins (t : VTy) (d : Fin 32) (a b : SSrc) (nw : Bool)
  | vmask (op : MaskOp) (d : Fin 8) (nw : Bool)
  | vmcnt (t : VTy) (d : Fin 32) (a : Fin 8) (nw : Bool)
  | vpop (d : Fin 32) (q : Fin 8) (nw : Bool)
  | vwin (a : SSrc)
  | vmov (o : VUn)
  -- class 0x7
  | vrcpA (o : VUn) | vrsqA (o : VUn) | vexp2A (o : VUn) | vlog2A (o : VUn)
  | vdiv (o : VBinR) | vsqrt (o : VUnR)
  | vidiv (o : VBin) | virem (o : VBin)
  | vredsum (o : VUn) | vredmax (o : VUn) | vredmin (o : VUn)
  | vdot (o : VBin)
  -- class 0x8
  | mshape (fmt : EngFmt) (a : Fin 32) (b c : SSrc)
  | mcfg (level : Fin 8) (drain : Bool) (o : En3)
  | mopnd (isB : Bool) (a : Fin 32) (b : SSrc) (h : Fin 16)
  | mrot (o : En3)
  | mprof (p : BitVec 8)
  | mdrain (a : Fin 32) (b c : SSrc)
  | mgo | mwait
  | mstat (a : Fin 32)
  | mzero (b c : SSrc)
  | rqbind (q : Fin 8) (b : SSrc) (bind : Bool)
  -- class 0x9
  | cpy (o : CpyOp) | cpym (o : CpyOp) | cpyc (o : CpyOp)
  | cpyr (a : Fin 32) (b : SSrc) (q : Fin 8) (hd : Fin 16)
  | cwait (a : Fin 32) (b : SSrc) | cstat (a : Fin 32) (b : SSrc)
  | qnt (o : CpyOp) (md : RMode) (esc : Bool)
  | qscl (a : Fin 32) (b : SSrc) (hs : Fin 16) (fmt : QsclFmt)
  | dqnt (o : CpyOp) (md : RMode)
  -- class 0xA
  | sld (a b c : SSrc) (esz : Fin 4) (signed : Bool)
  | sst (a b c : SSrc) (esz : Fin 4) (signed : Bool)
  | sadd (o : SeamOp) (sat : Bool) | ssub (o : SeamOp) (sat : Bool) | smul (o : SeamOp)
  | scmp (cond : SeamCond) (o : SeamOp)
  | ssel (a b c : SSrc)
  | slog (op : SeamLog) (o : SeamOp)
  | scp (a b : SSrc) (pred : Bool)
  | spred (a : SSrc) (inv : Bool)
  | spop (a : Fin 32) (b : SSrc)
  | srow (op : SeamRow) (o : SeamOp)
  | swait (b : SSrc)
  -- class 0xB
  | rpost (a : Fin 32) (b c : SSrc) (hs hd : Fin 16)
  | rarm (a : Fin 32) (b : SSrc) | rcancel (a : Fin 32) (b : SSrc) | rstat (a : Fin 32) (b : SSrc)
  | stend (a : Fin 32) (b : SSrc) (h : Fin 16)
  | sfold (a : Fin 32) (b : SSrc) (h : Fin 16)
  | sflush (a : Fin 32) (b : SSrc) (h : Fin 16)
  -- class 0xC
  | mfsr (d : Fin 32) (n : Fin 1024)
  | mtsr (n : Fin 1024) (a : SSrc)
  | trap (n : BitVec 18)
  | resume (keep : Bool)
  | abort (a : SSrc)
  | time (d : Fin 32) | timeUnc (d : Fin 32) | timeUntil (a : SSrc)
  | cwtld (d : Fin 32) (a : SSrc) (first : Fin 512)
  -- class 0xE
  | cw (x y : ShortForm)
  -- events of a core
  | divideComplete (d c : Nat)
  | phaseComplete (d c : Nat)
  | vectorDivideComplete (d c port : Nat) (int : Bool)
  | matrixJobStart (d c : Nat)
  | matrixStep (d c : Nat)
  | atbankChunkReturn (d c chunk : Nat)
  | copyStart (t ticket : Nat)
  | copyChunk (t ticket chunk : Nat)
  | copyChunkAck (t ticket chunk : Nat)
  | seamMacroExecute (d c bank : Nat)
  | relayTimeFire (d c entry : Nat)
  | relayDelivery (d c entry : Nat)
  | flushCommand (d : Nat)
  | stackCommandRelease (d : Nat)
  | tendBlock (cmd : Nat)
  | foldContribution (n : Nat)
  | foldStagingTake (n : Nat)
  | asyncEventTake (d c : Nat)
  | stallPark (d c : Nat)
  | yieldLimit (d c : Nat)
  | coreParityError (d c : Nat) (e : SoftErr)
  | timeUntilReached (t : Nat)
  | assayScanComplete (t : Nat)
  -- events of the die scheduler
  | taskAdmission (d c t : Nat)
  | taskSwitch (d c : Nat)
  | balancingExchange (d : Nat)
  | shiftBoundary (d launch : Nat)
  | groupSwapOut (d launch group : Nat)
  | groupSwapIn (d launch group : Nat)
  | crewDeadlock (launch crew : Nat)
  | epochDeadlock (n : Nat)
  | claimSelfDetect (t : Nat)
  -- events of the homes
  | storePerform (n : Nat)
  | loadServe (n : Nat)
  | atomicPerform (n : Nat)
  | famoHold (n : Nat)
  | famoAccept (n : Nat)
  | epochApply (n : Nat)
  | claimFirstTouch (n : Nat)
  | claimWaiterAdd (n : Nat)
  | claimTimeout (t : Nat)
  | walkComplete (n : Nat)
  | pageFaultResolve (n : Nat) (entry : Word)
  | handleRevoke (d c frame : Nat)
  | migrateFrame (leaf dst : Nat)
  | migrationCopy (n : Nat) (dst2 : List Nat)
  -- events of the host interface
  | recordTake
  | launchStart (launch : Nat)
  | launchCompletion (launch : Nat)
  | qtailWrite (q : Nat) (v : Word)
  | qstatClear (q : Nat) (v : Word)
  | cheadWrite (q : Nat) (v : Word)
  | peeridWrite (n : Nat) (v : Word)
  | stagingConfigWrite (d s : Nat) (isLen : Bool) (v : Word)
  | claimAreaWrite (d : Nat) (isLen : Bool) (v : Word)
  | registerWrite (off : Nat) (v : Word)
  | bar2Read (off len : Nat)
  | bar2Write (off : Nat) (bytes : List Byte) (requester : Nat)
  | certify (base len list count : Word)
  | unstamp (idx : Word)
  | unstampComplete (idx : Nat)
  | retire (die launch : Word)
  | mbUnstake (addr : Word)
  | attest (report nonceAddr : Word) (salt : BitVec 256)
  | getcert (addr len : Word)
  | fwupdate (addr len : Word)
  -- events of the module and the fabric
  | coldReset | warmReset
  | firmwareBoot (d : Nat) (rwl : List (Nat × Word))
  | timeSyncMessage (d : Nat) (ppm : Int) (unc : Word)
  /-- again: the flit is one that the same link has just replayed (R426). -/
  | flitCrcError (link : Nat) (again : Bool)
  | linkRetrain (link : Nat)
  | linkRetrainComplete (link : Nat)
  | ready (gang member : Nat) (unc : Word) (digest : BitVec 256)
  | arm (gang die : Nat)
  | gangReserveComplete (gang die : Nat)
  | ack (gang member : Nat)
  | gangGuardExpiry (gang : Nat)
  | commit (gang die : Nat)
  | cancel (gang die cause origin : Nat)
  | gangStart (gang die : Nat)
  | gangLateExpiry (gang die : Nat)
  | started (gang member : Nat)
  | confirm (gang die : Nat)
  | gangAbort (gang cause key origin : Nat)
  | freeze (gang die : Nat)
  | freezeReply (gang member : Nat) (step : Word)
  | token (gang die : Nat) (step : Word) (cause origin : Nat)
  | patrolScrub (line : Nat) (f : ScrubFinding)
  | hbmRefresh (stack channel : Nat)
  | dieContainment (d structure_ : Nat)
  | watchdogFailure (d : Nat)
  | thermalSample (d tj t0 t1 mw : Nat)
  | coolantFlowLost
  | hostLinkLoss
  | queueConfigWrite (q : Nat) (isSize : Bool) (v : Word)
  | pageOut (leaf save : Nat)
  deriving DecidableEq, Repr

end Sys2Proof
end

