-- ==== Sys2Proof/WellFormed.lean ====
section
/-! DEFINITION. What an instruction must satisfy beyond its types so that a word of R202 stands for it: the type columns of
R257 to R272, the value limits of single instructions, and the names of the ways a word is refused (R198, check 2). -/

set_option Elab.async false

namespace Sys2Proof

/-- Why a word is no instruction. Every one of these raises ILLEGAL_INSTRUCTION, but for the first two, which are the
empty slot and the header of R175. -/
inductive Reject where
  | emptySlot | headerSlot | reservedClass | unassignedMinor | nonZeroField | badSpecifier | wrongLatch
  | badLend | badType | badModifier | badValue | tableInvalid | tableReserved | tablePort
  deriving DecidableEq, Repr

/-- The types FF of R257. -/
def VTy.isFF : VTy → Bool
  | .f32 | .bf16 | .f16 => true
  | .e4m3 | .e5m2 | .i32 | .n32 | .i16 | .n16 | .i8 | .n8 => false

/-- The types F8 of R257. -/
def VTy.isF8 : VTy → Bool
  | .f32 | .bf16 | .f16 | .e4m3 | .e5m2 => true
  | .i32 | .n32 | .i16 | .n16 | .i8 | .n8 => false

/-- The types II of R261. -/
def VTy.isII : VTy → Bool
  | .f32 | .bf16 | .f16 | .e4m3 | .e5m2 => false
  | .i32 | .n32 | .i16 | .n16 | .i8 | .n8 => true

/-- The lane width in bits (R185). -/
def VTy.width : VTy → Nat
  | .f32 | .i32 | .n32 => 32
  | .bf16 | .f16 | .i16 | .n16 => 16
  | .e4m3 | .e5m2 | .i8 | .n8 => 8

/-- Lanes per row (R185). -/
def VTy.lanes (t : VTy) : Nat := 2048 / t.width

/-- The number q of parts of a conversion (R263). -/
def cvtParts (td ts : VTy) : Nat := max td.lanes ts.lanes / min td.lanes ts.lanes

/-- The system registers of R201 that mfsr reads. -/
def sysAssigned (n : Nat) : Bool := n ≤ 0x00D

/-- The system registers of R201 with access RW: SYS.SEED and SYS.CLAIMTIMEOUT. -/
def sysWritable (n : Nat) : Bool := n == 0x001 || n == 0x008

/-- The source is an S register, not a latch (R179). -/
def SSrc.isReg : SSrc → Bool
  | .reg _ => true
  | .ls | .lm | .lc0 | .lc1 => false

/-- Some word of the opcode map stands for the instruction. Events have no word. -/
def Instr.wf : Instr → Bool
  | .add o => !(o.d = 0 && o.a = .reg 0 && o.b = .reg 0 && !o.nw && o.g = 0)   -- that word is the empty slot (R175)
  | .sub _ | .mul _ | .mulhI _ | .mulhN _ | .and _ | .or _ | .xor _ | .andn _ | .shl _ | .shr _ | .sra _
  | .minI _ | .maxI _ | .minN _ | .maxN _ | .cmp .. | .sel .. | .clz _ | .ctz _ | .popc _ | .bfx _ | .bfi .. | .mov _
  | .divI _ | .divN _ | .remI _ | .remN _ => true
  | .addi _ | .andi _ | .ori _ | .xori _ | .shli .. | .shri .. | .srai .. | .cmpi .. | .movi .. | .movhi _ | .vaddr .. => true
  | .nop | .br _ | .brc .. | .brz .. | .brnz .. | .ret _ | .jmpr .. | .lbreak _ | .done => true
  | .call s _ => s != 0
  | .loop _ _ stg len => stg.val ≤ 4 && len != 0
  | .spawn a .. => a.val ≤ 26
  | .ld _ | .st _ | .xlat .. | .hchk .. | .hdrop _ | .hmov .. | .pf .. => true
  | .ldv o | .stv o => o.sz != 3
  | .phase n => n.val ≤ 4
  | .amo .. | .cas .. | .famo .. | .fence .. | .ctag .. | .unstake _ | .crewJoin _ | .crewLeave _ | .crewSync ..
  | .cbWait .. | .cbRead .. => true
  | .cbArm _ a | .cbAdd _ a | .stepCommit a => a.isReg
  | .stake _ d => d.val ≤ 25
  | .settle _ d => d.val ≤ 24
  | .atmClose w sc => w || sc = .core
  | .vadd o | .vsub o | .vmul o | .vfma o | .vfms o | .vfnma o | .vscale o | .vdiv o => o.t.isFF
  | .vmin o | .vmax o => o.t.isF8
  | .vabs o | .vneg o | .vclass o => o.t.isF8
  | .vcmp _ t .. => t.isF8
  | .vsel _ | .vand _ | .vor _ | .vxor _ | .vperm _ | .vmov _ | .vbcast .. | .vlrot .. | .vext .. | .vins .. => true
  | .vround o | .vsqrt o => o.t.isFF
  | .viadd o | .visub o => o.t.isII
  | .vimul o | .vimulh o | .vshl o | .vshr o | .vsra o | .vimin o | .vimax o | .vidiv o | .virem o => o.t.isII
  | .vicmp _ t .. => t.isII
  | .vcvt o ts p => p.val < cvtParts o.t ts
  | .vmask .. | .vmcnt .. | .vpop .. | .vwin _ => true
  | .vrcpA o | .vrsqA o | .vexp2A o | .vlog2A o => o.t = .f32
  | .vredsum o => o.t.isFF || o.t.isII
  | .vredmax o | .vredmin o => o.t.isF8 || o.t.isII
  | .vdot o => o.t.isFF
  | .mshape .. | .mopnd .. | .mrot _ | .mprof _ | .mdrain .. | .mgo | .mwait | .mstat _ | .mzero .. => true
  | .mcfg l drain _ => l.val ≤ 5 || (l.val = 6 && !drain)
  | .rqbind _ b bind => bind || b = .reg 0
  | .cpy _ | .cpym _ | .cpyc _ | .cpyr .. | .cwait .. | .cstat .. | .qnt .. | .qscl .. | .dqnt .. => true
  | .sld .. | .sst .. => true
  | .sadd .. | .ssub .. | .smul _ | .scmp .. | .ssel .. | .scp .. | .spred .. | .spop .. | .srow .. | .swait _ => true
  | .slog op o => op != .not || o.c = .reg 0
  | .rpost .. | .rarm .. | .rcancel .. | .rstat .. | .stend .. | .sfold .. | .sflush .. => true
  | .mfsr _ n => sysAssigned n.val
  | .mtsr n _ => sysWritable n.val
  | .trap _ | .resume _ | .abort _ | .time _ | .timeUnc _ | .timeUntil _ | .cwtld .. => true
  | .cw .. => true
  | .divideComplete .. | .phaseComplete .. | .vectorDivideComplete .. | .matrixJobStart .. | .matrixStep ..
  | .atbankChunkReturn .. | .copyStart .. | .copyChunk .. | .copyChunkAck .. | .seamMacroExecute .. | .relayTimeFire ..
  | .relayDelivery .. | .flushCommand .. | .stackCommandRelease .. | .tendBlock .. | .foldContribution ..
  | .foldStagingTake .. | .asyncEventTake .. | .stallPark .. | .yieldLimit .. | .coreParityError .. | .taskAdmission ..
  | .taskSwitch .. | .balancingExchange .. | .shiftBoundary .. | .groupSwapOut .. | .groupSwapIn .. | .crewDeadlock ..
  | .epochDeadlock .. | .claimSelfDetect .. | .storePerform .. | .loadServe .. | .atomicPerform .. | .famoHold ..
  | .famoAccept .. | .epochApply .. | .claimFirstTouch .. | .claimWaiterAdd .. | .claimTimeout .. | .walkComplete ..
  | .pageFaultResolve .. | .handleRevoke .. | .migrateFrame .. | .migrationCopy .. | .recordTake | .launchStart ..
  | .launchCompletion .. | .qtailWrite .. | .qstatClear .. | .cheadWrite .. | .peeridWrite .. | .stagingConfigWrite ..
  | .claimAreaWrite .. | .registerWrite .. | .bar2Read .. | .bar2Write .. | .certify .. | .unstamp .. | .unstampComplete ..
  | .retire .. | .mbUnstake .. | .attest .. | .getcert .. | .fwupdate .. | .coldReset | .warmReset | .firmwareBoot ..
  | .timeSyncMessage .. | .flitCrcError .. | .linkRetrain .. | .linkRetrainComplete .. | .ready .. | .arm ..
  | .gangReserveComplete .. | .ack .. | .gangGuardExpiry .. | .commit .. | .cancel .. | .gangStart .. | .gangLateExpiry ..
  | .started .. | .confirm .. | .gangAbort .. | .freeze .. | .freezeReply .. | .token .. | .patrolScrub .. | .hbmRefresh ..
  | .dieContainment .. | .watchdogFailure .. | .thermalSample .. | .coolantFlowLost | .timeUntilReached .. | .assayScanComplete ..
  | .hostLinkLoss | .queueConfigWrite .. | .pageOut .. => false

end Sys2Proof
end

