-- ==== Sys2Proof/Decode.lean ====
section
/-! DEFINITION. The decoder of one slot with its lend (R174 to R190, R198 check 2, R202), and the encoder written from the
same tables. Decoding is total on any bits and refuses by name. A word is a number below 2^32 and a lend one below 2^8. -/

set_option Elab.async false

namespace Sys2Proof

/-! ### Codes of single fields -/

/-- R179. -/
def SSrc.code : SSrc → Nat
  | .reg n => n.val | .ls => 32 | .lm => 35 | .lc0 => 36 | .lc1 => 37

/-- R179. -/
def VSrc.code : VSrc → Nat
  | .reg n => n.val | .lv0 => 33 | .lv1 => 34

/-- R185. -/
def VTy.code : VTy → Nat
  | .f32 => 0 | .bf16 => 1 | .f16 => 2 | .e4m3 => 3 | .e5m2 => 4 | .i32 => 5 | .n32 => 6 | .i16 => 7 | .n16 => 8 | .i8 => 9
  | .n8 => 10

/-- R47. -/
def RMode.code : RMode → Nat
  | .rne => 0 | .rtz => 1 | .rdn => 2 | .rup => 3 | .rsr => 4

/-- R121. -/
def Scope.code : Scope → Nat
  | .core => 0 | .die => 1 | .mod => 2 | .dom => 3

/-- R183. -/
def Hint.code : Hint → Nat
  | .none => 0 | .noAlloc => 1 | .bypass => 2

/-- R239. -/
def Ord.code : Ord → Nat
  | .rlx => 0 | .acq => 1 | .rel => 2 | .ar => 3

/-- R243. -/
def FenceMode.code : FenceMode → Nat
  | .acq => 0 | .rel => 1 | .ar => 2 | .sc => 3

/-- R211. -/
def SCond.code : SCond → Nat
  | .eq => 0 | .ne => 1 | .ltI => 2 | .geI => 3 | .ltN => 4 | .geN => 5 | .tst => 6 | .ntst => 7

/-- R259. -/
def FCond.code : FCond → Nat
  | .eq => 0 | .ne => 1 | .lt => 2 | .le => 3 | .gt => 4 | .ge => 5 | .uo => 6 | .or => 7

/-- R262. -/
def ICond.code : ICond → Nat
  | .eq => 0 | .ne => 1 | .lt => 2 | .ge => 3 | .tst => 4 | .ntst => 5

/-- R239. -/
def AmoOp.code : AmoOp → Nat
  | .add => 0 | .and => 1 | .or => 2 | .xor => 3 | .minI => 4 | .maxI => 5 | .minN => 6 | .maxN => 7 | .swap => 8

/-- R241. -/
def FamoOp.code : FamoOp → Nat
  | .add => 0 | .min => 1 | .max => 2

/-- R241. -/
def FamoTy.code : FamoTy → Nat
  | .f32 => 0 | .bf16 => 1 | .f16 => 2

/-- R234. -/
def HchkSel.code : HchkSel → Nat
  | .st => 0 | .va => 1 | .lo => 2 | .last => 3

/-- R276. -/
def EngFmt.code : EngFmt → Nat
  | .mx4 => 0 | .mx8 => 1 | .mx84 => 2 | .bf16 => 3 | .ab4 => 4

/-- R320. -/
def SeamCond.code : SeamCond → Nat
  | .eq => 0 | .ne => 1 | .lt => 2 | .ge => 3

/-- R320. -/
def SeamLog.code : SeamLog → Nat
  | .and => 0 | .or => 1 | .xor => 2 | .nor => 3 | .andn => 4 | .not => 5

/-- R320. -/
def SeamRow.code : SeamRow → Nat
  | .and => 0 | .nor => 1 | .xor => 2 | .or => 3

/-- R315. -/
def QsclFmt.code : QsclFmt → Nat
  | .e4m3 => 0 | .e5m2 => 1 | .e2m1 => 2

/-! ### Fields read back -/

/-- The check of one condition. -/
def need (b : Bool) (r : Reject) : Except Reject Unit := if b then .ok () else .error r

/-- A register number of a 32-register file in a specifier field: a destination, or a source that admits no latch (R179). -/
def getReg (v : Nat) : Except Reject (Fin 32) :=
  if h : v < 32 then .ok ⟨v, h⟩ else if v < 38 then .error .wrongLatch else .error .badSpecifier

/-- A scalar source that admits no latch (R179, R251). -/
def getPlainS (v : Nat) : Except Reject SSrc := (getReg v).map SSrc.reg

/-- A scalar source (R179). -/
def getS (v : Nat) : Except Reject SSrc :=
  if h : v < 32 then .ok (.reg ⟨v, h⟩) else
  match v with
  | 32 => .ok .ls | 35 => .ok .lm | 36 => .ok .lc0 | 37 => .ok .lc1
  | 33 => .error .wrongLatch | 34 => .error .wrongLatch
  | _ => .error .badSpecifier

/-- A vector source (R179). -/
def getV (v : Nat) : Except Reject VSrc :=
  if h : v < 32 then .ok (.reg ⟨v, h⟩) else
  match v with
  | 33 => .ok .lv0 | 34 => .ok .lv1
  | 32 => .error .wrongLatch | 35 => .error .wrongLatch | 36 => .error .wrongLatch | 37 => .error .wrongLatch
  | _ => .error .badSpecifier

/-- A number below a bound, refused by name. -/
def getFin (n v : Nat) (r : Reject) : Except Reject (Fin n) := if h : v < n then .ok ⟨v, h⟩ else .error r

/-- R185. -/
def getTy (v : Nat) : Except Reject VTy :=
  match v with
  | 0 => .ok .f32 | 1 => .ok .bf16 | 2 => .ok .f16 | 3 => .ok .e4m3 | 4 => .ok .e5m2 | 5 => .ok .i32 | 6 => .ok .n32
  | 7 => .ok .i16 | 8 => .ok .n16 | 9 => .ok .i8 | 10 => .ok .n8 | _ => .error .badType

/-- R47. -/
def getMode (v : Nat) : Except Reject RMode :=
  match v with
  | 0 => .ok .rne | 1 => .ok .rtz | 2 => .ok .rdn | 3 => .ok .rup | 4 => .ok .rsr | _ => .error .badModifier

/-- R121. -/
def getScope (v : Nat) : Except Reject Scope :=
  match v with
  | 0 => .ok .core | 1 => .ok .die | 2 => .ok .mod | 3 => .ok .dom | _ => .error .badModifier

/-- R183. -/
def getHint (v : Nat) : Except Reject Hint :=
  match v with
  | 0 => .ok .none | 1 => .ok .noAlloc | 2 => .ok .bypass | _ => .error .badModifier

/-- R239. -/
def getOrd (v : Nat) : Except Reject Ord :=
  match v with
  | 0 => .ok .rlx | 1 => .ok .acq | 2 => .ok .rel | 3 => .ok .ar | _ => .error .badModifier

/-- R243. -/
def getFence (v : Nat) : Except Reject FenceMode :=
  match v with
  | 0 => .ok .acq | 1 => .ok .rel | 2 => .ok .ar | 3 => .ok .sc | _ => .error .badModifier

/-- R211. -/
def getSCond (v : Nat) : Except Reject SCond :=
  match v with
  | 0 => .ok .eq | 1 => .ok .ne | 2 => .ok .ltI | 3 => .ok .geI | 4 => .ok .ltN | 5 => .ok .geN | 6 => .ok .tst
  | 7 => .ok .ntst | _ => .error .badModifier

/-- R259. -/
def getFCond (v : Nat) : Except Reject FCond :=
  match v with
  | 0 => .ok .eq | 1 => .ok .ne | 2 => .ok .lt | 3 => .ok .le | 4 => .ok .gt | 5 => .ok .ge | 6 => .ok .uo | 7 => .ok .or
  | _ => .error .badModifier

/-- R262. -/
def getICond (v : Nat) : Except Reject ICond :=
  match v with
  | 0 => .ok .eq | 1 => .ok .ne | 2 => .ok .lt | 3 => .ok .ge | 4 => .ok .tst | 5 => .ok .ntst | _ => .error .badModifier

/-- R239. -/
def getAmo (v : Nat) : Except Reject AmoOp :=
  match v with
  | 0 => .ok .add | 1 => .ok .and | 2 => .ok .or | 3 => .ok .xor | 4 => .ok .minI | 5 => .ok .maxI | 6 => .ok .minN
  | 7 => .ok .maxN | 8 => .ok .swap | _ => .error .badModifier

/-- R241. -/
def getFamo (v : Nat) : Except Reject FamoOp :=
  match v with
  | 0 => .ok .add | 1 => .ok .min | 2 => .ok .max | _ => .error .badModifier

/-- R241. -/
def getFamoTy (v : Nat) : Except Reject FamoTy :=
  match v with
  | 0 => .ok .f32 | 1 => .ok .bf16 | 2 => .ok .f16 | _ => .error .badType

/-- R234. -/
def getHchk (v : Nat) : Except Reject HchkSel :=
  match v with
  | 0 => .ok .st | 1 => .ok .va | 2 => .ok .lo | 3 => .ok .last | _ => .error .badModifier

/-- R276. -/
def getEng (v : Nat) : Except Reject EngFmt :=
  match v with
  | 0 => .ok .mx4 | 1 => .ok .mx8 | 2 => .ok .mx84 | 3 => .ok .bf16 | 4 => .ok .ab4 | _ => .error .badModifier

/-- R320. -/
def getSeamCond (v : Nat) : Except Reject SeamCond :=
  match v with
  | 0 => .ok .eq | 1 => .ok .ne | 2 => .ok .lt | 3 => .ok .ge | _ => .error .badModifier

/-- R320. -/
def getSeamLog (v : Nat) : Except Reject SeamLog :=
  match v with
  | 0 => .ok .and | 1 => .ok .or | 2 => .ok .xor | 3 => .ok .nor | 4 => .ok .andn | 5 => .ok .not | _ => .error .badModifier

/-- R320. -/
def getSeamRow (v : Nat) : Except Reject SeamRow :=
  match v with
  | 0 => .ok .and | 1 => .ok .nor | 2 => .ok .xor | 3 => .ok .or | _ => .error .badModifier

/-- R315. -/
def getQscl (v : Nat) : Except Reject QsclFmt :=
  match v with
  | 0 => .ok .e4m3 | 1 => .ok .e5m2 | 2 => .ok .e2m1 | _ => .error .badModifier

/-! ### Words from fields -/

/-- Forms SR, VR and EN share their field boundaries (R180, R185, R186). -/
def packSr (cls minor d a b low : Nat) : Nat :=
  cls * 2 ^ 28 + minor * 2 ^ 22 + d * 2 ^ 16 + a * 2 ^ 10 + b * 2 ^ 4 + low

/-- Form SI (R181). -/
def packSi (cls minor d a imm10 : Nat) : Nat := cls * 2 ^ 28 + minor * 2 ^ 22 + d * 2 ^ 16 + a * 2 ^ 10 + imm10

/-- Form CT (R182). -/
def packCt (minor a imm16 : Nat) : Nat := 2 * 2 ^ 28 + minor * 2 ^ 22 + a * 2 ^ 16 + imm16

/-- Form MM (R183). -/
def packMm (minor sz hint d h x imm6 : Nat) : Nat :=
  3 * 2 ^ 28 + minor * 2 ^ 22 + sz * 2 ^ 20 + hint * 2 ^ 18 + d * 2 ^ 13 + h * 2 ^ 9 + x * 2 ^ 6 + imm6

/-- Form SY (R184). -/
def packSy (minor n a d scope : Nat) : Nat :=
  4 * 2 ^ 28 + minor * 2 ^ 22 + n * 2 ^ 14 + a * 2 ^ 8 + d * 2 ^ 2 + scope

/-! ### Operand groups read from a word -/

/-- IMM18 of form SI (R178). -/
def imm18 (w e : Nat) : BitVec 18 := BitVec.ofNat 18 (e * 1024 + field w 9 0)

/-- IMM24 of form CT (R178). -/
def imm24 (w e : Nat) : BitVec 24 := BitVec.ofNat 24 (e * 65536 + field w 15 0)

/-- IMM14 of form MM (R178). -/
def imm14 (w e : Nat) : BitVec 14 := BitVec.ofNat 14 (e * 64 + field w 5 0)

/-- R180, with two sources. -/
def decSr (w : Nat) : Except Reject SrOp := do
  .ok { d := ← getReg (field w 21 16), a := ← getS (field w 15 10), b := ← getS (field w 9 4), nw := flag w 3
        g := ← getFin 8 (field w 2 0) .badValue }

/-- R180, with one source: B must be zero (R209). -/
def decSrOne (w : Nat) : Except Reject SrOne := do
  need (field w 9 4 == 0) .nonZeroField
  .ok { d := ← getReg (field w 21 16), a := ← getS (field w 15 10), nw := flag w 3, g := ← getFin 8 (field w 2 0) .badValue }

/-- R181 with IMM18. -/
def decSi (w e : Nat) : Except Reject SiOp := do
  .ok { d := ← getReg (field w 21 16), a := ← getS (field w 15 10), imm := imm18 w e }

/-- R183 with IMM14. -/
def decMm (w e : Nat) : Except Reject MmOp := do
  .ok { sz := ← getFin 4 (field w 21 20) .badValue, hint := ← getHint (field w 19 18), d := ← getFin 32 (field w 17 13) .badValue
        h := ← getFin 16 (field w 12 9) .badValue, x := ← getFin 8 (field w 8 6) .badValue, imm := imm14 w e }

/-- The memory operand of class 0x4 (R238): N[3:0] and a plain register in A. -/
def decSyAddr (w : Nat) : Except Reject SyAddr := do
  .ok { h := ← getFin 16 (field w 17 14) .badValue, a := ← getReg (field w 13 8) }

/-- R185, two vector sources and F = 0. -/
def decVBin (w e : Nat) : Except Reject VBin := do
  need (field e 7 4 == 0) .badModifier
  .ok { t := ← getTy (field w 3 0), d := ← getReg (field w 21 16), a := ← getV (field w 15 10), b := ← getV (field w 9 4)
        m := ← getFin 8 (field e 2 0) .badLend, nw := flag e 3 }

/-- R185 with a rounding code in F. -/
def decVBinR (w e : Nat) : Except Reject VBinR := do
  .ok { t := ← getTy (field w 3 0), md := ← getMode (field e 7 4), d := ← getReg (field w 21 16), a := ← getV (field w 15 10)
        b := ← getV (field w 9 4), m := ← getFin 8 (field e 2 0) .badLend, nw := flag e 3 }

/-- R185 with the saturation choice of R261 in F. -/
def decVBinS (w e : Nat) : Except Reject VBinS := do
  need (field e 7 5 == 0) .badModifier
  .ok { t := ← getTy (field w 3 0), sat := flag e 4, d := ← getReg (field w 21 16), a := ← getV (field w 15 10)
        b := ← getV (field w 9 4), m := ← getFin 8 (field e 2 0) .badLend, nw := flag e 3 }

/-- R185, one vector source, B = 0 and F = 0. -/
def decVUn (w e : Nat) : Except Reject VUn := do
  need (field w 9 4 == 0) .nonZeroField; need (field e 7 4 == 0) .badModifier
  .ok { t := ← getTy (field w 3 0), d := ← getReg (field w 21 16), a := ← getV (field w 15 10)
        m := ← getFin 8 (field e 2 0) .badLend, nw := flag e 3 }

/-- R185, one vector source and a rounding code in F; the caller says what B holds. -/
def decVUnR (w e : Nat) : Except Reject VUnR := do
  .ok { t := ← getTy (field w 3 0), md := ← getMode (field e 7 4), d := ← getReg (field w 21 16), a := ← getV (field w 15 10)
        m := ← getFin 8 (field e 2 0) .badLend, nw := flag e 3 }

/-- R265. -/
def decMaskOp (f a b : Nat) : Except Reject MaskOp :=
  match f with
  | 0 => do .ok (.and (← getFin 8 a .badSpecifier) (← getFin 8 b .badSpecifier))
  | 1 => do .ok (.or (← getFin 8 a .badSpecifier) (← getFin 8 b .badSpecifier))
  | 2 => do .ok (.xor (← getFin 8 a .badSpecifier) (← getFin 8 b .badSpecifier))
  | 3 => do .ok (.andn (← getFin 8 a .badSpecifier) (← getFin 8 b .badSpecifier))
  | 4 => do need (b == 0) .nonZeroField; .ok (.not (← getFin 8 a .badSpecifier))
  | 5 => do need (b == 0) .nonZeroField; .ok (.first (← getS a))
  | _ => .error .badModifier

/-- R186 with three scalar sources. -/
def decEn3 (w : Nat) : Except Reject En3 := do
  .ok { a := ← getS (field w 21 16), b := ← getS (field w 15 10), c := ← getS (field w 9 4) }

/-- R305, R315: ticket register, card or descriptor offset, source and destination handles. -/
def decCpy (w : Nat) : Except Reject CpyOp := do
  .ok { a := ← getReg (field w 21 16), b := ← getS (field w 15 10), hs := ← getFin 16 (field w 9 4) .nonZeroField
        hd := ← getFin 16 (field w 3 0) .badValue }

/-- R319, R320: three seam operand words and PRED in lend bit 1. -/
def decSeam (w e : Nat) : Except Reject SeamOp := do
  .ok { a := ← getS (field w 21 16), b := ← getS (field w 15 10), c := ← getS (field w 9 4), pred := flag e 1 }

/-! ### One decoder per class -/

/-- Class 0x0 (r209 to r215). -/
def decScalar (w e : Nat) : Except Reject Instr :=
  match field w 27 22 with
  | 0 => do need (e == 0) .badLend; .ok (.add (← decSr w))
  | 1 => do need (e == 0) .badLend; .ok (.sub (← decSr w))
  | 2 => do need (e == 0) .badLend; .ok (.mul (← decSr w))
  | 3 => do need (e == 0) .badLend; .ok (.mulhI (← decSr w))
  | 4 => do need (e == 0) .badLend; .ok (.mulhN (← decSr w))
  | 5 => do need (e == 0) .badLend; .ok (.and (← decSr w))
  | 6 => do need (e == 0) .badLend; .ok (.or (← decSr w))
  | 7 => do need (e == 0) .badLend; .ok (.xor (← decSr w))
  | 8 => do need (e == 0) .badLend; .ok (.andn (← decSr w))
  | 9 => do need (e == 0) .badLend; .ok (.shl (← decSr w))
  | 10 => do need (e == 0) .badLend; .ok (.shr (← decSr w))
  | 11 => do need (e == 0) .badLend; .ok (.sra (← decSr w))
  | 12 => do need (e == 0) .badLend; .ok (.minI (← decSr w))
  | 13 => do need (e == 0) .badLend; .ok (.maxI (← decSr w))
  | 14 => do need (e == 0) .badLend; .ok (.minN (← decSr w))
  | 15 => do need (e == 0) .badLend; .ok (.maxN (← decSr w))
  | 16 => do
    need (e == 0) .badLend
    .ok (.cmp (← getSCond (field w 21 19)) (← getFin 8 (field w 18 16) .badValue) (← getS (field w 15 10)) (← getS (field w 9 4))
      (flag w 3) (← getFin 8 (field w 2 0) .badValue))
  | 17 => do let k ← getFin 8 e .badLend; .ok (.sel (← decSr w) k)
  | 18 => do need (e == 0) .badLend; .ok (.clz (← decSrOne w))
  | 19 => do need (e == 0) .badLend; .ok (.ctz (← decSrOne w))
  | 20 => do need (e == 0) .badLend; .ok (.popc (← decSrOne w))
  | 21 => do need (e == 0) .badLend; .ok (.bfx (← decSr w))
  | 22 => do let o ← decSr w; need (decide (e < 64)) .badLend; .ok (.bfi o (← getS e))
  | 23 => do need (e == 0) .badLend; .ok (.mov (← decSrOne w))
  | 24 => do need (e == 0) .badLend; .ok (.divI (← decSr w))
  | 25 => do need (e == 0) .badLend; .ok (.divN (← decSr w))
  | 26 => do need (e == 0) .badLend; .ok (.remI (← decSr w))
  | 27 => do need (e == 0) .badLend; .ok (.remN (← decSr w))
  | _ => .error .unassignedMinor

/-- Class 0x1 (r216). -/
def decImmediate (w e : Nat) : Except Reject Instr :=
  match field w 27 22 with
  | 0 => do .ok (.addi (← decSi w e))
  | 1 => do .ok (.andi (← decSi w e))
  | 2 => do .ok (.ori (← decSi w e))
  | 3 => do .ok (.xori (← decSi w e))
  | 4 => do need (e == 0) .badLend; .ok (.shli (← getReg (field w 21 16)) (← getS (field w 15 10)) (← getFin 64 (field w 9 0) .nonZeroField))
  | 5 => do need (e == 0) .badLend; .ok (.shri (← getReg (field w 21 16)) (← getS (field w 15 10)) (← getFin 64 (field w 9 0) .nonZeroField))
  | 6 => do need (e == 0) .badLend; .ok (.srai (← getReg (field w 21 16)) (← getS (field w 15 10)) (← getFin 64 (field w 9 0) .nonZeroField))
  | 7 => do
    .ok (.cmpi (← getSCond (field w 21 19)) (← getFin 8 (field w 18 16) .badValue) (← getS (field w 15 10)) (imm18 w e))
  | 8 => do need (field w 15 10 == 0) .nonZeroField; .ok (.movi (← getReg (field w 21 16)) (imm18 w e))
  | 9 => do .ok (.movhi (← decSi w e))
  | 10 => do need (e == 0) .badLend; .ok (.vaddr (← getReg (field w 21 16)) (← getS (field w 15 10)) (← getFin 64 (field w 9 0) .nonZeroField))
  | _ => .error .unassignedMinor

/-- Class 0x2 (r218 to r228). A `spawn` with NAMED = 0 takes any CORE and ignores it (r227; log 65). -/
def decControl (w e : Nat) : Except Reject Instr :=
  match field w 27 22 with
  | 0 => do need (field w 21 0 == 0) .nonZeroField; need (e == 0) .badLend; .ok .nop
  | 1 => do need (field w 21 16 == 0) .nonZeroField; .ok (.br (imm24 w e))
  | 2 => do need (field w 21 20 == 0) .nonZeroField; .ok (.brc (← getFin 8 (field w 18 16) .badValue) (flag w 19) (imm24 w e))
  | 3 => do .ok (.brz (← getS (field w 21 16)) (imm24 w e))
  | 4 => do .ok (.brnz (← getS (field w 21 16)) (imm24 w e))
  | 5 => do let s ← getReg (field w 21 16); need (s != 0) .badValue; .ok (.call s (imm24 w e))
  | 6 => do let a ← getS (field w 21 16); need (field w 15 0 == 0) .nonZeroField; need (e == 0) .badLend; .ok (.ret a)
  | 7 => do .ok (.jmpr (← getS (field w 21 16)) (imm24 w e))
  | 8 => do
    let a ← getS (field w 21 16)
    need (e == 0) .badLend
    let k ← getFin 8 (field w 14 12) .badValue
    need (decide (k.val ≤ 4)) .badValue
    let len ← getFin 4096 (field w 11 0) .badValue
    need (len != 0) .badValue
    .ok (.loop a (flag w 15) k len)
  | 9 => do
    let p ← getFin 8 (field w 21 16) .nonZeroField
    need (field w 15 0 == 0) .nonZeroField; need (e == 0) .badLend
    .ok (.lbreak p)
  | 10 => do
    let a ← getReg (field w 21 16)
    need (decide (a.val ≤ 26)) .badValue
    need (field w 15 13 == 0) .nonZeroField; need (e == 0) .badLend
    .ok (.spawn a (flag w 12) (← getFin 16 (field w 11 8) .badValue) (← getFin 256 (field w 7 0) .badValue))
  | 11 => do need (field w 21 0 == 0) .nonZeroField; need (e == 0) .badLend; .ok .done
  | _ => .error .unassignedMinor

/-- Class 0x3 (r229 to r237). -/
def decMemory (w e : Nat) : Except Reject Instr :=
  match field w 27 22 with
  | 0 => do .ok (.ld (← decMm w e))
  | 1 => do .ok (.st (← decMm w e))
  | 2 => do let o ← decMm w e; need (o.sz != 3) .badValue; .ok (.ldv o)
  | 3 => do let o ← decMm w e; need (o.sz != 3) .badValue; .ok (.stv o)
  | 4 => do
    need (field w 19 18 == 0) .nonZeroField; need (!flag w 21) .nonZeroField
    .ok (.xlat (flag w 20) (← getFin 32 (field w 17 13) .badValue) (← getFin 16 (field w 12 9) .badValue)
      (← getFin 8 (field w 8 6) .badValue) (imm14 w e))
  | 5 => do
    need (field w 19 18 == 0) .nonZeroField; need (field w 8 0 == 0) .nonZeroField; need (e == 0) .badLend
    .ok (.hchk (← getHchk (field w 21 20)) (← getFin 32 (field w 17 13) .badValue) (← getFin 16 (field w 12 9) .badValue))
  | 6 => do
    need (field w 21 13 == 0) .nonZeroField; need (field w 8 0 == 0) .nonZeroField; need (e == 0) .badLend
    .ok (.hdrop (← getFin 16 (field w 12 9) .badValue))
  | 7 => do
    need (field w 21 17 == 0) .nonZeroField; need (field w 8 0 == 0) .nonZeroField; need (e == 0) .badLend
    .ok (.hmov (← getFin 16 (field w 16 13) .badValue) (← getFin 16 (field w 12 9) .badValue))
  | 8 => do
    need (field w 17 13 == 0) .nonZeroField
    .ok (.pf (← getFin 4 (field w 21 20) .badValue) (← getHint (field w 19 18)) (← getFin 16 (field w 12 9) .badValue)
      (← getFin 8 (field w 8 6) .badValue) (imm14 w e))
  | 9 => do
    need (field w 21 6 == 0) .nonZeroField; need (e == 0) .badLend
    let n ← getFin 8 (field w 5 0) .nonZeroField
    need (decide (n.val ≤ 4)) .badValue
    .ok (.phase n)
  | _ => .error .unassignedMinor

/-- Class 0x4 (r238 to r251). -/
def decSync (w e : Nat) : Except Reject Instr :=
  match field w 27 22 with
  | 0 => do
    let op ← getAmo (field w 21 18)
    let m ← decSyAddr w
    let d ← getReg (field w 7 2)
    need (decide (e < 8)) .badLend
    .ok (.amo op (flag e 0) (← getOrd (field e 2 1)) (← getScope (field w 1 0)) d m)
  | 1 => do
    need (field w 21 18 == 0) .nonZeroField
    let m ← decSyAddr w
    let d ← getReg (field w 7 2)
    .ok (.cas (flag e 0) (← getOrd (field e 2 1)) (← getScope (field w 1 0)) d m (← getFin 32 (e / 8) .badLend))
  | 2 => do
    let op ← getFamo (field w 21 18)
    let m ← decSyAddr w
    let d ← getS (field w 7 2)
    need (decide (e < 4)) .badLend
    .ok (.famo op (← getFamoTy e) (← getScope (field w 1 0)) m d)
  | 3 => do
    need (field w 21 16 == 0) .nonZeroField; need (field w 13 2 == 0) .nonZeroField; need (e == 0) .badLend
    .ok (.fence (← getFence (field w 15 14)) (← getScope (field w 1 0)))
  | 4 => do
    need (field w 21 18 == 0) .nonZeroField; need (field w 1 0 == 0) .nonZeroField; need (e == 0) .badLend
    let m ← decSyAddr w
    let d ← getReg (field w 7 2)
    need (decide (d.val ≤ 25)) .badValue
    .ok (.stake m d)
  | 5 => do
    need (field w 21 18 == 0) .nonZeroField; need (field w 1 0 == 0) .nonZeroField; need (e == 0) .badLend
    let m ← decSyAddr w
    let d ← getReg (field w 7 2)
    need (decide (d.val ≤ 24)) .badValue
    .ok (.settle m d)
  | 6 => do
    need (field w 21 18 == 0) .nonZeroField; need (field w 1 0 == 0) .nonZeroField; need (e == 0) .badLend
    let m ← decSyAddr w
    .ok (.ctag (← getReg (field w 7 2)) m)
  | 7 => do
    need (field w 21 18 == 0) .nonZeroField; need (field w 7 0 == 0) .nonZeroField; need (e == 0) .badLend
    .ok (.unstake (← decSyAddr w))
  | 8 => do need (field w 13 0 == 0) .nonZeroField; need (e == 0) .badLend; .ok (.crewJoin (← getFin 256 (field w 21 14) .badValue))
  | 9 => do need (field w 13 0 == 0) .nonZeroField; need (e == 0) .badLend; .ok (.crewLeave (← getFin 256 (field w 21 14) .badValue))
  | 10 => do need (field w 13 0 == 0) .nonZeroField; need (decide (e < 2)) .badLend; .ok (.crewSync (← getFin 256 (field w 21 14) .badValue) (flag e 0))
  | 11 => do
    need (field w 7 0 == 0) .nonZeroField; need (e == 0) .badLend
    .ok (.cbArm (← getFin 64 (field w 21 14) .nonZeroField) (← getPlainS (field w 13 8)))
  | 12 => do
    need (field w 13 2 == 0) .nonZeroField; need (e == 0) .badLend
    .ok (.cbWait (← getFin 64 (field w 21 14) .nonZeroField) (← getScope (field w 1 0)))
  | 13 => do
    need (field w 7 0 == 0) .nonZeroField; need (e == 0) .badLend
    .ok (.cbAdd (← getFin 64 (field w 21 14) .nonZeroField) (← getPlainS (field w 13 8)))
  | 14 => do
    need (field w 13 8 == 0) .nonZeroField; need (field w 1 0 == 0) .nonZeroField; need (e == 0) .badLend
    .ok (.cbRead (← getReg (field w 7 2)) (← getFin 64 (field w 21 14) .nonZeroField))
  | 15 => do
    need (field w 21 14 == 0) .nonZeroField; need (field w 7 0 == 0) .nonZeroField; need (e == 0) .badLend
    .ok (.stepCommit (← getPlainS (field w 13 8)))
  | 16 => do
    need (field w 21 2 == 0) .nonZeroField; need (decide (e < 2)) .badLend
    let sc ← getScope (field w 1 0)
    need (flag e 0 || sc = .core) .nonZeroField
    .ok (.atmClose (flag e 0) sc)
  | _ => .error .unassignedMinor

/-- Class 0x5 (r257). -/
def decVFloat (w e : Nat) : Except Reject Instr :=
  match field w 27 22 with
  | 0 => do let o ← decVBinR w e; need o.t.isFF .badType; .ok (.vadd o)
  | 1 => do let o ← decVBinR w e; need o.t.isFF .badType; .ok (.vsub o)
  | 2 => do let o ← decVBinR w e; need o.t.isFF .badType; .ok (.vmul o)
  | 3 => do let o ← decVBinR w e; need o.t.isFF .badType; .ok (.vfma o)
  | 4 => do let o ← decVBinR w e; need o.t.isFF .badType; .ok (.vfms o)
  | 5 => do let o ← decVBinR w e; need o.t.isFF .badType; .ok (.vfnma o)
  | 6 => do let o ← decVBin w e; need o.t.isF8 .badType; .ok (.vmin o)
  | 7 => do let o ← decVBin w e; need o.t.isF8 .badType; .ok (.vmax o)
  | 8 => do let o ← decVUn w e; need (o.t.isF8) .badType; .ok (.vabs o)
  | 9 => do let o ← decVUn w e; need (o.t.isF8) .badType; .ok (.vneg o)
  | 10 => do
    let k ← getFin 8 (field w 21 16) .nonZeroField
    let a ← getV (field w 15 10)
    let b ← getV (field w 9 4)
    let t ← getTy (field w 3 0)
    need t.isF8 .badType
    .ok (.vcmp (← getFCond (field e 7 4)) t k a b (← getFin 8 (field e 2 0) .badLend) (flag e 3))
  | 11 => do let o ← decVBin w e; .ok (.vsel o)
  | 12 => do let o ← decVBinR w e; need o.t.isFF .badType; .ok (.vscale o)
  | 13 => do need (field w 9 4 == 0) .nonZeroField; let o ← decVUnR w e; need o.t.isFF .badType; .ok (.vround o)
  | 14 => do let o ← decVUn w e; need (o.t.isF8) .badType; .ok (.vclass o)
  | _ => .error .unassignedMinor

/-- Class 0x6 (r261 to r267). -/
def decVInt (w e : Nat) : Except Reject Instr :=
  match field w 27 22 with
  | 0 => do let o ← decVBinS w e; need o.t.isII .badType; .ok (.viadd o)
  | 1 => do let o ← decVBinS w e; need o.t.isII .badType; .ok (.visub o)
  | 2 => do let o ← decVBin w e; need o.t.isII .badType; .ok (.vimul o)
  | 3 => do let o ← decVBin w e; need o.t.isII .badType; .ok (.vimulh o)
  | 4 => do let o ← decVBin w e; .ok (.vand o)
  | 5 => do let o ← decVBin w e; .ok (.vor o)
  | 6 => do let o ← decVBin w e; .ok (.vxor o)
  | 7 => do let o ← decVBin w e; need o.t.isII .badType; .ok (.vshl o)
  | 8 => do let o ← decVBin w e; need o.t.isII .badType; .ok (.vshr o)
  | 9 => do let o ← decVBin w e; need o.t.isII .badType; .ok (.vsra o)
  | 10 => do let o ← decVBin w e; need o.t.isII .badType; .ok (.vimin o)
  | 11 => do let o ← decVBin w e; need o.t.isII .badType; .ok (.vimax o)
  | 12 => do
    let k ← getFin 8 (field w 21 16) .nonZeroField
    let a ← getV (field w 15 10)
    let b ← getV (field w 9 4)
    let t ← getTy (field w 3 0)
    need t.isII .badType
    .ok (.vicmp (← getICond (field e 7 4)) t k a b (← getFin 8 (field e 2 0) .badLend) (flag e 3))
  | 13 => do
    let o ← decVUnR w e
    let ts ← getTy (field w 7 4)
    let p ← getFin 4 (field w 9 8) .badValue
    need (decide (p.val < cvtParts o.t ts)) .badValue
    .ok (.vcvt o ts p)
  | 14 => do
    need (field w 9 4 == 0) .nonZeroField; need (field e 7 4 == 0) .badModifier
    .ok (.vbcast (← getTy (field w 3 0)) (← getReg (field w 21 16)) (← getS (field w 15 10)) (← getFin 8 (field e 2 0) .badLend) (flag e 3))
  | 15 => do let o ← decVBin w e; .ok (.vperm o)
  | 16 => do
    need (field e 7 4 == 0) .badModifier
    .ok (.vlrot (← getTy (field w 3 0)) (← getReg (field w 21 16)) (← getV (field w 15 10)) (← getS (field w 9 4))
      (← getFin 8 (field e 2 0) .badLend) (flag e 3))
  | 17 => do
    need (field e 7 4 == 0) .badModifier; need (field e 2 0 == 0) .badLend
    .ok (.vext (← getTy (field w 3 0)) (← getReg (field w 21 16)) (← getV (field w 15 10)) (← getS (field w 9 4)) (flag e 3))
  | 18 => do
    need (field e 7 4 == 0) .badModifier; need (field e 2 0 == 0) .badLend
    .ok (.vins (← getTy (field w 3 0)) (← getReg (field w 21 16)) (← getS (field w 15 10)) (← getS (field w 9 4)) (flag e 3))
  | 19 => do
    need (field e 2 0 == 0) .badLend; need (field w 3 0 == 0) .badType
    let d ← getFin 8 (field w 21 16) .badSpecifier
    .ok (.vmask (← decMaskOp (field e 7 4) (field w 15 10) (field w 9 4)) d (flag e 3))
  | 20 => do
    need (field w 9 4 == 0) .nonZeroField; need (field e 7 4 == 0) .badModifier; need (field e 2 0 == 0) .badLend
    .ok (.vmcnt (← getTy (field w 3 0)) (← getReg (field w 21 16)) (← getFin 8 (field w 15 10) .badSpecifier) (flag e 3))
  | 21 => do
    need (field w 9 0 == 0) .nonZeroField; need (field e 7 4 == 0) .badModifier; need (field e 2 0 == 0) .badLend
    .ok (.vpop (← getReg (field w 21 16)) (← getFin 8 (field w 15 10) .nonZeroField) (flag e 3))
  | 22 => do
    need (field w 21 16 == 0) .nonZeroField; need (field w 9 0 == 0) .nonZeroField; need (e == 0) .badLend
    .ok (.vwin (← getS (field w 15 10)))
  | 23 => do let o ← decVUn w e; .ok (.vmov o)
  | _ => .error .unassignedMinor

/-- Class 0x7 (r268 to r272). -/
def decVSpecial (w e : Nat) : Except Reject Instr :=
  match field w 27 22 with
  | 0 => do let o ← decVUn w e; need (decide (o.t = .f32)) .badType; .ok (.vrcpA o)
  | 1 => do let o ← decVUn w e; need (decide (o.t = .f32)) .badType; .ok (.vrsqA o)
  | 2 => do let o ← decVUn w e; need (decide (o.t = .f32)) .badType; .ok (.vexp2A o)
  | 3 => do let o ← decVUn w e; need (decide (o.t = .f32)) .badType; .ok (.vlog2A o)
  | 4 => do let o ← decVBinR w e; need o.t.isFF .badType; .ok (.vdiv o)
  | 5 => do need (field w 9 4 == 0) .nonZeroField; let o ← decVUnR w e; need o.t.isFF .badType; .ok (.vsqrt o)
  | 6 => do let o ← decVBin w e; need o.t.isII .badType; .ok (.vidiv o)
  | 7 => do let o ← decVBin w e; need o.t.isII .badType; .ok (.virem o)
  | 8 => do let o ← decVUn w e; need (o.t.isFF || o.t.isII) .badType; .ok (.vredsum o)
  | 9 => do let o ← decVUn w e; need (o.t.isF8 || o.t.isII) .badType; .ok (.vredmax o)
  | 10 => do let o ← decVUn w e; need (o.t.isF8 || o.t.isII) .badType; .ok (.vredmin o)
  | 11 => do let o ← decVBin w e; need o.t.isFF .badType; .ok (.vdot o)
  | _ => .error .unassignedMinor

/-- Class 0x8 (r275). -/
def decMatrix (w e : Nat) : Except Reject Instr :=
  match field w 27 22 with
  | 0 => do need (e == 0) .badLend; .ok (.mshape (← getEng (field w 3 0)) (← getReg (field w 21 16)) (← getS (field w 15 10)) (← getS (field w 9 4)))
  | 1 => do
    need (e == 0) .badLend
    let l ← getFin 8 (field w 2 0) .badValue
    need (decide (l.val ≤ 5) || (decide (l.val = 6) && !flag w 3)) .badValue
    .ok (.mcfg l (flag w 3) (← decEn3 w))
  | 2 => do
    need (e == 0) .badLend; need (field w 3 1 == 0) .nonZeroField
    .ok (.mopnd (flag w 0) (← getReg (field w 21 16)) (← getS (field w 15 10)) (← getFin 16 (field w 9 4) .nonZeroField))
  | 3 => do need (e == 0) .badLend; need (field w 3 0 == 0) .nonZeroField; .ok (.mrot (← decEn3 w))
  | 4 => do need (field w 21 0 == 0) .nonZeroField; .ok (.mprof (BitVec.ofNat 8 e))
  | 5 => do need (e == 0) .badLend; need (field w 3 0 == 0) .nonZeroField; .ok (.mdrain (← getReg (field w 21 16)) (← getS (field w 15 10)) (← getS (field w 9 4)))
  | 6 => do need (field w 21 0 == 0) .nonZeroField; need (e == 0) .badLend; .ok .mgo
  | 7 => do need (field w 21 0 == 0) .nonZeroField; need (e == 0) .badLend; .ok .mwait
  | 8 => do need (field w 15 0 == 0) .nonZeroField; need (e == 0) .badLend; .ok (.mstat (← getReg (field w 21 16)))
  | 9 => do
    need (field w 21 16 == 0) .nonZeroField; need (field w 3 0 == 0) .nonZeroField; need (e == 0) .badLend
    .ok (.mzero (← getS (field w 15 10)) (← getS (field w 9 4)))
  | 10 => do
    need (field w 9 1 == 0) .nonZeroField; need (e == 0) .badLend
    let q ← getFin 8 (field w 21 16) .nonZeroField
    let b ← getS (field w 15 10)
    need (flag w 0 || b = .reg 0) .nonZeroField
    .ok (.rqbind q b (flag w 0))
  | _ => .error .unassignedMinor

/-- Class 0x9 (r305, r315). -/
def decCopy (w e : Nat) : Except Reject Instr :=
  match field w 27 22 with
  | 0 => do need (e == 0) .badLend; .ok (.cpy (← decCpy w))
  | 1 => do need (e == 0) .badLend; .ok (.cpym (← decCpy w))
  | 2 => do need (e == 0) .badLend; .ok (.cpyc (← decCpy w))
  | 3 => do
    need (e == 0) .badLend
    .ok (.cpyr (← getReg (field w 21 16)) (← getS (field w 15 10)) (← getFin 8 (field w 9 4) .nonZeroField) (← getFin 16 (field w 3 0) .badValue))
  | 4 => do need (e == 0) .badLend; need (field w 9 0 == 0) .nonZeroField; .ok (.cwait (← getReg (field w 21 16)) (← getS (field w 15 10)))
  | 5 => do need (e == 0) .badLend; need (field w 9 0 == 0) .nonZeroField; .ok (.cstat (← getReg (field w 21 16)) (← getS (field w 15 10)))
  | 6 => do let o ← decCpy w; need (decide (e < 16)) .badLend; .ok (.qnt o (← getMode (field e 2 0)) (flag e 3))
  | 7 => do
    need (field w 3 0 == 0) .nonZeroField; need (decide (e < 4)) .badLend
    .ok (.qscl (← getReg (field w 21 16)) (← getS (field w 15 10)) (← getFin 16 (field w 9 4) .nonZeroField) (← getQscl e))
  | 8 => do let o ← decCpy w; need (decide (e < 8)) .badLend; .ok (.dqnt o (← getMode e))
  | _ => .error .unassignedMinor

/-- Class 0xa (r317 to r322). -/
def decSeamOp (w e : Nat) : Except Reject Instr :=
  match field w 27 22 with
  | 0 => do
    need (field w 3 0 == 0) .nonZeroField; need (decide (e < 8)) .badLend
    .ok (.sld (← getS (field w 21 16)) (← getS (field w 15 10)) (← getS (field w 9 4)) (← getFin 4 (field e 1 0) .badLend) (flag e 2))
  | 1 => do
    need (field w 3 0 == 0) .nonZeroField; need (decide (e < 8)) .badLend
    .ok (.sst (← getS (field w 21 16)) (← getS (field w 15 10)) (← getS (field w 9 4)) (← getFin 4 (field e 1 0) .badLend) (flag e 2))
  | 2 => do need (field w 3 0 == 0) .nonZeroField; need (decide (e < 4)) .badLend; .ok (.sadd (← decSeam w e) (flag e 0))
  | 3 => do need (field w 3 0 == 0) .nonZeroField; need (decide (e < 4)) .badLend; .ok (.ssub (← decSeam w e) (flag e 0))
  | 4 => do need (field w 3 0 == 0) .nonZeroField; need (e == 0 || e == 2) .badLend; .ok (.smul (← decSeam w e))
  | 5 => do need (e == 0 || e == 2) .badLend; .ok (.scmp (← getSeamCond (field w 3 0)) (← decSeam w e))
  | 6 => do
    need (field w 3 0 == 0) .nonZeroField; need (e == 0) .badLend
    .ok (.ssel (← getS (field w 21 16)) (← getS (field w 15 10)) (← getS (field w 9 4)))
  | 7 => do
    need (e == 0 || e == 2) .badLend
    let op ← getSeamLog (field w 3 0)
    let o ← decSeam w e
    need (op != .not || o.c = .reg 0) .nonZeroField
    .ok (.slog op o)
  | 8 => do need (field w 9 0 == 0) .nonZeroField; need (e == 0 || e == 2) .badLend; .ok (.scp (← getS (field w 21 16)) (← getS (field w 15 10)) (flag e 1))
  | 9 => do need (field w 15 1 == 0) .nonZeroField; need (e == 0) .badLend; .ok (.spred (← getS (field w 21 16)) (flag w 0))
  | 10 => do need (field w 9 0 == 0) .nonZeroField; need (e == 0) .badLend; .ok (.spop (← getReg (field w 21 16)) (← getS (field w 15 10)))
  | 11 => do need (e == 0 || e == 2) .badLend; .ok (.srow (← getSeamRow (field w 3 0)) (← decSeam w e))
  | 12 => do need (field w 21 16 == 0) .nonZeroField; need (field w 9 0 == 0) .nonZeroField; need (e == 0) .badLend; .ok (.swait (← getS (field w 15 10)))
  | _ => .error .unassignedMinor

/-- Class 0xb (r325 to r334). -/
def decRelay (w e : Nat) : Except Reject Instr :=
  match field w 27 22 with
  | 0 => do
    let hd ← getFin 16 e .badLend
    .ok (.rpost (← getReg (field w 21 16)) (← getS (field w 15 10)) (← getS (field w 9 4)) (← getFin 16 (field w 3 0) .badValue) hd)
  | 1 => do need (e == 0) .badLend; need (field w 9 0 == 0) .nonZeroField; .ok (.rarm (← getReg (field w 21 16)) (← getS (field w 15 10)))
  | 2 => do need (e == 0) .badLend; need (field w 9 0 == 0) .nonZeroField; .ok (.rcancel (← getReg (field w 21 16)) (← getS (field w 15 10)))
  | 3 => do need (e == 0) .badLend; need (field w 9 0 == 0) .nonZeroField; .ok (.rstat (← getReg (field w 21 16)) (← getS (field w 15 10)))
  | 4 => do
    need (e == 0) .badLend; need (field w 9 4 == 0) .nonZeroField
    .ok (.stend (← getReg (field w 21 16)) (← getS (field w 15 10)) (← getFin 16 (field w 3 0) .badValue))
  | 5 => do
    need (e == 0) .badLend; need (field w 9 4 == 0) .nonZeroField
    .ok (.sfold (← getReg (field w 21 16)) (← getS (field w 15 10)) (← getFin 16 (field w 3 0) .badValue))
  | 6 => do
    need (e == 0) .badLend; need (field w 9 4 == 0) .nonZeroField
    .ok (.sflush (← getReg (field w 21 16)) (← getS (field w 15 10)) (← getFin 16 (field w 3 0) .badValue))
  | _ => .error .unassignedMinor

/-- Class 0xc (r347). -/
def decSystem (w e : Nat) : Except Reject Instr :=
  match field w 27 22 with
  | 0 => do
    need (e == 0) .badLend; need (field w 15 10 == 0) .nonZeroField
    let n ← getFin 1024 (field w 9 0) .badValue
    need (sysAssigned n.val) .badValue
    .ok (.mfsr (← getReg (field w 21 16)) n)
  | 1 => do
    need (e == 0) .badLend; need (field w 21 16 == 0) .nonZeroField
    let n ← getFin 1024 (field w 9 0) .badValue
    need (sysWritable n.val) .badValue
    .ok (.mtsr n (← getS (field w 15 10)))
  | 2 => do need (field w 21 10 == 0) .nonZeroField; .ok (.trap (imm18 w e))
  | 3 => do need (field w 21 1 == 0) .nonZeroField; need (e == 0) .badLend; .ok (.resume (flag w 0))
  | 4 => do need (field w 21 16 == 0) .nonZeroField; need (field w 9 0 == 0) .nonZeroField; need (e == 0) .badLend; .ok (.abort (← getS (field w 15 10)))
  | 5 => do
    need (e == 0) .badLend; need (field w 9 2 == 0) .nonZeroField
    match field w 1 0 with
    | 0 => do need (field w 15 10 == 0) .nonZeroField; .ok (.time (← getReg (field w 21 16)))
    | 1 => do need (field w 15 10 == 0) .nonZeroField; .ok (.timeUnc (← getReg (field w 21 16)))
    | 2 => do need (field w 21 16 == 0) .nonZeroField; .ok (.timeUntil (← getS (field w 15 10)))
    | _ => .error .badValue
  | 6 => do
    need (e == 0) .badLend
    .ok (.cwtld (← getReg (field w 21 16)) (← getS (field w 15 10)) (← getFin 512 (field w 9 0) .nonZeroField))
  | _ => .error .unassignedMinor

/-- A class-0xE slot (R188). -/
def decShort (w e : Nat) : Except Reject Instr := do
  need (e == 0) .badLend
  .ok (.cw { index := ← getFin 512 (field w 27 19) .badValue, ofs := ← getFin 32 (field w 18 14) .badValue }
    { index := ← getFin 512 (field w 13 5) .badValue, ofs := ← getFin 32 (field w 4 0) .badValue })

/-- The instruction a slot word with its lend stands for, or the name of what is wrong with it (R175, R198 check 2, R202). -/
def decodeWord (w e : Nat) : Except Reject Instr :=
  if w = 0 then .error (if e = 0 then .emptySlot else .badLend) else
  match field w 31 28 with
  | 0 => decScalar w e
  | 1 => decImmediate w e
  | 2 => decControl w e
  | 3 => decMemory w e
  | 4 => decSync w e
  | 5 => decVFloat w e
  | 6 => decVInt w e
  | 7 => decVSpecial w e
  | 8 => decMatrix w e
  | 9 => decCopy w e
  | 10 => decSeamOp w e
  | 11 => decRelay w e
  | 12 => decSystem w e
  | 14 => decShort w e
  | 15 => .error .headerSlot
  | _ => .error .reservedClass

/-! ### The encoder -/

/-- The word and the lend of a well-formed instruction (R180 to R188, R202). An event has no word; it is given the empty slot. -/
def encode : Instr → Nat × Nat
  | .add o => (packSr 0 0 o.d.val o.a.code o.b.code (ofFlag o.nw * 8 + o.g.val), 0)
  | .sub o => (packSr 0 1 o.d.val o.a.code o.b.code (ofFlag o.nw * 8 + o.g.val), 0)
  | .mul o => (packSr 0 2 o.d.val o.a.code o.b.code (ofFlag o.nw * 8 + o.g.val), 0)
  | .mulhI o => (packSr 0 3 o.d.val o.a.code o.b.code (ofFlag o.nw * 8 + o.g.val), 0)
  | .mulhN o => (packSr 0 4 o.d.val o.a.code o.b.code (ofFlag o.nw * 8 + o.g.val), 0)
  | .and o => (packSr 0 5 o.d.val o.a.code o.b.code (ofFlag o.nw * 8 + o.g.val), 0)
  | .or o => (packSr 0 6 o.d.val o.a.code o.b.code (ofFlag o.nw * 8 + o.g.val), 0)
  | .xor o => (packSr 0 7 o.d.val o.a.code o.b.code (ofFlag o.nw * 8 + o.g.val), 0)
  | .andn o => (packSr 0 8 o.d.val o.a.code o.b.code (ofFlag o.nw * 8 + o.g.val), 0)
  | .shl o => (packSr 0 9 o.d.val o.a.code o.b.code (ofFlag o.nw * 8 + o.g.val), 0)
  | .shr o => (packSr 0 10 o.d.val o.a.code o.b.code (ofFlag o.nw * 8 + o.g.val), 0)
  | .sra o => (packSr 0 11 o.d.val o.a.code o.b.code (ofFlag o.nw * 8 + o.g.val), 0)
  | .minI o => (packSr 0 12 o.d.val o.a.code o.b.code (ofFlag o.nw * 8 + o.g.val), 0)
  | .maxI o => (packSr 0 13 o.d.val o.a.code o.b.code (ofFlag o.nw * 8 + o.g.val), 0)
  | .minN o => (packSr 0 14 o.d.val o.a.code o.b.code (ofFlag o.nw * 8 + o.g.val), 0)
  | .maxN o => (packSr 0 15 o.d.val o.a.code o.b.code (ofFlag o.nw * 8 + o.g.val), 0)
  | .bfx o => (packSr 0 21 o.d.val o.a.code o.b.code (ofFlag o.nw * 8 + o.g.val), 0)
  | .divI o => (packSr 0 24 o.d.val o.a.code o.b.code (ofFlag o.nw * 8 + o.g.val), 0)
  | .divN o => (packSr 0 25 o.d.val o.a.code o.b.code (ofFlag o.nw * 8 + o.g.val), 0)
  | .remI o => (packSr 0 26 o.d.val o.a.code o.b.code (ofFlag o.nw * 8 + o.g.val), 0)
  | .remN o => (packSr 0 27 o.d.val o.a.code o.b.code (ofFlag o.nw * 8 + o.g.val), 0)
  | .clz o => (packSr 0 18 o.d.val o.a.code 0 (ofFlag o.nw * 8 + o.g.val), 0)
  | .ctz o => (packSr 0 19 o.d.val o.a.code 0 (ofFlag o.nw * 8 + o.g.val), 0)
  | .popc o => (packSr 0 20 o.d.val o.a.code 0 (ofFlag o.nw * 8 + o.g.val), 0)
  | .mov o => (packSr 0 23 o.d.val o.a.code 0 (ofFlag o.nw * 8 + o.g.val), 0)
  | .cmp c p a b nw g => (packSr 0 16 (c.code * 8 + p.val) a.code b.code (ofFlag nw * 8 + g.val), 0)
  | .sel o k => (packSr 0 17 o.d.val o.a.code o.b.code (ofFlag o.nw * 8 + o.g.val), k.val)
  | .bfi o c => (packSr 0 22 o.d.val o.a.code o.b.code (ofFlag o.nw * 8 + o.g.val), c.code)
  | .addi o => (packSi 1 0 o.d.val o.a.code (o.imm.toNat % 1024), o.imm.toNat / 1024)
  | .andi o => (packSi 1 1 o.d.val o.a.code (o.imm.toNat % 1024), o.imm.toNat / 1024)
  | .ori o => (packSi 1 2 o.d.val o.a.code (o.imm.toNat % 1024), o.imm.toNat / 1024)
  | .xori o => (packSi 1 3 o.d.val o.a.code (o.imm.toNat % 1024), o.imm.toNat / 1024)
  | .movhi o => (packSi 1 9 o.d.val o.a.code (o.imm.toNat % 1024), o.imm.toNat / 1024)
  | .shli d a n => (packSi 1 4 d.val a.code n.val, 0)
  | .shri d a n => (packSi 1 5 d.val a.code n.val, 0)
  | .srai d a n => (packSi 1 6 d.val a.code n.val, 0)
  | .vaddr d a n => (packSi 1 10 d.val a.code n.val, 0)
  | .cmpi c p a k => (packSi 1 7 (c.code * 8 + p.val) a.code (k.toNat % 1024), k.toNat / 1024)
  | .movi d k => (packSi 1 8 d.val 0 (k.toNat % 1024), k.toNat / 1024)
  | .nop => (packCt 0 0 0, 0)
  | .br d => (packCt 1 0 (d.toNat % 65536), d.toNat / 65536)
  | .brc p n d => (packCt 2 (ofFlag n * 8 + p.val) (d.toNat % 65536), d.toNat / 65536)
  | .brz a d => (packCt 3 a.code (d.toNat % 65536), d.toNat / 65536)
  | .brnz a d => (packCt 4 a.code (d.toNat % 65536), d.toNat / 65536)
  | .call s d => (packCt 5 s.val (d.toNat % 65536), d.toNat / 65536)
  | .ret a => (packCt 6 a.code 0, 0)
  | .jmpr a n => (packCt 7 a.code (n.toNat % 65536), n.toNat / 65536)
  | .loop a pre k len => (packCt 8 a.code (ofFlag pre * 2 ^ 15 + k.val * 2 ^ 12 + len.val), 0)
  | .lbreak p => (packCt 9 p.val 0, 0)
  | .spawn a nm c en => (packCt 10 a.val (ofFlag nm * 2 ^ 12 + c.val * 2 ^ 8 + en.val), 0)
  | .done => (packCt 11 0 0, 0)
  | .ld o => (packMm 0 o.sz.val o.hint.code o.d.val o.h.val o.x.val (o.imm.toNat % 64), o.imm.toNat / 64)
  | .st o => (packMm 1 o.sz.val o.hint.code o.d.val o.h.val o.x.val (o.imm.toNat % 64), o.imm.toNat / 64)
  | .ldv o => (packMm 2 o.sz.val o.hint.code o.d.val o.h.val o.x.val (o.imm.toNat % 64), o.imm.toNat / 64)
  | .stv o => (packMm 3 o.sz.val o.hint.code o.d.val o.h.val o.x.val (o.imm.toNat % 64), o.imm.toNat / 64)
  | .xlat ro d h x k => (packMm 4 (ofFlag ro) 0 d.val h.val x.val (k.toNat % 64), k.toNat / 64)
  | .hchk s d h => (packMm 5 s.code 0 d.val h.val 0 0, 0)
  | .hdrop h => (packMm 6 0 0 0 h.val 0 0, 0)
  | .hmov hd hs => (packMm 7 0 0 hd.val hs.val 0 0, 0)
  | .pf sz hint h x k => (packMm 8 sz.val hint.code 0 h.val x.val (k.toNat % 64), k.toNat / 64)
  | .phase n => (packMm 9 0 0 0 0 0 n.val, 0)
  | .amo op w32 od sc d m => (packSy 0 (op.code * 16 + m.h.val) m.a.val d.val sc.code, od.code * 2 + ofFlag w32)
  | .cas w32 od sc d m n => (packSy 1 m.h.val m.a.val d.val sc.code, n.val * 8 + od.code * 2 + ofFlag w32)
  | .famo op ty sc m d => (packSy 2 (op.code * 16 + m.h.val) m.a.val d.code sc.code, ty.code)
  | .fence md sc => (packSy 3 md.code 0 0 sc.code, 0)
  | .stake m d => (packSy 4 m.h.val m.a.val d.val 0, 0)
  | .settle m d => (packSy 5 m.h.val m.a.val d.val 0, 0)
  | .ctag d m => (packSy 6 m.h.val m.a.val d.val 0, 0)
  | .unstake m => (packSy 7 m.h.val m.a.val 0 0, 0)
  | .crewJoin n => (packSy 8 n.val 0 0 0, 0)
  | .crewLeave n => (packSy 9 n.val 0 0 0, 0)
  | .crewSync n c => (packSy 10 n.val 0 0 0, ofFlag c)
  | .cbArm n a => (packSy 11 n.val a.code 0 0, 0)
  | .cbAdd n a => (packSy 13 n.val a.code 0 0, 0)
  | .cbWait n sc => (packSy 12 n.val 0 0 sc.code, 0)
  | .cbRead d n => (packSy 14 n.val 0 d.val 0, 0)
  | .stepCommit a => (packSy 15 0 a.code 0 0, 0)
  | .atmClose wt sc => (packSy 16 0 0 0 sc.code, ofFlag wt)
  | .vadd o => (packSr 5 0 o.d.val o.a.code o.b.code o.t.code, o.md.code * 16 + ofFlag o.nw * 8 + o.m.val)
  | .vsub o => (packSr 5 1 o.d.val o.a.code o.b.code o.t.code, o.md.code * 16 + ofFlag o.nw * 8 + o.m.val)
  | .vmul o => (packSr 5 2 o.d.val o.a.code o.b.code o.t.code, o.md.code * 16 + ofFlag o.nw * 8 + o.m.val)
  | .vfma o => (packSr 5 3 o.d.val o.a.code o.b.code o.t.code, o.md.code * 16 + ofFlag o.nw * 8 + o.m.val)
  | .vfms o => (packSr 5 4 o.d.val o.a.code o.b.code o.t.code, o.md.code * 16 + ofFlag o.nw * 8 + o.m.val)
  | .vfnma o => (packSr 5 5 o.d.val o.a.code o.b.code o.t.code, o.md.code * 16 + ofFlag o.nw * 8 + o.m.val)
  | .vscale o => (packSr 5 12 o.d.val o.a.code o.b.code o.t.code, o.md.code * 16 + ofFlag o.nw * 8 + o.m.val)
  | .vdiv o => (packSr 7 4 o.d.val o.a.code o.b.code o.t.code, o.md.code * 16 + ofFlag o.nw * 8 + o.m.val)
  | .vmin o => (packSr 5 6 o.d.val o.a.code o.b.code o.t.code, ofFlag o.nw * 8 + o.m.val)
  | .vmax o => (packSr 5 7 o.d.val o.a.code o.b.code o.t.code, ofFlag o.nw * 8 + o.m.val)
  | .vsel o => (packSr 5 11 o.d.val o.a.code o.b.code o.t.code, ofFlag o.nw * 8 + o.m.val)
  | .vimul o => (packSr 6 2 o.d.val o.a.code o.b.code o.t.code, ofFlag o.nw * 8 + o.m.val)
  | .vimulh o => (packSr 6 3 o.d.val o.a.code o.b.code o.t.code, ofFlag o.nw * 8 + o.m.val)
  | .vand o => (packSr 6 4 o.d.val o.a.code o.b.code o.t.code, ofFlag o.nw * 8 + o.m.val)
  | .vor o => (packSr 6 5 o.d.val o.a.code o.b.code o.t.code, ofFlag o.nw * 8 + o.m.val)
  | .vxor o => (packSr 6 6 o.d.val o.a.code o.b.code o.t.code, ofFlag o.nw * 8 + o.m.val)
  | .vshl o => (packSr 6 7 o.d.val o.a.code o.b.code o.t.code, ofFlag o.nw * 8 + o.m.val)
  | .vshr o => (packSr 6 8 o.d.val o.a.code o.b.code o.t.code, ofFlag o.nw * 8 + o.m.val)
  | .vsra o => (packSr 6 9 o.d.val o.a.code o.b.code o.t.code, ofFlag o.nw * 8 + o.m.val)
  | .vimin o => (packSr 6 10 o.d.val o.a.code o.b.code o.t.code, ofFlag o.nw * 8 + o.m.val)
  | .vimax o => (packSr 6 11 o.d.val o.a.code o.b.code o.t.code, ofFlag o.nw * 8 + o.m.val)
  | .vperm o => (packSr 6 15 o.d.val o.a.code o.b.code o.t.code, ofFlag o.nw * 8 + o.m.val)
  | .vidiv o => (packSr 7 6 o.d.val o.a.code o.b.code o.t.code, ofFlag o.nw * 8 + o.m.val)
  | .virem o => (packSr 7 7 o.d.val o.a.code o.b.code o.t.code, ofFlag o.nw * 8 + o.m.val)
  | .vdot o => (packSr 7 11 o.d.val o.a.code o.b.code o.t.code, ofFlag o.nw * 8 + o.m.val)
  | .vabs o => (packSr 5 8 o.d.val o.a.code 0 o.t.code, ofFlag o.nw * 8 + o.m.val)
  | .vneg o => (packSr 5 9 o.d.val o.a.code 0 o.t.code, ofFlag o.nw * 8 + o.m.val)
  | .vclass o => (packSr 5 14 o.d.val o.a.code 0 o.t.code, ofFlag o.nw * 8 + o.m.val)
  | .vmov o => (packSr 6 23 o.d.val o.a.code 0 o.t.code, ofFlag o.nw * 8 + o.m.val)
  | .vrcpA o => (packSr 7 0 o.d.val o.a.code 0 o.t.code, ofFlag o.nw * 8 + o.m.val)
  | .vrsqA o => (packSr 7 1 o.d.val o.a.code 0 o.t.code, ofFlag o.nw * 8 + o.m.val)
  | .vexp2A o => (packSr 7 2 o.d.val o.a.code 0 o.t.code, ofFlag o.nw * 8 + o.m.val)
  | .vlog2A o => (packSr 7 3 o.d.val o.a.code 0 o.t.code, ofFlag o.nw * 8 + o.m.val)
  | .vredsum o => (packSr 7 8 o.d.val o.a.code 0 o.t.code, ofFlag o.nw * 8 + o.m.val)
  | .vredmax o => (packSr 7 9 o.d.val o.a.code 0 o.t.code, ofFlag o.nw * 8 + o.m.val)
  | .vredmin o => (packSr 7 10 o.d.val o.a.code 0 o.t.code, ofFlag o.nw * 8 + o.m.val)
  | .vround o => (packSr 5 13 o.d.val o.a.code 0 o.t.code, o.md.code * 16 + ofFlag o.nw * 8 + o.m.val)
  | .vsqrt o => (packSr 7 5 o.d.val o.a.code 0 o.t.code, o.md.code * 16 + ofFlag o.nw * 8 + o.m.val)
  | .viadd o => (packSr 6 0 o.d.val o.a.code o.b.code o.t.code, ofFlag o.sat * 16 + ofFlag o.nw * 8 + o.m.val)
  | .visub o => (packSr 6 1 o.d.val o.a.code o.b.code o.t.code, ofFlag o.sat * 16 + ofFlag o.nw * 8 + o.m.val)
  | .vcmp c t k a b m nw => (packSr 5 10 k.val a.code b.code t.code, c.code * 16 + ofFlag nw * 8 + m.val)
  | .vicmp c t k a b m nw => (packSr 6 12 k.val a.code b.code t.code, c.code * 16 + ofFlag nw * 8 + m.val)
  | .vcvt o ts p => (packSr 6 13 o.d.val o.a.code (p.val * 16 + ts.code) o.t.code, o.md.code * 16 + ofFlag o.nw * 8 + o.m.val)
  | .vbcast t d a m nw => (packSr 6 14 d.val a.code 0 t.code, ofFlag nw * 8 + m.val)
  | .vlrot t d a b m nw => (packSr 6 16 d.val a.code b.code t.code, ofFlag nw * 8 + m.val)
  | .vext t d a b nw => (packSr 6 17 d.val a.code b.code t.code, ofFlag nw * 8)
  | .vins t d a b nw => (packSr 6 18 d.val a.code b.code t.code, ofFlag nw * 8)
  | .vmask (.and a b) d nw => (packSr 6 19 d.val a.val b.val 0, 0 + ofFlag nw * 8)
  | .vmask (.or a b) d nw => (packSr 6 19 d.val a.val b.val 0, 16 + ofFlag nw * 8)
  | .vmask (.xor a b) d nw => (packSr 6 19 d.val a.val b.val 0, 32 + ofFlag nw * 8)
  | .vmask (.andn a b) d nw => (packSr 6 19 d.val a.val b.val 0, 48 + ofFlag nw * 8)
  | .vmask (.not a) d nw => (packSr 6 19 d.val a.val 0 0, 64 + ofFlag nw * 8)
  | .vmask (.first a) d nw => (packSr 6 19 d.val a.code 0 0, 80 + ofFlag nw * 8)
  | .vmcnt t d a nw => (packSr 6 20 d.val a.val 0 t.code, ofFlag nw * 8)
  | .vpop d q nw => (packSr 6 21 d.val q.val 0 0, ofFlag nw * 8)
  | .vwin a => (packSr 6 22 0 a.code 0 0, 0)
  | .mshape f a b c => (packSr 8 0 a.val b.code c.code f.code, 0)
  | .mcfg l dr o => (packSr 8 1 o.a.code o.b.code o.c.code (ofFlag dr * 8 + l.val), 0)
  | .mopnd isB a b h => (packSr 8 2 a.val b.code h.val (ofFlag isB), 0)
  | .mrot o => (packSr 8 3 o.a.code o.b.code o.c.code 0, 0)
  | .mprof p => (packSr 8 4 0 0 0 0, p.toNat)
  | .mdrain a b c => (packSr 8 5 a.val b.code c.code 0, 0)
  | .mgo => (packSr 8 6 0 0 0 0, 0)
  | .mwait => (packSr 8 7 0 0 0 0, 0)
  | .mstat a => (packSr 8 8 a.val 0 0 0, 0)
  | .mzero b c => (packSr 8 9 0 b.code c.code 0, 0)
  | .rqbind q b bd => (packSr 8 10 q.val b.code 0 (ofFlag bd), 0)
  | .cpy o => (packSr 9 0 o.a.val o.b.code o.hs.val o.hd.val, 0)
  | .cpym o => (packSr 9 1 o.a.val o.b.code o.hs.val o.hd.val, 0)
  | .cpyc o => (packSr 9 2 o.a.val o.b.code o.hs.val o.hd.val, 0)
  | .cpyr a b q hd => (packSr 9 3 a.val b.code q.val hd.val, 0)
  | .cwait a b => (packSr 9 4 a.val b.code 0 0, 0)
  | .cstat a b => (packSr 9 5 a.val b.code 0 0, 0)
  | .qnt o md esc => (packSr 9 6 o.a.val o.b.code o.hs.val o.hd.val, ofFlag esc * 8 + md.code)
  | .qscl a b hs f => (packSr 9 7 a.val b.code hs.val 0, f.code)
  | .dqnt o md => (packSr 9 8 o.a.val o.b.code o.hs.val o.hd.val, md.code)
  | .sld a b c z sg => (packSr 10 0 a.code b.code c.code 0, ofFlag sg * 4 + z.val)
  | .sst a b c z sg => (packSr 10 1 a.code b.code c.code 0, ofFlag sg * 4 + z.val)
  | .sadd o sat => (packSr 10 2 o.a.code o.b.code o.c.code 0, ofFlag o.pred * 2 + ofFlag sat)
  | .ssub o sat => (packSr 10 3 o.a.code o.b.code o.c.code 0, ofFlag o.pred * 2 + ofFlag sat)
  | .smul o => (packSr 10 4 o.a.code o.b.code o.c.code 0, ofFlag o.pred * 2)
  | .scmp c o => (packSr 10 5 o.a.code o.b.code o.c.code c.code, ofFlag o.pred * 2)
  | .ssel a b c => (packSr 10 6 a.code b.code c.code 0, 0)
  | .slog op o => (packSr 10 7 o.a.code o.b.code o.c.code op.code, ofFlag o.pred * 2)
  | .scp a b p => (packSr 10 8 a.code b.code 0 0, ofFlag p * 2)
  | .spred a iv => (packSr 10 9 a.code 0 0 (ofFlag iv), 0)
  | .spop a b => (packSr 10 10 a.val b.code 0 0, 0)
  | .srow op o => (packSr 10 11 o.a.code o.b.code o.c.code op.code, ofFlag o.pred * 2)
  | .swait b => (packSr 10 12 0 b.code 0 0, 0)
  | .rpost a b c hs hd => (packSr 11 0 a.val b.code c.code hs.val, hd.val)
  | .rarm a b => (packSr 11 1 a.val b.code 0 0, 0)
  | .rcancel a b => (packSr 11 2 a.val b.code 0 0, 0)
  | .rstat a b => (packSr 11 3 a.val b.code 0 0, 0)
  | .stend a b h => (packSr 11 4 a.val b.code 0 h.val, 0)
  | .sfold a b h => (packSr 11 5 a.val b.code 0 h.val, 0)
  | .sflush a b h => (packSr 11 6 a.val b.code 0 h.val, 0)
  | .mfsr d n => (packSi 12 0 d.val 0 n.val, 0)
  | .mtsr n a => (packSi 12 1 0 a.code n.val, 0)
  | .trap n => (packSi 12 2 0 0 (n.toNat % 1024), n.toNat / 1024)
  | .resume k => (packSi 12 3 0 0 (ofFlag k), 0)
  | .abort a => (packSi 12 4 0 a.code 0, 0)
  | .time d => (packSi 12 5 d.val 0 0, 0)
  | .timeUnc d => (packSi 12 5 d.val 0 1, 0)
  | .timeUntil a => (packSi 12 5 0 a.code 2, 0)
  | .cwtld d a f => (packSi 12 6 d.val a.code f.val, 0)
  | .cw x y => (14 * 2 ^ 28 + x.index.val * 2 ^ 19 + x.ofs.val * 2 ^ 14 + y.index.val * 2 ^ 5 + y.ofs.val, 0)
  | .divideComplete .. | .phaseComplete .. | .vectorDivideComplete .. | .matrixJobStart .. | .matrixStep ..
  | .atbankChunkReturn .. | .copyStart .. | .copyChunk .. | .copyChunkAck .. | .seamMacroExecute .. | .relayTimeFire ..
  | .relayDelivery .. | .flushCommand .. | .stackCommandRelease .. | .tendBlock .. | .foldContribution ..
  | .foldStagingTake .. | .asyncEventTake .. | .stallPark .. | .yieldLimit .. | .coreParityError .. | .taskAdmission ..
  | .taskSwitch .. | .balancingExchange .. | .shiftBoundary .. | .groupSwapOut .. | .groupSwapIn .. | .crewDeadlock ..
  | .epochDeadlock .. | .claimSelfDetect .. | .storePerform .. | .loadServe .. | .atomicPerform .. | .famoHold ..
  | .famoAccept .. | .epochApply .. | .claimFirstTouch .. | .claimWaiterAdd .. | .claimTimeout .. | .walkComplete ..
  | .pageFaultResolve .. | .handleRevoke .. | .migrateFrame .. | .migrationCopy .. | .recordTake | .launchStart ..
  | .launchCompletion .. | .qtailWrite .. | .qstatClear .. | .cheadWrite .. | .peeridWrite .. | .stagingConfigWrite ..
  | .claimAreaWrite .. | .registerWrite .. | .bar2Read .. | .bar2Write .. | .certify .. | .unstamp .. | .unstampComplete ..
  | .retire .. | .mbUnstake .. | .attest .. | .getcert .. | .fwupdate .. | .coldReset | .warmReset | .firmwareBoot ..
  | .timeSyncMessage .. | .flitCrcError .. | .linkRetrain .. | .linkRetrainComplete .. | .ready .. | .arm ..
  | .gangReserveComplete .. | .ack .. | .gangGuardExpiry .. | .commit .. | .cancel .. | .gangStart .. | .gangLateExpiry ..
  | .started .. | .confirm .. | .gangAbort .. | .freeze .. | .freezeReply .. | .token .. | .patrolScrub .. | .hbmRefresh ..
  | .dieContainment .. | .watchdogFailure .. | .thermalSample .. | .coolantFlowLost | .timeUntilReached ..
  | .assayScanComplete .. | .hostLinkLoss | .queueConfigWrite .. | .pageOut .. => (0, 0)

/-! ### Entries of the control word table -/

/-- A field that an offset bit of the entry selects: (field + OFS) mod 32 for a register, a latch left as it is (R190). -/
def shiftField (sel : Bool) (v ofs : Nat) : Nat := if sel && decide (v < 32) then (v + ofs) % 32 else v

/-- The word and lend that a short form with register offset ofs executes from entry x, or why it is a bad short form (R189, R190). -/
def shortWord (x ofs : Nat) : Except Reject (Nat × Nat) := do
  need (flag x 255) .tableInvalid
  need (field x 253 248 == 0 && field x 244 244 == 0 && field x 203 0 == 0) .tableReserved
  let w := field x 235 204
  let cls := field w 31 28
  need (if flag x 254 then cls == 9 || cls == 10 || cls == 11 else cls == 5 || cls == 6 || cls == 7) .tablePort
  let d := shiftField (flag x 247) (field w 21 16) ofs
  let a := shiftField (flag x 246) (field w 15 10) ofs
  let b := shiftField (flag x 245) (field w 9 4) ofs
  .ok (packSr cls (field w 27 22) d a b (field w 3 0), field x 243 236)

/-- The instruction of a short form (R190). -/
def decodeShort (x ofs : Nat) : Except Reject Instr := do
  let (w, e) ← shortWord x ofs
  decodeWord w e

/-! ### Bundles -/

/-- A slot that holds an instruction: its number, its word and lend, and the instruction or the reason it is none. -/
structure Slot where
  num : Nat
  word : Nat
  lend : Nat
  instr : Except Reject Instr

/-- A fetched bundle (R174 to R178): the header's marks and the slots that are neither empty nor a header. -/
structure Bundle where
  ckpt : Bool
  yieldPt : Bool
  lateHeader : Option (Nat × Nat)
  badHeader : Option (Nat × Nat)
  slots : List Slot

/-- Slot word k of a 128-bit bundle (R174). -/
def slotWord (b k : Nat) : Nat := b / 2 ^ (32 * k) % 2 ^ 32

/-- The lend of slot k (R177). -/
def slotLend (b k : Nat) : Nat :=
  if field (slotWord b 0) 31 28 = 15 ∧ 1 ≤ k then field (slotWord b 0) (8 * k - 1) (8 * k - 8) else 0

/-- Slot k, when it holds something to issue or to refuse: an empty slot with a non-zero lend is refused (R178). -/
def decodeSlot (b k : Nat) : Option Slot :=
  let w := slotWord b k
  let e := slotLend b k
  if (w = 0 ∧ e = 0) ∨ (field w 31 28 = 15) then none
  else some { num := k, word := w, lend := e, instr := decodeWord w e }

/-- The decoder of a bundle. -/
def decodeBundle (b : Nat) : Bundle :=
  let h := slotWord b 0
  let isH := decide (field h 31 28 = 15)
  { ckpt := isH && flag h 27
    yieldPt := isH && flag h 26
    lateHeader := ([1, 2, 3].find? fun k => decide (field (slotWord b k) 31 28 = 15)).map fun k => (k, slotWord b k)
    badHeader := if isH && decide (field h 25 24 ≠ 0) then some (0, h) else none
    slots := [0, 1, 2, 3].filterMap (decodeSlot b) }

/-- What the decoder reads from a table row's bits alone: one slot word, and no lend (bits above nbits are zero). -/
def decodeTableWord (nbits w : Nat) : Option Instr :=
  if nbits = 32 then (decodeWord (w % 2 ^ 32) 0).toOption else none

end Sys2Proof
end

