-- ==== Sys2Proof/Machine/Map.lean ====
section
/-! DEFINITION. Sparse tables sorted by key, and byte memory in its one canonical form: addresses strictly rising and no cell
that holds what an unlisted address reads as. -/

set_option Elab.async false

namespace Sys2Proof.Machine

/-- A sparse table: (key, value) pairs with keys rising. A key that is not listed reads as the default its user names. -/
abbrev SMap (α : Type) := List (Nat × α)

/-- The value at a key. -/
def smGet {α : Type} (d : α) : SMap α → Nat → α
  | [], _ => d
  | (k', v) :: m, k => if k' = k then v else smGet d m k

/-- The table with the value v at key k. -/
def smPut {α : Type} : SMap α → Nat → α → SMap α
  | [], k, v => [(k, v)]
  | (k', v') :: m, k, v =>
    if k < k' then (k, v) :: (k', v') :: m else if k = k' then (k, v) :: m else (k', v') :: smPut m k v

/-- The table without key k. -/
def smErase {α : Type} (m : SMap α) (k : Nat) : SMap α := m.filter fun e => e.1 ≠ k

/-- The value listed at a key, if there is one. -/
def smFind {α : Type} (m : SMap α) (k : Nat) : Option α := (m.find? fun e => e.1 = k).map (·.2)

/-- A set of numbers, kept as a rising list without repeats. -/
def setInsert : List Nat → Nat → List Nat
  | [], k => [k]
  | k' :: m, k => if k < k' then k :: k' :: m else if k = k' then k' :: m else k' :: setInsert m k

/-- Byte memory (R7, R25). -/
abbrev Mem := List Host.Cell

/-- What a byte that nothing has written reads as: zero. DESIGN CHOICE (log 1): R36 leaves it undefined. -/
def memDefault : Byte := 0

/-- The byte at an address. -/
def memByte : Mem → Nat → Byte
  | [], _ => memDefault
  | (k, v) :: m, a => if k = a then v else memByte m a

/-- The n bytes from address a as one little-endian number (R7). -/
def memRead (m : Mem) (a n : Nat) : Nat :=
  m.foldl (fun acc c => if a ≤ c.1 ∧ c.1 < a + n then acc + c.2.toNat * 2 ^ (8 * (c.1 - a)) else acc) 0

/-- The cells of n bytes of v from address a, leaving out those that hold the default. -/
def memCells (a v : Nat) : Nat → Nat → Mem
  | 0, _ => []
  | n + 1, k => if byteAt v k = memDefault then memCells a v n (k + 1) else (a + k, byteAt v k) :: memCells a v n (k + 1)

/-- Memory with the low n bytes of v stored little-endian from address a. -/
def memWrite (m : Mem) (a n v : Nat) : Mem :=
  m.filter (fun c => c.1 < a) ++ memCells a v n 0 ++ m.filter (fun c => a + n ≤ c.1)

/-- The canonical form: addresses strictly rising, and no listed byte equal to the default. -/
def Mem.wf : Mem → Bool
  | [] => true
  | [c] => c.2 != memDefault
  | c :: d :: m => c.2 != memDefault && decide (c.1 < d.1) && Mem.wf (d :: m)

end Sys2Proof.Machine
end

