-- ==== Sys2Proof/Machine/State.lean ====
section
/-! DEFINITION. The state of the module, as plain data: everything the spec gives the machine, what the engines hold while a
command runs, and the model's own bookkeeping (the agenda, and the record of the bundle that is being issued). -/

set_option Elab.async false

namespace Sys2Proof.Machine

/-! ### Registers of a task -/

/-- A handle register (R89). -/
structure Handle where
  valid : Bool := false
  pending : Bool := false
  revoked : Bool := false
  read : Bool := false
  write : Bool := false
  cache : Bool := false
  checked : Bool := false
  claim : Bool := false
  tiled : Bool := false
  pinned : Bool := false
  pg2m : Bool := false
  seg : BitVec 6 := 0
  va : BitVec 57 := 0
  pa : BitVec 52 := 0
  lo : BitVec 51 := 0
  last : BitVec 51 := 0
  /-- WRITE was cleared by xlat.ro (R355, NOWRITE). -/
  noWrite : Bool := false
  deriving DecidableEq, Repr

/-- A record of the loop engine (R222). -/
structure LoopRec where
  body : Nat
  last : Nat
  t : Nat
  n : Nat
  j : Nat
  stages : Nat
  sEff : Nat
  pre : Bool
  left : Nat
  deriving DecidableEq, Repr

/-- What a commit copies and a rollback restores (R335): the live set and the duplicate set are each one of these. -/
structure Regs where
  s : Vector Word 32 := Vector.replicate 32 0
  h : Vector Handle 16 := Vector.replicate 16 {}
  p : BitVec 8 := 0
  m : Vector Mask 8 := Vector.replicate 8 0
  pc : Nat := 0
  /-- Innermost level first. -/
  loops : List LoopRec := []
  seed : Word := 0
  claimTimeout : Word := 100000000
  winBase : Nat := 0
  step : Word := 0
  callCount : Nat := 0
  yieldCount : Nat := 0
  ticket : Nat := 0
  ep : Nat := 0
  seq : Nat := 0
  hnd : Bool := false
  hse : Bool := false
  stash : Vector Word 8 := Vector.replicate 8 0
  deriving DecidableEq, Repr

/-- The six port latches (R192); none is a lost latch (R193). -/
structure Latches where
  ls : Option Word := none
  lm : Option Word := none
  lc0 : Option Word := none
  lc1 : Option Word := none
  lv0 : Option Row := none
  lv1 : Option Row := none
  deriving DecidableEq, Repr

/-- A store on its way (R122): its address, its bytes, and where it came from. -/
structure Store where
  pa : Nat
  len : Nat
  data : Nat
  hint : Hint := .none
  cache : Bool := false
  claimSeg : Bool := false
  die : Nat := 0
  core : Nat := 0
  task : Nat := 0
  launch : Nat := 0
  /-- Place among the messages sent (R407). -/
  no : Nat := 0
  deriving DecidableEq, Repr

/-! ### The matrix engine's parameters and job -/

/-- A granted output region (R276). -/
structure Grant where
  m : Nat
  n : Nat
  k : Nat
  fmt : EngFmt
  cb : Nat
  deriving DecidableEq, Repr

/-- A level of the loop-nest table: the three packed words of R278 and the drain flag. -/
structure Level where
  a : Word := 0
  b : Word := 0
  c : Word := 0
  drain : Bool := false
  deriving DecidableEq, Repr

/-- An operand: its descriptor (R280) and the handle copy (R282). -/
structure Operand where
  desc : BitVec 512
  h : Handle
  deriving DecidableEq, Repr

/-- A set of matrix parameters (R273, R356). -/
structure MSet where
  grant : Option Grant := none
  levels : Vector Level 6 := Vector.replicate 6 {}
  orgA : Word := 0
  orgB : Word := 0
  orgC : Word := 0
  opA : Option Operand := none
  opB : Option Operand := none
  rot : Word := 0x200
  rk : Word := 0
  qk : Word := 0
  prof : BitVec 8 := 0
  drain : Word := 0x10
  dk : Word := 0
  deriving DecidableEq, Repr

/-- The states of a job (R293). -/
inductive JState where
  | done | queued | running | parked | stopped
  deriving DecidableEq, Repr

/-- What a trap record holds beyond the machine's own fields (R343). -/
structure TrapRec where
  code : Nat
  aux : Nat := 0
  asyncT : Bool := false
  write : Bool := false
  addr : Nat := 0
  info : Nat := 0
  info2 : Nat := 0
  deriving DecidableEq, Repr

/-- The tile held in the engine: its coordinates and its 48 rows (R20, R279). -/
structure Tile where
  cm : Int
  cn : Int
  rows : List Row
  deriving DecidableEq, Repr

/-- A matrix job (R289 to R293, R355). -/
structure Job where
  state : JState := .done
  /-- Counters i0 to i5 of the next step. -/
  idx : List Nat := [0, 0, 0, 0, 0, 0]
  steps : Nat := 0
  pend : Option TrapRec := none
  faultCode : Nat := 0
  rotNone : Bool := false
  rqFull : Bool := false
  onHandle : Bool := false
  tile : Option Tile := none
  /-- The job stops at its next step boundary: its task stopped at a yield point (R292). -/
  halt : Bool := false
  /-- Under .ab4: the chunk of the next step has come back from the stack (R288), as its 48 rows of partial sums. -/
  chunk : Option (List Row) := none
  /-- Under .ab4: B's arrays, held at their home L2 for the job (R287), and whether the flush has been made. -/
  ranges : List (Nat × Nat) := []
  flushed : Bool := false
  released : Bool := false
  /-- Place in the issue order of the stack commands (R114), and among the messages sent (R407). -/
  order : Nat := 0
  no : Nat := 0
  deriving DecidableEq, Repr

/-! ### The bundle being issued -/

/-- An operation of a bundle that its engine has accepted and whose value is still to come (R362): its place and its C port. -/
structure Later where
  slot : Nat
  half : Nat
  word : Nat
  cPort : Nat
  instr : Instr
  deriving DecidableEq, Repr

/-- The record of the bundle in issue: whose it is, and its operands as they stood before it (R176). -/
structure Issue where
  task : Nat := 0
  die : Nat := 0
  core : Nat := 0
  pc : Nat := 0
  snap : Regs := {}
  snapL : Latches := {}
  /-- The stores that the core withholds for the task before the bundle: the bundle's operands see these alone (R123, R176). -/
  stores0 : List Store := []
  /-- Window rows written in this bundle, with their contents before it and whether they were poisoned, by row address. -/
  oldRows : SMap (Row × Bool) := []
  taken : Bool := false
  /-- C-port and V-port operations already performed in this bundle (R192). -/
  vPort : Nat := 0
  cPort : Nat := 0
  slot : Nat := 0
  half : Nat := 0
  word : Nat := 0
  /-- A `trap` of this bundle, raised after it (R350), with its slot and half (R343). -/
  userTrap : Option Nat := none
  trapAt : Nat × Nat := (0, 0)
  /-- An iteration boundary of this bundle is a yield point (R222). -/
  yieldHere : Bool := false
  /-- A loop boundary of this bundle has set SYS.YIELDCOUNT (R222). -/
  counted : Bool := false
  /-- A `resume` of this bundle: its latches are lost (R349). -/
  resumed : Bool := false
  /-- The control word table before the bundle (R353). -/
  snapCwt : SMap Nat := []
  /-- Banks of the macros that this bundle has queued (R322). -/
  fresh : List Nat := []
  /-- An `mgo` of this bundle has made the job that the task has: before the bundle it had none in flight (R176, R287). -/
  newJob : Bool := false
  /-- Operations of this bundle whose engine has accepted them and still owes their value (R362). -/
  later : List Later := []
  /-- The bundle holds a committing instruction (R337), and it is a yield point (R177). -/
  committing : Bool := false
  yieldPt : Bool := false
  deriving DecidableEq, Repr

/-! ### Tasks -/

/-- Task states (R161). -/
inductive TStatus where
  | pending | queued | admitted | issuing | ready | parked | swapped | ended
  deriving DecidableEq, Repr

/-- What a bundle that waits waits for (R176): the condition whose clearing makes a task that parks on it ready again (R160). -/
inductive Stall where
  /-- The reply to the task's request at a home. -/
  | reply
  /-- The performance of the task's earlier stores (R137). -/
  | release
  /-- An interval held by the scoreboard, or by output rows of a job of the core (R100, R111). -/
  | board (pa len : Nat) (isStore : Bool)
  /-- A free entry of the scoreboard (R111). -/
  | entry
  /-- Tickets up to a number (R313). -/
  | tickets (upTo : Nat)
  /-- The task's matrix job (R295). -/
  | job
  /-- Room in the queue of a bank (R103). -/
  | bank (n : Nat)
  /-- The macros of the task in the banks of a mask (R322). -/
  | macros (mask : Nat)
  /-- The core's scalar divider (R214). -/
  | divider
  /-- The floating divider of a V port (R256). -/
  | fdiv (port : Nat)
  /-- The integer divider of a V port (R270). -/
  | idiv (port : Nat)
  /-- The home of an interval, for an atomic or a claim operation (R113, R417). -/
  | home (pa len : Nat)
  /-- The home of an interval, for a load of a claim-enabled segment or for ctag (R113, R417). -/
  | homeRead (pa len : Nat)
  /-- The task's stores that are on their way to an interval of its rows (R99). -/
  | rows (pa len : Nat)
  /-- A row of a result queue (R266). -/
  | queueRow (q : Nat)
  /-- The rows that copies have reserved in a result queue (R310). -/
  | queueReserved (q : Nat)
  /-- The relay that a result queue hands its rows to (R299). -/
  | queueHand (q : Nat)
  /-- The carve-out drain of the core (R96). -/
  | drain
  /-- Room in the hold buffer of the die (R417). -/
  | hold
  deriving DecidableEq, Repr

/-- Why a task is parked, which fixes when it is ready again (R160). -/
inductive Why where
  | none
  /-- An access through register reg, which holds an unusable handle: the handle's segment and address, and the access's (R92, R390). -/
  | handle (seg : Nat) (va : Nat) (reg : Nat) (acc : Nat) (isWrite : Bool)
  /-- The same at the issue of an engine command (R306): a poisoned page is then the command's status, and no trap (R390). -/
  | cmdHandle (seg : Nat) (va : Nat) (reg : Nat)
  | claimWait (cell va : Nat)
  | claimArea (die : Nat)
  | barrier (n : Nat)
  | crew (n round : Nat)
  | epoch (domain e : Nat)
  | spawnArea
  /-- A deterministic update of an epoch that waits for room at its home (R361). -/
  | famo (domain e pa : Nat)
  | stall (c : Stall)
  /-- The wait for the value of qscl or spop, during which the task never parks (R362). -/
  | engine
  | timeUntil (t : Nat)
  deriving DecidableEq, Repr

/-- A failed command that no cwait has reported (R313). -/
structure Failure where
  ticket : Nat
  code : Nat
  deriving DecidableEq, Repr

/-- A scan of a `qscl` whose bundle waits for its value (R315, R362): port, descriptor, handle and format. -/
structure Scan where
  port : Nat
  desc : Nat
  h : Handle
  fmt : QsclFmt
  /-- The HBM ranges that it reads (R113), and its place in the issue order of the stack commands (R114). -/
  ranges : List (Nat × Nat) := []
  order : Nat := 0
  deriving DecidableEq, Repr

/-- A task. -/
structure Task where
  key : Word := 0
  launch : Nat := 0
  /-- Epoch domain (R242): 2 n for launch n, 2 i + 1 for the evaluator with task number i and its descendants. -/
  domain : Nat := 0
  die : Nat := 0
  core : Nat := 0
  entry : Nat := 0
  /-- Footprint index of R375. -/
  footIdx : Nat := 0
  status : TStatus := .ended
  parkedOn : Why := .none
  /-- Park state kept while the group is swapped out. -/
  swapParked : Bool := false
  started : Bool := false
  /-- Its admission waited in the dependence table (R97). -/
  waitedInTable : Bool := false
  named : Bool := false
  parent : Option Nat := none
  /-- The claim cell, for an evaluator (R169). -/
  evalCell : Option Nat := none
  /-- Effective level (R157, R170). -/
  level : Nat := 0
  live : Regs := {}
  dup : Regs := {}
  latches : Latches := {}
  /-- Task rows saved since the last checkpoint, with their contents (R255). -/
  shadow : SMap Row := []
  /-- The poisoned units of those rows as they were saved (R422). -/
  shadowBad : List Nat := []
  withheld : List Store := []
  /-- Crew arrival record: crew and round (R248). -/
  arrival : Option (Nat × Nat) := none
  /-- The epoch parts below this one are closed at the home atomic units; no rollback takes a close back (R242, R338). -/
  closedTo : Nat := 0
  ancestry : List Nat := []
  rowBase : Nat := 0
  rowCount : Nat := 0
  spadBase : Nat := 0
  spadSize : Nat := 0
  bankBase : Nat := 0
  bankCount : Nat := 0
  /-- Control word table (R189) and whether cwtld has changed it (R191). -/
  cwt : SMap Nat := []
  cwtDirty : Bool := false
  shadowSet : MSet := {}
  active : MSet := {}
  job : Job := {}
  /-- Failed commands not yet reported; the failure record is the one with the lowest ticket (R313). -/
  failures : List Failure := []
  late : Bool := false
  /-- Tickets issued and not yet completed. -/
  openTickets : List Nat := []
  /-- Some completed ticket wrote HBM of another die (R313). -/
  farTickets : List Nat := []
  /-- Pending asynchronous events (R344). -/
  softErr : Option Nat := none
  /-- Soft errors that came while the bundle was unfinished, and are taken when it has completed (R362). -/
  lateErr : List SoftErr := []
  abortTok : Option (Nat × Nat) := none
  stepMis : Option (Nat × Nat) := none
  /-- The count of bundles with which a YIELD_LIMIT that is pending has arisen (R159, R344). -/
  yieldDue : Option Nat := none
  preempt : Bool := false
  /-- A trap taken when the task next issues (R109, R119, R344). -/
  pendTrap : Option TrapRec := none
  /-- Segment and 64 KiB page of a handle that an engine command waited for at its issue, which a walk has found poisoned (R390). -/
  walkPoison : Option (Nat × Nat) := none
  /-- Clock since which the current bundle waits (R160). -/
  stallSince : Option Nat := none
  /-- What the waiting bundle waits for, should it park (R160). -/
  stallWhy : Why := .none
  /-- Slot, half and bundle of the operation that the task waits in: what a trap of the wait names (R109, R119, R343). -/
  waitAt : Nat × Nat × Nat := (0, 0, 0)
  parkTime : Nat := 0
  /-- Reply of a home to the request of the waiting bundle: address, width and data (R123). -/
  reply : Option (Nat × Nat × Nat) := none
  /-- Values that engines have returned to the waiting bundle, by C port (R362). -/
  cReply : SMap Nat := []
  scans : List Scan := []
  /-- The record of a bundle whose operations are performed but for values that engines owe: it is completed before any event (R338,
  R362). -/
  opened : Option Issue := none
  /-- A `done` or `abort` whose bundle is performed and whose steps of R228 remain: fatal code or abort status. -/
  ending : Option (Option (Nat × Bool)) := none
  /-- Tile versions bound to the task: segment and tile to frame (R87). -/
  tiles : List (Nat × Nat × Nat) := []
  /-- Base of the task's frame in the swap area (R373). -/
  swapFrame : Option Nat := none
  /-- Frames revoked while the task is swapped out, as (address, size): its handles into them are revoked as it returns (R93). -/
  revokedOut : List (Nat × Nat) := []
  /-- Predicate rows of its banks while it is swapped out (R31, R318; log 69). -/
  preds : List (BitVec 1024) := []
  /-- Time since which the group is resident or waits (R164, R165). -/
  resSince : Nat := 0
  /-- Its group is being sent out: it issues no more before it has been (R157, R164). -/
  leaving : Bool := false
  /-- The last shift of its launch on its die in which its group was resident (R165). -/
  lastRes : Nat := 0
  deriving DecidableEq, Repr

/-! ### Launches -/

/-- A segment table entry (R385). -/
structure Seg where
  valid : Bool := false
  read : Bool := false
  write : Bool := false
  pinned : Bool := false
  cache : Bool := false
  checked : Bool := false
  claim : Bool := false
  tiled : Bool := false
  tileLog : Nat := 12
  homeDie : Nat := 0
  homeMod : Nat := 0
  len64k : Nat := 0
  base : Nat := 0
  rpBase : Nat := 0
  rpCount : Nat := 0
  deriving DecidableEq, Repr

/-- A footprint range (R375). -/
structure Range where
  base : Nat
  len64 : Nat
  stride : Int
  deriving DecidableEq, Repr

/-- An entry of the entry table (R374). -/
structure Entry where
  code : Nat
  rows64 : Nat
  spad4k : Nat
  banks : Nat
  cwt : Option Nat
  rd : List Range
  wr : List Range
  deriving DecidableEq, Repr

/-- A crew (R162, R163). Members and arrivals are task numbers. -/
structure Crew where
  die : Nat
  members : List Nat := []
  /-- Members of the next round only (R163). -/
  joining : List Nat := []
  arrived : List Nat := []
  rounds : Nat := 0
  deriving DecidableEq, Repr

/-- A launch. -/
structure Launch where
  number : Nat := 0
  queue : Nat := 0
  tag : Word := 0
  seed : Word := 0
  det : Bool := false
  gang : Option Nat := none
  barrier : Nat := 0
  dies : Nat := 0
  elig : Nat := 0
  maxCarve : Nat := 0
  handler : Option Nat := none
  stamp : Nat := 0
  codeBase : Nat := 0
  codeLen : Nat := 0
  segs : List Seg := []
  entries : List Entry := []
  crews : List Crew := []
  level : Nat := 0
  swapBase : Nat := 0
  swapLen : Nat := 0
  logBase : Nat := 0
  logLen : Nat := 0
  /-- Launches whose end is a kernel boundary before this one (R370). -/
  after : List Nat := []
  accepted : Bool := false
  started : Bool := false
  startTime : Nat := 0
  nAbort : Nat := 0
  firstKey : Word := 0
  firstStat : Nat := 0
  fatal : Bool := false
  retired : Bool := false
  /-- The driver has retired it, which clears the NODE marks of its tables as it ends (R391). -/
  byDriver : Bool := false
  heldFull : Bool := false
  gangFail : Bool := false
  held : Bool := false
  ended : Bool := false
  /-- Its first task has started, at startTime (R378). -/
  timed : Bool := false
  /-- Dies of the earlier launches of its boundary that had ended when its record was taken (R145). -/
  priorDies : Nat := 0
  /-- Tile versions: segment, tile, frame and the binding task (R154). -/
  versions : List (Nat × Nat × Nat × Nat) := []
  /-- Free rename-pool tiles per segment, as frame addresses. -/
  pools : SMap (List Nat) := []
  deriving DecidableEq, Repr

/-! ### Objects of a core -/

/-- A count barrier (R108 to R110). -/
structure CB where
  count : Int := 0
  armed : Bool := false
  ovf : Bool := false
  owner : Option Nat := none
  /-- The task whose waiting `cb.wait` the barrier has completed, and whose bundle has still to be performed (R109). -/
  met : Option Nat := none
  deriving DecidableEq, Repr

/-- Relay entry states (R330). -/
inductive RState where
  | idle | posted | armed | firing | done
  deriving DecidableEq, Repr

/-- A relay entry (R323 to R330). -/
structure Relay where
  state : RState := .idle
  card : BitVec 512 := 0
  hs : Handle := {}
  hd : Handle := {}
  /-- Status of the last completion (R329), and that of the delivery in progress. -/
  status : Nat := 0
  cur : Nat := 0
  late : Bool := false
  doneRows : Nat := 0
  owner : Option Nat := none
  task : Nat := 0
  /-- The bytes of the current delivery, once its source has been read. -/
  loaded : Bool := false
  data : Nat := 0
  dataLen : Nat := 0
  /-- Next byte of the delivery. -/
  sent : Nat := 0
  deriving DecidableEq, Repr

/-- A row of a result queue (R298). -/
structure QRow where
  row : Row
  poison : Bool := false
  takenBy : Option Nat := none
  deriving DecidableEq, Repr

/-- A result queue (R298, R299, R310). -/
structure RQ where
  rows : List QRow := []
  bound : Option Nat := none
  owner : Option Nat := none
  deriving DecidableEq, Repr

/-- A seam macro in a bank queue (R103, R317 to R321): the instruction with its operand words read at issue. -/
structure Macro where
  task : Nat
  /-- The C port it issued on. -/
  port : Nat
  instr : Instr
  a : Word
  b : Word
  c : Word
  /-- Scratchpad interval of `sld` and `sst`, its scoreboard entry (R321): address, length, whether it is written. -/
  iv : Nat × Nat := (0, 0)
  isWrite : Bool := false
  /-- Commands of the core issued before it that touch its bank: it waits until they have completed (R104). -/
  after : List Nat := []
  deriving DecidableEq, Repr

/-- A seam bank's queue and predicate row (R103, R318). -/
structure Bank where
  queue : List Macro := []
  pred : BitVec 1024 := BitVec.allOnes 1024
  deriving DecidableEq, Repr

/-- A divider: busy for a task until it completes (R214, R256). -/
structure Divider where
  task : Option Nat := none
  doneAt : Nat := 0
  deriving DecidableEq, Repr

/-- A core. -/
structure Core where
  /-- The task that issues. -/
  issuing : Option Nat := none
  /-- The end of a task switch (R16). -/
  switchDone : Nat := 0
  /-- The clock in which the core last performed a bundle: it issues at most one in a clock (R15). -/
  issuedAt : Option Nat := none
  cbs : SMap CB := []
  relays : SMap Relay := []
  rqs : SMap RQ := []
  banks : SMap Bank := []
  carve : Nat := 0
  /-- A carve-out change that drains: old size, new size, clock of completion (R96). -/
  drain : Option (Nat × Nat × Nat) := none
  /-- The carve-out cache: line address to contents (R95). -/
  cache : SMap Nat := []
  divider : Divider := {}
  fdiv : SMap Divider := []
  idiv : SMap Divider := []
  /-- Tasks whose jobs wait for the engine, in order (R274). -/
  engine : List Nat := []
  deriving DecidableEq, Repr

/-! ### Objects of a die -/

/-- A claim waiter (R118, R119). -/
structure Waiter where
  task : Nat
  since : Nat
  timeout : Nat
  /-- The level that its load request carried (R170). -/
  level : Nat := 0
  deriving DecidableEq, Repr

/-- A claim-table entry (R172). -/
structure ClaimEntry where
  cell : Nat
  evaluator : Nat
  waiters : List Waiter := []
  deriving DecidableEq, Repr

/-- The die's record of an outstanding stake (R244, R401). -/
structure Stake where
  cell : Nat
  launch : Nat
  ancestry : List Nat
  deriving DecidableEq, Repr

/-- Claim tags (R115). -/
inductive Tag where
  | value | staked | working | failed
  deriving DecidableEq, Repr

/-- A contribution to a fold (R333). -/
structure Contribution where
  rank : Nat
  data : List Nat
  task : Nat
  ticket : Nat
  /-- Its handle's segment is claim-enabled. -/
  claim : Bool := false
  /-- The relay entry (die, core, entry) that sent it, when a relay did. -/
  relay : Option (Nat × Nat × Nat) := none
  deriving DecidableEq, Repr

/-- The identity of a fold round (R333): row address, length, type and rank count, with the stack it lies in. -/
structure FoldId where
  addr : Nat
  len : Nat
  bf16 : Bool
  nrank : Nat
  deriving DecidableEq, Repr

/-- An open fold round: the staging bytes that it has reserved, and the contributions that have arrived (R333, R399). -/
structure FoldRound where
  id : FoldId
  reserved : Nat
  parts : List Contribution
  deriving DecidableEq, Repr

/-- A contribution on its way to its stack or held there, or an `sflush` on its way (R333, R334). -/
structure FoldMsg where
  id : FoldId
  launch : Nat
  det : Bool
  part : Contribution
  /-- The command that sends it; none for a relay. -/
  cmd : Option Nat := none
  isFlush : Bool := false
  /-- Address of the contribution's values in scratchpad, which are read as it is sent. -/
  src : Nat := 0
  /-- Held for want of staging (R399), and so counted in FSTHELD. -/
  waiting : Bool := false
  /-- Place among the messages sent (R407). -/
  no : Nat := 0
  /-- It has a place in the hold buffer of its die (R417). -/
  inHold : Bool := false
  deriving DecidableEq, Repr

/-- Registers of a home stack (R398). -/
structure StackRegs where
  fstBase : Word := 0
  fstLen : Nat := 0
  twBase : SMap Word := []
  twLen : SMap Nat := []
  deriving DecidableEq, Repr

/-- A shift in progress on a die (R164): the launch, a task of the group that leaves, while one does, and a task of the group that
is to come in. -/
structure Shift where
  launch : Nat
  out : Option Nat
  into : Nat
  deriving DecidableEq, Repr

/-- A die. -/
structure Die where
  /-- Device time (R410) and its published uncertainty (R411). -/
  time : Nat := 0
  timeUnc : Word := BitVec.allOnes 64
  /-- Rate adjustment in parts per million, and the fraction of a nanosecond carried between clocks. -/
  ppm : Int := 0
  frac : Nat := 0
  moduleId : Nat := 0
  domSize : Nat := 1
  timeRoot : Nat := 0
  yieldLimit : Nat := 16384
  /-- The remote-data cache: line address to contents (R106). -/
  rdc : SMap Nat := []
  claims : List ClaimEntry := []
  stakes : List Stake := []
  clBase : Word := 0
  clLen : Nat := 0
  stackRegs : SMap StackRegs := []
  /-- Translation cache: launch, segment, page base offset, 2 MiB page, leaf word (R390). -/
  tlb : List (Nat × Nat × Nat × Bool × Nat) := []
  contained : Bool := false
  seqNo : Nat := 0
  gate : Nat := 0
  /-- Telemetry words 0 to 5 (R429). -/
  telemetry : SMap Word := []
  balancing : Bool := false
  parity : Bool := false
  lastExchange : Nat := 0
  shiftLen : Nat := 200000
  /-- Device time of the last shift boundary of each launch (R164), and the number of shifts so far (R165). -/
  lastShift : SMap Nat := []
  shiftNo : SMap Nat := []
  /-- The groups that firmware has chosen for the next shift of each launch, by a task of each: the one to leave, and the one to come in
  (R165, R383). -/
  rotation : SMap (Nat × Nat) := []
  /-- Shifts in progress (R164). -/
  shifts : List Shift := []
  /-- The controller has verified its boot chain (R430). -/
  booted : Bool := false
  /-- The cap that firmware holds the die to, in milliwatts: 540 W by default (R432). -/
  powerCap : Nat := 540000
  deriving DecidableEq, Repr

/-! ### Engine commands and requests in flight -/

/-- The commands that take tickets (R301). -/
inductive CmdKind where
  | cpy | cpym | cpyc | cpyr (q : Nat) | qnt (md : RMode) (esc : Bool) | dqnt (md : RMode) | stend | sfold | sflush
  /-- A FOLD delivery of a relay, which is a fold command without a ticket (R327); the card is the entry number. -/
  | rfold
  deriving DecidableEq, Repr

/-- The acknowledgement of a chunk on its way to the die that issued it: the line of the command, its address, and its place among the
messages sent (R307, R407). -/
structure Ack where
  line : Nat
  pa : Nat
  no : Nat
  deriving DecidableEq, Repr

/-- A copy, assay or stack command. -/
structure Cmd where
  /-- Number of the command in the machine, in issue order. -/
  id : Nat
  /-- Place in the issue order at its stack (R114). -/
  order : Nat := 0
  task : Nat
  ticket : Nat
  kind : CmdKind
  die : Nat
  core : Nat
  launch : Nat
  /-- The card, or the two descriptors, as one number. -/
  card : Nat
  hs : Handle
  hd : Handle
  seed : Word
  det : Bool := false
  started : Bool := false
  /-- Chunks already moved, by number. -/
  moved : List Nat := []
  /-- HBM chunks performed whose acknowledgement is on its way (R307). -/
  unacked : List Ack := []
  /-- Some chunk reached window bytes held by no task (R307). -/
  dropped : Bool := false
  /-- Ranges flushed and held at the home L2 (R113): flushed and released to the stack. -/
  flushed : Bool := false
  released : Bool := false
  /-- Byte ranges in HBM that the command reads and writes (R113), as (address, length). -/
  reads : List (Nat × Nat) := []
  writes : List (Nat × Nat) := []
  /-- Intervals of the range scoreboard (R111): every byte read, every byte written. -/
  srcIv : Nat × Nat := (0, 0)
  dstIv : Nat × Nat := (0, 0)
  /-- cpyr: rows taken from the queue so far, and whether the rest can no longer come (R310). -/
  rowsIn : List QRow := []
  short : Bool := false
  need : Nat := 0
  /-- The status of a copy that a fault has stopped, while acknowledgements of its chunks are on their way (R307). -/
  stop : Option Nat := none
  /-- stend: blocks done. -/
  blocks : Nat := 0
  /-- Place of the command among the messages sent (R407), and whether it has a place in the hold buffer of its die (R417). -/
  no : Nat := 0
  inHold : Bool := false
  /-- Its stack is done with it, and its response is on its way to another die: its status, and its place among the messages sent
  (R406, R407). -/
  answer : Option (Nat × Nat) := none
  deriving DecidableEq, Repr

/-- A chunk in the hold buffer of a die: an effect of a gang task at another die, kept until the die has CONFIRM (R417). It is a line of a
copy's destination, or a part of a relay delivery. -/
structure HeldChunk where
  /-- Place among the messages sent (R407). -/
  no : Nat := 0
  launch : Nat
  /-- The die and core that issued it. -/
  die : Nat
  core : Nat
  /-- The command that moves it, or none. -/
  cmd : Option Nat := none
  /-- The relay entry that delivers it, or none. -/
  relay : Option Nat := none
  /-- Where it lands, and the runs of its bytes there: offset, length and value. -/
  pa : Nat
  runs : List (Nat × Nat × Nat)
  /-- Its bytes as the barrier counts them. -/
  len : Nat
  /-- The line of its command that it is, and its barrier. -/
  line : Nat := 0
  /-- The first part of its delivery (R328). -/
  first : Bool := false
  /-- Its handle's segment is claim-enabled. -/
  claim : Bool := false
  deriving DecidableEq, Repr

/-- A load that waits at its home (R113, R104, R417). -/
structure LoadReq where
  task : Nat
  die : Nat
  core : Nat
  pa : Nat
  len : Nat
  hint : Hint
  cache : Bool
  claimSeg : Bool
  /-- Place among the messages sent (R407). -/
  no : Nat := 0
  deriving DecidableEq, Repr

/-- An atomic on its way (R239 to R241). -/
inductive AtomKind where
  | amo (op : AmoOp) (w32 : Bool) (v : Word)
  | cas (w32 : Bool) (cmp new : Word)
  | famo (op : FamoOp) (ty : FamoTy) (v : Word)
  deriving DecidableEq, Repr

/-- An atomic that waits at its home. -/
structure AtomReq where
  task : Nat
  die : Nat
  pa : Nat
  kind : AtomKind
  /-- Its handle's segment is claim-enabled (R119). -/
  claim : Bool := false
  /-- Place among the messages sent (R407). -/
  no : Nat := 0
  deriving DecidableEq, Repr

/-- A deterministic update (R242, R402). -/
structure Update where
  domain : Nat
  ep : Nat
  key : Word
  seq : Nat
  pa : Nat
  op : FamoOp
  ty : FamoTy
  v : Word
  launch : Nat
  task : Nat := 0
  /-- Its handle's segment is claim-enabled (R119). -/
  claim : Bool := false
  /-- Accepted into the holding buffer (false) or the log region (true), and there into which record (R402). -/
  spilled : Bool := false
  place : Nat := 0
  /-- Place among the messages sent (R407). -/
  no : Nat := 0
  deriving DecidableEq, Repr

/-- A claim load that arrives at its home (R119). -/
structure ClaimReq where
  task : Nat
  cell : Nat
  /-- The level of the loader (R170). -/
  level : Nat := 0
  /-- Its home had no room for it: the task is ready again, and the touch arrives, when room frees (R118, R160, R401). -/
  stuck : Bool := false
  /-- Place among the messages sent (R407). -/
  no : Nat := 0
  deriving DecidableEq, Repr

/-- A page walk (R390): who waits, and where. -/
structure Walk where
  die : Nat
  launch : Nat
  seg : Nat
  /-- Segment offset of the page. -/
  off : Nat
  /-- A page fault or table fault is with firmware. -/
  faulted : Bool := false
  /-- A fatal configuration error was found (R390). -/
  dead : Bool := false
  deriving DecidableEq, Repr

/-- A migration in progress (R394). -/
structure Migration where
  leaf : Nat
  src : Nat
  dst : Nat
  size : Nat
  /-- Cores that have still to acknowledge the revocation: (die, core). -/
  waitCores : List (Nat × Nat)
  deriving DecidableEq, Repr

/-! ### Host interface -/

/-- A launch queue (R368). -/
structure Queue where
  qbase : Word := 0
  qsize : Nat := 4
  qtail : Nat := 0
  qhead : Nat := 0
  qerr : Bool := false
  cbase : Word := 0
  csize : Nat := 4
  chead : Nat := 0
  ctail : Nat := 0
  /-- Completions kept because the ring is full (R378). -/
  waiting : List (BitVec 512) := []
  deriving DecidableEq, Repr

/-- A stamp table entry (R380). -/
structure Stamp where
  valid : Bool := false
  base : Nat := 0
  len : Nat := 0
  digest : BitVec 256 := 0
  limit : Nat := 0
  entries : List Nat := []
  deriving DecidableEq, Repr

/-- A mailbox (R381, R382). -/
structure Mailbox where
  cmd : Word := 0
  arg : Vector Word 4 := Vector.replicate 4 0
  busy : Bool := false
  status : Nat := 0
  result : Nat := 0
  /-- The stamp that UNSTAMP waits to free. -/
  unstamping : Option Nat := none
  deriving DecidableEq, Repr

/-- A peer counter (R367). -/
structure Peer where
  id : Nat := 0
  valid : Bool := false
  bytes : Nat := 0
  deriving DecidableEq, Repr

/-- A BAR2 access that a home holds (R366): linear HBM offset, offset in the window, and what it writes. -/
structure Bar2Op where
  lin : Nat
  off : Nat
  len : Nat
  isWrite : Bool := false
  bytes : List Byte := []
  requester : Nat := 0
  /-- Place among the messages sent (R407). -/
  no : Nat := 0
  deriving DecidableEq, Repr

/-- Host-side registers of die 0 (R365 to R368). -/
structure HostIf where
  /-- Accesses that a home holds, in order of arrival (R366). -/
  bar2 : List Bar2Op := []
  win2Base : Word := 0
  /-- Size of BAR2 as a power of two, 30 to 40 (R366). -/
  win2Log : Nat := 30
  queues : SMap Queue := []
  mailbox : Mailbox := {}
  peers : SMap Peer := []
  stamps : SMap Stamp := []
  /-- MSI-X vectors signalled, latest first (R379). -/
  msix : List Nat := []
  /-- Host memory, as far as the device reads and writes it. -/
  mem : Mem := []
  /-- The completion of the last BAR2 or register read: bytes and status (0 success, 1 poisoned, 2 unsupported request). -/
  readData : List Byte := []
  readStatus : Nat := 0
  /-- The queue that the next record scan looks at first (R370). -/
  scan : Nat := 0
  /-- MSI-X table and pending bits, as plain bytes (R365; log 56). -/
  msixMem : Mem := []
  deriving DecidableEq, Repr

/-- The error log (R427 to R429). -/
structure ErrLog where
  tail : Nat := 0
  head : Nat := 0
  lost : Nat := 0
  irq : Bool := true
  /-- Entry ring, by slot. -/
  ring : SMap (BitVec 512) := []
  /-- Counters by 64 d + n. -/
  counters : SMap Nat := []
  /-- The last 64 severity-3 entries kept in module flash (R432). -/
  flash : List (BitVec 512) := []
  /-- How many of them, the latest, no boot has copied into the ring yet (R432). -/
  fresh : Nat := 0
  deriving DecidableEq, Repr

/-- A link: 8 die1 + die2 for drift links (die1 < die2), 64 + 4 die + port for plane ports (R426). -/
structure Link where
  fails : Nat := 0
  retraining : Bool := false
  retrains : List Nat := []
  retries : List Nat := []
  down : Bool := false
  deriving DecidableEq, Repr

/-! ### Gangs -/

/-- What a member die has reached (R414 to R417). -/
inductive GPhase where
  | none | ready | reserving | acked | committed | started | cancelled | failed
  deriving DecidableEq, Repr

/-- A member die of a gang, on this module or another: module, die, and what the leader has heard from it. -/
structure Member where
  mod : Nat
  die : Nat
  readyIn : Bool := false
  unc : Word := 0
  digest : BitVec 256 := 0
  ackIn : Bool := false
  startedIn : Bool := false
  reply : Option Nat := none
  /-- The step that a die of this module answered FREEZE with (R420). -/
  frozen : Option Nat := none
  deriving DecidableEq, Repr

/-- A message of a die to the leader of its gang that later ones must not overtake (R407): STARTED, the reply to FREEZE, an abort request. -/
inductive UpMsg where
  | started | reply
  | request (cause key origin : Nat)
  deriving DecidableEq, Repr

/-- A gang launch as this module sees it (R413 to R420). -/
structure Gang where
  launch : Nat
  desc : Nat
  leadMod : Nat
  leadDie : Nat
  t : Nat
  w : Nat
  guard : Nat
  digest : BitVec 256
  members : List Member
  /-- Phase of each die of this module. -/
  phases : SMap GPhase := []
  armSent : Bool := false
  commitSent : Bool := false
  cancelSent : Option (Nat × Nat × Nat) := none
  confirmSent : Bool := false
  confirmed : List Nat := []
  /-- Dies that received the tokens of an abort before CONFIRM, and so discard held effects (R418). -/
  dropped : List Nat := []
  /-- Open abort round: cause, and origin with the key that chose it. -/
  round : Option (Nat × Nat × Nat) := none
  /-- Abort requests on their way to the leader (R419): cause, key of the requester or 2^64 for a die, origin. -/
  requests : List (Nat × Nat × Nat) := []
  /-- The order of the messages that each die of this module has on its way to the leader (R407), oldest first. -/
  mail : List (Nat × UpMsg) := []
  lateMark : Bool := false
  cause : Nat := 0
  omod : Nat := 0
  odie : Nat := 0
  startT : Nat := 0
  agreed : Word := 0
  tokenFor : List Nat := []
  deriving DecidableEq, Repr

/-! ### The agenda -/

/-- Units whose stored data can be upset (R421): HBM, L2, the RDC of a die, the carve-out cache of a core, and scratchpad, accumulator
and seam banks. -/
inductive Upset where
  | hbm | l2
  | rdc (die : Nat)
  | carve (die core : Nat)
  | window
  deriving DecidableEq, Repr

/-- What moves next. The order of moves is not fixed by the spec: it is data of the state, and a statement about a step
holds for every agenda. MODEL'S OWN (log 5). -/
inductive Move where
  | bundle (die core : Nat)
  | event (i : Instr)
  | tick (n : Nat)
  /-- A line leaves a cache: the carve-out cache of a core, or the RDC of the die when no core is named (R85). -/
  | evict (die : Nat) (core : Option Nat) (line : Nat)
  /-- A dirty line is written back from its home L2 to HBM (R85). -/
  | writeBack (line : Nat)
  /-- n nanoseconds of device time pass, apart from the clocks of the cores (R6, R410). -/
  | elapse (n : Nat)
  /-- The BAR2 access of number n of those that a home holds goes on (R366). -/
  | bar2 (n : Nat)
  /-- The host sets the size of BAR2 to 2^log bytes (R366; log 52). -/
  | resize (log : Nat)
  /-- Firmware chooses the groups that leave and come in at the next shift of a launch, each named by one of its tasks (R165, R383). -/
  | rotate (die launch out into : Nat)
  /-- A read finds an error in the data that a unit stores for an address: one that is corrected, or one that is not (R421). -/
  | upset (unit : Upset) (pa : Nat) (fixed : Bool)
  /-- The response to the command of a number reaches the die that issued it (R406). -/
  | answer (id : Nat)
  /-- The chunk of a number of those held goes on to its target (R417). -/
  | land (n : Nat)
  /-- The stamp table or the boot lock fails, as the controller of a die finds (R424). -/
  | moduleFault (die : Nat)
  /-- Firmware sets the power cap of a die, in milliwatts (R432). -/
  | powerCap (die mw : Nat)
  deriving DecidableEq, Repr

/-- The machine. -/
structure State where
  agenda : List Move := []
  clock : Nat := 0
  /-- Nanoseconds that have passed (R6). -/
  elapsed : Nat := 0
  tasks : SMap Task := []
  launches : SMap Launch := []
  cores : SMap Core := []
  dies : SMap Die := []
  mem : Mem := []
  /-- Poisoned units, by address: 64-byte lines, and 8-byte segments of seam banks (R422). -/
  poison : List Nat := []
  /-- Claim tags that are not VALUE, by line address (R115). -/
  tags : SMap Tag := []
  /-- HBM lines dirty in their home L2 (R105). -/
  dirty : List Nat := []
  /-- Frames marked NODE by the walker, each with a launch that uses the node (R391). -/
  nodes : List (Nat × Nat) := []
  /-- Frames marked unusable (R396). -/
  badFrames : List Nat := []
  /-- Pages that firmware has saved in swap areas, as (address, size) (R390). -/
  saved : List (Nat × Nat) := []
  stores : List Store := []
  loads : List LoadReq := []
  atomics : List AtomReq := []
  updates : List Update := []
  /-- Deterministic updates that have arrived and found no place (R361). -/
  famoWait : List Update := []
  /-- Famo updates sent and not yet at their home. -/
  famoSent : List Update := []
  claimReqs : List ClaimReq := []
  walks : List Walk := []
  migrations : List Migration := []
  cmds : List Cmd := []
  /-- Engine commands issued so far: orders the commands of a stack (R114). MODEL'S OWN. -/
  issued : Nat := 0
  /-- Messages sent so far: orders those of one die to another (R407). MODEL'S OWN. -/
  sent : Nat := 0
  foldMsgs : List FoldMsg := []
  rounds : List FoldRound := []
  heldChunks : List HeldChunk := []
  host : HostIf := {}
  log : ErrLog := {}
  links : SMap Link := []
  gangs : List Gang := []
  bootLocked : Bool := false
  /-- The module takes no records until cold reset (R424). -/
  moduleDown : Bool := false
  poweredOff : Bool := false
  /-- The image in module flash that the next cold reset boots, and the image that was booted (R431); none for that of manufacture. -/
  flashImage : Option (List Byte) := none
  firmware : Option (List Byte) := none
  /-- Free values drawn so far: the argument of Config.freeWord. MODEL'S OWN (log 11). -/
  freeCount : Nat := 0
  iss : Issue := {}
  deriving DecidableEq, Repr

/-- Why a step stops. -/
inductive Fault where
  /-- Raised by step: the agenda names an encoded instruction as an event. It never happens to a real module, whose
  instructions are issued by cores in bundles; safe. -/
  | strayMove
  /-- Raised by step: the module has no power (R432), so nothing moves until a cold reset; safe. -/
  | noPower
  deriving DecidableEq, Repr

/-- Why an instruction has no meaning. -/
inductive Refusal where
  /-- Answered by exec's arm of an instruction that is not modelled; safe. -/
  | notModelled (mnemonic : String)
  deriving DecidableEq, Repr

/-- The state right after cold reset, with every memory byte as log 1 says and no launch taken. -/
def State.reset : State := {}

end Sys2Proof.Machine
end

