-- ==== Sys2Proof/Machine/Address.lean ====
section
/-! DEFINITION. Physical global addresses, the die-local map and the core windows (R25 to R28). -/

set_option Elab.async false

namespace Sys2Proof.Machine

/-- Module of a physical global address (R25). -/
def paModule (pa : Nat) : Nat := field pa 51 42

/-- Die of a physical global address (R25). -/
def paDie (pa : Nat) : Nat := field pa 41 39

/-- Die-local part of a physical global address (R25). -/
def paLocal (pa : Nat) : Nat := field pa 38 0

/-- A module-local address as a physical global address of a module (R369). -/
def globalOf (module ml : Nat) : Nat := module * 2 ^ 42 + ml % 2 ^ 42

/-- The first local address past the home stacks (R26). -/
def hbmEnd : Nat := 0x1800000000

/-- Local base of the core windows (R26). -/
def winBase0 : Nat := 0x4000000000

/-- Size of a core window (R26). -/
def winSize : Nat := 0x2000000

/-- The byte lies in HBM (R26). -/
def isHbm (pa : Nat) : Bool := decide (paLocal pa < hbmEnd)

/-- The home stack of an HBM byte, 0 or 1 (R26). -/
def paStack (pa : Nat) : Nat := paLocal pa / 0xC00000000

/-- The byte lies in an assigned part of a core window (R26, R27). -/
def isWindow (pa : Nat) : Bool :=
  decide (winBase0 ≤ paLocal pa) && decide (paLocal pa < winBase0 + 16 * winSize)
    && decide ((paLocal pa - winBase0) % winSize < 0x1800000)

/-- The core whose window holds the byte (R26). -/
def paCore (pa : Nat) : Nat := (paLocal pa - winBase0) / winSize

/-- Offset in the core window (R27). -/
def paWinOff (pa : Nat) : Nat := (paLocal pa - winBase0) % winSize

/-- Kinds of assigned bytes (R26, R27). -/
inductive Place where
  | hbm | spad | seam | acc | nowhere
  deriving DecidableEq, Repr

/-- Where a byte lives (R26, R27). -/
def paPlace (pa : Nat) : Place :=
  if isHbm pa then .hbm
  else if isWindow pa then
    (if paWinOff pa < 0xC00000 then .spad else if paWinOff pa < 0x1000000 then .seam else .acc)
  else .nowhere

/-- Base of a core window of this module (R26). -/
def winAddr (module die core : Nat) : Nat := module * 2 ^ 42 + die * 2 ^ 39 + winBase0 + core * winSize

/-- Address of accumulator row n of a core (R27). -/
def rowAddr (module die core n : Nat) : Nat := winAddr module die core + 0x1000000 + n * 256

/-- Address of seam bank b of a core (R27). -/
def bankAddr (module die core b : Nat) : Nat := winAddr module die core + 0xC00000 + b * 0x20000

/-- Core-level bank number of a seam byte (R27). -/
def paBank (pa : Nat) : Nat := (paWinOff pa - 0xC00000) / 0x20000

/-- The 64-byte line of an address. -/
def lineOf (pa : Nat) : Nat := pa / 64 * 64

/-- The unit that is poisoned with a byte (R422): an 8-byte segment in a seam bank, a 64-byte line elsewhere. -/
def poisonUnit (pa : Nat) : Nat := if paPlace pa = .seam then pa / 8 * 8 else lineOf pa

/-- Two byte intervals share a byte. -/
def overlaps (a n b m : Nat) : Bool := decide (a < b + m) && decide (b < a + n) && decide (0 < n) && decide (0 < m)

/-- The interval [a, a+n) lies in [b, b+m). -/
def inside (a n b m : Nat) : Bool := decide (b ≤ a) && decide (a + n ≤ b + m)

end Sys2Proof.Machine
end

