-- ==== Sys2Proof/Machine/Ops.lean ====
section
/-! DEFINITION. The named operations over tasks, cores, dies, registers and memory; commit and rollback (R335, R336); taking a
trap (R342, R343); how an instruction's answer becomes the outcome of a step. -/

set_option Elab.async false

namespace Sys2Proof.Machine

/-! ### Tables -/

/-- Task number i. -/
def State.task (s : State) (i : Nat) : Task := smGet {} s.tasks i

/-- The state with task i replaced. -/
def State.setTask (s : State) (i : Nat) (t : Task) : State := { s with tasks := smPut s.tasks i t }

/-- The state with task i changed. -/
def State.modTask (s : State) (i : Nat) (f : Task → Task) : State := s.setTask i (f (s.task i))

/-- Key of core c of die d. -/
def coreKey (d c : Nat) : Nat := d * 16 + c

/-- Core c of die d. -/
def State.core (s : State) (d c : Nat) : Core := smGet {} s.cores (coreKey d c)

/-- The state with a core replaced. -/
def State.setCore (s : State) (d c : Nat) (x : Core) : State := { s with cores := smPut s.cores (coreKey d c) x }

/-- The state with a core changed. -/
def State.modCore (s : State) (d c : Nat) (f : Core → Core) : State := s.setCore d c (f (s.core d c))

/-- Die d. -/
def State.die (s : State) (d : Nat) : Die := smGet {} s.dies d

/-- The state with a die replaced. -/
def State.setDie (s : State) (d : Nat) (x : Die) : State := { s with dies := smPut s.dies d x }

/-- The state with a die changed. -/
def State.modDie (s : State) (d : Nat) (f : Die → Die) : State := s.setDie d (f (s.die d))

/-- Launch number n of the model's table. -/
def State.launch (s : State) (n : Nat) : Launch := smGet {} s.launches n

/-- The state with a launch replaced. -/
def State.setLaunch (s : State) (n : Nat) (x : Launch) : State := { s with launches := smPut s.launches n x }

/-- The state with a launch changed. -/
def State.modLaunch (s : State) (n : Nat) (f : Launch → Launch) : State := s.setLaunch n (f (s.launch n))

/-- Count barrier n of a core. -/
def Core.cb (c : Core) (n : Nat) : CB := smGet {} c.cbs n

/-- Relay entry n of a core. -/
def Core.relay (c : Core) (n : Nat) : Relay := smGet {} c.relays n

/-- Result queue n of a core. -/
def Core.rq (c : Core) (n : Nat) : RQ := smGet {} c.rqs n

/-- Seam bank n of a core. -/
def Core.bank (c : Core) (n : Nat) : Bank := smGet {} c.banks n

/-- Segment g of a launch (R86). -/
def Launch.seg (l : Launch) (g : Nat) : Seg := l.segs.getD g {}

/-- The task of the bundle in issue. -/
def State.me (s : State) : Task := s.task s.iss.task

/-- The state with that task changed. -/
def State.modMe (s : State) (f : Task → Task) : State := s.modTask s.iss.task f

/-- The state with that task's live registers changed. -/
def State.modLive (s : State) (f : Regs → Regs) : State := s.modMe fun t => { t with live := f t.live }

/-- The core of the bundle in issue. -/
def State.myCore (s : State) : Core := s.core s.iss.die s.iss.core

/-- The state with that core changed. -/
def State.modMyCore (s : State) (f : Core → Core) : State := s.modCore s.iss.die s.iss.core f

/-- The die of the bundle in issue. -/
def State.myDie (s : State) : Die := s.die s.iss.die

/-- The launch of the bundle in issue. -/
def State.myLaunch (s : State) : Launch := s.launch s.me.launch

/-- The module number of a die (R409). -/
def State.modId (s : State) (d : Nat) : Nat := (s.die d).moduleId

/-- Device time on a die (R410). -/
def State.time (s : State) (d : Nat) : Nat := (s.die d).time

/-! ### Register files (R199) -/

/-- S register n: S0 reads zero. -/
def Regs.rdS (r : Regs) (n : Fin 32) : Word := if n = 0 then 0 else r.s[n]

/-- S register n written: a write to S0 is discarded. -/
def Regs.wrS (r : Regs) (n : Fin 32) (v : Word) : Regs := if n = 0 then r else { r with s := r.s.set n v }

/-- Predicate n: P0 reads true. -/
def Regs.rdP (r : Regs) (n : Fin 8) : Bool := n = 0 || r.p.getLsbD n.val

/-- Predicate n written: a write to P0 is discarded. -/
def Regs.wrP (r : Regs) (n : Fin 8) (b : Bool) : Regs :=
  if n = 0 then r else { r with p := (r.p &&& ~~~(1#8 <<< n.val)) ||| ((BitVec.ofBool b).zeroExtend 8 <<< n.val) }

/-- Mask n: M0 reads all ones. -/
def Regs.rdM (r : Regs) (n : Fin 8) : Mask := if n = 0 then BitVec.allOnes 256 else r.m[n]

/-- Mask n written: a write to M0 is discarded. -/
def Regs.wrM (r : Regs) (n : Fin 8) (v : Mask) : Regs := if n = 0 then r else { r with m := r.m.set n v }

/-- Handle n. -/
def Regs.rdH (r : Regs) (n : Fin 16) : Handle := r.h[n]

/-- Handle n written. -/
def Regs.wrH (r : Regs) (n : Fin 16) (v : Handle) : Regs := { r with h := r.h.set n v }

/-- Change every handle register. -/
def Regs.mapH (r : Regs) (f : Handle → Handle) : Regs := { r with h := r.h.map f }

/-! ### Answers of an instruction -/

/-- Program-visible traps (R346). -/
inductive Trap where
  | illegalInstruction | illegalBundle | staleLatch | handleBounds | handlePermission | segmentViolation | misaligned
  | footprintViolation | claimSelf | claimFailed | claimTimeout | claimState | rqOverflow | rqUnderflow | shapeUngranted
  | seamOperand | aliasHazard | memPoison | userTrap | crewState | barrierState | yieldLimit | abortToken
  | softErrorUnrecovered | numericsProfile | stepMismatch | spawnLimit | ttExpired
  deriving DecidableEq, Repr

/-- Trap codes (R346). 0x06 is PAGE_FAULT, which no program sees (R342). -/
def Trap.code : Trap → Nat
  | .illegalInstruction => 0x01 | .illegalBundle => 0x02 | .staleLatch => 0x03 | .handleBounds => 0x04
  | .handlePermission => 0x05 | .segmentViolation => 0x07 | .misaligned => 0x08 | .footprintViolation => 0x09
  | .claimSelf => 0x0A | .claimFailed => 0x0B | .claimTimeout => 0x0C | .claimState => 0x0D | .rqOverflow => 0x0E
  | .rqUnderflow => 0x0F | .shapeUngranted => 0x10 | .seamOperand => 0x11 | .aliasHazard => 0x12 | .memPoison => 0x13
  | .userTrap => 0x14 | .crewState => 0x15 | .barrierState => 0x16 | .yieldLimit => 0x17 | .abortToken => 0x18
  | .softErrorUnrecovered => 0x19 | .numericsProfile => 0x1A | .stepMismatch => 0x1B | .spawnLimit => 0x1C | .ttExpired => 0x1D

/-- What a waiting bundle leaves behind: a request at a home, a walk, the part of crew.sync and atm.close that acts at issue
(R338), the barrier that cb.wait takes (R110), or the work of qscl and spop that their engine has accepted (R362). -/
inductive Side where
  | none
  | load (r : LoadReq)
  | atomic (r : AtomReq)
  | claim (r : ClaimReq)
  | famo (u : Update)
  | walk (w : Walk)
  | arrive (crew : Nat) (close : Bool)
  | closeEpoch
  | scan (x : Scan)
  | queue (bank : Nat) (m : Macro)
  /-- A `cb.wait` that waits is a use of its barrier, which its launch takes (R110). -/
  | own (barrier : Nat)
  deriving DecidableEq, Repr

/-- Why an instruction of a bundle does not complete now. -/
inductive Stop where
  /-- It raises a trap before it acts. -/
  | trap (r : TrapRec)
  /-- It raises the pending trap of the task's matrix job, which is then cleared (R291). -/
  | jobTrap (r : TrapRec)
  /-- A claim load raises a trap: it is an acquire at .dom whatever tag it finds (R139). -/
  | claimTrap (r : TrapRec)
  /-- Its bundle waits (R176); the cause under which it parks after 512 clocks (R160). -/
  | wait (w : Why) (side : Side)
  /-- Its task parks at once (R160). -/
  | park (w : Why) (side : Side)
  deriving DecidableEq, Repr

/-- What the effect of an instruction answers. -/
abbrev Act := Except Stop State

/-- Raise a trap with nothing in its record beyond the code. -/
def raise {α : Type} (t : Trap) : Except Stop α := .error (.trap { code := t.code })

/-- Raise a trap about an address (R346). -/
def raiseAt {α : Type} (t : Trap) (addr : Nat) (isWrite : Bool := false) : Except Stop α :=
  .error (.trap { code := t.code, addr := addr, write := isWrite })

/-- Raise a trap with INFO (R346). -/
def raiseInfo {α : Type} (t : Trap) (info : Nat) (info2 : Nat := 0) : Except Stop α :=
  .error (.trap { code := t.code, info := info, info2 := info2 })

/-- The bundle waits. -/
def waits {α : Type} (c : Stall) (side : Side := .none) : Except Stop α := .error (.wait (.stall c) side)

/-- The bundle waits for an engine's value, an epoch or a time. -/
def waitsOn {α : Type} (side : Side) (w : Why) : Except Stop α := .error (.wait w side)

/-- Raise unless the condition holds. -/
def require (b : Bool) (e : Except Stop Unit) : Except Stop Unit := if b then .ok () else e

/-! ### Memory -/

/-- n bytes of memory from a physical global address. -/
def State.bytes (s : State) (pa n : Nat) : Nat := memRead s.mem pa n

/-- The units of poison that lie wholly in [pa, pa+n) (R422). -/
def coversUnit (pa n u : Nat) : Bool := inside u (if paPlace u = .seam then 8 else 64) pa n

/-- Some byte of [pa, pa+n) is poisoned (R422). -/
def State.poisoned (s : State) (pa n : Nat) : Bool :=
  s.poison.any fun u => overlaps u (if paPlace u = .seam then 8 else 64) pa n

/-- The claim tag of the line of an address (R115). -/
def State.tag (s : State) (pa : Nat) : Tag := smGet .value s.tags (lineOf pa)

/-- The tag of a line written. -/
def State.setTag (s : State) (pa : Nat) (t : Tag) : State :=
  { s with tags := if t = .value then smErase s.tags (lineOf pa) else smPut s.tags (lineOf pa) t }

/-- Lines that the L2 of a die holds: 64 MiB (R18). -/
def l2Lines : Nat := 1048576

/-- An HBM line becomes dirty in its home L2 (R105); a full L2 writes the lowest of its dirty lines back first (R18; log 67). -/
def dirtyLine (l : List Nat) (line : Nat) : List Nat :=
  let mine := l.filter fun x => decide (paDie x = paDie line) && decide (paModule x = paModule line)
  setInsert (if mine.contains line || decide (mine.length < l2Lines) then l else l.filter fun x => decide (some x ≠ mine.head?)) line

/-- The lines that an interval touches. -/
def linesOf (pa n : Nat) : List Nat := (List.range ((pa + n + 63) / 64 - pa / 64)).map fun k => lineOf pa + 64 * k

/-- Bytes written at their home: the poison of every unit written whole is cleared (R422), and every HBM line of them is dirty in its
home L2 until it is written back (R105). -/
def State.putBytes (s : State) (pa n v : Nat) : State :=
  { s with
    mem := memWrite s.mem pa n v
    poison := s.poison.filter fun u => !coversUnit pa n u
    dirty := if isHbm pa && decide (0 < n) then (linesOf pa n).foldl dirtyLine s.dirty else s.dirty }

/-- Saved copies of a row in some task's shadow take a store from another party (R255, R422). -/
def shadowPut (t : Task) (s : State) (pa n v : Nat) : Task :=
  { t with
    shadowBad := t.shadowBad.filter fun u => !coversUnit pa n u
    shadow := t.shadow.map fun e =>
      let a := rowAddr (s.modId t.die) t.die t.core (t.rowBase + e.1)
      if overlaps pa n a 256 then
        (e.1, BitVec.ofNat 2048 (memRead (memWrite (memCells a e.2.toNat 256 0) pa n v) a 256))
      else e }

/-- A store or copy chunk from a party other than the row's own task (R255). -/
def State.putOutside (s : State) (pa n v : Nat) : State :=
  let s := s.putBytes pa n v
  if paPlace pa = .acc then { s with tasks := s.tasks.map fun e => (e.1, shadowPut e.2 s pa n v) } else s

/-! ### Caches (R95 to R97, R106, R138) -/

/-- The carve-out cache of a core is flash-invalidated (R97). -/
def State.dropCarve (s : State) (d c : Nat) : State := s.modCore d c fun x => { x with cache := [] }

/-- The RDC of a die is flash-invalidated (R106). -/
def State.dropRdc (s : State) (d : Nat) : State := s.modDie d fun x => { x with rdc := [] }

/-- An acquire at a scope by a task on core c of die d (R121, R138). -/
def State.acquire (s : State) (sc : Scope) (d c : Nat) : State :=
  match sc with
  | .core => s
  | .die => s.dropCarve d c
  | .mod => (s.dropCarve d c).dropRdc d
  | .dom => (s.dropCarve d c).dropRdc d

/-- A line copy with n bytes from address pa replaced. -/
def patchLine (line old pa n v : Nat) : Nat := memRead (memWrite (memCells line old 64 0) pa n v) line 64

/-- A store leaves its core: it updates the core's own carve-out copy of its line and invalidates the line in its die's RDC
(R97, R106, R107). -/
def State.storeLeaves (s : State) (st : Store) : State :=
  let s := s.modCore st.die st.core fun x =>
    { x with cache := x.cache.map fun e => if overlaps e.1 64 st.pa st.len then (e.1, patchLine e.1 e.2 st.pa st.len st.data) else e }
  s.modDie st.die fun x => { x with rdc := x.rdc.filter fun e => !overlaps e.1 64 st.pa st.len }

/-! ### Commit and rollback (R335, R336, R339) -/

/-- Rows of a queue that a task has popped leave it at the task's commit (R266). -/
def commitQueue (i : Nat) (q : RQ) : RQ := { q with rows := q.rows.filter fun r => r.takenBy ≠ some i }

/-- Rows of a queue that a task has popped return to the head at the task's rollback (R266). -/
def rollbackQueue (i : Nat) (q : RQ) : RQ :=
  { q with rows := q.rows.map fun r => if r.takenBy = some i then { r with takenBy := none } else r }

/-- A commit of task i (R335). -/
def State.commit (s : State) (i : Nat) : State :=
  let t := s.task i
  let s := t.withheld.foldl State.storeLeaves s
  let s := { s with
    stores := s.stores ++ t.withheld.zipIdx.map fun (x : Store × Nat) => { x.1 with no := s.sent + x.2 }
    sent := s.sent + t.withheld.length }
  let s := s.modCore t.die t.core fun x => { x with rqs := x.rqs.map fun e => (e.1, commitQueue i e.2) }
  s.modTask i fun t => { t with dup := t.live, withheld := [], shadow := [], shadowBad := [] }

/-- A divider that a task's abandoned operation held is free (R214, R256). -/
def abandon (i : Nat) (x : Divider) : Divider := if x.task = some i then {} else x

/-- A `cb.wait` that its barrier had completed, and that is not performed, leaves the barrier as it stood (R109, R338). -/
def unmeet (i : Nat) (b : CB) : CB := if b.met = some i then { b with armed := true, met := none } else b

/-- A rollback of task i to its last commit (R335). -/
def State.rollback (s : State) (i : Nat) : State :=
  let t := s.task i
  let base := s.modId t.die
  let s := t.shadow.foldl
    (fun s e => { s with mem := memWrite s.mem (rowAddr base t.die t.core (t.rowBase + e.1)) 256 e.2.toNat }) s
  let s := { s with poison := t.shadowBad.foldl setInsert s.poison }
  let s := s.modCore t.die t.core fun x =>
    { x with
      rqs := x.rqs.map fun e => (e.1, rollbackQueue i e.2)
      cbs := x.cbs.map fun e => (e.1, unmeet i e.2)
      divider := abandon i x.divider
      fdiv := x.fdiv.map fun e => (e.1, abandon i e.2)
      idiv := x.idiv.map fun e => (e.1, abandon i e.2) }
  let s := { s with
    loads := s.loads.filter fun r => r.task ≠ i
    atomics := s.atomics.filter fun r => r.task ≠ i
    famoSent := s.famoSent.filter fun u => u.task ≠ i
    famoWait := s.famoWait.filter fun u => u.task ≠ i }
  s.modTask i fun t =>
    { t with live := t.dup, withheld := [], shadow := [], shadowBad := [], latches := {}, reply := none, cReply := [], stallSince := none }

/-! ### Traps (R342, R343) -/

/-- The word of S24 in a trap record (R343). -/
def trapWord (r : TrapRec) (after : Bool) (slot half : Nat) : Nat :=
  r.aux * 2 ^ 32 + ofFlag after * 2 ^ 13 + ofFlag r.asyncT * 2 ^ 12 + ofFlag r.write * 2 ^ 11 + half % 2 * 2 ^ 10
    + slot % 4 * 2 ^ 8 + r.code

/-- S24 to S31 replaced by eight words. -/
def Regs.setTop (r : Regs) (v : Vector Word 8) : Regs :=
  { r with s := (List.finRange 8).foldl (fun (x : Vector Word 32) k => x.set (24 + k.val) v[k]) r.s }

/-- S24 to S31 (R342). -/
def Regs.top (r : Regs) : Vector Word 8 := Vector.ofFn fun k : Fin 8 => r.s[24 + k.val]

/-- The task ends as R351 states: by abort with a status, or by a fatal trap with its code. -/
def State.endTask (s : State) (i : Nat) (status : Nat) (isFatal : Bool) : State :=
  s.modTask i fun t => { t with ending := some (some (status, isFatal)) }

/-- The eight words of a trap record (R343). -/
def trapRecord (r : TrapRec) (after : Bool) (slot half rpc fpc time : Nat) : Vector Word 8 :=
  #v[BitVec.ofNat 64 (trapWord r after slot half), BitVec.ofNat 64 rpc, BitVec.ofNat 64 fpc, BitVec.ofNat 64 r.addr,
    BitVec.ofNat 64 r.info, BitVec.ofNat 64 r.info2, BitVec.ofNat 64 time, 0]

/-- Taking an exception: TakeTrap of R342 for task i. fpc is the bundle that raised it. -/
def State.takeTrap (s : State) (i : Nat) (r : TrapRec) (slot half fpc : Nat) : State :=
  let isUser := decide (r.code = Trap.userTrap.code)
  let s := if isUser then s else s.rollback i
  let s := s.modTask i fun t => { t with latches := {}, stallSince := none }
  let t := s.task i
  match (s.launch t.launch).handler, t.live.hnd with
  | some h, false =>
    let rec8 := trapRecord r isUser slot half t.live.pc fpc (s.time t.die)
    let s := s.modTask i fun t =>
      { t with live := { t.live.setTop rec8 with
          stash := t.live.top, hnd := true, hse := decide (r.code = Trap.softErrorUnrecovered.code), yieldCount := 0, pc := h } }
    s.commit i
  | _, _ => s.endTask i r.code true

/-- The return from a handler: resume of R349, past its checks. -/
def State.resumeFrom (s : State) (i : Nat) (keep : Bool) (target : Nat) : State :=
  let s := s.modTask i fun t =>
    let r := if keep then t.live else t.live.setTop t.live.stash
    { t with live := { r with hnd := false, hse := false, yieldCount := 0, pc := target }, latches := {} }
  s.commit i

/-! ### Waiting and parking (R160) -/

/-- Task i's part of its epoch is closed at the home atomic units (R242); a repeated close changes nothing there (R338). -/
def State.closePart (s : State) (i : Nat) : State :=
  s.modTask i fun t => { t with closedTo := max t.closedTo (t.live.ep + 1) }

/-- The EP and SEQ registers after a close (R242). -/
def Regs.nextEpoch (r : Regs) : Regs := { r with ep := r.ep + 1, seq := 0 }

/-- The arrival of a member of a crew at its open round (R163, R248). -/
def crewArrive (i : Nat) (c : Crew) : Crew := if c.arrived.contains i then c else { c with arrived := c.arrived ++ [i] }

/-- A round completes when every member has arrived (R163). -/
def crewSettle (c : Crew) : Crew :=
  if !c.arrived.isEmpty && c.members.all c.arrived.contains then
    { c with arrived := [], rounds := c.rounds + 1, members := c.members ++ c.joining, joining := [] }
  else c

/-- Change crew n of a launch. -/
def State.modCrew (s : State) (l n : Nat) (f : Crew → Crew) : State :=
  s.modLaunch l fun x => { x with crews := x.crews.modify n f }

/-- Apply what a waiting bundle leaves behind. -/
def State.applySide (s : State) : Side → State
  | .none => s
  | .load r => if s.loads.any (fun x => x.task = r.task) then s
    else { s with loads := s.loads ++ [{ r with no := s.sent }], sent := s.sent + 1 }
  | .atomic r => if s.atomics.any (fun x => x.task = r.task) then s
    else { s with atomics := s.atomics ++ [{ r with no := s.sent }], sent := s.sent + 1 }
  | .famo u => if (s.famoSent ++ s.famoWait).any (fun x => x.task = u.task && x.seq = u.seq && x.ep = u.ep) then s
    else { s with famoSent := s.famoSent ++ [{ u with no := s.sent }], sent := s.sent + 1 }
  | .claim r =>
    let s := s.acquire .dom s.iss.die s.iss.core
    if s.claimReqs.any (fun x => x.task = r.task) then s
    else { s with claimReqs := s.claimReqs ++ [{ r with no := s.sent }], sent := s.sent + 1 }
  | .walk w =>
    if s.walks.any (fun x => x.die = w.die && x.launch = w.launch && x.seg = w.seg && x.off = w.off) then s
    else { s with walks := s.walks ++ [w] }
  | .arrive n close =>
    let i := s.iss.task
    let l := s.me.launch
    let round := ((s.launch l).crews.getD n { die := 0 }).rounds
    let s := s.modCrew l n fun c => crewSettle (crewArrive i c)
    let s := s.modTask i fun t => { t with arrival := some (n, round) }
    if close && (s.launch l).det then s.closePart i else s
  | .closeEpoch => s.closePart s.iss.task
  | .scan x => State.modMe { s with issued := s.issued + 1 } fun t => { t with scans := t.scans ++ [{ x with order := s.issued }] }
  | .own n => s.modMyCore fun x => { x with cbs := smPut x.cbs n { x.cb n with owner := some ((x.cb n).owner.getD s.me.launch) } }
  | .queue b m => s.modMyCore fun x => { x with banks := smPut x.banks b { x.bank b with queue := (x.bank b).queue ++ [m] } }

/-- The operation in issue is the one that the current task waits in. -/
def State.noteWait (s : State) : State := s.modMe fun t => { t with waitAt := (s.iss.slot, s.iss.half, s.iss.pc) }

/-- The bundle of the current task waits from now on, or goes on waiting. -/
def State.stall (s : State) (w : Why) : State :=
  s.noteWait.modMe fun t => { t with stallSince := some (t.stallSince.getD s.clock), stallWhy := w }

/-- Task i parks: rollback to its last checkpoint, and its core has no issuing task (R160, R161). -/
def State.park (s : State) (i : Nat) (w : Why) : State :=
  let s := s.rollback i
  let t := s.task i
  let s := s.setTask i { t with status := .parked, parkedOn := w, parkTime := s.time t.die }
  s.modCore t.die t.core fun x => { x with issuing := if x.issuing = some i then none else x.issuing }

/-- The outcome of an instruction whose effect answers r in state s: on a trap, a wait or a park nothing of it is performed
(R338), and the state is s with the trap taken, the wait noted or the task parked. -/
def resolve (s : State) : Act → Host.Outcome State Fault Refusal
  | .ok s' => .next s'
  | .error (.trap r) => .next (s.takeTrap s.iss.task r s.iss.slot s.iss.half s.iss.pc)
  | .error (.jobTrap r) =>
    .next ((s.modMe fun t => { t with job := { t.job with pend := none } }).takeTrap s.iss.task r s.iss.slot s.iss.half s.iss.pc)
  | .error (.claimTrap r) =>
    .next ((s.acquire .dom s.iss.die s.iss.core).takeTrap s.iss.task r s.iss.slot s.iss.half s.iss.pc)
  | .error (.wait w sd) => .next ((s.applySide sd).stall w)
  | .error (.park w sd) => .next ((s.applySide sd).noteWait.park s.iss.task w)

end Sys2Proof.Machine
end

