-- ==== Sys2Proof/Machine/Operands.lean ====
section
/-! DEFINITION. Operand forms: scalar and vector sources, destinations and latches, lanes, and the window rows (R98, R99,
R176, R179, R192 to R194, R252 to R255). -/

set_option Elab.async false

namespace Sys2Proof.Machine

/-! ### Scalar operands -/

/-- A latch read: a lost latch raises STALE_LATCH with its specifier in INFO (R193, R346). -/
def latchRead {α : Type} (v : Option α) (spec : Nat) : Except Stop α :=
  match v with
  | some x => .ok x
  | none => raiseInfo .staleLatch spec

/-- A scalar source, as it stood before the bundle (R176, R179). -/
def State.srcS (s : State) (a : SSrc) : Except Stop Word :=
  match a with
  | .reg n => .ok (s.iss.snap.rdS n)
  | .ls => latchRead s.iss.snapL.ls a.code
  | .lm => latchRead s.iss.snapL.lm a.code
  | .lc0 => latchRead s.iss.snapL.lc0 a.code
  | .lc1 => latchRead s.iss.snapL.lc1 a.code

/-- A plain S register as it stood before the bundle. -/
def State.regS (s : State) (n : Fin 32) : Word := s.iss.snap.rdS n

/-- A handle as it stood before the bundle. -/
def State.regH (s : State) (n : Fin 16) : Handle := s.iss.snap.rdH n

/-- A predicate as it stood before the bundle. -/
def State.regP (s : State) (n : Fin 8) : Bool := s.iss.snap.rdP n

/-- A mask as it stood before the bundle. -/
def State.regM (s : State) (n : Fin 8) : Mask := s.iss.snap.rdM n

/-- S[D] written. -/
def State.putS (s : State) (d : Fin 32) (v : Word) : State := s.modLive fun r => r.wrS d v

/-- Latch LS written (R192). -/
def State.putLs (s : State) (v : Word) : State := s.modMe fun t => { t with latches := { t.latches with ls := some v } }

/-- A scalar result of port S: LS, and S[D] unless NW = 1 (R192, R194). -/
def State.resS (s : State) (d : Fin 32) (v : Word) (nw : Bool := false) : State :=
  if nw then s.putLs v else (s.putLs v).putS d v

/-- A scalar result of port M: LM and S[A] (R275). -/
def State.resM (s : State) (a : Fin 32) (v : Word) : State :=
  (s.modMe fun t => { t with latches := { t.latches with lm := some v } }).putS a v

/-- The latch of the C port that the operation issued on, written (R192, R300). -/
def State.putLc (s : State) (v : Word) : State :=
  s.modMe fun t => { t with latches := if s.iss.cPort = 0 then { t.latches with lc0 := some v } else { t.latches with lc1 := some v } }

/-- A scalar result of a C port: its latch and S[A] (R300). -/
def State.resC (s : State) (a : Fin 32) (v : Word) : State := (s.putLc v).putS a v

/-! ### Lanes (R98, R252, R253) -/

/-- Lane i of width w. -/
def laneOf (w : Nat) (r : Nat) (i : Nat) : Nat := r / 2 ^ (w * i) % 2 ^ w

/-- The number whose lanes of width w are given, lane 0 first. -/
def ofLanes (w : Nat) (l : List Nat) : Nat := l.foldr (fun x acc => acc * 2 ^ w + x % 2 ^ w) 0

/-- The row whose lanes of width w are given. -/
def rowOfLanes (w : Nat) (l : List Nat) : Row := BitVec.ofNat 2048 (ofLanes w l)

/-- A row with its first n bytes replaced. -/
def rowLow (r : Row) (n v : Nat) : Row := BitVec.ofNat 2048 (r.toNat / 2 ^ (8 * n) * 2 ^ (8 * n) + v % 2 ^ (8 * n))

/-- The lane indices of a type. -/
def laneIdx (t : VTy) : List Nat := List.range t.lanes

/-- Lane i is active under a mask (R252). -/
def active (m : Mask) (i : Nat) : Bool := m.getLsbD i

/-! ### Window rows (R99, R100, R255) -/

/-- First task row and number of the output rows of an in-flight job (R277). -/
def Task.outRows (t : Task) : Option (Nat × Nat) :=
  if t.job.state = .done then none
  else t.active.grant.map fun g => (g.cb, g.m * (g.n / 64))

/-- Task row n lies in the output rows of the task's in-flight job (R100). -/
def Task.isOut (t : Task) (n : Nat) : Bool :=
  match t.outRows with
  | some (b, k) => decide (b ≤ n) && decide (n < b + k)
  | none => false

/-- The task row that register Vj names (R99). -/
def State.vrow (s : State) (j : Fin 32) : Nat := s.iss.snap.winBase + j.val

/-- The address of a task row of the current task (R27, R31). -/
def State.vaddr (s : State) (n : Nat) : Nat := rowAddr (s.modId s.iss.die) s.iss.die s.iss.core (s.me.rowBase + n)

/-- A store of the task to one of its own rows is still on its way: a vector instruction that names the row waits behind it
(R99, R123, R136; log 8). -/
def State.rowStalls (s : State) (n : Nat) : Bool :=
  s.stores.any fun x => decide (x.task = s.iss.task) && overlaps x.pa x.len (s.vaddr n) 256

/-- Stores of a list laid over the bytes of a row, oldest first. -/
def layStores (l : List Store) (pa : Nat) (v : Row) : Row :=
  let l := l.filter fun x => overlaps x.pa x.len pa 256
  if l.isEmpty then v
  else BitVec.ofNat 2048 (memRead (l.foldl (fun m x => memWrite m x.pa x.len x.data) (memCells pa v.toNat 256 0)) pa 256)

/-- A task row was poisoned before the bundle: a write of an earlier slot does not tell (R176, R422). -/
def State.rowPoison (s : State) (n : Nat) : Bool :=
  match smFind s.iss.oldRows n with
  | some x => x.2
  | none => s.poisoned (s.vaddr n) 256

/-- The checks of a named vector register: rows declared (R23), not an output row of a job (R100), not poisoned (R422). -/
def State.checkV (s : State) (j : Fin 32) : Except Stop Nat := do
  require (decide (s.me.rowCount ≠ 0)) (raiseInfo .illegalInstruction s.iss.word)
  require (!s.me.isOut (s.vrow j)) (raiseInfo .aliasHazard (s.vrow j))
  require (!s.rowStalls (s.vrow j)) (waits (.rows (s.vaddr (s.vrow j)) 256))
  require (!s.rowPoison (s.vrow j)) (raise .memPoison)
  .ok (s.vrow j)

/-- The checks of a register that is only written: rows declared, not an output row of a job (R100, R252). The job of an `mgo` of the same
bundle counts for the slots behind it (log 79). -/
def State.destV (s : State) (j : Fin 32) : Except Stop Nat := do
  require (decide (s.me.rowCount ≠ 0)) (raiseInfo .illegalInstruction s.iss.word)
  require (!s.me.isOut (s.vrow j)) (raiseInfo .aliasHazard (s.vrow j))
  require (!s.rowStalls (s.vrow j)) (waits (.rows (s.vaddr (s.vrow j)) 256))
  .ok (s.vrow j)

/-- The contents of a task row as they stood before the bundle (R176), the stores that the core then withheld for the task among them
(R123). -/
def State.rowBefore (s : State) (n : Nat) : Row :=
  match smFind s.iss.oldRows n with
  | some x => x.1
  | none => layStores s.iss.stores0 (s.vaddr n) (BitVec.ofNat 2048 (s.bytes (s.vaddr n) 256))

/-- A vector register as it stood before the bundle. -/
def State.regV (s : State) (j : Fin 32) : Except Stop Row := do
  let n ← s.checkV j
  .ok (s.rowBefore n)

/-- A vector source (R179). -/
def State.srcV (s : State) (a : VSrc) : Except Stop Row :=
  match a with
  | .reg j => s.regV j
  | .lv0 => latchRead s.iss.snapL.lv0 a.code
  | .lv1 => latchRead s.iss.snapL.lv1 a.code

/-- The latch of the V port that the operation issued on, written (R192). -/
def State.putLv (s : State) (v : Row) : State :=
  s.modMe fun t => { t with latches := if s.iss.vPort = 0 then { t.latches with lv0 := some v } else { t.latches with lv1 := some v } }

/-- The contents of a row before the bundle are kept, with whether it was poisoned, for operands read after an operation of it has written the row (R176). -/
def State.keepRow (s : State) (n : Nat) : State :=
  let before := (s.rowBefore n, s.rowPoison n)
  { s with iss := { s.iss with
    oldRows := if (smFind s.iss.oldRows n).isSome then s.iss.oldRows else smPut s.iss.oldRows n before } }

/-- The first n bytes of a window row written: the first write since the last checkpoint saves the row in the shadow, with its poison
(R99, R255, R422). A withheld store of the task to those bytes is overwritten in program order (log 8). -/
def State.putRowBytes (s : State) (r n : Nat) (v : Row) : State :=
  let a := s.vaddr r
  let old := BitVec.ofNat 2048 (s.bytes a 256)
  let bad := s.poison.filter fun u => overlaps u 64 a 256
  let s := s.keepRow r
  let s := s.modMe fun t =>
    if (smFind t.shadow r).isSome then t
    else { t with shadow := smPut t.shadow r old, shadowBad := bad.foldl setInsert t.shadowBad }
  let s := s.modMe fun t => { t with withheld := t.withheld.filter fun x => !inside x.pa x.len a n }
  s.putBytes a n v.toNat

/-- A whole window row written. -/
def State.putRow (s : State) (r : Nat) (v : Row) : State := s.putRowBytes r 256 v

/-- A row result: the latch, and the row unless NW = 1 (R192, R194). -/
def State.resV (s : State) (d : Fin 32) (v : Row) (nw : Bool) : State :=
  if nw then s.putLv v else (s.putLv v).putRow (s.vrow d) v

/-- A mask result (R252, R259). -/
def State.resMask (s : State) (d : Fin 8) (v : Mask) (nw : Bool) : State :=
  let s := s.putLv (v.zeroExtend 2048)
  if nw then s else s.modLive fun r => r.wrM d v

/-- A scalar result of a V port (R252). -/
def State.resVS (s : State) (d : Fin 32) (v : Word) (nw : Bool) : State :=
  let s := s.putLv (v.zeroExtend 2048)
  if nw then s else s.putS d v

/-- The random number of lane i of row q (R254): its index. -/
def drawIndex (q i : Nat) : Nat := q * 256 + i

end Sys2Proof.Machine
end

