-- ==== Sys2Proof/Machine/Flags.lean ====
section
/-! DEFINITION. Conditions and predicates (R195, R211, R259, R262). The E8 has no arithmetic flags: comparisons write predicate and
mask registers. -/

set_option Elab.async false

namespace Sys2Proof.Machine

/-- The scalar conditions of R211. -/
def scondHolds (c : SCond) (a b : Word) : Bool :=
  match c with
  | .eq => a == b
  | .ne => a != b
  | .ltI => a.slt b
  | .geI => !a.slt b
  | .ltN => a.ult b
  | .geN => !a.ult b
  | .tst => (a &&& b) != 0
  | .ntst => (a &&& b) == 0

/-- The integer lane conditions of R262: sg is the type's signedness. -/
def icondHolds (c : ICond) (w : Nat) (sg : Bool) (a b : Nat) : Bool :=
  let lt := if sg then decide (sextNat w a < sextNat w b) else decide (a < b)
  match c with
  | .eq => a == b
  | .ne => a != b
  | .lt => lt
  | .ge => !lt
  | .tst => (a &&& b) != 0
  | .ntst => (a &&& b) == 0

/-- Predicate p written, with LS receiving the same value (R211). -/
def State.resP (s : State) (p : Fin 8) (b : Bool) (nw : Bool) : State :=
  let s := s.putLs (if b then 1 else 0)
  if nw then s else s.modLive fun r => r.wrP p b

/-- The guard of a class-0x0 operation (R195). -/
def State.guardOn (s : State) (g : Fin 8) : Bool := s.regP g

/-- A mask with bit i of every active lane replaced (R259). -/
def maskOf (m old : Mask) (n : Nat) (f : Nat → Bool) : Mask :=
  BitVec.ofNat 256 (ofLanes 1 ((List.range 256).map fun i => ofFlag (if i < n ∧ active m i then f i else old.getLsbD i)))

end Sys2Proof.Machine
end

