-- ==== Sys2Proof/Machine/Scalar.lean ====
section
/-! DEFINITION. Classes 0x0 and 0x1: scalar register and scalar immediate instructions (R209 to R217). -/

set_option Elab.async false

namespace Sys2Proof.Machine

/-! ### Shared operations -/

/-- A two-source instruction of class 0x0. Operands are read, and a lost latch raises STALE_LATCH, whatever the guard (R195). -/
def sr2 (o : SrOp) (f : Word → Word → Word) (s : State) : Act := do
  let a ← s.srcS o.a
  let b ← s.srcS o.b
  .ok (if s.guardOn o.g then s.resS o.d (f a b) o.nw else s)

/-- A one-source instruction of class 0x0. -/
def sr1 (o : SrOne) (f : Word → Word) (s : State) : Act := do
  let a ← s.srcS o.a
  .ok (if s.guardOn o.g then s.resS o.d (f a) o.nw else s)

/-- A class-0x1 instruction with a sign-extended immediate (R216). -/
def si1 (o : SiOp) (f : Word → Word → Word) (s : State) : Act := do
  let a ← s.srcS o.a
  .ok (s.resS o.d (f a (o.imm.signExtend 64)))

/-- A class-0x1 shift (R216). -/
def siShift (d : Fin 32) (a : SSrc) (n : Fin 64) (f : Word → Nat → Word) (s : State) : Act := do
  let x ← s.srcS a
  .ok (s.resS d (f x n.val))

/-! ### Values (R210, R213, R214) -/

/-- The high 64 bits of the signed product. -/
def mulhI64 (a b : Word) : Word := BitVec.ofInt 64 (a.toInt * b.toInt / 2 ^ 64)

/-- The high 64 bits of the unsigned product. -/
def mulhN64 (a b : Word) : Word := BitVec.ofNat 64 (a.toNat * b.toNat / 2 ^ 64)

/-- The shift amount of a register shift: b[5:0]. -/
def shAmt (b : Word) : Nat := b.toNat % 64

/-- Zero bits above the highest one bit. -/
def clz64 (a : Word) : Word := BitVec.ofNat 64 (64 - bitLength a.toNat)

/-- Zero bits below the lowest one bit. -/
def ctz64 (a : Word) : Word := if a = 0 then 64 else BitVec.ofNat 64 (Nat.log2 (a &&& -a).toNat)

/-- One bits. -/
def popc64 (a : Word) : Word := BitVec.ofNat 64 (popCount 64 a.toNat)

/-- LO of a bitfield control word (R213). -/
def bfLo (c : Word) : Nat := field c.toNat 5 0

/-- The effective length L of a bitfield control word (R213). -/
def bfLen (c : Word) : Nat := min (field c.toNat 12 6) (64 - bfLo c)

/-- bfx (R213). -/
def bfxVal (a c : Word) : Word :=
  let l := bfLen c
  let x := a.toNat / 2 ^ bfLo c % 2 ^ l
  if flag c.toNat 13 && decide (1 ≤ l) then BitVec.ofInt 64 (sextNat l x) else BitVec.ofNat 64 x

/-- bfi: b with its field replaced by a[L-1:0] (R213). -/
def bfiVal (a b c : Word) : Word :=
  let l := bfLen c
  let lo := bfLo c
  BitVec.ofNat 64 (b.toNat - b.toNat / 2 ^ lo % 2 ^ l * 2 ^ lo + a.toNat % 2 ^ l * 2 ^ lo)

/-- Divide of R214 at width w: the exact quotient and remainder. -/
def divide (w : Nat) (signed : Bool) (a b : Nat) : Int × Int :=
  let x : Int := if signed then sextNat w a else (a : Int)
  let y : Int := if signed then sextNat w b else (b : Int)
  if y = 0 then ((if signed then -1 else 2 ^ w - 1), x)
  else if signed && decide (x = -(2 ^ (w - 1))) && decide (y = -1) then (-(2 ^ (w - 1)), 0)
  else (Int.tdiv x y, x - Int.tdiv x y * y)

/-- Significant bits of the quotient's magnitude (R214). -/
def quotBits (q : Int) : Nat := bitLength q.natAbs

/-- A divide: the divider of the core is busy for 4 + ⌈Q/2⌉ clocks, and division by zero takes 4 (R214). -/
def divOp (o : SrOp) (signed rem : Bool) (s : State) : Act := do
  let a ← s.srcS o.a
  let b ← s.srcS o.b
  if !s.guardOn o.g then .ok s
  else
    require (decide (s.myCore.divider.task = none)) (waits .divider)
    let r := divide 64 signed a.toNat b.toNat
    let q := if b = 0 then 0 else quotBits r.1
    let s := s.modMyCore fun x => { x with divider := { task := some s.iss.task, doneAt := s.clock + 4 + (q + 1) / 2 } }
    .ok (s.resS o.d (BitVec.ofInt 64 (if rem then r.2 else r.1)) o.nw)

/-! ### Class 0x0 -/

/-- `add` (R210). -/
def actAdd (o : SrOp) (s : State) : Act :=
  sr2 o (fun a b => a + b) s

/-- `add` (R210). -/
def execAdd (o : SrOp) (s : State) : Host.Outcome State Fault Refusal := resolve s (actAdd o s)

/-- `sub` (R210). -/
def actSub (o : SrOp) (s : State) : Act :=
  sr2 o (fun a b => a - b) s

/-- `sub` (R210). -/
def execSub (o : SrOp) (s : State) : Host.Outcome State Fault Refusal := resolve s (actSub o s)

/-- `mul` (R210). -/
def actMul (o : SrOp) (s : State) : Act :=
  sr2 o (fun a b => a * b) s

/-- `mul` (R210). -/
def execMul (o : SrOp) (s : State) : Host.Outcome State Fault Refusal := resolve s (actMul o s)

/-- `mulh.i` (R210). -/
def actMulhI (o : SrOp) (s : State) : Act :=
  sr2 o mulhI64 s

/-- `mulh.i` (R210). -/
def execMulhI (o : SrOp) (s : State) : Host.Outcome State Fault Refusal := resolve s (actMulhI o s)

/-- `mulh.n` (R210). -/
def actMulhN (o : SrOp) (s : State) : Act :=
  sr2 o mulhN64 s

/-- `mulh.n` (R210). -/
def execMulhN (o : SrOp) (s : State) : Host.Outcome State Fault Refusal := resolve s (actMulhN o s)

/-- `and` (R210). -/
def actAnd (o : SrOp) (s : State) : Act :=
  sr2 o (fun a b => a &&& b) s

/-- `and` (R210). -/
def execAnd (o : SrOp) (s : State) : Host.Outcome State Fault Refusal := resolve s (actAnd o s)

/-- `or` (R210). -/
def actOr (o : SrOp) (s : State) : Act :=
  sr2 o (fun a b => a ||| b) s

/-- `or` (R210). -/
def execOr (o : SrOp) (s : State) : Host.Outcome State Fault Refusal := resolve s (actOr o s)

/-- `xor` (R210). -/
def actXor (o : SrOp) (s : State) : Act :=
  sr2 o (fun a b => a ^^^ b) s

/-- `xor` (R210). -/
def execXor (o : SrOp) (s : State) : Host.Outcome State Fault Refusal := resolve s (actXor o s)

/-- `andn` (R210). -/
def actAndn (o : SrOp) (s : State) : Act :=
  sr2 o (fun a b => a &&& ~~~b) s

/-- `andn` (R210). -/
def execAndn (o : SrOp) (s : State) : Host.Outcome State Fault Refusal := resolve s (actAndn o s)

/-- `shl` (R210). -/
def actShl (o : SrOp) (s : State) : Act :=
  sr2 o (fun a b => a <<< shAmt b) s

/-- `shl` (R210). -/
def execShl (o : SrOp) (s : State) : Host.Outcome State Fault Refusal := resolve s (actShl o s)

/-- `shr` (R210). -/
def actShr (o : SrOp) (s : State) : Act :=
  sr2 o (fun a b => a >>> shAmt b) s

/-- `shr` (R210). -/
def execShr (o : SrOp) (s : State) : Host.Outcome State Fault Refusal := resolve s (actShr o s)

/-- `sra` (R210). -/
def actSra (o : SrOp) (s : State) : Act :=
  sr2 o (fun a b => a.sshiftRight (shAmt b)) s

/-- `sra` (R210). -/
def execSra (o : SrOp) (s : State) : Host.Outcome State Fault Refusal := resolve s (actSra o s)

/-- `min.i` (R210). -/
def actMinI (o : SrOp) (s : State) : Act :=
  sr2 o (fun a b => if b.slt a then b else a) s

/-- `min.i` (R210). -/
def execMinI (o : SrOp) (s : State) : Host.Outcome State Fault Refusal := resolve s (actMinI o s)

/-- `max.i` (R210). -/
def actMaxI (o : SrOp) (s : State) : Act :=
  sr2 o (fun a b => if a.slt b then b else a) s

/-- `max.i` (R210). -/
def execMaxI (o : SrOp) (s : State) : Host.Outcome State Fault Refusal := resolve s (actMaxI o s)

/-- `min.n` (R210). -/
def actMinN (o : SrOp) (s : State) : Act :=
  sr2 o (fun a b => if b.ult a then b else a) s

/-- `min.n` (R210). -/
def execMinN (o : SrOp) (s : State) : Host.Outcome State Fault Refusal := resolve s (actMinN o s)

/-- `max.n` (R210). -/
def actMaxN (o : SrOp) (s : State) : Act :=
  sr2 o (fun a b => if a.ult b then b else a) s

/-- `max.n` (R210). -/
def execMaxN (o : SrOp) (s : State) : Host.Outcome State Fault Refusal := resolve s (actMaxN o s)

/-- `bfx` (R213). -/
def actBfx (o : SrOp) (s : State) : Act :=
  sr2 o bfxVal s

/-- `bfx` (R213). -/
def execBfx (o : SrOp) (s : State) : Host.Outcome State Fault Refusal := resolve s (actBfx o s)

/-- `cmp` (R211). -/
def actCmp (c : SCond) (p : Fin 8) (a b : SSrc) (nw : Bool) (g : Fin 8) (s : State) : Act :=
  do
  let x ← s.srcS a
  let y ← s.srcS b
  .ok (if s.guardOn g then s.resP p (scondHolds c x y) nw else s)

/-- `cmp` (R211). -/
def execCmp (c : SCond) (p : Fin 8) (a b : SSrc) (nw : Bool) (g : Fin 8) (s : State) : Host.Outcome State Fault Refusal := resolve s (actCmp c p a b nw g s)

/-- `sel` (R212). -/
def actSel (o : SrOp) (k : Fin 8) (s : State) : Act :=
  sr2 o (fun a b => if s.regP k then a else b) s

/-- `sel` (R212). -/
def execSel (o : SrOp) (k : Fin 8) (s : State) : Host.Outcome State Fault Refusal := resolve s (actSel o k s)

/-- `clz` (R210). -/
def actClz (o : SrOne) (s : State) : Act :=
  sr1 o clz64 s

/-- `clz` (R210). -/
def execClz (o : SrOne) (s : State) : Host.Outcome State Fault Refusal := resolve s (actClz o s)

/-- `ctz` (R210). -/
def actCtz (o : SrOne) (s : State) : Act :=
  sr1 o ctz64 s

/-- `ctz` (R210). -/
def execCtz (o : SrOne) (s : State) : Host.Outcome State Fault Refusal := resolve s (actCtz o s)

/-- `popc` (R210). -/
def actPopc (o : SrOne) (s : State) : Act :=
  sr1 o popc64 s

/-- `popc` (R210). -/
def execPopc (o : SrOne) (s : State) : Host.Outcome State Fault Refusal := resolve s (actPopc o s)

/-- `mov` (R210). -/
def actMov (o : SrOne) (s : State) : Act :=
  sr1 o (fun a => a) s

/-- `mov` (R210). -/
def execMov (o : SrOne) (s : State) : Host.Outcome State Fault Refusal := resolve s (actMov o s)

/-- `bfi` (R213). -/
def actBfi (o : SrOp) (e : SSrc) (s : State) : Act :=
  do
  let c ← s.srcS e
  sr2 o (fun a b => bfiVal a b c) s

/-- `bfi` (R213). -/
def execBfi (o : SrOp) (e : SSrc) (s : State) : Host.Outcome State Fault Refusal := resolve s (actBfi o e s)

/-- `div.i` (R214). -/
def actDivI (o : SrOp) (s : State) : Act :=
  divOp o true false s

/-- `div.i` (R214). -/
def execDivI (o : SrOp) (s : State) : Host.Outcome State Fault Refusal := resolve s (actDivI o s)

/-- `div.n` (R214). -/
def actDivN (o : SrOp) (s : State) : Act :=
  divOp o false false s

/-- `div.n` (R214). -/
def execDivN (o : SrOp) (s : State) : Host.Outcome State Fault Refusal := resolve s (actDivN o s)

/-- `rem.i` (R214). -/
def actRemI (o : SrOp) (s : State) : Act :=
  divOp o true true s

/-- `rem.i` (R214). -/
def execRemI (o : SrOp) (s : State) : Host.Outcome State Fault Refusal := resolve s (actRemI o s)

/-- `rem.n` (R214). -/
def actRemN (o : SrOp) (s : State) : Act :=
  divOp o false true s

/-- `rem.n` (R214). -/
def execRemN (o : SrOp) (s : State) : Host.Outcome State Fault Refusal := resolve s (actRemN o s)

/-! ### Class 0x1 -/

/-- `addi` (R216). -/
def actAddi (o : SiOp) (s : State) : Act :=
  si1 o (fun a k => a + k) s

/-- `addi` (R216). -/
def execAddi (o : SiOp) (s : State) : Host.Outcome State Fault Refusal := resolve s (actAddi o s)

/-- `andi` (R216). -/
def actAndi (o : SiOp) (s : State) : Act :=
  si1 o (fun a k => a &&& k) s

/-- `andi` (R216). -/
def execAndi (o : SiOp) (s : State) : Host.Outcome State Fault Refusal := resolve s (actAndi o s)

/-- `ori` (R216). -/
def actOri (o : SiOp) (s : State) : Act :=
  si1 o (fun a k => a ||| k) s

/-- `ori` (R216). -/
def execOri (o : SiOp) (s : State) : Host.Outcome State Fault Refusal := resolve s (actOri o s)

/-- `xori` (R216). -/
def actXori (o : SiOp) (s : State) : Act :=
  si1 o (fun a k => a ^^^ k) s

/-- `xori` (R216). -/
def execXori (o : SiOp) (s : State) : Host.Outcome State Fault Refusal := resolve s (actXori o s)

/-- `shli` (R216). -/
def actShli (d : Fin 32) (a : SSrc) (n : Fin 64) (s : State) : Act :=
  siShift d a n (fun a n => a <<< n) s

/-- `shli` (R216). -/
def execShli (d : Fin 32) (a : SSrc) (n : Fin 64) (s : State) : Host.Outcome State Fault Refusal := resolve s (actShli d a n s)

/-- `shri` (R216). -/
def actShri (d : Fin 32) (a : SSrc) (n : Fin 64) (s : State) : Act :=
  siShift d a n (fun a n => a >>> n) s

/-- `shri` (R216). -/
def execShri (d : Fin 32) (a : SSrc) (n : Fin 64) (s : State) : Host.Outcome State Fault Refusal := resolve s (actShri d a n s)

/-- `srai` (R216). -/
def actSrai (d : Fin 32) (a : SSrc) (n : Fin 64) (s : State) : Act :=
  siShift d a n (fun a n => a.sshiftRight n) s

/-- `srai` (R216). -/
def execSrai (d : Fin 32) (a : SSrc) (n : Fin 64) (s : State) : Host.Outcome State Fault Refusal := resolve s (actSrai d a n s)

/-- `cmpi` (R216). -/
def actCmpi (c : SCond) (p : Fin 8) (a : SSrc) (imm : BitVec 18) (s : State) : Act :=
  do
  let x ← s.srcS a
  .ok (s.resP p (scondHolds c x (imm.signExtend 64)) false)

/-- `cmpi` (R216). -/
def execCmpi (c : SCond) (p : Fin 8) (a : SSrc) (imm : BitVec 18) (s : State) : Host.Outcome State Fault Refusal := resolve s (actCmpi c p a imm s)

/-- `movi` (R216). -/
def actMovi (d : Fin 32) (imm : BitVec 18) (s : State) : Act :=
  .ok (s.resS d (imm.signExtend 64))

/-- `movi` (R216). -/
def execMovi (d : Fin 32) (imm : BitVec 18) (s : State) : Host.Outcome State Fault Refusal := resolve s (actMovi d imm s)

/-- `movhi` (R216, R217). -/
def actMovhi (o : SiOp) (s : State) : Act :=
  do
  let a ← s.srcS o.a
  .ok (s.resS o.d ((a <<< 18) ||| o.imm.zeroExtend 64))

/-- `movhi` (R216, R217). -/
def execMovhi (o : SiOp) (s : State) : Host.Outcome State Fault Refusal := resolve s (actMovhi o s)

/-- `vaddr` (R216, R217). -/
def actVaddr (d : Fin 32) (a : SSrc) (g : Fin 64) (s : State) : Act :=
  do
  let x ← s.srcS a
  .ok (s.resS d (BitVec.ofNat 64 (g.val * 2 ^ 51 + x.toNat % 2 ^ 51)))

/-- `vaddr` (R216, R217). -/
def execVaddr (d : Fin 32) (a : SSrc) (g : Fin 64) (s : State) : Host.Outcome State Fault Refusal := resolve s (actVaddr d a g s)

/-- DIVIDE_COMPLETE: the iterative divider of a core finishes and is free (R214). -/
def execDivideComplete (d c : Nat) (s : State) : Host.Outcome State Fault Refusal :=
  .next (match (s.core d c).divider.task with
    | some _ => if (s.core d c).divider.doneAt ≤ s.clock then s.modCore d c fun x => { x with divider := {} } else s
    | none => s)

end Sys2Proof.Machine
end

