-- ==== Sys2Proof/Machine/Numbers.lean ====
section
/-! DEFINITION. Formats, rounding, the mix function, trees and window sums (R37 to R67), and the exact approximations of R268. A
floating value is held exactly, as a sign and a dyadic magnitude; nothing here is a host float. -/

set_option Elab.async false

namespace Sys2Proof.Machine

/-! ### Formats (R37 to R41) -/

/-- The floating formats of R37. -/
inductive Fmt where
  | f32 | bf16 | f16 | e5m2 | e4m3 | e2m1
  deriving DecidableEq, Repr

/-- Mantissa bits. -/
def Fmt.mbits : Fmt → Nat
  | .f32 => 23 | .bf16 => 7 | .f16 => 10 | .e5m2 => 2 | .e4m3 => 3 | .e2m1 => 1

/-- Exponent bits. -/
def Fmt.ebits : Fmt → Nat
  | .f32 => 8 | .bf16 => 8 | .f16 => 5 | .e5m2 => 5 | .e4m3 => 4 | .e2m1 => 2

/-- Exponent bias. -/
def Fmt.bias : Fmt → Nat
  | .f32 => 127 | .bf16 => 127 | .f16 => 15 | .e5m2 => 15 | .e4m3 => 7 | .e2m1 => 1

/-- Width in bits. -/
def Fmt.width (f : Fmt) : Nat := 1 + f.ebits + f.mbits

/-- Magnitude code of the largest finite value. -/
def Fmt.maxCode : Fmt → Nat
  | .f32 => 0x7F7FFFFF | .bf16 => 0x7F7F | .f16 => 0x7BFF | .e5m2 => 0x7B | .e4m3 => 0x7E | .e2m1 => 0x7

/-- The canonical NaN; E2M1 has none, and its escape code stands here, which no rounding reaches (R48). -/
def Fmt.nanCode : Fmt → Nat
  | .f32 => 0x7FC00000 | .bf16 => 0x7FC0 | .f16 => 0x7E00 | .e5m2 => 0x7E | .e4m3 => 0x7F | .e2m1 => 0x8

/-- Magnitude code of infinity, where the format has one (R39, R40). -/
def Fmt.infCode : Fmt → Option Nat
  | .f32 => some 0x7F800000 | .bf16 => some 0x7F80 | .f16 => some 0x7C00 | .e5m2 => some 0x7C | .e4m3 => none | .e2m1 => none

/-- An exact value: (−1)^neg × m × 2^e, an infinity, or NaN. -/
inductive FVal where
  | nan
  | inf (neg : Bool)
  | fin (neg : Bool) (m : Nat) (e : Int)
  deriving DecidableEq, Repr

/-- The value of a code (R37 to R40). The escape code 0x8 of E2M1 reads here as zero; R43 gives its value in a block. -/
def decodeF (f : Fmt) (c : Nat) : FVal :=
  let sgn := flag c (f.width - 1)
  let mag := c % 2 ^ (f.width - 1)
  let ex := mag / 2 ^ f.mbits
  let mn := mag % 2 ^ f.mbits
  let special :=
    match f.infCode with
    | some i => if mag = i then some (FVal.inf sgn) else if i < mag then some .nan else none
    | none => if f = Fmt.e4m3 ∧ mag = 0x7F then some .nan else none
  match special with
  | some v => v
  | none =>
    if ex = 0 then .fin (if f = Fmt.e2m1 ∧ mn = 0 then false else sgn) mn (1 - (f.bias : Int) - f.mbits)
    else .fin sgn (2 ^ f.mbits + mn) ((ex : Int) - f.bias - f.mbits)

/-! ### Rounding (R47 to R49) -/

/-- 2^k as a number, for a power that is not negative. -/
def pow2 (k : Int) : Nat := 2 ^ k.toNat

/-- The increment that a mode makes at quotient q with remainder rem of 2^sh (R47, R49). r is the 16-bit draw of .rsr. -/
def bump (md : RMode) (r : Nat) (neg : Bool) (q rem sh : Nat) : Nat :=
  match md with
  | .rne => if 2 ^ sh < 2 * rem ∨ (2 * rem = 2 ^ sh ∧ q % 2 = 1 ∧ rem ≠ 0) then 1 else 0
  | .rtz => 0
  | .rdn => if neg ∧ rem ≠ 0 then 1 else 0
  | .rup => if !neg ∧ rem ≠ 0 then 1 else 0
  | .rsr => if r < rem * 2 ^ 16 / 2 ^ sh then 1 else 0

/-- m × 2^e in units of 2^u, rounded by a mode. -/
def roundUnits (md : RMode) (r : Nat) (neg : Bool) (m : Nat) (e u : Int) : Nat :=
  if u ≤ e then m * pow2 (e - u)
  else
    let sh := (u - e).toNat
    let q := m / 2 ^ sh
    q + bump md r neg q (m % 2 ^ sh) sh

/-- What overflow gives: none for infinity, or the largest finite value (R48). -/
def overflowInf (md : RMode) (f : Fmt) (neg : Bool) : Bool :=
  f.infCode.isSome &&
    match md with
    | .rne => true | .rtz => false | .rdn => neg | .rup => !neg | .rsr => false

/-- The sign bit of a code. -/
def signBit (f : Fmt) (neg : Bool) : Nat := if neg then 2 ^ (f.width - 1) else 0

/-- A value rounded into a format: the code (R47 to R49). -/
def roundF (md : RMode) (r : Nat) (f : Fmt) (v : FVal) : Nat :=
  match v with
  | .nan => f.nanCode
  | .inf neg => match f.infCode with
    | some i => signBit f neg + i
    | none => if f = Fmt.e2m1 then signBit f neg + f.maxCode else f.nanCode
  | .fin neg m e =>
    if m = 0 then (if f = Fmt.e2m1 then 0 else signBit f neg) else
    let umin : Int := 1 - (f.bias : Int) - f.mbits
    let u := max umin ((Nat.log2 m : Int) + e - f.mbits)
    let q := roundUnits md r neg m e u
    let mag := ((u - umin).toNat) * 2 ^ f.mbits + q
    if q = 0 then (if f = Fmt.e2m1 then 0 else signBit f neg)
    else if f.maxCode < mag then
      (if overflowInf md f neg then signBit f neg + f.infCode.getD 0 else signBit f neg + f.maxCode)
    else signBit f neg + mag

/-! ### Exact arithmetic (R48, R258) -/

/-- A signed integer times 2^e as a value; zneg is the sign of a zero. -/
def ofIntE (i e : Int) (zneg : Bool) : FVal := if i = 0 then .fin zneg 0 e else .fin (decide (i < 0)) i.natAbs e

/-- The signed mantissa of a finite value at exponent e, which is not above its own. -/
def mantAt (neg : Bool) (m : Nat) (em e : Int) : Int :=
  let x : Int := (m * pow2 (em - e) : Nat)
  if neg then -x else x

/-- The exact sum; md fixes the sign of an exact zero (R48). -/
def addF (md : RMode) (a b : FVal) : FVal :=
  match a, b with
  | .nan, _ => .nan
  | _, .nan => .nan
  | .inf x, .inf y => if x = y then .inf x else .nan
  | .inf x, .fin .. => .inf x
  | .fin .., .inf y => .inf y
  | .fin n m e, .fin n' m' e' =>
    if m = 0 ∧ m' = 0 then .fin (if n = n' then n else decide (md = .rdn)) 0 e
    else
      let k := min e e'
      ofIntE (mantAt n m e k + mantAt n' m' e' k) k (decide (md = .rdn))

/-- The negated value. -/
def negF : FVal → FVal
  | .nan => .nan
  | .inf n => .inf !n
  | .fin n m e => .fin (!n) m e

/-- The exact product (R258). -/
def mulF (a b : FVal) : FVal :=
  match a, b with
  | .nan, _ => .nan
  | _, .nan => .nan
  | .inf x, .inf y => .inf (x != y)
  | .inf x, .fin n m _ => if m = 0 then .nan else .inf (x != n)
  | .fin n m _, .inf y => if m = 0 then .nan else .inf (n != y)
  | .fin n m e, .fin n' m' e' => .fin (n != n') (m * m') (e + e')

/-- The value times 2^k. -/
def scaleF (v : FVal) (k : Int) : FVal :=
  match v with
  | .fin n m e => .fin n m (e + k)
  | .nan => .nan
  | .inf n => .inf n

/-- A real quotient known to 2^-96 of itself and better: m × 2^e with an odd last bit where it is not exact, which every rounding of
R47 and R49 takes as the real (the last bit lies below every rounding point and below the 16 bits of R49). -/
def quotF (neg : Bool) (m e : Nat × Int) : FVal :=
  let s := 96 + bitLength e.1
  let x := m.1 * 2 ^ s
  let q := x / e.1
  .fin neg (2 * q + (if x % e.1 = 0 then 0 else 1)) (m.2 - e.2 - s - 1)

/-- The quotient (R269). -/
def divF (a b : FVal) : FVal :=
  match a, b with
  | .nan, _ => .nan
  | _, .nan => .nan
  | .inf _, .inf _ => .nan
  | .inf x, .fin n _ _ => .inf (x != n)
  | .fin n _ _, .inf y => .fin (n != y) 0 0
  | .fin n m e, .fin n' m' e' =>
    if m' = 0 then (if m = 0 then .nan else .inf (n != n'))
    else if m = 0 then .fin (n != n') 0 0
    else quotF (n != n') (m, e) (m', e')

/-- The integer square root, one bit at a time from bit k − 1 down. -/
def isqrt : Nat → Nat → Nat → Nat
  | 0, _, acc => acc
  | k + 1, n, acc => let x := acc + 2 ^ k; isqrt k n (if x * x ≤ n then x else acc)

/-- The square root of m × 2^e, as quotF gives a quotient. -/
def sqrtPos (m : Nat) (e : Int) : FVal :=
  let odd := e % 2 ≠ 0
  let m := if odd then 2 * m else m
  let e := if odd then e - 1 else e
  let x := m * 2 ^ 192
  let k := bitLength x / 2 + 1
  let q := isqrt k x 0
  .fin false (2 * q + (if q * q = x then 0 else 1)) (e / 2 - 97)

/-- The square root (R269). -/
def sqrtF (a : FVal) : FVal :=
  match a with
  | .nan => .nan
  | .inf n => if n then .nan else .inf false
  | .fin n m e => if m = 0 then .fin n 0 0 else if n then .nan else sqrtPos m e

/-- 1 ÷ √(m × 2^e), as quotF gives a quotient. -/
def rsqrtPos (m : Nat) (e : Int) : FVal :=
  let odd := e % 2 ≠ 0
  let m := if odd then 2 * m else m
  let e := if odd then e - 1 else e
  let s := 96 + bitLength m
  let x := 2 ^ (2 * s)
  let q := isqrt (s + 1) (x / m) 0
  .fin false (2 * q + (if q * q * m = x then 0 else 1)) (-(e / 2) - s - 1)

/-- Order of two values that are no NaN, with −0 below +0 when strictZero (R258, R259). -/
def ltF (strictZero : Bool) (a b : FVal) : Bool :=
  match a, b with
  | .nan, _ => false
  | _, .nan => false
  | .inf x, .inf y => x && !y
  | .inf x, .fin .. => x
  | .fin .., .inf y => !y
  | .fin n m e, .fin n' m' e' =>
    let k := min e e'
    let x := mantAt n m e k
    let y := mantAt n' m' e' k
    decide (x < y) || (strictZero && decide (x = 0) && decide (y = 0) && n && !n')

/-- Equality as IEEE values: +0 equals −0. -/
def eqF (a b : FVal) : Bool :=
  match a, b with
  | .nan, _ => false
  | _, .nan => false
  | _, _ => !ltF false a b && !ltF false b a

/-- NaN test. -/
def isNan (a : FVal) : Bool := decide (a = .nan)

/-- Rounding to an integer by a mode, keeping sign and infinities (R51, R258). -/
def roundInt (md : RMode) (r : Nat) (v : FVal) : FVal :=
  match v with
  | .nan => .nan
  | .inf n => .inf n
  | .fin n m e => if 0 ≤ e then .fin n m e else .fin n (roundUnits md r n m e 0) 0

/-- Float to integer of R51. -/
def toIntSat (md : RMode) (r w : Nat) (signed : Bool) (v : FVal) : Nat :=
  let hi : Int := if signed then 2 ^ (w - 1) - 1 else 2 ^ w - 1
  let lo : Int := if signed then -(2 ^ (w - 1)) else 0
  match roundInt md r v with
  | .nan => 0
  | .inf n => wrapInt w (if n then lo else hi)
  | .fin n m e => wrapInt w (max lo (min hi (mantAt n m e 0)))

/-- An integer as a value. -/
def ofIntF (i : Int) : FVal := ofIntE i 0 false

/-! ### The mix function (R50, R52, R53) -/

/-- MIX64 of R52. -/
def mix64 (key dom idx : Nat) : Nat :=
  let z := (key + (dom * 2 ^ 48 + idx + 1) * 0x9E3779B97F4A7C15) % 2 ^ 64
  let z := ((z ^^^ (z / 2 ^ 30)) * 0xBF58476D1CE4E5B9) % 2 ^ 64
  let z := ((z ^^^ (z / 2 ^ 27)) * 0x94D049BB133111EB) % 2 ^ 64
  z ^^^ (z / 2 ^ 31)

/-- The 16-bit draw of a stochastic rounding (R50). -/
def drawSr (key : Word) (idx : Nat) : Nat := mix64 key.toNat 0x0010 idx / 2 ^ 48

/-- The draw, made only when the mode uses it. -/
def drawFor (md : RMode) (key : Word) (idx : Nat) : Nat := if md = .rsr then drawSr key idx else 0

/-- A placement draw over a list of n cores (R53). -/
def drawPlace (dom : Nat) (seed : Word) (idx n : Nat) : Nat := mix64 seed.toNat dom (idx % 2 ^ 48) / 2 ^ 32 * n / 2 ^ 32

/-! ### Trees (R54, R55) -/

/-- An FP32 code as a value. -/
def f32 (c : Nat) : FVal := decodeF .f32 c

/-- Combine of R54, from exact values to an FP32 code's value. -/
def combine (a b : FVal) : FVal := f32 (roundF .rne 0 .f32 (addF .rne a b))

/-- One level of a PairTree. -/
def pairLevel : List FVal → List FVal
  | a :: b :: l => combine a b :: pairLevel l
  | l => l

/-- The levels of a PairTree. -/
def pairLevels : Nat → List FVal → List FVal
  | 0, l => l
  | k + 1, l => pairLevels k (pairLevel l)

/-- ⌈log2 n⌉ for n ≥ 1. -/
def ceilLog2 (n : Nat) : Nat := if n ≤ 1 then 0 else Nat.log2 (n - 1) + 1

/-- PairTree of R54 in FP32: the list padded with −0 to a power of two, and combined level by level. -/
def pairTree (l : List FVal) : FVal :=
  if l.isEmpty then .fin false 0 0
  else
    let k := ceilLog2 l.length
    (pairLevels k (l ++ List.replicate (2 ^ k - l.length) (.fin true 0 0))).headD .nan

/-! ### Windows and profiles (R60 to R66) -/

/-- Special terms of R60: NaN, or infinities; none when every term is finite. -/
def specials (l : List FVal) : Option FVal :=
  if l.any isNan then some .nan
  else
    let p := l.any fun v => decide (v = .inf false)
    let n := l.any fun v => decide (v = .inf true)
    if p && n then some .nan else if p then some (.inf false) else if n then some (.inf true) else none

/-- floor(log2 |v|) of a non-zero finite value. -/
def exponentOf (v : FVal) : Option Int :=
  match v with
  | .fin _ m e => if m = 0 then none else some ((Nat.log2 m : Int) + e)
  | .nan => none
  | .inf _ => none

/-- The largest of a list of exponents. -/
def maxExp (l : List Int) : Option Int := l.foldl (fun a x => some (match a with | some y => max x y | none => x)) none

/-- A term as a signed multiple of 2^u, truncated toward zero. -/
def truncTo (u : Int) (v : FVal) : Int :=
  match v with
  | .fin n m e => let q : Int := (roundUnits .rtz 0 n m e u : Nat); if n then -q else q
  | .nan => 0
  | .inf _ => 0

/-- WindowSum of R60 over finite terms. -/
def windowSum (w : Nat) (l : List FVal) : FVal :=
  match maxExp (l.filterMap exponentOf) with
  | none => .fin (!l.isEmpty && l.all fun v => decide (v = .nan) || match v with | .fin n _ _ => n | .nan => false | .inf n => n) 0 0
  | some ex =>
    let u := ex - w + 1
    ofIntE ((l.map (truncTo u)).foldl (· + ·) 0) u false

/-- The exact sum of finite terms; a zero takes + unless every term is −0 (R48). -/
def exactSum (l : List FVal) : FVal :=
  match l with
  | [] => .fin false 0 0
  | a :: l => l.foldl (addF .rne) a

/-- Round a value to FP32 by RoundNE. -/
def rne32 (v : FVal) : FVal := f32 (roundF .rne 0 .f32 v)

/-- The sum of a block's products under R60 and R61: specials first, then the exact sum. -/
def blockLeaf (l : List FVal) : FVal := rne32 ((specials l).getD (exactSum l))

/-- Profile 0x01 (R61). -/
def step01 (acc : FVal) (p : List FVal) : FVal :=
  combine acc (match specials p with
    | some v => v
    | none => pairTree [blockLeaf (p.take 32), blockLeaf (p.drop 32)])

/-- Profile 0x02 (R62). The window of R62 over unscaled products is the window over the scaled ones, since one block has one scale. -/
def step02 (acc : FVal) (p : List FVal) : FVal := combine acc ((specials p).getD (rne32 (windowSum 48 p)))

/-- Profile 0x03 (R63). -/
def step03 (acc : FVal) (p : List FVal) : FVal := (specials (acc :: p)).getD (rne32 (windowSum 96 (acc :: p)))

/-- Profile 0x04 (R64). -/
def step04 (acc : FVal) (p : List FVal) : FVal := combine acc ((specials p).getD (pairTree p))

/-- A list cut into runs of n. -/
def chunksOf (n : Nat) : Nat → List FVal → List (List FVal)
  | 0, _ => []
  | k + 1, l => if l.isEmpty then [] else l.take n :: chunksOf n k (l.drop n)

/-- The chunk of profile 0x11 (R65): blocks past K are −0 leaves. -/
def chunk11 (p : List FVal) : FVal :=
  match specials p with
  | some v => v
  | none =>
    let leaves := (chunksOf 32 8 p).map fun b => rne32 (windowSum 64 b)
    pairTree (leaves ++ List.replicate (8 - leaves.length) (.fin true 0 0))

/-! ### The approximations of R268 -/

/-- RoundRP(m × 2^e, p): a quotient q and an exponent u, the value q × 2^u. -/
def roundRp (p m : Nat) (e : Int) : Nat × Int :=
  let u := (Nat.log2 m : Int) + e - p
  (roundUnits .rne 0 false m e u, u)

/-- The result of an approximation as an FP32 code: a zero where the exact value is below 2^−126, +∞ where the rounded one is 2^128 or
more (R268). -/
def approxCode (p : Nat) (neg : Bool) (m : Nat) (e : Int) : Nat :=
  let (q, u) := roundRp p m e
  let k := (Nat.log2 q : Int) + u
  if (Nat.log2 m : Int) + e < -126 then signBit .f32 neg
  else if 128 ≤ k then signBit .f32 neg + 0x7F800000
  else roundF .rne 0 .f32 (.fin neg q u)

/-- An FP32 input of R268: a subnormal counts as a zero of its own sign. -/
def flushIn (c : Nat) : FVal :=
  match f32 c with
  | .fin n m e => if m < 2 ^ 23 then .fin n 0 0 else .fin n m e
  | .nan => .nan
  | .inf n => .inf n

/-- vrcp.a (R268). -/
def rcpA (c : Nat) : Nat :=
  match flushIn c with
  | .nan => Fmt.nanCode .f32
  | .inf n => signBit .f32 n
  | .fin n m e =>
    if m = 0 then signBit .f32 n + 0x7F800000
    else match quotF n (1, 0) (m, e) with
      | .fin n m e => approxCode 14 n m e
      | .nan => Fmt.nanCode .f32
      | .inf _ => Fmt.nanCode .f32

/-- vrsq.a (R268): a negative subnormal counts as +0. -/
def rsqA (c : Nat) : Nat :=
  match f32 c with
  | .nan => Fmt.nanCode .f32
  | .inf n => if n then Fmt.nanCode .f32 else 0
  | .fin n m e =>
    if m = 0 then signBit .f32 n + 0x7F800000
    else if m < 2 ^ 23 then 0x7F800000
    else if n then Fmt.nanCode .f32
    else match rsqrtPos m e with
      | .fin _ m e => approxCode 12 false m e
      | .nan => Fmt.nanCode .f32
      | .inf _ => Fmt.nanCode .f32

/-- floor(ln 2 × 2^256). -/
def ln2 : Nat := 80260960185991308862233904206310070533990667611589946606122867505419956976171

/-- The exponential series: the sum of x^k / k! in units of 2^-256, by n more terms after term i, whose value is t. -/
def expSeries (x : Nat) : Nat → Nat → Nat → Nat
  | 0, _, t => t
  | n + 1, i, t => t + expSeries x n (i + 1) (t * x / 2 ^ 256 / (i + 1))

/-- 2^f for f = g ÷ 2^256 below 1, in units of 2^-256; the error is below 2^-240. -/
def exp2Frac (g : Nat) : Nat := expSeries (g * ln2 / 2 ^ 256) 64 0 (2 ^ 256)

/-- vexp2.a (R268). An x with |x| ≥ 256 lies outside the format's range; below that, 2^x is irrational unless x is an integer. -/
def exp2A (c : Nat) : Nat :=
  match flushIn c with
  | .nan => Fmt.nanCode .f32
  | .inf n => if n then 0 else 0x7F800000
  | .fin n m e =>
    if m = 0 then 0x3F800000
    else if 8 ≤ (Nat.log2 m : Int) + e then (if n then 0 else 0x7F800000)
    else
      let x := mantAt n m e (-256)
      let k := x / 2 ^ 256
      let g := (x % 2 ^ 256).toNat
      if g = 0 then approxCode 14 false 1 k else approxCode 14 false (2 * exp2Frac g + 1) (k - 257)

/-- Bits of log2 of y ÷ 2^600 (between 1 and 2), n of them, into acc. -/
def log2Bits : Nat → Nat → Nat → Nat
  | 0, _, acc => acc
  | n + 1, y, acc =>
    let z := y * y / 2 ^ 600
    if 2 ^ 601 ≤ z then log2Bits n (z / 2) (2 * acc + 1) else log2Bits n z (2 * acc)

/-- vlog2.a (R268). -/
def log2A (c : Nat) : Nat :=
  match flushIn c with
  | .nan => Fmt.nanCode .f32
  | .inf n => if n then Fmt.nanCode .f32 else 0x7F800000
  | .fin n m e =>
    if m = 0 then 0xFF800000
    else if n then Fmt.nanCode .f32
    else
      let k := (Nat.log2 m : Int) + e
      if m = 2 ^ Nat.log2 m then roundF .rne 0 .f32 (ofIntF k)
      else
        let l := log2Bits 256 (m * 2 ^ (600 - Nat.log2 m)) 0
        let v : Int := k * 2 ^ 257 + (2 * l + 1 : Nat)
        approxCode 14 (decide (v < 0)) v.natAbs (-257)

end Sys2Proof.Machine
end

