-- ==== Sys2Proof/Machine/Tasks.lean ====
section
/-! DEFINITION. Tasks: keys, placement, footprints and the dependence table (R146 to R155), crews (R162, R163), shift groups
(R164), epochs (R242), claim waiters (R170 to R172), waking and pre-emption (R157, R158, R160), and the end of a task (R228, R351). -/

set_option Elab.async false

namespace Sys2Proof.Machine

/-! ### Keys (R146) -/

/-- The call fields of a key, CALL1 first. -/
def callFields (k : Nat) : List Nat := [field k 39 32, field k 31 24, field k 23 16, field k 15 8, field k 7 0]

/-- Depth of a key: the number of its non-zero CALL fields. -/
def keyDepth (k : Nat) : Nat := ((callFields k).filter (· ≠ 0)).length

/-- The key with a call index in its highest CALL field that holds 0. -/
def childKey (k call : Nat) : Nat :=
  match (callFields k).findIdx? (· = 0) with
  | some j => k + call * 2 ^ (32 - 8 * j)
  | none => k

/-! ### Statuses -/

/-- The task holds a slot and extents on its core (R161). -/
def TStatus.resident : TStatus → Bool
  | .admitted | .issuing | .ready | .parked => true
  | .pending | .queued | .swapped | .ended => false

/-- The numbers of the tasks that satisfy a test. -/
def State.tasksWith (s : State) (f : Nat → Task → Bool) : List Nat := (s.tasks.filter fun e => f e.1 e.2).map (·.1)

/-- The tasks of a core that hold a slot. -/
def State.residents (s : State) (d c : Nat) : List Nat :=
  s.tasksWith fun _ t => decide (t.die = d) && decide (t.core = c) && t.status.resident

/-- Some unended task descends from task i; n bounds the depth (R146). -/
def State.hasLiveChild (s : State) : Nat → Nat → Bool
  | 0, _ => false
  | n + 1, i => s.tasks.any fun e =>
      decide (e.2.parent = some i) && (decide (e.2.status ≠ .ended) || State.hasLiveChild s n e.1)

/-- An ended task that still covers its descendants (R152). -/
def State.covering (s : State) (i : Nat) : Bool := decide ((s.task i).status = .ended) && s.hasLiveChild 6 i

/-- Task j is an ancestor of task i; n bounds the depth. -/
def State.isAncestor (s : State) (j : Nat) : Nat → Nat → Bool
  | 0, _ => false
  | n + 1, i =>
    match (s.task i).parent with
    | some p => decide (p = j) || State.isAncestor s j n p
    | none => false

/-! ### Eligible cores and placement (R53, R149, R150, R169) -/

/-- The eligible cores of a launch, by die and then core (R148). -/
def Launch.eligible (l : Launch) : List (Nat × Nat) :=
  ((List.range 128).filter fun k => flag l.elig k).map fun k => (k / 16, k % 16)

/-- The eligible cores of one die. -/
def Launch.eligOn (l : Launch) (d : Nat) : List (Nat × Nat) := l.eligible.filter fun p => p.1 = d

/-- The draw of R53 over a list of cores. -/
def drawCore (dom : Nat) (seed : Word) (idx : Nat) (l : List (Nat × Nat)) : Nat × Nat :=
  l.getD (drawPlace dom seed idx l.length) (0, 0)

/-- Core of a dynamic child without a named core (R150). A parent that balancing has moved to a core outside the launch's list has no
position in it: position 0. DESIGN CHOICE (log 74). -/
def childCore (l : Launch) (die core call : Nat) : Nat :=
  let cs := l.eligOn die
  (cs.getD (((cs.findIdx? fun p => p.2 = core).getD 0 + call) % cs.length) (die, core)).2

/-! ### Footprints (R126, R127, R129, R152, R153, R375) -/

/-- A used range for footprint index i: virtual base and length in bytes (R375). -/
def Range.at (r : Range) (i : Nat) : Option (Nat × Nat) :=
  if r.len64 = 0 then none else some (((r.base : Int) + i * r.stride * 64).toNat, r.len64 * 64)

/-- Segment of a virtual address (R24). -/
def vaSeg (va : Nat) : Nat := field va 56 51

/-- Ranges of an entry for an index; ranges in the local segment have no meaning (R126). -/
def rangesAt (l : List Range) (i : Nat) : List (Nat × Nat) := (l.filterMap fun r => r.at i).filter fun r => vaSeg r.1 ≠ 63

/-- Read ranges of a task. -/
def State.readRanges (s : State) (i : Nat) : List (Nat × Nat) :=
  let t := s.task i
  match (s.launch t.launch).entries[t.entry]? with
  | some e => rangesAt e.rd t.footIdx
  | none => []

/-- Write ranges of a task. -/
def State.writeRanges (s : State) (i : Nat) : List (Nat × Nat) :=
  let t := s.task i
  match (s.launch t.launch).entries[t.entry]? with
  | some e => rangesAt e.wr t.footIdx
  | none => []

/-- A range lies within one of a list of ranges (R153). -/
def within (r : Nat × Nat) (l : List (Nat × Nat)) : Bool := l.any fun x => inside r.1 r.2 x.1 x.2

/-- Every byte of an interval lies in one range of a list (R126). -/
def conforms (va n : Nat) (l : List (Nat × Nat)) : Bool := within (va, n) l

/-- Two ranges share a byte. -/
def meets (a b : Nat × Nat) : Bool := overlaps a.1 a.2 b.1 b.2

/-- The tile of a tile-named segment that an address lies in: its first address and its size (R86). -/
def tileOf (g : Seg) (va : Nat) : Nat × Nat := (va / 2 ^ g.tileLog * 2 ^ g.tileLog, 2 ^ g.tileLog)

/-- The tiles that a range of a tile-named segment touches. -/
def tilesOf (g : Seg) (r : Nat × Nat) : List (Nat × Nat) :=
  let k := 2 ^ g.tileLog
  (List.range ((r.1 + r.2 - 1) / k + 1 - r.1 / k)).map fun j => ((r.1 / k + j) * k, k)

/-- An earlier task that has not released a tile of task i conflicts on it (R127, R152). -/
def State.tileContended (s : State) (i : Nat) (tile : Nat × Nat) : Bool :=
  let t := s.task i
  s.tasks.any fun (e : Nat × Task) =>
    decide (e.2.launch = t.launch) && decide (e.1 ≠ i) && e.2.evalCell.isNone && e.2.key.ult t.key
      && (if s.isAncestor e.1 6 i then decide (e.2.status ≠ .ended) else decide (e.2.status ≠ .ended) || s.covering e.1)
      && (s.readRanges e.1 ++ s.writeRanges e.1).any (meets tile)

/-- The tiles of tile-named segments that task i's ranges touch. -/
def State.taskTiles (s : State) (i : Nat) : List (Nat × Nat) :=
  let l := s.launch (s.task i).launch
  ((s.readRanges i ++ s.writeRanges i).flatMap fun r =>
    if (l.seg (vaSeg r.1)).tiled then tilesOf (l.seg (vaSeg r.1)) r else []).eraseDups

/-- Task i is to have a fresh version of a contended tile (R154): its write range covers the tile, and no read range overlaps it.
Evaluators wait for none (R155). -/
def State.freshTile (s : State) (i : Nat) (tile : Nat × Nat) : Bool :=
  (s.task i).evalCell.isNone && ((s.launch (s.task i).launch).seg (vaSeg tile.1)).tiled && within tile (s.writeRanges i)
    && !(s.readRanges i).any (meets tile) && s.tileContended i tile

/-- Task i may be given a fresh version of a tile (R154): the pool of the segment has one for each tile of the task that is to be fresh. -/
def State.renames (s : State) (i : Nat) (tile : Nat × Nat) : Bool :=
  let g := vaSeg tile.1
  s.freshTile i tile && decide (((s.taskTiles i).filter fun x => decide (vaSeg x.1 = g) && s.freshTile i x).length
    ≤ (smGet [] (s.launch (s.task i).launch).pools g).length)

/-- A range of task i that task j also touches is resolved by renaming: every shared tile can be renamed. -/
def State.renamed (s : State) (i : Nat) (w r : Nat × Nat) : Bool :=
  let g := (s.launch (s.task i).launch).seg (vaSeg w.1)
  g.tiled && ((tilesOf g w).filter (meets r)).all (s.renames i)

/-- Task i waits for the earlier task j by their footprints (R127, R154), whatever the dies that they run on. -/
def State.heldBehind (s : State) (i j : Nat) : Bool :=
  (s.readRanges i).any (fun r => (s.writeRanges j).any (meets r))
    || (s.writeRanges i).any fun w => (s.readRanges j ++ s.writeRanges j).any fun r => meets w r && !s.renamed i w r

/-- Two tasks conflict (R127). -/
def State.conflict (s : State) (i j : Nat) : Bool :=
  (s.writeRanges i).any (fun w => (s.readRanges j ++ s.writeRanges j).any (meets w))
    || (s.writeRanges j).any (fun w => (s.readRanges i).any (meets w))

/-- The dependence table lets task i run (R152). Evaluators are not in the table (R155). -/
def State.mayRun (s : State) (i : Nat) : Bool :=
  let t := s.task i
  t.evalCell.isSome || s.tasks.all fun e =>
    let j := e.1
    if j = i ∨ e.2.launch ≠ t.launch ∨ e.2.evalCell.isSome ∨ ¬ e.2.key < t.key then true
    else
      let blocks := if s.isAncestor j 6 i then decide (e.2.status ≠ .ended) else decide (e.2.status ≠ .ended) || s.covering j
      !(blocks && s.heldBehind i j)

/-- The scope of the acquire with which task i starts (R97, R127): it holds the dies of the earlier tasks that i conflicts with. -/
def State.startScope (s : State) (i : Nat) : Scope :=
  let t := s.task i
  let js := s.tasksWith fun j u =>
    t.evalCell.isNone && u.evalCell.isNone && decide (u.launch = t.launch) && u.key.ult t.key && s.conflict i j
  if js.any fun j => (s.task j).die ≠ t.die then .mod
  else if !js.isEmpty || t.waitedInTable then .die
  else .core

/-! ### Crews and shift groups (R162 to R164) -/

/-- Crew n of a launch. -/
def Launch.crew (l : Launch) (n : Nat) : Crew := l.crews.getD n { die := 0 }

/-- Members of a crew, joiners of the open round among them. -/
def Crew.all (c : Crew) : List Nat := c.members ++ c.joining

/-- A crew without task i: a leave, or the end of a member (R163). The table has no row for a member that has arrived in the open round:
its arrival goes with it, and a round without arrivals is open no longer, so that those who joined it are members. DESIGN CHOICE (log 72). -/
def crewDrop (i : Nat) (c : Crew) : Crew :=
  let c := crewSettle
    { c with members := c.members.filter (· ≠ i), joining := c.joining.filter (· ≠ i), arrived := c.arrived.filter (· ≠ i) }
  if c.arrived.isEmpty then { c with members := c.members ++ c.joining, joining := [] } else c

/-- One step of the closure of a shift group: the members of every crew that shares a member with the set. -/
def groupGrow (cs : List Crew) (g : List Nat) : List Nat :=
  cs.foldl (fun g c => if c.all.any g.contains then c.all.foldl setInsert g else g) g

/-- The closure, by at most n steps. -/
def groupClose (cs : List Crew) : Nat → List Nat → List Nat
  | 0, g => g
  | n + 1, g => groupClose cs n (groupGrow cs g)

/-- The shift group of task i: its unended members (R164). -/
def State.group (s : State) (i : Nat) : List Nat :=
  let l := s.launch (s.task i).launch
  (groupClose l.crews l.crews.length [i]).filter fun j => (s.task j).status ≠ .ended

/-- Resources of a set of entries on one core fit it (R21, R22): at most four, within rows, banks and scratchpad. -/
def fitsCore (maxCarve : Nat) (es : List Entry) : Bool :=
  decide (es.length ≤ 4)
    && decide ((es.map fun e => e.rows64 * 64).sum ≤ 32768)
    && decide ((es.map fun e => e.banks).sum ≤ 32)
    && decide ((es.map fun e => e.spad4k * 4096).sum + maxCarve * 2 ^ 20 ≤ 12 * 2 ^ 20)

/-- A list of placed entries (core, entry) of one die can be resident at once (R164). -/
def fitsDie (maxCarve : Nat) (l : List (Nat × Entry)) : Bool :=
  (List.range 16).all fun c => fitsCore maxCarve ((l.filter fun p => p.1 = c).map (·.2))

/-- The entry of a task. -/
def State.entryOf (s : State) (i : Nat) : Entry :=
  ((s.launch (s.task i).launch).entries[(s.task i).entry]?).getD { code := 0, rows64 := 0, spad4k := 0, banks := 0, cwt := none, rd := [], wr := [] }

/-- The tasks of a set fit their die together (R164). -/
def State.groupFits (s : State) (g : List Nat) : Bool :=
  match g with
  | [] => true
  | i :: _ => fitsDie (s.launch (s.task i).launch).maxCarve (g.map fun j => ((s.task j).core, s.entryOf j))

/-! ### Epochs (R242) -/

/-- Epoch e of a domain has closed: every task of the domain has closed its part or ended. -/
def State.epochClosed (s : State) (dom e : Nat) : Bool :=
  s.tasks.all fun x => decide (x.2.domain ≠ dom) || decide (x.2.status = .ended) || decide (e < x.2.closedTo)

/-- Epoch e of a domain has closed and every update of it has been applied. -/
def State.epochDone (s : State) (dom e : Nat) : Bool :=
  s.epochClosed dom e && (s.updates ++ s.famoWait ++ s.famoSent).all fun u => decide (u.domain ≠ dom) || decide (e < u.ep)

/-! ### Claims (R118, R170 to R172) -/

/-- Level of an evaluator with a set of waiters: the highest, that is the smallest number, among its launch's and those that the waiters'
load requests carried (R170). -/
def evalLevel (launchLevel : Nat) (ws : List Waiter) : Nat := ws.foldl (fun a w => min a w.level) launchLevel

/-- The evaluator of an entry has its level recomputed (R170). -/
def State.relevel (s : State) (e : ClaimEntry) : State :=
  s.modTask e.evaluator fun t => { t with level := evalLevel (s.launch t.launch).level e.waiters }

/-- Home die of a line of this module. -/
def cellDie (cell : Nat) : Nat := paDie cell

/-- The claim-table entry of a cell. -/
def State.claimEntry (s : State) (cell : Nat) : Option ClaimEntry := (s.die (cellDie cell)).claims.find? fun e => e.cell = cell

/-- The claim-table entry of a cell is freed, with its stake and claim slot (R172, R401); its evaluator has no waiters any more (R170). -/
def State.freeClaim (s : State) (cell : Nat) : State :=
  let s := match s.claimEntry cell with
    | some e => s.relevel { e with waiters := [] }
    | none => s
  s.modDie (cellDie cell) fun d =>
    { d with claims := d.claims.filter fun e => e.cell ≠ cell, stakes := d.stakes.filter fun e => e.cell ≠ cell }

/-- Task i takes a trap when it next issues (R109, R119, R166). An earlier pending trap stands. -/
def State.pendTrap (s : State) (i : Nat) (r : TrapRec) : State :=
  s.modTask i fun t => { t with pendTrap := some (t.pendTrap.getD r) }

/-- The evaluator of a cell failed: tag FAILED, every waiter takes CLAIM_FAILED, the entry is freed (R119, R172). -/
def State.failClaim (s : State) (cell : Nat) : State :=
  let ws := ((s.claimEntry cell).map (·.waiters)).getD []
  let va := fun (t : Task) => match t.parkedOn with
    | .claimWait _ va => va
    | _ => 0
  let s := ws.foldl (fun s w => s.pendTrap w.task { code := Trap.claimFailed.code, addr := va (s.task w.task) }) s
  (s.freeClaim cell).setTag cell .failed

/-! ### Waking and pre-emption (R157, R158, R160) -/

/-- A walk that a virtual address of a launch waits for on a die is still open. -/
def State.walking (s : State) (die launch seg off : Nat) : Bool :=
  s.walks.any fun w => decide (w.die = die) && decide (w.launch = launch) && decide (w.seg = seg)
    && decide (w.off / 65536 = off / 65536)

/-- Spawn area of a die: dynamic children that wait for the dependence table (R168). -/
def State.spawnWaiting (s : State) (d : Nat) : Nat :=
  (s.tasksWith fun _ t => decide (t.die = d) && decide (t.status = .pending) && t.parent.isSome).length

/-- Frame address in a leaf word (R389). -/
def leafFrame (w : Nat) : Nat := field w 51 8 * 256

/-- Lowest offset bit that a level indexes, and the number of bits. -/
def levelBits : Nat → Nat × Nat
  | 3 => (39, 12) | 2 => (30, 9) | 1 => (21, 9) | _ => (16, 5)

/-- Bytes that a leaf of a level maps. -/
def pageSize (level : Nat) : Nat := if level = 1 then 2 ^ 21 else 2 ^ 16

/-- The kind of an entry (R389). -/
def entryKind (w : Nat) : Nat := field w 2 1

/-- A table maps a page into a frame: the entries of a node of a level, and of the nodes below it (R388, R389). -/
def State.tableMaps (s : State) (frame size : Nat) : Nat → Nat → Bool
  | 0, node => (List.range 32).any fun k =>
      let w := s.bytes (node + 8 * k) 8
      decide (entryKind w = 2) && overlaps (leafFrame w) (pageSize 0) frame size
  | level + 1, node => (List.range (2 ^ (levelBits (level + 1)).2)).any fun k =>
      let w := s.bytes (node + 8 * k) 8
      (decide (level = 0) && decide (entryKind w = 2) && overlaps (leafFrame w) (pageSize 1) frame size)
        || (decide (entryKind w = 1) && State.tableMaps s frame size level (leafFrame w))

/-- A launch that is accepted and not ended. -/
def Launch.alive (l : Launch) : Bool := l.accepted && !l.ended

/-- An interval of HBM takes no byte of a segment: of its memory, of the frames that its table maps, or of its rename pool (R86, R87). -/
def State.outsideSegs (s : State) (pa n : Nat) : Bool :=
  !s.launches.any fun (l : Nat × Launch) => l.2.alive && l.2.segs.any fun (g : Seg) => g.valid &&
    ((if g.pinned then overlaps g.base (g.len64k * 65536) pa n else s.tableMaps pa n 3 g.base)
      || (g.tiled && overlaps g.rpBase (g.rpCount * 2 ^ g.tileLog) pa n))

/-- Bytes [base, base+n), by module-local address, form a legal area for the units of a die: aligned, in the given part of its home
stacks and outside every segment (R398, R401). -/
def State.areaFits (s : State) (d base n lo size : Nat) : Bool :=
  decide (base % 65536 = 0) && inside base n lo size && (decide (n = 0) || s.outsideSegs (globalOf (s.modId d) base) n)

/-- Bytes of the claim area of a die: a misplaced area is not used (R401; log 20). -/
def State.claimBytes (s : State) (d : Nat) : Nat :=
  let x := s.die d
  let n := x.clLen * 65536
  if s.areaFits d x.clBase.toNat n (d * 2 ^ 39) hbmEnd then n else 0

/-- Slots of the claim area of a die (R401): one 128-byte slot per outstanding stake, one 64-byte block per seven waiters past
eight. -/
def State.claimAreaUsed (s : State) (d : Nat) : Nat :=
  (s.die d).stakes.length * 128 + ((s.die d).claims.map fun e => (e.waiters.length - 8 + 6) / 7 * 64).sum

/-- Room for a deterministic update of a launch at the home of an address: one of 16 entries of the line's buffer, or a record of the
log region (R360, R402). -/
def State.famoRoom (s : State) (pa launch : Nat) : Bool :=
  decide ((s.updates.filter fun u => !u.spilled && decide (lineOf u.pa = lineOf pa)).length < 16)
    || decide ((s.updates.filter fun u => u.spilled && decide (u.launch = launch)).length < (s.launch launch).logLen * 2048)

/-- The tasks of a gang launch issue once their die has started it (R415, R416). -/
def State.gangStarted (s : State) (t : Task) : Bool :=
  match (s.launch t.launch).gang with
  | some g => ((s.gangs[g]?).map fun x => decide (smGet .none x.phases t.die = GPhase.started)).getD true
  | none => true

/-- Order of the next task to issue: level, then key (R157). -/
def before (a b : Task) : Bool := decide (a.level < b.level) || (decide (a.level = b.level) && a.key.ult b.key)

/-- The first of a list of tasks in that order. Of two tasks of different launches with equal level and equal key, which R157 does not
order, the one with the lower task number. DESIGN CHOICE (log 73). -/
def State.firstTask (s : State) (l : List Nat) : Option Nat :=
  l.foldl (fun a i => match a with
    | none => some i
    | some j => if before (s.task i) (s.task j) then some i else some j) none

/-- The issuing task stops at a yield point with a request pending (R161): its state there is committed. -/
def State.stopAtYield (s : State) (i : Nat) : State :=
  let s := s.commit i
  let s := s.modTask i fun t => { t with
    status := .ready, latches := {}, preempt := false, job := { t.job with halt := decide (t.job.state = .running) } }
  let t := s.task i
  s.modCore t.die t.core fun x => { x with issuing := none }

/-! ### Creating tasks (R168, R169, R200) -/

/-- The registers of a task at its start (R200, R201). -/
def startRegs (seed : Word) (args : List Word) (ep pc : Nat) : Regs :=
  { s := Vector.ofFn fun k : Fin 32 => if 1 ≤ k.val ∧ k.val ≤ 6 then args.getD (k.val - 1) 0 else 0
    pc := pc, seed := seed, ep := ep }

/-- A number for a new task. -/
def State.freshTask (s : State) : Nat := (s.tasks.getLast?.map fun e => e.1 + 1).getD 0

/-- A new task of launch n. -/
def State.newTask (s : State) (n : Nat) (key : Nat) (die core entry footIdx : Nat) (args : List Word) (ep : Nat) : Task :=
  let l := s.launch n
  let pc := ((l.entries[entry]?).map (·.code)).getD 0 * 16
  let r := startRegs l.seed args ep pc
  { key := BitVec.ofNat 64 key, launch := n, domain := 2 * n, die := die, core := core, entry := entry, footIdx := footIdx,
    status := .pending, level := l.level, live := r, dup := r, closedTo := ep, lastRes := smGet 0 (s.die die).shiftNo n }

/-- Tasks of a die in the dependence table (R152). -/
def State.tableCount (s : State) (d : Nat) : Nat :=
  (s.tasksWith fun i t => decide (t.die = d) && t.evalCell.isNone
    && decide (t.status ≠ .pending) && (decide (t.status ≠ .ended) || s.covering i)).length

/-- The first task of a die that waits to enter the dependence table: per launch in key order, and of several launches the one with the
highest level first. DESIGN CHOICE (log 88). -/
def State.firstPending (s : State) (d : Nat) : Option Nat :=
  s.firstTask (s.tasksWith fun _ t => decide (t.die = d) && decide (t.status = .pending) && (s.launch t.launch).started)

/-- Entries of the dependence table of a die (R152). -/
def tableSize : Nat := 8192

/-- Pending tasks of a die enter the table while it has room; n bounds how many. -/
def State.fillTable (s : State) (d : Nat) : Nat → State
  | 0 => s
  | n + 1 =>
    if s.tableCount d < tableSize then
      match s.firstPending d with
      | some i => State.fillTable (s.modTask i fun t => { t with status := .queued, waitedInTable := !s.mayRun i }) d n
      | none => s
    else s

/-- A new task joins the machine and enters the table of its die if it has room. -/
def State.addTask (s : State) (t : Task) : State := (s.setTask s.freshTask t).fillTable t.die tableSize

/-! ### The end of a task (R228, R351) -/

/-- Engine commands of task i that have not completed: tickets and seam macros. -/
def State.hasCommands (s : State) (i : Nat) : Bool :=
  let t := s.task i
  !t.openTickets.isEmpty || (s.core t.die t.core).banks.any fun b => b.2.queue.any fun m => decide (m.task = i)

/-- Step 1 of R228 is over: the job and every engine command of a task that ends have completed. -/
def State.enginesDone (s : State) (i : Nat) : Bool := decide ((s.task i).job.state = .done) && !s.hasCommands i

/-- Steps 1 to 3 of R228 are over for a task that ends: its stores have been performed too. -/
def State.canFinish (s : State) (i : Nat) : Bool := s.enginesDone i && !s.stores.any fun x => decide (x.task = i)

/-- The launch's record of an abort or fatal trap: the smallest key decides (R378). -/
def noteAbort (l : Launch) (key : Word) (status : Nat) (isFatal : Bool) : Launch :=
  let l := { l with nAbort := l.nAbort + 1 }
  if l.nAbort = 1 ∨ key.ult l.firstKey then { l with firstKey := key, firstStat := status % 65536, fatal := isFatal } else l

/-- Frames of the versions of a tile that no task is bound to any more return to the pool, but for the newest (R154). -/
def State.dropVersions (s : State) (n : Nat) : State :=
  let l := s.launch n
  let bound := fun (v : Nat × Nat × Nat × Nat) =>
    s.tasks.any fun e => decide (e.2.launch = n) && decide (e.2.status ≠ .ended) && e.2.tiles.any fun b => decide (b = (v.1, v.2.1, v.2.2.1))
  let newest := fun (v : Nat × Nat × Nat × Nat) (k : Nat) =>
    (l.versions.drop (k + 1)).all fun w => decide (w.1 ≠ v.1) || decide (w.2.1 ≠ v.2.1)
  let tagged := l.versions.zipIdx
  let gone := (tagged.filter fun p => !newest p.1 p.2 && !bound p.1).map (·.1)
  s.setLaunch n { l with
    versions := l.versions.filter fun v => !gone.contains v
    pools := gone.foldl (fun m v => smPut m v.1 (smGet [] m v.1 ++ [v.2.2.1])) l.pools }

/-- A die sends an abort request to the leader of its gang (R419). -/
def Gang.ask (d cause key origin : Nat) (x : Gang) : Gang :=
  { x with requests := x.requests ++ [(cause, key, origin)], mail := x.mail ++ [(d, .request cause key origin)] }

/-- Task i has ended: steps 4 and 5 of R228, the failure of an unsettled claim (R119), and the abort of R351. Its stores have
been performed and its commands have completed. -/
def State.finishTask (s : State) (i : Nat) (status : Option (Nat × Bool)) : State :=
  let t := s.task i
  let s := s.modCore t.die t.core fun x => { x with
    issuing := if x.issuing = some i then none else x.issuing
    engine := x.engine.filter (· ≠ i) }
  let s := s.modLaunch t.launch fun l => { l with crews := l.crews.map (crewDrop i) }
  let s := match status with
    | some (c, f) => s.modLaunch t.launch fun l => noteAbort l t.key c f
    | none => s
  let s := match t.evalCell with
    | some cell =>
      if (s.claimEntry cell).map ClaimEntry.evaluator ≠ some i then s
      else if s.tag cell = Tag.working then s.failClaim cell
      else s.freeClaim cell
    | none => s
  let left := s.dies.flatMap fun (e : Nat × Die) => e.2.claims.filter fun x => x.waiters.any fun w => decide (w.task = i)
  let s := left.foldl (fun s x => s.relevel { x with waiters := x.waiters.filter fun w => w.task ≠ i }) s
  let s := { s with
    claimReqs := s.claimReqs.filter fun r => r.task ≠ i
    dies := s.dies.map fun (e : Nat × Die) => (e.1, { e.2 with
      claims := e.2.claims.map fun (x : ClaimEntry) => { x with waiters := x.waiters.filter fun w => w.task ≠ i } }) }
  let s := s.modTask i fun t => { t with
    status := .ended, ending := none, parkedOn := .none, arrival := none, pendTrap := none
    withheld := [], shadow := [], shadowBad := [], tiles := [], swapFrame := none, reply := none, cReply := [], scans := [], opened := none, stallSince := none
    yieldDue := none, walkPoison := none }
  let s := match status, (s.launch t.launch).gang with
    | some (_, f), some g =>
      if !f && !(s.launch t.launch).retired && t.live.hnd && decide (field t.live.s[24].toNat 7 0 = Trap.abortToken.code) then s
      else { s with gangs := s.gangs.modify g (Gang.ask t.die 6 t.key.toNat (s.modId t.die + t.die * 2 ^ 10 + t.core * 2 ^ 13)) }
    | _, _ => s
  (s.dropVersions t.launch).fillTable t.die tableSize

end Sys2Proof.Machine
end

