-- ==== Sys2Proof/Machine/Access.lean ====
section
/-! DEFINITION. Accesses to memory: the handle test (R90, R92), the footprint test (R129), what a home holds back (R100, R104,
R113, R417), the lookups of a load (R29, R97, R106, R107, R123), performing a store and an atomic at its home (R105, R122, R142),
releases (R137), and the claim load (R119). -/

set_option Elab.async false

namespace Sys2Proof.Machine

/-! ### The handle test (R28, R90, R92) -/

/-- The largest carved range of a core: while a change drains, the larger of the old and the new (R28, R96). -/
def Core.carved (c : Core) : Nat :=
  match c.drain with
  | some (a, b, _) => max a b
  | none => c.carve

/-- A physical interval reaches into the carved range of some core (R28). -/
def State.reachesCarve (s : State) (pa n : Nat) : Bool :=
  s.cores.any fun e =>
    let m := e.2.carved * 2 ^ 20
    let base := winAddr (s.modId (e.1 / 16)) (e.1 / 16) (e.1 % 16)
    decide (0 < m) && overlaps pa n (base + 0xC00000 - m) m

/-- The segment offset that a handle's address and a byte offset give, where the sum stays in the segment (R90). -/
def Handle.offset (h : Handle) (off : Nat) : Option Nat :=
  let x := (h.va.toNat + off) % 2 ^ 57
  if x / 2 ^ 51 = h.va.toNat / 2 ^ 51 then some (x % 2 ^ 51) else none

/-- The virtual address of an access (R346). -/
def Handle.vaAt (h : Handle) (off : Nat) : Nat := (h.va.toNat + off) % 2 ^ 57

/-- The physical interval that a handle's bounds span. -/
def Handle.span (h : Handle) : Nat × Nat :=
  (h.pa.toNat - (h.va.toNat % 2 ^ 51 - h.lo.toNat), h.last.toNat + 1 - h.lo.toNat)

/-- The handle of a register is unusable until the walker refills it: the task parks (R92). -/
def State.parkRefill (s : State) {α : Type} (h : Handle) (reg acc : Nat) (isWrite : Bool) : Except Stop α :=
  let off := h.va.toNat % 2 ^ 51
  .error (.park (.handle h.seg.toNat h.va.toNat reg acc isWrite)
    (.walk { die := s.iss.die, launch := s.me.launch, seg := h.seg.toNat, off := off / 65536 * 65536 }))

/-- AccessCheck of R90 with the carved range of R28: the physical address. rd and wr say what the access needs; reg is the register
that holds the handle. -/
def State.accessCheck (s : State) (h : Handle) (off width : Nat) (rd wr : Bool) (reg : Nat) : Except Stop Nat := do
  if !h.valid && (h.pending || h.revoked) then s.parkRefill h reg (h.vaAt off) wr
  else
    let bad : Except Stop Nat := raiseAt .handleBounds (h.vaAt off) wr
    match h.offset off with
    | none => bad
    | some a =>
      if a < h.lo.toNat ∨ h.last.toNat < a + width - 1 then bad
      else if h.valid && s.reachesCarve h.span.1 h.span.2 then bad
      else if (wr && !h.write) || (rd && !h.read) then raiseAt .handlePermission (h.vaAt off) wr
      else .ok (h.pa.toNat + a - h.va.toNat % 2 ^ 51)

/-- The alignment test of R229: the segment offset is a multiple of n. -/
def aligned (h : Handle) (off n : Nat) (isWrite : Bool) : Except Stop Unit :=
  if h.vaAt off % 2 ^ 51 % n = 0 then .ok () else raiseAt .misaligned (h.vaAt off) isWrite

/-- The footprint test of R129; loads of claim-enabled segments are exempt (R130). -/
def State.footprintCheck (s : State) (h : Handle) (off width : Nat) (isStore : Bool) : Except Stop Unit :=
  let i := s.iss.task
  let ok := if isStore then conforms (h.vaAt off) width (s.writeRanges i)
    else conforms (h.vaAt off) width (s.readRanges i) || conforms (h.vaAt off) width (s.writeRanges i)
  if h.checked && !(h.claim && !isStore) && !ok then raiseAt .footprintViolation (h.vaAt off) isStore else .ok ()

/-! ### What a home holds back -/

/-- The die and module of an address are those of a die of this module. -/
def State.onDie (s : State) (d pa : Nat) : Bool := decide (paDie pa = d) && decide (paModule pa = s.modId d)

/-- A gang that die d has not confirmed holds an effect of one of its tasks at another die (R417). -/
def State.gangHolds (s : State) (launch d pa : Nat) : Bool :=
  !s.onDie d pa &&
    match (s.launch launch).gang with
    | some g => ((s.gangs[g]?).map fun x => !x.confirmed.contains d && !x.dropped.contains d).getD false
    | none => false

/-- An effect of a gang task at another die is discarded: the gang was aborted before die d confirmed it (R418). -/
def State.gangDrops (s : State) (launch d pa : Nat) : Bool :=
  !s.onDie d pa &&
    match (s.launch launch).gang with
    | some g => ((s.gangs[g]?).map fun x => !x.confirmed.contains d && x.dropped.contains d).getD false
    | none => false

/-- The links of this module that a message from die d of module m to die e of module n crosses (R406), by the keys of State.links. One
from another module comes in at the port of die e that serves that module. -/
def State.path (s : State) (m d n e : Nat) : List Nat :=
  if m = s.modId d then
    (if d = e then [] else [8 * min d e + max d e]) ++ (if n = m then [] else [64 + 4 * e + n % 4])
  else if n = s.modId e then [64 + 4 * e + m % 4]
  else []

/-- A message waits: a link of its path retrains or is down (R426). -/
def State.messageWaits (s : State) (m d n e : Nat) : Bool :=
  (s.path m d n e).any fun k => let l : Link := smGet {} s.links k; l.retraining || l.down

/-- A request of die d to the die of an address waits for a link. -/
def State.linkWaits (s : State) (d pa : Nat) : Bool := s.messageWaits (s.modId d) d (paModule pa) (paDie pa)

/-- A store that has left its die, or that no gang holds there, goes to an interval (R113, R417). -/
def State.storeOn (s : State) (pa n : Nat) : Bool :=
  s.stores.any fun x => overlaps x.pa x.len pa n && !s.gangHolds x.launch x.die x.pa

/-- Some range of a list overlaps an interval. -/
def rangeOn (l : List (Nat × Nat)) (pa n : Nat) : Bool := l.any fun r => overlaps r.1 r.2 pa n

/-- The home L2 holds an access to these bytes for a stack command that is being flushed for or runs (R113, R397), or for the
weights of an at-bank job (R287). own is the command that makes the access, if one does: the reads of a command that has been flushed for
do not wait behind a held store, as a load does. -/
def State.commandHolds (s : State) (pa n : Nat) (isStore : Bool) (own : Option Nat := none) : Bool :=
  let mine := s.cmds.any fun c => c.flushed && decide (some c.id = own)
  let shut := isStore || (!mine && s.storeOn pa n)
  (s.cmds.any fun c => c.flushed && c.answer.isNone && decide (some c.id ≠ own) &&
    (rangeOn c.writes pa n || (rangeOn c.reads pa n && shut)))
  || s.tasks.any fun e => e.2.job.flushed && decide (e.2.job.state ≠ .done) && rangeOn e.2.job.ranges pa n && shut

/-- A seam bank that holds a byte of an interval has a macro that an access waits for (R104): any macro, but for a command of the same
core (own) only a macro issued before it. -/
def State.bankBusy (s : State) (pa n : Nat) (own : Option Nat := none) : Bool :=
  (List.range (n / 0x20000 + 2)).any fun k =>
    let a := min (pa + k * 0x20000) (pa + n - 1)
    decide (paPlace a = .seam) && ((s.core (paDie a) (paCore a)).bank (paBank a)).queue.any fun m => !m.after.any fun x => own = some x

/-- Output rows of a core's jobs overlap an interval (R100). -/
def State.outputOn (s : State) (d c pa n : Nat) : Bool :=
  (s.residents d c).any fun i =>
    let t := s.task i
    match t.outRows with
    | some (b, k) => overlaps pa n (rowAddr (s.modId d) d c (t.rowBase + b)) (k * 256)
    | none => false

/-- The range scoreboard of the issuing core stalls an access (R111). -/
def State.scoreboardHolds (s : State) (d c pa n : Nat) (isStore : Bool) : Bool :=
  (s.cmds.any fun x => decide (x.die = d) && decide (x.core = c) &&
    (overlaps pa n x.dstIv.1 x.dstIv.2 || (isStore && overlaps pa n x.srcIv.1 x.srcIv.2)))
  || (s.core d c).banks.any fun b => b.2.queue.any fun m => (m.isWrite || isStore) && overlaps pa n m.iv.1 m.iv.2

/-- Scoreboard entries that a core holds (R111, R321). -/
def State.scoreboardUsed (s : State) (d c : Nat) : Nat :=
  (s.cmds.filter fun x => decide (x.die = d) && decide (x.core = c) && decide (0 < x.dstIv.2 + x.srcIv.2)).length
    + ((s.core d c).banks.map fun b => (b.2.queue.filter fun m => decide (0 < m.iv.2)).length).sum

/-! ### Stack commands and folds (R112 to R114, R333) -/

/-- A command with nothing in it. -/
def Cmd.of (kind : CmdKind) (card : Nat) : Cmd :=
  { id := 0, task := 0, ticket := 0, kind := kind, die := 0, core := 0, launch := 0, card := card, hs := {}, hd := {}, seed := 0 }

/-- Some range of one list overlaps some range of another. -/
def anyMeet (a b : List (Nat × Nat)) : Bool := a.any fun x => b.any (meets x)

/-- A fold command: folds on one row run are ordered by their rounds (R333). -/
def Cmd.isFold (c : Cmd) : Bool := decide (c.kind = .sfold) || decide (c.kind = .sflush) || decide (c.kind = .rfold)

/-- An earlier command of the same stack whose ranges overlap, one of the two writing, has not completed (R114). -/
def State.stackBlocked (s : State) (id order : Nat) (fold : Bool) (reads writes : List (Nat × Nat)) : Bool :=
  (s.cmds.any fun x => decide (x.id ≠ id) && decide (x.order < order) && x.started && x.answer.isNone && !(fold && x.isFold)
      && (anyMeet x.writes (reads ++ writes) || anyMeet writes x.reads))
  || s.tasks.any fun e => (decide (e.2.job.order < order) && decide (e.2.job.state ≠ .done) && anyMeet writes e.2.job.ranges)
      || e.2.scans.any fun x => decide (x.order < order) && anyMeet writes x.ranges

/-- A command may run at its stack: it was flushed for and released, and no earlier command stands before it. -/
def State.stackReady (s : State) (c : Cmd) : Bool :=
  (c.reads.isEmpty && c.writes.isEmpty) || (c.released && !s.stackBlocked c.id c.order c.isFold c.reads c.writes)

/-- Bytes of a row element. -/
def FoldId.size (x : FoldId) : Nat := if x.bf16 then 2 else 4

/-- Bytes of a row run. -/
def FoldId.bytes (x : FoldId) : Nat := x.len * x.size

/-- An open round of another identity overlaps a row run (R333). -/
def State.runHeld (s : State) (x : FoldId) : Bool :=
  s.rounds.any fun r => decide (r.id ≠ x) && overlaps r.id.addr r.id.bytes x.addr x.bytes

/-- A contribution can be taken at its stack when it arrives: it is flushed for, behind no earlier command, and no round or contribution
holds it there (R113, R114, R333, R399). -/
def State.foldFree (s : State) (m : FoldMsg) : Bool :=
  (match m.cmd.bind fun k => s.cmds.find? fun c => c.id = k with
    | some c => s.stackReady c
    | none => true)
  && !s.runHeld m.id && !s.foldMsgs.any fun y => decide (y.id = m.id) && y.waiting

/-! ### The order of messages (R407) -/

/-- Two addresses lie at one die. -/
def sameHome (a b : Nat) : Bool := decide (paDie a = paDie b) && decide (paModule a = paModule b)

/-- Room for one more waiter of an entry: a record of the entry, or a block of the claim area (R118, R401). -/
def State.waiterRoom (s : State) (e : ClaimEntry) : Bool :=
  decide (e.waiters.length < 8) || decide ((e.waiters.length - 8) % 7 ≠ 0)
    || decide (s.claimAreaUsed (cellDie e.cell) + 64 ≤ s.claimBytes (cellDie e.cell))

/-- A claim request that its home keeps for want of room (R118, R401). -/
def State.claimStuck (s : State) (cell : Nat) : Bool :=
  match s.tag cell, s.claimEntry cell with
  | .staked, _ => decide (1024 ≤ (s.die (cellDie cell)).claims.length)
  | .working, some e => !s.waiterRoom e
  | _, _ => false

/-- A message of die d with number k to an address is on its way: its die does not hold it for a gang (R417), and its home does not hold
it back, so that it has not arrived. -/
def State.underWay (s : State) (src launch dst n k d no : Nat) (isWrite : Bool) : Bool :=
  decide (src = d) && decide (k < no) && !s.gangHolds launch src dst && !s.commandHolds dst n isWrite && !s.bankBusy dst n

/-- The home die of a stack command. -/
def Cmd.home (c : Cmd) : Nat := paDie ((c.writes.map (·.1)).headD 0)

/-- A message that asks for no response, a store, a chunk, a contribution or a response, is on its way from die d to die e of module m, and
was sent before number no (R407). -/
def State.oneWay (s : State) (d m e no : Nat) : Bool :=
  let there := fun (pa : Nat) => decide (paDie pa = e) && decide (paModule pa = m)
  (s.stores.any fun x => there x.pa && s.underWay x.die x.launch x.pa x.len x.no d no true)
    || (s.heldChunks.any fun x => there x.pa && s.underWay x.die x.launch x.pa 64 x.no d no true)
    || (s.foldMsgs.any fun x => !x.waiting && s.foldFree x && there x.id.addr
        && s.underWay (s.task x.part.task).die x.launch x.id.addr (4 * x.id.len) x.no d no true)
    || (decide (m = s.modId d) && s.cmds.any fun x => decide (x.die = e) &&
        ((x.unacked.any fun a => decide (paDie a.pa = d) && decide (paModule a.pa = s.modId d) && decide (a.no < no))
          || (decide (x.home = d) && match x.answer with
              | some a => decide (a.2 < no)
              | none => false)))

/-- The response to a request of die d, sent now, would overtake a message of the die of an address (R406, R407). -/
def State.replyLate (s : State) (d pa : Nat) : Bool :=
  !s.onDie d pa && decide (paModule pa = s.modId (paDie pa)) && s.oneWay (paDie pa) (s.modId d) d s.sent

/-- The response to a request of die d waits for a link, or behind an earlier message of the home's die: it is a message of its own (R406,
R407). The home takes the request in the step in which the response arrives (log 84). -/
def State.replyWaits (s : State) (d pa : Nat) : Bool :=
  s.messageWaits (paModule pa) (paDie pa) (s.modId d) d || s.replyLate d pa

/-- Bytes of HBM of a die. -/
def dieHbm : Nat := 96 * 2 ^ 30

/-- Physical address of a linear HBM offset (R366). -/
def State.linear (s : State) (l : Nat) : Nat := globalOf (s.modId (l / dieHbm)) (l / dieHbm * 2 ^ 39 + l % dieHbm)

/-- The pieces of [l, l+n) line by line: offset, length; fuel bounds their number. -/
def lineSplit : Nat → Nat → Nat → List (Nat × Nat)
  | 0, _, _ => []
  | fuel + 1, l, n =>
    if n = 0 then []
    else
      let k := min n (64 - l % 64)
      (l, k) :: lineSplit fuel (l + k) (n - k)

/-- The pieces of a BAR2 access, line by line: physical address and length (R366). -/
def State.bar2Lines (s : State) (x : Bar2Op) : List (Nat × Nat) :=
  (lineSplit (x.len / 64 + 2) x.lin x.len).map fun p => (s.linear p.1, p.2)

/-- A message that die d sends with number no to the die of an address would overtake one of the same two dies that it sent before
(R407). A request that only its response keeps waiting has arrived. -/
def State.overtakes (s : State) (d pa no : Nat) : Bool :=
  let asks := fun (src launch dst n k : Nat) (isWrite : Bool) =>
    sameHome dst pa && s.underWay src launch dst n k d no isWrite && !s.replyLate src dst
  !s.onDie d pa &&
    (s.oneWay d (paModule pa) (paDie pa) no
      || (s.loads.any fun x => asks x.die (s.task x.task).launch x.pa x.len x.no false
          && !s.outputOn x.die x.core x.pa x.len && !s.scoreboardHolds x.die x.core x.pa x.len false)
      || (s.atomics.any fun x => asks x.die (s.task x.task).launch x.pa 8 x.no true)
      || (s.famoSent.any fun x => asks (s.task x.task).die x.launch x.pa 4 x.no true)
      || (s.claimReqs.any fun x => asks (s.task x.task).die (s.task x.task).launch x.cell 64 x.no false && !s.claimStuck x.cell)
      || s.host.bar2.any fun x => (s.bar2Lines x).any fun p => decide (d = 0) && decide (x.no < no) && sameHome p.1 pa
          && !s.commandHolds p.1 p.2 x.isWrite && !s.replyLate 0 p.1)

/-! ### What an access waits for -/

/-- An access of the issuing core is stalled by a copy of the core or by output rows of its jobs (R100, R111). -/
def State.issueStalls (s : State) (pa n : Nat) (isStore : Bool) : Bool :=
  s.scoreboardHolds s.iss.die s.iss.core pa n isStore || s.outputOn s.iss.die s.iss.core pa n

/-- A store of a core is on its way to bytes that a later access of the core must not find without it (R97, R123, R134). -/
def State.storeAhead (s : State) (d c pa n : Nat) : Bool :=
  s.stores.any fun x => decide (x.die = d) && decide (x.core = c) && overlaps x.pa x.len pa n

/-- Bytes from the first line that an interval touches to the end of the last. -/
def lineSpan (pa n : Nat) : Nat := (pa + n + 63) / 64 * 64 - lineOf pa

/-- A store that its die holds for a gang goes to a line of an interval (R417). -/
def State.heldStoreOn (s : State) (d pa n : Nat) : Bool :=
  s.stores.any fun x => decide (x.die = d) && s.gangHolds x.launch d x.pa && overlaps (lineOf x.pa) (lineSpan x.pa x.len) pa n

/-- A load of die d and core c is held back by its own core (R100, R111). -/
def State.coreHolds (s : State) (d c pa n : Nat) : Bool := s.outputOn d c pa n || s.scoreboardHolds d c pa n false

/-- Some of these BAR2 accesses goes to a line of [pa, pa+n). -/
def State.bar2Meets (s : State) (l : List Bar2Op) (pa n : Nat) : Bool :=
  l.any fun x => (s.bar2Lines x).any fun p => overlaps (lineOf p.1) 64 pa n

/-- A BAR2 write that a home holds goes to a byte of [pa, pa+n): what reads it waits behind it (R113, R366). -/
def State.bar2Ahead (s : State) (pa n : Nat) : Bool :=
  s.bar2Meets (s.host.bar2.filter fun (x : Bar2Op) => x.isWrite) pa n

/-- A load of die d and core c must wait: for a store of its core on its way to a line of it, which it must neither overtake nor keep a copy
without (R107, R123, R134, R407), for what its home holds back, or for what its own core holds back. no is its number, for a load that has
been sent. -/
def State.loadWaits (s : State) (d c pa n : Nat) (no : Option Nat := none) : Bool :=
  s.storeAhead d c (lineOf pa) (lineSpan pa n) || s.overtakes d pa (no.getD s.sent) || s.commandHolds pa n false || s.bankBusy pa n
    || s.coreHolds d c pa n || s.heldStoreOn d pa n || s.bar2Ahead pa n || s.linkWaits d pa || s.replyWaits d pa

/-- An atomic or a claim operation of die d must wait at its home: behind the same stores, for what the home holds back, or for the
confirmation of its gang (R417). no is its number, once it has been sent. -/
def State.atomicWaits (s : State) (launch d c pa n : Nat) (no : Option Nat := none) (isWrite : Bool := true) : Bool :=
  s.storeAhead d c pa n || s.overtakes d pa (no.getD s.sent) || s.commandHolds pa n isWrite || s.bankBusy pa n || s.outputOn d c pa n
    || s.gangHolds launch d pa || s.gangDrops launch d pa || s.bar2Ahead pa n || s.linkWaits d pa || s.replyWaits d pa

/-- A release has to wait: a store of the task has not been performed (R137). -/
def State.releaseWaits (s : State) (i : Nat) : Bool := s.stores.any fun x => decide (x.task = i)

/-! ### Performing at the home (R105, R116, R122) -/

/-- The lines of an interval that it covers whole. -/
def wholeLines (pa n : Nat) : List Nat :=
  ((List.range (n / 64 + 2)).map fun k => lineOf pa + 64 * k).filter fun l => inside l 64 pa n

/-- A write through a segment that is not claim-enabled sets the tag of every line it writes whole to VALUE (R116). -/
def State.clearTags (s : State) (pa n : Nat) : State :=
  (wholeLines pa n).foldl (fun s l => if s.tag l = .value then s else (s.setTag l .value).freeClaim l) s

/-- A store is performed at its home. A hinted one leaves the line clean that it finds clean: its bytes go on to HBM (R107). -/
def State.performStore (s : State) (x : Store) : State :=
  let s := { s.putOutside x.pa x.len x.data with dirty := if x.hint = .none then (s.putBytes x.pa x.len x.data).dirty else s.dirty }
  if x.claimSeg then s else s.clearTags x.pa x.len

/-- Memory as a party other than the task sees it: a row that its task has written since its last checkpoint reads as its shadow
copy (R255). -/
def State.outerMem (s : State) : Mem :=
  s.tasks.foldl (fun m e => e.2.shadow.foldl
    (fun m r => memWrite m (rowAddr (s.modId e.2.die) e.2.die e.2.core (e.2.rowBase + r.1)) 256 r.2.toNat) m) s.mem

/-- Bytes as a party other than the task reads them (R255). -/
def State.outerBytes (s : State) (pa n : Nat) : Nat :=
  if paPlace pa = .acc then memRead s.outerMem pa n else memRead s.mem pa n

/-! ### Lookups of a load (R29, R107, R123) -/

/-- Lines that n MiB of carve-out hold (R95). -/
def carveLines (n : Nat) : Nat := n * 16384

/-- Lines that the RDC of a die holds: 32 MiB (R18). -/
def rdcLines : Nat := 524288

/-- A line enters a cache of n lines. A full cache lets a line go that the spec does not name: an open value picks it (log 67). -/
def cacheIn (n pick : Nat) (l : SMap Nat) (line v : Nat) : SMap Nat :=
  if l.length < n || (smFind l line).isSome then smPut l line v
  else match l[pick % l.length]? with
    | some e => smPut (smErase l e.1) line v
    | none => l

/-- A load looks its line up in the caches of its core and die (R29, R107). -/
def State.cachedPath (s : State) (d line : Nat) (hint : Hint) (cache : Bool) : Bool :=
  cache && isHbm line && decide (paModule line = s.modId d) && decide (hint ≠ .bypass)

/-- The copy of a line that serves a load of core c of die d: the carve-out's, unless a change of it drains (R96), or the RDC's. The RDC's may
be older than a store of the core that is still on its way, and does not serve then (R106, R107, R136). -/
def State.copyFor (s : State) (d c line : Nat) (hint : Hint) (cache : Bool) : Option Nat :=
  if !s.cachedPath d line hint cache then none
  else
    let co := s.core d c
    ((if co.drain.isNone then smFind co.cache line else none).or
      (if s.onDie d line || s.storeAhead d c line 64 then none else smFind (s.die d).rdc line)).map (· % 2 ^ 512)

/-- One 64-byte line as a load of core c of die d finds it (R29, R106, R107). -/
def State.lineFor (s : State) (d c line : Nat) (hint : Hint) (cache : Bool) : Nat :=
  (s.copyFor d c line hint cache).getD (memRead s.mem line 64)

/-- What the lookup of a line that holds v allocates (R29, R95, R96, R106, R107). -/
def State.fetchLine (s : State) (d c line : Nat) (hint : Hint) (cache : Bool) (v : Nat) : State :=
  if !s.cachedPath d line hint cache || decide (hint ≠ .none) then s
  else
    let pick := (Config.freeWord s.freeCount).toNat
    let co := s.core d c
    let fill := decide (0 < co.carve) && co.drain.isNone && (smFind co.cache line).isNone
    let far := !s.onDie d line && (s.copyFor d c line hint cache).isNone
    let s := if far then s.modDie d fun x => { x with rdc := cacheIn rdcLines pick x.rdc line v } else s
    let s := if fill then s.modCore d c fun x => { x with cache := cacheIn (carveLines co.carve) pick x.cache line v } else s
    let full := (far && decide (rdcLines ≤ (s.die d).rdc.length)) || (fill && decide (carveLines co.carve ≤ (s.core d c).cache.length))
    if full then { s with freeCount := s.freeCount + 1 } else s

/-- The n bytes from pa by the lookup of a hint, with what the lookups of their lines allocate; bytes outside HBM come from their bank
or row. -/
def State.fetch (s : State) (d c pa n : Nat) (hint : Hint) (cache : Bool) : State × Nat :=
  let found := (linesOf pa n).map fun l => (l, s.lineFor d c l hint cache)
  let v := found.foldr (fun x acc => x.2 + acc * 2 ^ 512) 0
  (found.foldl (fun s x => s.fetchLine d c x.1 hint cache x.2) s, v / 2 ^ (8 * (pa - lineOf pa)) % 2 ^ (8 * n))

/-- Bytes with the withheld stores of the task laid over them, oldest first (R123). -/
def forward (l : List Store) (pa n v : Nat) : Nat :=
  memRead (l.foldl (fun m x => if overlaps x.pa x.len pa n then memWrite m x.pa x.len x.data else m) (memCells pa v n 0)) pa n

/-- Every byte of an interval lies in some withheld store. -/
def covered (l : List Store) (pa n : Nat) : Bool :=
  (List.range n).all fun k => l.any fun x => inside (pa + k) 1 x.pa x.len

/-- A load reaches a poisoned line at its home: one that a clean copy serves does not (R105, R422). -/
def State.meetsPoison (s : State) (d c pa n : Nat) (hint : Hint) (cache : Bool) : Bool :=
  (linesOf pa n).any fun l => (s.copyFor d c l hint cache).isNone && s.poisoned (max l pa) (min (l + 64) (pa + n) - max l pa)

/-- Every line of a load is served by a copy of its core or die, so that the load does not go to a home. -/
def State.servedNear (s : State) (d c pa n : Nat) (hint : Hint) (cache : Bool) : Bool :=
  (linesOf pa n).all fun l => (s.copyFor d c l hint cache).isSome

/-- A load of core c of die d stands: at its core where copies serve it, and else at its home. One whose line has a store that its die holds
waits wherever it is served (R417). -/
def State.loadStands (s : State) (d c pa n : Nat) (hint : Hint) (cache : Bool) (no : Option Nat := none) : Bool :=
  if s.servedNear d c pa n hint cache then s.coreHolds d c pa n || s.heldStoreOn d pa n else s.loadWaits d c pa n no

/-- The value of a plain load of the current task (R123, R230, R231): its bytes, with what the lookup allocates. It waits where the
home or the core holds it back, and then takes the home's reply. -/
def State.loadPlain (s : State) (h : Handle) (pa n : Nat) (hint : Hint) (va : Nat) : Except Stop (State × Nat) := do
  let t := s.me
  let d := s.iss.die
  let c := s.iss.core
  let cache := h.cache && !h.claim
  let ask : Except Stop (State × Nat) := waits .reply
    (.load { task := s.iss.task, die := d, core := c, pa := pa, len := n, hint := hint, cache := cache, claimSeg := h.claim })
  if covered t.withheld pa n then .ok (s, forward t.withheld pa n 0)
  else
    match t.reply with
    | some (a, k, v) =>
      if a = pa ∧ k = n then .ok (s.modMe fun t => { t with reply := none }, forward t.withheld pa n v) else ask
    | none =>
      if s.loadStands d c pa n hint cache then ask
      else
        require (!s.meetsPoison d c pa n hint cache) (raiseAt .memPoison va)
        let (s, v) := s.fetch d c pa n hint cache
        .ok (s, forward t.withheld pa n v)

/-! ### Claim loads (R119, R139, R171) -/

/-- A trap of a claim load about an address: the load is an acquire whatever tag it finds (R139). -/
def claimRaise {α : Type} (t : Trap) (addr : Nat) : Except Stop α := .error (.claimTrap { code := t.code, addr := addr })

/-- ClaimLoad of R230: the bytes of a VALUE line, which is an acquire at .dom. The touch of a STAKED cell and the wait at a WORKING
cell park the task, with its request on the way to the home. -/
def State.claimLoad (s : State) (pa n va : Nat) : Except Stop (State × Nat) := do
  let i := s.iss.task
  let cell := lineOf pa
  let stop : Except Stop (State × Nat) :=
    .error (.park (.claimWait cell (lineOf va)) (.claim { task := i, cell := cell, level := s.me.level }))
  require (!s.scoreboardHolds s.iss.die s.iss.core pa n false) (waits (.board pa n false))
  if s.atomicWaits s.me.launch s.iss.die s.iss.core pa n none false then waits (.homeRead pa n)
  else
    match s.tag pa with
    | .value =>
      require (!s.poisoned pa n) (claimRaise .memPoison va)
      .ok (s.acquire .dom s.iss.die s.iss.core, s.bytes pa n)
    | .failed => claimRaise .claimFailed (lineOf va)
    | .staked =>
      require (!s.poisoned pa n) (claimRaise .memPoison va)
      stop
    | .working => if s.me.ancestry.contains cell then claimRaise .claimSelf (lineOf va) else stop

/-! ### Stores (R122, R230, R232) -/

/-- Lines of the withheld-store buffer in use (R232). -/
def withheldLines (l : List Store) : Nat :=
  (l.foldl (fun a x => (List.range ((x.pa + x.len - 1) / 64 + 1 - x.pa / 64)).foldl (fun a k => setInsert a (x.pa / 64 + k)) a) []).length

/-- A store joins the withheld-store buffer. -/
def State.withhold (s : State) (pa n v : Nat) (hint : Hint) : State :=
  s.modMe fun t => { t with withheld := t.withheld ++ [{ pa := pa, len := n, data := v, hint := hint, die := s.iss.die, core := s.iss.core, task := s.iss.task, launch := t.launch }] }

/-- A write of the current task that its home performs at once: the core's own copy of the line takes it, and its die's RDC loses the
line (R97, R106, R136). -/
def State.putOwn (s : State) (pa n v : Nat) : State :=
  (s.storeLeaves { pa := pa, len := n, data := v, die := s.iss.die, core := s.iss.core }).putOutside pa n v

/-- A store of the current task is on its way to the home of an address, which performs the task's stores in program order (R122). -/
def State.sameHomeStore (s : State) (pa : Nat) : Bool := s.stores.any fun x => decide (x.task = s.iss.task) && sameHome x.pa pa

/-- A store through a claim-enabled segment is performed at the home at once (R230), behind the task's stores to the same home (R122)
and the copies of its core (R111). -/
def State.storeClaim (s : State) (pa n v va : Nat) : Act := do
  require (!s.issueStalls pa n true) (waits (.board pa n true))
  require (!s.sameHomeStore pa) (waits .release)
  if s.atomicWaits s.me.launch s.iss.die s.iss.core pa n then waits (.home pa n)
  else if s.tag pa ≠ .value then raiseAt .claimState va true
  else .ok (s.putOwn pa n v)

/-- The own core's and die's copies of a line that the task changed at its home are dropped, so that a later load of the task reaches
the home (R136; log 7). -/
def State.dropOwnCopies (s : State) (d c pa : Nat) : State :=
  (s.modCore d c fun x => { x with cache := smErase x.cache (lineOf pa) }).modDie d fun x => { x with rdc := smErase x.rdc (lineOf pa) }

/-! ### The task's matrix job (R228, R291, R295) -/

/-- The drain targets a result queue. -/
def MSet.toQueue (m : MSet) : Bool := flag m.drain.toNat 15

/-- Result queue that the drain control word of a set names (R285). -/
def MSet.queue (m : MSet) : Nat := field m.drain.toNat 18 16

/-- A pending trap of the task's job is raised (R291). -/
def State.jobTrapCheck (s : State) : Except Stop Unit :=
  match s.me.job.pend with
  | some r => .error (.jobTrap r)
  | none => .ok ()

/-- The wait of mwait and done: until the task has no job in flight (R228, R295). It is a check of the bundle, and does not see the job of an
`mgo` of the same bundle (R176, R338). -/
def State.jobWait (s : State) : Except Stop Unit := do
  s.jobTrapCheck
  let j := s.me.job
  if j.state = .done ∨ s.iss.newJob then .ok ()
  else if j.state = .parked && j.rqFull && (s.myCore.rq s.me.active.queue).bound.isNone
      && decide (96 < (s.myCore.rq s.me.active.queue).rows.length + 48) then
    raiseInfo .rqOverflow s.me.active.queue
  else waits .job

end Sys2Proof.Machine
end

