-- ==== Sys2Proof/Machine/Waking.lean ====
section
/-! DEFINITION. What a waiting bundle waits for, the wake condition of a parked task (R160), the choice of the next task of a core
(R157) and the pre-emption request (R158). -/

set_option Elab.async false

namespace Sys2Proof.Machine

/-- Room for one more claim slot in the claim area of a die (R401). -/
def State.claimRoom (s : State) (d : Nat) : Bool := decide (s.claimAreaUsed d + 128 ≤ s.claimBytes d)

/-- Lines of the hold buffer of a die (R417). -/
def holdLines : Nat := 16384

/-- Lines that a fold message takes there: its values, or one for an `sflush` (log 81). -/
def FoldMsg.holdSize (m : FoldMsg) : Nat := if m.isFlush then 1 else (4 * m.id.len + 63) / 64

/-- Lines that die d holds for unconfirmed gangs, with the stores of a list among them: stores, chunks of copies and relay deliveries, and
the contributions and stack commands that have a place there (R417; log 81). -/
def State.heldWith (s : State) (d : Nat) (l : List Store) : Nat :=
  withheldLines ((s.stores.filter fun x => decide (x.die = d) && s.gangHolds x.launch d x.pa) ++ l)
    + (s.heldChunks.filter fun x => decide (x.die = d) && s.gangHolds x.launch d x.pa).length
    + ((s.foldMsgs.filter fun m => m.inHold && decide ((s.task m.part.task).die = d) && s.gangHolds m.launch d m.id.addr).map FoldMsg.holdSize).sum
    + (s.cmds.filter fun c => c.inHold && decide (c.die = d) && s.gangHolds c.launch d ((c.writes.map (·.1)).headD 0)).length

/-- Lines that die d holds for unconfirmed gangs (R417). -/
def State.heldLines (s : State) (d : Nat) : Nat := s.heldWith d []

/-- A commit of task i would put more lines of remote stores into the hold buffer of die d than it takes (R417). -/
def State.holdFull (s : State) (i d : Nat) : Bool :=
  let mine := (s.task i).withheld.filter fun x => s.gangHolds (s.task i).launch d x.pa
  !mine.isEmpty && decide (holdLines < s.heldWith d mine)

/-- An effect of n lines of a launch at an address finds a place in the hold buffer of die d, if that die holds it (R417). -/
def State.holdRoom (s : State) (launch d pa n : Nat) : Bool := !s.gangHolds launch d pa || decide (s.heldLines d + n ≤ holdLines)

/-- The task has a job in flight that drains to queue q and still has a drain point to reach: the last point of a nest with a drain
flag is always one (R266, R279). -/
def Task.drainsTo (t : Task) (q : Nat) : Bool :=
  decide (t.job.state ≠ .done) && t.active.toQueue && decide (t.active.queue = q) && t.active.levels.toList.any (·.drain)

/-- The rows that a copy of R310 still lacks can come: the issuing task's job drains to the queue. -/
def State.fillable (s : State) (x : Cmd) : Bool :=
  match x.kind with
  | .cpyr q => !x.short && (decide (x.need ≤ x.rowsIn.length) || (s.task x.task).drainsTo q)
  | _ => true

/-- Rows of a queue that the copies of R310 have reserved and not yet taken. -/
def State.reserved (s : State) (d c q : Nat) : Nat :=
  (s.cmds.map fun x =>
    if x.die = d ∧ x.core = c ∧ x.kind = CmdKind.cpyr q ∧ s.fillable x then x.need - x.rowsIn.length else 0).sum

/-- The condition under which task i parked in a waiting bundle has cleared (R160). -/
def State.cleared (s : State) (t : Task) (i : Nat) : Stall → Bool
  | .reply => t.reply.isSome || !((s.loads.any fun r => decide (r.task = i)) || s.atomics.any fun r => decide (r.task = i))
  | .release => !s.releaseWaits i
  | .board pa n isStore => !(s.scoreboardHolds t.die t.core pa n isStore || s.outputOn t.die t.core pa n)
  | .entry => decide (s.scoreboardUsed t.die t.core < 16)
  | .tickets n => t.openTickets.all fun k => decide (n < k)
  | .job =>
    let r := (s.core t.die t.core).rq t.active.queue
    decide (t.job.state = .done) || t.job.pend.isSome
      || (decide (t.job.state = .parked) && t.job.rqFull && r.bound.isNone && decide (96 < r.rows.length + 48))
  | .bank n => decide (((s.core t.die t.core).bank n).queue.length < 4)
  | .macros m => (List.range 32).all fun k => !(m = 0 || flag m k) ||
      !(((s.core t.die t.core).bank (t.bankBase + k)).queue.any fun x => decide (x.task = i))
  | .divider => decide ((s.core t.die t.core).divider.task = none)
  | .fdiv p => decide ((smGet {} (s.core t.die t.core).fdiv p).task = none)
  | .idiv p => decide ((smGet {} (s.core t.die t.core).idiv p).task = none)
  | .home pa n => !s.atomicWaits t.launch t.die t.core pa n
  | .homeRead pa n => !s.atomicWaits t.launch t.die t.core pa n none false
  | .rows pa n => !s.stores.any fun x => decide (x.task = i) && overlaps x.pa x.len pa n
  | .queueRow q =>
    let r := (s.core t.die t.core).rq q
    !t.drainsTo q || r.bound.isSome || r.rows.any fun x => x.takenBy.isNone
  | .queueReserved q => decide (s.reserved t.die t.core q = 0)
  | .queueHand q => match ((s.core t.die t.core).rq q).bound with
    | some e => decide (((s.core t.die t.core).relay e).state ≠ .firing)
    | none => true
  | .drain => (s.core t.die t.core).drain.isNone
  | .hold => decide (s.heldLines t.die < holdLines)

/-- The wake condition of a parked task (R160). -/
def State.wakes (s : State) (t : Task) (i : Nat) : Bool :=
  t.pendTrap.isSome || match t.parkedOn with
  | .none => true
  | .handle seg va _ _ _ | .cmdHandle seg va _ => !s.walking t.die t.launch seg (va % 2 ^ 51)
  | .claimWait cell _ =>
    !(s.claimReqs.any fun r => decide (r.task = i) && !(r.stuck && !s.claimStuck cell)) &&
      !((s.claimEntry cell).map fun e => e.waiters.any fun w => decide (w.task = i)).getD false && !s.replyWaits t.die cell
  | .claimArea d => s.claimRoom d
  | .barrier n =>
    let b := (s.core t.die t.core).cb n
    b.ovf || (b.armed && decide (b.count ≤ 0)) || (b.owner.isSome && decide (b.owner ≠ some t.launch))
  | .crew n round => decide (((s.launch t.launch).crew n).rounds ≠ round)
  | .epoch dom e => s.epochDone dom e
  | .famo _ _ pa => s.famoRoom pa t.launch
  | .spawnArea => decide (s.spawnWaiting t.die < 4096)
  | .stall c => s.cleared t i c
  | .engine => true
  | .timeUntil x => decide (x ≤ s.time t.die)

/-- The task could issue if its core switched to it (R157). -/
def State.canIssue (s : State) (i : Nat) : Bool :=
  let t := s.task i
  t.ending.isNone && !t.leaving && !(s.launch t.launch).retired && match t.status with
  | .admitted => s.gangStarted t
  | .ready => true
  | .parked => s.wakes t i
  | .pending | .queued | .issuing | .swapped | .ended => false

/-- The task that a core would switch to. -/
def State.nextTask (s : State) (d c : Nat) : Option Nat := s.firstTask ((s.residents d c).filter s.canIssue)

/-- A pre-emption request is posted for the issuing task of a core (R158). -/
def State.preemptWanted (s : State) (i : Nat) : Bool :=
  let t := s.task i
  t.preempt || match s.nextTask t.die t.core with
    | some j => decide ((s.task j).level < t.level)
    | none => false

end Sys2Proof.Machine
end

