-- ==== Sys2Proof/Machine/Memory.lean ====
section
/-! DEFINITION. Class 0x3: loads and stores (R229 to R232), handles (R233 to R235), prefetch (R236) and the carve-out size (R237),
with the fill of a handle (R24, R88, R91, R387). -/

set_option Elab.async false

namespace Sys2Proof.Machine

/-! ### Filling a handle -/

/-- The segment attributes of a handle for a virtual address (R86, R89). -/
def Seg.attrs (g : Seg) (va : Nat) (ro : Bool) : Handle :=
  { read := g.read, write := g.write && !ro, cache := g.cache, checked := g.checked, claim := g.claim, tiled := g.tiled,
    pinned := g.pinned, seg := BitVec.ofNat 6 (vaSeg va), va := BitVec.ofNat 57 va, noWrite := ro }

/-- A handle over [lo, lo + n) of a segment that lies from physical address base; off is its own offset. -/
def Handle.place (h : Handle) (off base lo n : Nat) : Handle :=
  { h with valid := true, pending := false, revoked := false, pa := BitVec.ofNat 52 (base + (off - lo)),
           lo := BitVec.ofNat 51 lo, last := BitVec.ofNat 51 (lo + n - 1) }

/-- The part of the local segment that an offset lies in: its first offset, its length and its physical base (R88). -/
def State.localPart (s : State) (i off : Nat) : Option (Nat × Nat × Nat) :=
  let t := s.task i
  let w := winAddr (s.modId t.die) t.die t.core
  if off < t.spadSize then some (0, t.spadSize, w + t.spadBase)
  else if 0xC00000 ≤ off ∧ off < 0xC00000 + t.bankCount * 0x20000 then
    some (0xC00000, t.bankCount * 0x20000, w + 0xC00000 + t.bankBase * 0x20000)
  else if 0x1000000 ≤ off ∧ off < 0x1000000 + t.rowCount * 256 then
    some (0x1000000, t.rowCount * 256, w + 0x1000000 + t.rowBase * 256)
  else none

/-- The frame of the tile version bound to task i (R87). -/
def State.boundTile (s : State) (i seg off : Nat) : Option Nat :=
  let t := s.task i
  let log := ((s.launch t.launch).seg seg).tileLog
  (t.tiles.find? fun b => b.1 = seg ∧ b.2.1 = off / 2 ^ log).map (·.2.2)

/-- A pageable handle filled from a leaf: frame address, whether the page is 2 MiB, and RO of the leaf (R387, R389, R390). A task
bound to a tile version reaches that version. -/
def State.fillHandle (s : State) (i : Nat) (h : Handle) (frame : Nat) (big ro : Bool) : Handle :=
  let off := h.va.toNat % 2 ^ 51
  let g := (s.launch (s.task i).launch).seg h.seg.toNat
  let page := if big then 2 ^ 21 else 2 ^ 16
  let tile := 2 ^ g.tileLog
  let h := { h with pg2m := big, write := h.write && !ro }
  match (if g.tiled then s.boundTile i h.seg.toNat off else none) with
  | some f =>
    let n := min page tile
    h.place off (f + (off / n * n - off / tile * tile)) (off / n * n) n
  | none =>
    let lo := off / page * page
    if g.tiled && decide (tile < page) then h.place off (frame + (off / tile * tile - lo)) (off / tile * tile) tile
    else h.place off frame lo page

/-- The cached leaf of a page, if the die's translation cache holds one (R390): its word and whether the page is 2 MiB. -/
def State.tlbFind (s : State) (d launch seg off : Nat) : Option (Bool × Nat) :=
  ((s.die d).tlb.find? fun e => e.1 = launch ∧ e.2.1 = seg ∧
    e.2.2.1 = off / (if e.2.2.2.1 then 2 ^ 21 else 2 ^ 16) * (if e.2.2.2.1 then 2 ^ 21 else 2 ^ 16)).map fun e => (e.2.2.2.1, e.2.2.2.2)

/-- The physical base of a pinned segment lies in a configured module (R25, R409). -/
def State.inDomain (s : State) (d pa : Nat) : Bool := decide (paModule pa < (s.die d).domSize)

/-- The translation of xlat (R24, R88, R91, R233): the handle, and the walk that a miss starts. -/
def State.translate (s : State) (i va : Nat) (ro : Bool) : Except Stop (Handle × Option Walk) := do
  let t := s.task i
  let seg := vaSeg va
  let off := va % 2 ^ 51
  let bad : Except Stop (Handle × Option Walk) := raiseAt .segmentViolation va
  if 2 ^ 57 ≤ va then bad
  else if seg = 63 then
    match s.localPart i off with
    | none => bad
    | some (lo, n, base) =>
      .ok (({ (Seg.attrs { read := true, write := true, pinned := true } va ro) with }).place off base lo n, none)
  else
    let g := (s.launch t.launch).seg seg
    let h := g.attrs va ro
    if !g.valid || decide (g.len64k * 65536 ≤ off) then bad
    else if (s.die t.die).domSize ≤ g.homeMod then bad
    else if g.pinned then
      if s.inDomain t.die g.base then .ok (h.place off g.base 0 (g.len64k * 65536), none) else bad
    else
      match s.tlbFind t.die t.launch seg off with
      | some (big, w) =>
        if s.inDomain t.die w then .ok (s.fillHandle i h (leafFrame w) big (flag w 3), none) else bad
      | none => .ok ({ h with pending := true }, some { die := t.die, launch := t.launch, seg := seg, off := off / 65536 * 65536 })

/-! ### Address formation (R229) -/

/-- The byte offset of a class-0x3 access: sext(IMM14) × U + S[X], modulo 2^64. -/
def State.mmOff (s : State) (x : Fin 8) (imm : BitVec 14) (u : Nat) : Nat :=
  (imm.signExtend 64 * BitVec.ofNat 64 u + s.regS (x.castLE (by omega))).toNat

/-! ### Loads and stores -/

/-- The checks of R229 up to the claim tag: the handle and the physical address. -/
def State.mmCheck (s : State) (o : MmOp) (u n align : Nat) (isStore : Bool) : Except Stop (Handle × Nat × Nat) := do
  let h := s.regH o.h
  let off := s.mmOff o.x o.imm u
  let pa ← s.accessCheck h off n (!isStore) isStore o.h.val
  aligned h off align isStore
  s.footprintCheck h off n isStore
  .ok (h, pa, h.vaAt off)

/-- The load of R230 past its checks. -/
def State.loadBytes (s : State) (h : Handle) (pa n va : Nat) (hint : Hint) : Except Stop (State × Nat) :=
  if h.claim then
    (List.range ((n + 63) / 64)).foldlM (fun (p : State × Nat) k => do
      let m := min 64 (n - 64 * k)
      let (s, v) ← p.1.claimLoad (pa + 64 * k) m (va + 64 * k)
      Except.ok (s, p.2 + v * 2 ^ (512 * k))) (s, 0)
  else s.loadPlain h pa n hint va

/-- The stores of R230 and R231 past their checks: k parts of n bytes. -/
def State.storeBytes (s : State) (h : Handle) (pa n k va v : Nat) (hint : Hint) : Act :=
  if h.claim then
    (List.range k).foldlM (fun (s : State) j => s.storeClaim (pa + n * j) n (v / 2 ^ (8 * n * j)) (va + n * j)) s
  else if s.issueStalls pa (n * k) true then waits (.board pa (n * k) true)
  else .ok ((List.range k).foldl (fun s j => s.withhold (pa + n * j) n (v / 2 ^ (8 * n * j) % 2 ^ (8 * n)) hint) s)

/-- `ld` (R230). -/
def actLd (o : MmOp) (s : State) : Act := do
  let w := 2 ^ o.sz.val
  let (h, pa, va) ← s.mmCheck o w w w false
  let (s, v) ← s.loadBytes h pa w va o.hint
  .ok (s.resS o.d (BitVec.ofNat 64 v))

/-- `ld` (R230). -/
def execLd (o : MmOp) (s : State) : Host.Outcome State Fault Refusal := resolve s (actLd o s)

/-- `st` (R230). -/
def actSt (o : MmOp) (s : State) : Act := do
  let w := 2 ^ o.sz.val
  let (h, pa, va) ← s.mmCheck o w w w true
  s.storeBytes h pa w 1 va ((s.regS o.d).toNat % 2 ^ (8 * w)) o.hint

/-- `st` (R230). -/
def execSt (o : MmOp) (s : State) : Host.Outcome State Fault Refusal := resolve s (actSt o s)

/-- `ldv` (R231). -/
def actLdv (o : MmOp) (s : State) : Act := do
  let n := 64 * 2 ^ o.sz.val
  let q ← s.destV o.d
  let (h, pa, va) ← s.mmCheck o 64 n 64 false
  let (s, v) ← s.loadBytes h pa n va o.hint
  .ok (s.putRowBytes q n (BitVec.ofNat 2048 v))

/-- `ldv` (R231). -/
def execLdv (o : MmOp) (s : State) : Host.Outcome State Fault Refusal := resolve s (actLdv o s)

/-- `stv` (R231). -/
def actStv (o : MmOp) (s : State) : Act := do
  let n := 64 * 2 ^ o.sz.val
  let _ ← s.destV o.d
  let (h, pa, va) ← s.mmCheck o 64 n 64 true
  let r ← s.regV o.d
  s.storeBytes h pa 64 (n / 64) va r.toNat o.hint

/-- `stv` (R231). -/
def execStv (o : MmOp) (s : State) : Host.Outcome State Fault Refusal := resolve s (actStv o s)

/-! ### Handles -/

/-- `xlat` and `xlat.ro` (R91, R233). A miss starts a walk at once. -/
def actXlat (ro : Bool) (d : Fin 32) (h : Fin 16) (x : Fin 8) (imm : BitVec 14) (s : State) : Act := do
  let va := (s.regS d + s.regS (x.castLE (by omega)) + imm.signExtend 64).toNat
  let (hd, w) ← s.translate s.iss.task va ro
  let s := s.modLive fun r => r.wrH h hd
  .ok (match w with
    | some w => s.applySide (.walk w)
    | none => s)

/-- `xlat` (R233). -/
def execXlat (ro : Bool) (d : Fin 32) (h : Fin 16) (x : Fin 8) (imm : BitVec 14) (s : State) : Host.Outcome State Fault Refusal :=
  resolve s (actXlat ro d h x imm s)

/-- The status word of hchk.st (R234). -/
def Handle.word (h : Handle) : Nat :=
  ofFlag h.valid + ofFlag h.pending * 2 + ofFlag h.revoked * 4 + ofFlag h.read * 8 + ofFlag h.write * 16 + ofFlag h.cache * 32
    + ofFlag h.checked * 64 + ofFlag h.claim * 128 + ofFlag h.tiled * 256 + ofFlag h.pinned * 512 + ofFlag h.pg2m * 1024
    + h.seg.toNat * 2048

/-- `hchk` (R234). -/
def actHchk (sel : HchkSel) (d : Fin 32) (h : Fin 16) (s : State) : Act :=
  let x := s.regH h
  .ok (s.resS d (BitVec.ofNat 64 (match sel with
    | .st => x.word
    | .va => x.va.toNat
    | .lo => x.lo.toNat
    | .last => x.last.toNat)))

/-- `hchk` (R234). -/
def execHchk (sel : HchkSel) (d : Fin 32) (h : Fin 16) (s : State) : Host.Outcome State Fault Refusal := resolve s (actHchk sel d h s)

/-- `hdrop` (R235). -/
def actHdrop (h : Fin 16) (s : State) : Act := .ok (s.modLive fun r => r.wrH h {})

/-- `hdrop` (R235). -/
def execHdrop (h : Fin 16) (s : State) : Host.Outcome State Fault Refusal := resolve s (actHdrop h s)

/-- `hmov` (R235). -/
def actHmov (hd hs : Fin 16) (s : State) : Act := .ok (s.modLive fun r => r.wrH hd (s.regH hs))

/-- `hmov` (R235). -/
def execHmov (hd hs : Fin 16) (s : State) : Host.Outcome State Fault Refusal := resolve s (actHmov hd hs s)

/-! ### Prefetch and carve-out size -/

/-- One line of a prefetch (R236): brought into the caches of its hint, or dropped. -/
def State.prefetchLine (s : State) (h : Handle) (va : Nat) (hint : Hint) : State :=
  let off := va % 2 ^ 51
  let i := s.iss.task
  let pa := h.pa.toNat + off - h.va.toNat % 2 ^ 51
  if h.valid && h.read && !h.claim && decide (h.lo.toNat ≤ off) && decide (off + 63 ≤ h.last.toNat)
      && decide (va / 2 ^ 51 = h.va.toNat / 2 ^ 51)
      && (!h.checked || conforms va 64 (s.readRanges i) || conforms va 64 (s.writeRanges i))
      && !s.loadWaits s.iss.die s.iss.core pa 64 && !s.meetsPoison s.iss.die s.iss.core pa 64 hint h.cache
  then s.fetchLine s.iss.die s.iss.core pa hint h.cache (s.lineFor s.iss.die s.iss.core pa hint h.cache) else s

/-- `pf` (R236). -/
def actPf (sz : Fin 4) (hint : Hint) (h : Fin 16) (x : Fin 8) (imm : BitVec 14) (s : State) : Act :=
  let hd := s.regH h
  let va := lineOf (hd.vaAt (s.mmOff x imm 64))
  .ok ((List.range (2 ^ sz.val)).foldl (fun s k => s.prefetchLine hd (va + 64 * k) hint) s)

/-- `pf` (R236). -/
def execPf (sz : Fin 4) (hint : Hint) (h : Fin 16) (x : Fin 8) (imm : BitVec 14) (s : State) : Host.Outcome State Fault Refusal :=
  resolve s (actPf sz hint h x imm s)

/-- `phase` (R95, R96, R237). A shrink releases the lines that exceed the new size: DESIGN CHOICE (log 67): those of the highest addresses. -/
def actPhase (n : Fin 8) (s : State) : Act := do
  require (decide (n.val ≤ 4) && decide (n.val ≤ s.myLaunch.maxCarve)) (raiseInfo .illegalInstruction s.iss.word)
  let c := s.myCore
  if c.drain.isSome then waits .drain
  else
    let m := max c.carve n.val - min c.carve n.val
    .ok (s.modMyCore fun x => { x with
      drain := some (c.carve, n.val, s.clock + 64 + 128 * m)
      cache := if n.val < c.carve then x.cache.take (carveLines n.val) else x.cache })

/-- `phase` (R237). -/
def execPhase (n : Fin 8) (s : State) : Host.Outcome State Fault Refusal := resolve s (actPhase n s)

end Sys2Proof.Machine
end

