-- ==== Sys2Proof/Machine/Barriers.lean ====
section
/-! DEFINITION. Count barriers (R108 to R110), the arrival of a chunk at its destination (R307), and the firing of relay entries
(R326, R327), which every change of a barrier may cause. -/

set_option Elab.async false

namespace Sys2Proof.Machine

/-! ### Statuses of commands (R306) -/

/-- Status codes of R306. -/
inductive CStat where
  | ok | badCard | badBounds | badAccess | badAddress | claim | poison | step | cancelled | busy | underflow
  deriving DecidableEq, Repr

/-- The code of a status (R306). -/
def CStat.code : CStat → Nat
  | .ok => 0 | .badCard => 1 | .badBounds => 2 | .badAccess => 3 | .badAddress => 4 | .claim => 5 | .poison => 6 | .step => 7
  | .cancelled => 8 | .busy => 9 | .underflow => 10

/-- Status codes of R306. -/
abbrev Status := Nat

/-! ### Chunks (R304, R307) -/

/-- The task that holds a window byte, if any (R307). -/
def State.holder (s : State) (pa : Nat) : Option Nat :=
  let off := paWinOff pa
  if isWindow pa && s.onDie (paDie pa) pa then
    (s.residents (paDie pa) (paCore pa)).find? fun i =>
      let t := s.task i
      inside off 1 t.spadBase t.spadSize || inside off 1 (0xC00000 + t.bankBase * 0x20000) (t.bankCount * 0x20000)
        || inside off 1 (0x1000000 + t.rowBase * 256) (t.rowCount * 256)
  else none

/-- The bytes of an engine's chunk become visible at their home: an HBM line as a store, window bytes at their bank. -/
def State.landBytes (s : State) (pa n v : Nat) (claimSeg : Bool) : State :=
  let s := s.putOutside pa n v
  if claimSeg || !isHbm pa then s else s.clearTags pa n

/-- A destination that an engine may not write: a claim line that is not VALUE (R119). -/
def State.claimBars (s : State) (pa : Nat) (claimSeg : Bool) : Bool := claimSeg && isHbm pa && decide (s.tag pa ≠ .value)

/-- A line of an interval is not VALUE (R119). -/
def State.claimMet (s : State) (pa n : Nat) : Bool :=
  isHbm pa && s.tags.any fun e => overlaps e.1 64 pa n

/-- An engine access has to wait: held ranges of a stack command, a busy seam bank (R104, R113), a link, an earlier message of its die to
the same die (R407), or, for a read, the way of its response (R406). no is its number, for a chunk that the hold buffer has kept. -/
def State.chunkWaits (s : State) (die pa n : Nat) (isWrite : Bool) (own : Option Nat := none) (no : Option Nat := none) : Bool :=
  s.commandHolds pa n isWrite own || s.bankBusy pa n own || s.linkWaits die pa || s.overtakes die pa (no.getD s.sent)
    || (!isWrite && s.replyWaits die pa)

/-- A handle copy that an engine uses: refilled from the die's translation cache when it is unusable; none while a walk is needed
(R92, R325, R327). -/
def State.usableHandle (s : State) (i : Nat) (h : Handle) : Option Handle :=
  if h.valid then some h
  else
    let t := s.task i
    (s.tlbFind t.die t.launch h.seg.toNat (h.va.toNat % 2 ^ 51)).map fun e =>
      s.fillHandle i { h with write := ((s.launch t.launch).seg h.seg.toNat).write && !h.noWrite } (leafFrame e.2) e.1 (flag e.2 3)

/-- The walk that an unusable handle copy of task i waits for is started. -/
def State.startWalk (s : State) (i : Nat) (h : Handle) : State :=
  let t := s.task i
  s.applySide (.walk { die := t.die, launch := t.launch, seg := h.seg.toNat, off := h.va.toNat % 2 ^ 51 / 65536 * 65536 })

/-- Physical address of a segment offset through a handle. -/
def Handle.at (h : Handle) (off : Nat) : Nat := h.pa.toNat + off - h.va.toNat % 2 ^ 51

/-! ### Relay cards (R324) -/

/-- A field of a relay card. -/
def Relay.fld (r : Relay) (hi lo : Nat) : Nat := field r.card.toNat hi lo

/-- NOTBEFORE. -/
def Relay.notBefore (r : Relay) : Nat := r.fld 511 448

/-- THRESH, signed. -/
def Relay.thresh (r : Relay) : Int := sextNat 40 (r.fld 447 408)

/-- TRIG. -/
def Relay.trig (r : Relay) : Nat := r.fld 407 402

/-- KIND: 0 WRITE, 1 FOLD, 2 QUEUE. -/
def Relay.kind (r : Relay) : Nat := r.fld 392 391

/-- Bytes per delivery. -/
def Relay.len (r : Relay) : Nat := r.fld 283 256

/-- ROWS. -/
def Relay.rows (r : Relay) : Nat := r.fld 255 240

/-- DSTRIDE, signed. -/
def Relay.dstride (r : Relay) : Int := sextNat 32 (r.fld 239 208)

/-- Destination segment offset of the delivery in progress (R327). -/
def Relay.dst (r : Relay) : Nat :=
  ((r.fld 178 128 : Int) + (if r.kind = 2 then r.doneRows * r.dstride else 0)).toNat

/-- Source segment offset. -/
def Relay.soff (r : Relay) : Nat := r.fld 50 0

/-- The state code of R329. -/
def RState.code : RState → Nat
  | .idle => 0 | .posted => 1 | .armed => 2 | .firing => 3 | .done => 4

/-- The state with relay entry e of a core changed. -/
def State.modRelay (s : State) (d c e : Nat) (f : Relay → Relay) : State :=
  s.modCore d c fun x => { x with relays := smPut x.relays e (f (x.relay e)) }

/-- A delivery has failed, or its entry has no more to deliver (R330). -/
def State.relayDone (s : State) (d c e : Nat) (st : Status) : State :=
  s.modRelay d c e fun r => { r with state := .done, status := st, loaded := false, data := 0, dataLen := 0, sent := 0 }

/-- Device time has reached NOTBEFORE. -/
def State.relayTime (s : State) (d : Nat) (r : Relay) : Bool := decide (r.notBefore ≤ s.time d)

/-- The first queue bound to a QUEUE entry that has a row to hand over, with that row (R299, R326). -/
def Core.handed (x : Core) (e : Nat) : Option (Nat × QRow) :=
  x.rqs.findSome? fun (q : Nat × RQ) => if q.2.bound = some e then (q.2.rows.find? fun r => r.takenBy.isNone).map fun r => (q.1, r) else none

/-- The firing condition of an entry (R326). -/
def State.relayReady (s : State) (d c e : Nat) : Bool :=
  let x := s.core d c
  let r := x.relay e
  decide (r.state = .armed) && s.relayTime d r &&
    (if r.kind = 2 then (x.handed e).isSome
     else
       let b := x.cb r.trig
       b.armed && !b.ovf && decide (b.count ≤ r.thresh))

/-- The source of a firing entry is read, unless its handle or its home makes it wait (R327). -/
def State.relayLoad (s : State) (d c e : Nat) : State :=
  let r := (s.core d c).relay e
  if r.state ≠ RState.firing ∨ r.loaded ∨ r.kind = 2 then s
  else
    match s.usableHandle r.task r.hs with
    | none => s.startWalk r.task r.hs
    | some h =>
      let pa := h.at r.soff
      let s := s.modRelay d c e fun r => { r with hs := h }
      if h.lo.toNat ≤ r.soff ∧ r.soff + r.len ≤ h.last.toNat + 1 then
        if s.chunkWaits d pa r.len false then s
        else if h.claim && s.claimMet pa r.len then s.relayDone d c e CStat.claim.code
        else if s.poisoned pa r.len then s.relayDone d c e CStat.poison.code
        else s.modRelay d c e fun x => { x with loaded := true, data := s.outerBytes pa r.len, dataLen := r.len, sent := 0 }
      else s.relayDone d c e CStat.badBounds.code

/-- An entry fires (R327, R330). -/
def State.relayFire (s : State) (d c e : Nat) : State :=
  let r := (s.core d c).relay e
  let s := s.modRelay d c e fun r => { r with state := .firing, cur := 0, loaded := false, sent := 0 }
  if r.kind = 2 then
    match (s.core d c).handed e with
    | none => s
    | some (q, row) =>
      let s := s.modCore d c fun x => { x with
        rqs := smPut x.rqs q { x.rq q with rows := (x.rq q).rows.eraseP fun y => y.takenBy.isNone } }
      if row.poison then s.relayDone d c e CStat.poison.code
      else s.modRelay d c e fun x => { x with loaded := true, data := row.row.toNat % 2 ^ (8 * r.len), dataLen := r.len }
  else s.relayLoad d c e

/-- The core tests its armed entries, in order, and fires those whose condition holds (R326). -/
def State.relayTest (s : State) (d c : Nat) : State :=
  (s.core d c).relays.foldl (fun s e => if s.relayReady d c e.1 then s.relayFire d c e.1 else s) s

/-! ### Count barriers (R109, R110) -/

/-- COUNT changed by a signed amount; a result outside 40 bits sets OVF and leaves COUNT (R109). -/
def CB.change (b : CB) (v : Int) : CB :=
  if -(2 ^ 39) ≤ b.count + v ∧ b.count + v < 2 ^ 39 then { b with count := b.count + v } else { b with ovf := true }

/-- COUNT changed by the value of a register: one outside 40 bits sets OVF (R249). -/
def CB.changeBy (b : CB) (v : Int) : CB :=
  if -(2 ^ 39) ≤ v ∧ v < 2 ^ 39 then b.change v else { b with ovf := true }

/-- A waiting cb.wait of the core completes when its barrier stands armed at zero (R109): ARMED is cleared, and the waiting bundle
finds that the barrier has met its wait. -/
def State.completeWait (s : State) (d c n : Nat) : State :=
  let b := (s.core d c).cb n
  match (s.core d c).issuing with
  | some i =>
    let t := s.task i
    if b.armed && !b.ovf && decide (b.count = 0) && t.stallSince.isSome && decide (t.stallWhy = .barrier n)
        && decide (b.owner = some t.launch) && b.met.isNone then
      s.modCore d c fun x => { x with cbs := smPut x.cbs n { x.cb n with armed := false, met := some i } }
    else s
  | none => s

/-- A barrier changes: armed relay entries are tested before a wait completes (R109, R326). -/
def State.cbChange (s : State) (d c n : Nat) (f : CB → CB) : State :=
  let s := s.modCore d c fun x => { x with cbs := smPut x.cbs n (f (x.cb n)) }
  (s.relayTest d c).completeWait d c n

/-- Another launch owns an object (R110). -/
def foreign (owner : Option Nat) (launch : Nat) : Bool := owner.isSome && decide (owner ≠ some launch)

/-- The bytes of an arriving chunk count on a barrier, unless another launch owns it (R109, R110). -/
def State.countArrival (s : State) (d c n launch len : Nat) : State × Bool :=
  if foreign ((s.core d c).cb n).owner launch then (s, false)
  else (s.cbChange d c n fun b => { b.change (-(len : Int)) with owner := some launch }, true)

/-! ### Deliveries (R327, R328) -/

/-- Module, die and core of an origin word (R328, R419): bits [9:0], [12:10] and [16:13]. -/
def originWord (module die core : Nat) : Nat := module + die * 2 ^ 10 + core * 2 ^ 13

/-- Words of 32 bits of a number of n bytes. -/
def words32 (v n : Nat) : List Nat := (List.range (n / 4)).map fun k => v / 2 ^ (32 * k) % 2 ^ 32

/-- The step check of R328 at the first chunk: none when the delivery passes, else its status and the task that takes
STEP_MISMATCH. The core of another module makes its check there: its answer is an open value (log 68). -/
def State.stepCheck (s : State) (launch : Nat) (r : Relay) (pa : Nat) : Option (Status × Option Nat) :=
  if !flag r.card.toNat 393 then none
  else
    if !s.onDie (paDie pa) pa then
      match (Config.freeWord s.freeCount).toNat % 3 with
      | 0 => none
      | 1 => some (CStat.step.code, none)
      | _ => some (CStat.badAddress.code, none)
    else
    match s.holder pa with
    | none => some (CStat.badAddress.code, none)
    | some i =>
      if (s.task i).launch = launch ∧ (s.task i).live.step.toNat = r.fld 383 320 then none
      else some (CStat.step.code, some i)

/-- The end of one delivery (R330). -/
def State.relayDelivered (s : State) (d c e : Nat) (st : Status) : State :=
  let r := (s.core d c).relay e
  if r.kind = 2 ∧ st = CStat.ok.code then
    let n := r.doneRows + 1
    let s := s.modRelay d c e fun r => { r with doneRows := n }
    if n < r.rows then (s.modRelay d c e fun r => { r with state := .armed, loaded := false, data := 0, dataLen := 0, sent := 0 }).relayTest d c
    else s.relayDone d c e st
  else s.relayDone d c e st

/-- Chunks of a relay entry's delivery are in the hold buffer of its die (R417). -/
def State.relayHeld (s : State) (d c e : Nat) : Bool :=
  s.heldChunks.any fun x => decide (x.die = d) && decide (x.core = c) && decide (x.relay = some e)

/-- The chunks of a relay entry's delivery leave the hold buffer. -/
def State.dropHeld (s : State) (d c e : Nat) : State :=
  { s with heldChunks := s.heldChunks.filter fun x => !(decide (x.die = d) && decide (x.core = c) && decide (x.relay = some e)) }

/-- A part of a delivery reaches its target: n bytes of value v at an address, the first part with the step check (R328). The status with
which the delivery ends there, if it does (R327). -/
def State.relayPart (s : State) (d c e pa n v : Nat) (first claim : Bool) : State × Option Status :=
  let r := (s.core d c).relay e
  let launch := (s.task r.task).launch
  let check := if first then s.stepCheck launch r pa else none
  let s := if first && flag r.card.toNat 393 && !s.onDie (paDie pa) pa then { s with freeCount := s.freeCount + 1 } else s
  match check with
  | some (st, hit) =>
    (match hit with
      | some i => s.modTask i fun t => { t with stepMis := some (r.fld 383 320, originWord (s.modId d) d c) }
      | none => s, some st)
  | none =>
    if s.claimBars pa claim then (s, some CStat.claim.code)
    else
      let (s, counted) :=
        if isWindow pa && s.onDie (paDie pa) pa && (s.holder pa).isNone then (s, false)
        else
          let s := s.landBytes pa n v claim
          if flag r.card.toNat 395 && s.onDie (paDie pa) pa then s.countArrival (paDie pa) (paCore pa) (r.fld 401 396) launch n
          else (s, true)
      (s.modRelay d c e fun r => { r with cur := if !counted then CStat.badAddress.code else if first then CStat.ok.code else r.cur }, none)

/-- Every byte of a delivery has left, and no part of it is held: it is complete (R330). -/
def State.relaySettle (s : State) (d c e : Nat) : State :=
  let r := (s.core d c).relay e
  if r.state ≠ .firing ∨ r.sent < r.dataLen ∨ s.relayHeld d c e then s else s.relayDelivered d c e r.cur

/-- The next chunk of a loaded WRITE or QUEUE delivery (R307, R327). One of a gang task to another die goes into the hold buffer, where it
finds room (R417). -/
def State.relayChunk (s : State) (d c e : Nat) : State :=
  let r := (s.core d c).relay e
  let launch := (s.task r.task).launch
  match s.usableHandle r.task r.hd with
  | none => s.startWalk r.task r.hd
  | some h =>
    let s := s.modRelay d c e fun r => { r with hd := h }
    if r.dataLen ≤ r.sent then s.relaySettle d c e
    else if r.dst < h.lo.toNat ∨ h.last.toNat + 1 < r.dst + r.dataLen then s.relayDelivered d c e CStat.badBounds.code
    else
      let off := r.dst + r.sent
      let pa := h.at off
      let n := min (r.dataLen - r.sent) (64 - pa % 64)
      let v := r.data / 2 ^ (8 * r.sent) % 2 ^ (8 * n)
      if s.gangHolds launch d pa then
        if s.holdRoom launch d pa 1 then
          State.modRelay { s with
            sent := s.sent + 1
            heldChunks := s.heldChunks ++ [{ no := s.sent, launch := launch, die := d, core := c, relay := some e, pa := pa,
                                             runs := [(0, n, v)], len := n, first := decide (r.sent = 0), claim := h.claim }] }
            d c e fun r => { r with sent := r.sent + n }
        else s
      else if s.chunkWaits d pa n true then s
      else if s.gangDrops launch d pa then (s.dropHeld d c e).relayDelivered d c e CStat.ok.code
      else
        match s.relayPart d c e pa n v (decide (r.sent = 0)) h.claim with
        | (s, some st) => s.relayDelivered d c e st
        | (s, none) => (s.modRelay d c e fun r => { r with sent := r.sent + n }).relaySettle d c e

/-- A held part of a delivery goes on to its target: it is discarded where its gang was aborted (R418). -/
def State.landPart (s : State) (x : HeldChunk) (e : Nat) : State :=
  if s.gangDrops x.launch x.die x.pa then (s.dropHeld x.die x.core e).relayDelivered x.die x.core e CStat.ok.code
  else
    let run := x.runs.headD (0, 0, 0)
    match State.relayPart { s with heldChunks := s.heldChunks.erase x } x.die x.core e x.pa run.2.1 run.2.2 x.first x.claim with
    | (s, some st) => (s.dropHeld x.die x.core e).relayDelivered x.die x.core e st
    | (s, none) => s.relaySettle x.die x.core e

/-- The contribution of a FOLD delivery leaves for its stack, as a fold command without a ticket, whose writes are the row run (R113,
R114, R327, R333). -/
def State.relayFold (s : State) (d c e : Nat) : State :=
  let r := (s.core d c).relay e
  let launch := (s.task r.task).launch
  match s.usableHandle r.task r.hd with
  | none => s.startWalk r.task r.hd
  | some h =>
    let x : FoldId := { addr := h.at r.dst, len := r.len / 4, bf16 := decide (r.fld 390 387 = 5), nrank := r.fld 303 288 }
    if r.sent ≠ 0 ∨ !s.holdRoom launch d x.addr ((r.len + 63) / 64) then s
    else if s.gangDrops launch d x.addr then s.relayDelivered d c e 0
    else
      let s := s.modRelay d c e fun r => { r with hd := h, sent := 1 }
      { s with
        issued := s.issued + 1
        sent := s.sent + 1
        cmds := s.cmds ++ [{ Cmd.of .rfold e with
          id := s.issued, order := s.issued, no := s.sent, task := r.task, die := d, core := c, launch := launch, started := true, hd := h
          writes := [(x.addr, x.bytes)] }]
        foldMsgs := s.foldMsgs ++ [{
          id := x, launch := launch, det := (s.launch launch).det, cmd := some s.issued, no := s.sent, inHold := s.gangHolds launch d x.addr
          part := { rank := r.fld 319 304, data := words32 r.data r.len, task := r.task, ticket := 0, claim := h.claim, relay := some (d, c, e) } }] }

end Sys2Proof.Machine
end

