-- ==== Sys2Proof/Machine/Control.lean ====
section
/-! DEFINITION. Class 0x2: transfers (R218 to R220), the loop engine (R221 to R226), spawn (R227) and done (R228). -/

set_option Elab.async false

namespace Sys2Proof.Machine

/-! ### Transfers (R218, R219, R224) -/

/-- The range of a level holds an address (R224). -/
def LoopRec.holds (l : LoopRec) (pc : Nat) : Bool := decide (l.body ≤ pc) && decide (pc ≤ l.last)

/-- The levels that a taken transfer to an address leaves active, innermost first: the outermost level that does not hold the
target goes, with every level inside it (R224). -/
def keepLevels (pc : Nat) : List LoopRec → List LoopRec
  | [] => []
  | l :: ls => if (ls.all fun x => x.holds pc) && l.holds pc then l :: ls else keepLevels pc ls

/-- A taken transfer to a byte address of the code image (R219): call keeps every level. Of the two traps that one target may raise,
MISALIGNED comes first (log 94). -/
def State.transfer (s : State) (target : Nat) (isCall : Bool) : Act := do
  require (decide (target % 16 = 0)) (raiseAt .misaligned target)
  require (decide (target < s.myLaunch.codeLen)) (raiseAt .segmentViolation target)
  let s := s.modLive fun r => { r with pc := target, loops := if isCall then r.loops else keepLevels target r.loops }
  .ok { s with iss := { s.iss with taken := true } }

/-- L + 16 × d modulo 2^64 (R218). -/
def State.target (s : State) (d : BitVec 24) : Nat := (BitVec.ofNat 64 s.iss.pc + 16 * d.signExtend 64).toNat

/-- A transfer when a condition holds, and no effect otherwise. -/
def State.branchIf (s : State) (c : Bool) (d : BitVec 24) : Act := if c then s.transfer (s.target d) false else .ok s

/-! ### The loop engine (R222) -/

/-- SetStages: the stage predicates of a level with STAGES of 2 or more. -/
def setStages (lv : LoopRec) (r : Regs) : Regs :=
  if lv.stages < 2 then r
  else (List.finRange 4).foldl (fun (r : Regs) k =>
    if k.val < lv.stages then
      r.wrP (Fin.ofNat 8 (4 + k.val)) (decide (k.val ≤ lv.j) && decide (lv.j < lv.n + k.val))
    else r) r

/-- The iteration boundary of the active level with k levels inside it, and of every enclosing level that ends with it; n bounds the
levels. A level that ends takes the levels inside it with it, and one that goes on leaves them (R222 names the top level alone;
log 66). -/
def State.boundary (s : State) : Nat → (k : Nat := 0) → State
  | 0, _ => s
  | n + 1, k =>
    match s.me.live.loops.drop k with
    | [] => s
    | lv :: ls =>
      let inner := s.me.live.loops.take k
      let lv := { lv with j := lv.j + 1 }
      let s := if lv.pre then { s.modLive (fun r => { r with yieldCount := 0 }) with iss := { s.iss with counted := true } } else s
      let lv := if lv.pre && s.preemptWanted s.iss.task && decide (lv.j < lv.n) then { lv with left := lv.t - lv.j, n := lv.j } else lv
      if lv.j < lv.n + lv.sEff - 1 then
        s.modLive fun r => setStages lv { r with loops := inner ++ lv :: ls, pc := lv.body }
      else if 0 < lv.left then
        let s := { s with iss := { s.iss with yieldHere := true } }
        let lv := { lv with t := lv.left, n := lv.left, j := 0, left := 0 }
        s.modLive fun r => setStages lv { r with loops := inner ++ lv :: ls, pc := lv.body }
      else
        let s := s.modLive fun r => { r with loops := ls, pc := lv.last + 16 }
        match ls with
        | up :: _ => if up.last = lv.last then State.boundary s n 0 else s
        | [] => s

/-- The innermost active level whose body ends at an address takes its boundary; none when no level does (R222). -/
def State.boundaryAt (s : State) (last : Nat) : Option State :=
  (s.me.live.loops.findIdx? fun x => decide (x.last = last)).map fun k => s.boundary 4 k

/-- Fetch continues past a bundle that ends a body, by a skipped loop or by lbreak: an active level with the same last takes its
boundary (R222, R225). -/
def State.leaveBody (s : State) (last : Nat) : State :=
  let s := s.modLive fun r => { r with pc := last + 16 }
  let s := { s with iss := { s.iss with taken := true } }
  (s.boundaryAt last).getD s

/-! ### Instructions -/

/-- `nop` (R218). -/
def actNop (s : State) : Act := .ok s

/-- `nop` (R218). -/
def execNop (s : State) : Host.Outcome State Fault Refusal := resolve s (actNop s)

/-- `br` (R218). -/
def actBr (d : BitVec 24) (s : State) : Act := s.branchIf true d

/-- `br` (R218). -/
def execBr (d : BitVec 24) (s : State) : Host.Outcome State Fault Refusal := resolve s (actBr d s)

/-- `brc` and `brc.f` (R218). -/
def actBrc (p : Fin 8) (neg : Bool) (d : BitVec 24) (s : State) : Act := s.branchIf (s.regP p ^^ neg) d

/-- `brc` and `brc.f` (R218). -/
def execBrc (p : Fin 8) (neg : Bool) (d : BitVec 24) (s : State) : Host.Outcome State Fault Refusal := resolve s (actBrc p neg d s)

/-- `brz` (R218). -/
def actBrz (a : SSrc) (d : BitVec 24) (s : State) : Act := do
  let x ← s.srcS a
  s.branchIf (x == 0) d

/-- `brz` (R218). -/
def execBrz (a : SSrc) (d : BitVec 24) (s : State) : Host.Outcome State Fault Refusal := resolve s (actBrz a d s)

/-- `brnz` (R218). -/
def actBrnz (a : SSrc) (d : BitVec 24) (s : State) : Act := do
  let x ← s.srcS a
  s.branchIf (x != 0) d

/-- `brnz` (R218). -/
def execBrnz (a : SSrc) (d : BitVec 24) (s : State) : Host.Outcome State Fault Refusal := resolve s (actBrnz a d s)

/-- `call` (R218): the link register and LS receive L + 16. -/
def actCall (l : Fin 32) (d : BitVec 24) (s : State) : Act :=
  (s.resS l (BitVec.ofNat 64 (s.iss.pc + 16))).transfer (s.target d) true

/-- `call` (R218). -/
def execCall (l : Fin 32) (d : BitVec 24) (s : State) : Host.Outcome State Fault Refusal := resolve s (actCall l d s)

/-- `ret` (R218). -/
def actRet (a : SSrc) (s : State) : Act := do
  let x ← s.srcS a
  s.transfer x.toNat false

/-- `ret` (R218). -/
def execRet (a : SSrc) (s : State) : Host.Outcome State Fault Refusal := resolve s (actRet a s)

/-- `jmpr` (R218): a + 16 × n modulo 2^64. -/
def actJmpr (a : SSrc) (n : BitVec 24) (s : State) : Act := do
  let x ← s.srcS a
  s.transfer (x + 16 * n.signExtend 64).toNat false

/-- `jmpr` (R218). -/
def execJmpr (a : SSrc) (n : BitVec 24) (s : State) : Host.Outcome State Fault Refusal := resolve s (actJmpr a n s)

/-- `loop` (R221 to R223). -/
def actLoop (a : SSrc) (pre : Bool) (stages : Fin 8) (len : Fin 4096) (s : State) : Act := do
  let t ← s.srcS a
  let l := s.iss.pc
  let ls := s.me.live.loops
  let last := l + 16 * len.val
  let bad : Except Stop Unit := raiseInfo .illegalInstruction s.iss.word
  require (decide (ls.length < 4)) bad
  require (match ls.find? fun x => x.holds l with
    | some e => decide (last ≤ e.last)
    | none => true) bad
  require (!(decide (2 ≤ stages.val) && ls.any fun x => decide (2 ≤ x.stages))) bad
  if t = 0 then .ok (s.leaveBody last)
  else
    let lv : LoopRec := { body := l + 16, last := last, t := t.toNat, n := t.toNat, j := 0, stages := stages.val, sEff := max stages.val 1, pre := pre, left := 0 }
    let s := s.modLive fun r => setStages lv { r with loops := lv :: ls, pc := lv.body }
    .ok { s with iss := { s.iss with taken := true } }

/-- `loop` (R221). -/
def execLoop (a : SSrc) (pre : Bool) (stages : Fin 8) (len : Fin 4096) (s : State) : Host.Outcome State Fault Refusal :=
  resolve s (actLoop a pre stages len s)

/-- `lbreak` (R225). With no active level it raises whatever its predicate holds (log 95). -/
def actLbreak (p : Fin 8) (s : State) : Act :=
  match s.me.live.loops with
  | [] => raiseInfo .illegalInstruction s.iss.word
  | lv :: ls =>
    if !s.regP p then .ok s
    else if lv.sEff = 1 then .ok ((s.modLive fun r => { r with loops := ls }).leaveBody lv.last)
    else .ok (s.modLive fun r => { r with loops := { lv with n := min lv.n (lv.j + 1), left := 0 } :: ls })

/-- `lbreak` (R225). -/
def execLbreak (p : Fin 8) (s : State) : Host.Outcome State Fault Refusal := resolve s (actLbreak p s)

/-- S[A] to S[A + n − 1] as they stood before the bundle. -/
def State.regRun (s : State) (a : Fin 32) (n : Nat) : List Word :=
  (List.range n).map fun k => s.regS (Fin.ofNat 32 (a.val + k))

/-- A child's footprint lies within its parent's (R153). -/
def State.childFits (s : State) (e : Entry) (idx : Nat) : Bool :=
  let i := s.iss.task
  (rangesAt e.rd idx).all (fun r => within r (s.readRanges i ++ s.writeRanges i))
    && (rangesAt e.wr idx).all fun r => within r (s.writeRanges i)

/-- `spawn` (R227). FOOTPRINT_VIOLATION has no access to name: its ADDR and WRITE are 0 (R346; log 78). -/
def actSpawn (a : Fin 32) (named : Bool) (core : Fin 16) (entry : Fin 256) (s : State) : Act := do
  let t := s.me
  let l := s.myLaunch
  let count := t.live.callCount
  let limit : Except Stop Unit := raiseInfo .spawnLimit count
  let args := s.regRun a 6
  require (decide (keyDepth t.key.toNat ≠ 5) && decide (count ≠ 255)) limit
  match l.entries[entry.val]? with
  | none => raiseInfo .spawnLimit count
  | some e =>
    require (!named || (l.eligOn t.die).any fun p => decide (p.2 = core.val)) limit
    let idx := (args.headD 0).toNat % 2 ^ 24
    require (s.childFits e idx) (raise .footprintViolation)
    if 4096 ≤ s.spawnWaiting t.die then .error (.park .spawnArea .none)
    else
      let call := count + 1
      let s := s.modLive fun r => { r with callCount := call }
      let c := if named then core.val else childCore l t.die t.core call
      let child := s.newTask t.launch (childKey t.key.toNat call) t.die c entry.val idx args t.live.ep
      .ok (s.addTask { child with
        parent := some s.iss.task, domain := t.domain, ancestry := t.ancestry, named := named })

/-- `spawn` (R227). -/
def execSpawn (a : Fin 32) (named : Bool) (core : Fin 16) (entry : Fin 256) (s : State) : Host.Outcome State Fault Refusal :=
  resolve s (actSpawn a named core entry s)

/-- `done` (R228): waits for the task's job, then ends the task after its bundle. -/
def actDone (s : State) : Act := do
  s.jobWait
  .ok (s.modMe fun t => { t with ending := some none })

/-- `done` (R228). -/
def execDone (s : State) : Host.Outcome State Fault Refusal := resolve s (actDone s)

end Sys2Proof.Machine
end

