-- ==== Sys2Proof/Machine/Sync.lean ====
section
/-! DEFINITION. Class 0x4: atomics (R239 to R241), fences (R243), claim operations (R244 to R247), crews, count barriers, steps and
epochs (R248 to R251). -/

set_option Elab.async false

namespace Sys2Proof.Machine

/-! ### Atomics -/

/-- The new value of `amo` (R239). -/
def amoApply (op : AmoOp) (w : Nat) (old v : Nat) : Nat :=
  let v := v % 2 ^ w
  match op with
  | .add => (old + v) % 2 ^ w
  | .and => old &&& v
  | .or => old ||| v
  | .xor => old ^^^ v
  | .minI => if sextNat w v < sextNat w old then v else old
  | .maxI => if sextNat w old < sextNat w v then v else old
  | .minN => min old v
  | .maxN => max old v
  | .swap => v

/-- The format of a floating atomic type. -/
def famoFmt : FamoTy → Fmt
  | .f32 => .f32 | .bf16 => .bf16 | .f16 => .f16

/-- The new value of `famo` (R241): old and v are codes of the type. -/
def famoApply (op : FamoOp) (ty : FamoTy) (old v : Nat) : Nat :=
  let f := famoFmt ty
  let a := decodeF f old
  let b := decodeF f (v % 2 ^ f.width)
  match op with
  | .add => roundF .rne 0 f (addF .rne a b)
  | .min => if isNan a || isNan b then f.nanCode else if ltF true b a then v % 2 ^ f.width else old
  | .max => if isNan a || isNan b then f.nanCode else if ltF true a b then v % 2 ^ f.width else old

/-- Width in bytes of an atomic. -/
def AtomKind.bytes : AtomKind → Nat
  | .amo _ w32 _ => if w32 then 4 else 8
  | .cas w32 _ _ => if w32 then 4 else 8
  | .famo _ ty _ => (famoFmt ty).width / 8

/-- The new value that an atomic writes; none when a comparison fails (R239 to R241). -/
def AtomKind.result (k : AtomKind) (old : Nat) : Option Nat :=
  match k with
  | .amo op w32 v => some (amoApply op (if w32 then 32 else 64) old v.toNat)
  | .cas w32 cmp new =>
    let m := 2 ^ (if w32 then 32 else 64)
    if old = cmp.toNat % m then some (new.toNat % m) else none
  | .famo op ty v => some (famoApply op ty old v.toNat)

/-- An atomic is performed at its home (R105, R142): the state after it, and the old value. -/
def State.performAtomic (s : State) (d c pa : Nat) (k : AtomKind) : State × Nat :=
  let old := s.bytes pa k.bytes
  match k.result old with
  | some v => ((s.putOutside pa k.bytes v).dropOwnCopies d c pa, old)
  | none => (s, old)

/-- The release part of an ordering (R137). -/
def ordRels (o : Ord) : Bool := decide (o = .rel) || decide (o = .ar)

/-- The acquire part of an ordering (R138). -/
def ordAcqs (o : Ord) : Bool := decide (o = .acq) || decide (o = .ar)

/-- A release part waits for the performance of every earlier store of the task (R137). -/
def State.release (s : State) : Except Stop Unit := if s.releaseWaits s.iss.task then waits .release else .ok ()

/-- The claim tag and poison tests of an atomic (R119, R238). -/
def State.atomCheck (s : State) (h : Handle) (pa n va : Nat) : Except Stop Unit := do
  require (!(h.claim && decide (s.tag pa ≠ .value))) (raiseAt .claimState va true)
  require (!s.poisoned pa n) (raiseAt .memPoison va true)

/-- The address of a class-0x4 memory operand: handle, byte offset (R238). -/
def State.syOff (s : State) (m : SyAddr) : Nat := (s.regS m.a).toNat

/-- An atomic of the current task at its home: at once when nothing holds it back, and else by a request. -/
def State.atHome (s : State) (h : Handle) (pa va : Nat) (k : AtomKind) : Except Stop (State × Nat) := do
  if s.atomicWaits s.me.launch s.iss.die s.iss.core pa k.bytes then
    waits .reply (.atomic { task := s.iss.task, die := s.iss.die, pa := pa, kind := k, claim := h.claim })
  else
    s.atomCheck h pa k.bytes va
    .ok (s.performAtomic s.iss.die s.iss.core pa k)

/-- The reply to the waiting bundle is taken. -/
def State.takeReply (s : State) : State := s.modMe fun t => { t with reply := none }

/-- An `amo` or `cas`: its checks, its release, its operation, its acquire and its result (R238 to R240). An operation that its home
has performed already completes with the value of the reply (R338). -/
def atomicOp (k : AtomKind) (ord : Ord) (sc : Scope) (d : Fin 32) (m : SyAddr) (s : State) : Act := do
  let finish := fun (s : State) (old : Nat) =>
    (if ordAcqs ord then s.acquire sc s.iss.die s.iss.core else s).resS d (BitVec.ofNat 64 old)
  match s.me.reply with
  | some (_, _, v) => .ok (finish s.takeReply v)
  | none =>
    let h := s.regH m.h
    let off := s.syOff m
    let pa ← s.accessCheck h off k.bytes true true m.h.val
    aligned h off k.bytes true
    if ordRels ord then s.release
    let (s, old) ← s.atHome h pa (h.vaAt off) k
    .ok (finish s old)

/-- `amo` (R239). -/
def actAmo (op : AmoOp) (w32 : Bool) (ord : Ord) (sc : Scope) (d : Fin 32) (m : SyAddr) (s : State) : Act :=
  atomicOp (.amo op w32 (s.regS d)) ord sc d m s

/-- `amo` (R239). -/
def execAmo (op : AmoOp) (w32 : Bool) (ord : Ord) (sc : Scope) (d : Fin 32) (m : SyAddr) (s : State) :
    Host.Outcome State Fault Refusal := resolve s (actAmo op w32 ord sc d m s)

/-- `cas` (R240). -/
def actCas (w32 : Bool) (ord : Ord) (sc : Scope) (d : Fin 32) (m : SyAddr) (e : Fin 32) (s : State) : Act :=
  atomicOp (.cas w32 (s.regS d) (s.regS e)) ord sc d m s

/-- `cas` (R240). -/
def execCas (w32 : Bool) (ord : Ord) (sc : Scope) (d : Fin 32) (m : SyAddr) (e : Fin 32) (s : State) :
    Host.Outcome State Fault Refusal := resolve s (actCas w32 ord sc d m e s)

/-- `famo` (R241, R242): a relaxed atomic outside deterministic mode; in it, a release whose update the home holds. -/
def actFamo (op : FamoOp) (ty : FamoTy) (_sc : Scope) (m : SyAddr) (d : SSrc) (s : State) : Act := do
  let v ← s.srcS d
  let det := s.myLaunch.det
  match s.me.reply with
  | some _ => .ok (if det then s.takeReply.modLive fun r => { r with seq := r.seq + 1 } else s.takeReply)
  | none =>
    let h := s.regH m.h
    let off := s.syOff m
    let k := AtomKind.famo op ty v
    let pa ← s.accessCheck h off k.bytes true true m.h.val
    require (isHbm pa) (raiseAt .segmentViolation (h.vaAt off) true)
    aligned h off k.bytes true
    if det then
      s.release
      s.atomCheck h pa k.bytes (h.vaAt off)
      let t := s.me
      let u : Update :=
        { domain := t.domain, ep := t.live.ep, key := t.key, seq := t.live.seq, pa := pa, op := op, ty := ty, v := v,
          launch := t.launch, task := s.iss.task, claim := h.claim }
      waitsOn (.famo u) (.famo t.domain t.live.ep pa)
    else
      let (s, _) ← s.atHome h pa (h.vaAt off) k
      .ok s

/-- `famo` (R241). -/
def execFamo (op : FamoOp) (ty : FamoTy) (sc : Scope) (m : SyAddr) (d : SSrc) (s : State) : Host.Outcome State Fault Refusal :=
  resolve s (actFamo op ty sc m d s)

/-- `fence` (R141, R243). -/
def actFence (mode : FenceMode) (sc : Scope) (s : State) : Act := do
  if mode ≠ .acq then s.release
  .ok (if mode = .rel then s else s.acquire sc s.iss.die s.iss.core)

/-- `fence` (R243). -/
def execFence (mode : FenceMode) (sc : Scope) (s : State) : Host.Outcome State Fault Refusal := resolve s (actFence mode sc s)

/-! ### Claim operations -/

/-- The staking record of R244. -/
def stakeRecord (staker : Word) (launch hcore : Nat) (hintv : Bool) (call entry : Nat) (args : List Word) : Nat :=
  staker.toNat * 2 ^ 448 + launch % 2 ^ 16 * 2 ^ 432 + hcore % 16 * 2 ^ 401 + ofFlag hintv * 2 ^ 400 + call % 256 * 2 ^ 392
    + entry % 256 * 2 ^ 384 + ofLanes 64 (args.map (·.toNat))

/-- `stake` (R245, R401). The line leaves the home L2, which holds VALUE lines alone (R117). -/
def actStake (m : SyAddr) (d : Fin 32) (s : State) : Act := do
  let h := s.regH m.h
  let off := s.syOff m
  let t := s.me
  let ctl := (s.regS (Fin.ofNat 32 (d.val + 6))).toNat
  let entry := field ctl 7 0
  let limit : Except Stop Unit := raiseInfo .spawnLimit t.live.callCount
  let pa ← s.accessCheck h off 1 false true m.h.val
  aligned h off 64 true
  require h.claim (raiseAt .claimState (h.vaAt off) true)
  require (decide (keyDepth t.key.toNat ≠ 5) && decide (t.live.callCount ≠ 255)) limit
  require (decide (entry < s.myLaunch.entries.length)) limit
  require (!s.atomicWaits t.launch s.iss.die s.iss.core pa 64) (waits (.home pa 64))
  require (decide (s.tag pa ≠ .staked) && decide (s.tag pa ≠ .working)) (raiseAt .claimState (h.vaAt off) true)
  if !s.claimRoom (paDie pa) then .error (.park (.claimArea (paDie pa)) .none)
  else
    let call := t.live.callCount + 1
    let s := s.modLive fun r => { r with callCount := call }
    let s := s.putOwn pa 64 (stakeRecord t.key (s.launch t.launch).number (field ctl 12 9) (flag ctl 8) call entry (s.regRun d 6))
    let s := { s.setTag pa .staked with dirty := s.dirty.filter (· ≠ pa) }
    .ok (s.modDie (paDie pa) fun x => { x with
      stakes := (x.stakes.filter fun e => e.cell ≠ pa) ++ [{ cell := pa, launch := t.launch, ancestry := t.ancestry }] })

/-- `stake` (R245). -/
def execStake (m : SyAddr) (d : Fin 32) (s : State) : Host.Outcome State Fault Refusal := resolve s (actStake m d s)

/-- The key is that of the evaluator of a WORKING cell (R169, R246). -/
def State.evaluates (s : State) (key : Word) (cell : Nat) : Bool :=
  decide (s.tag cell = .working) && decide ((s.claimEntry cell).map (fun e => (s.task e.evaluator).key) = some key)

/-- `settle` (R246). -/
def actSettle (m : SyAddr) (d : Fin 32) (s : State) : Act := do
  let h := s.regH m.h
  let off := s.syOff m
  let pa ← s.accessCheck h off 64 false true m.h.val
  aligned h off 64 true
  require (h.claim && s.evaluates s.me.key pa) (raiseAt .claimState (h.vaAt off) true)
  s.release
  require (!s.atomicWaits s.me.launch s.iss.die s.iss.core pa 64) (waits (.home pa 64))
  require (!s.poisoned pa 64) (raiseAt .memPoison (h.vaAt off) true)
  let s := s.putOwn pa 64 (ofLanes 64 ((s.regRun d 8).map (·.toNat)))
  .ok ((s.freeClaim pa).setTag pa .value)

/-- `settle` (R246). -/
def execSettle (m : SyAddr) (d : Fin 32) (s : State) : Host.Outcome State Fault Refusal := resolve s (actSettle m d s)

/-- The code that ctag returns (R115). -/
def Tag.code : Tag → Nat
  | .value => 0 | .staked => 1 | .working => 2 | .failed => 3

/-- `ctag` (R247). -/
def actCtag (d : Fin 32) (m : SyAddr) (s : State) : Act := do
  let h := s.regH m.h
  let off := s.syOff m
  let pa ← s.accessCheck h off 1 true false m.h.val
  require (!s.atomicWaits s.me.launch s.iss.die s.iss.core pa 1 none false) (waits (.homeRead pa 1))
  .ok (s.resS d (BitVec.ofNat 64 (if h.claim then (s.tag pa).code else 0)))

/-- `ctag` (R247). -/
def execCtag (d : Fin 32) (m : SyAddr) (s : State) : Host.Outcome State Fault Refusal := resolve s (actCtag d m s)

/-- A STAKED or FAILED cell returns to VALUE with 64 zero bytes (R119, R247). -/
def State.unstakeCell (s : State) (cell : Nat) : State := ((s.putOutside cell 64 0).freeClaim cell).setTag cell .value

/-- `unstake` (R247). -/
def actUnstake (m : SyAddr) (s : State) : Act := do
  let h := s.regH m.h
  let off := s.syOff m
  let pa ← s.accessCheck h off 64 false true m.h.val
  aligned h off 64 true
  require (!s.atomicWaits s.me.launch s.iss.die s.iss.core pa 64) (waits (.home pa 64))
  require (h.claim && (decide (s.tag pa = .staked) || decide (s.tag pa = .failed)) && decide (s.bytes (pa + 56) 8 = s.me.key.toNat))
    (raiseAt .claimState (h.vaAt off) true)
  .ok ((s.storeLeaves { pa := pa, len := 64, data := 0, die := s.iss.die, core := s.iss.core }).unstakeCell pa)

/-- `unstake` (R247). -/
def execUnstake (m : SyAddr) (s : State) : Host.Outcome State Fault Refusal := resolve s (actUnstake m s)

/-! ### Crews (R162, R163, R248) -/

/-- CREW_STATE with the crew number (R346). -/
def crewTrap {α : Type} (n : Nat) : Except Stop α := raiseInfo .crewState n

/-- Crews that a task belongs to (R162). -/
def Launch.crewsOf (l : Launch) (i : Nat) : Nat := (l.crews.filter fun c => c.all.contains i).length

/-- The shift group that a join makes of the task and the crew (R164). -/
def State.joinGroup (s : State) (i n : Nat) : List Nat :=
  let l := s.myLaunch
  let cs := l.crews.modify n fun c => { c with members := c.members ++ [i] }
  (groupClose cs cs.length [i]).filter fun j => (s.task j).status ≠ .ended

/-- `crew.join` (R163, R248). -/
def actCrewJoin (n : Fin 256) (s : State) : Act := do
  let l := s.myLaunch
  let i := s.iss.task
  let c := l.crew n.val
  require (decide (n.val < l.crews.length) && decide (c.die = s.iss.die) && !c.all.contains i && decide (l.crewsOf i < 4)
    && s.groupFits (s.joinGroup i n.val)) (crewTrap n.val)
  .ok (s.modCrew s.me.launch n.val fun c =>
    if c.arrived.isEmpty then { c with members := c.members ++ [i] } else { c with joining := c.joining ++ [i] })

/-- `crew.join` (R248). -/
def execCrewJoin (n : Fin 256) (s : State) : Host.Outcome State Fault Refusal := resolve s (actCrewJoin n s)

/-- `crew.leave` (R163, R248). -/
def actCrewLeave (n : Fin 256) (s : State) : Act := do
  let l := s.myLaunch
  let i := s.iss.task
  require (decide (n.val < l.crews.length) && (l.crew n.val).members.contains i) (crewTrap n.val)
  .ok ((s.modCrew s.me.launch n.val (crewDrop i)).modMe fun t =>
    { t with arrival := if t.arrival.map (·.1) = some n.val then none else t.arrival })

/-- `crew.leave` (R248). -/
def execCrewLeave (n : Fin 256) (s : State) : Host.Outcome State Fault Refusal := resolve s (actCrewLeave n s)

/-- The departure of a member: the acquire at .die, the record cleared, and the registers of a closed epoch (R242, R248). -/
def State.crewDepart (s : State) (close : Bool) : State :=
  let s := s.acquire .die s.iss.die s.iss.core
  let s := s.modMe fun t => { t with arrival := none }
  if close then s.modLive Regs.nextEpoch else s

/-- `crew.sync` (R163, R248). The arrival is made at issue, after the stores before it have been performed. -/
def actCrewSync (n : Fin 256) (close : Bool) (s : State) : Act := do
  let l := s.myLaunch
  let i := s.iss.task
  let t := s.me
  let close := close && l.det
  require (decide (n.val < l.crews.length) && (l.crew n.val).members.contains i) (crewTrap n.val)
  let found := (t.arrival.filter fun a => a.1 = n.val).map (·.2)
  let side := if found.isSome then Side.none else Side.arrive n.val close
  if found.isNone then s.release
  let round := found.getD (l.crew n.val).rounds
  let s := s.applySide side
  if (s.myLaunch.crew n.val).rounds = round then .error (.wait (.crew n.val round) side)
  else if close && !s.epochDone t.domain t.live.ep then .error (.wait (.epoch t.domain t.live.ep) side)
  else .ok (s.crewDepart close)

/-- `crew.sync` (R248). -/
def execCrewSync (n : Fin 256) (close : Bool) (s : State) : Host.Outcome State Fault Refusal := resolve s (actCrewSync n close s)

/-! ### Count barriers (R108 to R110, R249) -/

/-- The word of cb.read (R249). -/
def CB.word (b : CB) : Nat := wrapInt 40 b.count + ofFlag b.armed * 2 ^ 48 + ofFlag b.ovf * 2 ^ 49

/-- BARRIER_STATE about a barrier (R346). -/
def cbTrap {α : Type} (b : CB) (n : Nat) : Except Stop α := raiseInfo .barrierState b.word n

/-- A use of a barrier by a task: refused to a launch that does not own it (R110). -/
def State.useCb (s : State) (n : Fin 64) : Except Stop CB :=
  let b := s.myCore.cb n.val
  if foreign b.owner s.me.launch then cbTrap b n.val else .ok b

/-- `cb.arm` (R249). -/
def actCbArm (n : Fin 64) (a : SSrc) (s : State) : Act := do
  let v ← s.srcS a
  let _ ← s.useCb n
  let l := s.me.launch
  .ok (s.cbChange s.iss.die s.iss.core n.val fun b => { b.changeBy v.toInt with armed := true, owner := some l })

/-- `cb.arm` (R249). -/
def execCbArm (n : Fin 64) (a : SSrc) (s : State) : Host.Outcome State Fault Refusal := resolve s (actCbArm n a s)

/-- `cb.wait` (R109, R249). -/
def actCbWait (n : Fin 64) (sc : Scope) (s : State) : Act := do
  let depart := fun (s : State) => (s.dropCarve s.iss.die s.iss.core).acquire sc s.iss.die s.iss.core
  let b ← s.useCb n
  if b.met = some s.iss.task then .ok (depart (s.modMyCore fun x => { x with cbs := smPut x.cbs n.val { b with met := none } }))
  else
    if b.ovf then cbTrap b n.val
    else if b.armed && decide (b.count < 0) then cbTrap b n.val
    else if b.armed && decide (b.count = 0) then
      .ok (depart (s.modMyCore fun x => { x with cbs := smPut x.cbs n.val { b with armed := false } }))
    else .error (.wait (.barrier n.val) (.own n.val))

/-- `cb.wait` (R249). -/
def execCbWait (n : Fin 64) (sc : Scope) (s : State) : Host.Outcome State Fault Refusal := resolve s (actCbWait n sc s)

/-- `cb.add` (R249): a release at .die. -/
def actCbAdd (n : Fin 64) (a : SSrc) (s : State) : Act := do
  let v ← s.srcS a
  let _ ← s.useCb n
  s.release
  let l := s.me.launch
  .ok (s.cbChange s.iss.die s.iss.core n.val fun b => { b.changeBy v.toInt with owner := some l })

/-- `cb.add` (R249). -/
def execCbAdd (n : Fin 64) (a : SSrc) (s : State) : Host.Outcome State Fault Refusal := resolve s (actCbAdd n a s)

/-- `cb.read` (R249). -/
def actCbRead (d : Fin 32) (n : Fin 64) (s : State) : Act := do
  let b ← s.useCb n
  let l := s.me.launch
  .ok ((s.modMyCore fun x => { x with cbs := smPut x.cbs n.val { b with owner := some l } }).resS d (BitVec.ofNat 64 b.word))

/-- `cb.read` (R249). -/
def execCbRead (d : Fin 32) (n : Fin 64) (s : State) : Host.Outcome State Fault Refusal := resolve s (actCbRead d n s)

/-! ### Steps and epochs (R250, R251) -/

/-- `step.commit` (R250). -/
def actStepCommit (a : SSrc) (s : State) : Act := do
  let v ← s.srcS a
  .ok (s.modLive fun r => { r with step := v })

/-- `step.commit` (R250). -/
def execStepCommit (a : SSrc) (s : State) : Host.Outcome State Fault Refusal := resolve s (actStepCommit a s)

/-- `atm.close` (R251): the part is closed at issue; with WAIT it parks until the epoch has been applied. -/
def actAtmClose (wait : Bool) (sc : Scope) (s : State) : Act :=
  if !s.myLaunch.det then .ok s
  else
    let t := s.me
    let s1 := s.applySide .closeEpoch
    if !wait then .ok (s1.modLive Regs.nextEpoch)
    else if s1.epochDone t.domain t.live.ep then .ok ((s1.modLive Regs.nextEpoch).acquire sc s.iss.die s.iss.core)
    else .error (.park (.epoch t.domain t.live.ep) .closeEpoch)

/-- `atm.close` (R251). -/
def execAtmClose (wait : Bool) (sc : Scope) (s : State) : Host.Outcome State Fault Refusal := resolve s (actAtmClose wait sc s)

end Sys2Proof.Machine
end

