-- ==== Sys2Proof/Machine/Rotation.lean ====
section
/-! DEFINITION. Blocks (R42, R43), the butterfly network (R71, R72, R81) and the quantiser (R79). -/

set_option Elab.async false

namespace Sys2Proof.Machine

/-! ### Blocks (R42, R43) -/

/-- The scale 2^(s − 127) of a byte, as an exponent. -/
def e8m0 (s : Nat) : Int := (s : Int) - 127

/-- One lane of an MXFP8 block: code and scale byte (R43). -/
def mx8Lane (c s : Nat) : FVal := if s = 0xFF then .nan else scaleF (decodeF .e4m3 c) (e8m0 s)

/-- Lane j of an MXFP4 block: code, scale byte and side entry (R43). LANE 31 names no lane (R42). -/
def mx4Lane (j c s entry : Nat) : FVal :=
  if s = 0xFF then .nan
  else if c = 8 then (if entry % 32 = j ∧ j < 31 then decodeF .bf16 (entry / 2 ^ 16 % 2 ^ 16) else .fin false 0 0)
  else scaleF (decodeF .e2m1 c) (e8m0 s)

/-! ### The network (R71, R72, R81) -/

/-- Sign of R71: true for −1. A position before the origin, or at 2^48 or beyond, has one too (R279, R281), which the spec leaves open
(log 10). -/
def rotSign (key : Word) (dom : Nat) (p : Int) : Bool :=
  if p < 0 ∨ 2 ^ 48 ≤ p then Config.signOutside key dom p else flag (mix64 key.toNat dom p.toNat) 63

/-- One stage of stride h. -/
def butterStage (h : Nat) (x : List FVal) : List FVal :=
  (List.range x.length).map fun j =>
    let a := x.getD j .nan
    if j / h % 2 = 0 then combine a (x.getD (j + h) .nan) else combine (x.getD (j - h) .nan) (negF a)

/-- The stages of strides h, 2 h, … ; n of them. -/
def butterStages : Nat → Nat → List FVal → List FVal
  | 0, _, x => x
  | n + 1, h, x => butterStages n (2 * h) (butterStage h x)

/-- Butterflies of R72 on 2^k values. -/
def butterflies (k : Nat) (x : List FVal) : List FVal := butterStages k 1 x

/-- The signs of a group whose first position is base. -/
def applySigns (key : Word) (dom : Nat) (base : Int) (x : List FVal) : List FVal :=
  x.zipIdx.map fun e => if rotSign key dom (base + e.2) then negF e.1 else e.1

/-- Rotate of R72. -/
def rotate (k : Nat) (key : Word) (dom : Nat) (base : Int) (x : List FVal) : List FVal := butterflies k (applySigns key dom base x)

/-- Unrotate of R81. -/
def unrotate (k : Nat) (key : Word) (base : Int) (x : List FVal) : List FVal := applySigns key 0x0001 base (butterflies k x)

/-! ### The quantiser (R79) -/

/-- Formats of a block. -/
inductive MxFmt where
  | mx4 | mx8
  deriving DecidableEq, Repr

/-- A quantised block: scale byte, codes and side entry. -/
structure MxBlock where
  scale : Nat
  codes : List Nat
  entry : Nat := 0x1F
  deriving DecidableEq, Repr

/-- The magnitude of a value. -/
def absF : FVal → FVal
  | .nan => .nan
  | .inf _ => .inf false
  | .fin _ m e => .fin false m e

/-- The largest magnitude of a list, +0 for an empty one. -/
def amaxF (l : List FVal) : FVal := l.foldl (fun a x => if ltF false a (absF x) then absF x else a) (.fin false 0 0)

/-- The element format of a block format. -/
def MxFmt.elem : MxFmt → Fmt
  | .mx4 => .e2m1 | .mx8 => .e4m3

/-- The exponent of the largest element (R79). -/
def MxFmt.emax : MxFmt → Int
  | .mx4 => 2 | .mx8 => 8

/-- The value is finite and above 6 in magnitude. -/
def above6 (v : FVal) : Bool := ltF false (.fin false 6 0) (absF v)

/-- QuantiseBlock of R79: idx gives the index of each lane. -/
def quantiseBlock (x : List FVal) (f : MxFmt) (md : RMode) (esc : Bool) (key : Word) (idx : Nat → Nat) : MxBlock :=
  let dead : MxBlock := { scale := 0xFF, codes := x.map fun _ => 0 }
  if x.any isNan then dead
  else
    let top := amaxF x
    let l := (x.findIdx? fun v => eqF (absF v) top).getD 0
    let useEsc := esc && decide (f = .mx4) && decide (l ≤ 30)
    let rest := x.zipIdx.filter fun e => !(useEsc && decide (e.2 = l))
    if rest.any fun e => decide (absF e.1 = .inf false) then dead
    else
      let xp : Int := match exponentOf (amaxF (rest.map (·.1))) with
        | some ex => ex - f.emax
        | none => -127
      let e : Int := min (max (xp + 127) 0) 254
      let q := fun (v : FVal) => scaleF v (127 - e)
      let escaped := useEsc && above6 (q (x.getD l .nan))
      { scale := e.toNat
        codes := x.zipIdx.map fun p =>
          if escaped && decide (p.2 = l) then 8
          else roundF md (drawFor md key (idx p.2)) f.elem (q p.1)
        entry := if escaped then roundF .rne 0 .bf16 (x.getD l .nan) * 2 ^ 16 + l else 0x1F }

/-- Lane j of a quantised block, decoded (R43). -/
def MxBlock.lane (b : MxBlock) (f : MxFmt) (j : Nat) : FVal :=
  match f with
  | .mx4 => mx4Lane j (b.codes.getD j 0) b.scale b.entry
  | .mx8 => mx8Lane (b.codes.getD j 0) b.scale

end Sys2Proof.Machine
end

