-- ==== Sys2Proof/Machine/Views.lean ====
section
/-! DEFINITION. Tensor views: the descriptor of R280, where its elements lie (R281), and what a read of them needs and gives. -/

set_option Elab.async false

namespace Sys2Proof.Machine

/-- A descriptor's fields (R280). Strides are signed. fmt is 0 MXFP4, 1 MXFP8, 2 BF16, 3 FP16, 4 FP32. -/
structure View where
  noside : Bool
  prerot : Bool
  place : Nat
  fmt : Nat
  kext : Nat
  rext : Nat
  xrs : Int
  srs : Int
  ks : Int
  rs : Int
  xbase : Nat
  sbase : Nat
  ebase : Nat
  /-- Some reserved field is not zero. -/
  reserved : Bool
  deriving DecidableEq, Repr

/-- The view of a descriptor. -/
def viewOf (d : Nat) : View :=
  { noside := flag d 375, prerot := flag d 374, place := field d 373 372, fmt := field d 371 368, kext := field d 367 344,
    rext := field d 343 320, xrs := sextNat 32 (field d 319 288), srs := sextNat 32 (field d 287 256),
    ks := sextNat 32 (field d 255 224), rs := sextNat 32 (field d 223 192), xbase := field d 178 128, sbase := field d 114 64,
    ebase := field d 50 0
    reserved := field d 511 376 ≠ 0 || field d 191 179 ≠ 0 || field d 127 115 ≠ 0 || field d 63 51 ≠ 0 }

/-- The view holds MX blocks. -/
def View.isMx (v : View) : Bool := decide (v.fmt ≤ 1)

/-- Element bytes of a float view; block bytes of an MX view (R42). -/
def View.unit (v : View) : Nat :=
  match v.fmt with
  | 0 => 16
  | 1 => 32
  | 4 => 4
  | _ => 2

/-- The float format of a view that is not MX. -/
def View.elem (v : View) : Fmt :=
  match v.fmt with
  | 2 => .bf16
  | 3 => .f16
  | _ => .f32

/-- BAD_FIELD of R282. -/
def View.badField (v : View) : Bool :=
  v.reserved || decide (v.place = 3) || decide (4 < v.fmt) || decide (v.rext = 0) || decide (v.kext = 0)
    || (v.isMx && decide (v.ks ≠ 0)) || (v.noside && decide (v.fmt ≠ 0))

/-- BAD_EXTENT of R282. -/
def View.badExtent (v : View) : Bool := v.isMx && decide (v.kext % 32 ≠ 0)

/-- The segment offsets from base by n steps of a stride, each step with u bytes: first byte, and one past the last. -/
def hull (base : Int) (n : Nat) (stride : Int) (u : Nat) : Int × Int :=
  let far := base + ((n : Int) - 1) * stride
  (min base far, max base far + u)

/-- The arrays of a view as intervals of segment offsets: elements, scales, side list (R281, R282). -/
def View.arrays (v : View) : List (Int × Int) :=
  if v.isMx then
    let nb := v.kext / 32
    [hull v.ebase v.rext v.rs (nb * v.unit), hull v.sbase v.rext v.srs nb]
      ++ (if v.fmt = 0 ∧ !v.noside then [hull v.xbase v.rext v.xrs (4 * nb)] else [])
  else
    let row := hull 0 v.kext v.ks v.unit
    let cols := hull v.ebase v.rext v.rs 0
    [(cols.1 + row.1, cols.2 + row.2)]

/-- Every byte of an interval of offsets lies within a handle's bounds. -/
def Handle.spans (h : Handle) (r : Int × Int) : Bool := decide ((h.lo.toNat : Int) ≤ r.1) && decide (r.2 ≤ h.last.toNat + 1)

/-- The physical interval of an interval of offsets: address and length; negative addresses read as zero. -/
def Handle.phys (h : Handle) (r : Int × Int) : Int × Nat :=
  ((h.pa.toNat : Int) + r.1 - (h.va.toNat % 2 ^ 51 : Nat), (r.2 - r.1).toNat)

/-- A physical interval lies inside [b, b + n). -/
def insideInt (r : Int × Nat) (b n : Nat) : Bool := decide ((b : Int) ≤ r.1) && decide (r.1 + r.2 ≤ (b : Int) + n)

/-! ### Elements (R281) -/

/-- The bytes that a read of position (r, k) needs, as offsets and lengths: the element or its block's code, its scale, and its
side entry. -/
def View.elemOff (v : View) (r k : Nat) : Int × Nat :=
  if v.isMx then
    (v.ebase + r * v.rs + ((k / 32 * v.unit + (if v.fmt = 0 then k % 32 / 2 else k % 32) : Nat) : Int), 1)
  else (v.ebase + r * v.rs + k * v.ks, v.unit)

/-- Offset of a block's scale byte. -/
def View.scaleOff (v : View) (r b : Nat) : Int := v.sbase + r * v.srs + b

/-- Offset of a block's side entry. -/
def View.sideOff (v : View) (r b : Nat) : Int := v.xbase + r * v.xrs + 4 * b

/-- n bytes at a segment offset through a handle, as an engine reads them (R255). -/
def State.viewBytes (s : State) (h : Handle) (off : Int) (n : Nat) : Nat :=
  s.outerBytes ((h.pa.toNat : Int) + off - (h.va.toNat % 2 ^ 51 : Nat)).toNat n

/-- The position reads memory (R281). -/
def View.has (v : View) (klim : Nat) (r k : Int) : Bool :=
  decide (0 ≤ r) && decide (r < v.rext) && decide (0 ≤ k) && decide (k < v.kext) && decide (k < klim)

/-- The code of an MX element. -/
def State.mxCode (s : State) (v : View) (h : Handle) (r k : Nat) : Nat :=
  let b := s.viewBytes h (v.elemOff r k).1 1
  if v.fmt = 0 then (if k % 2 = 0 then b % 16 else b / 16) else b

/-- The value of a position that reads memory, before rotation. -/
def State.viewElem (s : State) (v : View) (h : Handle) (r k : Nat) : FVal :=
  if v.isMx then
    let sc := s.viewBytes h (v.scaleOff r (k / 32)) 1
    let c := s.mxCode v h r k
    if v.fmt = 0 then
      mx4Lane (k % 32) c sc (if c = 8 && !v.noside then s.viewBytes h (v.sideOff r (k / 32)) 4 else 0x1F)
    else mx8Lane c sc
  else decodeF v.elem (s.viewBytes h (v.elemOff r k).1 v.unit)

/-- The value of any position: +0 outside the view, at or beyond klim (R276, R281). -/
def State.viewAt (s : State) (v : View) (h : Handle) (klim : Nat) (r k : Int) : FVal :=
  if v.has klim r k then s.viewElem v h r.toNat k.toNat else .fin false 0 0

/-- The bytes read for a position, as offsets with lengths. A side entry is read only for an escape code (R20). -/
def State.viewReads (s : State) (v : View) (h : Handle) (r k : Nat) : List (Int × Nat) :=
  v.elemOff r k ::
    (if v.isMx then
      (v.scaleOff r (k / 32), 1) ::
        (if v.fmt = 0 ∧ !v.noside ∧ s.mxCode v h r k = 8 then [(v.sideOff r (k / 32), 4)] else [])
    else [])

/-- What stops an engine that reads some bytes of a view: a line that is not VALUE, or a poisoned one (R119, R422). -/
inductive Bad where
  | claim (off : Int)
  | poison (off : Int)
  deriving DecidableEq, Repr

/-- The first of a list of reads that meets a claim line that is not VALUE, or poison. -/
def State.firstBad (s : State) (h : Handle) (l : List (Int × Nat)) : Option Bad :=
  l.findSome? fun e =>
    let pa := ((h.pa.toNat : Int) + e.1 - (h.va.toNat % 2 ^ 51 : Nat)).toNat
    if h.claim && s.claimMet pa e.2 then some (.claim e.1)
    else if s.poisoned pa e.2 then some (.poison e.1) else none

/-- Nothing in the machine can stop an engine's reads: no poison, and every tag VALUE. -/
def State.allClean (s : State) : Bool := s.poison.isEmpty && s.tags.isEmpty

/-- The check of the positions of a rectangle of a view: rows r0 to r0 + m − 1, columns k0 to k0 + n − 1. -/
def State.rectBad (s : State) (v : View) (h : Handle) (klim : Nat) (r0 k0 : Int) (m n : Nat) : Option Bad :=
  if s.allClean then none
  else (List.range m).findSome? fun (i : Nat) => (List.range n).findSome? fun (j : Nat) =>
    let r := r0 + i
    let k := k0 + j
    if v.has klim r k then s.firstBad h (s.viewReads v h r.toNat k.toNat) else none

/-! ### The rotation path of an operand (R68, R73 to R80) -/

/-- How an operand reaches the engine. -/
structure Path where
  view : View
  h : Handle
  /-- K′ of R276. -/
  klim : Nat
  /-- Quantised (true) or stored. -/
  quant : Bool
  /-- Log2 of the rotation along its rows, and along the contraction axis; 0 for none. -/
  orot : Nat
  crot : Nat
  cdom : Nat
  rk : Word
  qk : Word
  md : RMode
  esc : Bool
  /-- Block format of the engine; none for BF16. -/
  mx : Option MxFmt
  deriving DecidableEq, Repr

/-- The group of size 2^k that holds a position: its first position. -/
def groupBase (k : Nat) (p : Int) : Int := p / 2 ^ k * 2 ^ k

/-- The value after the output-axis rotation (R77). Positions before the view's origin are in groups too (R281). -/
def State.afterRows (s : State) (p : Path) (r k : Int) : FVal :=
  if p.orot = 0 then s.viewAt p.view p.h p.klim r k
  else
    let b := groupBase p.orot r
    (rotate p.orot p.rk 0x0001 b ((List.range (2 ^ p.orot)).map fun (i : Nat) => s.viewAt p.view p.h p.klim (b + i) k)).getD
      (r - b).toNat .nan

/-- The values of a row from position k0 on, after both rotations; k0 and n cover whole groups. -/
def State.afterCols (s : State) (p : Path) (r k0 : Int) (n : Nat) : List FVal :=
  if p.crot = 0 then (List.range n).map fun (j : Nat) => s.afterRows p r (k0 + j)
  else
    let g := 2 ^ p.crot
    (List.range (n / g)).flatMap fun q =>
      let b := k0 + (q * g : Nat)
      rotate p.crot p.rk p.cdom b ((List.range g).map fun (j : Nat) => s.afterRows p r (b + j))

/-- A row from k0 on, quantised block by block or rounded to BF16 (R68, R79, R80). -/
def quantRow (p : Path) (r k0 : Int) (n : Nat) (x : List FVal) : List FVal :=
  let idx := fun (j : Nat) => (r * p.view.kext + k0 + j).toNat
  match p.mx with
  | none => x.zipIdx.map fun e => decodeF .bf16 (roundF p.md (drawFor p.md p.qk (idx e.2)) .bf16 e.1)
  | some f => (List.range (n / 32)).flatMap fun b =>
      let blk := quantiseBlock ((x.drop (32 * b)).take 32) f p.md p.esc p.qk fun j => idx (32 * b + j)
      (List.range 32).map (blk.lane f)

/-- The n operand values of a row from position k0 on, as the engine takes them: a position outside the view takes the rotated value of
its group where the operand is rotated and quantised (R73, R281). -/
def State.operandRow (s : State) (p : Path) (r k0 : Int) (n : Nat) : List FVal :=
  if !p.quant then (List.range n).map fun (j : Nat) => s.viewAt p.view p.h p.klim r (k0 + j)
  else
    let g := max p.crot (if p.mx.isSome then 5 else 0)
    let b0 := groupBase g k0
    let m := ((k0 + n - b0 + 2 ^ g - 1) / 2 ^ g * 2 ^ g).toNat
    let x := s.afterCols p r b0 m
    ((quantRow p r b0 m x).drop (k0 - b0).toNat).take n

/-- The part of a view that an operand row from k0 on reads: first row, rows, first column, columns. -/
def Path.reach (p : Path) (r0 k0 : Int) (m n : Nat) : Int × Nat × Int × Nat :=
  if !p.quant then (r0, m, k0, n)
  else
    let g := max p.crot (if p.mx.isSome then 5 else 0)
    let b0 := groupBase g k0
    let c0 := groupBase p.orot r0
    (c0, ((r0 + m - c0 + 2 ^ p.orot - 1) / 2 ^ p.orot * 2 ^ p.orot).toNat, b0, ((k0 + n - b0 + 2 ^ g - 1) / 2 ^ g * 2 ^ g).toNat)

end Sys2Proof.Machine
end

