-- ==== Sys2Proof/Machine/Matrix.lean ====
section
/-! DEFINITION. Class 0x8: the parameters of a matrix job and its start (R273 to R287), waiting, status and clearing (R295 to R297),
result queues (R298, R299) and their pop (R266). -/

set_option Elab.async false

namespace Sys2Proof.Machine

/-! ### Fields of the parameters -/

/-- The rounding mode of a code of R47. -/
def modeOf : Nat → RMode
  | 1 => .rtz | 2 => .rdn | 3 => .rup | 4 => .rsr | _ => .rne

/-- A field of the rotation control word (R283). -/
def MSet.rotFld (m : MSet) (hi lo : Nat) : Nat := field m.rot.toNat hi lo

/-- A field of the drain control word (R285). -/
def MSet.drainFld (m : MSet) (hi lo : Nat) : Nat := field m.drain.toNat hi lo

/-- LOG2N. -/
def MSet.log2n (m : MSet) : Nat := m.rotFld 5 2

/-- OAXIS: 0 NONE, 1 M, 2 N. -/
def MSet.oaxis (m : MSet) : Nat := m.rotFld 7 6

/-- OLOG2N. -/
def MSet.olog2n (m : MSet) : Nat := m.rotFld 11 8

/-- The profile accepts the engine format (R276). -/
def accepts (f : EngFmt) (p : Nat) : Bool :=
  match f with
  | .mx4 => p = 1 || p = 3
  | .mx8 | .mx84 => p = 2
  | .bf16 => p = 4
  | .ab4 => p = 0x11

/-- Positions of one K step (R276). -/
def kStep : EngFmt → Nat
  | .mx4 => 64 | .mx8 => 32 | .mx84 => 32 | .bf16 => 16 | .ab4 => 256

/-- Descriptor format of a stored operand (R276). -/
def storedFmt (f : EngFmt) (isB : Bool) : Nat :=
  match f with
  | .mx4 => 0
  | .mx8 => 1
  | .mx84 => if isB then 0 else 1
  | .bf16 => 2
  | .ab4 => if isB then 0 else 2

/-- The view of an operand. -/
def Operand.view (o : Operand) : View := viewOf o.desc.toNat

/-- The operand is stored rather than quantised (R68). -/
def Operand.stored (o : Operand) (f : EngFmt) (isB : Bool) : Bool := decide (o.view.fmt = storedFmt f isB)

/-- The operand is marked pre-rotated (R68, R74). -/
def Operand.pre (o : Operand) (f : EngFmt) (isB : Bool) : Bool := o.stored f isB && o.view.prerot

/-- The rounding mode of a quantised operand (R78). -/
def MSet.opMode (m : MSet) (isB : Bool) : RMode :=
  match m.rotFld 1 0 with
  | 0 => .rne
  | 1 => if isB then .rne else .rsr
  | 2 => if isB then .rsr else .rne
  | _ => modeOf (if isB then m.rotFld 17 15 else m.rotFld 14 12)

/-- The stride of a signed 32-bit half of a level word. -/
def half32 (w : Word) (hi : Bool) : Int := sextNat 32 (if hi then w.toNat / 2 ^ 32 else w.toNat)

/-- The stride of a signed 16-bit quarter of a level word; k counts from the low end. -/
def quarter (w : Word) (k : Nat) : Int := sextNat 16 (w.toNat / 2 ^ (16 * k))

/-- max(trip, 1) of a level (R278, R279). -/
def Level.trip (l : Level) : Nat := max (l.a.toNat % 2 ^ 32) 1

/-- C stride along M, and along N. -/
def Level.cStride (l : Level) : Int × Int := (quarter l.a 2, quarter l.a 3)

/-- A stride along M, and along K. -/
def Level.aStride (l : Level) : Int × Int := (half32 l.b true, half32 l.b false)

/-- B stride along N, and along K. -/
def Level.bStride (l : Level) : Int × Int := (half32 l.c true, half32 l.c false)

/-- Origin plus the sum of index times stride. -/
def pointAt (org : Int × Int) (idx : List Nat) (strides : List (Int × Int)) : Int × Int :=
  (idx.zip strides).foldl (fun o e => (o.1 + e.1 * e.2.1, o.2 + e.1 * e.2.2)) org

/-- A tile (am, ak) of a point. -/
def MSet.aTile (m : MSet) (idx : List Nat) : Int × Int := pointAt (half32 m.orgB true, half32 m.orgB false) idx (m.levels.toList.map Level.aStride)

/-- B tile (bn, bk) of a point. -/
def MSet.bTile (m : MSet) (idx : List Nat) : Int × Int := pointAt (half32 m.orgC true, half32 m.orgC false) idx (m.levels.toList.map Level.bStride)

/-- C tile (cm, cn) of a point. -/
def MSet.cTile (m : MSet) (idx : List Nat) : Int × Int := pointAt (quarter m.orgA 2, quarter m.orgA 3) idx (m.levels.toList.map Level.cStride)

/-- The range of one coordinate of the C tile over the corners of the nest (R287). -/
def MSet.cRange (m : MSet) (sel : Int × Int → Int) : Int × Int :=
  m.levels.toList.foldl (fun r l =>
    let x := ((l.trip : Int) - 1) * sel l.cStride
    (r.1 + min 0 x, r.2 + max 0 x)) (sel (quarter m.orgA 2, quarter m.orgA 3), sel (quarter m.orgA 2, quarter m.orgA 3))

/-! ### Shape, levels, rotation, profile, drain (R276 to R285) -/

/-- Change the shadow set of the current task. -/
def State.modShadow (s : State) (f : MSet → MSet) : State := s.modMe fun t => { t with shadowSet := f t.shadowSet }

/-- The shadow set needs a grant (R275). -/
def State.granted (s : State) : Except Stop Grant :=
  match s.me.shadowSet.grant with
  | some g => .ok g
  | none => raise .shapeUngranted

/-- The grant of R276 for R rows left. -/
def grantOf (fmt : EngFmt) (m n k cb rows : Nat) : Option Grant :=
  let m1 := (m + 47) / 48 * 48
  let n1 := (n + 63) / 64 * 64
  let k1 := if fmt = EngFmt.bf16 then (k + 15) / 16 * 16 else (k + 31) / 32 * 32
  if m = 0 ∨ n = 0 ∨ k = 0 ∨ rows < 48 ∨ 2 ^ 20 ≤ m1 ∨ 2 ^ 20 ≤ n1 ∨ 2 ^ 24 ≤ k1 then none
  else
    let n2 := if rows < m1 * (n1 / 64) then 64 * (rows / m1) else n1
    if n2 = 0 then some { m := 48 * (rows / 48), n := 64, k := k1, fmt := fmt, cb := cb }
    else some { m := m1, n := n2, k := k1, fmt := fmt, cb := cb }

/-- The grant word (R276). -/
def grantWord : Option Grant → Nat
  | some g => g.m + g.n * 2 ^ 20 + g.k * 2 ^ 40
  | none => 0

/-- `mshape` (R276). -/
def actMshape (fmt : EngFmt) (a : Fin 32) (b c : SSrc) (s : State) : Act := do
  let q ← s.srcS b
  let cb ← s.srcS c
  let g := grantOf fmt (field q.toNat 19 0) (field q.toNat 39 20) (field q.toNat 63 40) cb.toNat (s.me.rowCount - cb.toNat)
  .ok ((s.modShadow fun m => { m with grant := g }).resM a (BitVec.ofNat 64 (grantWord g)))

/-- `mshape` (R276). -/
def execMshape (fmt : EngFmt) (a : Fin 32) (b c : SSrc) (s : State) : Host.Outcome State Fault Refusal :=
  resolve s (actMshape fmt a b c s)

/-- `mcfg` (R278): level 6 writes the origins. -/
def actMcfg (level : Fin 8) (drain : Bool) (o : En3) (s : State) : Act := do
  let a ← s.srcS o.a
  let b ← s.srcS o.b
  let c ← s.srcS o.c
  let _ ← s.granted
  if h : level.val < 6 then
    .ok (s.modShadow fun m => { m with levels := m.levels.set level.val { a := a, b := b, c := c, drain := drain } h })
  else
    require (decide (a.toNat % 2 ^ 32 = 0)) (raiseInfo .illegalInstruction s.iss.word)
    .ok (s.modShadow fun m => { m with orgA := a, orgB := b, orgC := c })

/-- `mcfg` (R278). -/
def execMcfg (level : Fin 8) (drain : Bool) (o : En3) (s : State) : Host.Outcome State Fault Refusal :=
  resolve s (actMcfg level drain o s)

/-- The status of `mopnd` (R282). -/
def State.mopndStatus (s : State) (isB : Bool) (v : View) (h : Handle) : Nat :=
  let phys := v.arrays.map h.phys
  let base := s.modId s.iss.die * 2 ^ 42
  let die := base + s.iss.die * 2 ^ 39
  let place :=
    match v.place with
    | 0 => phys.all fun r => insideInt r (winAddr (s.modId s.iss.die) s.iss.die s.iss.core) 0xC00000
    | 1 => phys.all fun r => insideInt r base (2 ^ 42)
    | _ => (phys.all (fun r => insideInt r die 0xC00000000) || phys.all fun r => insideInt r (die + 0xC00000000) 0xC00000000)
             && decide (v.fmt = 0)
  if v.badField then 1
  else if v.badExtent then 2
  else if (v.place = 2 ∧ !isB) ∨ !place then 3
  else if !v.arrays.all h.spans then 4
  else if !h.read then 5
  else 0

/-- The byte offset from a handle's address to a segment offset. -/
def Handle.toSeg (h : Handle) (off : Nat) : Nat := (off + 2 ^ 57 - h.va.toNat % 2 ^ 51) % 2 ^ 57

/-- `mopnd` (R280, R282). -/
def actMopnd (isB : Bool) (a : Fin 32) (b : SSrc) (h : Fin 16) (s : State) : Act := do
  let off ← s.srcS b
  let _ ← s.granted
  let hd := s.regH h
  let k := hd.toSeg off.toNat
  require (hd.valid && decide (off.toNat < 2 ^ 51) || !hd.valid) (raiseAt .handleBounds (hd.vaAt k))
  let pa ← s.accessCheck hd k 64 true false h.val
  aligned hd k 64 false
  s.footprintCheck hd k 64 false
  require (!(hd.claim && decide (s.tag pa ≠ .value))) (raiseAt .claimState (hd.vaAt k))
  let (s, d) ← s.loadPlain hd pa 64 .none (hd.vaAt k)
  let s := if hd.claim then s.acquire .dom s.iss.die s.iss.core else s
  let st := s.mopndStatus isB (viewOf d) hd
  let op : Option Operand := if st = 0 then some { desc := BitVec.ofNat 512 d, h := hd } else none
  .ok ((s.modShadow fun m => if isB then { m with opB := op } else { m with opA := op }).resM a (BitVec.ofNat 64 st))

/-- `mopnd` (R280). -/
def execMopnd (isB : Bool) (a : Fin 32) (b : SSrc) (h : Fin 16) (s : State) : Host.Outcome State Fault Refusal :=
  resolve s (actMopnd isB a b h s)

/-- `mrot` (R283). -/
def actMrot (o : En3) (s : State) : Act := do
  let a ← s.srcS o.a
  let b ← s.srcS o.b
  let c ← s.srcS o.c
  let _ ← s.granted
  .ok (s.modShadow fun m => { m with rot := a, rk := if flag a.toNat 20 then b else m.rk, qk := if flag a.toNat 21 then c else m.qk })

/-- `mrot` (R283). -/
def execMrot (o : En3) (s : State) : Host.Outcome State Fault Refusal := resolve s (actMrot o s)

/-- The published profiles that a matrix job may name (R58, R284). -/
def published (p : Nat) : Bool := p = 1 || p = 2 || p = 3 || p = 4 || p = 0x11

/-- `mprof` (R284). -/
def actMprof (p : BitVec 8) (s : State) : Act := do
  let _ ← s.granted
  require (published p.toNat) (raiseInfo .numericsProfile p.toNat)
  .ok (s.modShadow fun m => { m with prof := p })

/-- `mprof` (R284). -/
def execMprof (p : BitVec 8) (s : State) : Host.Outcome State Fault Refusal := resolve s (actMprof p s)

/-- The drain control word is refused (R285). -/
def drainRefused (w : Nat) : Bool :=
  let fwd := decide (field w 1 0 = 2)
  decide (field w 63 21 ≠ 0) || decide (4 < field w 13 11) || decide (6 < field w 10 7) || decide (field w 1 0 = 3)
    || (fwd && (decide (field w 6 3 < 2) || decide (8 < field w 6 3))) || (!flag w 15 && decide (field w 10 7 ≠ 0))

/-- `mdrain` (R285). -/
def actMdrain (a : Fin 32) (b c : SSrc) (s : State) : Act := do
  let w ← s.srcS b
  let k ← s.srcS c
  let _ ← s.granted
  if drainRefused w.toNat then .ok (s.resM a 1)
  else .ok ((s.modShadow fun m => { m with drain := w, dk := if flag w.toNat 20 then k else m.dk }).resM a 0)

/-- `mdrain` (R285). -/
def execMdrain (a : Fin 32) (b c : SSrc) (s : State) : Host.Outcome State Fault Refusal := resolve s (actMdrain a b c s)

/-! ### Starting a job (R287) -/

/-- A view too large to round under .rsr (R50). -/
def View.tooLarge (v : View) : Bool := decide (2 ^ 48 ≤ v.rext * v.kext)

/-- A rotation that a drain cannot hold within a tile: axis M holds 16 positions, axis N 64 (R286, R287). -/
def groupMisfit (axisM : Bool) (k : Nat) : Bool := if axisM then decide (4 < k) else decide (6 < k)

/-- NUMERICS_PROFILE at `mgo` (R287, check 3). -/
def MSet.badNumerics (m : MSet) (g : Grant) (a b : Operand) : Bool :=
  let p := m.prof.toNat
  let f := g.fmt
  let w := m.rot.toNat
  let k := m.log2n
  let badFmt := fun (o : Operand) (isB : Bool) => !o.stored f isB && !(decide (2 ≤ o.view.fmt) && decide (o.view.fmt ≤ 4))
  let badPair := fun (o : Operand) (isB : Bool) => decide (k ≠ 0) && o.stored f isB && !o.pre f isB
  let badSr := fun (o : Operand) (isB : Bool) => !o.stored f isB && decide (m.opMode isB = .rsr) && o.view.tooLarge
  let drot := m.drainFld 1 0
  let daxisM := flag m.drain.toNat 2
  let extent := fun (axisM : Bool) => if axisM then g.m else g.n
  !accepts f p
    || (decide (p = 0x11) && decide (f ≠ .ab4)) || (decide (f = .ab4) && decide (b.view.place ≠ 2))
    || (decide (b.view.place = 2) && decide (p ≠ 0x11))
    || badFmt a false || badFmt b true
    || decide (field w 63 22 ≠ 0) || decide (k = 1) || decide (8 < k) || decide (m.oaxis = 3)
    || decide (m.olog2n < 2) || decide (8 < m.olog2n) || decide (4 < m.rotFld 14 12) || decide (4 < m.rotFld 17 15)
    || badPair a false || badPair b true
    || (decide (m.oaxis = 1) && a.stored f false) || (decide (m.oaxis = 2) && b.stored f true)
    || (decide (m.oaxis ≠ 0) && decide (extent (m.oaxis = 1) % 2 ^ m.olog2n ≠ 0))
    || (decide (drot = 2) && decide (extent daxisM % 2 ^ m.drainFld 6 3 ≠ 0))
    || badSr a false || badSr b true
    || (decide (drot = 1) && decide (m.oaxis ≠ 0) && groupMisfit (m.oaxis = 1) m.olog2n)
    || (decide (drot = 2) && groupMisfit daxisM (m.drainFld 6 3))
    || (decide (5 ≤ m.drainFld 10 7) && decide (g.n % 32 ≠ 0))

/-- Every C tile that the nest reaches lies in the grant: its corners do (R287, check 4). -/
def MSet.tilesFit (m : MSet) (g : Grant) : Bool :=
  let cm := m.cRange (·.1)
  let cn := m.cRange (·.2)
  decide (0 ≤ cm.1) && decide (cm.2 < (g.m / 48 : Nat)) && decide (0 ≤ cn.1) && decide (cn.2 < (g.n / 64 : Nat))

/-- The active set of a job: keys whose set bits are 0 take SYS.SEED (R69, R287). -/
def MSet.activate (m : MSet) (seed : Word) : MSet :=
  { m with
    rk := if flag m.rot.toNat 20 then m.rk else seed
    qk := if flag m.rot.toNat 21 then m.qk else seed
    dk := if flag m.drain.toNat 20 then m.dk else seed
    rot := m.rot ||| 0x300000
    drain := m.drain ||| 0x100000 }

/-- A use of a result queue by a task: refused to a launch that does not own it (R110). -/
def State.rqForeign (s : State) (q : Nat) : Bool := foreign (s.myCore.rq q).owner s.me.launch

/-- The queue's owner becomes the current launch (R110). -/
def State.takeRq (s : State) (q : Nat) : State :=
  let l := s.me.launch
  s.modMyCore fun x => { x with rqs := smPut x.rqs q { x.rq q with owner := some l } }

/-- `mgo` (R287). A new job has ROT_NONE clear (R296; log 80). -/
def actMgo (s : State) : Act := do
  s.jobTrapCheck
  let t := s.me
  let m := t.shadowSet
  let g ← s.granted
  match m.opA, m.opB with
  | some a, some b =>
    require (decide (t.job.state = .done)) (waits .job)
    require (!m.badNumerics g a b) (raiseInfo .numericsProfile m.prof.toNat)
    require (m.tilesFit g) (raise .handleBounds)
    require (!(m.toQueue && s.rqForeign m.queue)) (raiseInfo .rqOverflow m.queue)
    s.release
    let s := if m.toQueue then s.takeRq m.queue else s
    let i := s.iss.task
    let ranges := if g.fmt = EngFmt.ab4 then b.view.arrays.map fun r => ((b.h.phys r).1.toNat, (b.h.phys r).2) else []
    let n := s.issued
    let s := { s with
      issued := n + 1
      sent := if ranges.isEmpty then s.sent else s.sent + 1
      iss := { s.iss with newJob := true }
      cmds := s.cmds.map fun (x : Cmd) => if x.task = i ∧ !s.fillable x then { x with short := true } else x }
    let s := s.modMe fun t => { t with
      active := m.activate s.iss.snap.seed
      job := { state := .queued, ranges := ranges, order := n, no := s.sent, faultCode := t.job.faultCode } }
    .ok (s.modMyCore fun x => { x with engine := x.engine ++ [i] })
  | _, _ => raise .shapeUngranted

/-- `mgo` (R287). -/
def execMgo (s : State) : Host.Outcome State Fault Refusal := resolve s (actMgo s)

/-! ### Waiting, status and clearing (R295 to R297) -/

/-- `mwait` (R295). -/
def actMwait (s : State) : Act := do
  s.jobWait
  .ok (s.acquire .die s.iss.die s.iss.core)

/-- `mwait` (R295). -/
def execMwait (s : State) : Host.Outcome State Fault Refusal := resolve s (actMwait s)

/-- The word of `mstat` (R296). -/
def Job.word (j : Job) : Nat :=
  j.steps % 2 ^ 32 * 2 ^ 32 + j.faultCode % 256 * 2 ^ 8 + ofFlag j.rotNone * 16 + ofFlag (decide (j.state = .parked) && j.rqFull) * 8
    + ofFlag (decide (j.state = .stopped)) * 4 + ofFlag (decide (j.state = .parked) && j.onHandle) * 2 + ofFlag (decide (j.state ≠ .done))

/-- `mstat` (R296). -/
def actMstat (a : Fin 32) (s : State) : Act := do
  s.jobTrapCheck
  .ok (s.resM a (BitVec.ofNat 64 s.me.job.word))

/-- `mstat` (R296). -/
def execMstat (a : Fin 32) (s : State) : Host.Outcome State Fault Refusal := resolve s (actMstat a s)

/-- `mzero` (R297). -/
def actMzero (b c : SSrc) (s : State) : Act := do
  let x ← s.srcS b
  let y ← s.srcS c
  let r := x.toNat
  let n := y.toNat
  let t := s.me
  if n = 0 then .ok s
  else
    require (decide (r + n ≤ t.rowCount)) (raise .handleBounds)
    require (!(match t.outRows with
      | some (o, k) => overlaps r n o k
      | none => false)) (raiseInfo .aliasHazard (max r ((t.outRows.map (·.1)).getD 0)))
    require (!s.stores.any fun w => decide (w.task = s.iss.task) && overlaps w.pa w.len (s.vaddr r) (n * 256)) (waits (.rows (s.vaddr r) (n * 256)))
    .ok (((List.range n).foldl (fun s k => s.keepRow (r + k)) s).putBytes (s.vaddr r) (n * 256) 0)

/-- `mzero` (R297). -/
def execMzero (b c : SSrc) (s : State) : Host.Outcome State Fault Refusal := resolve s (actMzero b c s)

/-! ### Result queues (R266, R298, R299) -/

/-- RQ_UNDERFLOW with the queue number (R346). -/
def rqTrap {α : Type} (q : Nat) : Except Stop α := raiseInfo .rqUnderflow q

/-- `rqbind` and `rqbind.off` (R299). An entry number of 64 or more is an illegal instruction, and the binding stays while `rqbind.off` waits,
so that the route goes on taking rows until then. DESIGN CHOICE (log 85). -/
def actRqbind (q : Fin 8) (b : SSrc) (bind : Bool) (s : State) : Act := do
  let e ← s.srcS b
  require (!s.rqForeign q.val) (rqTrap q.val)
  if bind then
    require (decide (e.toNat < 64)) (raiseInfo .illegalInstruction s.iss.word)
    let s := (s.takeRq q.val).modMyCore fun x => { x with rqs := smPut x.rqs q.val { x.rq q.val with bound := some e.toNat } }
    .ok (s.relayTest s.iss.die s.iss.core)
  else
    let handing := match (s.myCore.rq q.val).bound with
      | some e => decide ((s.myCore.relay e).state = .firing) && decide ((s.myCore.relay e).kind = 2)
      | none => false
    require (!handing) (waits (.queueHand q.val))
    .ok ((s.takeRq q.val).modMyCore fun x => { x with rqs := smPut x.rqs q.val { x.rq q.val with bound := none } })

/-- `rqbind` (R299). -/
def execRqbind (q : Fin 8) (b : SSrc) (bind : Bool) (s : State) : Host.Outcome State Fault Refusal :=
  resolve s (actRqbind q b bind s)

/-- The first untaken row of a queue is marked taken by a task (R266). -/
def RQ.take (r : RQ) (i : Nat) : RQ :=
  match r.rows.findIdx? fun x => x.takenBy.isNone with
  | some k => { r with rows := r.rows.modify k fun x => { x with takenBy := some i } }
  | none => r

/-- `vpop` (R266). The job of an `mgo` of the same bundle counts for the slots behind it (log 79). -/
def actVpop (d : Fin 32) (q : Fin 8) (nw : Bool) (s : State) : Act := do
  let _ ← s.destV d
  let r := s.myCore.rq q.val
  require (!s.rqForeign q.val && r.bound.isNone) (rqTrap q.val)
  require (decide (s.reserved s.iss.die s.iss.core q.val = 0)) (waits (.queueReserved q.val))
  match r.rows.find? fun x => x.takenBy.isNone with
  | some row =>
    require (!row.poison) (raise .memPoison)
    let i := s.iss.task
    let s := (s.takeRq q.val).modMyCore fun x => { x with rqs := smPut x.rqs q.val ((x.rq q.val).take i) }
    .ok (s.resV d row.row nw)
  | none => if s.me.drainsTo q.val then waits (.queueRow q.val) else rqTrap q.val

/-- `vpop` (R266). -/
def execVpop (d : Fin 32) (q : Fin 8) (nw : Bool) (s : State) : Host.Outcome State Fault Refusal := resolve s (actVpop d q nw s)

end Sys2Proof.Machine
end

