-- ==== Sys2Proof/Machine/MatrixEngine.lean ====
section
/-! DEFINITION. The matrix engine: the step of a job, its tile, its drains, its faults and its states (R279, R286, R288 to R293), and
the chunks of an at-bank job (R65, R113). -/

set_option Elab.async false

namespace Sys2Proof.Machine

/-! ### Operands of a step (R288) -/

/-- The path of operand A or B of a job (R68, R73 to R78). -/
def MSet.path (m : MSet) (g : Grant) (a b : Operand) (isB : Bool) (h : Handle) : Path :=
  let o := if isB then b else a
  let f := g.fmt
  let q := !o.stored f isB
  let other := if isB then a.pre f false else b.pre f true
  { view := o.view, h := h, klim := g.k, quant := q
    orot := if m.oaxis = (if isB then 2 else 1) then m.olog2n else 0
    crot := if q then m.log2n else 0
    cdom := if other then 0x0002 else 0x0001
    rk := m.rk, qk := m.qk, md := m.opMode isB
    esc := if isB then flag m.rot.toNat 19 else flag m.rot.toNat 18
    mx := match storedFmt f isB with
      | 0 => some .mx4
      | 1 => some .mx8
      | _ => none }

/-- The products of one element over a K step, with the exact shift of a paired rotation (R60, R73). -/
def products (t : Nat) (x y : List FVal) : List FVal := (x.zip y).map fun p => scaleF (mulF p.1 p.2) (-(t : Int))

/-- One element's step of a profile (R61 to R65). -/
def stepValue (prof : Nat) (acc : FVal) (p : List FVal) : FVal :=
  match prof with
  | 1 => step01 acc p
  | 2 => step02 acc p
  | 3 => step03 acc p
  | _ => step04 acc p

/-- A row of 64 FP32 lanes as values. -/
def f32Lanes (r : Row) : List FVal := (List.range 64).map fun j => f32 (laneOf 32 r.toNat j)

/-- A row of 64 FP32 values. -/
def rowOfF32 (l : List FVal) : Row := rowOfLanes 32 (l.map (roundF .rne 0 .f32))

/-- The rows of a tile after one step (R288). -/
def State.tileStep (s : State) (m : MSet) (g : Grant) (pa pb : Path) (idx : List Nat) (rows : List Row) : List Row :=
  let n := kStep g.fmt
  let (am, ak) := m.aTile idx
  let (bn, bk) := m.bTile idx
  let bs := (List.range 64).map fun (j : Nat) => s.operandRow pb (64 * bn + j) (n * bk) n
  rows.zipIdx.map fun e =>
    let a := s.operandRow pa (48 * am + e.2) (n * ak) n
    rowOfF32 ((f32Lanes e.1).zip bs |>.map fun p => stepValue m.prof.toNat p.1 (products m.log2n a p.2))

/-- The 48 rows of chunk sums of an at-bank step (R65): blocks at or beyond K′ are −0 leaves. -/
def State.chunkRows (s : State) (m : MSet) (g : Grant) (pa pb : Path) (idx : List Nat) : List Row :=
  let (am, ak) := m.aTile idx
  let (bn, bk) := m.bTile idx
  let n := min 256 ((g.k : Int) - 256 * bk).toNat
  let bs := (List.range 64).map fun (j : Nat) => s.operandRow pb (64 * bn + j) (256 * bk) n
  (List.range 48).map fun (i : Nat) =>
    let a := s.operandRow pa (48 * am + i) (256 * ak) n
    rowOfF32 (bs.map fun b => chunk11 (products m.log2n a b))

/-- What stops the reads of a step: the first bad byte of operand A, or of operand B, with its handle. -/
def State.stepBad (s : State) (m : MSet) (g : Grant) (pa pb : Path) (idx : List Nat) : Option (Handle × Bad) :=
  if s.allClean then none
  else
    let n := kStep g.fmt
    let (am, ak) := m.aTile idx
    let (bn, bk) := m.bTile idx
    let ra := pa.reach (48 * am) (n * ak) 48 n
    let rb := pb.reach (64 * bn) (n * bk) 64 n
    match s.rectBad pa.view pa.h pa.klim ra.1 ra.2.2.1 ra.2.1 ra.2.2.2 with
    | some x => some (pa.h, x)
    | none => (s.rectBad pb.view pb.h pb.klim rb.1 rb.2.2.1 rb.2.1 rb.2.2.2).map fun x => (pb.h, x)

/-! ### The tile (R20, R277, R279) -/

/-- Address of row i of a C tile of task t. -/
def State.tileRowAddr (s : State) (t : Task) (g : Grant) (cm cn : Int) (i : Nat) : Nat :=
  rowAddr (s.modId t.die) t.die t.core (t.rowBase + g.cb + (cn * g.m + 48 * cm).toNat + i)

/-- A tile read from the accumulator. -/
def State.loadTile (s : State) (t : Task) (g : Grant) (cm cn : Int) : Tile :=
  { cm := cm, cn := cn, rows := (List.range 48).map fun i => BitVec.ofNat 2048 (s.bytes (s.tileRowAddr t g cm cn i) 256) }

/-- A tile written back. -/
def State.storeTile (s : State) (t : Task) (g : Grant) (x : Tile) : State :=
  x.rows.zipIdx.foldl (fun s e => s.putBytes (s.tileRowAddr t g x.cm x.cn e.2) 256 e.1.toNat) s

/-- The tile that the engine holds for task i is written back and let go (R289). -/
def State.writeBackTile (s : State) (i : Nat) : State :=
  let t := s.task i
  match t.active.grant, t.job.tile with
  | some g, some x => (s.storeTile t g x).modTask i fun t => { t with job := { t.job with tile := none } }
  | _, _ => s

/-! ### Drains (R81, R82, R286) -/

/-- The element format of a drain format code 0 to 4. -/
def drainElem : Nat → Fmt
  | 0 => .f32 | 1 => .bf16 | 2 => .f16 | 3 => .e5m2 | _ => .e4m3

/-- A column-major view of a list of rows of equal length. -/
def transpose (n : Nat) (l : List (List FVal)) : List (List FVal) := (List.range n).map fun j => l.map fun r => r.getD j .nan

/-- Runs of n of a list. -/
def runsOf (n : Nat) (l : List FVal) : List (List FVal) := chunksOf n (l.length / n) l

/-- Each run of 2^k positions of a line, the first at position base, through f. -/
def perGroup (k base : Nat) (f : Nat → List FVal → List FVal) (l : List FVal) : List FVal :=
  (runsOf (2 ^ k) l).zipIdx.flatMap fun e => f (base + e.2 * 2 ^ k) e.1

/-- The rotation of a drain over the 48 × 64 values of tile (cm, cn). -/
def drainRotate (m : MSet) (cm cn : Nat) (x : List (List FVal)) : List (List FVal) :=
  let alongN := fun (f : Nat → List FVal → List FVal) (k : Nat) => x.map (perGroup k (64 * cn) f)
  let alongM := fun (f : Nat → List FVal → List FVal) (k : Nat) => transpose 48 ((transpose 64 x).map (perGroup k (48 * cm) f))
  match m.drainFld 1 0 with
  | 1 =>
    let k := m.olog2n
    if m.oaxis = 1 then alongM (fun (b : Nat) => unrotate k m.rk b) k
    else if m.oaxis = 2 then alongN (fun (b : Nat) => unrotate k m.rk b) k
    else x
  | 2 =>
    let k := m.drainFld 6 3
    if flag m.drain.toNat 2 then alongM (fun (b : Nat) => rotate k m.dk 0x0002 b) k else alongN (fun (b : Nat) => rotate k m.dk 0x0002 b) k
  | _ => x

/-- The exponent k of R82. -/
def MSet.drainShift (m : MSet) : Nat := if m.drainFld 1 0 = 1 ∧ m.oaxis ≠ 0 then m.olog2n else 0

/-- The bytes of n codes of width w, packed from bit 0. -/
def packCodes (w : Nat) (l : List Nat) : Nat := ofLanes w l

/-- A queue row: the 64 values of one m of the tile, converted and packed (R82, R286). -/
def queueRow (m : MSet) (idx : Nat → Nat) (x : List FVal) : Row :=
  let md := modeOf (m.drainFld 13 11)
  let y := x.map fun v => scaleF v (-(m.drainShift : Int))
  let fmt := m.drainFld 10 7
  if fmt ≤ 4 then
    let f := drainElem fmt
    BitVec.ofNat 2048 (packCodes f.width (y.zipIdx.map fun e => roundF md (drawFor md m.dk (idx e.2)) f e.1))
  else
    let f := if fmt = 5 then MxFmt.mx8 else MxFmt.mx4
    let blk := fun (b : Nat) => quantiseBlock ((y.drop (32 * b)).take 32) f md (flag m.drain.toNat 14) m.dk fun j => idx (32 * b + j)
    let b0 := blk 0
    let b1 := blk 1
    if fmt = 5 then BitVec.ofNat 2048 (packCodes 8 (b0.codes ++ b1.codes) + b0.scale * 2 ^ 512 + b1.scale * 2 ^ 520)
    else BitVec.ofNat 2048 (packCodes 4 (b0.codes ++ b1.codes) + b0.scale * 2 ^ 256 + b1.scale * 2 ^ 264
      + b0.entry * 2 ^ 288 + b1.entry * 2 ^ 320)

/-- The 48 rows that a drain of a tile makes (R286). -/
def drainRows (m : MSet) (g : Grant) (x : Tile) : List Row :=
  let cm := x.cm.toNat
  let cn := x.cn.toNat
  (drainRotate m cm cn (x.rows.map f32Lanes)).zipIdx.map fun e =>
    queueRow m (fun (j : Nat) => (48 * cm + e.2) * g.n + 64 * cn + j) e.1

/-- The first copy of R310, of those that p admits, that lacks rows of a queue takes one. -/
def State.rqTake (s : State) (d c q : Nat) (p : Cmd → Bool) (r : QRow) : Option State :=
  match s.cmds.findIdx? fun x => x.die = d ∧ x.core = c ∧ x.kind = CmdKind.cpyr q ∧ p x ∧ x.rowsIn.length < x.need with
  | some k => some { s with cmds := s.cmds.modify k fun x => { x with rowsIn := x.rowsIn ++ [r] } }
  | none => none

/-- Untaken rows of a queue leave it for the copies that p admits, in order (R310); n bounds the rows. -/
def State.rqServeN (s : State) (d c q : Nat) (p : Cmd → Bool) : Nat → State
  | 0 => s
  | n + 1 =>
    let rows := ((s.core d c).rq q).rows
    match rows.find? fun r => r.takenBy.isNone with
    | none => s
    | some r =>
      match s.rqTake d c q p r with
      | none => s
      | some s => State.rqServeN (s.modCore d c fun x => { x with
          rqs := smPut x.rqs q { x.rq q with rows := rows.eraseP fun y => y.takenBy.isNone } }) d c q p n

/-- Rows that reach a queue go to the copies that have reserved them, while the reservations can be filled (R310). -/
def State.rqServe (s : State) (d c q : Nat) : State := s.rqServeN d c q s.fillable 96

/-- A copy that has just been accepted, with number id, takes the rows that are in its queue (R310). -/
def State.rqStart (s : State) (id d c q : Nat) : State := s.rqServeN d c q (fun x => decide (x.id = id)) 96

/-- A drain of task i's tile, whose rows fit where they go (R286, R298). -/
def State.drainTile (s : State) (i : Nat) (g : Grant) (x : Tile) : State :=
  let t := s.task i
  let m := t.active
  let rows := drainRows m g x
  let kept := if m.toQueue then x.rows else rows
  let next := if flag m.drain.toNat 19 then x.rows.map fun _ => (0 : Row) else kept
  let none' := decide (m.drainFld 1 0 = 1) && decide (m.oaxis = 0)
  let s := s.modTask i fun t => { t with job := { t.job with
    tile := some { x with rows := next }, rotNone := t.job.rotNone || none' } }
  if m.toQueue then
    ((s.modCore t.die t.core fun c => { c with
      rqs := smPut c.rqs m.queue { c.rq m.queue with rows := (c.rq m.queue).rows ++ rows.map fun r => { row := r } } }).rqServe
        t.die t.core m.queue).relayTest t.die t.core
  else s

/-! ### The nest (R279) -/

/-- The point is one at which the nest drains: a level with a drain flag is at its last value with every inner level at its last. -/
def drainsAt (levels : List Level) (idx : List Nat) : Bool :=
  match levels, idx with
  | l :: ls, i :: is => decide (i + 1 = l.trip) && (l.drain || drainsAt ls is)
  | _, _ => false

/-- The next point, L0 fastest; none after the last. -/
def nextPoint : List Level → List Nat → Option (List Nat)
  | l :: ls, i :: is =>
    if i + 1 < l.trip then some ((i + 1) :: is) else (nextPoint ls is).map fun r => 0 :: r
  | _, _ => none

/-! ### States of a job (R290 to R293) -/

/-- The running job's task on a core. -/
def State.runningJob (s : State) (d c : Nat) : Option Nat :=
  (s.tasksWith fun _ t => decide (t.die = d) && decide (t.core = c) && decide (t.job.state = .running)).head?

/-- Change the job of task i. -/
def State.modJob (s : State) (i : Nat) (f : Job → Job) : State := s.modTask i fun t => { t with job := f t.job }

/-- The job of task i leaves the engine for a state, its tile written back (R289). -/
def State.jobLeaves (s : State) (i : Nat) (st : JState) : State :=
  (s.writeBackTile i).modJob i fun j => { j with state := st, halt := false }

/-- The job of task i rejoins the engine queue (R290, R292, R293). -/
def State.jobQueues (s : State) (i : Nat) : State :=
  let t := s.task i
  (s.modJob i fun j => { j with state := .queued, rqFull := false, onHandle := false }).modCore t.die t.core fun c =>
    { c with engine := c.engine.filter (· ≠ i) ++ [i] }

/-- A fault of the job of task i (R291). -/
def State.jobFault (s : State) (i : Nat) (code addr : Nat) : State :=
  (s.jobLeaves i .done).modJob i fun j => { j with
    pend := some { code := code, addr := addr, info := j.steps }, faultCode := code, ranges := [], flushed := false, released := false }

/-- The fault of a bad byte of an operand. -/
def State.jobBad (s : State) (i : Nat) (h : Handle) : Bad → State
  | .claim off => s.jobFault i Trap.claimState.code (h.seg.toNat * 2 ^ 51 + off.toNat)
  | .poison off => s.jobFault i Trap.memPoison.code (h.seg.toNat * 2 ^ 51 + off.toNat)

/-- Room in a queue for the 48 rows of a drain (R298). -/
def State.rqRoom (s : State) (d c q : Nat) : Bool := decide (((s.core d c).rq q).rows.length + 48 ≤ 96)

/-- The step of task i's running job, its handles valid: a, b are its operands. -/
def State.jobStep (s : State) (i : Nat) (g : Grant) (a b : Operand) : State :=
  let t := s.task i
  let m := t.active
  let idx := t.job.idx
  let levels := m.levels.toList
  let pa := m.path g a b false a.h
  let pb := m.path g a b true b.h
  let drains := drainsAt levels idx
  if drains && m.toQueue && !s.rqRoom t.die t.core m.queue then
    (s.jobLeaves i .parked).modJob i fun j => { j with rqFull := true }
  else if g.fmt = EngFmt.ab4 ∧ t.job.chunk = none then s
  else
    match (if g.fmt = EngFmt.ab4 then none else s.stepBad m g pa pb idx) with
    | some (h, x) => s.jobBad i h x
    | none =>
      let (cm, cn) := m.cTile idx
      let s := match t.job.tile with
        | some x => if x.cm = cm ∧ x.cn = cn then s else s.writeBackTile i
        | none => s
      let fresh := (s.task i).job.tile.isNone
      if fresh && (List.range 48).any (fun k => s.poisoned (s.tileRowAddr t g cm cn k) 256) then s.jobFault i Trap.memPoison.code 0
      else
        let tile := ((s.task i).job.tile).getD (s.loadTile t g cm cn)
        let rows := match t.job.chunk with
          | some ch => (tile.rows.zip ch).map fun p => rowOfF32 (((f32Lanes p.1).zip (f32Lanes p.2)).map fun q => combine q.1 q.2)
          | none => s.tileStep m g pa pb idx tile.rows
        let tile := { tile with rows := rows }
        let s := s.modJob i fun j => { j with tile := some tile, steps := j.steps + 1, chunk := none }
        let s := if drains then s.drainTile i g tile else s
        match nextPoint levels idx with
        | some idx' => s.modJob i fun j => { j with idx := idx' }
        | none => (s.jobLeaves i .done).modJob i fun j => { j with ranges := [], flushed := false, released := false }

/-- Both operands of a set, refilled where they can be (R290). -/
def MSet.usable (m : MSet) : Option (Operand × Operand) :=
  match m.opA, m.opB with
  | some a, some b => if a.h.valid && b.h.valid then some (a, b) else none
  | _, _ => none

/-- A walk has found that the page of a handle of task i can never be given (R290, R390). -/
def State.deadPage (s : State) (i : Nat) (h : Handle) : Bool :=
  let t := s.task i
  s.walks.any fun w => w.dead && decide (w.die = t.die) && decide (w.launch = t.launch) && decide (w.seg = h.seg.toNat)
    && decide (w.off / 65536 = h.va.toNat % 2 ^ 51 / 65536)

/-- A parked job's operands wait for walks; a page that is gone for good faults the job (R290, R291; log 71). -/
def State.jobWalks (s : State) (i : Nat) : State :=
  let m := (s.task i).active
  let open_ := ([m.opA, m.opB].filterMap fun o => o.map (·.h)).filter fun h => !h.valid
  match open_.find? (s.deadPage i) with
  | some h => s.jobFault i Trap.handleBounds.code (h.seg.toNat * 2 ^ 51 + h.va.toNat % 2 ^ 51 / 65536 * 65536)
  | none => open_.foldl (fun s h => s.startWalk i h) s

/-- MATRIX_STEP: the engine's next step on a core, or what takes its place: the stop of R292, the park of R290 (R288 to R293). -/
def execMatrixStep (d c : Nat) (s : State) : Host.Outcome State Fault Refusal :=
  .next (match s.runningJob d c with
    | none => s
    | some i =>
      let t := s.task i
      if t.job.halt then s.jobLeaves i .stopped
      else
        match t.active.grant, t.active.usable with
        | some g, some (a, b) => s.jobStep i g a b
        | _, _ => ((s.jobLeaves i .parked).modJob i fun j => { j with onHandle := true }).jobWalks i)

/-- The job of task i continues: its handles are valid again, or its queue has room (R293). -/
def State.jobWake (s : State) (i : Nat) : State :=
  let t := s.task i
  if t.job.state ≠ JState.parked then s
  else if t.job.onHandle && (t.active.usable).isSome then s.jobQueues i
  else if t.job.rqFull && s.rqRoom t.die t.core t.active.queue then s.jobQueues i
  else s

/-- MATRIX_JOB_START: the first job of the queue that can run gets the free engine (R274, R293). -/
def execMatrixJobStart (d c : Nat) (s : State) : Host.Outcome State Fault Refusal :=
  let s := (s.residents d c).foldl State.jobWake s
  .next (match s.runningJob d c, (s.core d c).engine with
    | none, i :: rest =>
      if (s.task i).job.state = .queued then
        (s.modCore d c fun x => { x with engine := rest }).modJob i fun j => { j with state := .running }
      else s.modCore d c fun x => { x with engine := rest }
    | _, _ => s)

/-- ATBANK_CHUNK_RETURN: the chunk of the next step of a core's running at-bank job comes back from the stack (R65, R288). The
stack's flush has been made (R113), and no earlier command that writes B's ranges is open (R114). -/
def execAtbankChunkReturn (d c chunk : Nat) (s : State) : Host.Outcome State Fault Refusal :=
  .next (match s.runningJob d c with
    | none => s
    | some i =>
      let t := s.task i
      match t.active.grant, t.active.usable with
      | some g, some (a, b) =>
        if g.fmt ≠ EngFmt.ab4 ∨ !t.job.released ∨ s.stackBlocked s.issued t.job.order false t.job.ranges [] ∨ t.job.chunk.isSome ∨ chunk ≠ t.job.steps then s
        else
          let m := t.active
          let pa := m.path g a b false a.h
          let pb := m.path g a b true b.h
          match s.stepBad m g pa pb t.job.idx with
          | some (h, x) => s.jobBad i h x
          | none => s.modJob i fun j => { j with chunk := some (s.chunkRows m g pa pb t.job.idx) }
      | _, _ => s)

end Sys2Proof.Machine
end

