-- ==== Sys2Proof/Machine/Commands.lean ====
section
/-! DEFINITION. Engine commands: cards (R300), tickets (R301), the checks and statuses of R306, the state of a command, its
completion and its failure record (R313), and the order of stack commands (R113, R114, R397). -/

set_option Elab.async false

namespace Sys2Proof.Machine

/-! ### Cards (R300) -/

/-- n bytes of the task's plain scratchpad extent from a byte offset, a multiple of 64, read as the bundle issues. A poisoned line raises
MEM_POISON about the card's address, and no ticket is taken. DESIGN CHOICE (log 86). -/
def State.readCard (s : State) (off : Word) (n : Nat) : Except Stop Nat := do
  let t := s.me
  let va := 63 * 2 ^ 51 + off.toNat
  let pa := winAddr (s.modId s.iss.die) s.iss.die s.iss.core + t.spadBase + off.toNat
  require (decide (off.toNat % 64 = 0)) (raiseAt .misaligned va)
  require (decide (off.toNat + n ≤ t.spadSize)) (raiseAt .handleBounds va)
  s.release
  require (!s.scoreboardHolds s.iss.die s.iss.core pa n false) (waits (.board pa n false))
  require (!s.poisoned pa n) (raiseAt .memPoison va)
  .ok (s.bytes pa n)

/-- A pending or revoked handle parks the task (R92, R306), unless a walk that the bundle waited for has found its page poisoned: the
answer says whether the command ends with POISON (R390). -/
def State.needHandle (s : State) (h : Handle) (reg : Nat) : Except Stop Bool :=
  let off := h.va.toNat % 2 ^ 51
  if !h.valid && (h.pending || h.revoked) then
    if s.me.walkPoison = some (h.seg.toNat, off / 65536) then .ok true
    else .error (.park (.cmdHandle h.seg.toNat h.va.toNat reg)
      (.walk { die := s.iss.die, launch := s.me.launch, seg := h.seg.toNat, off := off / 65536 * 65536 }))
  else .ok false

/-- The handles of a command, with their registers: does a poisoned page end it (R306, R390)? -/
def State.needHandles (s : State) : List (Handle × Nat) → Except Stop Bool
  | [] => .ok false
  | (h, reg) :: l => do
    let bad ← s.needHandle h reg
    if bad then .ok true else s.needHandles l

/-! ### Bounds, permissions and addresses (R306, checks 6 to 8) -/

/-- An interval of segment offsets as a physical interval. -/
def Handle.span2 (h : Handle) (r : Int × Int) : Nat × Nat := ((h.phys r).1.toNat, (h.phys r).2)

/-- Check 6 for the intervals reached through one handle. -/
def State.inBounds (s : State) (h : Handle) (l : List (Int × Int)) : Bool :=
  l.all fun r => h.spans r && !s.reachesCarve (h.span2 r).1 (h.span2 r).2

/-- The smallest interval that covers a list of physical intervals (R111). -/
def cover (l : List (Nat × Nat)) : Nat × Nat :=
  match l.filter fun r => decide (0 < r.2) with
  | [] => (0, 0)
  | x :: xs =>
    let lo := xs.foldl (fun a r => min a r.1) x.1
    let hi := xs.foldl (fun a r => max a (r.1 + r.2)) (x.1 + x.2)
    (lo, hi - lo)

/-- The window bytes that a multicast writes for the handle's interval, on every named core (R308). -/
def multicast (pa n mdie mcore : Nat) : List (Nat × Nat) :=
  (List.range 8).flatMap fun d => (List.range 16).filterMap fun c =>
    if flag mdie d && flag mcore c then some (winAddr (paModule pa) d c + paWinOff pa, n) else none

/-! ### Tickets and commands (R301, R307, R313) -/

/-- A command of the current bundle is accepted, or refused with a status: it takes the next ticket (R301, R306). -/
def State.issueCmd (s : State) (a : Fin 32) (c : Cmd) (status : Status) : State :=
  let n := s.me.live.ticket + 1
  let s := (s.modLive fun r => { r with ticket := n }).resC a (BitVec.ofNat 64 n)
  if status = 0 then
    let s := { s with
      issued := s.issued + 1
      sent := s.sent + 1
      cmds := s.cmds ++ [{ c with id := s.issued, order := s.issued, no := s.sent, ticket := n, task := s.iss.task, die := s.iss.die, core := s.iss.core,
                                  launch := s.me.launch, seed := s.iss.snap.seed, det := s.myLaunch.det }] }
    s.modMe fun t => { t with openTickets := t.openTickets ++ [n] }
  else s.modMe fun t => { t with failures := t.failures ++ [{ ticket := n, code := status }] }

/-- Change the command with a number. -/
def State.modCmd (s : State) (id : Nat) (f : Cmd → Cmd) : State :=
  { s with cmds := s.cmds.map fun c => if c.id = id then f c else c }

/-- The command writes HBM homed on another die of the module (R313). -/
def Cmd.far (c : Cmd) : Bool :=
  (c.dstIv :: c.writes).any fun r => decide (0 < r.2) && isHbm r.1 && decide (paDie r.1 ≠ c.die)

/-- A command completes with a status. -/
def State.endCmd (s : State) (c : Cmd) (status : Status) : State :=
  let s := { s with cmds := s.cmds.filter fun x => x.id ≠ c.id }
  s.modTask c.task fun t => { t with
    openTickets := t.openTickets.filter (· ≠ c.ticket)
    failures := if status = 0 then t.failures else t.failures ++ [{ ticket := c.ticket, code := status }]
    farTickets := if c.far then t.farTickets ++ [c.ticket] else t.farTickets }

/-- The fold command of a relay entry's delivery leaves the machine (R327). -/
def State.dropRfold (s : State) (d c e : Nat) : State :=
  { s with cmds := s.cmds.filter fun (x : Cmd) =>
      !(decide (x.kind = CmdKind.rfold) && decide (x.die = d) && decide (x.core = c) && decide (x.card = e)) }

/-- A command completes with a status; the fold of a relay entry's delivery, which has no ticket, completes the delivery (R307, R330). -/
def State.finishCmd (s : State) (c : Cmd) (status : Status) : State :=
  if c.kind = .rfold then (s.dropRfold c.die c.core c.card).relayDelivered c.die c.core c.card status else s.endCmd c status

/-- The address by which a stack command goes to its home (R406). -/
def Cmd.target (c : Cmd) : Nat := (c.writes.map (·.1)).headD 0

/-- A response sent with number no, from the die of an address to the die that issued a command, waits for a link or behind an earlier
message of the same two dies (R406, R407). -/
def State.responseWaits (s : State) (d pa no : Nat) : Bool :=
  !s.onDie d pa && (s.messageWaits (paModule pa) (paDie pa) (s.modId d) d
    || (decide (paModule pa = s.modId (paDie pa)) && s.oneWay (paDie pa) (s.modId d) d no))

/-- A stack is done with a command: it completes at once on the stack's own die, and elsewhere when the response arrives (R406). -/
def State.answerCmd (s : State) (c : Cmd) (status : Status) : State :=
  if s.onDie c.die c.target then s.finishCmd c status
  else State.modCmd { s with sent := s.sent + 1 } c.id fun x => { x with answer := some (status, s.sent) }

/-- The response to a stack command arrives at the die that issued it (R406, R407). -/
def State.answerStep (s : State) (id : Nat) : State :=
  match s.cmds.find? fun c => c.id = id with
  | none => s
  | some c =>
    match c.answer with
    | none => s
    | some a => if s.responseWaits c.die c.target a.2 then s else s.finishCmd c a.1

/-- The failure record: the unreported failure with the lowest ticket (R313). -/
def Task.record (t : Task) : Option Failure :=
  t.failures.foldl (fun a f => match a with
    | some x => if f.ticket < x.ticket then some f else some x
    | none => some f) none

/-- CODE and TICKET of a record as cwait and cstat place TICKET. -/
def recordWord (r : Option Failure) (shift : Nat) : Nat :=
  match r with
  | some f => f.ticket % 2 ^ 48 * 2 ^ 16 + f.code * 2 ^ shift
  | none => 0

/-! ### The order of stack commands (R112 to R114) -/

/-- A message with ranges of die d, sent by die e with number no, has arrived there: neither a gang nor a link keeps it, nor an earlier
message (R406, R407, R417). -/
def State.arrivedAt (s : State) (launch e no : Nat) (isWrite : Bool) (ranges : List (Nat × Nat)) : Bool :=
  ranges.all fun r => !(isWrite && (s.gangHolds launch e r.1 || s.gangDrops launch e r.1)) && !s.linkWaits e r.1 && !s.overtakes e r.1 no

/-- A flush engine serves one command at a time (R397): one of the die's is flushed and not yet released. -/
def State.flushBusy (s : State) (d : Nat) : Bool :=
  (s.cmds.any fun c => c.flushed && !c.released && (c.reads ++ c.writes).any fun r => decide (paDie r.1 = d))
  || s.tasks.any fun e => e.2.job.flushed && !e.2.job.released && e.2.job.ranges.any fun r => decide (paDie r.1 = d)

/-- The order and the name (command, or the task of an at-bank job) of every command that has arrived at a die and waits for its flush. -/
def State.flushQueue (s : State) (d : Nat) : List (Nat × (Nat ⊕ Nat)) :=
  ((s.cmds.filter fun c => c.started && !c.flushed && ((c.reads ++ c.writes).any fun r => decide (paDie r.1 = d))
      && s.arrivedAt c.launch c.die c.no (!c.writes.isEmpty) (c.reads ++ c.writes)).map fun c => (c.order, Sum.inl c.id))
    ++ ((s.tasks.filter fun e => decide (e.2.job.state ≠ .done) && !e.2.job.flushed && (e.2.job.ranges.any fun r => decide (paDie r.1 = d))
      && s.arrivedAt e.2.launch e.2.die e.2.job.no false e.2.job.ranges).map fun e => (e.2.job.order, Sum.inr e.1))

/-- Dirty lines of a list of ranges are written back to HBM (R113). -/
def State.flushRanges (s : State) (l : List (Nat × Nat)) : State := { s with dirty := s.dirty.filter fun x => !rangeOn l x 64 }

/-- FLUSH_COMMAND: the flush engine of a die takes the oldest command that waits (R397). -/
def execFlushCommand (d : Nat) (s : State) : Host.Outcome State Fault Refusal :=
  .next (if s.flushBusy d then s
    else
      match (s.flushQueue d).foldl (fun (a : Option (Nat × (Nat ⊕ Nat))) x => match a with
          | some y => if x.1 < y.1 then some x else some y
          | none => some x) none with
      | some (_, .inl id) =>
        (s.flushRanges (((s.cmds.find? fun c => c.id = id).map fun c => c.reads ++ c.writes).getD [])).modCmd id
          fun c => { c with flushed := true }
      | some (_, .inr i) => (s.flushRanges (s.task i).job.ranges).modJob i fun j => { j with flushed := true }
      | none => s)

/-- STACK_COMMAND_RELEASE: the last write-back has been performed, and the flushed command goes to its stack engine (R397). -/
def execStackCommandRelease (d : Nat) (s : State) : Host.Outcome State Fault Refusal :=
  let onD := fun (l : List (Nat × Nat)) => l.any fun r => decide (paDie r.1 = d)
  .next { s with
    cmds := s.cmds.map fun c => if c.flushed && onD (c.reads ++ c.writes) then { c with released := true } else c
    tasks := s.tasks.map fun e =>
      if e.2.job.flushed && onD e.2.job.ranges then (e.1, { e.2 with job := { e.2.job with released := true } }) else e }

end Sys2Proof.Machine
end

