-- ==== Sys2Proof/Machine/Copy.lean ====
section
/-! DEFINITION. Class 0x9: copies (R302 to R312), `cwait` and `cstat` (R313, R314) and the assay instructions (R315, R316), with the
engine's events. -/

set_option Elab.async false

namespace Sys2Proof.Machine

/-! ### Copy cards (R302, R303) -/

/-- The fields of a copy card (R302). -/
structure CopyCard where
  notBefore : Nat
  mcore : Nat
  mdie : Nat
  strict : Bool
  cbv : Bool
  cbn : Nat
  rmode : Nat
  scale : Nat
  sfmt : Nat
  dfmt : Nat
  transpose : Bool
  edge1 : Nat
  edge0 : Nat
  x2 : Nat
  x1 : Nat
  x0 : Nat
  sstr1 : Int
  sstr2 : Int
  dstr1 : Int
  dstr2 : Int
  doff : Nat
  soff : Nat
  /-- Some reserved field is not zero. -/
  reserved : Bool
  deriving DecidableEq, Repr

/-- The card in 64 bytes. -/
def copyCard (d : Nat) : CopyCard :=
  { notBefore := field d 511 448, mcore := field d 447 432, mdie := field d 431 424, strict := flag d 423, cbv := flag d 422,
    cbn := field d 421 416, rmode := field d 415 413, scale := field d 409 402, sfmt := field d 401 398, dfmt := field d 397 394,
    transpose := flag d 392, edge1 := field d 383 368, edge0 := field d 367 352, x2 := field d 351 336, x1 := field d 335 320,
    x0 := field d 319 304, sstr1 := sextNat 32 (field d 303 272), sstr2 := sextNat 32 (field d 271 240),
    dstr1 := sextNat 32 (field d 239 208), dstr2 := sextNat 32 (field d 207 176), doff := field d 114 64, soff := field d 50 0
    reserved := field d 412 410 ≠ 0 || flag d 393 || field d 391 384 ≠ 0 || field d 175 115 ≠ 0 || field d 63 51 ≠ 0 }

/-- Element size of a card format code (R303). -/
def cardBytes : Nat → Nat
  | 0 | 7 | 8 => 1
  | 1 | 5 | 6 => 2
  | 3 => 8
  | _ => 4

/-- The float format of a card code 4 to 8 (R303). -/
def cardFmt : Nat → Fmt
  | 4 => .f32 | 5 => .bf16 | 6 => .f16 | 7 => .e5m2 | _ => .e4m3

/-- x is a multiple of n. -/
def multipleOf (x : Int) (n : Nat) : Bool := decide (x % n = 0)

/-- BAD_CARD of a copy (R303, R305, R310). -/
def badCopyCard (kind : CmdKind) (c : CopyCard) : Bool :=
  let ssz := cardBytes c.sfmt
  let dsz := cardBytes c.dfmt
  let noMulti := c.mdie = 0 && c.mcore = 0
  let noConv := c.scale = 0 && c.rmode = 0
  let ok := match kind with
    | .cpy => c.sfmt = c.dfmt && noMulti && noConv
    | .cpym => c.sfmt = c.dfmt && c.mdie ≠ 0 && c.mcore ≠ 0 && noConv
    | .cpyc => decide (4 ≤ c.sfmt) && decide (4 ≤ c.dfmt) && noMulti && c.scale ≠ 255 && decide (c.rmode ≤ 4)
    | _ => c.sfmt = 0 && c.dfmt = 0 && noMulti && noConv && decide (c.x0 ≤ 256) && c.soff = 0 && c.sstr1 = 0 && c.sstr2 = 0 && !c.transpose
  c.reserved || decide (8 < c.sfmt) || decide (8 < c.dfmt) || c.x0 = 0 || c.x1 = 0 || c.x2 = 0 || !ok
    || !(multipleOf c.soff ssz && multipleOf c.sstr1 ssz && multipleOf c.sstr2 ssz)
    || !(multipleOf c.doff dsz && multipleOf c.dstr1 dsz && multipleOf c.dstr2 dsz)

/-! ### Positions (R304) -/

/-- The interval of offsets from base over axes of (extent, step), each position with u bytes. -/
def hullN (base : Int) (axes : List (Nat × Int)) (u : Nat) : Int × Int :=
  axes.foldl (fun r a => let far := ((a.1 : Int) - 1) * a.2; (r.1 + min 0 far, r.2 + max 0 far)) (base, base + u)

/-- The destination's bytes. -/
def CopyCard.dstHull (c : CopyCard) : Int × Int :=
  let dsz := cardBytes c.dfmt
  let (u, v) := if c.transpose then (c.x1, c.x0) else (c.x0, c.x1)
  hullN c.doff [(u, dsz), (v, c.dstr1), (c.x2, c.dstr2)] dsz

/-- The source bytes that are read, where there are any. -/
def CopyCard.srcHull (c : CopyCard) : Option (Int × Int) :=
  let ssz := cardBytes c.sfmt
  let n0 := min c.x0 c.edge0
  let n1 := min c.x1 c.edge1
  if n0 = 0 ∨ n1 = 0 then none else some (hullN c.soff [(n0, ssz), (n1, c.sstr1), (c.x2, c.sstr2)] ssz)

/-- A position of a copy, or a block or an element of an assay command: where its bytes go, what it reads, and its value. -/
structure Piece where
  dst : Int
  len : Nat
  reads : List (Int × Nat) := []
  /-- The row of the queue whose position it is (R310). -/
  row : Option Nat := none
  /-- An edge position, which takes no bytes of its source (R304). -/
  edge : Bool := false
  val : Nat := 0
  deriving DecidableEq, Repr

/-- n bytes that an engine reads through a handle. -/
def State.srcBytes (s : State) (h : Handle) (off : Int) (n : Nat) : Nat := s.viewBytes h off n

/-- Convert of R309. -/
def convertElem (c : CopyCard) (seed : Word) (x idx : Nat) : Nat :=
  let md := modeOf c.rmode
  roundF md (drawFor md seed idx) (cardFmt c.dfmt) (scaleF (decodeF (cardFmt c.sfmt) x) (127 - (c.scale : Int)))

/-- Position k of a copy, axis 0 fastest (R304, R310). -/
def State.copyPiece (s : State) (x : Cmd) (c : CopyCard) (k : Nat) : Piece :=
  let ssz := cardBytes c.sfmt
  let dsz := cardBytes c.dfmt
  let i0 := k % c.x0
  let i1 := k / c.x0 % c.x1
  let i2 := k / (c.x0 * c.x1)
  let (u, v) := if c.transpose then (i1, i0) else (i0, i1)
  let dst : Int := c.doff + u * dsz + v * c.dstr1 + i2 * c.dstr2
  let n := i2 * c.x1 + i1
  if c.edge0 ≤ i0 ∨ c.edge1 ≤ i1 then
    { dst := dst, len := dsz, edge := true, row := match x.kind with
        | .cpyr _ => some n
        | _ => none }
  else
    match x.kind with
    | .cpyr _ =>
      { dst := dst, len := dsz, row := some n, val := laneOf 8 (((x.rowsIn[n]?).map (·.row.toNat)).getD 0) i0 }
    | _ =>
      let src : Int := c.soff + i0 * ssz + i1 * c.sstr1 + i2 * c.sstr2
      let raw := s.srcBytes x.hs src ssz
      { dst := dst, len := dsz, reads := [(src, ssz)], val := if x.kind = CmdKind.cpyc then convertElem c x.seed raw k else raw }

/-! ### Assay commands (R315, R316) -/

/-- The block b of row r that `qnt` makes: code bytes, scale and side entry, by j = 0, 1, 2. -/
def State.qntPiece (s : State) (x : Cmd) (md : RMode) (esc : Bool) (k : Nat) : Piece :=
  let v := viewOf (x.card % 2 ^ 512)
  let w := viewOf (x.card / 2 ^ 512)
  let nb := w.kext / 32
  let r := k / 3 / nb
  let b := k / 3 % nb
  let f := if w.fmt = 0 then MxFmt.mx4 else MxFmt.mx8
  let blk := quantiseBlock ((List.range 32).map fun j => s.viewAt v x.hs v.kext r (32 * b + j : Nat)) f md esc x.seed
    fun j => r * v.kext + 32 * b + j
  let reads := (List.range 32).flatMap fun j => s.viewReads v x.hs r (32 * b + j)
  match k % 3 with
  | 0 => { dst := (w.elemOff r (32 * b)).1, len := w.unit, reads := reads, val := packCodes (if w.fmt = 0 then 4 else 8) blk.codes }
  | 1 => { dst := w.scaleOff r b, len := 1, reads := reads, val := blk.scale }
  | _ => if w.fmt = 0 ∧ !w.noside then { dst := w.sideOff r b, len := 4, reads := reads, val := blk.entry } else { dst := 0, len := 0 }

/-- Element k of a `dqnt`. -/
def State.dqntPiece (s : State) (x : Cmd) (md : RMode) (k : Nat) : Piece :=
  let v := viewOf (x.card % 2 ^ 512)
  let w := viewOf (x.card / 2 ^ 512)
  let r := k / v.kext
  let j := k % v.kext
  { dst := (w.elemOff r j).1, len := w.unit, reads := s.viewReads v x.hs r j
    val := roundF md (drawFor md x.seed k) w.elem (s.viewElem v x.hs r j) }

/-- Number of pieces of a command that moves data. -/
def Cmd.count (x : Cmd) : Nat :=
  let c := copyCard x.card
  let v := viewOf (x.card % 2 ^ 512)
  match x.kind with
  | .cpy | .cpym | .cpyc | .cpyr _ => c.x0 * c.x1 * c.x2
  | .qnt _ _ => v.rext * (v.kext / 32) * 3
  | .dqnt _ => v.rext * v.kext
  | .stend | .sfold | .sflush | .rfold => 0

/-- Piece k of a command. -/
def State.piece (s : State) (x : Cmd) (k : Nat) : Piece :=
  match x.kind with
  | .qnt md esc => s.qntPiece x md esc k
  | .dqnt md => s.dqntPiece x md k
  | .cpy | .cpym | .cpyc | .cpyr _ | .stend | .sfold | .sflush | .rfold => s.copyPiece x (copyCard x.card) k

/-- The queue row of a piece has been taken, or there is none to take. -/
def Cmd.present (x : Cmd) (p : Piece) : Bool :=
  match p.row with
  | some n => decide (n < x.rowsIn.length)
  | none => true

/-! ### Chunks (R307, R308) -/

/-- Physical address of a destination offset. -/
def Cmd.dstPa (x : Cmd) (off : Int) : Nat := (x.hd.phys (off, off)).1.toNat

/-- First destination line of a command, in the destination that its handle names. -/
def Cmd.base (x : Cmd) : Nat :=
  let c := copyCard x.card
  match x.kind with
  | .qnt _ _ | .dqnt _ => lineOf (cover ((viewOf (x.card / 2 ^ 512)).arrays.map x.hd.span2)).1
  | _ => lineOf (x.dstPa c.dstHull.1)

/-- Lines of the destination. -/
def Cmd.lines (x : Cmd) : Nat :=
  let c := copyCard x.card
  let r := match x.kind with
    | .qnt _ _ | .dqnt _ => cover ((viewOf (x.card / 2 ^ 512)).arrays.map x.hd.span2)
    | _ => (x.dstPa c.dstHull.1, (c.dstHull.2 - c.dstHull.1).toNat)
  (r.1 + r.2 + 63) / 64 - r.1 / 64

/-- The lines that a piece touches, as numbers of the command's lines. -/
def Cmd.linesOf (x : Cmd) (p : Piece) : List Nat :=
  let a := x.dstPa p.dst
  if p.len = 0 then [] else (List.range ((a + p.len - 1) / 64 + 1 - a / 64)).map fun j => a / 64 + j - x.base / 64

/-- The pieces that write a line, from piece k0 on and round. Any piece may come last (R304). -/
def State.linePieces (s : State) (x : Cmd) (line k0 : Nat) : List Piece :=
  ((List.range x.count).map fun k => s.piece x ((k + k0) % x.count)).filter fun p => (x.linesOf p).contains line

/-- The bytes of a line that a list of pieces writes, the later over the earlier. -/
def Cmd.lineBytes (x : Cmd) (line : Nat) (l : List Piece) : List (Option Nat) :=
  (List.range 64).map fun o =>
    let pa := x.base + 64 * line + o
    l.foldl (fun a p =>
      let q := x.dstPa p.dst
      if q ≤ pa ∧ pa < q + p.len then some (p.val / 2 ^ (8 * (pa - q)) % 256) else a) none

/-- The runs of written bytes in a line: offset, length and value. -/
def byteRuns (l : List (Option Nat)) : List (Nat × Nat × Nat) :=
  (l.zipIdx.foldl (fun (a : List (Nat × Nat × Nat)) e =>
    match e.1, a with
    | some v, (o, n, x) :: rest => if o + n = e.2 then (o, n + 1, x + v * 2 ^ (8 * n)) :: rest else (e.2, 1, v) :: a
    | some v, [] => [(e.2, 1, v)]
    | none, _ => a) []).reverse

/-- Number of bytes of a chunk: the bytes of its pieces in the line (R307). -/
def Cmd.chunkLen (x : Cmd) (line : Nat) (l : List Piece) : Nat :=
  (l.map fun p =>
    let q := x.dstPa p.dst
    let lo := x.base + 64 * line
    min (q + p.len) (lo + 64) - max q lo).sum

/-- The places where a chunk's line lies: one, or the window line of every core named (R308). -/
def Cmd.places (x : Cmd) (line : Nat) : List Nat :=
  let pa := x.base + 64 * line
  match x.kind with
  | .cpym => (multicast pa 64 (copyCard x.card).mdie (copyCard x.card).mcore).map (·.1)
  | _ => [pa]

/-- The card of a copy names a count barrier. -/
def Cmd.barrier (x : Cmd) : Option Nat :=
  match x.kind with
  | .cpy | .cpym | .cpyc | .cpyr _ => if (copyCard x.card).cbv then some (copyCard x.card).cbn else none
  | _ => none

/-- An engine access of a command waits at a home or a bank, or for output rows of a job of its core (R100, R104, R113). -/
def State.cmdWaits (s : State) (x : Cmd) (pa n : Nat) (isWrite : Bool) : Bool :=
  s.chunkWaits x.die pa n isWrite (some x.id) || s.outputOn x.die x.core pa n

/-- Chunks of a command are in the hold buffer of its die (R417). -/
def State.cmdHeld (s : State) (x : Cmd) : Bool := s.heldChunks.any fun h => decide (h.cmd = some x.id)

/-- Every chunk of a command has been moved, has left the hold buffer, and has been acknowledged. -/
def State.cmdDone (s : State) (x : Cmd) : Bool :=
  x.unacked.isEmpty && !s.cmdHeld x && (List.range x.count).all fun k =>
    let p := s.piece x k
    if x.present p then (x.linesOf p).all x.moved.contains else !s.fillable x

/-- A command whose chunks have all been moved completes (R307, R310). -/
def State.settleCmd (s : State) (id : Nat) : State :=
  match s.cmds.find? fun x => x.id = id with
  | some x =>
    if x.stop.isSome then (if x.unacked.isEmpty && !s.cmdHeld x then s.endCmd x (x.stop.getD 0) else s)
    else if s.cmdDone x then
      s.endCmd x (if decide (x.rowsIn.length < x.need) then CStat.underflow.code else if x.dropped then CStat.badAddress.code else 0)
    else s
  | none => s

/-- A command stops on a fault: it completes when the chunks that are visible have been acknowledged (R307). -/
def State.stopCmd (s : State) (x : Cmd) (st : Status) : State := (s.modCmd x.id fun c => { c with stop := some st }).settleCmd x.id

/-- One chunk of a command lands at one place. -/
def State.landChunk (s : State) (x : Cmd) (place : Nat) (runs : List (Nat × Nat × Nat)) (len : Nat) : State :=
  if s.gangDrops x.launch x.die place then s
  else if isWindow place && s.onDie (paDie place) place && (s.holder place).isNone then s.modCmd x.id fun c => { c with dropped := true }
  else
    let s := runs.foldl (fun s r => s.landBytes (place + r.1) r.2.1 r.2.2 x.hd.claim) s
    match x.barrier with
    | some n =>
      if isWindow place && s.onDie (paDie place) place then
        let (s, ok) := s.countArrival (paDie place) (paCore place) n x.launch len
        if ok then s else s.modCmd x.id fun c => { c with dropped := true }
      else s
    | none => s

/-- A chunk goes to one place. The home L2 answers one that counts on a barrier with an acknowledgement (R307). -/
def State.sendChunk (s : State) (x : Cmd) (line place : Nat) (runs : List (Nat × Nat × Nat)) (len : Nat) : State :=
  let s := s.landChunk x place runs len
  if x.barrier.isSome && isHbm place then
    State.modCmd { s with sent := s.sent + 1 } x.id fun c => { c with unacked := c.unacked ++ [{ line := line, pa := place, no := s.sent }] }
  else s

/-- A chunk goes into the hold buffer of the die that issued it (R417). -/
def State.holdChunk (s : State) (x : Cmd) (line place : Nat) (runs : List (Nat × Nat × Nat)) (len : Nat) : State :=
  { s with
    sent := s.sent + 1
    heldChunks := s.heldChunks ++ [{
      no := s.sent, launch := x.launch, die := x.die, core := x.core, cmd := some x.id, pa := place, runs := runs, len := len, line := line
      claim := x.hd.claim }] }

/-- The pieces' source bytes as physical intervals. -/
def Cmd.srcPa (x : Cmd) (l : List Piece) : List (Nat × Nat) :=
  l.flatMap fun p => p.reads.map fun r => ((x.hs.phys (r.1, r.1)).1.toNat, r.2)

/-- The next chunk of a command that runs: a line of its destination, with the piece that comes first. Its die keeps the places at other
dies for a gang that it has not confirmed, where the hold buffer has room for them (R417; log 81). -/
def State.moveChunk (s : State) (x : Cmd) (line k0 : Nat) : State :=
  let l := (s.linePieces x line k0)
  let here := l.filter x.present
  let places := x.places line
  let held := places.filter (s.gangHolds x.launch x.die)
  let now := places.filter fun p => !s.gangHolds x.launch x.die p
  let runs := byteRuns (x.lineBytes line here)
  if x.moved.contains line || x.stop.isSome || here.isEmpty then s
  else if !l.all x.present && s.fillable x then s
  else if (x.srcPa here).any (fun r => s.cmdWaits x r.1 r.2 false) || now.any (fun p => s.cmdWaits x p 64 true)
      || held.any (fun p => !s.holdRoom x.launch x.die p held.length) then s
  else if here.any fun p => !p.edge && match p.row with
      | some n => ((x.rowsIn[n]?).map (·.poison)).getD false
      | none => false then s.stopCmd x CStat.poison.code
  else
    match s.firstBad x.hs (here.flatMap (·.reads)) with
    | some (.claim _) => s.stopCmd x CStat.claim.code
    | some (.poison _) => s.stopCmd x CStat.poison.code
    | none =>
      if now.any fun p => s.claimBars p x.hd.claim then s.stopCmd x CStat.claim.code
      else
        let len := x.chunkLen line here
        let s := held.foldl (fun s p => s.holdChunk x line p runs len) (now.foldl (fun s p => s.sendChunk x line p runs len) s)
        (s.modCmd x.id fun c => { c with moved := setInsert c.moved line }).settleCmd x.id

/-- A chunk of a copy leaves the hold buffer for its place (R417). -/
def State.landLine (s : State) (h : HeldChunk) (x : Cmd) : State :=
  let s := { s with heldChunks := s.heldChunks.erase h }
  if s.claimBars h.pa h.claim && !s.gangDrops h.launch h.die h.pa then s.stopCmd x CStat.claim.code
  else (s.sendChunk x h.line h.pa h.runs h.len).settleCmd x.id

/-- What the hold buffer kept under a number goes on: its gang is confirmed, and nothing keeps it on its way (R407, R417). The chunk of a
gang that was aborted is discarded (R418). -/
def State.landStep (s : State) (no : Nat) : State :=
  match s.heldChunks.find? fun h => h.no = no with
  | none => s
  | some h =>
    if s.gangHolds h.launch h.die h.pa then s
    else if !s.gangDrops h.launch h.die h.pa && s.chunkWaits h.die h.pa (if h.cmd.isSome then 64 else h.len) true h.cmd (some h.no) then s
    else
      match h.relay with
      | some e => s.landPart h e
      | none =>
        match s.cmds.find? fun c => some c.id = h.cmd with
        | some x => s.landLine h x
        | none => { s with heldChunks := s.heldChunks.erase h }

/-! ### Events of the copy engine -/

/-- Command of a task with a ticket. -/
def State.cmdOf (s : State) (t ticket : Nat) : Option Cmd := s.cmds.find? fun c => c.task = t ∧ c.ticket = ticket

/-- COPY_START: device time has reached NOTBEFORE, and the copy starts (R311). -/
def execCopyStart (t ticket : Nat) (s : State) : Host.Outcome State Fault Refusal :=
  .next (match s.cmdOf t ticket with
    | none => s
    | some c =>
      let nb := match c.kind with
        | .cpy | .cpym | .cpyc | .cpyr _ => (copyCard c.card).notBefore
        | _ => 0
      if c.started || decide (s.time c.die < nb) then s
      else
        let n := s.issued
        let m := s.sent
        { (s.modCmd c.id fun c => { c with started := true, order := n, no := m }) with issued := n + 1, sent := m + 1 })

/-- COPY_CHUNK: a chunk of a running copy becomes visible (R307). The number names the destination line, and, past the number of
lines, the position that is written first where several write one byte (R304). -/
def execCopyChunk (t ticket chunk : Nat) (s : State) : Host.Outcome State Fault Refusal :=
  .next (match s.cmdOf t ticket with
    | none => s
    | some c =>
      if !c.started || !s.stackReady c || c.count = 0 then s
      else if s.cmdDone c then s.settleCmd c.id
      else s.moveChunk c (chunk % c.lines) (chunk / c.lines))

/-- COPY_CHUNK_ACK: the home L2 acknowledges an HBM chunk, and the issuing core's barrier is decremented (R307). -/
def execCopyChunkAck (t ticket chunk : Nat) (s : State) : Host.Outcome State Fault Refusal :=
  .next (match s.cmdOf t ticket with
    | none => s
    | some c =>
      match c.unacked.find? fun a => a.line = chunk with
      | none => s
      | some a =>
      if s.responseWaits c.die a.pa a.no then s
      else
        let len := c.chunkLen chunk ((s.linePieces c chunk 0).filter c.present)
        let s := s.modCmd c.id fun c => { c with unacked := c.unacked.erase a }
        let (s, ok) := match c.barrier with
          | some n => s.countArrival c.die c.core n c.launch len
          | none => (s, true)
        (if ok then s else s.modCmd c.id fun c => { c with dropped := true }).settleCmd c.id)

/-! ### Copy instructions (R305, R306) -/

/-- Statuses of checks 5 to 8 (R306). -/
def State.copyStatus (s : State) (kind : CmdKind) (c : CopyCard) (hs hd : Handle) : Status :=
  let src := c.srcHull.toList
  let dst := c.dstHull
  let pa := (hd.span2 dst).1
  let many := decide (kind = .cpym) && isWindow pa
  let fromMem := match kind with
    | .cpyr _ => false
    | _ => true
  if badCopyCard kind c then CStat.badCard.code
  else if !s.inBounds hd [dst] || (fromMem && !s.inBounds hs src)
      || (many && (multicast pa (hd.span2 dst).2 c.mdie c.mcore).any fun r => s.reachesCarve r.1 r.2) then CStat.badBounds.code
  else if !hd.write || (fromMem && !hs.read) then CStat.badAccess.code
  else if !s.inDomain s.iss.die pa
      || (decide (kind = .cpym) && !(isWindow pa && isWindow (pa + (hd.span2 dst).2 - 1) && decide (paCore pa = paCore (pa + (hd.span2 dst).2 - 1))))
  then CStat.badAddress.code
  else 0

/-- A handle's intervals as read ranges of their stacks, where they lie in this module's HBM (R113, R307). -/
def State.hoistRanges (s : State) (l : List (Nat × Nat)) : List (Nat × Nat) :=
  l.filter fun r => isHbm r.1 && decide (paModule r.1 = s.modId s.iss.die)

/-- NOTBEFORE has passed (R311). -/
def State.passed (s : State) (nb : Nat) : Bool := decide (nb ≠ 0) && decide (nb ≤ s.time s.iss.die)

/-- A copy from its card on (R306, R311). -/
def State.startCopy (s : State) (kind : CmdKind) (a : Fin 32) (d : Nat) (hs hd : Handle) (rs rd : Nat) : Act := do
  let c := copyCard d
  let fromMem := match kind with
    | .cpyr _ => false
    | _ => true
  let bad ← s.needHandles (if fromMem then [(hs, rs), (hd, rd)] else [(hd, rd)])
  require (decide (s.scoreboardUsed s.iss.die s.iss.core < 16)) (waits .entry)
  let st := if bad then CStat.poison.code else s.copyStatus kind c hs hd
  let dst := hd.span2 c.dstHull
  let src := if fromMem then (c.srcHull.map hs.span2).toList else []
  let dsts := match kind with
    | .cpym => multicast dst.1 dst.2 c.mdie c.mcore
    | _ => [dst]
  let cmd := { Cmd.of kind d with
    hs := hs, hd := hd, srcIv := cover src, dstIv := cover dsts, reads := s.hoistRanges src
    need := if fromMem then 0 else c.x1 * c.x2 }
  let s := if st = 0 && s.passed c.notBefore then s.modMe fun t => { t with late := true } else s
  .ok (s.issueCmd a cmd st)

/-- TT_EXPIRED of a card (R306, check 2). -/
def State.expired (s : State) (nb : Nat) (strict : Bool) : Except Stop Unit :=
  require (!(strict && s.passed nb)) (raiseInfo .ttExpired nb)

/-- A copy from memory: its card, and then the rest. -/
def copyOp (kind : CmdKind) (o : CpyOp) (s : State) : Act := do
  let b ← s.srcS o.b
  let d ← s.readCard b 64
  s.expired (copyCard d).notBefore (copyCard d).strict
  s.startCopy kind o.a d (s.regH o.hs) (s.regH o.hd) o.hs.val o.hd.val

/-- `cpy` (R305). -/
def actCpy (o : CpyOp) (s : State) : Act := copyOp .cpy o s

/-- `cpy` (R305). -/
def execCpy (o : CpyOp) (s : State) : Host.Outcome State Fault Refusal := resolve s (actCpy o s)

/-- `cpym` (R305, R308). -/
def actCpym (o : CpyOp) (s : State) : Act := copyOp .cpym o s

/-- `cpym` (R305). -/
def execCpym (o : CpyOp) (s : State) : Host.Outcome State Fault Refusal := resolve s (actCpym o s)

/-- `cpyc` (R305, R309). -/
def actCpyc (o : CpyOp) (s : State) : Act := copyOp .cpyc o s

/-- `cpyc` (R305). -/
def execCpyc (o : CpyOp) (s : State) : Host.Outcome State Fault Refusal := resolve s (actCpyc o s)

/-- `cpyr` (R305, R310). -/
def actCpyr (a : Fin 32) (b : SSrc) (q : Fin 8) (hd : Fin 16) (s : State) : Act := do
  let x ← s.srcS b
  let d ← s.readCard x 64
  let c := copyCard d
  s.expired c.notBefore c.strict
  let r := s.myCore.rq q.val
  let free := (r.rows.filter fun y => y.takenBy.isNone).length - s.reserved s.iss.die s.iss.core q.val
  require (!s.rqForeign q.val && r.bound.isNone && (decide (c.x1 * c.x2 ≤ free) || s.me.drainsTo q.val)) (rqTrap q.val)
  let t ← (s.takeRq q.val).startCopy (.cpyr q.val) a d {} (s.regH hd) 0 hd.val
  .ok (t.rqStart s.issued s.iss.die s.iss.core q.val)

/-- `cpyr` (R305). -/
def execCpyr (a : Fin 32) (b : SSrc) (q : Fin 8) (hd : Fin 16) (s : State) : Host.Outcome State Fault Refusal :=
  resolve s (actCpyr a b q hd s)

/-- Every command that the task issued before the bundle with a ticket at or below a bound has completed (R313). -/
def State.ticketsDone (s : State) (b : Word) : Bool :=
  s.me.openTickets.all fun n => decide (b.toNat < n) || decide (s.iss.snap.ticket < n)

/-- The record that a report with S[B] = b collects: at or below b, or any when b is 0 (R313). -/
def Task.reported (t : Task) (b : Word) : Option Failure := t.record.filter fun f => decide (f.ticket ≤ b.toNat) || decide (b = 0)

/-- `cwait` (R313). -/
def actCwait (a : Fin 32) (b : SSrc) (s : State) : Act := do
  let x ← s.srcS b
  let t := s.me
  require (s.ticketsDone x) (waits (.tickets (min x.toNat s.iss.snap.ticket)))
  let r := t.reported x
  let sc := if t.farTickets.any fun n => decide (n ≤ x.toNat) then Scope.mod else Scope.die
  let s := s.modMe fun t => { t with
    late := false
    failures := match r with
      | some f => t.failures.filter fun y => y.ticket ≠ f.ticket
      | none => t.failures }
  .ok ((s.acquire sc s.iss.die s.iss.core).resC a (BitVec.ofNat 64 (recordWord r 0 + ofFlag t.late * 2 ^ 8)))

/-- `cwait` (R313). -/
def execCwait (a : Fin 32) (b : SSrc) (s : State) : Host.Outcome State Fault Refusal := resolve s (actCwait a b s)

/-- `cstat` (R314). -/
def actCstat (a : Fin 32) (b : SSrc) (s : State) : Act := do
  let x ← s.srcS b
  let t := s.me
  .ok (s.resC a (BitVec.ofNat 64 (recordWord t.record 8 + ofFlag t.record.isSome * 2 + ofFlag (s.ticketsDone x))))

/-- `cstat` (R314). -/
def execCstat (a : Fin 32) (b : SSrc) (s : State) : Host.Outcome State Fault Refusal := resolve s (actCstat a b s)

/-! ### Assay instructions (R315, R316) -/

/-- A descriptor refused whatever the instruction (R315). -/
def View.assayBad (v : View) : Bool := decide (v.place ≠ 0) || v.prerot || v.badField || v.badExtent

/-- The view holds BF16, FP16 or FP32. -/
def View.isFloat (v : View) : Bool := decide (2 ≤ v.fmt) && decide (v.fmt ≤ 4)

/-- Checks 6 to 8 for the arrays of two views (R306, R315). -/
def State.assayStatus (s : State) (v : View) (hs : Handle) (w : Option (View × Handle)) : Status :=
  let dst := (w.map fun p => p.1.arrays).getD []
  let hd := (w.map (·.2)).getD { write := true }
  if !s.inBounds hs v.arrays || !s.inBounds hd dst then CStat.badBounds.code
  else if !hs.read || !hd.write then CStat.badAccess.code
  else if dst.any fun r => !s.inDomain s.iss.die (hd.span2 r).1 then CStat.badAddress.code
  else 0

/-- `qnt` and `dqnt` (R315). -/
def assayOp (kind : CmdKind) (bad : View → View → Bool) (o : CpyOp) (s : State) : Act := do
  let b ← s.srcS o.b
  let d ← s.readCard b 128
  let hs := s.regH o.hs
  let hd := s.regH o.hd
  let spoiled ← s.needHandles [(hs, o.hs.val), (hd, o.hd.val)]
  require (decide (s.scoreboardUsed s.iss.die s.iss.core < 16)) (waits .entry)
  let v := viewOf (d % 2 ^ 512)
  let w := viewOf (d / 2 ^ 512)
  let st := if spoiled then CStat.poison.code
    else if v.assayBad || w.assayBad || decide (v.rext ≠ w.rext) || decide (v.kext ≠ w.kext) || bad v w then CStat.badCard.code
    else s.assayStatus v hs (some (w, hd))
  let src := v.arrays.map hs.span2
  let cmd := { Cmd.of kind d with
    hs := hs, hd := hd, srcIv := cover src, dstIv := cover (w.arrays.map hd.span2), reads := s.hoistRanges src }
  .ok (s.issueCmd o.a cmd st)

/-- `qnt` (R316). -/
def actQnt (o : CpyOp) (md : RMode) (esc : Bool) (s : State) : Act :=
  assayOp (.qnt md esc) (fun v w => !v.isFloat || !w.isMx || (w.noside && esc) || (decide (md = .rsr) && (v.tooLarge || w.tooLarge))) o s

/-- `qnt` (R316). -/
def execQnt (o : CpyOp) (md : RMode) (esc : Bool) (s : State) : Host.Outcome State Fault Refusal := resolve s (actQnt o md esc s)

/-- `dqnt` (R316). -/
def actDqnt (o : CpyOp) (md : RMode) (s : State) : Act :=
  assayOp (.dqnt md) (fun v w => !v.isMx || !w.isFloat || (decide (md = .rsr) && (v.tooLarge || w.tooLarge))) o s

/-- `dqnt` (R316). -/
def execDqnt (o : CpyOp) (md : RMode) (s : State) : Host.Outcome State Fault Refusal := resolve s (actDqnt o md s)

/-- The values of a view, row by row. -/
def State.viewValues (s : State) (v : View) (h : Handle) : List FVal :=
  (List.range v.rext).flatMap fun r => (List.range v.kext).map fun k => s.viewElem v h r k

/-- emax of a format of `qscl` (R316). -/
def qsclMax : QsclFmt → Int
  | .e4m3 => 8 | .e5m2 => 15 | .e2m1 => 2

/-- The result of `qscl` for the values of a view (R316). -/
def qsclWord (fmt : QsclFmt) (l : List FVal) : Nat :=
  if l.any fun v => isNan v || isNan (absF v) || decide (absF v = .inf false) then 0xFF + Fmt.f32.nanCode * 2 ^ 32
  else
    let top := amaxF l
    match exponentOf top with
    | none => 0
    | some x => (min (max (x - qsclMax fmt + 127) 0) 254).toNat + roundF .rne 0 .f32 top * 2 ^ 32

/-- The result of `qscl` for a status (R316). -/
def qsclBad (st : Status) : Word := BitVec.ofNat 64 (0xFF00 + st)

/-- `qscl` (R315, R316): the assay engine's value completes the bundle (R362). -/
def actQscl (a : Fin 32) (b : SSrc) (hs : Fin 16) (fmt : QsclFmt) (s : State) : Act := do
  let port := s.iss.cPort
  match smFind s.me.cReply port with
  | some v => .ok ((s.modMe fun t => { t with cReply := smErase t.cReply port }).resC a (BitVec.ofNat 64 v))
  | none =>
    let x ← s.srcS b
    let d ← s.readCard x 64
    let h := s.regH hs
    let bad ← s.needHandle h hs.val
    let v := viewOf d
    let st := if bad then CStat.poison.code else if v.assayBad || !v.isFloat then CStat.badCard.code else s.assayStatus v h none
    if st = 0 then waitsOn (.scan { port := port, desc := d, h := h, fmt := fmt, ranges := s.hoistRanges (v.arrays.map h.span2) }) .engine
    else .ok (s.resC a (qsclBad st))

/-- `qscl` (R316). -/
def execQscl (a : Fin 32) (b : SSrc) (hs : Fin 16) (fmt : QsclFmt) (s : State) : Host.Outcome State Fault Refusal :=
  resolve s (actQscl a b hs fmt s)

/-- ASSAY_SCAN_COMPLETE: the assay engine returns the value of the oldest open `qscl` to its bundle (R316, R362). -/
def execAssayScanComplete (t : Nat) (s : State) : Host.Outcome State Fault Refusal :=
  .next (match (s.task t).scans with
    | [] => s
    | x :: rest =>
      let v := viewOf x.desc
      let k := s.task t
      if ((v.arrays.map x.h.span2).any fun r => s.chunkWaits k.die r.1 r.2 false || s.outputOn k.die k.core r.1 r.2)
          || s.stackBlocked s.issued x.order false x.ranges [] then s
      else
        let w := match s.rectBad v x.h v.kext 0 0 v.rext v.kext with
          | some (.claim _) => 0xFF00 + CStat.claim.code
          | some (.poison _) => 0xFF00 + CStat.poison.code
          | none => qsclWord x.fmt (s.viewValues v x.h)
        s.modTask t fun t => { t with scans := rest, cReply := smPut t.cReply x.port w })

end Sys2Proof.Machine
end

