-- ==== Sys2Proof/Machine/Seam.lean ====
section
/-! DEFINITION. Class 0xA: seam macros (R317 to R322), the bank queues (R103), and the run of a macro (R318 to R321, R421, R422). -/

set_option Elab.async false

namespace Sys2Proof.Machine

/-! ### Operand words (R317, R318) -/

/-- A seam operand word. -/
structure SVec where
  row : Nat
  bank : Nat
  w : Nat
  /-- K as the word has it; 0 stands for w. -/
  kraw : Nat
  deriving DecidableEq, Repr

/-- The operand that a word names. -/
def svec (x : Word) : SVec :=
  { row := field x.toNat 9 0, bank := field x.toNat 14 10, w := field x.toNat 20 15 + 1, kraw := field x.toNat 26 21 }

/-- The precision K. -/
def SVec.k (v : SVec) : Nat := if v.kraw = 0 then v.w else v.kraw

/-- An operand word that the checks of R318 accept, as a source or as a destination. -/
def SVec.ok (v : SVec) (banks : Nat) (isDst : Bool) : Bool :=
  decide (v.bank < banks) && decide (v.row + v.w - 1 ≤ 1023) && decide (v.kraw ≤ v.w) && !(isDst && decide (v.kraw ≠ 0) && decide (v.kraw ≠ v.w))

/-! ### Issue (R103, R318) -/

/-- SEAM_OPERAND with the slot word (R346). -/
def State.seamTrap (s : State) {α : Type} : Except Stop α := raiseInfo .seamOperand s.iss.word

/-- Core-level number of a bank of the task's extent (R102). -/
def State.bankNo (s : State) (v : SVec) : Nat := s.me.bankBase + v.bank

/-- The waits of a macro that may be queued: the task's earlier stores (R144), and a full queue (R103). -/
def State.bankRoom (s : State) (n : Nat) : Except Stop Unit := do
  s.release
  require (decide ((s.myCore.bank n).queue.length < 4)) (waits (.bank n))

/-- A macro enters its bank's queue. -/
def State.pushMacro (s : State) (n : Nat) (m : Macro) : State :=
  let s := s.applySide (.queue n m)
  { s with iss := { s.iss with fresh := s.iss.fresh ++ [n] } }

/-- A command of the issuing core touches a bank of it (R104). -/
def State.onBank (s : State) (n : Nat) (x : Cmd) : Bool :=
  let pa := bankAddr (s.modId s.iss.die) s.iss.die s.iss.core n
  let dsts := match x.kind with
    | .cpym => multicast x.dstIv.1 x.dstIv.2 (copyCard x.card).mdie (copyCard x.card).mcore
    | _ => [x.dstIv]
  (x.srcIv :: dsts).any fun r => overlaps r.1 r.2 pa 0x20000

/-- A macro of the current task. -/
def State.macroOf (s : State) (n : Nat) (i : Instr) (a b c : Word) : Macro :=
  { task := s.iss.task, port := s.iss.cPort, instr := i, a := a, b := b, c := c
    after := (s.cmds.filter fun x => decide (x.die = s.iss.die) && decide (x.core = s.iss.core) && s.onBank n x).map (·.id) }

/-- A macro with one destination and a list of sources, all in one bank; extra is the instruction's own width rule (R318). -/
def seamOp (i : Instr) (a b c : Word) (srcs : List SVec) (extra : Bool) (s : State) : Act := do
  let dst := svec a
  let n := s.me.bankCount
  require (dst.ok n true && srcs.all (fun v => v.ok n false && decide (v.bank = dst.bank)) && extra) s.seamTrap
  s.bankRoom (s.bankNo dst)
  .ok (s.pushMacro (s.bankNo dst) (s.macroOf (s.bankNo dst) i a b c))

/-- A macro over three operand words (R319, R320). -/
def seam3 (i : Instr) (o : SeamOp) (wide1 : Bool) (s : State) : Act := do
  let a ← s.srcS o.a
  let b ← s.srcS o.b
  let c ← s.srcS o.c
  seamOp i a b c [svec b, svec c] (!wide1 || decide ((svec a).w = 1)) s

/-- `sadd` (R319). -/
def actSadd (o : SeamOp) (sat : Bool) (s : State) : Act := seam3 (.sadd o sat) o false s

/-- `sadd` (R319). -/
def execSadd (o : SeamOp) (sat : Bool) (s : State) : Host.Outcome State Fault Refusal := resolve s (actSadd o sat s)

/-- `ssub` (R319). -/
def actSsub (o : SeamOp) (sat : Bool) (s : State) : Act := seam3 (.ssub o sat) o false s

/-- `ssub` (R319). -/
def execSsub (o : SeamOp) (sat : Bool) (s : State) : Host.Outcome State Fault Refusal := resolve s (actSsub o sat s)

/-- `smul` (R319). -/
def actSmul (o : SeamOp) (s : State) : Act := seam3 (.smul o) o false s

/-- `smul` (R319). -/
def execSmul (o : SeamOp) (s : State) : Host.Outcome State Fault Refusal := resolve s (actSmul o s)

/-- `scmp` (R320). -/
def actScmp (cond : SeamCond) (o : SeamOp) (s : State) : Act := seam3 (.scmp cond o) o true s

/-- `scmp` (R320). -/
def execScmp (cond : SeamCond) (o : SeamOp) (s : State) : Host.Outcome State Fault Refusal := resolve s (actScmp cond o s)

/-- `ssel` (R320). -/
def actSsel (a b c : SSrc) (s : State) : Act := seam3 (.ssel a b c) { a := a, b := b, c := c, pred := false } false s

/-- `ssel` (R320). -/
def execSsel (a b c : SSrc) (s : State) : Host.Outcome State Fault Refusal := resolve s (actSsel a b c s)

/-- `slog` (R320): `not` has one source. -/
def actSlog (op : SeamLog) (o : SeamOp) (s : State) : Act := do
  let a ← s.srcS o.a
  let b ← s.srcS o.b
  if op = .not then seamOp (.slog op o) a b 0 [svec b] true s else seam3 (.slog op o) o false s

/-- `slog` (R320). -/
def execSlog (op : SeamLog) (o : SeamOp) (s : State) : Host.Outcome State Fault Refusal := resolve s (actSlog op o s)

/-- `scp` (R320). -/
def actScp (a b : SSrc) (pred : Bool) (s : State) : Act := do
  let x ← s.srcS a
  let y ← s.srcS b
  seamOp (.scp a b pred) x y 0 [svec y] true s

/-- `scp` (R320). -/
def execScp (a b : SSrc) (pred : Bool) (s : State) : Host.Outcome State Fault Refusal := resolve s (actScp a b pred s)

/-- `spred` (R320): A names the plane that is read. -/
def actSpred (a : SSrc) (inv : Bool) (s : State) : Act := do
  let x ← s.srcS a
  require ((svec x).ok s.me.bankCount false && decide ((svec x).w = 1)) s.seamTrap
  s.bankRoom (s.bankNo (svec x))
  .ok (s.pushMacro (s.bankNo (svec x)) (s.macroOf (s.bankNo (svec x)) (.spred a inv) x 0 0))

/-- `spred` (R320). -/
def execSpred (a : SSrc) (inv : Bool) (s : State) : Host.Outcome State Fault Refusal := resolve s (actSpred a inv s)

/-- `srow` (R320). -/
def actSrow (op : SeamRow) (o : SeamOp) (s : State) : Act := do
  let a ← s.srcS o.a
  let b ← s.srcS o.b
  let c ← s.srcS o.c
  seamOp (.srow op o) a b c [svec b, svec c] (decide ((svec a).w = 1) && decide ((svec b).w = 1) && decide ((svec c).w = 1)) s

/-- `srow` (R320). -/
def execSrow (op : SeamRow) (o : SeamOp) (s : State) : Host.Outcome State Fault Refusal := resolve s (actSrow op o s)

/-- `spop` (R320): the bank's value completes the bundle (R362). -/
def actSpop (a : Fin 32) (b : SSrc) (s : State) : Act := do
  let port := s.iss.cPort
  match smFind s.me.cReply port with
  | some v => .ok ((s.modMe fun t => { t with cReply := smErase t.cReply port }).resC a (BitVec.ofNat 64 v))
  | none =>
    let x ← s.srcS b
    let v := svec x
    let n := s.bankNo v
    require (v.ok s.me.bankCount false && decide (v.w = 1)) s.seamTrap
    s.bankRoom n
    waitsOn (.queue n (s.macroOf n (.spop a b) 0 x 0)) .engine

/-- `spop` (R320). -/
def execSpop (a : Fin 32) (b : SSrc) (s : State) : Host.Outcome State Fault Refusal := resolve s (actSpop a b s)

/-- `sld` and `sst` (R321): the operand word, the offset and the column count; the interval enters the scoreboard. -/
def seamMem (i : Instr) (a b c : SSrc) (esz : Nat) (isLoad : Bool) (s : State) : Act := do
  let x ← s.srcS a
  let o ← s.srcS b
  let l ← s.srcS c
  let v := svec x
  let e := 2 ^ esz
  require (v.ok s.me.bankCount isLoad) s.seamTrap
  require (decide (o.toNat % e = 0)) (raiseAt .misaligned (63 * 2 ^ 51 + o.toNat) (!isLoad))
  require ((decide (l = 0) || decide (o.toNat + l.toNat * e ≤ s.me.spadSize)) && decide (l.toNat ≤ 1024)) s.seamTrap
  s.bankRoom (s.bankNo v)
  require (decide (s.scoreboardUsed s.iss.die s.iss.core < 16)) (waits .entry)
  let pa := winAddr (s.modId s.iss.die) s.iss.die s.iss.core + s.me.spadBase + o.toNat
  .ok (s.pushMacro (s.bankNo v) { s.macroOf (s.bankNo v) i x o l with iv := (pa, l.toNat * e), isWrite := !isLoad })

/-- `sld` (R321). -/
def actSld (a b c : SSrc) (esz : Fin 4) (signed : Bool) (s : State) : Act := seamMem (.sld a b c esz signed) a b c esz.val true s

/-- `sld` (R321). -/
def execSld (a b c : SSrc) (esz : Fin 4) (signed : Bool) (s : State) : Host.Outcome State Fault Refusal :=
  resolve s (actSld a b c esz signed s)

/-- `sst` (R321). -/
def actSst (a b c : SSrc) (esz : Fin 4) (signed : Bool) (s : State) : Act := seamMem (.sst a b c esz signed) a b c esz.val false s

/-- `sst` (R321). -/
def execSst (a b c : SSrc) (esz : Fin 4) (signed : Bool) (s : State) : Host.Outcome State Fault Refusal :=
  resolve s (actSst a b c esz signed s)

/-- The task has macros in a bank of the core that were queued before the current bundle (R322). -/
def State.macrosLeft (s : State) (n : Nat) : Bool :=
  decide ((s.iss.fresh.filter (· = n)).length < ((s.myCore.bank n).queue.filter fun m => m.task = s.iss.task).length)

/-- `swait` (R322). -/
def actSwait (b : SSrc) (s : State) : Act := do
  let x ← s.srcS b
  let m := x.toNat % 2 ^ 32
  require ((List.range 32).all fun k => !((m = 0 || flag m k) && s.macrosLeft (s.me.bankBase + k))) (waits (.macros m))
  .ok s

/-- `swait` (R322). -/
def execSwait (b : SSrc) (s : State) : Host.Outcome State Fault Refusal := resolve s (actSwait b s)

/-! ### The run of a macro -/

/-- Address of a row of a bank (R101). -/
def State.seamRow (s : State) (d c bank r : Nat) : Nat := bankAddr (s.modId d) d c bank + r * 128

/-- The planes of a vector, plane 0 first, each as its row's 1,024 bits. -/
def State.planes (s : State) (d c bank : Nat) (v : SVec) : List Nat :=
  (List.range v.w).map fun p => s.bytes (s.seamRow d c bank (v.row + p)) 128

/-- The unsigned number of the first k planes in a column. -/
def planeBits (l : List Nat) (k j : Nat) : Nat := (l.take k).foldl (fun a p => 2 * a + p / 2 ^ j % 2) 0

/-- Val of a source in a column (R317). -/
def planeVal (l : List Nat) (k j : Nat) : Int := sextNat k (planeBits l k j)

/-- The planes of the numbers of 1,024 columns, modulo 2^w. -/
def toPlanes (w : Nat) (f : Nat → Nat) : List Nat :=
  let vals := (List.range 1024).map f
  (List.range w).map fun p => vals.foldr (fun x acc => acc * 2 + x / 2 ^ (w - 1 - p) % 2) 0

/-- The poison unit of segment g of a row (R421). -/
def State.segAddr (s : State) (d c bank r g : Nat) : Nat := s.seamRow d c bank r + 8 * g

/-- Segment g of some plane of a source is poisoned; a source reads its first k planes. -/
def State.segPoisoned (s : State) (d c bank : Nat) (v : SVec) (g : Nat) : Bool :=
  (List.range v.k).any fun p => s.poison.contains (s.segAddr d c bank (v.row + p) g)

/-- The columns of segment g in a mask of columns. -/
def segCols (mask g : Nat) : Nat := mask / 2 ^ (64 * g) % 2 ^ 64

/-- A vector written in the columns of a mask. bad says which segments come from poison: their columns are poisoned; a segment
whose 64 columns are all written from sound sources is sound (R421, R422). -/
def State.putPlanes (s : State) (d c bank : Nat) (v : SVec) (mask : Nat) (f : Nat → Nat) (bad : Nat → Bool) : State :=
  (toPlanes v.w f).zipIdx.foldl (fun s e =>
    let a := s.seamRow d c bank (v.row + e.2)
    let old := s.bytes a 128
    let new := (e.1 &&& mask) ||| (old - (old &&& mask))
    let hit := (List.range 16).filter fun g => bad g && decide (segCols mask g ≠ 0)
    let cured := (List.range 16).filter fun g => !bad g && decide (segCols mask g = 2 ^ 64 - 1)
    { s with
      mem := memWrite s.mem a 128 new
      poison := hit.foldl (fun l g => setInsert l (a + 8 * g)) (s.poison.filter fun u => !cured.any fun g => u = a + 8 * g) }) s

/-- All 1,024 columns. -/
def allCols : Nat := 2 ^ 1024 - 1

/-- The bitwise operation of `slog` on two w-bit patterns (R320). -/
def slogBits (op : SeamLog) (w x y : Nat) : Nat :=
  let full := 2 ^ w - 1
  match op with
  | .and => x &&& y
  | .or => x ||| y
  | .xor => x ^^^ y
  | .nor => full - (x ||| y)
  | .andn => x &&& (full - y)
  | .not => full - x

/-- The condition of `scmp` (R320). -/
def seamCond (c : SeamCond) (x y : Int) : Bool :=
  match c with
  | .eq => decide (x = y)
  | .ne => decide (x ≠ y)
  | .lt => decide (x < y)
  | .ge => decide (y ≤ x)

/-- The operation of `srow` on two bits (R320). -/
def srowBit (op : SeamRow) (x y : Nat) : Nat :=
  match op with
  | .and => x &&& y
  | .or => x ||| y
  | .xor => x ^^^ y
  | .nor => 1 - (x ||| y)

/-- The 64 columns of a plane segment by segment, free where the segment is poisoned (log 11). -/
def State.freePlane (s : State) (d c bank : Nat) (v : SVec) : Nat × Nat :=
  let row := s.bytes (s.seamRow d c bank v.row) 128
  (List.range 16).foldl (fun (p : Nat × Nat) g =>
    if s.segPoisoned d c bank v g then
      (p.1 + (Config.freeWord (s.freeCount + p.2)).toNat * 2 ^ (64 * g), p.2 + 1)
    else (p.1 + segCols row g * 2 ^ (64 * g), p.2)) (0, 0)

/-- Segments of the elements of `sld` that come from a poisoned line of scratchpad. -/
def State.lineBad (s : State) (pa e l g : Nat) : Bool :=
  (List.range 64).any fun k => decide (64 * g + k < l) && s.poisoned (pa + (64 * g + k) * e) e

/-- A two-source macro with the result f in every column of the mask. -/
def State.seam2 (s : State) (d c bank : Nat) (m : Macro) (pred : Bool) (f : Int → Int → Nat) : State :=
  let x := svec m.b
  let y := svec m.c
  let px := s.planes d c bank x
  let py := s.planes d c bank y
  let mask := if pred then ((s.core d c).bank bank).pred.toNat else allCols
  s.putPlanes d c bank (svec m.a) mask (fun j => f (planeVal px x.k j) (planeVal py y.k j))
    fun g => s.segPoisoned d c bank x g || s.segPoisoned d c bank y g

/-- A one-source macro. -/
def State.seam1 (s : State) (d c bank : Nat) (m : Macro) (pred : Bool) (f : Int → Nat) : State :=
  let x := svec m.b
  let px := s.planes d c bank x
  let mask := if pred then ((s.core d c).bank bank).pred.toNat else allCols
  s.putPlanes d c bank (svec m.a) mask (fun j => f (planeVal px x.k j)) fun g => s.segPoisoned d c bank x g

/-- `sst` stores column j (R321). -/
def State.seamStore (s : State) (d c bank : Nat) (m : Macro) (e : Nat) (signed : Bool) : State :=
  let v := svec m.a
  let px := s.planes d c bank v
  let bad := fun j => s.segPoisoned d c bank v (j / 64)
  let n := m.c.toNat
  let s := (List.range n).foldl (fun s j =>
    let x := if signed then wrapInt (8 * e) (planeVal px v.k j) else planeBits px v.k j % 2 ^ (8 * e)
    s.putOutside (m.iv.1 + j * e) e x) s
  { s with poison := (List.range n).foldl (fun l j => if bad j then setInsert l (lineOf (m.iv.1 + j * e)) else l) s.poison }

/-- A macro runs at its bank (R318 to R321). -/
def State.seamRun (s : State) (d c bank : Nat) (m : Macro) : State :=
  let w := (svec m.a).w
  match m.instr with
  | .sadd o sat => s.seam2 d c bank m o.pred fun x y => wrapInt w (if sat then clampInt w true (x + y) else x + y)
  | .ssub o sat => s.seam2 d c bank m o.pred fun x y => wrapInt w (if sat then clampInt w true (x - y) else x - y)
  | .smul o => s.seam2 d c bank m o.pred fun x y => wrapInt w (x * y)
  | .scmp cond o => s.seam2 d c bank m o.pred fun x y => ofFlag (seamCond cond x y)
  | .ssel _ _ _ =>
    let x := svec m.b
    let y := svec m.c
    let px := s.planes d c bank x
    let py := s.planes d c bank y
    let p := ((s.core d c).bank bank).pred
    s.putPlanes d c bank (svec m.a) allCols (fun j => wrapInt w (if p.getLsbD j then planeVal px x.k j else planeVal py y.k j))
      fun g => s.segPoisoned d c bank x g || s.segPoisoned d c bank y g
  | .slog op o =>
    if op = .not then s.seam1 d c bank m o.pred fun x => slogBits op w (wrapInt w x) 0
    else s.seam2 d c bank m o.pred fun x y => slogBits op w (wrapInt w x) (wrapInt w y)
  | .scp _ _ pred => s.seam1 d c bank m pred fun x => wrapInt w x
  | .srow op o => s.seam2 d c bank m o.pred fun x y => srowBit op (wrapInt 1 x) (wrapInt 1 y)
  | .spred _ inv =>
    let (row, n) := s.freePlane d c bank (svec m.a)
    let p := BitVec.ofNat 1024 row
    { (s.modCore d c fun x => { x with banks := smPut x.banks bank { x.bank bank with pred := if inv then ~~~p else p } }) with
      freeCount := s.freeCount + n }
  | .spop _ _ =>
    let (row, n) := s.freePlane d c bank (svec m.b)
    { (s.modTask m.task fun t => { t with cReply := smPut t.cReply m.port (popCount 1024 row) }) with freeCount := s.freeCount + n }
  | .sld _ _ _ esz signed =>
    let e := 2 ^ esz.val
    let n := m.c.toNat
    let x := fun j => s.bytes (m.iv.1 + j * e) e
    s.putPlanes d c bank (svec m.a) (2 ^ n - 1)
      (fun j => if j < n then wrapInt w (if signed then sextNat (8 * e) (x j) else (x j : Int)) else 0) (s.lineBad m.iv.1 e n)
  | .sst _ _ _ esz signed => s.seamStore d c bank m (2 ^ esz.val) signed
  | _ => s

/-- SEAM_MACRO_EXECUTE: the macro at the head of a bank's queue runs and leaves it (R103, R318). -/
def execSeamMacroExecute (d c bank : Nat) (s : State) : Host.Outcome State Fault Refusal :=
  .next (match ((s.core d c).bank bank).queue with
    | [] => s
    | m :: rest =>
      if s.cmds.any fun x => m.after.contains x.id then s
      else
        let s := s.seamRun d c bank m
        s.modCore d c fun x => { x with banks := smPut x.banks bank { x.bank bank with queue := rest } })

end Sys2Proof.Machine
end

