-- ==== Sys2Proof/Machine/RelayOps.lean ====
section
/-! DEFINITION. The relay instructions of class 0xB (R323 to R330) and the events of the relay unit. -/

set_option Elab.async false

namespace Sys2Proof.Machine

/-! ### Posting (R324, R325) -/

/-- Some reserved field of a relay card is not zero (R324). -/
def Relay.reserved (r : Relay) : Bool :=
  decide (r.fld 386 384 ≠ 0) || decide (r.fld 287 284 ≠ 0) || decide (r.fld 207 179 ≠ 0) || decide (r.fld 127 51 ≠ 0)

/-- The destination bytes that `rpost` checks, as segment offsets: ROWS × DSTRIDE of them under QUEUE (R325; log 36). -/
def Relay.dstHull (r : Relay) : Int × Int :=
  if r.kind = 2 then hull (r.fld 178 128) r.rows r.dstride r.dstride.natAbs else ((r.fld 178 128 : Int), (r.fld 178 128 + r.len : Int))

/-- The source bytes of a delivery, as segment offsets. -/
def Relay.srcHull (r : Relay) : Int × Int := ((r.soff : Int), (r.soff + r.len : Int))

/-- BAD_CARD of a relay card; the flags say whether the destination lies in one core window, and in HBM (R324, R325). -/
def Relay.badCard (r : Relay) (inWindow inHbm : Bool) : Bool :=
  r.reserved || decide (r.kind = 3)
    || (decide (r.kind = 1) && (decide (r.fld 303 288 ≤ r.fld 319 304) || decide (r.len % 4 ≠ 0) || !inHbm
          || !(decide (r.fld 390 387 = 4) || decide (r.fld 390 387 = 5))))
    || (decide (r.kind = 2) && (decide (256 < r.len) || decide (r.rows = 0) || decide (r.trig ≠ 0) || decide (r.thresh ≠ 0) || decide (r.soff ≠ 0)))
    || ((flag r.card.toNat 395 || flag r.card.toNat 393) && !inWindow)

/-- The statuses of `rpost` in the order of R306, then BUSY (R325, R110). -/
def State.rpostStatus (s : State) (r : Relay) (old : Relay) : Status :=
  let dst := r.hd.span2 r.dstHull
  let last := dst.1 + max dst.2 1 - 1
  let inWindow := isWindow dst.1 && isWindow last && decide (paCore dst.1 = paCore last)
  let fromMem := decide (r.kind ≠ 2)
  if r.badCard inWindow (isHbm dst.1 && isHbm last) then CStat.badCard.code
  else if !s.inBounds r.hd [r.dstHull] || (fromMem && !s.inBounds r.hs [r.srcHull]) then CStat.badBounds.code
  else if !r.hd.write || (fromMem && !r.hs.read) then CStat.badAccess.code
  else if !s.inDomain s.iss.die dst.1 then CStat.badAddress.code
  else if foreign old.owner s.me.launch || decide (old.state = .posted) || decide (old.state = .armed) || decide (old.state = .firing)
  then CStat.busy.code
  else 0

/-- A relay entry number (R325): above 63 is ILLEGAL_INSTRUCTION. -/
def State.entryNo (s : State) (v : Word) : Except Stop Nat :=
  if v.toNat < 64 then .ok v.toNat else raiseInfo .illegalInstruction s.iss.word

/-- `rpost` (R325). -/
def actRpost (a : Fin 32) (b c : SSrc) (hs hd : Fin 16) (s : State) : Act := do
  let x ← s.srcS b
  let n ← s.srcS c
  let e ← s.entryNo n
  let d ← s.readCard x 64
  let old := s.myCore.relay e
  let r : Relay := { state := .posted, card := BitVec.ofNat 512 d, hs := s.regH hs, hd := s.regH hd, status := old.status,
                     owner := some s.me.launch, task := s.iss.task }
  let bad ← s.needHandles (if r.kind = 2 then [(r.hd, hd.val)] else [(r.hs, hs.val), (r.hd, hd.val)])
  let st := if bad then CStat.poison.code else s.rpostStatus r old
  let s := if st = 0 then s.modRelay s.iss.die s.iss.core e fun _ => r else s
  .ok (s.resC a (BitVec.ofNat 64 st))

/-- `rpost` (R325). -/
def execRpost (a : Fin 32) (b c : SSrc) (hs hd : Fin 16) (s : State) : Host.Outcome State Fault Refusal :=
  resolve s (actRpost a b c hs hd s)

/-! ### Arming, cancelling, reading (R326, R329) -/

/-- `rarm` (R326): arming tests the entry at once. -/
def actRarm (a : Fin 32) (b : SSrc) (s : State) : Act := do
  let x ← s.srcS b
  let e ← s.entryNo x
  let r := s.myCore.relay e
  if foreign r.owner s.me.launch || decide (r.state ≠ .posted) then .ok (s.resC a (BitVec.ofNat 64 CStat.busy.code))
  else
    s.expired r.notBefore (flag r.card.toNat 394)
    s.release
    let s := (s.modRelay s.iss.die s.iss.core e fun r => { r with state := .armed, late := s.passed r.notBefore })
    .ok ((s.relayTest s.iss.die s.iss.core).resC a 0)

/-- `rarm` (R326). -/
def execRarm (a : Fin 32) (b : SSrc) (s : State) : Host.Outcome State Fault Refusal := resolve s (actRarm a b s)

/-- `rcancel` (R329, R110). -/
def actRcancel (a : Fin 32) (b : SSrc) (s : State) : Act := do
  let x ← s.srcS b
  let e ← s.entryNo x
  let r := s.myCore.relay e
  if foreign r.owner s.me.launch then .ok (s.resC a 0xF)
  else
    let s := if r.state = .posted ∨ r.state = .armed
      then s.modRelay s.iss.die s.iss.core e fun r => { r with state := .idle, status := CStat.cancelled.code } else s
    .ok (s.resC a (BitVec.ofNat 64 r.state.code))

/-- `rcancel` (R329). -/
def execRcancel (a : Fin 32) (b : SSrc) (s : State) : Host.Outcome State Fault Refusal := resolve s (actRcancel a b s)

/-- The word of `rstat` (R329). -/
def Relay.word (r : Relay) : Nat := r.doneRows % 2 ^ 16 * 2 ^ 24 + ofFlag r.late * 2 ^ 16 + r.status % 256 * 2 ^ 8 + r.state.code

/-- `rstat` (R329). -/
def actRstat (a : Fin 32) (b : SSrc) (s : State) : Act := do
  let x ← s.srcS b
  let e ← s.entryNo x
  .ok (s.resC a (BitVec.ofNat 64 (s.myCore.relay e).word))

/-- `rstat` (R329). -/
def execRstat (a : Fin 32) (b : SSrc) (s : State) : Host.Outcome State Fault Refusal := resolve s (actRstat a b s)

/-! ### Events of the relay unit -/

/-- RELAY_TIME_FIRE: a step of device time lets an armed entry fire (R326). -/
def execRelayTimeFire (d c entry : Nat) (s : State) : Host.Outcome State Fault Refusal :=
  .next (if s.relayReady d c entry then s.relayFire d c entry else s)

/-- RELAY_DELIVERY: the next part of a firing entry's delivery: the read of its source, a chunk, or its contribution to a fold
(R327, R328). -/
def execRelayDelivery (d c entry : Nat) (s : State) : Host.Outcome State Fault Refusal :=
  let r := (s.core d c).relay entry
  .next (if r.state ≠ .firing then s
    else if !r.loaded then s.relayLoad d c entry
    else if r.kind = 1 then s.relayFold d c entry
    else s.relayChunk d c entry)

end Sys2Proof.Machine
end

