-- ==== Sys2Proof/Machine/Stack.lean ====
section
/-! DEFINITION. The stack commands of class 0xB (R331 to R334): `stend`, `sfold`, `sflush`, the blocks of a tend, and the rounds and
the staging of folds (R66, R398 to R400). -/

set_option Elab.async false

namespace Sys2Proof.Machine

/-! ### Stacks, windows, staging (R398, R400) -/

/-- Module-local base of a home stack (R26, R398). -/
def stackBase (d st : Nat) : Nat := d * 2 ^ 39 + st * 0xC00000000

/-- The registers of a home stack. -/
def Die.stack (x : Die) (st : Nat) : StackRegs := smGet {} x.stackRegs st

/-- TWBASE of a tend window (R398): its reset value where it has not been written. -/
def State.twBase (s : State) (d st w : Nat) : Nat :=
  (smGet (if w = 0 then BitVec.ofNat 64 (stackBase d st) else 0) ((s.die d).stack st).twBase w).toNat

/-- TWLEN of a tend window in 64 KiB units (R398). -/
def State.twLen (s : State) (d st w : Nat) : Nat := smGet (if w = 0 then 786432 else 0) ((s.die d).stack st).twLen w

/-- All ranges lie in one stack of the module: its die and its number (R331). -/
def State.oneStack (s : State) (l : List (Nat × Nat)) : Option (Nat × Nat) :=
  (List.range 16).findSome? fun k =>
    let base := globalOf (s.modId s.iss.die) (stackBase (k / 2) (k % 2))
    if l.all fun r => inside r.1 r.2 base 0xC00000000 then some (k / 2, k % 2) else none

/-- All ranges lie in one enabled tend window of a stack (R400). -/
def State.inWindow (s : State) (d st : Nat) (l : List (Nat × Nat)) : Bool :=
  (List.range 8).any fun w =>
    decide (0 < s.twLen d st w) &&
      l.all fun r => inside r.1 r.2 (globalOf (s.modId d) (s.twBase d st w)) (s.twLen d st w * 65536)

/-- Bytes of staging of a stack: none where the area does not lie in the stack and outside every segment (R398). -/
def State.stagingBytes (s : State) (d st : Nat) : Nat :=
  let x := (s.die d).stack st
  let n := x.fstLen * 65536
  if s.areaFits d x.fstBase.toNat n (stackBase d st) 0xC00000000 then n else 0

/-- The stack of an HBM address. -/
def stackOf (pa : Nat) : Nat × Nat := (paDie pa, paStack pa)

/-- Staging bytes reserved in a stack (FSTUSED, R398). -/
def State.stagingUsed (s : State) (st : Nat × Nat) : Nat :=
  ((s.rounds.filter fun r => stackOf r.id.addr = st).map (·.reserved)).sum

/-- Bytes that a stack engine writes: no line of them is dirty in L2 (R112, R113), and the poison of units written whole is
cleared (R422). -/
def State.stackPut (s : State) (pa n v : Nat) : State :=
  { s with mem := memWrite s.mem pa n v, poison := s.poison.filter fun u => !coversUnit pa n u }

/-! ### Tend (R332) -/

/-- The five arrays of a tend card as segment offsets and lengths: main, its scales, residual, its scales, update. -/
def tendArrays (d : Nat) : List (Int × Int) :=
  let n := field d 343 320
  let u := if field d 347 344 = 5 then 2 else 4
  let iv := fun (b m : Nat) => ((b : Int), (b + m : Int))
  [iv (field d 50 0) (32 * n), iv (field d 114 64) n, iv (field d 178 128) (32 * n), iv (field d 242 192) n,
    iv (field d 306 256) (32 * n * u)]

/-- BAD_CARD of a tend card. -/
def badTendCard (d : Nat) : Bool :=
  decide (field d 511 348 ≠ 0) || decide (field d 319 307 ≠ 0) || decide (field d 255 243 ≠ 0) || decide (field d 191 179 ≠ 0)
    || decide (field d 127 115 ≠ 0) || decide (field d 63 51 ≠ 0) || !(decide (field d 347 344 = 4) || decide (field d 347 344 = 5))
    || decide (field d 343 320 = 0)

/-- Statuses of a stack command whose card is good, for the arrays that it reaches (R306, R331). -/
def State.stackStatus (s : State) (h : Handle) (arrays : List (Int × Int)) (needRead : Bool) : Status :=
  if !s.inBounds h arrays then CStat.badBounds.code
  else if !h.write || (needRead && !h.read) then CStat.badAccess.code
  else if (s.oneStack (arrays.map h.span2)).isNone then CStat.badAddress.code
  else 0

/-- `stend` (R331, R332). -/
def actStend (a : Fin 32) (b : SSrc) (h : Fin 16) (s : State) : Act := do
  let x ← s.srcS b
  let d ← s.readCard x 64
  let hd := s.regH h
  let bad ← s.needHandle hd h.val
  let arrays := tendArrays d
  let phys := arrays.map hd.span2
  let st0 := if bad then CStat.poison.code else if badTendCard d then CStat.badCard.code else s.stackStatus hd arrays true
  let st := if st0 = 0 then
      (match s.oneStack phys with
      | some (k, j) => if s.inWindow k j (phys.take 4) then 0 else CStat.badAddress.code
      | none => CStat.badAddress.code)
    else st0
  let home := (phys.headD (0, 0)).1
  require (decide (st ≠ 0) || s.holdRoom s.me.launch s.iss.die home 1) (waits .hold)
  .ok (s.issueCmd a { Cmd.of .stend d with
    hs := hd, hd := hd, started := true, reads := phys.drop 4, writes := phys.take 4, inHold := s.gangHolds s.me.launch s.iss.die home } st)

/-- `stend` (R331). -/
def execStend (a : Fin 32) (b : SSrc) (h : Fin 16) (s : State) : Host.Outcome State Fault Refusal := resolve s (actStend a b h s)

/-- An MXFP8 block at two offsets: its 32 values (R43). -/
def State.mxBlock8 (s : State) (h : Handle) (codes scale : Int) : List FVal :=
  let sc := s.viewBytes h scale 1
  (List.range 32).map fun (j : Nat) => mx8Lane (s.viewBytes h (codes + j) 1) sc

/-- The new main and residual blocks from the old values and the updates (R332). -/
def tendBlock (main res upd : List FVal) : MxBlock × MxBlock :=
  let t := ((main.zip res).zip upd).map fun p => addF .rne (addF .rne p.1.1 p.1.2) p.2
  let m := quantiseBlock t .mx8 .rne false 0 fun _ => 0
  let d := (t.zip m.codes).map fun p => addF .rne p.1 (negF (mx8Lane p.2 m.scale))
  (m, quantiseBlock d .mx8 .rne false 0 fun _ => 0)

/-- Block b of a tend is updated, or the command stops (R331, R332). -/
def State.tendStep (s : State) (c : Cmd) : State :=
  let d := c.card
  let b := c.blocks
  let h := c.hd
  let bf := decide (field d 347 344 = 5)
  let u : Nat := if bf then 2 else 4
  let mo : Int := field d 50 0 + 32 * b
  let ms : Int := field d 114 64 + b
  let ro : Int := field d 178 128 + 32 * b
  let rs : Int := field d 242 192 + b
  let uo : Int := field d 306 256 + (32 * b * u : Nat)
  match s.firstBad h [(mo, 32), (ms, 1), (ro, 32), (rs, 1), (uo, (32 * u : Nat))] with
  | some (.claim _) => s.answerCmd c CStat.claim.code
  | some (.poison _) => s.answerCmd c CStat.poison.code
  | none =>
    let upd := (List.range 32).map fun j => decodeF (if bf then .bf16 else .f32) (s.viewBytes h (uo + (j * u : Nat)) u)
    let (m, r) := tendBlock (s.mxBlock8 h mo ms) (s.mxBlock8 h ro rs) upd
    let put := fun (s : State) (o : Int) (n v : Nat) => s.stackPut (h.phys (o, o)).1.toNat n v
    let s := put (put (put (put s mo 32 (packCodes 8 m.codes)) ms 1 m.scale) ro 32 (packCodes 8 r.codes)) rs 1 r.scale
    if b + 1 < field d 343 320 then s.modCmd c.id fun x => { x with blocks := b + 1 } else s.answerCmd c 0

/-- TEND_BLOCK: the stack engine updates the next block of a tend; the number names the command in the machine's list (R332). -/
def execTendBlock (cmd : Nat) (s : State) : Host.Outcome State Fault Refusal :=
  .next (match s.cmds[cmd]? with
    | none => s
    | some c =>
      if c.kind ≠ CmdKind.stend ∨ c.answer.isSome then s
      else if s.gangDrops c.launch c.die c.target then s.endCmd c 0
      else if s.stackReady c then s.tendStep c
      else s)

/-! ### Fold cards (R333, R334) -/

/-- BAD_CARD of a fold card. -/
def badFoldCard (flush : Bool) (d : Nat) : Bool :=
  decide (field d 511 160 ≠ 0) || decide (field d 127 124 ≠ 0) || decide (field d 95 88 ≠ 0) || decide (field d 63 51 ≠ 0)
    || decide (field d 159 144 ≤ field d 143 128) || !(decide (field d 123 120 = 4) || decide (field d 123 120 = 5))
    || decide (field d 119 96 = 0) || decide (field d 87 64 % 4 ≠ 0)
    || (flush && (decide (field d 87 64 ≠ 0) || decide (field d 143 128 ≠ 0)))

/-- The row run of a fold card as segment offsets. -/
def foldRun (d : Nat) : Int × Int :=
  ((field d 50 0 : Int), (field d 50 0 + field d 119 96 * (if field d 123 120 = 5 then 2 else 4) : Int))

/-- `sfold` and `sflush` (R331, R333, R334). -/
def foldOp (flush : Bool) (a : Fin 32) (b : SSrc) (h : Fin 16) (s : State) : Act := do
  let x ← s.srcS b
  let d ← s.readCard x 64
  let hd := s.regH h
  let bad ← s.needHandle hd h.val
  let run := foldRun d
  let len := field d 119 96
  let fits := flush || decide (field d 87 64 + 4 * len ≤ s.me.spadSize)
  let st := if bad then CStat.poison.code
    else if badFoldCard flush d then CStat.badCard.code
    else if !fits then CStat.badBounds.code
    else s.stackStatus hd [run] false
  let home := (hd.span2 run).1
  let held := s.gangHolds s.me.launch s.iss.die home
  require (decide (st ≠ 0) || s.holdRoom s.me.launch s.iss.die home (if flush then 1 else (4 * len + 63) / 64)) (waits .hold)
  let id := s.issued
  let cmd := { Cmd.of (if flush then .sflush else .sfold) d with hs := hd, hd := hd, started := true, writes := [hd.span2 run] }
  let s := s.issueCmd a cmd st
  if st ≠ 0 then .ok s
  else
    let t := s.me
    .ok { s with sent := s.sent + 1, foldMsgs := s.foldMsgs ++ [{
      no := s.sent
      id := { addr := home, len := len, bf16 := decide (field d 123 120 = 5), nrank := field d 159 144 }
      launch := t.launch, det := s.myLaunch.det, cmd := some id, isFlush := flush, inHold := held
      src := winAddr (s.modId s.iss.die) s.iss.die s.iss.core + t.spadBase + field d 87 64
      part := { rank := field d 143 128, data := [], task := s.iss.task, ticket := t.live.ticket, claim := hd.claim } }] }

/-- `sfold` (R333). -/
def actSfold (a : Fin 32) (b : SSrc) (h : Fin 16) (s : State) : Act := foldOp false a b h s

/-- `sfold` (R333). -/
def execSfold (a : Fin 32) (b : SSrc) (h : Fin 16) (s : State) : Host.Outcome State Fault Refusal := resolve s (actSfold a b h s)

/-- `sflush` (R334). -/
def actSflush (a : Fin 32) (b : SSrc) (h : Fin 16) (s : State) : Act := foldOp true a b h s

/-- `sflush` (R334). -/
def execSflush (a : Fin 32) (b : SSrc) (h : Fin 16) (s : State) : Host.Outcome State Fault Refusal := resolve s (actSflush a b h s)

/-! ### Rounds (R66, R333, R399) -/

/-- What stops a fold: a line of a claim-enabled segment that is not VALUE, or a poisoned line (R331). -/
def State.foldBad (s : State) (x : FoldId) (claim : Bool) : Option Status :=
  if claim && s.claimMet x.addr x.bytes then some CStat.claim.code
  else if s.poisoned x.addr x.bytes then some CStat.poison.code
  else none

/-- The command of a contribution: that of an `sfold` or an `sflush`, or of a relay entry's delivery. -/
def State.partCmd (s : State) (p : Contribution) : Option Cmd :=
  match p.relay with
  | some (d, c, e) => s.cmds.find? fun (x : Cmd) => x.kind = .rfold ∧ x.die = d ∧ x.core = c ∧ x.card = e
  | none => s.cmdOf p.task p.ticket

/-- The stack is done with the command of a contribution. -/
def State.endPart (s : State) (p : Contribution) (st : Status) : State := ((s.partCmd p).map fun c => s.answerCmd c st).getD s

/-- A contribution ends on its own die, and does not reach its stack. -/
def State.dropPart (s : State) (p : Contribution) (st : Status) : State := ((s.partCmd p).map fun c => s.finishCmd c st).getD s

/-- Every contribution of a list ends with a status. -/
def State.endParts (s : State) (l : List Contribution) (st : Status) : State := l.foldl (fun s p => s.endPart p st) s

/-- A value is added to element i of a row (R66). -/
def State.addToRow (s : State) (x : FoldId) (i : Nat) (v : FVal) : State :=
  let pa := x.addr + i * x.size
  let f : Fmt := if x.bf16 then .bf16 else .f32
  s.stackPut pa x.size (roundF .rne 0 f (addF .rne (decodeF f (s.bytes pa x.size)) v))

/-- Values are added to a row run, one for each element. -/
def State.addRun (s : State) (x : FoldId) (v : Nat → FVal) : State := (List.range x.len).foldl (fun s i => s.addToRow x i (v i)) s

/-- Element i of rank r's contribution to a round; a rank that has not arrived is a −0 leaf (R54, R334). -/
def leafOf (l : List Contribution) (r i : Nat) : FVal :=
  match l.find? fun p => p.rank = r with
  | some p => f32 (p.data.getD i 0)
  | none => .fin true 0 0

/-- The status with which a round is applied, by a command whose segment is claim-enabled or not (R331). -/
def State.roundStatus (s : State) (x : FoldRound) (claim : Bool) : Status :=
  (s.foldBad x.id (claim || x.parts.any (·.claim))).getD CStat.ok.code

/-- A round is applied and leaves the stack; the commands of its contributions complete (R66, R333). claim says that an `sflush` applies
it through a claim-enabled segment. -/
def State.applyRound (s : State) (x : FoldRound) (claim : Bool := false) : State :=
  let s := { s with rounds := s.rounds.erase x }
  match s.foldBad x.id (claim || x.parts.any (·.claim)) with
  | some st => s.endParts x.parts st
  | none =>
    (s.addRun x.id fun i => pairTree ((List.range x.id.nrank).map fun r => leafOf x.parts r i)).endParts x.parts 0

/-- The oldest open round of an identity. -/
def State.firstRound (s : State) (x : FoldId) : Option FoldRound := s.rounds.find? fun r => r.id = x

/-- Rounds of an identity are applied in order while the oldest is full; n bounds how many (R333). -/
def State.applyFull (s : State) (x : FoldId) : Nat → State
  | 0 => s
  | n + 1 =>
    match s.firstRound x with
    | some r => if r.parts.length = x.nrank then State.applyFull (s.applyRound r) x n else s
    | none => s

/-- The message leaves the list. -/
def State.dropMsg (s : State) (m : FoldMsg) : State := { s with foldMsgs := s.foldMsgs.erase m }

/-- A contribution joins its round, opening one when its rank is in every open round of its identity and staging allows. One that has to wait
takes its place behind those that wait, in the order of arrival (R399). -/
def State.stageFold (s : State) (m : FoldMsg) : State :=
  let x := m.id
  let st := stackOf x.addr
  let need := x.len * x.nrank * 4
  match s.rounds.find? fun r => r.id = x ∧ !r.parts.any fun p => p.rank = m.part.rank with
  | some r =>
    (State.applyFull { (s.dropMsg m) with rounds := s.rounds.map fun y => if y = r then { r with parts := r.parts ++ [m.part] } else y } x
      s.rounds.length)
  | none =>
    if s.stagingBytes st.1 st.2 < need then (s.dropMsg m).endPart m.part CStat.badCard.code
    else if s.stagingBytes st.1 st.2 < s.stagingUsed st + need
        || (!m.waiting && s.foldMsgs.any fun y => y.waiting && decide (stackOf y.id.addr = st)) then
      if m.waiting then s else { (s.dropMsg m) with foldMsgs := (s.dropMsg m).foldMsgs ++ [{ m with waiting := true }] }
    else (State.applyFull { (s.dropMsg m) with rounds := s.rounds ++ [{ id := x, reserved := need, parts := [m.part] }] } x 1)

/-- The die that sent a message. -/
def State.msgDie (s : State) (m : FoldMsg) : Nat :=
  match m.part.relay with
  | some (d, _, _) => d
  | none => (s.task m.part.task).die

/-- A message that may arrive at its stack: flushed for, not behind an earlier command or another message of its rank, and free of
its gang's hold (R113, R114, R333, R417). -/
def State.mayArrive (s : State) (m : FoldMsg) (n : Nat) : Bool :=
  !(s.gangHolds m.launch (s.msgDie m) m.id.addr) && !s.linkWaits (s.msgDie m) m.id.addr
    && !s.overtakes (s.msgDie m) m.id.addr m.no
    && (match m.cmd.bind fun k => s.cmds.find? fun c => c.id = k with
      | some c => s.stackReady c
      | none => true)
    && !(s.foldMsgs.any fun y => y.waiting && decide (y.id = m.id) && decide (y.part.rank = m.part.rank) && !m.isFlush)
    && !(s.foldMsgs.take n).any (fun y => y.id = m.id && (if m.isFlush then !y.waiting else y.isFlush || y.part.rank = m.part.rank))

/-- The values of an `sfold` have yet to be read from scratchpad: they are read once, as its message arrives (log 42). -/
def FoldMsg.unread (m : FoldMsg) : Bool := m.part.relay.isNone && !m.isFlush && m.part.data.isEmpty

/-- The contribution of an `sfold` with its values read from scratchpad. -/
def State.foldData (s : State) (m : FoldMsg) : FoldMsg :=
  if m.unread then { m with part := { m.part with data := words32 (s.outerBytes m.src (4 * m.id.len)) (4 * m.id.len) } } else m

/-- FOLD_CONTRIBUTION: message n arrives at its stack: a contribution is staged or applied, an `sflush` closes the oldest round
(R333, R334). -/
def execFoldContribution (n : Nat) (s : State) : Host.Outcome State Fault Refusal :=
  .next (match s.foldMsgs[n]? with
    | none => s
    | some m =>
      if m.waiting then s
      else if s.gangDrops m.launch (s.msgDie m) m.id.addr then (s.dropMsg m).dropPart m.part 0
      else if !s.mayArrive m n then s
      else if m.isFlush then
        let s := s.dropMsg m
        match (if m.det then s.firstRound m.id else none) with
        | some r => ((s.applyRound r m.part.claim).endPart m.part (s.roundStatus r m.part.claim)).applyFull m.id s.rounds.length
        | none => s.endPart m.part 0
      else if m.unread && s.poisoned m.src (4 * m.id.len) then (s.dropMsg m).dropPart m.part CStat.poison.code
      else if s.runHeld m.id then s
      else
        let m' := s.foldData m
        let s := { s with foldMsgs := s.foldMsgs.set n m' }
        if m.det then s.stageFold m'
        else
          let s := s.dropMsg m'
          match s.foldBad m.id m.part.claim with
          | some st => s.endPart m.part st
          | none => (s.addRun m.id fun i => f32 (m'.part.data.getD i 0)).endPart m.part 0)

/-- A reserved round takes the contribution: its rank has not arrived in it (R333, R399). -/
def State.hasRound (s : State) (m : FoldMsg) : Bool := s.rounds.any fun r => decide (r.id = m.id) && !r.parts.any fun p => p.rank = m.part.rank

/-- FOLD_STAGING_TAKE: message n, held for want of staging, is taken once its round has reserved, or there is room and no other that
has to reserve waits before it (R399). -/
def execFoldStagingTake (n : Nat) (s : State) : Host.Outcome State Fault Refusal :=
  .next (match s.foldMsgs[n]? with
    | none => s
    | some m =>
      if !m.waiting || s.runHeld m.id
          || (s.foldMsgs.take n).any (fun y => y.waiting && decide (y.id = m.id) && decide (y.part.rank = m.part.rank))
          || (!s.hasRound m && (s.foldMsgs.take n).any fun y => y.waiting && decide (stackOf y.id.addr = stackOf m.id.addr)) then s
      else s.stageFold m)

end Sys2Proof.Machine
end

