-- ==== Sys2Proof/Machine/System.lean ====
section
/-! DEFINITION. Class 0xC: system registers (R201, R348), `trap`, `resume`, `abort` (R349 to R351), device time (R352) and the control
word table (R353). -/

set_option Elab.async false

namespace Sys2Proof.Machine

/-! ### System registers (R201) -/

/-- The value of a system register as it stood before the bundle; none for an unassigned number. -/
def State.sysReg (s : State) (n : Nat) : Option Word :=
  let t := s.me
  let l := s.myLaunch
  let r := s.iss.snap
  match n with
  | 0x000 => some t.key
  | 0x001 => some r.seed
  | 0x002 => some (BitVec.ofNat 64 (s.time s.iss.die))
  | 0x003 => some (BitVec.ofNat 64 s.iss.core)
  | 0x004 => some (BitVec.ofNat 64 s.iss.die)
  | 0x005 => some (BitVec.ofNat 64 (s.modId s.iss.die))
  | 0x006 => some (BitVec.ofNat 64 s.myDie.yieldLimit)
  | 0x007 => some (BitVec.ofNat 64 r.yieldCount)
  | 0x008 => some r.claimTimeout
  | 0x009 => some (BitVec.ofNat 64 r.callCount)
  | 0x00A => some (BitVec.ofNat 64 r.winBase)
  | 0x00B => some (BitVec.ofNat 64 s.myCore.carve)
  | 0x00C => some (BitVec.ofNat 64 (ofFlag l.det + l.level % 4 * 2))
  | 0x00D => some r.step
  | _ => none

/-- `mfsr` (R348). -/
def actMfsr (d : Fin 32) (n : Fin 1024) (s : State) : Act :=
  match s.sysReg n.val with
  | some v => .ok (s.resS d v)
  | none => raiseInfo .illegalInstruction s.iss.word

/-- `mfsr` (R348). -/
def execMfsr (d : Fin 32) (n : Fin 1024) (s : State) : Host.Outcome State Fault Refusal := resolve s (actMfsr d n s)

/-- `mtsr` (R348): SYS.SEED and SYS.CLAIMTIMEOUT are RW, and no other register is. -/
def actMtsr (n : Fin 1024) (a : SSrc) (s : State) : Act := do
  let v ← s.srcS a
  match n.val with
  | 0x001 => .ok (s.modLive fun r => { r with seed := v })
  | 0x008 => .ok (s.modLive fun r => { r with claimTimeout := v })
  | _ => raiseInfo .illegalInstruction s.iss.word

/-- `mtsr` (R348). -/
def execMtsr (n : Fin 1024) (a : SSrc) (s : State) : Host.Outcome State Fault Refusal := resolve s (actMtsr n a s)

/-! ### Traps by program (R349 to R351) -/

/-- `trap` (R350): USER_TRAP is raised after the bundle, once its other operations have taken effect. -/
def actTrap (n : BitVec 18) (s : State) : Act := .ok { s with iss := { s.iss with userTrap := some n.toNat, trapAt := (s.iss.slot, s.iss.half) } }

/-- `trap` (R350). -/
def execTrap (n : BitVec 18) (s : State) : Host.Outcome State Fault Refusal := resolve s (actTrap n s)

/-- `resume` (R349): the return from a handler, to the address in S25. -/
def actResume (keep : Bool) (s : State) : Act := do
  let r := s.iss.snap
  let target := (s.regS 25).toNat
  require r.hnd (raiseInfo .illegalInstruction s.iss.word)
  if r.hse then .ok (s.endTask s.iss.task Trap.softErrorUnrecovered.code true)
  else
    require (decide (target % 16 = 0)) (raiseAt .misaligned target)
    require (decide (target < s.myLaunch.codeLen)) (raiseAt .segmentViolation target)
    let s := s.resumeFrom s.iss.task keep target
    .ok { s with iss := { s.iss with taken := true, resumed := true } }

/-- `resume` (R349). -/
def execResume (keep : Bool) (s : State) : Host.Outcome State Fault Refusal := resolve s (actResume keep s)

/-- `abort` (R351): the task ends after its bundle with the status S[A][15:0]. -/
def actAbort (a : SSrc) (s : State) : Act := do
  let v ← s.srcS a
  .ok (s.endTask s.iss.task (v.toNat % 65536) false)

/-- `abort` (R351). -/
def execAbort (a : SSrc) (s : State) : Host.Outcome State Fault Refusal := resolve s (actAbort a s)

/-! ### Device time (R352) -/

/-- `time` (R352). -/
def actTime (d : Fin 32) (s : State) : Act := .ok (s.resS d (BitVec.ofNat 64 (s.time s.iss.die)))

/-- `time` (R352). -/
def execTime (d : Fin 32) (s : State) : Host.Outcome State Fault Refusal := resolve s (actTime d s)

/-- `time.unc` (R352). -/
def actTimeUnc (d : Fin 32) (s : State) : Act := .ok (s.resS d s.myDie.timeUnc)

/-- `time.unc` (R352). -/
def execTimeUnc (d : Fin 32) (s : State) : Host.Outcome State Fault Refusal := resolve s (actTimeUnc d s)

/-- `time.until` (R352). -/
def actTimeUntil (a : SSrc) (s : State) : Act := do
  let v ← s.srcS a
  if s.me.reply.isSome then .ok s.takeReply
  else if v.toNat ≤ s.time s.iss.die then .ok s
  else waitsOn .none (.timeUntil v.toNat)

/-- `time.until` (R352). -/
def execTimeUntil (a : SSrc) (s : State) : Host.Outcome State Fault Refusal := resolve s (actTimeUntil a s)

/-- TIME_UNTIL_REACHED: device time has reached the value that a waiting `time.until` named, and the wait completes (R352). -/
def execTimeUntilReached (t : Nat) (s : State) : Host.Outcome State Fault Refusal :=
  let k := s.task t
  .next (match k.stallWhy with
    | .timeUntil x =>
      if k.status = .issuing ∧ k.stallSince.isSome ∧ k.reply = none ∧ x ≤ s.time k.die
      then s.modTask t fun k => { k with reply := some (0, 0, 0) } else s
    | _ => s)

/-! ### The control word table (R353) -/

/-- `cwtld` (R353). -/
def actCwtld (d : Fin 32) (a : SSrc) (first : Fin 512) (s : State) : Act := do
  let x ← s.srcS a
  let n := (s.regS d).toNat
  let t := s.me
  let va := 63 * 2 ^ 51 + x.toNat
  let pa := winAddr (s.modId s.iss.die) s.iss.die s.iss.core + t.spadBase + x.toNat
  require (decide (x.toNat % 32 = 0)) (raiseAt .misaligned va)
  require (decide (first.val + n ≤ 512) && (decide (n = 0) || decide (x.toNat + 32 * n ≤ t.spadSize))) (raiseAt .handleBounds va)
  s.release
  require (!s.scoreboardHolds s.iss.die s.iss.core pa (32 * n) false) (waits (.board pa (32 * n) false))
  require (!s.poisoned pa (32 * n)) (raiseAt .memPoison va)
  .ok (s.modMe fun t => { t with
    cwtDirty := t.cwtDirty || decide (0 < n)
    cwt := (List.range n).foldl (fun m i => smPut m (first.val + i) (s.bytes (pa + 32 * i) 32)) t.cwt })

/-- `cwtld` (R353). -/
def execCwtld (d : Fin 32) (a : SSrc) (first : Fin 512) (s : State) : Host.Outcome State Fault Refusal :=
  resolve s (actCwtld d a first s)

end Sys2Proof.Machine
end

