-- ==== Sys2Proof/Machine/Vector.lean ====
section
/-! DEFINITION. Classes 0x5, 0x6 and 0x7 (R252 to R272), but for the pop of a result queue. -/

set_option Elab.async false

namespace Sys2Proof.Machine

/-! ### Types and rows -/

/-- The format of a floating type; integer types have none and read as FP32 here, which no caller uses. -/
def vfmt : VTy → Fmt
  | .f32 => .f32 | .bf16 => .bf16 | .f16 => .f16 | .e4m3 => .e4m3 | .e5m2 => .e5m2
  | .i32 | .n32 | .i16 | .n16 | .i8 | .n8 => .f32

/-- Signedness of an integer type. -/
def vsigned : VTy → Bool
  | .i32 | .i16 | .i8 => true
  | .f32 | .bf16 | .f16 | .e4m3 | .e5m2 | .n32 | .n16 | .n8 => false

/-- A lane of an integer type as an integer. -/
def vint (t : VTy) (x : Nat) : Int := if vsigned t then sextNat t.width x else (x : Int)

/-- Some lane of a type is inactive. -/
def someOff (t : VTy) (m : Mask) : Bool := (laneIdx t).any fun i => !active m i

/-- The destination row as it stood before the bundle: it is read, and so must not be poisoned, when some of its bytes are kept or
the operation uses them (R253, R422; log 9). -/
def State.dstRow (s : State) (d : Fin 32) (keeps : Bool) : Except Stop Row := do
  let q ← s.destV d
  if keeps then s.regV d else .ok (s.rowBefore q)

/-- The row with each active lane computed (R253). -/
def lanesOf (t : VTy) (m : Mask) (old : Row) (f : Nat → Nat) : Row :=
  rowOfLanes t.width ((laneIdx t).map fun i => if active m i then f i else laneOf t.width old.toNat i)

/-- A lane-wise instruction with two sources (R253): f takes the row number, the lane, and the lanes of A, B and D. -/
def lane2 (t : VTy) (d : Fin 32) (a b : VSrc) (m : Fin 8) (nw usesD : Bool) (f : State → Nat → Nat → Nat → Nat → Nat → Nat)
    (s : State) : Act := do
  let x ← s.srcV a
  let y ← s.srcV b
  let mk := s.regM m
  let old ← s.dstRow d (usesD || someOff t mk)
  let w := t.width
  .ok (s.resV d (lanesOf t mk old fun i =>
    f s (s.vrow d) i (laneOf w x.toNat i) (laneOf w y.toNat i) (laneOf w old.toNat i)) nw)

/-- A lane-wise instruction with one source. -/
def lane1 (t : VTy) (d : Fin 32) (a : VSrc) (m : Fin 8) (nw : Bool) (f : State → Nat → Nat → Nat → Nat) (s : State) : Act := do
  let x ← s.srcV a
  let mk := s.regM m
  let old ← s.dstRow d (someOff t mk)
  .ok (s.resV d (lanesOf t mk old fun i => f s (s.vrow d) i (laneOf t.width x.toNat i)) nw)

/-- The draw for lane i of task row q (R254). -/
def State.laneDraw (s : State) (md : RMode) (q i : Nat) : Nat := drawFor md s.iss.snap.seed (drawIndex q i)

/-- A class-0x5 instruction that rounds once (R257). -/
def float2 (o : VBinR) (usesD : Bool) (f : RMode → FVal → FVal → FVal → FVal) (s : State) : Act :=
  lane2 o.t o.d o.a o.b o.m o.nw usesD (fun s q i x y z =>
    let g := vfmt o.t
    roundF o.md (s.laneDraw o.md q i) g (f o.md (decodeF g x) (decodeF g y) (decodeF g z))) s

/-- An integer lane instruction on values in the type's signedness. -/
def int2 (o : VBin) (f : Int → Int → Int) (s : State) : Act :=
  lane2 o.t o.d o.a o.b o.m o.nw false (fun _ _ _ x y _ => wrapInt o.t.width (f (vint o.t x) (vint o.t y))) s

/-- An instruction on lane bits. -/
def bits2 (o : VBin) (f : Nat → Nat → Nat) (s : State) : Act :=
  lane2 o.t o.d o.a o.b o.m o.nw false (fun _ _ _ x y _ => f x y) s

/-- An instruction that writes a mask (R259). -/
def maskOp2 (t : VTy) (k : Fin 8) (a b : VSrc) (m : Fin 8) (nw : Bool) (f : Nat → Nat → Bool) (s : State) : Act := do
  let x ← s.srcV a
  let y ← s.srcV b
  let w := t.width
  .ok (s.resMask k (maskOf (s.regM m) (s.regM k) t.lanes fun i => f (laneOf w x.toNat i) (laneOf w y.toNat i)) nw)

/-! ### Lane values (R258 to R263) -/

/-- vmin and vmax: lt is the order of the result's choice of B. -/
def fpick (g : Fmt) (largest : Bool) (x y : Nat) : Nat :=
  let a := decodeF g x
  let b := decodeF g y
  if isNan a || isNan b then g.nanCode
  else if (if largest then ltF true a b else ltF true b a) then y else x

/-- The sign bit of a value that is not a NaN, cleared or inverted (R257, R258). -/
def fsign (g : Fmt) (invert : Bool) (x : Nat) : Nat :=
  let h := 2 ^ (g.width - 1)
  if isNan (decodeF g x) then g.nanCode
  else if invert then (if x / h % 2 = 1 then x - h else x + h) else x % h

/-- The conditions of R259. -/
def fcondHolds (c : FCond) (a b : FVal) : Bool :=
  let un := isNan a || isNan b
  match c with
  | .eq => eqF a b
  | .ne => !eqF a b
  | .lt => ltF false a b
  | .le => !un && !ltF false b a
  | .gt => ltF false b a
  | .ge => !un && !ltF false a b
  | .uo => un
  | .or => !un

/-- The class codes of R260. -/
def fclass (g : Fmt) (x : Nat) : Nat :=
  match decodeF g x with
  | .nan => 8
  | .inf n => if n then 0 else 7
  | .fin n m _ =>
    let normal := decide (2 ^ g.mbits ≤ m)
    if m = 0 then (if n then 3 else 4)
    else if n then (if normal then 1 else 2) else (if normal then 6 else 5)

/-- Convert of R263. -/
def convertLane (ts td : VTy) (md : RMode) (r : Nat) (x : Nat) : Nat :=
  if ts.isF8 then
    (if td.isF8 then roundF md r (vfmt td) (decodeF (vfmt ts) x) else toIntSat md r td.width (vsigned td) (decodeF (vfmt ts) x))
  else if td.isF8 then roundF md r (vfmt td) (ofIntF (vint ts x))
  else wrapInt td.width (clampInt td.width (vsigned td) (vint ts x))

/-! ### Dividers (R256) -/

/-- The floating divider of a V port is taken for a number of clocks; while it is busy the bundle waits. -/
def State.takeFdiv (s : State) (clocks : Nat) : Act :=
  let p := s.iss.vPort
  if (smGet {} s.myCore.fdiv p).task.isSome then waits (.fdiv p)
  else .ok (s.modMyCore fun x => { x with fdiv := smPut x.fdiv p { task := some s.iss.task, doneAt := s.clock + clocks } })

/-- The integer divider of a V port. -/
def State.takeIdiv (s : State) (clocks : Nat) : Act :=
  let p := s.iss.vPort
  if (smGet {} s.myCore.idiv p).task.isSome then waits (.idiv p)
  else .ok (s.modMyCore fun x => { x with idiv := smPut x.idiv p { task := some s.iss.task, doneAt := s.clock + clocks } })

/-- Clocks of the floating divider for a type (R256). -/
def fdivClocks (t : VTy) : Nat := if t = VTy.f32 then 26 else 16

/-- `vidiv` and `virem` (R270). -/
def vdivOp (o : VBin) (rem : Bool) (s : State) : Act := do
  let x ← s.srcV o.a
  let y ← s.srcV o.b
  let mk := s.regM o.m
  let w := o.t.width
  let q := (laneIdx o.t).foldl (fun acc i =>
    if active mk i then max acc (quotBits (divide w (vsigned o.t) (laneOf w x.toNat i) (laneOf w y.toNat i)).1) else acc) 0
  let s ← lane2 o.t o.d o.a o.b o.m o.nw false (fun _ _ _ x y _ =>
    let r := divide w (vsigned o.t) x y
    wrapInt w (if rem then r.2 else r.1)) s
  s.takeIdiv (4 + (q + 1) / 2)

/-! ### Reductions (R271, R272) -/

/-- The lanes of a row that a mask selects, ascending. -/
def picked (t : VTy) (m : Mask) (x : Row) : List Nat :=
  ((laneIdx t).filter (active m)).map fun i => laneOf t.width x.toNat i

/-- The sum of vredsum: 32 bits for bytes 0 to 3. -/
def redSum (t : VTy) (l : List Nat) : Nat :=
  if l.isEmpty then 0
  else if t.isF8 then roundF .rne 0 .f32 (pairTree (l.map (decodeF (vfmt t))))
  else wrapInt 32 ((l.map (vint t)).foldl (· + ·) 0)

/-- The extreme of vredmax and vredmin, in the type. -/
def redPick (t : VTy) (largest : Bool) (l : List Nat) : Nat :=
  match l with
  | [] => 0
  | x :: l =>
    if t.isF8 then l.foldl (fpick (vfmt t) largest) (if isNan (decodeF (vfmt t) x) then (vfmt t).nanCode else x)
    else l.foldl (fun a b => if (if largest then decide (vint t a < vint t b) else decide (vint t b < vint t a)) then b else a) x

/-- A reduction: the low n bytes of D receive the value (R271). -/
def reduce (o : VUn) (n : Nat) (f : List Nat → Nat) (s : State) : Act := do
  let x ← s.srcV o.a
  let old ← s.dstRow o.d true
  .ok (s.resV o.d (rowLow old n (f (picked o.t (s.regM o.m) x))) o.nw)

/-- The value of `vdot` in bytes 0 to 3 (R272). -/
def dotVal (t : VTy) (m : Mask) (x y : Row) (c : Nat) : Nat :=
  let g := vfmt t
  let ps := ((laneIdx t).filter (active m)).map fun i =>
    mulF (decodeF g (laneOf t.width x.toNat i)) (decodeF g (laneOf t.width y.toNat i))
  if ps.isEmpty then c else roundF .rne 0 .f32 (addF .rne (f32 c) (pairTree ps))

/-! ### Class 0x5 -/

/-- `vadd` (R257). -/
def actVadd (o : VBinR) (s : State) : Act :=
  float2 o false (fun md a b _ => addF md a b) s

/-- `vadd` (R257). -/
def execVadd (o : VBinR) (s : State) : Host.Outcome State Fault Refusal := resolve s (actVadd o s)

/-- `vsub` (R257). -/
def actVsub (o : VBinR) (s : State) : Act :=
  float2 o false (fun md a b _ => addF md a (negF b)) s

/-- `vsub` (R257). -/
def execVsub (o : VBinR) (s : State) : Host.Outcome State Fault Refusal := resolve s (actVsub o s)

/-- `vmul` (R257). -/
def actVmul (o : VBinR) (s : State) : Act :=
  float2 o false (fun _ a b _ => mulF a b) s

/-- `vmul` (R257). -/
def execVmul (o : VBinR) (s : State) : Host.Outcome State Fault Refusal := resolve s (actVmul o s)

/-- `vfma` (R257). -/
def actVfma (o : VBinR) (s : State) : Act :=
  float2 o true (fun md a b d => addF md (mulF a b) d) s

/-- `vfma` (R257). -/
def execVfma (o : VBinR) (s : State) : Host.Outcome State Fault Refusal := resolve s (actVfma o s)

/-- `vfms` (R257). -/
def actVfms (o : VBinR) (s : State) : Act :=
  float2 o true (fun md a b d => addF md (mulF a b) (negF d)) s

/-- `vfms` (R257). -/
def execVfms (o : VBinR) (s : State) : Host.Outcome State Fault Refusal := resolve s (actVfms o s)

/-- `vfnma` (R257). -/
def actVfnma (o : VBinR) (s : State) : Act :=
  float2 o true (fun md a b d => addF md d (negF (mulF a b))) s

/-- `vfnma` (R257). -/
def execVfnma (o : VBinR) (s : State) : Host.Outcome State Fault Refusal := resolve s (actVfnma o s)

/-- `vmin` (R257, R258). -/
def actVmin (o : VBin) (s : State) : Act :=
  bits2 o (fpick (vfmt o.t) false) s

/-- `vmin` (R257, R258). -/
def execVmin (o : VBin) (s : State) : Host.Outcome State Fault Refusal := resolve s (actVmin o s)

/-- `vmax` (R257, R258). -/
def actVmax (o : VBin) (s : State) : Act :=
  bits2 o (fpick (vfmt o.t) true) s

/-- `vmax` (R257, R258). -/
def execVmax (o : VBin) (s : State) : Host.Outcome State Fault Refusal := resolve s (actVmax o s)

/-- `vabs` (R257). -/
def actVabs (o : VUn) (s : State) : Act :=
  lane1 o.t o.d o.a o.m o.nw (fun _ _ _ x => fsign (vfmt o.t) false x) s

/-- `vabs` (R257). -/
def execVabs (o : VUn) (s : State) : Host.Outcome State Fault Refusal := resolve s (actVabs o s)

/-- `vneg` (R257). -/
def actVneg (o : VUn) (s : State) : Act :=
  lane1 o.t o.d o.a o.m o.nw (fun _ _ _ x => fsign (vfmt o.t) true x) s

/-- `vneg` (R257). -/
def execVneg (o : VUn) (s : State) : Host.Outcome State Fault Refusal := resolve s (actVneg o s)

/-- `vcmp` (R259). -/
def actVcmp (c : FCond) (t : VTy) (k : Fin 8) (a b : VSrc) (m : Fin 8) (nw : Bool) (s : State) : Act :=
  maskOp2 t k a b m nw (fun x y => fcondHolds c (decodeF (vfmt t) x) (decodeF (vfmt t) y)) s

/-- `vcmp` (R259). -/
def execVcmp (c : FCond) (t : VTy) (k : Fin 8) (a b : VSrc) (m : Fin 8) (nw : Bool) (s : State) : Host.Outcome State Fault Refusal := resolve s (actVcmp c t k a b m nw s)

/-- `vsel` (R257: every lane is written). -/
def actVsel (o : VBin) (s : State) : Act :=
  do
  let x ← s.srcV o.a
  let y ← s.srcV o.b
  let _ ← s.destV o.d
  let mk := s.regM o.m
  let w := o.t.width
  .ok (s.resV o.d (rowOfLanes w ((laneIdx o.t).map fun i => if active mk i then laneOf w x.toNat i else laneOf w y.toNat i)) o.nw)

/-- `vsel` (R257: every lane is written). -/
def execVsel (o : VBin) (s : State) : Host.Outcome State Fault Refusal := resolve s (actVsel o s)

/-- `vscale` (R257, R258). -/
def actVscale (o : VBinR) (s : State) : Act :=
  lane2 o.t o.d o.a o.b o.m o.nw false (fun s q i x y _ =>
    roundF o.md (s.laneDraw o.md q i) (vfmt o.t) (scaleF (decodeF (vfmt o.t) x) (sextNat o.t.width y))) s

/-- `vscale` (R257, R258). -/
def execVscale (o : VBinR) (s : State) : Host.Outcome State Fault Refusal := resolve s (actVscale o s)

/-- `vround` (R258). -/
def actVround (o : VUnR) (s : State) : Act :=
  lane1 o.t o.d o.a o.m o.nw (fun s q i x =>
    roundF .rne 0 (vfmt o.t) (roundInt o.md (s.laneDraw o.md q i) (decodeF (vfmt o.t) x))) s

/-- `vround` (R258). -/
def execVround (o : VUnR) (s : State) : Host.Outcome State Fault Refusal := resolve s (actVround o s)

/-- `vclass` (R260). -/
def actVclass (o : VUn) (s : State) : Act :=
  lane1 o.t o.d o.a o.m o.nw (fun _ _ _ x => fclass (vfmt o.t) x) s

/-- `vclass` (R260). -/
def execVclass (o : VUn) (s : State) : Host.Outcome State Fault Refusal := resolve s (actVclass o s)

/-! ### Class 0x6 -/

/-- `viadd` (R261). -/
def actViadd (o : VBinS) (s : State) : Act :=
  lane2 o.t o.d o.a o.b o.m o.nw false (fun _ _ _ x y _ =>
    let z := vint o.t x + vint o.t y
    wrapInt o.t.width (if o.sat then clampInt o.t.width (vsigned o.t) z else z)) s

/-- `viadd` (R261). -/
def execViadd (o : VBinS) (s : State) : Host.Outcome State Fault Refusal := resolve s (actViadd o s)

/-- `visub` (R261). -/
def actVisub (o : VBinS) (s : State) : Act :=
  lane2 o.t o.d o.a o.b o.m o.nw false (fun _ _ _ x y _ =>
    let z := vint o.t x - vint o.t y
    wrapInt o.t.width (if o.sat then clampInt o.t.width (vsigned o.t) z else z)) s

/-- `visub` (R261). -/
def execVisub (o : VBinS) (s : State) : Host.Outcome State Fault Refusal := resolve s (actVisub o s)

/-- `vimul` (R261). -/
def actVimul (o : VBin) (s : State) : Act :=
  int2 o (fun a b => a * b) s

/-- `vimul` (R261). -/
def execVimul (o : VBin) (s : State) : Host.Outcome State Fault Refusal := resolve s (actVimul o s)

/-- `vimulh` (R261). -/
def actVimulh (o : VBin) (s : State) : Act :=
  int2 o (fun a b => a * b / 2 ^ o.t.width) s

/-- `vimulh` (R261). -/
def execVimulh (o : VBin) (s : State) : Host.Outcome State Fault Refusal := resolve s (actVimulh o s)

/-- `vand` (R261). -/
def actVand (o : VBin) (s : State) : Act :=
  bits2 o (fun a b => a &&& b) s

/-- `vand` (R261). -/
def execVand (o : VBin) (s : State) : Host.Outcome State Fault Refusal := resolve s (actVand o s)

/-- `vor` (R261). -/
def actVor (o : VBin) (s : State) : Act :=
  bits2 o (fun a b => a ||| b) s

/-- `vor` (R261). -/
def execVor (o : VBin) (s : State) : Host.Outcome State Fault Refusal := resolve s (actVor o s)

/-- `vxor` (R261). -/
def actVxor (o : VBin) (s : State) : Act :=
  bits2 o (fun a b => a ^^^ b) s

/-- `vxor` (R261). -/
def execVxor (o : VBin) (s : State) : Host.Outcome State Fault Refusal := resolve s (actVxor o s)

/-- `vshl` (R261). -/
def actVshl (o : VBin) (s : State) : Act :=
  bits2 o (fun a b => a * 2 ^ (b % o.t.width) % 2 ^ o.t.width) s

/-- `vshl` (R261). -/
def execVshl (o : VBin) (s : State) : Host.Outcome State Fault Refusal := resolve s (actVshl o s)

/-- `vshr` (R261). -/
def actVshr (o : VBin) (s : State) : Act :=
  bits2 o (fun a b => a / 2 ^ (b % o.t.width)) s

/-- `vshr` (R261). -/
def execVshr (o : VBin) (s : State) : Host.Outcome State Fault Refusal := resolve s (actVshr o s)

/-- `vsra` (R261: the lane is read as signed whatever the type). -/
def actVsra (o : VBin) (s : State) : Act :=
  bits2 o (fun a b => wrapInt o.t.width (sextNat o.t.width a / 2 ^ (b % o.t.width))) s

/-- `vsra` (R261: the lane is read as signed whatever the type). -/
def execVsra (o : VBin) (s : State) : Host.Outcome State Fault Refusal := resolve s (actVsra o s)

/-- `vimin` (R261). -/
def actVimin (o : VBin) (s : State) : Act :=
  int2 o min s

/-- `vimin` (R261). -/
def execVimin (o : VBin) (s : State) : Host.Outcome State Fault Refusal := resolve s (actVimin o s)

/-- `vimax` (R261). -/
def actVimax (o : VBin) (s : State) : Act :=
  int2 o max s

/-- `vimax` (R261). -/
def execVimax (o : VBin) (s : State) : Host.Outcome State Fault Refusal := resolve s (actVimax o s)

/-- `vicmp` (R262). -/
def actVicmp (c : ICond) (t : VTy) (k : Fin 8) (a b : VSrc) (m : Fin 8) (nw : Bool) (s : State) : Act :=
  maskOp2 t k a b m nw (icondHolds c t.width (vsigned t)) s

/-- `vicmp` (R262). -/
def execVicmp (c : ICond) (t : VTy) (k : Fin 8) (a b : VSrc) (m : Fin 8) (nw : Bool) (s : State) : Host.Outcome State Fault Refusal := resolve s (actVicmp c t k a b m nw s)

/-- `vcvt` (R263). -/
def actVcvt (o : VUnR) (ts : VTy) (p : Fin 4) (s : State) : Act :=
  do
  let x ← s.srcV o.a
  let mk := s.regM o.m
  let td := o.t
  let n := min td.lanes ts.lanes
  let src := fun (j : Nat) =>
    if ts.lanes < td.lanes then (if p.val * n ≤ j ∧ j < p.val * n + n then some (j - p.val * n) else none)
    else some (p.val * n + j)
  let old ← s.dstRow o.d ((laneIdx td).any fun j => !active mk j || (src j).isNone)
  .ok (s.resV o.d (lanesOf td mk old fun j =>
    match src j with
    | some i => convertLane ts td o.md (s.laneDraw o.md (s.vrow o.d) j) (laneOf ts.width x.toNat i)
    | none => laneOf td.width old.toNat j) o.nw)

/-- `vcvt` (R263). -/
def execVcvt (o : VUnR) (ts : VTy) (p : Fin 4) (s : State) : Host.Outcome State Fault Refusal := resolve s (actVcvt o ts p s)

/-- `vbcast` (R264). -/
def actVbcast (t : VTy) (d : Fin 32) (a : SSrc) (m : Fin 8) (nw : Bool) (s : State) : Act :=
  do
  let v ← s.srcS a
  let mk := s.regM m
  let old ← s.dstRow d (someOff t mk)
  .ok (s.resV d (lanesOf t mk old fun _ => v.toNat % 2 ^ t.width) nw)

/-- `vbcast` (R264). -/
def execVbcast (t : VTy) (d : Fin 32) (a : SSrc) (m : Fin 8) (nw : Bool) (s : State) : Host.Outcome State Fault Refusal := resolve s (actVbcast t d a m nw s)

/-- `vperm` (R264). -/
def actVperm (o : VBin) (s : State) : Act :=
  do
  let x ← s.srcV o.a
  lane2 o.t o.d o.a o.b o.m o.nw false (fun _ _ _ _ y _ => laneOf o.t.width x.toNat (y % o.t.lanes)) s

/-- `vperm` (R264). -/
def execVperm (o : VBin) (s : State) : Host.Outcome State Fault Refusal := resolve s (actVperm o s)

/-- `vlrot` (R264). -/
def actVlrot (t : VTy) (d : Fin 32) (a : VSrc) (b : SSrc) (m : Fin 8) (nw : Bool) (s : State) : Act :=
  do
  let x ← s.srcV a
  let k ← s.srcS b
  lane1 t d a m nw (fun _ _ i _ => laneOf t.width x.toNat ((i + k.toNat) % t.lanes)) s

/-- `vlrot` (R264). -/
def execVlrot (t : VTy) (d : Fin 32) (a : VSrc) (b : SSrc) (m : Fin 8) (nw : Bool) (s : State) : Host.Outcome State Fault Refusal := resolve s (actVlrot t d a b m nw s)

/-- `vext` (R264). -/
def actVext (t : VTy) (d : Fin 32) (a : VSrc) (b : SSrc) (nw : Bool) (s : State) : Act :=
  do
  let x ← s.srcV a
  let k ← s.srcS b
  let v := laneOf t.width x.toNat (k.toNat % t.lanes)
  .ok (s.resVS d (if vsigned t then BitVec.ofInt 64 (sextNat t.width v) else BitVec.ofNat 64 v) nw)

/-- `vext` (R264). -/
def execVext (t : VTy) (d : Fin 32) (a : VSrc) (b : SSrc) (nw : Bool) (s : State) : Host.Outcome State Fault Refusal := resolve s (actVext t d a b nw s)

/-- `vins` (R264). -/
def actVins (t : VTy) (d : Fin 32) (a b : SSrc) (nw : Bool) (s : State) : Act :=
  do
  let v ← s.srcS a
  let k ← s.srcS b
  let old ← s.dstRow d true
  let w := t.width
  .ok (s.resV d (rowOfLanes w ((laneIdx t).map fun i =>
    if i = k.toNat % t.lanes then v.toNat % 2 ^ w else laneOf w old.toNat i)) nw)

/-- `vins` (R264). -/
def execVins (t : VTy) (d : Fin 32) (a b : SSrc) (nw : Bool) (s : State) : Host.Outcome State Fault Refusal := resolve s (actVins t d a b nw s)

/-- `vmask` (R265). -/
def actVmask (op : MaskOp) (d : Fin 8) (nw : Bool) (s : State) : Act :=
  match op with
  | .and a b => .ok (s.resMask d (s.regM a &&& s.regM b) nw)
  | .or a b => .ok (s.resMask d (s.regM a ||| s.regM b) nw)
  | .xor a b => .ok (s.resMask d (s.regM a ^^^ s.regM b) nw)
  | .andn a b => .ok (s.resMask d (s.regM a &&& ~~~(s.regM b)) nw)
  | .not a => .ok (s.resMask d (~~~(s.regM a)) nw)
  | .first a => do
    let v ← s.srcS a
    .ok (s.resMask d (BitVec.ofNat 256 (2 ^ min v.toNat 256 - 1)) nw)

/-- `vmask` (R265). -/
def execVmask (op : MaskOp) (d : Fin 8) (nw : Bool) (s : State) : Host.Outcome State Fault Refusal := resolve s (actVmask op d nw s)

/-- `vmcnt` (R265). -/
def actVmcnt (t : VTy) (d : Fin 32) (a : Fin 8) (nw : Bool) (s : State) : Act :=
  .ok (s.resVS d (BitVec.ofNat 64 (popCount t.lanes (s.regM a).toNat)) nw)

/-- `vmcnt` (R265). -/
def execVmcnt (t : VTy) (d : Fin 32) (a : Fin 8) (nw : Bool) (s : State) : Host.Outcome State Fault Refusal := resolve s (actVmcnt t d a nw s)

/-- `vwin` (R267). -/
def actVwin (a : SSrc) (s : State) : Act :=
  do
  let v ← s.srcS a
  require (decide (v.toNat % 32 = 0) && decide (v.toNat + 32 ≤ s.me.rowCount)) (raiseInfo .handleBounds v.toNat)
  .ok (s.modLive fun r => { r with winBase := v.toNat })

/-- `vwin` (R267). -/
def execVwin (a : SSrc) (s : State) : Host.Outcome State Fault Refusal := resolve s (actVwin a s)

/-- `vmov` (R264). -/
def actVmov (o : VUn) (s : State) : Act :=
  lane1 o.t o.d o.a o.m o.nw (fun _ _ _ x => x) s

/-- `vmov` (R264). -/
def execVmov (o : VUn) (s : State) : Host.Outcome State Fault Refusal := resolve s (actVmov o s)

/-! ### Class 0x7 -/

/-- `vrcp.a` (R268). -/
def actVrcpA (o : VUn) (s : State) : Act :=
  lane1 .f32 o.d o.a o.m o.nw (fun _ _ _ x => rcpA x) s

/-- `vrcp.a` (R268). -/
def execVrcpA (o : VUn) (s : State) : Host.Outcome State Fault Refusal := resolve s (actVrcpA o s)

/-- `vrsq.a` (R268). -/
def actVrsqA (o : VUn) (s : State) : Act :=
  lane1 .f32 o.d o.a o.m o.nw (fun _ _ _ x => rsqA x) s

/-- `vrsq.a` (R268). -/
def execVrsqA (o : VUn) (s : State) : Host.Outcome State Fault Refusal := resolve s (actVrsqA o s)

/-- `vexp2.a` (R268). -/
def actVexp2A (o : VUn) (s : State) : Act :=
  lane1 .f32 o.d o.a o.m o.nw (fun _ _ _ x => exp2A x) s

/-- `vexp2.a` (R268). -/
def execVexp2A (o : VUn) (s : State) : Host.Outcome State Fault Refusal := resolve s (actVexp2A o s)

/-- `vlog2.a` (R268). -/
def actVlog2A (o : VUn) (s : State) : Act :=
  lane1 .f32 o.d o.a o.m o.nw (fun _ _ _ x => log2A x) s

/-- `vlog2.a` (R268). -/
def execVlog2A (o : VUn) (s : State) : Host.Outcome State Fault Refusal := resolve s (actVlog2A o s)

/-- `vdiv` (R269). -/
def actVdiv (o : VBinR) (s : State) : Act :=
  do
  let s ← float2 o false (fun _ a b _ => divF a b) s
  s.takeFdiv (fdivClocks o.t)

/-- `vdiv` (R269). -/
def execVdiv (o : VBinR) (s : State) : Host.Outcome State Fault Refusal := resolve s (actVdiv o s)

/-- `vsqrt` (R269). -/
def actVsqrt (o : VUnR) (s : State) : Act :=
  do
  let s ← lane1 o.t o.d o.a o.m o.nw (fun s q i x =>
    roundF o.md (s.laneDraw o.md q i) (vfmt o.t) (sqrtF (decodeF (vfmt o.t) x))) s
  s.takeFdiv (fdivClocks o.t)

/-- `vsqrt` (R269). -/
def execVsqrt (o : VUnR) (s : State) : Host.Outcome State Fault Refusal := resolve s (actVsqrt o s)

/-- `vidiv` (R270). -/
def actVidiv (o : VBin) (s : State) : Act :=
  vdivOp o false s

/-- `vidiv` (R270). -/
def execVidiv (o : VBin) (s : State) : Host.Outcome State Fault Refusal := resolve s (actVidiv o s)

/-- `virem` (R270). -/
def actVirem (o : VBin) (s : State) : Act :=
  vdivOp o true s

/-- `virem` (R270). -/
def execVirem (o : VBin) (s : State) : Host.Outcome State Fault Refusal := resolve s (actVirem o s)

/-- `vredsum` (R271). -/
def actVredsum (o : VUn) (s : State) : Act :=
  reduce o 4 (redSum o.t) s

/-- `vredsum` (R271). -/
def execVredsum (o : VUn) (s : State) : Host.Outcome State Fault Refusal := resolve s (actVredsum o s)

/-- `vredmax` (R271). -/
def actVredmax (o : VUn) (s : State) : Act :=
  reduce o (o.t.width / 8) (redPick o.t true) s

/-- `vredmax` (R271). -/
def execVredmax (o : VUn) (s : State) : Host.Outcome State Fault Refusal := resolve s (actVredmax o s)

/-- `vredmin` (R271). -/
def actVredmin (o : VUn) (s : State) : Act :=
  reduce o (o.t.width / 8) (redPick o.t false) s

/-- `vredmin` (R271). -/
def execVredmin (o : VUn) (s : State) : Host.Outcome State Fault Refusal := resolve s (actVredmin o s)

/-- `vdot` (R272). -/
def actVdot (o : VBin) (s : State) : Act :=
  do
  let x ← s.srcV o.a
  let y ← s.srcV o.b
  let old ← s.dstRow o.d true
  .ok (s.resV o.d (rowLow old 4 (dotVal o.t (s.regM o.m) x y (old.toNat % 2 ^ 32))) o.nw)

/-- `vdot` (R272). -/
def execVdot (o : VBin) (s : State) : Host.Outcome State Fault Refusal := resolve s (actVdot o s)

/-- VECTOR_DIVIDE_COMPLETE: a divider of a V port finishes and is free (R256, R270). -/
def execVectorDivideComplete (d c port : Nat) (int : Bool) (s : State) : Host.Outcome State Fault Refusal :=
  let x := s.core d c
  let v := if int then smGet {} x.idiv port else smGet {} x.fdiv port
  .next (if v.task.isSome && decide (v.doneAt ≤ s.clock) then
    (if int then s.modCore d c fun x => { x with idiv := smErase x.idiv port }
     else s.modCore d c fun x => { x with fdiv := smErase x.fdiv port })
  else s)

end Sys2Proof.Machine
end

