-- ==== Sys2Proof/Machine/Act.lean ====
section
/-! DEFINITION. The encoded instructions side by side: the effect of each, the latches that it reads, the register that it writes
back, its port and whether it commits (R192, R196, R197, R337). -/

set_option Elab.async false

namespace Sys2Proof.Machine

/-- The effect of an instruction of a bundle. A short pair is expanded before (R190); an event is no instruction of a bundle. -/
def actOf (i : Instr) (s : State) : Act :=
  match i with
  | .add o => Sys2Proof.Machine.actAdd o s
  | .sub o => Sys2Proof.Machine.actSub o s
  | .mul o => Sys2Proof.Machine.actMul o s
  | .mulhI o => Sys2Proof.Machine.actMulhI o s
  | .mulhN o => Sys2Proof.Machine.actMulhN o s
  | .and o => Sys2Proof.Machine.actAnd o s
  | .or o => Sys2Proof.Machine.actOr o s
  | .xor o => Sys2Proof.Machine.actXor o s
  | .andn o => Sys2Proof.Machine.actAndn o s
  | .shl o => Sys2Proof.Machine.actShl o s
  | .shr o => Sys2Proof.Machine.actShr o s
  | .sra o => Sys2Proof.Machine.actSra o s
  | .minI o => Sys2Proof.Machine.actMinI o s
  | .maxI o => Sys2Proof.Machine.actMaxI o s
  | .minN o => Sys2Proof.Machine.actMinN o s
  | .maxN o => Sys2Proof.Machine.actMaxN o s
  | .cmp cond p a b nw g => Sys2Proof.Machine.actCmp cond p a b nw g s
  | .sel o k => Sys2Proof.Machine.actSel o k s
  | .clz o => Sys2Proof.Machine.actClz o s
  | .ctz o => Sys2Proof.Machine.actCtz o s
  | .popc o => Sys2Proof.Machine.actPopc o s
  | .bfx o => Sys2Proof.Machine.actBfx o s
  | .bfi o e => Sys2Proof.Machine.actBfi o e s
  | .mov o => Sys2Proof.Machine.actMov o s
  | .divI o => Sys2Proof.Machine.actDivI o s
  | .divN o => Sys2Proof.Machine.actDivN o s
  | .remI o => Sys2Proof.Machine.actRemI o s
  | .remN o => Sys2Proof.Machine.actRemN o s
  | .addi o => Sys2Proof.Machine.actAddi o s
  | .andi o => Sys2Proof.Machine.actAndi o s
  | .ori o => Sys2Proof.Machine.actOri o s
  | .xori o => Sys2Proof.Machine.actXori o s
  | .shli d a n => Sys2Proof.Machine.actShli d a n s
  | .shri d a n => Sys2Proof.Machine.actShri d a n s
  | .srai d a n => Sys2Proof.Machine.actSrai d a n s
  | .cmpi cond p a imm => Sys2Proof.Machine.actCmpi cond p a imm s
  | .movi d imm => Sys2Proof.Machine.actMovi d imm s
  | .movhi o => Sys2Proof.Machine.actMovhi o s
  | .vaddr d a g => Sys2Proof.Machine.actVaddr d a g s
  | .nop => Sys2Proof.Machine.actNop s
  | .br d => Sys2Proof.Machine.actBr d s
  | .brc p neg d => Sys2Proof.Machine.actBrc p neg d s
  | .brz a d => Sys2Proof.Machine.actBrz a d s
  | .brnz a d => Sys2Proof.Machine.actBrnz a d s
  | .call l d => Sys2Proof.Machine.actCall l d s
  | .ret a => Sys2Proof.Machine.actRet a s
  | .jmpr a n => Sys2Proof.Machine.actJmpr a n s
  | .loop a pre stages len => Sys2Proof.Machine.actLoop a pre stages len s
  | .lbreak p => Sys2Proof.Machine.actLbreak p s
  | .spawn a named core entry => Sys2Proof.Machine.actSpawn a named core entry s
  | .done => Sys2Proof.Machine.actDone s
  | .ld o => Sys2Proof.Machine.actLd o s
  | .st o => Sys2Proof.Machine.actSt o s
  | .ldv o => Sys2Proof.Machine.actLdv o s
  | .stv o => Sys2Proof.Machine.actStv o s
  | .xlat ro d h x imm => Sys2Proof.Machine.actXlat ro d h x imm s
  | .hchk sel d h => Sys2Proof.Machine.actHchk sel d h s
  | .hdrop h => Sys2Proof.Machine.actHdrop h s
  | .hmov hd hs => Sys2Proof.Machine.actHmov hd hs s
  | .pf sz hint h x imm => Sys2Proof.Machine.actPf sz hint h x imm s
  | .phase n => Sys2Proof.Machine.actPhase n s
  | .amo op w32 ord sc d m => Sys2Proof.Machine.actAmo op w32 ord sc d m s
  | .cas w32 ord sc d m e => Sys2Proof.Machine.actCas w32 ord sc d m e s
  | .famo op ty sc m d => Sys2Proof.Machine.actFamo op ty sc m d s
  | .fence mode sc => Sys2Proof.Machine.actFence mode sc s
  | .stake m d => Sys2Proof.Machine.actStake m d s
  | .settle m d => Sys2Proof.Machine.actSettle m d s
  | .ctag d m => Sys2Proof.Machine.actCtag d m s
  | .unstake m => Sys2Proof.Machine.actUnstake m s
  | .crewJoin n => Sys2Proof.Machine.actCrewJoin n s
  | .crewLeave n => Sys2Proof.Machine.actCrewLeave n s
  | .crewSync n close => Sys2Proof.Machine.actCrewSync n close s
  | .cbArm n a => Sys2Proof.Machine.actCbArm n a s
  | .cbWait n sc => Sys2Proof.Machine.actCbWait n sc s
  | .cbAdd n a => Sys2Proof.Machine.actCbAdd n a s
  | .cbRead d n => Sys2Proof.Machine.actCbRead d n s
  | .stepCommit a => Sys2Proof.Machine.actStepCommit a s
  | .atmClose wait sc => Sys2Proof.Machine.actAtmClose wait sc s
  | .vadd o => Sys2Proof.Machine.actVadd o s
  | .vsub o => Sys2Proof.Machine.actVsub o s
  | .vmul o => Sys2Proof.Machine.actVmul o s
  | .vfma o => Sys2Proof.Machine.actVfma o s
  | .vfms o => Sys2Proof.Machine.actVfms o s
  | .vfnma o => Sys2Proof.Machine.actVfnma o s
  | .vmin o => Sys2Proof.Machine.actVmin o s
  | .vmax o => Sys2Proof.Machine.actVmax o s
  | .vabs o => Sys2Proof.Machine.actVabs o s
  | .vneg o => Sys2Proof.Machine.actVneg o s
  | .vcmp cond t k a b m nw => Sys2Proof.Machine.actVcmp cond t k a b m nw s
  | .vsel o => Sys2Proof.Machine.actVsel o s
  | .vscale o => Sys2Proof.Machine.actVscale o s
  | .vround o => Sys2Proof.Machine.actVround o s
  | .vclass o => Sys2Proof.Machine.actVclass o s
  | .viadd o => Sys2Proof.Machine.actViadd o s
  | .visub o => Sys2Proof.Machine.actVisub o s
  | .vimul o => Sys2Proof.Machine.actVimul o s
  | .vimulh o => Sys2Proof.Machine.actVimulh o s
  | .vand o => Sys2Proof.Machine.actVand o s
  | .vor o => Sys2Proof.Machine.actVor o s
  | .vxor o => Sys2Proof.Machine.actVxor o s
  | .vshl o => Sys2Proof.Machine.actVshl o s
  | .vshr o => Sys2Proof.Machine.actVshr o s
  | .vsra o => Sys2Proof.Machine.actVsra o s
  | .vimin o => Sys2Proof.Machine.actVimin o s
  | .vimax o => Sys2Proof.Machine.actVimax o s
  | .vicmp cond t k a b m nw => Sys2Proof.Machine.actVicmp cond t k a b m nw s
  | .vcvt o ts p => Sys2Proof.Machine.actVcvt o ts p s
  | .vbcast t d a m nw => Sys2Proof.Machine.actVbcast t d a m nw s
  | .vperm o => Sys2Proof.Machine.actVperm o s
  | .vlrot t d a b m nw => Sys2Proof.Machine.actVlrot t d a b m nw s
  | .vext t d a b nw => Sys2Proof.Machine.actVext t d a b nw s
  | .vins t d a b nw => Sys2Proof.Machine.actVins t d a b nw s
  | .vmask op d nw => Sys2Proof.Machine.actVmask op d nw s
  | .vmcnt t d a nw => Sys2Proof.Machine.actVmcnt t d a nw s
  | .vpop d q nw => Sys2Proof.Machine.actVpop d q nw s
  | .vwin a => Sys2Proof.Machine.actVwin a s
  | .vmov o => Sys2Proof.Machine.actVmov o s
  | .vrcpA o => Sys2Proof.Machine.actVrcpA o s
  | .vrsqA o => Sys2Proof.Machine.actVrsqA o s
  | .vexp2A o => Sys2Proof.Machine.actVexp2A o s
  | .vlog2A o => Sys2Proof.Machine.actVlog2A o s
  | .vdiv o => Sys2Proof.Machine.actVdiv o s
  | .vsqrt o => Sys2Proof.Machine.actVsqrt o s
  | .vidiv o => Sys2Proof.Machine.actVidiv o s
  | .virem o => Sys2Proof.Machine.actVirem o s
  | .vredsum o => Sys2Proof.Machine.actVredsum o s
  | .vredmax o => Sys2Proof.Machine.actVredmax o s
  | .vredmin o => Sys2Proof.Machine.actVredmin o s
  | .vdot o => Sys2Proof.Machine.actVdot o s
  | .mshape fmt a b c => Sys2Proof.Machine.actMshape fmt a b c s
  | .mcfg level drain o => Sys2Proof.Machine.actMcfg level drain o s
  | .mopnd isB a b h => Sys2Proof.Machine.actMopnd isB a b h s
  | .mrot o => Sys2Proof.Machine.actMrot o s
  | .mprof p => Sys2Proof.Machine.actMprof p s
  | .mdrain a b c => Sys2Proof.Machine.actMdrain a b c s
  | .mgo => Sys2Proof.Machine.actMgo s
  | .mwait => Sys2Proof.Machine.actMwait s
  | .mstat a => Sys2Proof.Machine.actMstat a s
  | .mzero b c => Sys2Proof.Machine.actMzero b c s
  | .rqbind q b bind => Sys2Proof.Machine.actRqbind q b bind s
  | .cpy o => Sys2Proof.Machine.actCpy o s
  | .cpym o => Sys2Proof.Machine.actCpym o s
  | .cpyc o => Sys2Proof.Machine.actCpyc o s
  | .cpyr a b q hd => Sys2Proof.Machine.actCpyr a b q hd s
  | .cwait a b => Sys2Proof.Machine.actCwait a b s
  | .cstat a b => Sys2Proof.Machine.actCstat a b s
  | .qnt o md esc => Sys2Proof.Machine.actQnt o md esc s
  | .qscl a b hs fmt => Sys2Proof.Machine.actQscl a b hs fmt s
  | .dqnt o md => Sys2Proof.Machine.actDqnt o md s
  | .sld a b c esz signed => Sys2Proof.Machine.actSld a b c esz signed s
  | .sst a b c esz signed => Sys2Proof.Machine.actSst a b c esz signed s
  | .sadd o sat => Sys2Proof.Machine.actSadd o sat s
  | .ssub o sat => Sys2Proof.Machine.actSsub o sat s
  | .smul o => Sys2Proof.Machine.actSmul o s
  | .scmp cond o => Sys2Proof.Machine.actScmp cond o s
  | .ssel a b c => Sys2Proof.Machine.actSsel a b c s
  | .slog op o => Sys2Proof.Machine.actSlog op o s
  | .scp a b pred => Sys2Proof.Machine.actScp a b pred s
  | .spred a inv => Sys2Proof.Machine.actSpred a inv s
  | .spop a b => Sys2Proof.Machine.actSpop a b s
  | .srow op o => Sys2Proof.Machine.actSrow op o s
  | .swait b => Sys2Proof.Machine.actSwait b s
  | .rpost a b c hs hd => Sys2Proof.Machine.actRpost a b c hs hd s
  | .rarm a b => Sys2Proof.Machine.actRarm a b s
  | .rcancel a b => Sys2Proof.Machine.actRcancel a b s
  | .rstat a b => Sys2Proof.Machine.actRstat a b s
  | .stend a b h => Sys2Proof.Machine.actStend a b h s
  | .sfold a b h => Sys2Proof.Machine.actSfold a b h s
  | .sflush a b h => Sys2Proof.Machine.actSflush a b h s
  | .mfsr d n => Sys2Proof.Machine.actMfsr d n s
  | .mtsr n a => Sys2Proof.Machine.actMtsr n a s
  | .trap n => Sys2Proof.Machine.actTrap n s
  | .resume keep => Sys2Proof.Machine.actResume keep s
  | .abort a => Sys2Proof.Machine.actAbort a s
  | .time d => Sys2Proof.Machine.actTime d s
  | .timeUnc d => Sys2Proof.Machine.actTimeUnc d s
  | .timeUntil a => Sys2Proof.Machine.actTimeUntil a s
  | .cwtld d a first => Sys2Proof.Machine.actCwtld d a first s
  | .cw .. | .divideComplete .. | .phaseComplete .. | .vectorDivideComplete .. | .matrixJobStart .. | .matrixStep .. |
    .atbankChunkReturn .. | .copyStart .. | .copyChunk .. | .copyChunkAck .. | .seamMacroExecute .. | .relayTimeFire .. |
    .relayDelivery .. | .flushCommand .. | .stackCommandRelease .. | .tendBlock .. | .foldContribution .. |
    .foldStagingTake .. | .asyncEventTake .. | .stallPark .. | .yieldLimit .. | .coreParityError .. | .taskAdmission .. |
    .taskSwitch .. | .balancingExchange .. | .shiftBoundary .. | .groupSwapOut .. | .groupSwapIn .. | .crewDeadlock .. |
    .epochDeadlock .. | .claimSelfDetect .. | .storePerform .. | .loadServe .. | .atomicPerform .. | .famoHold .. |
    .famoAccept .. | .epochApply .. | .claimFirstTouch .. | .claimWaiterAdd .. | .claimTimeout .. | .walkComplete .. |
    .pageFaultResolve .. | .handleRevoke .. | .migrateFrame .. | .migrationCopy .. | .recordTake | .launchStart .. |
    .launchCompletion .. | .qtailWrite .. | .qstatClear .. | .cheadWrite .. | .peeridWrite .. | .stagingConfigWrite .. |
    .claimAreaWrite .. | .registerWrite .. | .bar2Read .. | .bar2Write .. | .certify .. | .unstamp .. | .unstampComplete .. |
    .retire .. | .mbUnstake .. | .attest .. | .getcert .. | .fwupdate .. | .coldReset | .warmReset | .firmwareBoot .. |
    .timeSyncMessage .. | .flitCrcError .. | .linkRetrain .. | .linkRetrainComplete .. | .ready .. | .arm .. |
    .gangReserveComplete .. | .ack .. | .gangGuardExpiry .. | .commit .. | .cancel .. | .gangStart .. | .gangLateExpiry .. |
    .started .. | .confirm .. | .gangAbort .. | .freeze .. | .freezeReply .. | .token .. | .patrolScrub .. | .hbmRefresh .. |
    .dieContainment .. | .watchdogFailure .. | .thermalSample .. | .coolantFlowLost | .timeUntilReached .. |
    .assayScanComplete .. | .hostLinkLoss | .queueConfigWrite .. | .pageOut .. => .ok s

/-- The source specifiers of an instruction, among which those of 32 to 37 read latches (R179). -/
def specsOf (i : Instr) : List Nat :=
  match i with
  | .add o => [o.a.code, o.b.code]
  | .sub o => [o.a.code, o.b.code]
  | .mul o => [o.a.code, o.b.code]
  | .mulhI o => [o.a.code, o.b.code]
  | .mulhN o => [o.a.code, o.b.code]
  | .and o => [o.a.code, o.b.code]
  | .or o => [o.a.code, o.b.code]
  | .xor o => [o.a.code, o.b.code]
  | .andn o => [o.a.code, o.b.code]
  | .shl o => [o.a.code, o.b.code]
  | .shr o => [o.a.code, o.b.code]
  | .sra o => [o.a.code, o.b.code]
  | .minI o => [o.a.code, o.b.code]
  | .maxI o => [o.a.code, o.b.code]
  | .minN o => [o.a.code, o.b.code]
  | .maxN o => [o.a.code, o.b.code]
  | .cmp _ _ a b _ _ => [a.code, b.code]
  | .sel o _ => [o.a.code, o.b.code]
  | .clz o => [o.a.code]
  | .ctz o => [o.a.code]
  | .popc o => [o.a.code]
  | .bfx o => [o.a.code, o.b.code]
  | .bfi o e => [o.a.code, o.b.code, e.code]
  | .mov o => [o.a.code]
  | .divI o => [o.a.code, o.b.code]
  | .divN o => [o.a.code, o.b.code]
  | .remI o => [o.a.code, o.b.code]
  | .remN o => [o.a.code, o.b.code]
  | .addi o => [o.a.code]
  | .andi o => [o.a.code]
  | .ori o => [o.a.code]
  | .xori o => [o.a.code]
  | .shli _ a _ => [a.code]
  | .shri _ a _ => [a.code]
  | .srai _ a _ => [a.code]
  | .cmpi _ _ a _ => [a.code]
  | .movhi o => [o.a.code]
  | .vaddr _ a _ => [a.code]
  | .brz a _ => [a.code]
  | .brnz a _ => [a.code]
  | .ret a => [a.code]
  | .jmpr a _ => [a.code]
  | .loop a _ _ _ => [a.code]
  | .famo _ _ _ _ d => [d.code]
  | .cbArm _ a => [a.code]
  | .cbAdd _ a => [a.code]
  | .stepCommit a => [a.code]
  | .vadd o => [o.a.code, o.b.code]
  | .vsub o => [o.a.code, o.b.code]
  | .vmul o => [o.a.code, o.b.code]
  | .vfma o => [o.a.code, o.b.code]
  | .vfms o => [o.a.code, o.b.code]
  | .vfnma o => [o.a.code, o.b.code]
  | .vmin o => [o.a.code, o.b.code]
  | .vmax o => [o.a.code, o.b.code]
  | .vabs o => [o.a.code]
  | .vneg o => [o.a.code]
  | .vcmp _ _ _ a b _ _ => [a.code, b.code]
  | .vsel o => [o.a.code, o.b.code]
  | .vscale o => [o.a.code, o.b.code]
  | .vround o => [o.a.code]
  | .vclass o => [o.a.code]
  | .viadd o => [o.a.code, o.b.code]
  | .visub o => [o.a.code, o.b.code]
  | .vimul o => [o.a.code, o.b.code]
  | .vimulh o => [o.a.code, o.b.code]
  | .vand o => [o.a.code, o.b.code]
  | .vor o => [o.a.code, o.b.code]
  | .vxor o => [o.a.code, o.b.code]
  | .vshl o => [o.a.code, o.b.code]
  | .vshr o => [o.a.code, o.b.code]
  | .vsra o => [o.a.code, o.b.code]
  | .vimin o => [o.a.code, o.b.code]
  | .vimax o => [o.a.code, o.b.code]
  | .vicmp _ _ _ a b _ _ => [a.code, b.code]
  | .vcvt o _ _ => [o.a.code]
  | .vbcast _ _ a _ _ => [a.code]
  | .vperm o => [o.a.code, o.b.code]
  | .vlrot _ _ a b _ _ => [a.code, b.code]
  | .vext _ _ a b _ => [a.code, b.code]
  | .vins _ _ a b _ => [a.code, b.code]
  | .vmask op _ _ => match op with
    | .first a => [a.code]
    | .and _ _ | .or _ _ | .xor _ _ | .andn _ _ | .not _ => []
  | .vwin a => [a.code]
  | .vmov o => [o.a.code]
  | .vrcpA o => [o.a.code]
  | .vrsqA o => [o.a.code]
  | .vexp2A o => [o.a.code]
  | .vlog2A o => [o.a.code]
  | .vdiv o => [o.a.code, o.b.code]
  | .vsqrt o => [o.a.code]
  | .vidiv o => [o.a.code, o.b.code]
  | .virem o => [o.a.code, o.b.code]
  | .vredsum o => [o.a.code]
  | .vredmax o => [o.a.code]
  | .vredmin o => [o.a.code]
  | .vdot o => [o.a.code, o.b.code]
  | .mshape _ _ b c => [b.code, c.code]
  | .mcfg _ _ o => [o.a.code, o.b.code, o.c.code]
  | .mopnd _ _ b _ => [b.code]
  | .mrot o => [o.a.code, o.b.code, o.c.code]
  | .mdrain _ b c => [b.code, c.code]
  | .mzero b c => [b.code, c.code]
  | .rqbind _ b _ => [b.code]
  | .cpy o => [o.b.code]
  | .cpym o => [o.b.code]
  | .cpyc o => [o.b.code]
  | .cpyr _ b _ _ => [b.code]
  | .cwait _ b => [b.code]
  | .cstat _ b => [b.code]
  | .qnt o _ _ => [o.b.code]
  | .qscl _ b _ _ => [b.code]
  | .dqnt o _ => [o.b.code]
  | .sld a b c _ _ => [a.code, b.code, c.code]
  | .sst a b c _ _ => [a.code, b.code, c.code]
  | .sadd o _ => [o.a.code, o.b.code, o.c.code]
  | .ssub o _ => [o.a.code, o.b.code, o.c.code]
  | .smul o => [o.a.code, o.b.code, o.c.code]
  | .scmp _ o => [o.a.code, o.b.code, o.c.code]
  | .ssel a b c => [a.code, b.code, c.code]
  | .slog _ o => [o.a.code, o.b.code, o.c.code]
  | .scp a b _ => [a.code, b.code]
  | .spred a _ => [a.code]
  | .spop _ b => [b.code]
  | .srow _ o => [o.a.code, o.b.code, o.c.code]
  | .swait b => [b.code]
  | .rpost _ b c _ _ => [b.code, c.code]
  | .rarm _ b => [b.code]
  | .rcancel _ b => [b.code]
  | .rstat _ b => [b.code]
  | .stend _ b _ => [b.code]
  | .sfold _ b _ => [b.code]
  | .sflush _ b _ => [b.code]
  | .mtsr _ a => [a.code]
  | .abort a => [a.code]
  | .timeUntil a => [a.code]
  | .cwtld _ a _ => [a.code]
  | .movi .. | .nop | .br .. | .brc .. | .call .. | .lbreak .. | .spawn .. | .done | .ld .. | .st .. | .ldv .. | .stv .. |
    .xlat .. | .hchk .. | .hdrop .. | .hmov .. | .pf .. | .phase .. | .amo .. | .cas .. | .fence .. | .stake .. |
    .settle .. | .ctag .. | .unstake .. | .crewJoin .. | .crewLeave .. | .crewSync .. | .cbWait .. | .cbRead .. |
    .atmClose .. | .vmcnt .. | .vpop .. | .mprof .. | .mgo | .mwait | .mstat .. | .mfsr .. | .trap .. | .resume .. |
    .time .. | .timeUnc .. | .cw .. | .divideComplete .. | .phaseComplete .. | .vectorDivideComplete .. |
    .matrixJobStart .. | .matrixStep .. | .atbankChunkReturn .. | .copyStart .. | .copyChunk .. | .copyChunkAck .. |
    .seamMacroExecute .. | .relayTimeFire .. | .relayDelivery .. | .flushCommand .. | .stackCommandRelease .. |
    .tendBlock .. | .foldContribution .. | .foldStagingTake .. | .asyncEventTake .. | .stallPark .. | .yieldLimit .. |
    .coreParityError .. | .taskAdmission .. | .taskSwitch .. | .balancingExchange .. | .shiftBoundary .. | .groupSwapOut .. |
    .groupSwapIn .. | .crewDeadlock .. | .epochDeadlock .. | .claimSelfDetect .. | .storePerform .. | .loadServe .. |
    .atomicPerform .. | .famoHold .. | .famoAccept .. | .epochApply .. | .claimFirstTouch .. | .claimWaiterAdd .. |
    .claimTimeout .. | .walkComplete .. | .pageFaultResolve .. | .handleRevoke .. | .migrateFrame .. | .migrationCopy .. |
    .recordTake | .launchStart .. | .launchCompletion .. | .qtailWrite .. | .qstatClear .. | .cheadWrite .. |
    .peeridWrite .. | .stagingConfigWrite .. | .claimAreaWrite .. | .registerWrite .. | .bar2Read .. | .bar2Write .. |
    .certify .. | .unstamp .. | .unstampComplete .. | .retire .. | .mbUnstake .. | .attest .. | .getcert .. | .fwupdate .. |
    .coldReset | .warmReset | .firmwareBoot .. | .timeSyncMessage .. | .flitCrcError .. | .linkRetrain .. |
    .linkRetrainComplete .. | .ready .. | .arm .. | .gangReserveComplete .. | .ack .. | .gangGuardExpiry .. | .commit .. |
    .cancel .. | .gangStart .. | .gangLateExpiry .. | .started .. | .confirm .. | .gangAbort .. | .freeze .. |
    .freezeReply .. | .token .. | .patrolScrub .. | .hbmRefresh .. | .dieContainment .. | .watchdogFailure .. |
    .thermalSample .. | .coolantFlowLost | .timeUntilReached .. | .assayScanComplete .. | .hostLinkLoss |
    .queueConfigWrite .. | .pageOut .. => []

/-- A register that an instruction writes back (R197). -/
inductive Dest where
  | s (n : Fin 32)
  | p (n : Fin 8)
  | m (n : Fin 8)
  | h (n : Fin 16)
  | v (n : Fin 32)
  deriving DecidableEq, Repr

/-- The register that an instruction writes back, unless NW = 1 (R194, R197). -/
def destOf (i : Instr) : Option Dest :=
  match i with
  | .add o => if o.nw then none else some (.s o.d)
  | .sub o => if o.nw then none else some (.s o.d)
  | .mul o => if o.nw then none else some (.s o.d)
  | .mulhI o => if o.nw then none else some (.s o.d)
  | .mulhN o => if o.nw then none else some (.s o.d)
  | .and o => if o.nw then none else some (.s o.d)
  | .or o => if o.nw then none else some (.s o.d)
  | .xor o => if o.nw then none else some (.s o.d)
  | .andn o => if o.nw then none else some (.s o.d)
  | .shl o => if o.nw then none else some (.s o.d)
  | .shr o => if o.nw then none else some (.s o.d)
  | .sra o => if o.nw then none else some (.s o.d)
  | .minI o => if o.nw then none else some (.s o.d)
  | .maxI o => if o.nw then none else some (.s o.d)
  | .minN o => if o.nw then none else some (.s o.d)
  | .maxN o => if o.nw then none else some (.s o.d)
  | .cmp _ p _ _ nw _ => if nw then none else some (.p p)
  | .sel o _ => if o.nw then none else some (.s o.d)
  | .clz o => if o.nw then none else some (.s o.d)
  | .ctz o => if o.nw then none else some (.s o.d)
  | .popc o => if o.nw then none else some (.s o.d)
  | .bfx o => if o.nw then none else some (.s o.d)
  | .bfi o _ => if o.nw then none else some (.s o.d)
  | .mov o => if o.nw then none else some (.s o.d)
  | .divI o => if o.nw then none else some (.s o.d)
  | .divN o => if o.nw then none else some (.s o.d)
  | .remI o => if o.nw then none else some (.s o.d)
  | .remN o => if o.nw then none else some (.s o.d)
  | .addi o => some (.s o.d)
  | .andi o => some (.s o.d)
  | .ori o => some (.s o.d)
  | .xori o => some (.s o.d)
  | .shli d _ _ => some (.s d)
  | .shri d _ _ => some (.s d)
  | .srai d _ _ => some (.s d)
  | .cmpi _ p _ _ => some (.p p)
  | .movi d _ => some (.s d)
  | .movhi o => some (.s o.d)
  | .vaddr d _ _ => some (.s d)
  | .call l _ => some (.s l)
  | .ld o => some (.s o.d)
  | .ldv o => some (.v o.d)
  | .xlat _ _ h _ _ => some (.h h)
  | .hchk _ d _ => some (.s d)
  | .hdrop h => some (.h h)
  | .hmov hd _ => some (.h hd)
  | .amo _ _ _ _ d _ => some (.s d)
  | .cas _ _ _ d _ _ => some (.s d)
  | .ctag d _ => some (.s d)
  | .cbRead d _ => some (.s d)
  | .vadd o => if o.nw then none else some (.v o.d)
  | .vsub o => if o.nw then none else some (.v o.d)
  | .vmul o => if o.nw then none else some (.v o.d)
  | .vfma o => if o.nw then none else some (.v o.d)
  | .vfms o => if o.nw then none else some (.v o.d)
  | .vfnma o => if o.nw then none else some (.v o.d)
  | .vmin o => if o.nw then none else some (.v o.d)
  | .vmax o => if o.nw then none else some (.v o.d)
  | .vabs o => if o.nw then none else some (.v o.d)
  | .vneg o => if o.nw then none else some (.v o.d)
  | .vcmp _ _ k _ _ _ nw => if nw then none else some (.m k)
  | .vsel o => if o.nw then none else some (.v o.d)
  | .vscale o => if o.nw then none else some (.v o.d)
  | .vround o => if o.nw then none else some (.v o.d)
  | .vclass o => if o.nw then none else some (.v o.d)
  | .viadd o => if o.nw then none else some (.v o.d)
  | .visub o => if o.nw then none else some (.v o.d)
  | .vimul o => if o.nw then none else some (.v o.d)
  | .vimulh o => if o.nw then none else some (.v o.d)
  | .vand o => if o.nw then none else some (.v o.d)
  | .vor o => if o.nw then none else some (.v o.d)
  | .vxor o => if o.nw then none else some (.v o.d)
  | .vshl o => if o.nw then none else some (.v o.d)
  | .vshr o => if o.nw then none else some (.v o.d)
  | .vsra o => if o.nw then none else some (.v o.d)
  | .vimin o => if o.nw then none else some (.v o.d)
  | .vimax o => if o.nw then none else some (.v o.d)
  | .vicmp _ _ k _ _ _ nw => if nw then none else some (.m k)
  | .vcvt o _ _ => if o.nw then none else some (.v o.d)
  | .vbcast _ d _ _ nw => if nw then none else some (.v d)
  | .vperm o => if o.nw then none else some (.v o.d)
  | .vlrot _ d _ _ _ nw => if nw then none else some (.v d)
  | .vext _ d _ _ nw => if nw then none else some (.s d)
  | .vins _ d _ _ nw => if nw then none else some (.v d)
  | .vmask _ d nw => if nw then none else some (.m d)
  | .vmcnt _ d _ nw => if nw then none else some (.s d)
  | .vpop d _ nw => if nw then none else some (.v d)
  | .vmov o => if o.nw then none else some (.v o.d)
  | .vrcpA o => if o.nw then none else some (.v o.d)
  | .vrsqA o => if o.nw then none else some (.v o.d)
  | .vexp2A o => if o.nw then none else some (.v o.d)
  | .vlog2A o => if o.nw then none else some (.v o.d)
  | .vdiv o => if o.nw then none else some (.v o.d)
  | .vsqrt o => if o.nw then none else some (.v o.d)
  | .vidiv o => if o.nw then none else some (.v o.d)
  | .virem o => if o.nw then none else some (.v o.d)
  | .vredsum o => if o.nw then none else some (.v o.d)
  | .vredmax o => if o.nw then none else some (.v o.d)
  | .vredmin o => if o.nw then none else some (.v o.d)
  | .vdot o => if o.nw then none else some (.v o.d)
  | .mshape _ a _ _ => some (.s a)
  | .mopnd _ a _ _ => some (.s a)
  | .mdrain a _ _ => some (.s a)
  | .mstat a => some (.s a)
  | .cpy o => some (.s o.a)
  | .cpym o => some (.s o.a)
  | .cpyc o => some (.s o.a)
  | .cpyr a _ _ _ => some (.s a)
  | .cwait a _ => some (.s a)
  | .cstat a _ => some (.s a)
  | .qnt o _ _ => some (.s o.a)
  | .qscl a _ _ _ => some (.s a)
  | .dqnt o _ => some (.s o.a)
  | .spop a _ => some (.s a)
  | .rpost a _ _ _ _ => some (.s a)
  | .rarm a _ => some (.s a)
  | .rcancel a _ => some (.s a)
  | .rstat a _ => some (.s a)
  | .stend a _ _ => some (.s a)
  | .sfold a _ _ => some (.s a)
  | .sflush a _ _ => some (.s a)
  | .mfsr d _ => some (.s d)
  | .time d => some (.s d)
  | .timeUnc d => some (.s d)
  | .nop | .br .. | .brc .. | .brz .. | .brnz .. | .ret .. | .jmpr .. | .loop .. | .lbreak .. | .spawn .. | .done | .st .. |
    .stv .. | .pf .. | .phase .. | .famo .. | .fence .. | .stake .. | .settle .. | .unstake .. | .crewJoin .. |
    .crewLeave .. | .crewSync .. | .cbArm .. | .cbWait .. | .cbAdd .. | .stepCommit .. | .atmClose .. | .vwin .. | .mcfg .. |
    .mrot .. | .mprof .. | .mgo | .mwait | .mzero .. | .rqbind .. | .sld .. | .sst .. | .sadd .. | .ssub .. | .smul .. |
    .scmp .. | .ssel .. | .slog .. | .scp .. | .spred .. | .srow .. | .swait .. | .mtsr .. | .trap .. | .resume .. |
    .abort .. | .timeUntil .. | .cwtld .. | .cw .. | .divideComplete .. | .phaseComplete .. | .vectorDivideComplete .. |
    .matrixJobStart .. | .matrixStep .. | .atbankChunkReturn .. | .copyStart .. | .copyChunk .. | .copyChunkAck .. |
    .seamMacroExecute .. | .relayTimeFire .. | .relayDelivery .. | .flushCommand .. | .stackCommandRelease .. |
    .tendBlock .. | .foldContribution .. | .foldStagingTake .. | .asyncEventTake .. | .stallPark .. | .yieldLimit .. |
    .coreParityError .. | .taskAdmission .. | .taskSwitch .. | .balancingExchange .. | .shiftBoundary .. | .groupSwapOut .. |
    .groupSwapIn .. | .crewDeadlock .. | .epochDeadlock .. | .claimSelfDetect .. | .storePerform .. | .loadServe .. |
    .atomicPerform .. | .famoHold .. | .famoAccept .. | .epochApply .. | .claimFirstTouch .. | .claimWaiterAdd .. |
    .claimTimeout .. | .walkComplete .. | .pageFaultResolve .. | .handleRevoke .. | .migrateFrame .. | .migrationCopy .. |
    .recordTake | .launchStart .. | .launchCompletion .. | .qtailWrite .. | .qstatClear .. | .cheadWrite .. |
    .peeridWrite .. | .stagingConfigWrite .. | .claimAreaWrite .. | .registerWrite .. | .bar2Read .. | .bar2Write .. |
    .certify .. | .unstamp .. | .unstampComplete .. | .retire .. | .mbUnstake .. | .attest .. | .getcert .. | .fwupdate .. |
    .coldReset | .warmReset | .firmwareBoot .. | .timeSyncMessage .. | .flitCrcError .. | .linkRetrain .. |
    .linkRetrainComplete .. | .ready .. | .arm .. | .gangReserveComplete .. | .ack .. | .gangGuardExpiry .. | .commit .. |
    .cancel .. | .gangStart .. | .gangLateExpiry .. | .started .. | .confirm .. | .gangAbort .. | .freeze .. |
    .freezeReply .. | .token .. | .patrolScrub .. | .hbmRefresh .. | .dieContainment .. | .watchdogFailure .. |
    .thermalSample .. | .coolantFlowLost | .timeUntilReached .. | .assayScanComplete .. | .hostLinkLoss |
    .queueConfigWrite .. | .pageOut .. => none

end Sys2Proof.Machine
end

