-- ==== Sys2Proof/Machine/ErrorLog.lean ====
section
/-! DEFINITION. The error log: counters, entries and the interrupt (R427 to R429), and MSI-X vectors (R379). -/

set_option Elab.async false

namespace Sys2Proof.Machine

/-- An MSI-X vector is signalled (R379). -/
def State.signal (s : State) (v : Nat) : State := { s with host := { s.host with msix := v :: s.host.msix } }

/-- An event of R429 as its entry tells it. -/
structure LogEvent where
  code : Nat
  die : Nat
  sev : Nat
  unit : Nat
  launch : Nat := 0xFFFF
  addr : Nat := 0
  info : Nat := 0
  info2 : Nat := 0
  deriving DecidableEq, Repr

/-- The event is counted: counter n of the die, n the code less one (R429). -/
def State.countEvent (s : State) (code d : Nat) : State :=
  let k := 64 * d + (code - 1)
  { s with log := { s.log with counters := smPut s.log.counters k (min (2 ^ 64 - 1) (smGet 0 s.log.counters k + 1)) } }

/-- The 64 bytes of an entry (R428). -/
def LogEvent.word (e : LogEvent) (time seq : Nat) : BitVec 512 :=
  BitVec.ofNat 512 (time % 2 ^ 64 * 2 ^ 448 + e.addr % 2 ^ 64 * 2 ^ 384 + e.info % 2 ^ 64 * 2 ^ 320 + e.info2 % 2 ^ 64 * 2 ^ 256
    + seq % 2 ^ 32 * 2 ^ 224 + e.launch % 2 ^ 16 * 2 ^ 208 + e.unit % 2 ^ 8 * 2 ^ 200 + e.die % 8 * 2 ^ 197 + e.sev % 4 * 2 ^ 195
    + e.code % 2 ^ 8 * 2 ^ 184)

/-- Entries of the ring (R427). -/
def ringSize : Nat := 8192

/-- Entries that the host has not read (R427). -/
def ErrLog.unread (l : ErrLog) : Nat := (l.tail + 2 ^ 32 - l.head) % 2 ^ 32

/-- 64 bytes join the ring, or are dropped where it is full; vector 9 signals an entry in an empty ring (R427). -/
def State.ringEntry (s : State) (w : BitVec 512) : State :=
  if s.log.unread = ringSize then { s with log := { s.log with lost := (s.log.lost + 1) % 2 ^ 32 } }
  else
    let wasEmpty := decide (s.log.unread = 0)
    let s := { s with log := { s.log with ring := smPut s.log.ring (s.log.tail % ringSize) w, tail := (s.log.tail + 1) % 2 ^ 32 } }
    if wasEmpty && s.log.irq then s.signal 9 else s

/-- An entry is written or dropped (R427); one of severity 3 is kept in flash until the next boot copies it (R432). -/
def State.writeEntry (s : State) (e : LogEvent) : State :=
  let w := e.word (s.time e.die) (s.die e.die).seqNo
  let s := s.modDie e.die fun x => { x with seqNo := x.seqNo + 1 }
  let s := if e.sev = 3 then { s with log := { s.log with flash := (w :: s.log.flash).take 64, fresh := min 64 (s.log.fresh + 1) } } else s
  s.ringEntry w

/-- The event is counted, and its entry is written or dropped (R427). -/
def State.logEvent (s : State) (e : LogEvent) : State := (s.countEvent e.code e.die).writeEntry e

/-- An ignored write of a register or mailbox, with its BAR0 offset (R8, code 0x0A). -/
def State.ignoredWrite (s : State) (d off : Nat) : State :=
  s.logEvent { code := 0x0A, die := d, sev := 0, unit := 32, info := off }

end Sys2Proof.Machine
end

