-- ==== Sys2Proof/Machine/Bundle.lean ====
section
/-! DEFINITION. Fetching and issuing a bundle: the decoder's checks (R198), the operations together (R176), the commits around it
(R336, R337), its end (R222, R350), and the events that a core takes between bundles (R339, R344). -/

set_option Elab.async false

namespace Sys2Proof.Machine

/-! ### Ports, commits, operands (R196, R197, R337) -/

/-- The class of an instruction's word. -/
def classOf (i : Instr) : Nat := (encode i).1 / 2 ^ 28

/-- The ports (R196). -/
inductive Port where
  | s | v | m | c
  deriving DecidableEq, Repr

/-- The port of an instruction by its class (R175). -/
def portOf (i : Instr) : Port :=
  match classOf i with
  | 5 | 6 | 7 => .v
  | 8 => .m
  | 9 | 10 | 11 => .c
  | _ => .s

/-- A committing instruction (R337); h gives the handle that a memory instruction goes through. -/
def commits (h : Fin 16 → Handle) (i : Instr) : Bool :=
  match i with
  | .spawn .. | .done | .mgo | .mwait | .mzero .. | .rqbind .. | .trap _ | .resume _ | .abort _ | .cwtld .. => true
  | .ld o | .st o | .ldv o | .stv o => (h o.h).claim
  | .fence mode _ => decide (mode ≠ .acq)
  | .cstat .. | .rstat .. => false
  | _ => decide (classOf i = 4) || decide (classOf i = 9) || decide (classOf i = 10) || decide (classOf i = 11)

/-- The operand is a vector register. -/
def VSrc.isReg (v : VSrc) : Bool := decide (v.code < 32)

/-- The instruction names a vector register (R23). -/
def namesV (i : Instr) : Bool :=
  match i with
  | .ldv _ | .stv _ => true
  | .vcmp _ _ _ a b _ _ | .vicmp _ _ _ a b _ _ => VSrc.isReg a || VSrc.isReg b
  | .vext _ _ a _ _ => VSrc.isReg a
  | .vmask .. | .vmcnt .. | .vwin _ => false
  | _ => decide (portOf i = .v)

/-- A latch holds a value. -/
def Latches.has (l : Latches) (spec : Nat) : Bool :=
  match spec with
  | 32 => l.ls.isSome
  | 33 => l.lv0.isSome
  | 34 => l.lv1.isSome
  | 35 => l.lm.isSome
  | 36 => l.lc0.isSome
  | 37 => l.lc1.isSome
  | _ => true

/-- A write-back that counts for R197. -/
def Dest.counts : Dest → Bool
  | .s n => decide (n ≠ 0)
  | .p n => decide (n ≠ 0)
  | .m n => decide (n ≠ 0)
  | .h _ | .v _ => true

/-! ### The operations of a bundle (R190, R198) -/

/-- An operation of a bundle, with the place that a trap record names. -/
structure Op where
  slot : Nat
  half : Nat
  word : Nat
  instr : Instr
  deriving DecidableEq, Repr

/-- A trap of the decoder: its place and its record. -/
structure Ill where
  slot : Nat
  half : Nat
  word : Nat
  record : TrapRec
  deriving DecidableEq, Repr

/-- A trap of the decoder with the slot word in INFO (R346). -/
def badAt (slot half word : Nat) (t : Trap) : Ill := { slot := slot, half := half, word := word, record := { code := t.code, info := word } }

/-- One short form of a short pair (R188, R190); none when it is all zero. -/
def expandShort (cwt : SMap Nat) (sl : Slot) (half : Nat) (x : ShortForm) : Option (Except Ill Op) :=
  if x.index = 0 ∧ x.ofs = 0 then none
  else some (match decodeShort (smGet 0 cwt x.index.val) x.ofs.val with
    | .ok i => .ok { slot := sl.num, half := half, word := sl.word, instr := i }
    | .error _ => .error (badAt sl.num half sl.word .illegalInstruction))

/-- The operations of a slot. -/
def expandSlot (cwt : SMap Nat) (sl : Slot) : List (Except Ill Op) :=
  match sl.instr with
  | .error _ => [.error (badAt sl.num 0 sl.word .illegalInstruction)]
  | .ok (.cw x y) => (expandShort cwt sl 0 x).toList ++ (expandShort cwt sl 1 y).toList
  | .ok i => [.ok { slot := sl.num, half := 0, word := sl.word, instr := i }]

/-- The good operations of a list. -/
def goodOps (l : List (Except Ill Op)) : List Op := l.filterMap Except.toOption

/-- Check 2 of R198: the first operation that is no instruction, or names a vector register in a task without rows (R23). -/
def checkIllegal (rows : Bool) (l : List (Except Ill Op)) : Option Ill :=
  l.findSome? fun x => match x with
    | .error b => some b
    | .ok o => if namesV o.instr && !rows then some (badAt o.slot o.half o.word .illegalInstruction) else none

/-- The operation that exceeds a port's limit or repeats a write-back, given those before it (R196, R197). -/
def clashes (before : List Op) (o : Op) : Bool :=
  let same := (before.filter fun x => portOf x.instr = portOf o.instr).length
  let limit := match portOf o.instr with
    | .s | .m => 1
    | .v | .c => 2
  decide (limit ≤ same) ||
    match destOf o.instr with
    | some d => d.counts && before.any fun x => decide (destOf x.instr = some d)
    | none => false

/-- Check 3 of R198. -/
def checkPorts : List Op → List Op → Option Ill
  | _, [] => none
  | before, o :: l => if clashes before o then some (badAt o.slot o.half o.word .illegalBundle) else checkPorts (before ++ [o]) l

/-- Check 4 of R198: the first operand that reads a lost latch. -/
def checkLatches (l : Latches) (ops : List Op) : Option Ill :=
  ops.findSome? fun o => ((specsOf o.instr).find? fun k => !l.has k).map fun k =>
    { badAt o.slot o.half o.word .staleLatch with record := { code := Trap.staleLatch.code, info := k } }

/-- Checks 1 to 4 of R198. -/
def checkBundle (b : Bundle) (l : List (Except Ill Op)) (rows : Bool) (latches : Latches) : Option Ill :=
  match b.lateHeader with
  | some (k, w) => some (badAt k 0 w .illegalBundle)
  | none =>
    match (b.badHeader.map fun h => badAt h.1 0 h.2 .illegalInstruction) with
    | some x => some x
    | none => (checkIllegal rows l).or ((checkPorts [] (goodOps l)).or (checkLatches latches (goodOps l)))

/-! ### Performing a bundle (R176, R338) -/

/-- The stop is a trap. -/
def Stop.isTrap : Stop → Bool
  | .trap _ | .jobTrap _ | .claimTrap _ => true
  | .wait _ _ | .park _ _ => false

/-- The state with an operation's place in the record of the bundle in issue. -/
def State.at (s : State) (o : Op) : State :=
  { s with iss := { s.iss with slot := o.slot, half := o.half, word := o.word } }

/-- The ports that an operation has used are counted (R192). -/
def State.used (s : State) (o : Op) : State :=
  match portOf o.instr with
  | .v => { s with iss := { s.iss with vPort := s.iss.vPort + 1 } }
  | .c => { s with iss := { s.iss with cPort := s.iss.cPort + 1 } }
  | .s | .m => s

/-- The order in which the stops of a bundle count: a trap, then a handle that sends the task to park (R338), then a wait that keeps
the whole bundle from issuing (R176), and last what an operation awaits once the bundle has issued. -/
def Stop.rank : Stop → Nat
  | .trap _ | .jobTrap _ | .claimTrap _ => 0
  | .park (.handle ..) _ | .park (.cmdHandle ..) _ => 1
  | .wait _ .none | .park _ .none => 2
  | .wait _ _ | .park _ _ => 3

/-- The stop that counts of two: the one of lower rank, and of equals the first. -/
def firstStop (a : Option (State × Stop)) (b : State × Stop) : State × Stop :=
  match a with
  | some x => if x.2.rank ≤ b.2.rank then x else b
  | none => b

/-- The seam bank that an operation has left a macro at. -/
def Side.bank : Side → List Nat
  | .queue b _ => [b]
  | _ => []

/-- An operation that its engine accepts now and answers later: what it leaves there is done, in slot order, and the operation is noted
for its value (R176, R362). -/
def State.accepted (s : State) (o : Op) (sd : Side) : State :=
  let s := s.applySide sd
  { s with iss := { s.iss with
    fresh := s.iss.fresh ++ sd.bank
    later := s.iss.later ++ [{ slot := o.slot, half := o.half, word := o.word, cPort := s.iss.cPort, instr := o.instr }] } }

/-- The operations in slot order, each on the state that those before it leave; operands are read from the record of the bundle. When
one stops, nothing of the bundle is performed, and what counts is the first of the lowest rank (R176, R338). s0 is the state before
the bundle; stop is what counts so far. -/
def runOps (s0 : State) : List Op → State → Option (State × Stop) → Except (State × Stop) State
  | [], s, none => .ok s
  | [], _, some e => .error e
  | o :: l, s, stop =>
    match actOf o.instr (s.at o) with
    | .ok s' => runOps s0 l (s'.used o) stop
    | .error (.wait .engine sd) => runOps s0 l (((s.at o).accepted o sd).used o) stop
    | .error e => if e.isTrap then .error (s0.at o, e) else runOps s0 l (s.used o) (some (firstStop stop (s0.at o, e)))

/-- The task rows that an operation writes as a vector destination. -/
def State.rowDest (s : State) (o : Op) : Option Nat :=
  match destOf o.instr with
  | some (.v j) => some (s.vrow j)
  | _ => none

/-- The bytes that a plain store of a bundle writes, when its checks pass. -/
def State.storeSpan (s : State) (o : Op) : Option (Nat × Nat) :=
  match o.instr with
  | .st m => match (s.at o).mmCheck m (2 ^ m.sz.val) (2 ^ m.sz.val) (2 ^ m.sz.val) true with
    | .ok (h, pa, _) => if h.claim then none else some (pa, 2 ^ m.sz.val)
    | .error _ => none
  | .stv m => match (s.at o).mmCheck m 64 (64 * 2 ^ m.sz.val) 64 true with
    | .ok (h, pa, _) => if h.claim then none else some (pa, 64 * 2 ^ m.sz.val)
    | .error _ => none
  | _ => none

/-- A bundle does not fit what the core withholds for its task: a 257th line of stores or a 33rd shadowed row (R232, R255). -/
def State.needsRoom (s : State) (ops : List Op) : Bool :=
  let lines := s.me.withheld ++ (ops.filterMap s.storeSpan).map fun r => { pa := r.1, len := r.2, data := 0 }
  let rows := (ops.filterMap s.rowDest).foldl setInsert (s.me.shadow.map (·.1))
  decide (256 < withheldLines lines) || decide (32 < rows.length)

/-- The bundle's operations. A bundle that needs room has the state before it committed first, even when it then stops (R336). -/
def State.perform (s : State) (ops : List Op) : Except (State × Stop) State :=
  let s := if s.needsRoom ops then s.commit s.iss.task else s
  runOps s ops s none

/-- Where fetch goes on after a bundle: a taken transfer, an iteration boundary, or the next bundle (R222). -/
def State.advance (s : State) : State :=
  if s.iss.taken then s
  else (s.boundaryAt s.iss.pc).getD (s.modLive fun r => { r with pc := s.iss.pc + 16 })

/-- The count of bundles since the last yield point (R159); the bundle of a resume leaves it at 0 (R349). -/
def State.countBundle (s : State) (yieldPt : Bool) : State :=
  s.modLive fun r => { r with yieldCount := if yieldPt || s.iss.resumed then 0 else if s.iss.counted then r.yieldCount else r.yieldCount + 1 }

/-- A launch's first task has started: it has issued a bundle (R151, R378). -/
def State.noteStart (s : State) (i : Nat) : State :=
  let t := s.task i
  if (s.launch t.launch).timed then s else s.modLaunch t.launch fun l => { l with timed := true, startTime := s.time t.die }

/-- The end of a bundle whose operations have been performed: fetch, the count, the commit after it or at the yield point of a drained
loop, USER_TRAP, and the stop at a yield point (R158, R159, R222, R336, R350). -/
def State.finish (s : State) (committing yieldPt : Bool) : State :=
  let i := s.iss.task
  let s := ((s.noteStart i).advance).countBundle yieldPt
  let s := s.modMe fun t => { t with
    stallSince := none, reply := none, cReply := [], opened := none, walkPoison := none
    latches := if s.iss.resumed then {} else t.latches }
  let s := s.modMyCore fun x => { x with issuedAt := some s.clock }
  let s := if committing || s.iss.yieldHere then s.commit i else s
  match s.iss.userTrap with
  | some n => s.takeTrap i { code := Trap.userTrap.code, aux := n } s.iss.trapAt.1 s.iss.trapAt.2 s.iss.pc
  | none => if (yieldPt || s.iss.yieldHere) && s.me.ending.isNone && s.preemptWanted i then s.stopAtYield i else s

/-- The bundle is performed but for values that engines owe it: its record is kept until they have come (R338, R362). -/
def State.holdOpen (s : State) (committing yieldPt : Bool) : State :=
  (s.modMe fun t => { t with opened := some { s.iss with committing := committing, yieldPt := yieldPt } }).stall .engine

/-- The bundle's operations have been performed: it ends, unless an engine owes it a value. -/
def State.performed (s : State) (committing yieldPt : Bool) : State :=
  if s.iss.later.isEmpty then s.finish committing yieldPt else s.holdOpen committing yieldPt

/-- The outcome of a bundle that ran or stopped, as a state: no instruction of a bundle faults. -/
def State.settleBundle (r : Except (State × Stop) State) (committing yieldPt : Bool) : Host.Outcome State Fault Refusal :=
  match r with
  | .ok s => .next (s.performed committing yieldPt)
  | .error (s, e) => resolve s (.error e)

/-- An operation whose engine has answered writes its value. -/
def State.answered (s : State) (o : Later) : State :=
  match actOf o.instr { s with iss := { s.iss with slot := o.slot, half := o.half, word := o.word, cPort := o.cPort } } with
  | .ok s' => s'
  | .error _ => s

/-- A bundle that is performed but for the values of engines is completed once all of them have come (R338, R362). -/
def State.closeBundle (s : State) (i : Nat) (x : Issue) : State :=
  if x.later.all fun o => (smFind (s.task i).cReply o.cPort).isSome then
    (x.later.foldl State.answered { s with iss := { x with later := [] } }).finish x.committing x.yieldPt
  else s

/-! ### Issue -/

/-- The record of the bundle that task i is about to issue. -/
def State.present (s : State) (i d c : Nat) : State :=
  let t := s.task i
  { s with iss := { task := i, die := d, core := c, pc := t.live.pc, snap := t.live, snapL := t.latches, snapCwt := t.cwt,
                      stores0 := t.withheld } }

/-- The 16 bytes at the program counter (R174). -/
def State.fetchBundle (s : State) : Nat := s.bytes (s.myLaunch.codeBase + s.iss.pc) 16

/-- Fetch runs past the last bundle of the code image (R219). -/
def State.pastImage (s : State) : Bool := decide (s.myLaunch.codeLen < s.iss.pc + 16)

/-- What the decoder makes of the bundle presented in s (its record taken, nothing committed yet): the state in which its operations
are performed, the operations, whether one commits and whether the bundle is a yield point; or the state that a trap or a wait
leaves. Past the image there is no bundle (R219), and a poisoned line gives no bytes (R422; log 31). -/
def State.openBundle (s : State) (word : Nat) : Except State (State × List Op × Bool × Bool) :=
  let i := s.iss.task
  if s.pastImage then .error (s.takeTrap i { code := Trap.segmentViolation.code, addr := s.iss.pc } 0 0 s.iss.pc)
  else if s.poisoned (s.myLaunch.codeBase + s.iss.pc) 16 then
    .error (s.takeTrap i { code := Trap.memPoison.code, addr := s.iss.pc } 0 0 s.iss.pc)
  else
    let b := decodeBundle word
    let l := b.slots.flatMap (expandSlot s.iss.snapCwt)
    let committing := (goodOps l).any fun o => commits s.iss.snap.rdH o.instr
    let ck := committing || b.ckpt || b.yieldPt
    if ck && s.holdFull i s.iss.die then .error (s.stall (.stall .hold))
    else
      let s := if ck then s.commit i else s
      match checkBundle b l (decide (s.me.rowCount ≠ 0)) s.iss.snapL with
      | some x => .error (s.takeTrap i x.record x.slot x.half s.iss.pc)
      | none => .ok (s, goodOps l, committing, b.yieldPt)

/-- The bundle presented in s is decoded, checked and performed. -/
def State.issueBundle (s : State) (word : Nat) : Host.Outcome State Fault Refusal :=
  match s.openBundle word with
  | .error s' => .next s'
  | .ok (s, ops, committing, yieldPt) => State.settleBundle (s.perform ops) committing yieldPt

/-- The waiting bundle of task i is performed now, if nothing in it stops; else what stops it, none for the decoder. A home that performs
an operation of the bundle performs the bundle with it, so that no later stop of another operation can undo one half (R125, R338). -/
def State.runWaiting (s : State) (i : Nat) : Except (Option Stop) State :=
  let t := s.task i
  let s := s.present i t.die t.core
  match s.openBundle s.fetchBundle with
  | .error _ => .error none
  | .ok (s, ops, committing, yieldPt) =>
    match s.perform ops with
    | .ok s' => .ok (s'.performed committing yieldPt)
    | .error (_, e) => .error (some e)

/-! ### Between bundles (R339, R344) -/

/-- The task's bundle has been performed but for values that engines owe, so that it is completed before any event (R338, R362). -/
def State.engaged (s : State) (i : Nat) : Bool := (s.task i).opened.isSome

/-- A trap raised between bundles. -/
def State.asyncTrap (s : State) (i : Nat) (t : Trap) (info info2 : Nat) : State :=
  s.takeTrap i { code := t.code, asyncT := true, info := info, info2 := info2 } 0 0 (s.task i).live.pc

/-- INFO of SOFT_ERROR_UNRECOVERED (R346). -/
def softCode : SoftErr → Nat
  | .live => 0 | .duplicate => 1 | .shadow => 2 | .withheld => 3 | .restore => 4

/-- A row of free values: 32 words that the spec leaves open. -/
def freeRow (n : Nat) : Row := BitVec.ofNat 2048 (ofLanes 64 ((List.range 32).map fun k => (Config.freeWord (n + k)).toNat))

/-- What the error leaves of the committed state: its damaged scalar registers or rows are open values (R341; log 12). -/
def State.damage (s : State) (i : Nat) (e : SoftErr) : State :=
  match e with
  | .live | .withheld => s
  | .duplicate | .restore =>
    { s.modTask i (fun t => { t with dup := { t.dup with s := Vector.ofFn fun k : Fin 32 => Config.freeWord (s.freeCount + k.val) } }) with
      freeCount := s.freeCount + 32 }
  | .shadow =>
    { s.modTask i (fun t => { t with shadow := t.shadow.zipIdx.map fun p => (p.1.1, freeRow (s.freeCount + 32 * p.2)) }) with
      freeCount := s.freeCount + 32 * (s.task i).shadow.length }

/-- A soft error in the core state of task i (R341): parity in the live state rolls the task back, and it replays; a double error in the
committed state, or an error during a restore, makes it take SOFT_ERROR_UNRECOVERED. -/
def State.parityError (s : State) (i : Nat) (e : SoftErr) : State :=
  let t := s.task i
  match e with
  | .live => (s.rollback i).countEvent 0x05 t.die
  | .duplicate | .shadow | .withheld | .restore =>
    let s := s.damage i e
    let s := s.logEvent { code := 0x06, die := t.die, sev := 1, unit := t.core, launch := (s.launch t.launch).number, info := t.key.toNat }
    s.modTask i fun t => { t with softErr := some (softCode e) }

/-- The count of task i exceeds SYS.YIELDLIMIT: a YIELD_LIMIT is pending from now on, whatever sets the count to 0 (R159, R344). -/
def State.noteYield (s : State) (i : Nat) : State :=
  let t := s.task i
  if t.yieldDue.isNone && decide ((s.die t.die).yieldLimit < t.live.yieldCount) then
    s.modTask i fun t => { t with yieldDue := some t.live.yieldCount }
  else s

/-- A pending YIELD_LIMIT of task i is taken, with the count that it arose at (R344, R346; log 87). -/
def State.takeYield (s : State) (i : Nat) : Option State :=
  (s.task i).yieldDue.map fun n => (s.modTask i fun t => { t with yieldDue := none }).asyncTrap i .yieldLimit n 0

/-- The highest pending asynchronous event of task i is taken (R344), after a soft error that came while its bundle was unfinished
(R362): none when there is none, or a handler holds it back. -/
def State.takeAsync (s : State) (i : Nat) : Option State :=
  let s := s.noteYield i
  let t := s.task i
  match t.lateErr, t.softErr with
  | e :: l, _ => some ((s.modTask i fun t => { t with lateErr := l }).parityError i e)
  | [], some n => some ((s.modTask i fun t => { t with softErr := none }).asyncTrap i .softErrorUnrecovered n 0)
  | [], none =>
    if t.live.hnd then none
    else
      match t.abortTok with
      | some (step, org) => some ((s.modTask i fun t => { t with abortTok := none }).asyncTrap i .abortToken step org)
      | none =>
        match t.stepMis with
        | some (step, org) => some ((s.modTask i fun t => { t with stepMis := none }).asyncTrap i .stepMismatch step org)
        | none => s.takeYield i

/-- Rollback pre-emption: a request reaches a task whose bundle is stalled and not performed (R339). -/
def State.rollbackPreempt (s : State) (i : Nat) : State :=
  let s := s.rollback i
  let s := s.modTask i fun t => { t with
    status := .ready, preempt := false, job := { t.job with halt := decide (t.job.state = .running) } }
  let t := s.task i
  s.modCore t.die t.core fun x => { x with issuing := none }

/-- The job of a task that issues again rejoins the engine queue (R292). -/
def State.restartJob (s : State) (i : Nat) : State :=
  let j := (s.task i).job
  if j.state = .stopped then s.jobQueues i
  else if j.halt then s.modJob i fun j => { j with halt := false }
  else s

/-- A task of a retired launch that does not issue ends as under abort, with no further step of its job (R161, R293). The spec names
no status for it: an open value (log 18). -/
def State.retireTask (s : State) (i : Nat) : State :=
  let t := s.task i
  if (s.launch t.launch).retired && t.ending.isNone && decide (t.status ≠ .issuing) && decide (t.status ≠ .ended) then
    { s.modTask i (fun t => { t with
        ending := some (some ((Config.freeWord s.freeCount).toNat % 65536, false)), job := { t.job with state := .done, pend := none } }) with
      freeCount := s.freeCount + 1 }
  else s

/-- Tasks of a core that have only the steps of R228 before them are ended, and those of retired launches with them. A bundle that waits
for values of engines is completed first (R362). -/
def State.finishTasks (s : State) (d c : Nat) : State :=
  (s.tasksWith fun _ t => decide (t.die = d) && decide (t.core = c) && decide (t.status ≠ .ended) && t.opened.isNone).foldl (fun s i =>
    let s := s.retireTask i
    match (s.task i).ending with
    | some st =>
      let s := if s.enginesDone i then s.closePart i else s
      if s.canFinish i then s.finishTask i st else s
    | none => s) s

/-- What a core does when it moves: it ends tasks, completes a bundle, takes an event, or issues the bundle at the program counter of its
task; it issues at most one in a clock (R15). -/
def State.coreMove (s : State) (d c : Nat) : Host.Outcome State Fault Refusal :=
  let s := s.finishTasks d c
  match (s.core d c).issuing with
  | none => .next s
  | some i =>
    let t := s.task i
    match t.opened with
    | some x => .next (s.closeBundle i x)
    | none =>
      if t.ending.isSome ∨ s.clock < (s.core d c).switchDone then .next s
      else
      let s := s.noteYield i
      match t.pendTrap with
      | some r => .next ((s.modTask i fun t => { t with pendTrap := none }).takeTrap i r t.waitAt.1 t.waitAt.2.1 t.waitAt.2.2)
      | none =>
        match s.takeAsync i with
        | some s' => .next s'
        | none =>
          if t.stallSince.isSome && s.preemptWanted i then .next (s.rollbackPreempt i)
          else if (s.core d c).issuedAt = some s.clock then .next s
          else
            let s := (s.restartJob i).present i d c
            s.issueBundle s.fetchBundle

/-- `cw` (R190): the one or two operations of the pair on their own, with the checks that are theirs. -/
def execCw (x y : ShortForm) (s : State) : Host.Outcome State Fault Refusal :=
  let l := expandSlot s.iss.snapCwt { num := s.iss.slot, word := s.iss.word, lend := 0, instr := .ok (.cw x y) }
  match checkIllegal (decide (s.me.rowCount ≠ 0)) l with
  | some b => .next (s.takeTrap s.iss.task b.record b.slot b.half s.iss.pc)
  | none =>
    match runOps s (goodOps l) s none with
    | .ok s' => .next s'
    | .error (s', e) => resolve s' (.error e)

end Sys2Proof.Machine
end

