-- ==== Sys2Proof/Machine/CoreEvents.lean ====
section
/-! DEFINITION. Events of a core between bundles: the end of a carve-out change (R96), pending asynchronous events (R159, R344), the
park of a long stall (R160), and soft errors in core state (R341). -/

set_option Elab.async false

namespace Sys2Proof.Machine

/-- PHASE_COMPLETE: the drain of a carve-out change has ended (R96). -/
def execPhaseComplete (d c : Nat) (s : State) : Host.Outcome State Fault Refusal :=
  .next (match (s.core d c).drain with
    | some (_, new, t) => if t ≤ s.clock then s.modCore d c fun x => { x with carve := new, drain := none } else s
    | none => s)

/-- The task of a core that can take an event between bundles: it issues, its switch is over, and no performed part of a bundle
is unfinished (R338, R344). -/
def State.takesEvents (s : State) (d c : Nat) : Option Nat :=
  ((s.core d c).issuing).filter fun i =>
    (s.task i).ending.isNone && decide ((s.core d c).switchDone ≤ s.clock) && !s.engaged i

/-- ASYNC_EVENT_TAKE: the highest pending event is taken, a pre-emption of a stalled bundle last (R339, R344). -/
def execAsyncEventTake (d c : Nat) (s : State) : Host.Outcome State Fault Refusal :=
  .next (match s.takesEvents d c with
    | none => s
    | some i =>
      match s.takeAsync i with
      | some s' => s'
      | none => if (s.task i).stallSince.isSome && s.preemptWanted i then s.rollbackPreempt i else s)

/-- Clocks after which a stalled bundle parks (R160). -/
def parkClocks : Nat := 512

/-- STALL_PARK: the bundle has waited 512 clocks, and the task parks on what it waits for (R160). -/
def execStallPark (d c : Nat) (s : State) : Host.Outcome State Fault Refusal :=
  .next (match s.takesEvents d c with
    | none => s
    | some i =>
      match (s.task i).stallSince with
      | some t => if t + parkClocks ≤ s.clock then s.park i (s.task i).stallWhy else s
      | none => s)

/-- YIELD_LIMIT: the count of bundles exceeds SYS.YIELDLIMIT and nothing higher is pending (R159, R344). -/
def execYieldLimit (d c : Nat) (s : State) : Host.Outcome State Fault Refusal :=
  .next (match s.takesEvents d c with
    | none => s
    | some i =>
      let s := s.noteYield i
      let t := s.task i
      if t.softErr.isNone && t.lateErr.isEmpty && !t.live.hnd && t.abortTok.isNone && t.stepMis.isNone then (s.takeYield i).getD s else s)

/-- CORE_PARITY_ERROR: a soft error in the core state of the issuing task is taken (R341), or is kept until an unfinished bundle has
completed (R338, R362). -/
def execCoreParityError (d c : Nat) (e : SoftErr) (s : State) : Host.Outcome State Fault Refusal :=
  .next (match (s.core d c).issuing.filter fun i => (s.task i).ending.isNone && decide ((s.core d c).switchDone ≤ s.clock) with
    | none => s
    | some i => if s.engaged i then s.modTask i fun t => { t with lateErr := t.lateErr ++ [e] } else s.parityError i e)

end Sys2Proof.Machine
end

