-- ==== Sys2Proof/Machine/Frame.lean ====
section
/-! DEFINITION. The context frame (R354 to R356) and the swap frame of a task (R164, R373). -/

set_option Elab.async false

namespace Sys2Proof.Machine

/-! ### Packing -/

/-- A handle in 128 bits (R355). WRITE lost to a read-only leaf is not among them (log 14). -/
def Handle.pack (h : Handle) : Nat :=
  h.va.toNat + h.pa.toNat * 2 ^ 57 + ofFlag h.valid * 2 ^ 109 + ofFlag h.pending * 2 ^ 110 + ofFlag h.revoked * 2 ^ 111
    + ofFlag h.noWrite * 2 ^ 112 + ofFlag h.pg2m * 2 ^ 113

/-- The attributes of the segment of an address for a launch: the local segment's are fixed (R88). -/
def Launch.segOf (l : Launch) (va : Nat) : Seg :=
  if vaSeg va = 63 then { valid := true, read := true, write := true, pinned := true } else l.seg (vaSeg va)

/-- A handle rebuilt from its 128 bits and the segment table (R355). -/
def State.unpackHandle (s : State) (i x : Nat) : Handle :=
  let va := field x 56 0
  let off := va % 2 ^ 51
  let g := (s.launch (s.task i).launch).segOf va
  let big := flag x 113
  let h := { (g.attrs va (flag x 112)) with pg2m := big, pa := BitVec.ofNat 52 (field x 108 57) }
  if field x 111 109 = 0 then {}
  else if !flag x 109 then { h with pending := flag x 110, revoked := flag x 111 }
  else
    let tile := 2 ^ g.tileLog
    let page := if big then 2 ^ 21 else 2 ^ 16
    let part : Nat × Nat :=
      if vaSeg va = 63 then
        (match s.localPart i off with
        | some (lo, n, _) => (lo, n)
        | none => (off, 1))
      else if g.pinned then (0, g.len64k * 65536)
      else if g.tiled && decide (tile < page) then (off / tile * tile, tile)
      else (off / page * page, page)
    { h with valid := true, lo := BitVec.ofNat 51 part.1, last := BitVec.ofNat 51 (part.1 + part.2 - 1) }

/-- A loop record in 320 bits (R355). -/
def LoopRec.pack (l : LoopRec) : Nat :=
  l.t + l.n * 2 ^ 64 + l.j * 2 ^ 128 + l.left * 2 ^ 192 + l.body % 2 ^ 24 * 2 ^ 256 + l.last % 2 ^ 24 * 2 ^ 280
    + l.sEff % 8 * 2 ^ 304 + l.stages % 8 * 2 ^ 307 + ofFlag l.pre * 2 ^ 310 + 2 ^ 311

/-- A loop record from its 320 bits; none when it is not active. -/
def unpackLoop (x : Nat) : Option LoopRec :=
  if flag x 311 then
    some { t := field x 63 0, n := field x 127 64, j := field x 191 128, left := field x 255 192, body := field x 279 256,
           last := field x 303 280, sEff := field x 306 304, stages := field x 309 307, pre := flag x 310 }
  else none

/-- Code of a job state (R355). -/
def JState.code : JState → Nat
  | .done => 0 | .queued => 1 | .running => 2 | .parked => 3 | .stopped => 4

/-- A job state from its code; a running job is restored as stopped (R355). -/
def jstateOf : Nat → JState
  | 1 => .queued | 2 => .stopped | 3 => .parked | 4 => .stopped | _ => .done

/-- The job part (R355). -/
def Job.pack (j : Job) : Nat :=
  j.steps % 2 ^ 64 + ofLanes 32 j.idx * 2 ^ 64 + j.state.code * 2 ^ 256 + ((j.pend.map (·.code)).getD 0) * 2 ^ 264
    + (j.word / 2 % 16) * 2 ^ 272

/-- A job from its part, over what the scheduler keeps of it. -/
def Job.unpack (j : Job) (x : Nat) : Job :=
  let code := field x 271 264
  { j with
    steps := field x 63 0
    idx := (List.range 6).map fun k => field x (64 + 32 * k + 31) (64 + 32 * k)
    state := jstateOf (field x 263 256)
    pend := if code = 0 then none else some { (j.pend.getD { code := code }) with code := code }
    onHandle := flag x 272
    rqFull := flag x 274
    rotNone := flag x 275
    halt := false }

/-- A format of the engine from its code. -/
def engOf : Nat → EngFmt
  | 0 => .mx4 | 1 => .mx8 | 2 => .mx84 | 3 => .bf16 | _ => .ab4

/-- A set of matrix parameters in 448 bytes (R356); packH packs a handle copy. -/
def MSet.pack (m : MSet) (packH : Handle → Nat) : Nat :=
  let a := (m.opA.map fun o => o.desc.toNat).getD 0
  let b := (m.opB.map fun o => o.desc.toNat).getD 0
  let ha := (m.opA.map fun o => packH o.h).getD 0
  let hb := (m.opB.map fun o => packH o.h).getD 0
  let g := (m.grant.map fun g => g.cb % 2 ^ 16 * 2 ^ 64 + g.fmt.code * 2 ^ 80 + 2 ^ 84).getD 0
  let lv := ofLanes 64 (m.levels.toList.flatMap fun l => [l.a.toNat, l.b.toNat, l.c.toNat])
  let fl := ofLanes 1 (m.levels.toList.map fun l => ofFlag l.drain)
  a + b * 2 ^ 512 + ha * 2 ^ 1024 + hb * 2 ^ 1152
    + (grantWord m.grant + g + ofFlag m.opA.isSome * 2 ^ 85 + ofFlag m.opB.isSome * 2 ^ 86) * 2 ^ 1280
    + (m.rot.toNat + m.rk.toNat * 2 ^ 64 + m.qk.toNat * 2 ^ 128) * 2 ^ 1408
    + (m.drain.toNat + m.dk.toNat * 2 ^ 64) * 2 ^ 1600
    + (m.prof.toNat + ofFlag (flag m.rot.toNat 20) * 2 ^ 8 + ofFlag (flag m.rot.toNat 21) * 2 ^ 9
        + ofFlag (flag m.drain.toNat 20) * 2 ^ 10) * 2 ^ 1728
    + (m.orgA.toNat + m.orgB.toNat * 2 ^ 64 + m.orgC.toNat * 2 ^ 128) * 2 ^ 1792
    + lv * 2 ^ 1984 + fl * 2 ^ 3136

/-- A 64-bit word of a packed part, by its first bit. -/
def wordAt (x lo : Nat) : Word := BitVec.ofNat 64 (field x (lo + 63) lo)

/-- A set of matrix parameters from its 448 bytes; unpackH rebuilds a handle copy. -/
def unpackSet (x : Nat) (unpackH : Nat → Handle) : MSet :=
  let g := field x 1407 1280
  { opA := if flag g 85 then some { desc := BitVec.ofNat 512 x, h := unpackH (field x 1151 1024) } else none
    opB := if flag g 86 then some { desc := BitVec.ofNat 512 (x / 2 ^ 512), h := unpackH (field x 1279 1152) } else none
    grant := if flag g 84 then
        some { m := field g 19 0, n := field g 39 20, k := field g 63 40, cb := field g 79 64, fmt := engOf (field g 83 80) }
      else none
    rot := wordAt x 1408, rk := wordAt x 1472, qk := wordAt x 1536
    drain := wordAt x 1600, dk := wordAt x 1664
    prof := BitVec.ofNat 8 (field x 1735 1728)
    orgA := wordAt x 1792, orgB := wordAt x 1856, orgC := wordAt x 1920
    levels := Vector.ofFn fun k : Fin 6 =>
      let lo := 1984 + 192 * k.val
      { a := wordAt x lo, b := wordAt x (lo + 64), c := wordAt x (lo + 128), drain := flag x (3136 + k.val) } }

/-- The context frame of task i: its committed state in 2 KiB (R354). -/
def State.packFrame (s : State) (i : Nat) : Nat :=
  let t := s.task i
  let r := t.dup
  let ph := Handle.pack
  let regs := ofLanes 64 ((r.s.toList.drop 1).map (·.toNat))
  let hs := ofLanes 128 (r.h.toList.map ph)
  let ms := ofLanes 256 ((r.m.toList.drop 1).map (·.toNat))
  let arr := match t.arrival with
    | some (c, n) => c % 256 + 256 + n % 2 ^ 48 * 2 ^ 16
    | none => 0
  let anc := ofLanes 64 t.ancestry
  let loops := ofLanes 320 (r.loops.reverse.map LoopRec.pack)
  regs + r.pc * 2 ^ 1984 + hs * 2 ^ 2048 + ms * 2 ^ 4096
    + (r.p.toNat / 2 % 128 * 2 + ofFlag r.hnd * 2 ^ 8 + ofFlag r.hse * 2 ^ 9 + r.winBase % 2 ^ 16 * 2 ^ 16
        + r.yieldCount % 2 ^ 32 * 2 ^ 32) * 2 ^ 5888
    + r.seed.toNat * 2 ^ 5952 + r.claimTimeout.toNat * 2 ^ 6016 + r.step.toNat * 2 ^ 6080 + r.ticket % 2 ^ 64 * 2 ^ 6144
    + (r.ep % 2 ^ 32 + r.seq % 2 ^ 32 * 2 ^ 32) * 2 ^ 6208
    + (r.callCount % 256 + t.ancestry.length % 16 * 2 ^ 8) * 2 ^ 6272
    + arr * 2 ^ 6336 + anc * 2 ^ 6400 + ofLanes 64 (r.stash.toList.map (·.toNat)) * 2 ^ 6912
    + loops * 2 ^ 7424 + t.job.pack * 2 ^ 8704 + t.shadowSet.pack ph * 2 ^ 9216 + t.active.pack ph * 2 ^ 12800

/-- The registers of a context frame. -/
def State.unpackRegs (s : State) (i x : Nat) : Regs :=
  { s := Vector.ofFn fun k : Fin 32 => if k.val = 0 then 0 else wordAt x (64 * (k.val - 1))
    pc := field x 2047 1984
    h := Vector.ofFn fun k : Fin 16 => s.unpackHandle i (field x (2048 + 128 * k.val + 127) (2048 + 128 * k.val))
    m := Vector.ofFn fun k : Fin 8 => if k.val = 0 then 0 else BitVec.ofNat 256 (x / 2 ^ (4096 + 256 * (k.val - 1)))
    p := BitVec.ofNat 8 (field x 5895 5889 * 2)
    hnd := flag x 5896, hse := flag x 5897, winBase := field x 5919 5904, yieldCount := field x 5951 5920
    seed := wordAt x 5952, claimTimeout := wordAt x 6016, step := wordAt x 6080, ticket := field x 6207 6144
    ep := field x 6239 6208, seq := field x 6271 6240, callCount := field x 6279 6272
    stash := Vector.ofFn fun k : Fin 8 => wordAt x (6912 + 64 * k.val)
    loops := ((List.range 4).filterMap fun k => unpackLoop (x / 2 ^ (7424 + 320 * k) % 2 ^ 320)).reverse }

/-- Task i with the state of a context frame. -/
def State.unpackFrame (s : State) (i x : Nat) : Task :=
  let t := s.task i
  let r := s.unpackRegs i x
  let uh := s.unpackHandle i
  let arr := field x 6399 6336
  { t with
    live := r, dup := r
    arrival := if flag arr 8 then some (arr % 256, field arr 63 16) else none
    ancestry := (List.range (field x 6283 6280)).map fun k => field x (6400 + 64 * k + 63) (6400 + 64 * k)
    job := t.job.unpack (field x 9215 8704)
    shadowSet := unpackSet (field x 12799 9216) uh
    active := unpackSet (field x 16383 12800) uh }

/-! ### Revocation (R93, R393) -/

/-- A physical address lies in a frame of a size. -/
def inFrame (pa frame size : Nat) : Bool := decide (frame ≤ pa) && decide (pa < frame + size)

/-- A handle into a frame becomes REVOKED (R93). -/
def Handle.revoke (frame size : Nat) (h : Handle) : Handle :=
  if h.valid && !h.pinned && inFrame h.pa.toNat frame size then { h with valid := false, revoked := true } else h

/-- The handles of a set of parameters, each through f. -/
def MSet.mapH (m : MSet) (f : Handle → Handle) : MSet :=
  { m with opA := m.opA.map fun o => { o with h := f o.h }, opB := m.opB.map fun o => { o with h := f o.h } }

/-- The handle copies of a set of matrix parameters, revoked (R393). -/
def MSet.revoke (frame size : Nat) (m : MSet) : MSet := m.mapH (Handle.revoke frame size)

/-- A task without its handles into a frame (R93, R393). -/
def Task.revoke (frame size : Nat) (t : Task) : Task :=
  { t with
    live := t.live.mapH (Handle.revoke frame size), dup := t.dup.mapH (Handle.revoke frame size)
    shadowSet := t.shadowSet.revoke frame size, active := t.active.revoke frame size }

/-! ### Moving extents (R31, R164) -/

/-- The poison of n bytes goes with them from one address to another: unit by unit between like places, else every unit of the one that a
poisoned unit of the other reaches (R422). -/
def movedPoison (l : List Nat) (src dst n : Nat) : List Nat :=
  let size := fun (u : Nat) => if paPlace u = .seam then 8 else 64
  let bad := l.filter fun u => overlaps u (size u) src n
  let d := size dst
  bad.flatMap fun u =>
    let lo := max u src - src + dst
    let hi := min (u + size u) (src + n) - src + dst
    (List.range ((hi + d - 1) / d - lo / d)).map fun k => (lo / d + k) * d

/-- n bytes moved from one address to another, with their poison (R422). -/
def State.moveBytes (s : State) (src dst n : Nat) : State :=
  let bad := movedPoison s.poison src dst n
  let s := s.putOutside dst n (s.bytes src n)
  { s with poison := bad.foldl setInsert s.poison }

/-- The extents of task i as (address, length): plain scratchpad, seam banks, accumulator rows. -/
def State.extents (s : State) (i : Nat) : List (Nat × Nat) :=
  let t := s.task i
  let m := s.modId t.die
  [(winAddr m t.die t.core + t.spadBase, t.spadSize), (bankAddr m t.die t.core t.bankBase, t.bankCount * 0x20000),
   (rowAddr m t.die t.core t.rowBase, t.rowCount * 256)]

/-- Bytes of a swap frame: context frame, table space and extents, rounded up to 64 KiB (R373). -/
def frameSize (spad banks rows : Nat) : Nat := roundUp (2048 + 16384 + spad + banks * 0x20000 + rows * 256) 65536

/-- Bytes of the swap frame of task i. -/
def State.frameOf (s : State) (i : Nat) : Nat :=
  let t := s.task i
  frameSize t.spadSize t.bankCount t.rowCount

/-- The swap frames in use in the area of a launch: address and length. -/
def State.framesUsed (s : State) (launch : Nat) : List (Nat × Nat) :=
  s.tasks.filterMap fun e => if e.2.launch = launch then e.2.swapFrame.map fun a => (a, s.frameOf e.1) else none

/-- A static task (R148). -/
def Task.static (t : Task) : Bool := t.parent.isNone && t.evalCell.isNone

/-- Bytes of the swap frame that an entry needs. -/
def Entry.frame (e : Entry) : Nat := frameSize (e.spad4k * 4096) e.banks (e.rows64 * 64)

/-- Bytes at the start of a launch's swap area that the static tasks before task i have for their frames (R373). -/
def State.staticBefore (s : State) (launch i : Nat) : Nat :=
  ((s.tasks.filter fun e => decide (e.2.launch = launch) && e.2.static && decide (e.1 < i)).map fun e => (s.entryOf e.1).frame).sum

/-- Bytes at the start of a launch's swap area that are kept for the frames of its static tasks (R373). -/
def State.staticLen (s : State) (launch : Nat) : Nat :=
  ((s.tasks.filter fun e => decide (e.2.launch = launch) && e.2.static).map fun e => (s.entryOf e.1).frame).sum

/-- n bytes of the swap area of a launch are free beside what is kept for its static tasks: no frame and no saved page is there (R373,
R390). -/
def State.swapFree (s : State) (launch a n : Nat) : Bool :=
  let l := s.launch launch
  inside a n (l.swapBase + s.staticLen launch) (l.swapLen * 65536 - s.staticLen launch)
    && !((s.framesUsed launch) ++ s.saved).any fun f => overlaps f.1 f.2 a n

/-- The place of task i's frame in the swap area of its launch: its own for a static task, else the lowest free one in the space that
remains, in units of 64 KiB (R373; log 70). -/
def State.framePlace (s : State) (i : Nat) : Option Nat :=
  let n := (s.task i).launch
  let l := s.launch n
  if (s.task i).static then
    let a := s.staticBefore n i
    if a + s.frameOf i ≤ l.swapLen * 65536 then some (l.swapBase + a) else none
  else
    ((List.range l.swapLen).find? fun k => s.swapFree n (l.swapBase + k * 65536) (s.frameOf i)).map fun k => l.swapBase + k * 65536

/-- Places for the frames of a list of tasks, given one after the other. -/
def State.placeFrames (s : State) : List Nat → Option State
  | [] => some s
  | i :: l =>
    match s.framePlace i with
    | some a => State.placeFrames (s.modTask i fun t => { t with swapFrame := some a }) l
    | none => none

/-- The extents of task i moved to or from its swap frame, from an address on. -/
def State.moveExtents (s : State) (out : Bool) : List (Nat × Nat) → Nat → State
  | [], _ => s
  | (a, n) :: l, f => State.moveExtents (if out then s.moveBytes a f n else s.moveBytes f a n) out l (f + n)

/-- Task i is written to its swap frame: the context frame, the table when `cwtld` has changed it, the extents (R164, R191). The predicate
rows of its banks are kept beside it (log 69). -/
def State.writeSwap (s : State) (i : Nat) : State :=
  match (s.task i).swapFrame with
  | none => s
  | some f =>
    let s := s.putOutside f 2048 (s.packFrame i)
    let s := if (s.task i).cwtDirty then
        s.putOutside (f + 2048) 16384 (ofLanes 256 ((List.range 512).map fun k => smGet 0 (s.task i).cwt k)) else s
    let s := s.modTask i fun t => { t with
      preds := (List.range t.bankCount).map fun k => ((s.core t.die t.core).bank (t.bankBase + k)).pred }
    s.moveExtents true (s.extents i) (f + 2048 + 16384)

/-- The predicate rows of the banks of a task are set (R31, R318). -/
def State.setPreds (s : State) (t : Task) (v : List (BitVec 1024)) : State :=
  s.modCore t.die t.core fun x => { x with banks := v.zipIdx.foldl (fun (m : SMap Bank) e =>
    smPut m (t.bankBase + e.2) { smGet {} m (t.bankBase + e.2) with pred := e.1 }) x.banks }

/-- The words of a control word table at an address. A word in a poisoned line is not there. DESIGN CHOICE (log 91). -/
def State.tableAt (s : State) (a : Nat) : SMap Nat :=
  (List.range 512).filterMap fun k =>
    let v := s.bytes (a + 32 * k) 32
    if v = 0 || s.poisoned (a + 32 * k) 32 then none else some (k, v)

/-- The control word table of a table image in the code of a launch (R191, R374). -/
def State.tableImage (s : State) (launch : Nat) (e : Entry) : SMap Nat :=
  match e.cwt with
  | none => []
  | some o => s.tableAt ((s.launch launch).codeBase + o * 16384)

/-- The context frame of task i is poisoned, and cannot be restored: it takes SOFT_ERROR_UNRECOVERED, its scalar registers are open values
and its handles are null (R341, R422). DESIGN CHOICE (log 91). -/
def State.lostFrame (s : State) (i : Nat) : State :=
  (s.parityError i .restore).modTask i fun t =>
    let r := { t.dup with h := Vector.replicate 16 {} }
    { t with live := r, dup := r }

/-- Task i is restored from its swap frame (R164, R191, R355). -/
def State.readSwap (s : State) (i : Nat) : State :=
  match (s.task i).swapFrame with
  | none => s
  | some f =>
    let s := s.moveExtents false (s.extents i) (f + 2048 + 16384)
    let old := s.task i
    let lost := s.poisoned f 2048 || (old.cwtDirty && s.poisoned (f + 2048) 16384)
    -- the scheduler's own record of the cells above follows a migration (R394)
    let t := if lost then old else { s.unpackFrame i (s.bytes f 2048) with ancestry := old.ancestry }
    let cwt := if t.cwtDirty then s.tableAt (f + 2048) else s.tableImage t.launch (s.entryOf i)
    let u := t.revokedOut.foldl (fun (u : Task) f => u.revoke f.1 f.2) t
    let s := (s.setTask i { u with cwt := cwt, swapFrame := none, preds := [], revokedOut := [] }).setPreds t t.preds
    if lost then s.lostFrame i else s

end Sys2Proof.Machine
end

