-- ==== Sys2Proof/Machine/Homes.lean ====
section
/-! DEFINITION. What arrives at a home: stores (R105, R122, R407), loads (R123), atomics (R142), deterministic updates and their close
(R242, R360, R361, R402), and claim requests (R118 to R120, R169 to R172). -/

set_option Elab.async false

namespace Sys2Proof.Machine

/-- A list without its n-th element. -/
def dropAt {α : Type} (l : List α) (n : Nat) : List α := l.take n ++ l.drop (n + 1)

/-! ### Stores, loads and atomics -/

/-- A store of the same task that left before x goes to the same home before it (R122). The homes of a die count as one. DESIGN CHOICE
(log 89). -/
def State.storeBefore (s : State) (y x : Store) : Bool :=
  sameHome y.pa x.pa && decide (y.task = x.task) && !s.gangHolds y.launch y.die y.pa

/-- Store n of the list may be performed now: nothing at its home or of its gang holds it back, and nothing is before it. -/
def State.storeReady (s : State) (n : Nat) (x : Store) : Bool :=
  !s.gangHolds x.launch x.die x.pa && !s.linkWaits x.die x.pa && !s.commandHolds x.pa x.len true && !s.bankBusy x.pa x.len
    && !s.overtakes x.die x.pa x.no && !(s.stores.take n).any fun y => s.storeBefore y x

/-- STORE_PERFORM: store n arrives at its home and is performed (R122); a store of an aborted gang is discarded (R418). -/
def execStorePerform (n : Nat) (s : State) : Host.Outcome State Fault Refusal :=
  .next (match s.stores[n]? with
    | none => s
    | some x =>
      if !s.storeReady n x then s
      else
        let s := { s with stores := dropAt s.stores n }
        if s.gangDrops x.launch x.die x.pa then s else s.performStore x)

/-- A home replies to the waiting bundle of a task. -/
def State.replyTo (s : State) (i pa n v : Nat) : State := s.modTask i fun t => { t with reply := some (pa, n, v) }

/-- LOAD_SERVE: load request n is served, at its core when its lines are all there, and else at its home (R29, R123). A poisoned line gives
no reply: the bundle meets the poison itself. -/
def execLoadServe (n : Nat) (s : State) : Host.Outcome State Fault Refusal :=
  .next (match s.loads[n]? with
    | none => s
    | some r =>
      if s.loadStands r.die r.core r.pa r.len r.hint r.cache (some r.no) then s
      else
        let s := { s with loads := dropAt s.loads n }
        if s.meetsPoison r.die r.core r.pa r.len r.hint r.cache then s
        else
          let (s, v) := s.fetch r.die r.core r.pa r.len r.hint r.cache
          s.replyTo r.task r.pa r.len v)

/-- The bundle of task i is performed with what its home has just done for it, in s'. When something of it waits, the home has not yet
done it, and the state stays s; when something traps or parks, the request is withdrawn, as in s0, and the bundle meets its stop
itself (R125, R338). -/
def State.withBundle (s s0 s' : State) (i : Nat) : State :=
  match s'.runWaiting i with
  | .ok t => t
  | .error (some e) => if e.rank < 2 then s0 else s
  | .error none => s0

/-- ATOMIC_PERFORM: atomic request n is performed, with the bundle that holds it (R142, R338). -/
def execAtomicPerform (n : Nat) (s : State) : Host.Outcome State Fault Refusal :=
  .next (match s.atomics[n]? with
    | none => s
    | some r =>
      let t := s.task r.task
      if s.atomicWaits t.launch t.die t.core r.pa r.kind.bytes (some r.no) then s
      else
        let s0 := { s with atomics := dropAt s.atomics n }
        if s.poisoned r.pa r.kind.bytes || (r.claim && decide (s.tag r.pa ≠ .value)) then s0
        else
          let (s', old) := s0.performAtomic t.die t.core r.pa r.kind
          s.withBundle s0 (s'.replyTo r.task r.pa r.kind.bytes old) r.task)

/-! ### Deterministic updates -/

/-- Records of the log region of a launch in use (R402). -/
def State.logRecords (s : State) (launch : Nat) : Nat :=
  (s.updates.filter fun u => u.spilled && decide (u.launch = launch)).length

/-- The first record of the log region of a launch that no update to be applied is in: records are freed when their updates are
applied (R360). -/
def State.freeRecord (s : State) (launch : Nat) : Nat :=
  let used := (s.updates.filter fun u => u.spilled && decide (u.launch = launch)).map (·.place)
  ((List.range (used.length + 1)).find? fun k => !used.contains k).getD 0

/-- Record k of the log region is written: 32 bytes whose layout the spec does not give (R402; log 13). -/
def State.writeRecord (s : State) (launch k : Nat) : State :=
  let v := ofLanes 64 ((List.range 4).map fun j => (Config.freeWord (s.freeCount + j)).toNat)
  let s := { s with freeCount := s.freeCount + 4 }
  s.putOutside ((s.launch launch).logBase + 32 * k) 32 v

/-- An update finds room at its home: an entry of its line's buffer, or else a record of the log region (R360). -/
def State.acceptFamo (s : State) (u : Update) : State :=
  let held := (s.updates.filter fun x => !x.spilled && decide (lineOf x.pa = lineOf u.pa)).length
  let k := s.freeRecord u.launch
  if held < 16 then { s with updates := s.updates ++ [{ u with spilled := false }] }
  else { (s.writeRecord u.launch k) with updates := s.updates ++ [{ u with spilled := true, place := k }] }

/-- An update takes its place with the bundle that holds it; s0 is the state without the request (R125, R338). -/
def State.takeFamo (s s0 : State) (u : Update) : State :=
  s.withBundle s0 ((s0.acceptFamo u).replyTo u.task u.pa 0 0) u.task

/-- A cell that is not VALUE, or a poisoned line, refuses an update (R119, R241). -/
def State.famoRefused (s : State) (u : Update) : Bool :=
  s.poisoned u.pa ((famoFmt u.ty).width / 8) || (u.claim && decide (s.tag u.pa ≠ .value))

/-- FAMO_HOLD: update n arrives at its home and takes its place, or waits there (R242, R360, R361). A cell that is not VALUE, or a
poisoned line, refuses it, and the bundle meets the refusal itself (R119, R241). -/
def execFamoHold (n : Nat) (s : State) : Host.Outcome State Fault Refusal :=
  .next (match s.famoSent[n]? with
    | none => s
    | some u =>
      let t := s.task u.task
      if s.atomicWaits u.launch t.die t.core u.pa ((famoFmt u.ty).width / 8) (some u.no) then s
      else
        let s0 := { s with famoSent := dropAt s.famoSent n }
        if s.famoRefused u then s0
        else if s.famoRoom u.pa u.launch then s.takeFamo s0 u
        else { s0 with famoWait := s.famoWait ++ [u] })

/-- FAMO_ACCEPT: update n of those that wait is accepted once there is room, unless its cell refuses it by then (R119, R361). -/
def execFamoAccept (n : Nat) (s : State) : Host.Outcome State Fault Refusal :=
  .next (match s.famoWait[n]? with
    | none => s
    | some u =>
      let s0 := { s with famoWait := dropAt s.famoWait n }
      if s.replyWaits (s.task u.task).die u.pa then s
      else if s.famoRefused u then s0
      else if s.famoRoom u.pa u.launch then s.takeFamo s0 u
      else s)

/-- Closed epochs with updates to apply whose earlier epochs have all been applied (R242), as (domain, epoch). -/
def State.dueEpochs (s : State) : List (Nat × Nat) :=
  let all := (s.updates.map fun u => (u.domain, u.ep)).eraseDups
  all.filter fun e => s.epochClosed e.1 e.2 && all.all fun f => decide (f.1 ≠ e.1) || decide (e.2 ≤ f.2)

/-- An update before another in key order: by key, then by sequence (R143). -/
def Update.before (a b : Update) : Bool := a.key.ult b.key || (decide (a.key = b.key) && decide (a.seq ≤ b.seq))

/-- Insertion into key order. -/
def insertUpdate (u : Update) : List Update → List Update
  | [] => [u]
  | v :: l => if u.before v then u :: v :: l else v :: insertUpdate u l

/-- Updates in key order. -/
def keyOrder (l : List Update) : List Update := l.foldr insertUpdate []

/-- One update is applied to the value that its location holds (R143), and its task's own copies of the line go (R136). A poisoned line keeps
its poison (R422), and an update held for a cell that is not VALUE by then is discarded. DESIGN CHOICE (log 90). -/
def State.applyUpdate (s : State) (u : Update) : State :=
  let n := (famoFmt u.ty).width / 8
  let t := s.task u.task
  if s.famoRefused u then s
  else (s.putOutside u.pa n (famoApply u.op u.ty (s.bytes u.pa n) u.v.toNat)).dropOwnCopies t.die t.core u.pa

/-- The updates of an epoch are applied in key order, and their places are freed (R242, R360). -/
def State.applyEpoch (s : State) (dom e : Nat) : State :=
  let mine := fun (u : Update) => decide (u.domain = dom) && decide (u.ep = e)
  let s' := (keyOrder (s.updates.filter mine)).foldl State.applyUpdate s
  { s' with updates := s'.updates.filter fun u => !mine u }

/-- EPOCH_APPLY: the n-th of the epochs that are due is applied (R242). -/
def execEpochApply (n : Nat) (s : State) : Host.Outcome State Fault Refusal :=
  .next (match s.dueEpochs[n]? with
    | none => s
    | some (dom, e) => s.applyEpoch dom e)

/-! ### Claims -/

/-- The evaluator's core (R169): the record's hint where it names an eligible core of the home die, else the draw. -/
def evalCore (l : Launch) (d : Nat) (hint : Option Nat) (key : Nat) : Nat :=
  let cs := l.eligOn d
  match hint.filter fun c => cs.any fun p => p.2 = c with
  | some c => c
  | none => (drawCore 0x0030 l.seed key cs).2

/-- The ancestry of an evaluator: its staker's with its own cell, the oldest of nine dropped (R171). -/
def growAncestry (l : List Nat) (cell : Nat) : List Nat :=
  let x := l ++ [cell]
  if 8 < x.length then x.drop (x.length - 8) else x

/-- The evaluator that a claim record describes (R169), with its first waiter's level (R170). -/
def State.evaluatorOf (s : State) (cell launch level : Nat) (ancestry : List Nat) : Task :=
  let rec64 := s.bytes cell 64
  let d := cellDie cell
  let l := s.launch launch
  let key := childKey (field rec64 511 448) (field rec64 399 392)
  let hint := if flag rec64 400 then some (field rec64 404 401) else none
  let args := (List.range 6).map fun k => BitVec.ofNat 64 (field rec64 (64 * k + 63) (64 * k))
  let t := s.newTask launch key d (evalCore l d hint key) (field rec64 391 384) ((args.headD 0).toNat % 2 ^ 24) args 0
  { t with status := .queued, domain := 2 * s.freshTask + 1, evalCell := some cell, level := min t.level level,
           ancestry := growAncestry ancestry cell }

/-- The waiter record that a claim request makes (R118, R119, R170): its task waits since it parked, or, when its home had no room, since
the moment at which its touch proceeds. -/
def State.waiterOf (s : State) (r : ClaimReq) : Waiter :=
  let t := s.task r.task
  { task := r.task, since := if r.stuck then s.time t.die else t.parkTime, timeout := t.live.claimTimeout.toNat, level := r.level }

/-- The virtual address that a parked claim load named. -/
def Task.claimVa (t : Task) : Nat :=
  match t.parkedOn with
  | .claimWait _ va => va
  | _ => 0

/-- A claim request waits for its gang's confirmation (R417), a link, or an earlier message of its die (R407). -/
def State.claimHeld (s : State) (r : ClaimReq) : Bool :=
  let t := s.task r.task
  s.gangHolds t.launch t.die r.cell || s.gangDrops t.launch t.die r.cell || s.linkWaits t.die r.cell || s.replyWaits t.die r.cell || s.overtakes t.die r.cell r.no

/-- The request of a load that its cell no longer keeps waiting: the load replays and meets the cell as it is. -/
def State.dropClaim (s : State) (n : Nat) : State := { s with claimReqs := dropAt s.claimReqs n }

/-- Request n finds no room at its home (R118, R401). -/
def State.stickClaim (s : State) (n : Nat) : State := { s with claimReqs := s.claimReqs.modify n fun r => { r with stuck := true } }

/-- CLAIM_FIRST_TOUCH: request n is the first to reach a STAKED cell (R119, R169, R172). A full claim table keeps it (R118). -/
def execClaimFirstTouch (n : Nat) (s : State) : Host.Outcome State Fault Refusal :=
  .next (match s.claimReqs[n]? with
    | none => s
    | some r =>
      let d := cellDie r.cell
      if s.claimHeld r || decide (s.tag r.cell ≠ .staked) then s
      else if s.poisoned r.cell 64 then s.dropClaim n
      else if 1024 ≤ (s.die d).claims.length then s.stickClaim n
      else
        match (s.die d).stakes.find? fun x => x.cell = r.cell with
        | none => s
        | some st =>
          let e := s.freshTask
          let t := s.evaluatorOf r.cell st.launch r.level st.ancestry
          let s := ((s.dropClaim n).setTag r.cell .working).setTask e t
          s.modDie d fun x => { x with claims := x.claims ++ [{ cell := r.cell, evaluator := e, waiters := [s.waiterOf r] }] })

/-- Change the claim-table entry of a cell. -/
def State.modClaim (s : State) (cell : Nat) (f : ClaimEntry → ClaimEntry) : State :=
  s.modDie (cellDie cell) fun x => { x with claims := x.claims.map fun e => if e.cell = cell then f e else e }

/-- The waiters of a cell change, and its evaluator's level with them (R170). -/
def State.setWaiters (s : State) (cell : Nat) (f : List Waiter → List Waiter) : State :=
  let s := s.modClaim cell fun e => { e with waiters := f e.waiters }
  match s.claimEntry cell with
  | some e => s.relevel e
  | none => s

/-- CLAIM_WAITER_ADD: request n reaches a WORKING cell and is recorded (R172), or its cell is no longer waited for. -/
def execClaimWaiterAdd (n : Nat) (s : State) : Host.Outcome State Fault Refusal :=
  .next (match s.claimReqs[n]? with
    | none => s
    | some r =>
      if s.claimHeld r then s
      else
        match s.tag r.cell, s.claimEntry r.cell with
        | .working, some e =>
          if (s.task r.task).ancestry.contains r.cell then
            (s.dropClaim n).pendTrap r.task { code := Trap.claimSelf.code, addr := (s.task r.task).claimVa }
          else if !s.waiterRoom e then s.stickClaim n
          else (s.dropClaim n).setWaiters r.cell fun l => l ++ [s.waiterOf r]
        | .staked, _ => s
        | _, _ => s.dropClaim n)

/-- The cell that a task waits for, with its waiter record. -/
def State.waitOf (s : State) (i : Nat) : Option (Nat × Waiter) :=
  (s.dies.flatMap fun d => d.2.claims.flatMap fun e => (e.waiters.filter fun w => w.task = i).map fun w => (e.cell, w)).head?

/-- The wait of a task for a cell ends with a trap: its record is removed (R119, R171). -/
def State.endWait (s : State) (i cell : Nat) (t : Trap) : State :=
  (s.pendTrap i { code := t.code, addr := (s.task i).claimVa }).setWaiters cell fun l => l.filter fun w => w.task ≠ i

/-- CLAIM_TIMEOUT: a waiter has been parked longer than its timeout (R119, R172). -/
def execClaimTimeout (t : Nat) (s : State) : Host.Outcome State Fault Refusal :=
  .next (match s.waitOf t with
    | some (cell, w) =>
      if w.timeout ≠ 0 ∧ w.since + w.timeout < s.time (s.task t).die then s.endWait t cell .claimTimeout else s
    | none => s)

/-- Task u belongs to the tree of an evaluator. -/
def State.inTree (s : State) (e u : Nat) : Bool := decide (e = u) || s.isAncestor e 6 u

/-- Task j keeps task u in the dependence table (R152). -/
def State.keepsBack (s : State) (j u : Nat) : Bool :=
  let t := s.task u
  let e := s.task j
  (decide (t.status = .pending) || decide (t.status = .queued)) && t.evalCell.isNone && e.evalCell.isNone && decide (e.launch = t.launch)
    && e.key.ult t.key && (decide (e.status ≠ .ended) || (!s.isAncestor j 6 u && s.covering j)) && s.heldBehind u j

/-- Task k is what a task of a list needs: it keeps that task in the dependence table, or descends from an ended one that does, or is of
the tree of the evaluator of a cell that the task waits for (R171). -/
def State.neededBy (s : State) (l : List Nat) (k : Nat) : Bool :=
  l.any fun u => s.keepsBack k u || (decide ((s.task u).status = .ended) && s.isAncestor u 6 k)
    || match (s.waitOf u).bind fun w => s.claimEntry w.1 with
      | some e => s.inTree e.evaluator k
      | none => false

/-- All that a list of tasks needs, by at most n steps. -/
def State.needs (s : State) : Nat → List Nat → List Nat
  | 0, l => l
  | n + 1, l => State.needs s n (s.tasksWith fun k _ => l.contains k || s.neededBy l k)

/-- CLAIM_SELF_DETECT: waiter t of a cell keeps back, in the dependence table, a task that the tree of the cell's evaluator needs (R171). -/
def execClaimSelfDetect (t : Nat) (s : State) : Host.Outcome State Fault Refusal :=
  .next (match s.waitOf t with
    | some (cell, _) =>
      match s.claimEntry cell with
      | some e =>
        let need := s.needs s.tasks.length (s.tasksWith fun k _ => s.inTree e.evaluator k)
        if need.any (s.keepsBack t) then s.endWait t cell .claimSelf else s
      | none => s
    | none => s)

end Sys2Proof.Machine
end

