-- ==== Sys2Proof/Machine/Scheduler.lean ====
section
/-! DEFINITION. The die scheduler: admission (R22, R151, R154, R359), task switches (R157), balancing (R156), shifts (R164 to R166),
and the deadlocks that it detects (R132, R361). -/

set_option Elab.async false

namespace Sys2Proof.Machine

/-! ### Admission -/

/-- The lowest start of a free run of n units below a limit; used lists the runs in use (R359). -/
def freeRun (n limit : Nat) (used : List (Nat × Nat)) : Option Nat :=
  if n = 0 then some 0
  else
    -- a lowest free run starts at 0 or at the end of a run in use
    let starts := 0 :: used.map fun r => r.1 + r.2
    (starts.filter fun k => decide (k + n ≤ limit) && !used.any fun r => overlaps r.1 r.2 k n).foldl
      (fun a k => some (match a with
        | some b => min b k
        | none => k)) none

/-- The carve-out ceiling of a core that holds the tasks rs for a launch, in bytes (R22). -/
def State.ceiling (s : State) (rs : List Task) (launch : Nat) : Nat :=
  let m := rs.foldl (fun a t => max a (s.launch t.launch).maxCarve) (s.launch launch).maxCarve
  12 * 2 ^ 20 - m * 2 ^ 20

/-- The places that a core that holds the tasks rs would give the extents of an entry of a launch (R22, R359): scratchpad base, first
bank, first row. -/
def State.placeAmong (s : State) (rs : List Task) (launch : Nat) (e : Entry) : Option (Nat × Nat × Nat) :=
  let top := 12 * 2 ^ 20 - (s.launch launch).maxCarve * 2 ^ 20
  if 4 ≤ rs.length then none
  else if rs.any fun t => decide (t.launch ≠ launch) && decide (0 < t.spadSize) && decide (top < t.spadBase + t.spadSize) then none
  else
    match freeRun e.spad4k (s.ceiling rs launch / 4096) (rs.map fun t => (t.spadBase / 4096, t.spadSize / 4096)),
      freeRun e.banks 32 (rs.map fun t => (t.bankBase, t.bankCount)),
      freeRun e.rows64 512 (rs.map fun t => (t.rowBase / 64, t.rowCount / 64)) with
    | some a, some b, some r => some (a * 4096, b, r * 64)
    | _, _, _ => none

/-- The places that a core would give the extents of an entry of a launch beside its residents. -/
def State.placeOn (s : State) (d c launch : Nat) (e : Entry) : Option (Nat × Nat × Nat) :=
  s.placeAmong ((s.residents d c).map s.task) launch e

/-- Some unended member of the shift group of task i is swapped out (R151, R164). -/
def State.groupSwapped (s : State) (i : Nat) : Bool := (s.group i).any fun j => decide ((s.task j).status = .swapped)

/-- A gang's tasks are admitted while its die reserves for them, and later (R414). -/
def State.gangReserves (s : State) (t : Task) : Bool :=
  match (s.launch t.launch).gang with
  | some g => ((s.gangs[g]?).map fun x =>
      let p := smGet .none x.phases t.die
      decide (p = GPhase.reserving) || decide (p = GPhase.acked) || decide (p = GPhase.committed) || decide (p = GPhase.started)).getD true
  | none => true

/-- Task i meets the conditions of R151 on its core. -/
def State.admissible (s : State) (i : Nat) : Bool :=
  let t := s.task i
  decide (t.status = .queued) && t.ending.isNone && !(s.launch t.launch).retired && (s.placeOn t.die t.core t.launch (s.entryOf i)).isSome && s.mayRun i && !s.groupSwapped i
    && s.gangReserves t

/-- A version put into the list of a launch, which is ordered by the keys of its writers. -/
def State.putVersion (s : State) (v : Nat × Nat × Nat × Nat) : List (Nat × Nat × Nat × Nat) → List (Nat × Nat × Nat × Nat)
  | [] => [v]
  | w :: l => if (s.task v.2.2.2).key.ult (s.task w.2.2.2).key then v :: w :: l else w :: State.putVersion s v l

/-- Task i is bound to a version of one tile at its admission: a fresh one where it writes a contended tile, else the newest whose
writer precedes it (R87, R154). -/
def State.bindTile (s : State) (i : Nat) (tile : Nat × Nat) : State :=
  let t := s.task i
  let l := s.launch t.launch
  let g := vaSeg tile.1
  let k := tile.1 % 2 ^ 51 / tile.2
  if t.tiles.any fun b => decide (b.1 = g) && decide (b.2.1 = k) then s
  else if s.freshTile i tile then
    match smGet [] l.pools g with
    | [] => s
    | f :: fs =>
      let s := s.putOutside f tile.2 0
      let s := s.modLaunch t.launch fun l => { l with
        pools := smPut l.pools g fs
        versions := s.putVersion (g, k, f, i) l.versions }
      s.modTask i fun t => { t with tiles := t.tiles ++ [(g, k, f)] }
  else
    match ((l.versions.filter fun v => decide (v.1 = g) && decide (v.2.1 = k) && (s.task v.2.2.2).key.ult t.key).getLast?) with
    | some v => s.modTask i fun t => { t with tiles := t.tiles ++ [(g, k, v.2.2.1)] }
    | none => s

/-- A shift is about to bring the group of task i in. -/
def State.shiftBrings (s : State) (d i : Nat) : Bool := (s.die d).shifts.any fun x => (s.group x.into).contains i

/-- Device time since which a task that becomes resident now counts as resident: since the boundary at which a shift that brings its group in
began (R164, R165; log 92). -/
def State.sinceNow (s : State) (i : Nat) : Nat :=
  let t := s.task i
  if s.shiftBrings t.die i then smGet 0 (s.die t.die).lastShift t.launch else s.time t.die

/-- Task i gets a slot, its extents with their predicate rows all ones, its tile versions and its control word table (R151, R154, R191,
R318, R359). -/
def State.placeTask (s : State) (i : Nat) (p : Nat × Nat × Nat) : State :=
  let t := s.task i
  let e := s.entryOf i
  let s := (s.taskTiles i).foldl (fun s x => s.bindTile i x) s
  (s.setPreds { t with bankBase := p.2.1 } (List.replicate e.banks (BitVec.allOnes 1024))).modTask i fun x => { x with
    status := .admitted, resSince := s.sinceNow i
    spadBase := p.1, spadSize := e.spad4k * 4096, bankBase := p.2.1, bankCount := e.banks, rowBase := p.2.2, rowCount := e.rows64 * 64
    cwt := s.tableImage t.launch e, cwtDirty := false }

/-! ### Switching -/

/-- Clocks of a task switch (R16). -/
def switchClocks : Nat := 64

/-- Task i becomes the issuing task of its core (R157, R161). Its own start is an acquire (R127). A claim request that found no room goes:
the load that the task replays sends another (R118, R160). -/
def State.chosen (s : State) (i : Nat) : State :=
  let t := s.task i
  let s := if t.started then s else s.acquire (s.startScope i) t.die t.core
  let s := { s with claimReqs := s.claimReqs.filter fun r => r.task ≠ i }
  let s := s.modTask i fun t => { t with status := .issuing, started := true, parkedOn := .none, latches := {}, stallSince := none }
  s.modCore t.die t.core fun x => { x with issuing := some i, switchDone := s.clock + switchClocks }

/-! ### Balancing (R156) -/

/-- Clocks between exchanges. -/
def exchangeClocks : Nat := 256

/-- A movable task. -/
def State.movable (s : State) (t : Task) : Bool :=
  (decide (t.status = .queued) || decide (t.status = .admitted)) && !t.started && t.evalCell.isNone && !t.named
    && !(s.launch t.launch).det

/-- The movable tasks of a core, largest key first. -/
def State.movables (s : State) (d c : Nat) : List Nat :=
  let l := s.tasksWith fun _ t => decide (t.die = d) && decide (t.core = c) && s.movable t
  l.foldr (fun i acc =>
    (acc.takeWhile fun j => (s.task i).key.ult (s.task j).key) ++ [i] ++ (acc.dropWhile fun j => (s.task i).key.ult (s.task j).key)) []

/-- A task moves to another core of its die: it queues there without a slot or extents. -/
def State.moveTask (s : State) (i c : Nat) : State :=
  s.modTask i fun t => { t with
    core := c, status := .queued, spadBase := 0, spadSize := 0, bankBase := 0, bankCount := 0, rowBase := 0, rowCount := 0 }

/-- One pair of cores exchanges. -/
def State.exchange (s : State) (d a b : Nat) : State :=
  let x := s.movables d a
  let y := s.movables d b
  let s := (x.take ((x.length - y.length) / 4)).foldl (fun s i => s.moveTask i b) s
  (y.take ((y.length - x.length) / 4)).foldl (fun s i => s.moveTask i a) s

/-- BALANCING_EXCHANGE: an interval of the die's balancing ends (R156). -/
def execBalancingExchange (d : Nat) (s : State) : Host.Outcome State Fault Refusal :=
  .next (
    let x := s.die d
    if !x.balancing ∨ s.clock < x.lastExchange + exchangeClocks then s
    else
      let odd := if x.parity then 1 else 0
      let s := (List.range 8).foldl (fun s j => s.exchange d ((2 * j + odd) % 16) ((2 * j + odd + 1) % 16)) s
      s.modDie d fun x => { x with lastExchange := s.clock, parity := !x.parity })

/-! ### Shifts (R164 to R166) -/

/-- The shift groups of a launch on a die, as lists of unended tasks, dependence-table entrants only. -/
def State.groupsOn (s : State) (d launch : Nat) : List (List Nat) :=
  ((s.tasksWith fun _ t => decide (t.die = d) && decide (t.launch = launch) && decide (t.status ≠ .ended)
    && decide (t.status ≠ .pending)).map s.group).eraseDups

/-- Every unended member is resident. -/
def State.groupResident (s : State) (g : List Nat) : Bool := g.all fun i => (s.task i).status.resident

/-- A member that is ready, or could start (R164). -/
def State.memberReady (s : State) (i : Nat) : Bool :=
  let t := s.task i
  match t.status with
  | .swapped => !t.swapParked || s.wakes t i
  | .queued => s.mayRun i && s.gangReserves t
  | .pending | .admitted | .issuing | .ready | .parked | .ended => false

/-- A group that waits for residency (R164). -/
def State.groupWaits (s : State) (g : List Nat) : Bool := !s.groupResident g && g.any s.memberReady

/-- The smallest key of a group. -/
def State.groupKey (s : State) (g : List Nat) : Nat := (g.map fun i => (s.task i).key.toNat).foldl min (2 ^ 64)

/-- Device time since which a group is wholly resident. -/
def State.groupSince (s : State) (g : List Nat) : Nat := (g.map fun i => (s.task i).resSince).foldl max 0

/-- The extents of two tasks overlap (R31). -/
def extentsMeet (t u : Task) : Bool :=
  overlaps t.spadBase t.spadSize u.spadBase u.spadSize || overlaps t.bankBase t.bankCount u.bankBase u.bankCount
    || overlaps t.rowBase t.rowCount u.rowBase u.rowCount

/-- The plain scratchpad of a task lies in the part that the maximum carve-out of another's launch would cover (R22, R28). -/
def State.underCarve (s : State) (t u : Task) : Bool :=
  decide (t.launch ≠ u.launch) && decide (0 < t.spadSize) && decide (12 * 2 ^ 20 - (s.launch u.launch).maxCarve * 2 ^ 20 < t.spadBase + t.spadSize)

/-- A resident task keeps a swapped one from returning to its extents (R22, R28, R31). -/
def State.hinders (s : State) (t u : Task) : Bool := extentsMeet t u || s.underCarve t u || s.underCarve u t

/-- The original extents and a slot of a swapped task are free on its core. -/
def State.returns (s : State) (i : Nat) : Bool :=
  let t := s.task i
  let rs := (s.residents t.die t.core).map s.task
  decide (rs.length < 4) && rs.all fun x => !s.hinders x t

/-- The swapped members of a group are restored one after the other; none when one finds no place (R31, R164). -/
def State.bringIn (s : State) : List Nat → Option State
  | [] => some s
  | i :: l =>
    if !s.returns i then none
    else
      let since := s.sinceNow i
      let s := s.readSwap i
      let s := s.modTask i fun t => { t with status := if t.swapParked then .parked else .ready, swapParked := false, resSince := since }
      let t := s.task i
      let s := if t.job.state = .queued then s.modCore t.die t.core fun x => { x with engine := x.engine ++ [i] }
        else if t.job.state = .parked ∧ t.job.onHandle then s.jobWalks i
        else s
      State.bringIn s l

/-- The swapped members of a group. -/
def State.outside (s : State) (g : List Nat) : List Nat := g.filter fun i => decide ((s.task i).status = .swapped)

/-- A waiting group can come in without a departure. -/
def State.groupEnters (s : State) (g : List Nat) : Bool :=
  if (s.outside g).isEmpty then
    g.any fun i => (s.placeOn (s.task i).die (s.task i).core (s.task i).launch (s.entryOf i)).isSome && decide ((s.task i).status = .queued)
      && s.memberReady i
  else (s.bringIn (s.outside g)).isSome

/-- A group can leave: every member has started, and its frames can be placed (R161, R165). -/
def State.groupLeaves (s : State) (g : List Nat) : Bool :=
  g.all (fun i => (s.task i).status.resident && decide ((s.task i).status ≠ .admitted) && (s.task i).ending.isNone) && (s.placeFrames g).isSome

/-- A group holds a place that a waiting group needs. For a task that is not yet admitted, it is of the same launch and on the same core
(R164); for a swapped task it is any that keeps it from its extents or its slot (R31, R164). -/
def State.holdsFor (s : State) (g w : List Nat) : Bool :=
  g.any fun i => w.any fun j =>
    let t := s.task i
    let u := s.task j
    decide (t.core = u.core) && !u.status.resident &&
      (if u.status = .swapped then s.hinders t u || decide (4 ≤ (s.residents t.die t.core).length) else decide (t.launch = u.launch))

/-- Every shift group of a die. -/
def State.allGroups (s : State) (d : Nat) : List (List Nat) :=
  (s.launches.filter fun e => e.2.started && !e.2.ended).flatMap fun e => s.groupsOn d e.1

/-- The groups that can leave for a waiting group. -/
def State.departures (s : State) (d : Nat) (w : List Nat) : List (List Nat) :=
  (s.allGroups d).filter fun g => s.groupResident g && s.groupLeaves g && s.holdsFor g w

/-- The group that leaves for a waiting group by default: the one resident longest, ties to the larger smallest key (R165). -/
def State.groupOut (s : State) (d : Nat) (w : List Nat) : Option (List Nat) :=
  (s.departures d w).foldl (fun a g =>
    match a with
    | none => some g
    | some h =>
      if s.groupSince g < s.groupSince h ∨ (s.groupSince g = s.groupSince h ∧ s.groupKey h < s.groupKey g) then some g else some h) none

/-- The shift by which a group must be resident again: each is, in every G consecutive shifts, G being the number of groups (R165). -/
def State.dueShift (s : State) (d launch : Nat) (g : List Nat) : Nat :=
  (g.map fun i => (s.task i).lastRes).foldl min (2 ^ 64) + (s.groupsOn d launch).length

/-- The groups of a launch that wait and need a departure, smallest key first. -/
def State.waiting (s : State) (d launch : Nat) : List (List Nat) :=
  let l := (s.groupsOn d launch).filter fun g => s.groupWaits g && !s.groupEnters g
  l.foldr (fun g acc => (acc.takeWhile fun h => decide (s.groupKey h < s.groupKey g)) ++ [g]
    ++ (acc.dropWhile fun h => decide (s.groupKey h < s.groupKey g))) []

/-- The groups left, one coming in at each of the shifts after the present one, are all resident in time: at most k of them are due by
the k-th (R165). -/
def State.inTime (s : State) (d launch : Nat) (rest : List (List Nat)) : Bool :=
  let now := smGet 0 (s.die d).shiftNo launch
  rest.all fun g =>
    decide (now + (rest.filter fun h => decide (s.dueShift d launch h ≤ s.dueShift d launch g)).length ≤ s.dueShift d launch g)

/-- A waiting group may come in now without breaking the guarantee to another (R165). -/
def State.mayEnter (s : State) (d launch : Nat) (g : List Nat) : Bool := s.inTime d launch ((s.waiting d launch).filter (· ≠ g))

/-- The waiting groups in the order in which the scheduler tries them: those that break no guarantee, the smallest key first, and then the
others by the shift in which they are due (R165). -/
def State.entryOrder (s : State) (d launch : Nat) : List (List Nat) :=
  let l := s.waiting d launch
  let late := l.filter fun g => !s.mayEnter d launch g
  l.filter (s.mayEnter d launch) ++
    late.foldr (fun g acc => (acc.takeWhile fun h => decide (s.dueShift d launch h < s.dueShift d launch g)) ++ [g]
      ++ (acc.dropWhile fun h => decide (s.dueShift d launch h < s.dueShift d launch g))) []

/-- Firmware's choice for the next shift of a launch, where it keeps the guarantee: the groups that leave and come in (R165, R383). -/
def State.firmwareChoice (s : State) (d launch : Nat) : Option (List Nat × List Nat) :=
  match smFind (s.die d).rotation launch with
  | some (o, w) =>
    let gw := s.group w
    let go := s.group o
    if (s.waiting d launch).contains gw && s.mayEnter d launch gw && (s.departures d gw).contains go then some (go, gw) else none
  | none => none

/-- The groups that leave and come in at a shift of a launch: firmware's choice, or the default (R165). A waiting group for which none can
leave waits. -/
def State.rotationOf (s : State) (d launch : Nat) : Option (List Nat × List Nat) :=
  (s.firmwareChoice d launch).or
    ((s.entryOrder d launch).findSome? fun w => (s.groupOut d w).map fun g => (g, w))

/-- A shift as it goes on: over when its group is resident, or waits no more; else with the group that still is to leave, or with the next
holder of a place that the waiting group needs, if it needs one. It is given up when none can leave (R164, R165). -/
def State.shiftStep (s : State) (d : Nat) (x : Shift) : Option Shift :=
  let w := s.group x.into
  if (s.task x.into).status = .ended ∨ !s.groupWaits w then none
  else if x.out.any fun o => s.groupResident (s.group o) && s.groupLeaves (s.group o) then some x
  else if s.groupEnters w then some { x with out := none }
  else (s.groupOut d w).map fun g => { x with out := g.head? }

/-- The shifts of a die that still have a group to bring in. -/
def State.openShifts (s : State) (d : Nat) : List Shift := (s.die d).shifts.filterMap (s.shiftStep d)

/-- A place on a core of die d is kept for the group that a shift brings in, and task i is not of it (R164). -/
def State.keptForShift (s : State) (d c i : Nat) : Bool :=
  (s.openShifts d).any fun x =>
    let w := s.group x.into
    !w.contains i && w.any fun j => decide ((s.task j).core = c) && !(s.task j).status.resident

/-- A gang of a higher level reserves a place on a core of the group, and finds none (R414). -/
def State.gangNeeds (s : State) (d : Nat) (g : List Nat) : Bool :=
  s.tasks.any fun (e : Nat × Task) =>
    decide (e.2.die = d) && decide (e.2.status = .queued) && (s.launch e.2.launch).gang.isSome && s.gangReserves e.2
      && (s.placeOn d e.2.core e.2.launch (s.entryOf e.1)).isNone
      && g.any fun i => decide ((s.task i).core = e.2.core) && decide ((s.task i).launch ≠ e.2.launch) && decide (e.2.level < (s.task i).level)

/-- A group is on its way out: a shift sends it, or it makes way for a gang. -/
def State.groupGoes (s : State) (d : Nat) (g : List Nat) : Bool :=
  s.groupResident g && ((s.openShifts d).any (fun x => (x.out.map g.contains).getD false) || (s.gangNeeds d g && s.groupLeaves g))

/-- The members of the groups of a die that are on their way out get a pre-emption request where they issue, and are not chosen again
before they have been sent out (R157, R158, R164). The shifts of the die go on first. -/
def State.markLeaving (s : State) (d : Nat) : State :=
  if (s.die d).shifts.isEmpty && s.gangs.isEmpty && !s.tasks.any fun e => e.2.leaving then s
  else
  let s := s.modDie d fun x => { x with shifts := s.openShifts d }
  let going := (s.allGroups d).filter (s.groupGoes d)
  { s with tasks := s.tasks.map fun e =>
      if e.2.die = d then
        let goes := going.any fun g => g.contains e.1
        (e.1, { e.2 with leaving := goes, preempt := e.2.preempt || (goes && decide (e.2.status = .issuing)) })
      else e }

/-- The queued task that a core admits next (R151). A place that a shift has freed waits for the group that it brings in (R164). -/
def State.nextAdmitted (s : State) (d c : Nat) : Option Nat :=
  s.firstTask (s.tasksWith fun i t => decide (t.die = d) && decide (t.core = c) && s.admissible i && !s.keptForShift d c i)

/-- TASK_ADMISSION: core c of die d admits task t (R151). -/
def execTaskAdmission (d c t : Nat) (s : State) : Host.Outcome State Fault Refusal :=
  .next (if s.nextAdmitted d c = some t then
      match s.placeOn d c (s.task t).launch (s.entryOf t) with
      | some p => s.placeTask t p
      | none => s
    else s)

/-- TASK_SWITCH: an idle core switches to its next task (R157). -/
def execTaskSwitch (d c : Nat) (s : State) : Host.Outcome State Fault Refusal :=
  .next (if (s.core d c).issuing.isSome then s
    else
      let s := s.markLeaving d
      match s.nextTask d c with
      | some i => s.chosen i
      | none => s)

/-- A shift of a launch begins, if a group waits and another can leave for it. Firmware's choice is used up. -/
def State.beginShift (s : State) (d launch : Nat) : State :=
  let r := s.rotationOf d launch
  let s := s.modDie d fun x => { x with rotation := smErase x.rotation launch }
  match r with
  | none => s
  | some (g, w) => s.modDie d fun x => { x with shifts := x.shifts ++ [{ launch := launch, out := g.head?, into := w.headD 0 }] }

/-- The groups of a launch on a die that have been resident in the whole shift that ends (R165). -/
def State.noteShift (s : State) (d launch : Nat) : State :=
  let n := smGet 0 (s.die d).shiftNo launch
  let from_ := smGet 0 (s.die d).lastShift launch
  let l := ((s.groupsOn d launch).filter fun g => s.groupResident g && decide (s.groupSince g ≤ from_)).flatten
  (l.foldl (fun s i => s.modTask i fun t => { t with lastRes := n }) s).modDie d fun x => { x with shiftNo := smPut x.shiftNo launch (n + 1) }

/-- SHIFT_BOUNDARY: a shift of a launch on a die ends (R164). -/
def execShiftBoundary (d launch : Nat) (s : State) : Host.Outcome State Fault Refusal :=
  .next (
    let x := s.die d
    if x.time < smGet 0 x.lastShift launch + x.shiftLen then s
    else
      let sh := s.openShifts d
      let s := (s.noteShift d launch).modDie d fun x => { x with lastShift := smPut x.lastShift launch x.time, shifts := sh }
      (if sh.any fun y => y.launch = launch then s else s.beginShift d launch).markLeaving d)

/-- Engine work of task i that its extents are needed for: seam macros, copies with a side in its core, and contributions whose values have
yet to be read (log 42). -/
def State.extentsBusy (s : State) (i : Nat) : Bool :=
  let t := s.task i
  ((s.core t.die t.core).banks.any fun b => b.2.queue.any fun m => decide (m.task = i))
    || (s.cmds.any fun x => decide (x.task = i) && decide (0 < x.srcIv.2 + x.dstIv.2))
    || s.foldMsgs.any fun m => decide (m.part.task = i) && m.unread && decide (0 < m.id.len)

/-- Every member of a group has stopped (R164). -/
def State.groupStopped (s : State) (g : List Nat) : Bool :=
  g.all fun i =>
    let t := s.task i
    (decide (t.status = .ready) || decide (t.status = .parked)) && !s.extentsBusy i

/-- A member is written out. A job that runs is swapped with its tile written back, and comes back stopped (R289, R355). -/
def State.sendOut (s : State) (i : Nat) : State :=
  let s := (s.writeBackTile i).writeSwap i
  let t := s.task i
  let s := s.modCore t.die t.core fun x => { x with engine := x.engine.filter (· ≠ i) }
  s.modTask i fun t => { t with
    status := .swapped, swapParked := decide (t.status = .parked), preempt := false, leaving := false, latches := {}
    job := { t.job with state := if t.job.state = .running then .stopped else t.job.state, halt := false } }

/-- GROUP_SWAP_OUT: a stopped group that a shift sends out, or that makes way for a gang, is written to its swap frames (R164, R414). A
group whose frames find no place stays, and the shift goes on to another (R165). -/
def execGroupSwapOut (d launch group : Nat) (s : State) : Host.Outcome State Fault Refusal :=
  .next (
    let g := s.group group
    if (s.task group).die ≠ d ∨ (s.task group).launch ≠ launch ∨ !s.groupGoes d g then s
    else
      if !s.groupLeaves g then s.markLeaving d
      else if !s.groupStopped g then s
      else
        match s.placeFrames g with
        | none => s
        | some s => (g.foldl State.sendOut s).markLeaving d)

/-- GROUP_SWAP_IN: a swapped group returns to its extents, unless another group of its launch is to come in first (R164). -/
def execGroupSwapIn (d launch group : Nat) (s : State) : Host.Outcome State Fault Refusal :=
  .next (
    let g := s.group group
    let other := (s.openShifts d).any fun x => decide (x.launch = launch) && !g.contains x.into
    if (s.task group).die ≠ d ∨ (s.task group).launch ≠ launch ∨ (s.outside g).isEmpty ∨ other then s
    else
      match s.bringIn (s.outside g) with
      | some s => s.markLeaving d
      | none => s)

/-! ### Deadlocks -/

/-- CREW_DEADLOCK: a member of an open round is held in the dependence table behind a member that waits at the barrier (R132). -/
def execCrewDeadlock (launch crew : Nat) (s : State) : Host.Outcome State Fault Refusal :=
  .next (
    let c := (s.launch launch).crew crew
    let held := fun (m : Nat) => (decide ((s.task m).status = .queued) || decide ((s.task m).status = .pending)) &&
      (s.task m).evalCell.isNone && c.arrived.any fun a => (s.task a).evalCell.isNone && (s.task a).key.ult (s.task m).key && s.heldBehind m a
    if c.arrived.isEmpty ∨ !c.members.any held then s
    else
      let s := c.arrived.foldl (fun s a =>
        (s.modTask a fun t => { t with arrival := none }).pendTrap a { code := Trap.crewState.code, info := crew }) s
      s.modCrew launch crew fun c => { c with arrived := [], members := c.members ++ c.joining, joining := [] })

/-- The open epoch of a domain: the lowest that some unended task has not closed (R242). It is the one that R361 tests. DEDUCED (log 93). -/
def State.openEpoch (s : State) (dom : Nat) : Option Nat :=
  ((s.tasksWith fun _ t => decide (t.domain = dom) && decide (t.status ≠ .ended)).map fun i => (s.task i).closedTo).foldl
    (fun a e => some (match a with
      | some b => min b e
      | none => e)) none

/-- What a task waits for: stalled, parked, or swapped out while it was parked (R166, R361). -/
def Task.waitsFor (t : Task) : Why :=
  match t.status with
  | .parked => t.parkedOn
  | .swapped => if t.swapParked then t.parkedOn else .none
  | .issuing => if t.stallSince.isSome then t.stallWhy else .none
  | .pending | .queued | .admitted | .ready | .ended => .none

/-- The epoch of its domain that task i waits for: in `atm.close.wait`, or to depart from `crew.sync.close`. -/
def Task.waitedEpoch (t : Task) : Option Nat :=
  match t.waitsFor with
  | .epoch dom e => if dom = t.domain then some e else none
  | _ => none

/-- An update of task i under epoch e waits for room (R361). -/
def State.waitsRoom (s : State) (i e : Nat) : Bool :=
  let t := s.task i
  (s.famoWait.any fun u => decide (u.task = i) && decide (u.ep = e))
    || (decide (t.status ≠ .issuing) && match t.waitsFor with
      | .famo dom e' pa => decide (dom = t.domain) && decide (e' = e) && !s.famoRoom pa t.launch
      | _ => false)

/-- The unended tasks of a domain that wait for epoch e. -/
def State.epochWaiters (s : State) (dom e : Nat) : List Nat :=
  s.tasksWith fun _ t => decide (t.domain = dom) && decide (t.status ≠ .ended) && decide (t.waitedEpoch = some e)

/-- The unended tasks of a domain that have not closed their part of epoch e (R242). -/
def State.openParts (s : State) (dom e : Nat) : List Nat :=
  s.tasksWith fun _ t => decide (t.domain = dom) && decide (t.status ≠ .ended) && decide (t.closedTo ≤ e)

/-- Epoch e needs a task that the dependence table holds behind one of its waiters (R251). -/
def State.epochHeld (s : State) (dom e : Nat) : Bool :=
  (s.openParts dom e).any fun m =>
    let t := s.task m
    t.evalCell.isNone && (decide (t.status = .queued) || decide (t.status = .pending)) && (s.epochWaiters dom e).any fun w =>
      decide ((s.task w).launch = t.launch) && (s.task w).evalCell.isNone && (s.task w).key.ult t.key && s.heldBehind m w

/-- Every task of a domain that has not closed its part of epoch e waits for room or for the epoch (R361). -/
def State.epochStuck (s : State) (dom e : Nat) : Bool :=
  !(s.openParts dom e).isEmpty && (s.openParts dom e).all fun i => s.waitsRoom i e || decide ((s.task i).waitedEpoch = some e)

/-- Tasks take BARRIER_STATE when they next issue. -/
def State.breakBarrier (s : State) (l : List Nat) : State :=
  l.foldl (fun s i => s.pendTrap i { code := Trap.barrierState.code }) s

/-- EPOCH_DEADLOCK of domain n: its open epoch can take no more updates and every task that it needs waits (R361), or an epoch that is
waited for needs a task that the dependence table holds behind a waiter (R251). The waiting tasks take BARRIER_STATE. -/
def execEpochDeadlock (n : Nat) (s : State) : Host.Outcome State Fault Refusal :=
  .next (match (s.openEpoch n).filter (s.epochStuck n) with
    | some e => s.breakBarrier ((s.openParts n e ++ s.epochWaiters n e).eraseDups)
    | none =>
      match ((s.tasks.filterMap fun t => if t.2.domain = n then t.2.waitedEpoch else none).eraseDups).find? (s.epochHeld n) with
      | some e => s.breakBarrier (s.epochWaiters n e)
      | none => s)

end Sys2Proof.Machine
end

