-- ==== Sys2Proof/Machine/Walker.lean ====
section
/-! DEFINITION. Page walks (R387 to R391), page faults (R390), revocation (R93, R393) and migration (R394 to R396). -/

set_option Elab.async false

namespace Sys2Proof.Machine

/-! ### The radix table (R388, R389) -/

/-- Bytes of a node of a level, which are its alignment (R388). -/
def nodeSize : Nat → Nat
  | 3 => 32768 | 2 => 4096 | 1 => 4096 | _ => 256

/-- Index of an offset at a level. -/
def levelIndex (level off : Nat) : Nat := off / 2 ^ (levelBits level).1 % 2 ^ (levelBits level).2

/-- How a walk ends (R390); entry is the address of the table entry that ended it. -/
inductive WalkEnd where
  | leaf (entry level w : Nat)
  /-- Page fault or table fault. -/
  | fault (entry level w : Nat)
  /-- MIG is set: the walk waits. -/
  | migrating (level w : Nat)
  /-- A poisoned node, or a leaf with POISON set. -/
  | poison
  | badLeaf (level w : Nat)
  | config (entry w : Nat)
  deriving DecidableEq, Repr

/-- Reserved bits of an entry are zero (R389). -/
def entryClean (w : Nat) : Bool := decide (field w 63 52 = 0) && decide (field w 7 6 = 0)

/-- An address in a home stack of a module (R26). -/
def inStacks (module pa : Nat) : Bool := isHbm pa && decide (paModule pa = module)

/-- The walk from a node of a level, with the nodes that it reads: fuel bounds the levels. -/
def State.walkFrom (s : State) (module off : Nat) : Nat → Nat → Nat → List Nat → WalkEnd × List Nat
  | 0, _, _, seen => (.config 0 0, seen)
  | fuel + 1, level, node, seen =>
    let e := node + 8 * levelIndex level off
    let seen := seen ++ [e]
    let w := s.bytes e 8
    let next := leafFrame w
    if s.poisoned e 8 then (.poison, seen)
    else if !entryClean w then (.config e w, seen)
    else
      match entryKind w with
      | 0 => (.fault e level w, seen)
      | 3 => (.fault e level w, seen)
      | 1 =>
        if level = 0 ∨ !inStacks module next ∨ next % nodeSize (level - 1) ≠ 0 then (.config e w, seen)
        else State.walkFrom s module off fuel (level - 1) next seen
      | _ =>
        if 1 < level ∨ !inStacks module next ∨ next % pageSize level ≠ 0 then (.config e w, seen)
        else if flag w 5 then (.migrating level w, seen)
        else if flag w 4 then (.badLeaf level w, seen)
        else (.leaf e level w, seen)

/-- The walk of a segment offset of a launch: how it ends, and the entries read. The root must be an aligned node of the segment's home
module (R388, R390). -/
def State.walk (s : State) (launch seg off : Nat) : WalkEnd × List Nat :=
  let g := (s.launch launch).seg seg
  if !inStacks g.homeMod g.base ∨ g.base % nodeSize 3 ≠ 0 then (.config g.base 0, []) else s.walkFrom g.homeMod off 4 3 g.base []

/-! ### Filling (R91, R390) -/

/-- A handle waits for the page of a segment offset (R91). -/
def Handle.awaits (h : Handle) (seg off page : Nat) : Bool :=
  !h.valid && (h.pending || h.revoked) && decide (h.seg.toNat = seg) && decide (h.va.toNat % 2 ^ 51 / page = off / page)

/-- Task t is parked on an access through register k to a page (R92). -/
def Task.parkedAt (t : Task) (seg off page : Nat) : Option Nat :=
  match t.status, t.parkedOn with
  | .parked, .handle g va k _ _ | .parked, .cmdHandle g va k => if g = seg ∧ va % 2 ^ 51 / page = off / page then some k else none
  | _, _ => none

/-- The handle filled from a leaf. -/
def State.refill (s : State) (i level w : Nat) (h : Handle) : Handle :=
  let g := (s.launch (s.task i).launch).segOf h.va.toNat
  s.fillHandle i (g.attrs h.va.toNat h.noWrite) (leafFrame w) (decide (level = 1)) (flag w 3)

/-- A register file with its handles that a leaf fills: every pending one on the page, and the one in register k that its task is parked
on (R91, R92). A revoked copy elsewhere waits for its own first use (R235). -/
def Regs.refill (r : Regs) (parked : Option Nat) (on : Handle → Bool) (f : Handle → Handle) : Regs :=
  { r with h := Vector.ofFn fun k : Fin 16 =>
      let h := r.h[k]
      if on h && (h.pending || decide (parked = some k.val)) then f h else h }

/-- What a leaf fills (R91, R92, R290): the handles of a die's tasks of a launch, in the live and the duplicate set, and the operand copies
of their parked jobs. -/
def State.fillAll (s : State) (die launch seg off level w : Nat) : State :=
  let on := fun (h : Handle) => h.awaits seg off (pageSize level)
  { s with tasks := s.tasks.map fun e =>
      if e.2.die = die ∧ e.2.launch = launch then
        let f := s.refill e.1 level w
        let k := e.2.parkedAt seg off (pageSize level)
        let job := decide (e.2.job.state = .parked) && e.2.job.onHandle
        (e.1, { e.2 with
          live := e.2.live.refill k on f, dup := e.2.dup.refill k on f
          active := if job then e.2.active.mapH fun h => if on h then f h else h else e.2.active })
      else e }

/-- The translation cache of a die with one more entry; the oldest leaves a full cache (R390). -/
def State.cacheLeaf (s : State) (die launch seg off level w : Nat) : State :=
  let page := pageSize level
  let k := (launch, seg, off / page * page, decide (level = 1), w)
  s.modDie die fun x =>
    let l := x.tlb.filter fun e => !(decide (e.1 = launch) && decide (e.2.1 = seg) && decide (e.2.2.1 / page = off / page))
    { x with tlb := (if 8192 ≤ l.length then l.drop 1 else l) ++ [k] }

/-- The parked job of a task waits for the page of a walk (R290). -/
def Task.jobOn (t : Task) (w : Walk) : Bool :=
  decide (t.job.state = .parked) && t.job.onHandle && decide (t.die = w.die) && decide (t.launch = w.launch)
    && ((t.active.opA.map fun o => o.h.awaits w.seg w.off 65536).getD false
      || (t.active.opB.map fun o => o.h.awaits w.seg w.off 65536).getD false)

/-- The job of a task that waits for the page of a walk ends with a fault about the page (R290, R291). -/
def State.faultJobs (s : State) (w : Walk) (code : Nat) : State :=
  s.tasks.foldl (fun (s : State) (e : Nat × Task) => if e.2.jobOn w then s.jobFault e.1 code (w.seg * 2 ^ 51 + w.off) else s) s

/-- The access that a task is parked on, in the record of a trap (R346, R390). -/
def accessTrap (why : Why) : TrapRec :=
  match why with
  | .handle _ _ _ acc isWrite => { code := Trap.memPoison.code, addr := acc, write := isWrite }
  | _ => { code := Trap.memPoison.code }

/-- Task i is parked on a page that a walk found poisoned: its access takes MEM_POISON, and a command that it was to issue ends with status
POISON as it issues (R390). -/
def State.poisonParked (s : State) (i : Nat) (w : Walk) : State :=
  match (s.task i).parkedOn with
  | .cmdHandle .. => s.modTask i fun t => { t with walkPoison := some (w.seg, w.off / 65536) }
  | why => s.pendTrap i (accessTrap why)

/-- What waits for a poisoned page gets its trap or its status (R390). -/
def State.poisonWaiters (s : State) (w : Walk) : State :=
  let hit := fun (h : Handle) => h.awaits w.seg w.off 65536
  let on := fun (i : Nat) => decide ((s.task i).die = w.die) && decide ((s.task i).launch = w.launch)
  let s1 := (s.faultJobs w Trap.memPoison.code).tasks.foldl (fun (s : State) (e : Nat × Task) =>
    if !on e.1 then s
    else
      let s := if (e.2.parkedAt w.seg w.off 65536).isSome then s.poisonParked e.1 w else s
      let gone := e.2.scans.filter fun x => hit x.h
      s.modTask e.1 fun t => { t with
        scans := t.scans.filter fun x => !hit x.h
        cReply := gone.foldl (fun m x => smPut m x.port (0xFF00 + CStat.poison.code)) t.cReply }) (s.faultJobs w Trap.memPoison.code)
  let s2 := s.cmds.foldl (fun (s : State) (c : Cmd) => if on c.task && (hit c.hs || hit c.hd) then s.endCmd c CStat.poison.code else s) s1
  s.cores.foldl (fun (s : State) (e : Nat × Core) => e.2.relays.foldl (fun (s : State) (r : Nat × Relay) =>
    if r.2.state = .firing ∧ on r.2.task ∧ (hit r.2.hs || hit r.2.hd) then
      (s.dropRfold (e.1 / 16) (e.1 % 16) r.1).relayDone (e.1 / 16) (e.1 % 16) r.1 CStat.poison.code else s) s) s2

/-- Walks in flight per die (R390). -/
def walkSlots : Nat := 32

/-- Place of walk n among the walks of its die. -/
def State.walkPlace (s : State) (n : Nat) (w : Walk) : Nat :=
  ((s.walks.take n).filter fun x => decide (x.die = w.die) && !x.faulted && !x.dead).length

/-- WALK_COMPLETE: walk n reads its entries and ends as R390 states. For a matrix job, a page that the walk cannot ever give is gone for
good (R290; log 71). -/
def execWalkComplete (n : Nat) (s : State) : Host.Outcome State Fault Refusal :=
  .next (match s.walks[n]? with
    | none => s
    | some w =>
      if w.faulted ∨ w.dead ∨ walkSlots ≤ s.walkPlace n w then s
      else
        let r := s.walk w.launch w.seg w.off
        let s := { s with nodes := r.2.foldl (fun l e => if l.contains (e / 65536, w.launch) then l else l ++ [(e / 65536, w.launch)]) s.nodes }
        match r.1 with
        | .leaf e level x =>
          let x := if flag x 0 then x else x + 1
          let s := if flag (s.bytes e 8) 0 then s else s.putBytes e 8 x
          let s := (s.fillAll w.die w.launch w.seg w.off level x).cacheLeaf w.die w.launch w.seg w.off level x
          let page := pageSize level
          { s with walks := s.walks.filter fun y =>
              !(decide (y.die = w.die) && decide (y.launch = w.launch) && decide (y.seg = w.seg) && decide (y.off / page = w.off / page)) }
        | .fault _ _ _ => { s with walks := s.walks.set n { w with faulted := true } }
        | .migrating _ _ => s
        | .poison | .badLeaf _ _ => State.poisonWaiters { s with walks := dropAt s.walks n } w
        | .config e x =>
          let s := State.faultJobs { s with walks := s.walks.set n { w with dead := true } } w Trap.handleBounds.code
          s.logEvent { code := 0x0D, die := w.die, sev := 1, unit := 33, launch := (s.launch w.launch).number, addr := e % 2 ^ 42, info := x })

/-- An address moved from one frame to another. -/
def movePa (src dst size pa : Nat) : Nat := if inFrame pa src size then pa - src + dst else pa

/-- The ranges that at-bank jobs hold go with a frame (R287, R294). -/
def State.moveRanges (s : State) (src dst size : Nat) : State :=
  { s with tasks := s.tasks.map fun e => (e.1, { e.2 with
      job := { e.2.job with ranges := e.2.job.ranges.map fun r => (movePa src dst size r.1, r.2) } }) }

/-- A misplaced area is recorded (R398, R401, code 0x11). -/
def State.noteArea (s : State) (d o : Nat) (bad : Bool) : State :=
  if bad then s.logEvent { code := 0x11, die := d, sev := 1, unit := 32, info := o } else s

/-- Areas of a die that a change from s has put out of use: the error log records the fault of each (R398, R401). -/
def State.noteLost (s t : State) (d : Nat) : State :=
  let lost := fun (u v : Nat) => decide (u ≠ 0) && decide (v = 0)
  let t := t.noteArea d 0x40000 (lost (s.stagingBytes d 0) (t.stagingBytes d 0))
  let t := t.noteArea d 0x41000 (lost (s.stagingBytes d 1) (t.stagingBytes d 1))
  t.noteArea d 0x42000 (lost (s.claimBytes d) (t.claimBytes d))

/-- The same for every die. -/
def State.noteAreas (s t : State) : State := (List.range 8).foldl s.noteLost t

/-- The bytes of a saved page or node come back, with their poison (R390, R422), and their place in the swap area is free. -/
def State.restore (s : State) (src dst n : Nat) : State :=
  let s := (s.moveBytes src dst n).moveRanges src dst n
  { s with saved := s.saved.filter fun f => decide (f.1 ≠ src) }

/-- PAGE_FAULT_RESOLVE: firmware writes a leaf or a node entry for walk n, after restoring saved contents, and the walk repeats
(R390). -/
def execPageFaultResolve (n : Nat) (entry : Word) (s : State) : Host.Outcome State Fault Refusal :=
  .next (match s.walks[n]? with
    | none => s
    | some w =>
      if !w.faulted then s
      else
        let s0 := { s with walks := s.walks.set n { w with faulted := false } }
        match (s.walk w.launch w.seg w.off).1 with
        | .fault e level x =>
          let node := decide (1 < level)
          let want := if node && decide (entryKind x = 3) then 1 else entryKind entry.toNat
          if (want ≠ 1 ∧ want ≠ 2) ∨ want ≠ entryKind entry.toNat ∨ (!node && decide (entryKind x = 3) && decide (want ≠ 2)) then s
          else
            let size := if node then nodeSize (level - 1) else pageSize level
            let s := if entryKind x = 3 then s0.restore (leafFrame x) (leafFrame entry.toNat) size else s0
            s0.noteAreas (s.putOutside e 8 entry.toNat)
        | _ => s0)

/-! ### Revocation (R93, R393) -/

/-- The migration that revokes a frame on a core that has not acknowledged it. -/
def State.revoking (s : State) (d c frame : Nat) : Option Migration :=
  s.migrations.find? fun m => decide (m.src = frame) && m.waitCores.contains (d, c)

/-- Accesses and engine work of a core through a frame that have not ended (R93, R393). -/
def State.frameBusy (s : State) (d c frame size : Nat) : Bool :=
  (s.stores.any fun x => decide (x.die = d) && decide (x.core = c) && overlaps x.pa x.len frame size)
    || (s.loads.any fun x => decide (x.die = d) && decide (x.core = c) && overlaps x.pa x.len frame size)
    || (s.atomics.any fun x => decide ((s.task x.task).die = d) && decide ((s.task x.task).core = c) && inFrame x.pa frame size)
    || (s.cmds.any fun x => decide (x.die = d) && decide (x.core = c)
      && ((x.hs.valid && inFrame x.hs.pa.toNat frame size) || (x.hd.valid && inFrame x.hd.pa.toNat frame size)))
    || ((s.core d c).relays.any fun r => decide (r.2.state = .firing)
      && ((r.2.hs.valid && inFrame r.2.hs.pa.toNat frame size) || (r.2.hd.valid && inFrame r.2.hd.pa.toNat frame size)))
    || s.tasks.any fun e => decide (e.2.die = d) && decide (e.2.core = c) && decide (e.2.job.state = .running)
      && e.2.job.ranges.any fun r => overlaps r.1 r.2 frame size

/-- Task i loses its handles into a frame, and its withheld stores with a rollback where one goes through it (R93). Those of a swapped task
are in its context frame, and lose their translation as the task returns. -/
def State.revokeTask (s : State) (i frame size : Nat) : State :=
  let hit := (s.task i).withheld.any fun x => overlaps x.pa x.len frame size
  let s := if hit then s.rollback i else s
  s.modTask i fun t => { t.revoke frame size with
    revokedOut := if t.status = .swapped then t.revokedOut ++ [(frame, size)] else t.revokedOut }

/-- The handles of a core into a frame are revoked, those of its tasks and those of its posted relays (R93, R393). -/
def State.revokeCore (s : State) (d c frame size : Nat) : State :=
  let l := s.tasksWith fun _ t => decide (t.die = d) && decide (t.core = c) && decide (t.status ≠ .ended)
  let s := l.foldl (fun s i => s.revokeTask i frame size) s
  s.modCore d c fun x => { x with relays := x.relays.map fun r =>
    if r.2.state = .posted ∨ r.2.state = .armed then
      (r.1, { r.2 with hs := r.2.hs.revoke frame size, hd := r.2.hd.revoke frame size })
    else r }

/-- HANDLE_REVOKE: the revocation of a frame reaches a core, which acknowledges it once nothing of its own is under way through the
frame (R93, R393). -/
def execHandleRevoke (d c frame : Nat) (s : State) : Host.Outcome State Fault Refusal :=
  .next (match s.revoking d c frame with
    | none => s
    | some m =>
      if (s.core d c).issuing.any s.engaged then s
      else
        let s := s.revokeCore d c frame m.size
        if s.frameBusy d c frame m.size then s
        else { s with migrations := s.migrations.map fun x =>
          if x.src = frame then { x with waitCores := x.waitCores.filter (· ≠ (d, c)) } else x })

/-! ### Migration (R394 to R396) -/

/-- The leaf that a migration event names: bit 0 marks a 2 MiB leaf (log 15). -/
def migLeaf (leaf : Nat) : Nat × Nat := (leaf / 8 * 8, if leaf % 2 = 1 then 2 ^ 21 else 2 ^ 16)

/-- The frame may not move: a node lies in it, a pinned segment or a rename pool covers it, or a line of it is not VALUE (R394). -/
def State.frameFixed (s : State) (frame size : Nat) : Bool :=
  (s.nodes.any fun k => inFrame (k.1 * 65536) frame size)
    || (s.tags.any fun e => inFrame e.1 frame size)
    || s.launches.any fun e => e.2.alive && e.2.segs.any fun g => g.valid &&
        ((g.pinned && overlaps g.base (g.len64k * 65536) frame size)
          || (g.tiled && overlaps g.rpBase (g.rpCount * 2 ^ g.tileLog) frame size))

/-- The cores of the dies of the launches with a pageable segment: those that a revocation goes to (R393). -/
def State.revokedCores (s : State) : List (Nat × Nat) :=
  (List.range 8).flatMap fun d =>
    if s.launches.any fun e => e.2.alive && flag e.2.dies d && e.2.segs.any fun g => g.valid && !g.pinned then
      (List.range 16).map fun c => (d, c)
    else []

/-- An interval meets the fold staging of a stack, or the claim area of a die (R398, R401). -/
def State.inAreas (s : State) (pa n : Nat) : Bool :=
  (List.range 8).any fun d =>
    let at_ := fun (base len : Nat) => overlaps (globalOf (s.modId d) base) len pa n
    ((List.range 2).any fun st => let x := (s.die d).stack st; at_ x.fstBase.toNat (x.fstLen * 65536))
      || at_ (s.die d).clBase.toNat ((s.die d).clLen * 65536)

/-- A frame is free: no launch has a page, a segment, a node, a claim cell or an area of its own there, and no other migration uses it
(R394). -/
def State.frameFree (s : State) (frame size : Nat) : Bool :=
  !s.frameFixed frame size && !s.inAreas frame size && !(s.migrations.any fun m => overlaps m.src m.size frame size || overlaps m.dst m.size frame size)
    && !s.launches.any fun e => e.2.alive &&
      (overlaps e.2.swapBase (e.2.swapLen * 65536) frame size || overlaps e.2.logBase (e.2.logLen * 65536) frame size
        || overlaps e.2.codeBase e.2.codeLen frame size
        || e.2.segs.any fun g => g.valid && !g.pinned && s.tableMaps frame size 3 g.base)

/-- A frame that the migration of another may go to (R394, R396). -/
def State.frameTakes (s : State) (src size dst : Nat) : Bool :=
  decide (dst % size = 0) && sameHome dst src && isHbm dst && !overlaps src size dst size
    && !(s.badFrames.any fun f => overlaps f 65536 dst size) && s.frameFree dst size

/-- MIGRATE_FRAME: firmware starts the migration of the frame of a leaf: MIG is set and the frame is revoked; or it is refused
(R394). -/
def execMigrateFrame (leaf dst : Nat) (s : State) : Host.Outcome State Fault Refusal :=
  .next (
    let (e, size) := migLeaf leaf
    let w := s.bytes e 8
    let src := leafFrame w
    if entryKind w ≠ 2 ∨ flag w 5 ∨ flag w 4 ∨ !s.frameTakes src size dst then s
    else if s.frameFixed src size then s.logEvent { code := 0x0C, die := paDie src, sev := 1, unit := 32, addr := src % 2 ^ 42, info := 1 }
    else
      let s := s.putOutside e 8 (w + 32)
      { s with
        dies := s.dies.map fun x => (x.1, { x.2 with tlb := x.2.tlb.filter fun k => !inFrame (leafFrame k.2.2.2.2) src size })
        migrations := s.migrations ++ [{ leaf := leaf, src := src, dst := dst, size := size, waitCores := s.revokedCores }] })

/-- What a task that is parked waits for, with the address that a frame takes along. -/
def moveWhy (f : Nat → Nat) (w : Why) : Why :=
  match w with
  | .claimWait cell va => .claimWait (f cell) va
  | .famo d e pa => .famo d e (f pa)
  | w => w

/-- The claims of a frame go with it: their entries, stakes, requests and evaluators, and the ancestries that name them (R171, R394). -/
def State.moveClaims (s : State) (f : Nat → Nat) : State :=
  { s with
    claimReqs := s.claimReqs.map fun r => { r with cell := f r.cell }
    dies := s.dies.map fun e => (e.1, { e.2 with
      claims := e.2.claims.map fun x => { x with cell := f x.cell }
      stakes := e.2.stakes.map fun x => { x with cell := f x.cell, ancestry := x.ancestry.map f } })
    tasks := s.tasks.map fun e => (e.1, { e.2 with
      evalCell := e.2.evalCell.map f, ancestry := e.2.ancestry.map f, parkedOn := moveWhy f e.2.parkedOn }) }

/-- What was held at the old frame goes on at the new one, and so do the ranges that at-bank jobs hold (R294, R394, step 5). -/
def State.moveHeld (s : State) (src dst size : Nat) : State :=
  let f := movePa src dst size
  let s := (s.moveRanges src dst size).moveClaims f
  { s with
    stores := s.stores.map fun x => { x with pa := f x.pa }
    loads := s.loads.map fun x => { x with pa := f x.pa }
    atomics := s.atomics.map fun x => { x with pa := f x.pa }
    updates := s.updates.map fun x => { x with pa := f x.pa }
    famoWait := s.famoWait.map fun x => { x with pa := f x.pa }
    famoSent := s.famoSent.map fun x => { x with pa := f x.pa } }

/-- The lines of a frame are invalidated in L2 and in every RDC (R93, R394, step 3). -/
def State.dropLines (s : State) (frame size : Nat) : State :=
  { s with
    dirty := s.dirty.filter fun l => !inFrame l frame size
    dies := s.dies.map fun e => (e.1, { e.2 with rdc := e.2.rdc.filter fun x => !inFrame x.1 frame size }) }

/-- A frame copied with its claim tags and poison marks (R394, step 4). -/
def State.copyFrame (s : State) (src dst size : Nat) : State :=
  let v := memRead s.mem src size
  { s with
    mem := memWrite s.mem dst size v
    tags := (s.tags.filter fun e => inFrame e.1 src size).foldl (fun m e => smPut m (e.1 - src + dst) e.2)
      (s.tags.filter fun e => !inFrame e.1 src size && !inFrame e.1 dst size)
    poison := (s.poison.filter fun u => inFrame u src size).foldl (fun l u => setInsert l (u - src + dst))
      (s.poison.filter fun u => !inFrame u dst size)
    dirty := s.dirty.filter fun l => !inFrame l dst size }

/-- The leaf of a migration written with a frame and its MIG bit cleared; the migration is over. -/
def State.endMigration (s : State) (m : Migration) (frame : Nat) (poison : Bool) : State :=
  let (e, _) := migLeaf m.leaf
  let w := s.bytes e 8
  let w := setField (setField w 51 8 (frame / 256)) 5 5 0
  let s := s.putOutside e 8 (if poison then setField w 4 4 1 else w)
  { s with migrations := s.migrations.filter fun x => x ≠ m }

/-- A frame whose write failed is marked unusable (R396). -/
def State.failFrame (size : Nat) (s : State) (f : Nat) : State :=
  let s := { s with badFrames := (List.range (size / 65536)).foldl (fun l k => setInsert l (f + 65536 * k)) s.badFrames }
  s.logEvent { code := 0x0C, die := paDie f, sev := 1, unit := 32, addr := f % 2 ^ 42, info := 3 }

/-- The copy of a migration meets an uncorrectable line of the old frame, and the migration aborts (R395). -/
def State.abortMigration (s : State) (m : Migration) (line : Nat) : State :=
  let s := { s with poison := setInsert s.poison line }
  let s := s.logEvent { code := 0x0C, die := paDie m.src, sev := 1, unit := 32, addr := m.src % 2 ^ 42, info := 2, info2 := line % 2 ^ 42 }
  s.endMigration m m.src true

/-- MIGRATION_COPY of migration n, when every core has acknowledged. more tells how the copy went: the second and the third destination,
when the ones before them could not be written, three entries when all three failed; and a line of the old frame itself, where that line
proved uncorrectable in the attempt that it follows. A line that was poisoned before is copied as such, and says nothing (R394 to R396;
log 15). -/
def execMigrationCopy (n : Nat) (more : List Nat) (s : State) : Host.Outcome State Fault Refusal :=
  .next (match s.migrations[n]? with
    | none => s
    | some m =>
      let own := fun (x : Nat) => inFrame x m.src m.size
      let more := more.filter fun x => !(own x && s.poisoned x 1)
      let next := more.takeWhile fun x => !own x
      let free := State.frameTakes { s with migrations := s.migrations.filter (· ≠ m) } m.src m.size
      if !m.waitCores.isEmpty ∨ !(next.take 2).all free ∨ !(m.dst :: next.take 2).Nodup
          ∨ (s.cmds.any fun c => anyMeet (c.reads ++ c.writes) [(m.src, m.size)]) then s
      else
        let s := s.dropLines m.src m.size
        let tried := (m.dst :: next).take 3
        if 3 ≤ next.length then (tried.foldl (State.failFrame m.size) s).endMigration m m.src false
        else
          let s := tried.dropLast.foldl (State.failFrame m.size) s
          match more.find? own with
          | some x => s.abortMigration m (lineOf x)
          | none =>
            let last := tried.getLast?.getD m.dst
            ((s.copyFrame m.src last m.size).moveHeld m.src last m.size).endMigration m last false)

/-- Every core of the module, by key. -/
def allCores : List (Nat × Nat) := (List.range 128).map fun k => (k / 16, k % 16)

/-- PAGE_OUT: firmware saves the page of a leaf to the swap area of a launch and marks the leaf non-resident (R390). It revokes the
page first, on every core, and saves it once no work is under way through it (R393; log 16). -/
def execPageOut (leaf save : Nat) (s : State) : Host.Outcome State Fault Refusal :=
  .next (
    let (e, size) := migLeaf leaf
    let w := s.bytes e 8
    let src := leafFrame w
    let area := s.launches.any fun x => x.2.alive && s.swapFree x.1 save size
    if entryKind w ≠ 2 ∨ flag w 5 ∨ flag w 4 ∨ s.frameFixed src size ∨ !area ∨ save % 65536 ≠ 0
        ∨ (allCores.any fun k => (s.core k.1 k.2).issuing.any s.engaged) then s
    else
      let s := allCores.foldl (fun s k => s.revokeCore k.1 k.2 src size) s
      let s := { s with dies := s.dies.map fun x => (x.1, { x.2 with tlb := x.2.tlb.filter fun k => !inFrame (leafFrame k.2.2.2.2) src size }) }
      if allCores.any fun k => s.frameBusy k.1 k.2 src size then s
      else
        let s := ((s.dropLines src size).moveBytes src save size).moveRanges src save size
        State.putOutside { s with saved := s.saved ++ [(save, size)] } e 8 (setField (setField w 51 8 (save / 256)) 2 1 3))

end Sys2Proof.Machine
end

