-- ==== Sys2Proof/Machine/Host.lean ====
section
/-! DEFINITION. The host link: registers of BAR0 (R8, R365, R368, R381, R398, R401, R409, R427), the BAR2 window (R366, R367), and
the completion rings (R378). -/

set_option Elab.async false

namespace Sys2Proof.Machine

/-! ### Launch queues and completion rings (R368, R378) -/

/-- Queue q. -/
def HostIf.queue (h : HostIf) (q : Nat) : Queue := smGet {} h.queues q

/-- Queue q of the module. -/
def State.queue (s : State) (q : Nat) : Queue := s.host.queue q

/-- The state with a queue changed. -/
def State.modQueue (s : State) (q : Nat) (f : Queue → Queue) : State :=
  { s with host := { s.host with queues := smPut s.host.queues q (f (s.queue q)) } }

/-- Records of a ring by its size register, which the spec limits to 4 to 16: a value outside is kept and read back, and stands for the
nearest of these (R8, R368; log 19). -/
def ringRecords (n : Nat) : Nat := 2 ^ min 16 (max 4 n)

/-- Records that the queue holds and the device has not taken (R368). -/
def Queue.untaken (x : Queue) : Nat := (x.qtail + 2 ^ 32 - x.qhead) % 2 ^ 32

/-- QERR is set, and vector 10 signals it (R368, R379). -/
def State.queueError (s : State) (q : Nat) : State :=
  if (s.queue q).qerr then s else (s.modQueue q fun x => { x with qerr := true }).signal 10

/-- Completions of a ring that the host has not consumed. -/
def Queue.unread (x : Queue) : Nat := (x.ctail + 2 ^ 32 - x.chead) % 2 ^ 32

/-- A completion is written to the ring of a queue, with the phase of the pass, and its vector follows (R378). -/
def State.ringWrite (s : State) (q : Nat) (c : BitVec 512) : State :=
  let x := s.queue q
  let n := ringRecords x.csize
  let phase := if x.ctail / n % 2 = 0 then 1 else 0
  let s := { s with host := { s.host with mem := memWrite s.host.mem (x.cbase.toNat + 64 * (x.ctail % n)) 64 (c.toNat % 2 ^ 511 + phase * 2 ^ 511) } }
  (s.modQueue q fun x => { x with ctail := (x.ctail + 1) % 2 ^ 32 }).signal q

/-- Pending completions are written while the ring has room; n bounds how many (R378). -/
def State.flushRing (s : State) (q : Nat) : Nat → State
  | 0 => s
  | n + 1 =>
    let x := s.queue q
    match x.waiting with
    | c :: l => if x.unread < ringRecords x.csize then State.flushRing ((s.modQueue q fun x => { x with waiting := l }).ringWrite q c) q n else s
    | [] => s

/-- A completion joins those of its queue and is written when its turn comes (R378). -/
def State.postCompletion (s : State) (q : Nat) (c : BitVec 512) : State :=
  let s := s.modQueue q fun x => { x with waiting := x.waiting ++ [c] }
  s.flushRing q (s.queue q).waiting.length

/-- QTAIL_WRITE: the driver advances a tail; more records than the ring holds set QERR (R368). -/
def State.writeQtail (s : State) (q : Nat) (v : Word) : State :=
  let s := s.modQueue q fun x => { x with qtail := v.toNat % 2 ^ 32 }
  if ringRecords (s.queue q).qsize < (s.queue q).untaken then s.queueError q else s

/-- BAR0 offset of a queue register. -/
def queueOff (q o : Nat) : Nat := 0x10000 + q * 0x100 + o

/-- QUEUE_CONFIG_WRITE: QBASE or QSIZE; a change while records are untaken sets QERR (R368). -/
def State.writeQueueConfig (s : State) (q : Nat) (isSize : Bool) (v : Word) : State :=
  let x := s.queue q
  let y := if isSize then { x with qsize := v.toNat } else { x with qbase := v }
  let s := s.modQueue q fun _ => y
  if x.qhead ≠ x.qtail ∧ (y.qsize ≠ x.qsize ∨ y.qbase ≠ x.qbase) then s.queueError q else s

/-- QSTAT_CLEAR: writing 1 clears QERR and drops the untaken records (R368). -/
def State.writeQstat (s : State) (q : Nat) (v : Word) : State :=
  if v.getLsbD 0 then s.modQueue q fun x => { x with qerr := false, qhead := x.qtail } else s

/-- CHEAD_WRITE: the host consumes completions, and those that waited are written (R378). CHEAD counts modulo 2^32, as QTAIL does.
DEDUCED (log 83). -/
def State.writeChead (s : State) (q : Nat) (v : Word) : State :=
  let s := s.modQueue q fun x => { x with chead := v.toNat % 2 ^ 32 }
  s.flushRing q (s.queue q).waiting.length

/-- CBASE and CSIZE (R368). -/
def State.writeRing (s : State) (q : Nat) (isSize : Bool) (v : Word) : State :=
  s.modQueue q fun x => if isSize then { x with csize := v.toNat } else { x with cbase := v }

/-- A register of a queue (R368). -/
def State.writeQueue (s : State) (q o : Nat) (v : Word) : State :=
  match o with
  | 0x00 => s.writeQueueConfig q false v
  | 0x08 => s.writeQueueConfig q true v
  | 0x10 => s.writeQtail q v
  | 0x18 | 0x40 => s
  | 0x20 => s.writeQstat q v
  | 0x28 => s.writeRing q false v
  | 0x30 => s.writeRing q true v
  | 0x38 => s.writeChead q v
  | _ => s.ignoredWrite 0 (queueOff q o)

/-- A register of a queue read (R368). -/
def State.readQueue (s : State) (q o : Nat) : Nat :=
  let x := s.queue q
  match o with
  | 0x00 => x.qbase.toNat
  | 0x08 => x.qsize
  | 0x10 => x.qtail
  | 0x18 => x.qhead
  | 0x20 => ofFlag x.qerr
  | 0x28 => x.cbase.toNat
  | 0x30 => x.csize
  | 0x38 => x.chead
  | 0x40 => x.ctail
  | _ => 0

/-! ### The mailbox (R381, R382) -/

/-- Mailbox statuses (R382). -/
inductive MStat where
  | ok | full | cert | claimState | noLaunch | noStamp | short | auth | version | badCommand | address
  deriving DecidableEq, Repr

/-- Codes of the mailbox statuses (R382). -/
def MStat.code : MStat → Nat
  | .ok => 0x00 | .full => 0x02 | .cert => 0x05 | .claimState => 0x0D | .noLaunch => 0x0E | .noStamp => 0x0F | .short => 0x10
  | .auth => 0x11 | .version => 0x12 | .badCommand => 0x13 | .address => 0x14

/-- A mailbox command ends: its status is written and vector 8 signalled (R379, R382). -/
def State.mbDone (s : State) (st : MStat) (result : Nat := 0) : State :=
  State.signal { s with host := { s.host with mailbox :=
    { s.host.mailbox with busy := false, status := st.code, result := result % 2 ^ 32, unstamping := none } } } 8

/-- The loader has the command of a code with these arguments before it. -/
def State.mbHolds (s : State) (cmd : Nat) (args : List Word) : Bool :=
  s.host.mailbox.busy && decide (s.host.mailbox.cmd.toNat = cmd) && s.host.mailbox.unstamping.isNone
    && decide (s.host.mailbox.arg.toList.take args.length = args)

/-- The arguments from number n on hold no set bit: the command gives them no role (R382). -/
def State.mbSpare (s : State) (n : Nat) : Bool := (s.host.mailbox.arg.toList.drop n).all fun w => w = 0

/-- Commands of the mailbox (R381, R403, R431). -/
def mbAssigned (v : Nat) : Bool := decide (1 ≤ v) && decide (v ≤ 7)

/-- MBCMD written: the command is taken up, or refused at once where the value is not assigned; ignored and counted while one runs
(R381, R382). -/
def State.writeMbcmd (s : State) (v : Word) : State :=
  if s.host.mailbox.busy then s.ignoredWrite 0 0x20000
  else
    let s := { s with host := { s.host with mailbox := { s.host.mailbox with cmd := v, busy := true } } }
    if mbAssigned v.toNat then s else s.mbDone .badCommand

/-- MBARG0 to MBARG3 written. -/
def State.writeMbarg (s : State) (k : Fin 4) (v : Word) : State :=
  { s with host := { s.host with mailbox := { s.host.mailbox with arg := s.host.mailbox.arg.set k v } } }

/-- A register of the mailbox (R381). -/
def State.writeMailbox (s : State) (o : Nat) (v : Word) : State :=
  match o with
  | 0x00 => s.writeMbcmd v
  | 0x08 => s.writeMbarg 0 v
  | 0x10 => s.writeMbarg 1 v
  | 0x18 => s.writeMbarg 2 v
  | 0x20 => s.writeMbarg 3 v
  | 0x28 => s
  | _ => s.ignoredWrite 0 (0x20000 + o)

/-- A register of the mailbox read (R381). -/
def Mailbox.read (m : Mailbox) (o : Nat) : Nat :=
  match o with
  | 0x00 => m.cmd.toNat
  | 0x08 => m.arg[0].toNat
  | 0x10 => m.arg[1].toNat
  | 0x18 => m.arg[2].toNat
  | 0x20 => m.arg[3].toNat
  | 0x28 => ofFlag m.busy * 2 ^ 63 + m.status % 256 * 2 ^ 32 + m.result % 2 ^ 32
  | _ => 0

/-! ### Peer counters (R367) -/

/-- PEERID written: the requester is chosen and its counter reset (R367). -/
def State.writePeer (s : State) (n : Nat) (v : Word) : State :=
  { s with host := { s.host with peers := smPut s.host.peers n { id := v.toNat % 2 ^ 16, valid := flag v.toNat 16 } } }

/-- A counter that names a requester counts n bytes (R367). -/
def Peer.count (requester n : Nat) (p : Peer) : Peer :=
  if p.valid ∧ p.id = requester % 2 ^ 16 then { p with bytes := (p.bytes + n) % 2 ^ 64 } else p

/-- Bytes of a requester are counted in every counter that names it (R367). -/
def State.countPeer (s : State) (requester n : Nat) : State :=
  { s with host := { s.host with peers := s.host.peers.map fun e => (e.1, e.2.count requester n) } }

/-! ### Registers of a die (R398, R401, R409) -/

/-- BAR0 offset of a die's register. -/
def dieOff (d o : Nat) : Nat := 0x100000 + d * 0x60000 + o

/-- The state with the registers of a home stack changed. -/
def State.modStack (s : State) (d st : Nat) (f : StackRegs → StackRegs) : State :=
  s.modDie d fun x => { x with stackRegs := smPut x.stackRegs st (f (x.stack st)) }

/-- FSTUSED: staging bytes reserved, in units of 64 bytes, of which a last one begun counts (R398). -/
def State.stagingUnits (s : State) (st : Nat × Nat) : Nat := (s.stagingUsed st + 63) / 64

/-- STAGING_CONFIG_WRITE: FSTBASE or FSTLEN, ignored and counted while staging is in use (R398). -/
def State.writeStaging (s : State) (d st : Nat) (isLen : Bool) (v : Word) : State :=
  let o := if isLen then 0x40008 + st * 0x1000 else 0x40000 + st * 0x1000
  if s.stagingUnits (d, st) ≠ 0 then s.ignoredWrite d (dieOff d o)
  else
    let s := s.modStack d st fun x => if isLen then { x with fstLen := v.toNat % 2 ^ 32 } else { x with fstBase := v }
    s.noteArea d o (decide (((s.die d).stack st).fstLen ≠ 0) && decide (s.stagingBytes d st = 0))

/-- CLAIM_AREA_WRITE: CLBASE or CLLEN, ignored and counted while slots are in use (R401). -/
def State.writeClaimArea (s : State) (d : Nat) (isLen : Bool) (v : Word) : State :=
  let o := if isLen then 0x42008 else 0x42000
  if s.claimAreaUsed d ≠ 0 then s.ignoredWrite d (dieOff d o)
  else
    let s := s.modDie d fun x => if isLen then { x with clLen := v.toNat } else { x with clBase := v }
    s.noteArea d o (decide ((s.die d).clLen ≠ 0) && decide (s.claimBytes d = 0))

/-- TWBASE or TWLEN of a window (R398). -/
def State.writeWindow (s : State) (d st w : Nat) (isLen : Bool) (v : Word) : State :=
  if isLen then s.modStack d st fun x => { x with twLen := smPut x.twLen w (v.toNat % 2 ^ 36) }
  else s.modStack d st fun x => { x with twBase := smPut x.twBase w v }

/-- An RWL register of a die: ignored and counted after the boot lock (R8, R409). -/
def State.writeLocked (s : State) (d o : Nat) (f : Die → Die) : State :=
  if s.bootLocked then s.ignoredWrite d (dieOff d o) else s.modDie d f

/-- The stack, window and half of an offset into the registers of the home stacks: TWBASE and TWLEN (R398). -/
def windowReg (o : Nat) : Option (Nat × Nat × Bool) :=
  let st := (o - 0x40000) / 0x1000
  let k := (o - 0x40000) % 0x1000
  if 0x40000 ≤ o ∧ o < 0x42000 ∧ 0x100 ≤ k ∧ k < 0x180 ∧ k % 8 = 0 then some (st, (k - 0x100) / 16, decide (k % 16 = 8)) else none

/-- A register of a die by its offset (R398, R401, R409). -/
def State.writeDie (s : State) (d o : Nat) (v : Word) : State :=
  match windowReg o with
  | some (st, w, isLen) => s.writeWindow d st w isLen v
  | none =>
    match o with
    | 0x40000 => s.writeStaging d 0 false v
    | 0x40008 => s.writeStaging d 0 true v
    | 0x41000 => s.writeStaging d 1 false v
    | 0x41008 => s.writeStaging d 1 true v
    | 0x40010 | 0x40018 | 0x41010 | 0x41018 | 0x43010 | 0x43018 => s
    | 0x42000 => s.writeClaimArea d false v
    | 0x42008 => s.writeClaimArea d true v
    | 0x43000 => s.writeLocked d o fun x => { x with moduleId := v.toNat % 2 ^ 10 }
    | 0x43008 => s.writeLocked d o fun x => { x with domSize := v.toNat % 2 ^ 11 }
    | 0x43020 => s.writeLocked d o fun x => { x with timeRoot := v.toNat % 2 ^ 13 }
    | _ => s.ignoredWrite d (dieOff d o)

/-- Contributions held for want of staging in a stack (FSTHELD, R398). -/
def State.stagingHeld (s : State) (st : Nat × Nat) : Nat :=
  (s.foldMsgs.filter fun m => m.waiting && decide (stackOf m.id.addr = st)).length

/-- A register of a die read (R398, R401, R409). -/
def State.readDie (s : State) (d o : Nat) : Nat :=
  let x := s.die d
  match windowReg o with
  | some (st, w, isLen) => if isLen then s.twLen d st w else s.twBase d st w
  | none =>
    match o with
    | 0x40000 => (x.stack 0).fstBase.toNat
    | 0x40008 => (x.stack 0).fstLen
    | 0x40010 => s.stagingUnits (d, 0)
    | 0x40018 => s.stagingHeld (d, 0)
    | 0x41000 => (x.stack 1).fstBase.toNat
    | 0x41008 => (x.stack 1).fstLen
    | 0x41010 => s.stagingUnits (d, 1)
    | 0x41018 => s.stagingHeld (d, 1)
    | 0x42000 => x.clBase.toNat
    | 0x42008 => x.clLen
    | 0x43000 => x.moduleId
    | 0x43008 => x.domSize
    | 0x43010 => x.time
    | 0x43018 => x.timeUnc.toNat
    | 0x43020 => x.timeRoot
    | _ => 0

/-! ### The error log window (R427, R429) -/

/-- A window offset of the error log that is listed (R427). -/
def logListed (o : Nat) : Bool :=
  decide (o < 0x20) || (decide (0x1000 ≤ o) && decide (o < 0x2000)) || (decide (0x2000 ≤ o) && decide (o < 0x2800) && decide (o % 0x100 < 48))
    || (decide (0x40000 ≤ o) && decide (o < 0xC0000))

/-- A register of the error log written (R427); an offset that is not listed counts as an ignored write (R365). -/
def State.writeLog (s : State) (o : Nat) (v : Word) : State :=
  match o with
  | 0x08 => { s with log := { s.log with head := v.toNat % 2 ^ 32 } }
  | 0x18 => { s with log := { s.log with irq := v.getLsbD 0 } }
  | _ => if logListed o && decide (o % 8 = 0) then s else s.ignoredWrite 0 (0x40000 + o)

/-- A word of the error log window read (R427, R429). -/
def State.readLog (s : State) (o : Nat) : Nat :=
  if o < 0x20 then
    (match o with
    | 0x00 => s.log.tail
    | 0x08 => s.log.head
    | 0x10 => s.log.lost
    | 0x18 => ofFlag s.bootLocked * 2 + ofFlag s.log.irq
    | _ => 0)
  else if 0x1000 ≤ o ∧ o < 0x2000 then smGet 0 s.log.counters ((o - 0x1000) / 8)
  else if 0x2000 ≤ o ∧ o < 0x2800 then (smGet 0 (s.die ((o - 0x2000) / 0x100)).telemetry ((o - 0x2000) % 0x100 / 8)).toNat
  else if 0x40000 ≤ o ∧ o < 0xC0000 then (smGet 0 s.log.ring ((o - 0x40000) / 64)).toNat / 2 ^ (64 * ((o - 0x40000) % 64 / 8)) % 2 ^ 64
  else 0

/-! ### BAR0 (R365) -/

/-- A 64-bit write to BAR0. -/
def State.writeBar0 (s : State) (off : Nat) (v : Word) : State :=
  if off = 0x18 then { s with host := { s.host with win2Base := v } }
  else if off = 0 ∨ off = 8 then s
  else if 0x10000 ≤ off ∧ off < 0x10800 then s.writeQueue ((off - 0x10000) / 0x100) ((off - 0x10000) % 0x100) v
  else if 0x20000 ≤ off ∧ off < 0x20040 then s.writeMailbox (off - 0x20000) v
  else if 0x28000 ≤ off ∧ off < 0x28100 ∧ off % 8 = 0 then
    (if off % 16 = 0 then s.writePeer ((off - 0x28000) / 16) v else s)
  else if 0x30000 ≤ off ∧ off < 0x31000 ∧ off % 8 = 0 then
    { s with host := { s.host with msixMem := memWrite s.host.msixMem (off - 0x30000) 8 v.toNat } }
  else if 0x40000 ≤ off ∧ off < 0x100000 then s.writeLog (off - 0x40000) v
  else if 0x100000 ≤ off ∧ off < 0x400000 then s.writeDie ((off - 0x100000) / 0x60000) ((off - 0x100000) % 0x60000) v
  else s.ignoredWrite 0 off

/-- A 64-bit read of BAR0: an offset that is not listed reads as zero (R365). No event of the table: a read changes nothing. -/
def State.readBar0 (s : State) (off : Nat) : Nat :=
  if off = 0 then Config.partId.toNat
  else if off = 8 then (Config.fwVersion (s.firmware.getD [])).toNat
  else if off = 0x18 then s.host.win2Base.toNat
  else if 0x10000 ≤ off ∧ off < 0x10800 then s.readQueue ((off - 0x10000) / 0x100) ((off - 0x10000) % 0x100)
  else if 0x20000 ≤ off ∧ off < 0x20040 then s.host.mailbox.read (off - 0x20000)
  else if 0x28000 ≤ off ∧ off < 0x28100 then
    (let p : Peer := smGet {} s.host.peers ((off - 0x28000) / 16)
     if off % 16 = 0 then p.id + ofFlag p.valid * 2 ^ 16 else if off % 16 = 8 then p.bytes else 0)
  else if 0x30000 ≤ off ∧ off < 0x31000 then memRead s.host.msixMem (off - 0x30000) 8
  else if 0x40000 ≤ off ∧ off < 0x100000 then s.readLog (off - 0x40000)
  else if 0x100000 ≤ off ∧ off < 0x400000 then s.readDie ((off - 0x100000) / 0x60000) ((off - 0x100000) % 0x60000)
  else 0

/-! ### BAR2 (R366, R367) -/

/-- Linear offsets end here: 768 GiB. -/
def linearEnd : Nat := 768 * 2 ^ 30

/-- The window is placed so that an access of n bytes at an offset reaches HBM (R366). -/
def HostIf.reaches (h : HostIf) (off n : Nat) : Bool :=
  decide (h.win2Base.toNat % 2 ^ h.win2Log = 0) && decide (h.win2Base.toNat + off + n ≤ linearEnd)

/-- The bytes that one line gives to a read: zero where its claim tag is not VALUE (R366). -/
def State.bar2Line (s : State) (pa n : Nat) : Nat := if s.tag pa = .value then s.bytes pa n else 0

/-- The bytes of n low bytes of a value, lowest first. -/
def bytesOf (v n : Nat) : List Byte := (List.range n).map (byteAt v)

/-- A line lies in a stamped code image (R366, R380). -/
def State.stamped (s : State) (pa n : Nat) : Bool :=
  s.host.stamps.any fun e => e.2.valid && overlaps e.2.base e.2.len (pa % 2 ^ 42) n

/-- A BAR2 write that is dropped, with its window offset (R366, code 0x0B). -/
def State.dropBar2 (s : State) (off : Nat) : State := s.logEvent { code := 0x0B, die := 0, sev := 0, unit := 32, info := off }

/-- One line of a BAR2 write: performed at its home, or dropped and counted (R366, R367). -/
def State.bar2Put (s : State) (off pa n v requester : Nat) : State :=
  if s.stamped pa n || decide (s.tag pa ≠ .value) || (s.poisoned pa n && decide (n < 64)) then s.dropBar2 off
  else (s.putOutside pa n v).countPeer requester n

/-- A BAR2 access waits, on its way from die 0 for a link or behind an earlier message (R406, R407), or at a home (R113, R366): a stack
command holds some byte of it, or an access that came earlier and waits goes to a line of it. -/
def State.bar2Waits (s : State) (before : List Bar2Op) (x : Bar2Op) : Bool :=
  (s.bar2Lines x).any fun p => s.commandHolds p.1 p.2 x.isWrite || s.bar2Meets before p.1 p.2 || s.linkWaits 0 p.1
    || s.overtakes 0 p.1 x.no || (!x.isWrite && s.replyWaits 0 p.1)

/-- A BAR2 access is performed line by line (R366): the completion of a read is left in the host interface. -/
def State.bar2Do (s : State) (x : Bar2Op) : State :=
  let l := s.bar2Lines x
  let put := fun (st : Nat) (b : List Byte) => { s with host := { s.host with readData := b, readStatus := st } }
  if x.isWrite then
    s.noteAreas <| l.zipIdx.foldl (fun s p =>
      let done := ((l.take p.2).map (·.2)).sum
      s.bar2Put (x.off + done) p.1.1 p.1.2 (ofLanes 8 (((x.bytes.drop done).take p.1.2).map (·.toNat))) x.requester) s
  else if l.any fun p => s.poisoned p.1 p.2 then put 1 []
  else put 0 (l.flatMap fun p => bytesOf (s.bar2Line p.1 p.2) p.2)

/-- A BAR2 access arrives: it is performed, or waits behind those that came before it (R366). -/
def State.bar2Take (s : State) (x : Bar2Op) : State :=
  let x := { x with no := s.sent }
  if s.bar2Waits s.host.bar2 x then { s with sent := s.sent + 1, host := { s.host with bar2 := s.host.bar2 ++ [x] } } else s.bar2Do x

/-- BAR2_READ (R366). -/
def execBar2Read (off len : Nat) (s : State) : Host.Outcome State Fault Refusal :=
  .next (
    if !s.host.reaches off len then { s with host := { s.host with readData := [], readStatus := 2 } }
    else s.bar2Take { lin := s.host.win2Base.toNat + off, off := off, len := len })

/-- BAR2_WRITE (R366, R367). -/
def execBar2Write (off : Nat) (bytes : List Byte) (requester : Nat) (s : State) : Host.Outcome State Fault Refusal :=
  .next (
    if !s.host.reaches off bytes.length then s.dropBar2 off
    else s.bar2Take { lin := s.host.win2Base.toNat + off, off := off, len := bytes.length, isWrite := true, bytes := bytes, requester := requester })

/-- The access of number n of those that wait is performed, if nothing holds it any more (R113, R366). -/
def State.bar2Step (s : State) (n : Nat) : State :=
  match s.host.bar2[n]? with
  | none => s
  | some x =>
    if s.bar2Waits (s.host.bar2.take n) x then s
    else State.bar2Do { s with host := { s.host with bar2 := s.host.bar2.eraseIdx n } } x

/-! ### The events of the registers -/

/-- QTAIL_WRITE (R368). -/
def execQtailWrite (q : Nat) (v : Word) (s : State) : Host.Outcome State Fault Refusal := .next (s.writeQtail (q % 8) v)

/-- QSTAT_CLEAR (R368). -/
def execQstatClear (q : Nat) (v : Word) (s : State) : Host.Outcome State Fault Refusal := .next (s.writeQstat (q % 8) v)

/-- CHEAD_WRITE (R378). -/
def execCheadWrite (q : Nat) (v : Word) (s : State) : Host.Outcome State Fault Refusal := .next (s.writeChead (q % 8) v)

/-- QUEUE_CONFIG_WRITE (R368). -/
def execQueueConfigWrite (q : Nat) (isSize : Bool) (v : Word) (s : State) : Host.Outcome State Fault Refusal :=
  .next (s.writeQueueConfig (q % 8) isSize v)

/-- PEERID_WRITE (R367). -/
def execPeeridWrite (n : Nat) (v : Word) (s : State) : Host.Outcome State Fault Refusal := .next (s.writePeer (n % 16) v)

/-- STAGING_CONFIG_WRITE (R398). -/
def execStagingConfigWrite (d st : Nat) (isLen : Bool) (v : Word) (s : State) : Host.Outcome State Fault Refusal :=
  .next (s.writeStaging (d % 8) (st % 2) isLen v)

/-- CLAIM_AREA_WRITE (R401). -/
def execClaimAreaWrite (d : Nat) (isLen : Bool) (v : Word) (s : State) : Host.Outcome State Fault Refusal :=
  .next (s.writeClaimArea (d % 8) isLen v)

/-- REGISTER_WRITE (R8, R365). -/
def execRegisterWrite (off : Nat) (v : Word) (s : State) : Host.Outcome State Fault Refusal := .next (s.writeBar0 off v)

end Sys2Proof.Machine
end

