-- ==== Sys2Proof/Machine/Sha256.lean ====
section
/-! DEFINITION. SHA-256 (FIPS 180-4), which the spec uses for code images, gang descriptors and measurements (R380, R414, R431).
PRESUMED (log 17): the spec names the function and does not repeat its definition. -/

set_option Elab.async false

namespace Sys2Proof.Machine

/-- A 32-bit word of SHA-256. -/
abbrev W32 := BitVec 32

/-- The round constants. -/
def shaK : List W32 :=
  [0x428a2f98, 0x71374491, 0xb5c0fbcf, 0xe9b5dba5, 0x3956c25b, 0x59f111f1, 0x923f82a4, 0xab1c5ed5] ++
  [0xd807aa98, 0x12835b01, 0x243185be, 0x550c7dc3, 0x72be5d74, 0x80deb1fe, 0x9bdc06a7, 0xc19bf174] ++
  [0xe49b69c1, 0xefbe4786, 0x0fc19dc6, 0x240ca1cc, 0x2de92c6f, 0x4a7484aa, 0x5cb0a9dc, 0x76f988da] ++
  [0x983e5152, 0xa831c66d, 0xb00327c8, 0xbf597fc7, 0xc6e00bf3, 0xd5a79147, 0x06ca6351, 0x14292967] ++
  [0x27b70a85, 0x2e1b2138, 0x4d2c6dfc, 0x53380d13, 0x650a7354, 0x766a0abb, 0x81c2c92e, 0x92722c85] ++
  [0xa2bfe8a1, 0xa81a664b, 0xc24b8b70, 0xc76c51a3, 0xd192e819, 0xd6990624, 0xf40e3585, 0x106aa070] ++
  [0x19a4c116, 0x1e376c08, 0x2748774c, 0x34b0bcb5, 0x391c0cb3, 0x4ed8aa4a, 0x5b9cca4f, 0x682e6ff3] ++
  [0x748f82ee, 0x78a5636f, 0x84c87814, 0x8cc70208, 0x90befffa, 0xa4506ceb, 0xbef9a3f7, 0xc67178f2]

/-- The initial hash value. -/
def shaInit : List W32 :=
  [0x6a09e667, 0xbb67ae85, 0x3c6ef372, 0xa54ff53a, 0x510e527f, 0x9b05688c, 0x1f83d9ab, 0x5be0cd19]

/-- A big-endian word of four bytes. -/
def shaWord : List Byte → W32
  | a :: b :: c :: d :: _ => a ++ b ++ c ++ d
  | _ => 0

/-- The words of a list of bytes, n of them. -/
def shaWords : Nat → List Byte → List W32
  | 0, _ => []
  | n + 1, l => shaWord l :: shaWords n (l.drop 4)

/-- Sixteen words of the schedule and the words after them, n more; the window holds the last sixteen. -/
def shaSchedule : Nat → List W32 → List W32
  | 0, w => w
  | n + 1, w =>
    let a := w.getD 1 0
    let b := w.getD 14 0
    let s0 := a.rotateRight 7 ^^^ a.rotateRight 18 ^^^ a >>> 3
    let s1 := b.rotateRight 17 ^^^ b.rotateRight 19 ^^^ b >>> 10
    w.headD 0 :: shaSchedule n (w.drop 1 ++ [w.getD 0 0 + s0 + w.getD 9 0 + s1])

/-- One round. -/
def shaRound (h : List W32) (kw : W32 × W32) : List W32 :=
  match h with
  | [a, b, c, d, e, f, g, x] =>
    let t1 := x + (e.rotateRight 6 ^^^ e.rotateRight 11 ^^^ e.rotateRight 25) + ((e &&& f) ^^^ (~~~e &&& g)) + kw.1 + kw.2
    let t2 := (a.rotateRight 2 ^^^ a.rotateRight 13 ^^^ a.rotateRight 22) + ((a &&& b) ^^^ (a &&& c) ^^^ (b &&& c))
    [t1 + t2, a, b, c, d + t1, e, f, g]
  | _ => h

/-- One block of 64 bytes. -/
def shaBlock (h : List W32) (l : List Byte) : List W32 :=
  let w := shaSchedule 48 (shaWords 16 l)
  (h.zip ((shaK.zip w).foldl shaRound h)).map fun p => p.1 + p.2

/-- The blocks of a padded message, n of them. -/
def shaBlocks : Nat → List Byte → List W32 → List W32
  | 0, _, h => h
  | n + 1, l, h => shaBlocks n (l.drop 64) (shaBlock h l)

/-- n bytes of a number, most significant first. -/
def bigEndian (n v : Nat) : List Byte := ((List.range n).map fun k => BitVec.ofNat 8 (v / 2 ^ (8 * k))).reverse

/-- SHA-256 of a list of bytes, its first byte most significant. -/
def sha256 (l : List Byte) : BitVec 256 :=
  let n := l.length
  let pad := (119 - n % 64) % 64
  let m := l ++ [0x80] ++ List.replicate pad 0 ++ bigEndian 8 (8 * n)
  BitVec.ofNat 256 ((shaBlocks (m.length / 64) m shaInit).foldl (fun a w => a * 2 ^ 32 + w.toNat) 0)

end Sys2Proof.Machine
end

