-- ==== Sys2Proof/Machine/Submit.lean ====
section
/-! DEFINITION. Submission: launch records and their tables (R372 to R375, R385, R413), the checks (R376), the scan of the queues
(R368, R370, R371), and the completion record (R378, R379). -/

set_option Elab.async false

namespace Sys2Proof.Machine

/-! ### Completion records (R378) -/

/-- Launch statuses (R379). -/
inductive LStat where
  | ok | record | resource | crew | segment | cert | aborted | retired | heldFull | gang
  deriving DecidableEq, Repr

/-- Codes of the launch statuses (R379). -/
def LStat.code : LStat → Nat
  | .ok => 0 | .record => 1 | .resource => 2 | .crew => 3 | .segment => 4 | .cert => 5 | .aborted => 6 | .retired => 7
  | .heldFull => 8 | .gang => 9

/-- The completion of a launch (R378); its phase is set when it is written. -/
def Launch.completion (l : Launch) (kind : Nat) (st : LStat) (stakes endTime number : Nat) : BitVec 512 :=
  BitVec.ofNat 512 (min stakes 65535 * 2 ^ 344 + l.nAbort % 2 ^ 24 * 2 ^ 320 + l.firstStat % 2 ^ 16 * 2 ^ 304 + l.dies % 2 ^ 8 * 2 ^ 288
    + number % 2 ^ 16 * 2 ^ 272 + ofFlag l.fatal * 2 ^ 266 + kind % 4 * 2 ^ 264 + st.code * 2 ^ 256 + endTime % 2 ^ 64 * 2 ^ 192
    + l.startTime % 2 ^ 64 * 2 ^ 128 + l.firstKey.toNat * 2 ^ 64 + l.tag.toNat)

/-! ### Records and tables -/

/-- The address of a module-local address of this module (R369). -/
def State.here (s : State) (ml : Nat) : Nat := globalOf (s.modId 0) ml

/-- A footprint range from its 128 bits (R375). -/
def parseRange (x : Nat) : Range := { base := field x 56 0, len64 := field x 95 57, stride := sextNat 32 (field x 127 96) }

/-- An entry table entry from its 256 bytes (R374). ROWS64 has the nine bits that its field has, so that its largest value, 512, cannot be
written (log 76). -/
def parseEntry (x : Nat) : Entry :=
  { code := field x 1043 1024, rows64 := field x 1052 1044, spad4k := field x 1064 1053, banks := field x 1070 1065
    cwt := if flag x 1071 then some (field x 1081 1072) else none
    rd := (List.range 4).map fun k => parseRange (field x (128 * k + 127) (128 * k))
    wr := (List.range 4).map fun k => parseRange (field x (512 + 128 * k + 127) (512 + 128 * k)) }

/-- A segment table entry from its 32 bytes (R385). -/
def parseSeg (x : Nat) : Seg :=
  { valid := flag x 3, read := flag x 4, write := flag x 5, pinned := flag x 6, cache := flag x 7, checked := flag x 8
    claim := flag x 9, tiled := flag x 10, tileLog := 12 + field x 14 11, homeDie := field x 2 0, homeMod := field x 25 16
    len64k := field x 111 76, base := field x 163 112, rpBase := field x 215 164, rpCount := field x 235 216 }

/-- A crew table entry (R375). -/
structure CrewWord where
  first : Nat
  count : Nat
  stride : Nat
  die : Nat
  reserved : Bool
  deriving DecidableEq, Repr

/-- A crew table entry from its word (R375). -/
def parseCrew (x : Nat) : CrewWord :=
  { first := field x 63 40, count := field x 39 16, stride := field x 15 4, die := field x 2 0, reserved := flag x 3 }

/-- Static task i is an initial member of a crew (R375). -/
def CrewWord.has (c : CrewWord) (i : Nat) : Bool :=
  if c.stride = 0 then decide (0 < c.count) && decide (i = c.first)
  else decide (c.first ≤ i) && decide ((i - c.first) % c.stride = 0) && decide ((i - c.first) / c.stride < c.count)

/-- Entries of the entry table of a record, as words of 256 bytes. -/
def State.entryWords (s : State) (r : Nat) : List Nat :=
  (List.range (field r 801 793)).map fun k => s.bytes (s.here (field r 383 320) + 256 * k) 256

/-- Entries of the segment table of a record, as words of 32 bytes. -/
def State.segWords (s : State) (r : Nat) : List Nat :=
  (List.range (field r 807 802)).map fun k => s.bytes (s.here (field r 447 384) + 32 * k) 32

/-- The crew table of a record. -/
def State.crewWords (s : State) (r : Nat) : List CrewWord :=
  (List.range (field r 816 808)).map fun k => parseCrew (s.bytes (s.here (field r 511 448) + 8 * k) 8)

/-- Static task count of a record. -/
def recTasks (r : Nat) : Nat := field r 792 768

/-- Entry of static task i (R148, R372). -/
def State.staticEntry (s : State) (r i : Nat) : Nat := if field r 575 512 = 0 then 0 else s.bytes (s.here (field r 575 512) + i) 1

/-- Dies of a record as a list. -/
def diesOf (mask : Nat) : List Nat := (List.range 8).filter fun d => flag mask d

/-- A table of n bytes of a record lies on a poisoned line (log 21). -/
def State.tablePoison (s : State) (ml n : Nat) : Bool := s.poisoned (s.here ml) n

/-! ### Gang descriptors (R413) -/

/-- The member list of a descriptor: module, DIES mask and the reserved rest of each entry. -/
def State.memberList (s : State) (d : Nat) : List (Nat × Nat × Nat) :=
  (List.range (field d 319 310)).map fun k =>
    let x := s.bytes (s.here (field d 383 320) + 4 * k) 4
    (field x 9 0, field x 17 10, field x 31 18)

/-- The modules rise strictly. -/
def risingModules : List (Nat × Nat × Nat) → Bool
  | a :: b :: l => decide (a.1 < b.1) && risingModules (b :: l)
  | _ => true

/-- The descriptor is refused (R413). -/
def State.badGang (s : State) (r : Nat) : Bool :=
  let d := s.bytes (s.here (field r 767 704)) 64
  let l := s.memberList d
  s.tablePoison (field r 767 704) 64 || decide (field d 511 384 ≠ 0) || decide (field d 296 192 ≠ 0) || decide (field d 191 160 < 1000) || decide (field d 159 128 < 100)
    || decide (field d 319 310 = 0) || decide (768 < field d 319 310) || decide (field d 383 362 ≠ 0)
    || s.tablePoison (field d 383 320) (4 * field d 319 310)
    || !risingModules l || l.any (fun e => decide (e.2.2 ≠ 0)) || !(l.any fun e => decide (e.1 = field d 306 297))
    || !(l.any fun e => decide (e.1 = s.modId 0) && decide (e.2.1 = field r 863 856))

/-- The gang of an accepted launch (R413). -/
def State.gangOf (s : State) (r launch : Nat) : Gang :=
  let d := s.bytes (s.here (field r 767 704)) 64
  { launch := launch, desc := s.here (field r 767 704), leadMod := field d 306 297, leadDie := field d 309 307
    t := field d 127 64, w := field d 159 128, guard := field d 191 160
    digest := sha256 (bytesOf d 64)
    members := (s.memberList d).flatMap fun e => (diesOf e.2.1).map fun k => { mod := e.1, die := k } }

/-! ### The checks of R376 -/

/-- An address of a record is not module-local, or not a multiple of n (R369, R376). -/
def badAddr (a n : Nat) : Bool := decide (2 ^ 42 ≤ a) || decide (a % n ≠ 0)

/-- Order 1: LAUNCH_RECORD. A range of the local segment, which R126 ignores, has its BASE tested like any other (log 77). -/
def State.badRecord (s : State) (r : Nat) : Bool :=
  decide (field r 895 888 ≠ 1) || decide (field r 2047 960 ≠ 0) || decide (field r 887 874 ≠ 0) || decide (field r 831 825 ≠ 0)
    || decide (recTasks r = 0) || decide (2 ^ 24 < recTasks r) || decide (field r 801 793 = 0) || decide (256 < field r 801 793)
    || decide (field r 807 802 = 0) || decide (256 < field r 816 808) || decide (4 < field r 855 853)
    || badAddr (field r 703 640) 65536 || badAddr (field r 639 576) 65536 || badAddr (field r 575 512) 1 || badAddr (field r 511 448) 1
    || badAddr (field r 447 384) 1 || badAddr (field r 383 320) 1 || badAddr (field r 319 256) 1 || badAddr (field r 767 704) 1
    || decide (flag r 873 = decide (field r 767 704 = 0))
    || s.tablePoison (field r 383 320) (256 * field r 801 793) || s.tablePoison (field r 447 384) (32 * field r 807 802)
    || s.tablePoison (field r 511 448) (8 * field r 816 808)
    || (decide (field r 575 512 ≠ 0) && s.tablePoison (field r 575 512) (recTasks r))
    || (List.range (recTasks r)).any (fun i => decide (field r 801 793 ≤ s.staticEntry r i))
    || (s.entryWords r).any (fun x => decide (field x 2047 1082 ≠ 0)
        || ((parseEntry x).rd ++ (parseEntry x).wr).any fun g => decide (g.len64 ≠ 0) && decide (g.base % 64 ≠ 0))
    || (s.crewWords r).any (·.reserved)
    || (flag r 873 && s.badGang r)

/-- The stamp that a record names. -/
def State.stampOf (s : State) (r : Nat) : Stamp := smGet {} s.host.stamps (field r 824 817)

/-- Order 2: LAUNCH_CERT. -/
def State.badCert (s : State) (r : Nat) : Bool :=
  let st := s.stampOf r
  !st.valid || decide (field r 319 256 ≠ st.base)
    || (s.entryWords r).any (fun x => !st.entries.contains (parseEntry x).code)
    || (flag r 852 && !st.entries.contains (field r 851 832))
    || (diesOf (field r 863 856)).any fun d => decide ((s.die d).yieldLimit < st.limit)

/-- Order 3: LAUNCH_RESOURCE. -/
def State.badResource (s : State) (r : Nat) : Bool :=
  let elig := field r 255 128
  let es := (s.entryWords r).map parseEntry
  decide (elig = 0) || (List.range 8).any (fun d => decide (field elig (16 * d + 15) (16 * d) ≠ 0) && !flag (field r 863 856) d)
    || es.any (fun e => decide (32 < e.banks) || decide (512 < e.rows64)
        || decide (12 * 2 ^ 20 < e.spad4k * 4096 + field r 855 853 * 2 ^ 20))
    || decide (field r 927 896 * 65536 < ((List.range (recTasks r)).map fun i =>
        let e := es.getD (s.staticEntry r i) { code := 0, rows64 := 0, spad4k := 0, banks := 0, cwt := none, rd := [], wr := [] }
        frameSize (e.spad4k * 4096) e.banks (e.rows64 * 64)).sum)
    || (diesOf (field r 863 856)).any fun d => (s.die d).contained

/-- The segment that a range of a static task lies in leaves it out, wholly or in part (R126, R375, R376). -/
def rangeLeaves (segs : List Seg) (g : Range) (i : Nat) : Bool :=
  if g.len64 = 0 ∨ vaSeg g.base = 63 then false
  else
    let b : Int := (g.base : Int) + i * g.stride * 64
    let x := segs.getD (vaSeg g.base) {}
    let lo : Int := (vaSeg g.base * 2 ^ 51 : Nat)
    !x.valid || decide (b < lo) || decide (lo + (x.len64k * 65536 : Nat) < b + (g.len64 * 64 : Nat))

/-- The frames that the table under a node maps (R388, R389); fuel bounds the levels. -/
def State.mappedFrames (s : State) : Nat → Nat → Nat → List (Nat × Nat)
  | 0, _, _ => []
  | fuel + 1, level, node =>
    (List.range (2 ^ (levelBits level).2)).flatMap fun k =>
      let w := s.bytes (node + 8 * k) 8
      match entryKind w with
      | 1 => State.mappedFrames s fuel (level - 1) (leafFrame w)
      | 2 => [(leafFrame w, pageSize level)]
      | _ => []

/-- The physical ranges that a segment covers: its own, its table's pages, its pool (R376, R380, R385). -/
def State.segCovers (s : State) (g : Seg) : List (Nat × Nat) :=
  (if g.pinned then [(g.base, g.len64k * 65536)] else s.mappedFrames 4 3 g.base)
    ++ (if g.tiled then [(g.rpBase, g.rpCount * 2 ^ g.tileLog)] else [])

/-- A stamped image lies in a physical range. -/
def State.coversStamp (s : State) (p : Nat × Nat) : Bool :=
  s.host.stamps.any fun e => e.2.valid && overlaps (s.here e.2.base) e.2.len p.1 p.2

/-- Base of a home stack of a die of a module (R26). -/
def homeStack (mod d st : Nat) : Nat := globalOf mod (stackBase d st)

/-- A segment table entry is refused (R26, R86, R169, R376, R386). -/
def State.badSeg (s : State) (elig x : Nat) : Bool :=
  let g := parseSeg x
  decide (field x 255 236 ≠ 0) || decide (field x 75 26 ≠ 0) || flag x 15 || decide (9 < field x 14 11)
    || (g.valid && (
      decide (g.len64k = 0) || decide (2 ^ 35 < g.len64k)
        || (g.pinned && (decide (g.base % 65536 ≠ 0)
            || !((List.range 2).any fun st => inside g.base (g.len64k * 65536) (homeStack g.homeMod g.homeDie st) 0xC00000000)))
        || (g.tiled && (g.pinned || decide (g.rpBase % 2 ^ g.tileLog ≠ 0)
            || decide (0 < g.rpCount) && !inside g.rpBase (g.rpCount * 2 ^ g.tileLog) (homeStack g.homeMod g.homeDie 0) hbmEnd))
        || (g.claim && (decide (g.homeMod ≠ s.modId 0) || decide (field elig (16 * g.homeDie + 15) (16 * g.homeDie) = 0)))
        || (g.checked && s.launches.any fun l => l.2.alive && l.2.segs.any fun y => y.valid && y.checked && decide (y.base = g.base))
        || (s.segCovers g).any s.coversStamp))

/-- Order 4: LAUNCH_SEGMENT. -/
def State.badSegments (s : State) (r : Nat) : Bool :=
  let ws := s.segWords r
  let segs := ws.map parseSeg
  let es := (s.entryWords r).map parseEntry
  ws.any (s.badSeg (field r 255 128))
    || (List.range (recTasks r)).any fun i =>
        ((es.drop (s.staticEntry r i)).take 1).any fun e => (e.rd ++ e.wr).any fun g => rangeLeaves segs g i

/-- Crews on a die, over all launches (R162). -/
def State.crewsOn (s : State) (d : Nat) : Nat :=
  (s.launches.map fun l => if l.2.alive then (l.2.crews.filter fun c => c.die = d).length else 0).sum

/-- Order 5, but for the groups: LAUNCH_CREW. -/
def State.badCrews (s : State) (r : Nat) : Bool :=
  let cs := s.crewWords r
  let elig := field r 255 128
  let ofTask := fun (i : Nat) => cs.filter fun c => c.has i
  cs.any (fun c =>
      (decide (0 < c.count) && decide (recTasks r ≤ c.first + (c.count - 1) * c.stride)) || (decide (c.stride = 0) && decide (1 < c.count))
        || !flag (field r 863 856) c.die || decide (field elig (16 * c.die + 15) (16 * c.die) = 0))
    || (List.range (recTasks r)).any (fun i => decide (4 < (ofTask i).length) || (ofTask i).any fun c => (ofTask i).any fun c' => decide (c.die ≠ c'.die))
    || (List.range 8).any fun d => decide (0 < (cs.filter fun c => c.die = d).length) && decide (1024 < s.crewsOn d + (cs.filter fun c => c.die = d).length)

/-! ### Accepting a launch -/

/-- Place in the table of launches for a new one. -/
def State.freshLaunch (s : State) : Nat := (s.launches.getLast?.map fun e => e.1 + 1).getD 0

/-- The first die of a mask. -/
def firstDie (mask : Nat) : Nat := (diesOf mask).headD 0

/-- The lowest launch number not in use on a die (R371). -/
def State.freeNumber (s : State) (d : Nat) : Nat :=
  let used := (s.launches.filter fun l => l.2.alive && flag l.2.dies d).map (·.2.number)
  ((List.range 257).find? fun k => !used.contains k).getD 0

/-- A die of the launch holds 256 launches already (R371). -/
def State.dieFull (s : State) (mask : Nat) : Bool :=
  (diesOf mask).any fun d => decide (256 ≤ (s.launches.filter fun l => l.2.alive && flag l.2.dies d).length)

/-- The launch that a record describes; base is the number of its first task. -/
def State.launchOf (s : State) (r q base : Nat) : Launch :=
  let segs := (s.segWords r).map parseSeg
  let members := fun (c : CrewWord) => ((List.range (recTasks r)).filter fun i => c.has i).map fun i => base + i
  { number := s.freeNumber (firstDie (field r 863 856)), queue := q, tag := BitVec.ofNat 64 r, seed := BitVec.ofNat 64 (r / 2 ^ 64)
    det := flag r 872, gang := if flag r 873 then some s.gangs.length else none, barrier := field r 871 864, dies := field r 863 856
    elig := field r 255 128, maxCarve := field r 855 853
    handler := if flag r 852 then some (field r 851 832 * 16) else none
    stamp := field r 824 817, codeBase := s.here (field r 319 256), codeLen := (s.stampOf r).len
    segs := segs, entries := (s.entryWords r).map parseEntry
    crews := (s.crewWords r).map fun c => { die := c.die, members := members c }
    level := q / 2, swapBase := s.here (field r 639 576), swapLen := field r 927 896
    logBase := s.here (field r 703 640), logLen := field r 959 928
    after := (s.launches.filter fun l => l.2.alive && flag (field r 871 864) l.2.queue).map (·.1)
    priorDies := (s.launches.filter fun l => l.2.accepted && l.2.ended && flag (field r 871 864) l.2.queue).foldl (fun m l => m ||| l.2.dies) 0
    accepted := true
    pools := (segs.zipIdx.filter fun p => p.1.valid && p.1.tiled).map fun p =>
      (p.2, (List.range p.1.rpCount).map fun k => p.1.rpBase + k * 2 ^ p.1.tileLog) }

/-- Core of static task i (R149). -/
def staticCore (l : Launch) (cs : List CrewWord) (i : Nat) : Nat × Nat :=
  match cs.find? fun c => c.has i with
  | some c => drawCore 0x0020 l.seed i (l.eligOn c.die)
  | none => drawCore 0x0020 l.seed i l.eligible

/-- The state with launch n and its static tasks (R146, R149, R371). -/
def State.acceptLaunch (s : State) (r q : Nat) : State :=
  let n := s.freshLaunch
  let base := s.freshTask
  let l := s.launchOf r q base
  let cs := s.crewWords r
  let s := if flag r 873 then { s with gangs := s.gangs ++ [s.gangOf r n] } else s
  let s := s.setLaunch n l
  (List.range (recTasks r)).foldl (fun s i =>
    let p := staticCore l cs i
    s.setTask (base + i) (s.newTask n (i * 2 ^ 40) p.1 p.2 (s.staticEntry r i) i [] 0)) s

/-- Every shift group of the newest launch can be resident (R164, R376). -/
def State.groupsFit (s : State) (n : Nat) : Bool := (s.tasksWith fun _ t => decide (t.launch = n)).all fun i => s.groupFits (s.group i)

/-- The first failing check of a record (R376): the state with the launch accepted, or the status of the refusal. -/
def State.submit (s : State) (r q : Nat) : Except LStat State :=
  if s.badRecord r then .error .record
  else if s.badCert r then .error .cert
  else if s.badResource r then .error .resource
  else if s.badSegments r then .error .segment
  else if s.badCrews r then .error .crew
  else
    let s' := s.acceptLaunch r q
    if s'.groupsFit s.freshLaunch then .ok s' else .error .crew

/-! ### Taking records (R368, R370, R371) -/

/-- Physical address of the next record of a queue. -/
def State.recordAddr (s : State) (q : Nat) : Nat :=
  let x := s.queue q
  s.here (x.qbase.toNat + 256 * (x.qhead % ringRecords x.qsize))

/-- A queue offers a record (R368, R378). -/
def Queue.offers (x : Queue) : Bool := !x.qerr && decide (0 < x.untaken) && decide (x.waiting.length < 256)

/-- The next record of a queue is taken: the launch is accepted, or refused with its completion (R376); none while a die of it is
full (R371). -/
def State.takeFrom (s : State) (q : Nat) : Option State :=
  let a := s.recordAddr q
  let bad := s.poisoned a 256
  let r := if bad then 0 else s.bytes a 256
  let step := fun (s : State) => { (s.modQueue q fun x => { x with qhead := (x.qhead + 1) % 2 ^ 32 }) with host :=
    { (s.modQueue q fun x => { x with qhead := (x.qhead + 1) % 2 ^ 32 }).host with scan := (q + 1) % 8 } }
  match s.submit r q with
  | .ok s' => if s.dieFull (field r 863 856) then none else some (s.noteAreas (step s'))
  | .error st =>
    let l : Launch := { tag := BitVec.ofNat 64 r, dies := field r 863 856 }
    some ((step s).postCompletion q (l.completion 0 st 0 (s.time 0) 0xFFFF))

/-- The first queue, from place q of the scan on, that gives a record; n bounds the queues looked at. -/
def State.scanQueues (s : State) (q : Nat) : Nat → State
  | 0 => s
  | n + 1 =>
    match (if (s.queue q).offers then s.takeFrom q else none) with
    | some s' => s'
    | none => State.scanQueues s ((q + 1) % 8) n

/-- RECORD_TAKE: die 0 takes the next record of its scan (R370, R376). BAR2 writes that a home still holds are performed first (R377;
log 75). -/
def execRecordTake (s : State) : Host.Outcome State Fault Refusal :=
  .next (if s.moduleDown ∨ s.host.bar2.any (·.isWrite) then s else s.scanQueues s.host.scan 8)

end Sys2Proof.Machine
end

