-- ==== Sys2Proof/Machine/Complete.lean ====
section
/-! DEFINITION. The start of a launch (R370), its kernel boundary (R145), its end and completions (R110, R154, R173, R378, R379), its
retirement (R404), and the mailbox commands over launches and claim cells (R381, R403). -/

set_option Elab.async false

namespace Sys2Proof.Machine

/-! ### What a launch still has under way (R145, R378) -/

/-- Task i belongs to launch n; the tasks of its evaluators' trees only where all is set. -/
def State.ofLaunch (s : State) (n : Nat) (all : Bool) (i : Nat) : Bool :=
  decide ((s.task i).launch = n) && (all || decide ((s.task i).domain % 2 = 0))

/-- A relay entry of a core that a launch owns delivers (R110). -/
def Core.fires (x : Core) (n : Nat) : Bool := x.relays.any fun r => decide (r.2.owner = some n) && decide (r.2.state = .firing)

/-- The tasks of a launch have ended, with their commands, deliveries, stores and epochs (R145, R378). -/
def State.quiet (s : State) (n : Nat) (all : Bool) : Bool :=
  (s.tasks.all fun e => !s.ofLaunch n all e.1 || decide (e.2.status = .ended))
    && (s.cmds.all fun c => !s.ofLaunch n all c.task)
    && (s.foldMsgs.all fun m => decide (m.launch ≠ n) || !s.ofLaunch n all m.part.task)
    && (s.cores.all fun e => !e.2.fires n)
    && (s.stores.all fun x => !s.ofLaunch n all x.task)
    && (s.updates ++ s.famoWait ++ s.famoSent).all fun u => decide (u.launch ≠ n) || !(all || decide (u.domain = 2 * n))

/-- A core holds no object of a launch (R110, R145). -/
def Core.ownsNone (x : Core) (n : Nat) : Bool :=
  (x.cbs.all fun e => decide (e.2.owner ≠ some n)) && (x.relays.all fun e => decide (e.2.owner ≠ some n))
    && x.rqs.all fun e => decide (e.2.owner ≠ some n)

/-- The boundary after an earlier launch has passed: its tiles have been merged (R154), and it does not cover the evaluators of a held launch
alone (R145). -/
def State.boundaryPassed (s : State) (n : Nat) : Bool :=
  (s.launch n).ended || (s.quiet n (!(s.launch n).held) && (s.launch n).versions.isEmpty && s.cores.all fun e => e.2.ownsNone n)

/-! ### The start (R370, R376) -/

/-- The RDC and the carve-out caches of a die are flash-invalidated (R97, R106). -/
def State.invalidateDie (s : State) (d : Nat) : State := (List.range 16).foldl (fun s c => s.dropCarve d c) (s.dropRdc d)

/-- Pending tasks of a die enter the table as far as it has room. -/
def State.fillDie (s : State) (d : Nat) : State := s.fillTable d tableSize

/-- Every die of a gang's launch on this module is ready to report (R414). -/
def State.gangReady (s : State) (l : Launch) : State :=
  match l.gang with
  | some g => { s with gangs := s.gangs.modify g fun x => { x with phases := (diesOf l.dies).map fun d => (d, GPhase.ready) } }
  | none => s

/-- LAUNCH_START: the kernel boundaries before an accepted launch have passed (R145, R370, R376, R414). -/
def execLaunchStart (launch : Nat) (s : State) : Host.Outcome State Fault Refusal :=
  .next (
    let l := s.launch launch
    if !l.alive ∨ l.started ∨ l.retired ∨ l.gangFail ∨ !l.after.all s.boundaryPassed then s
    else
      let mask := l.after.foldl (fun m n => m ||| (s.launch n).dies) (l.dies ||| l.priorDies)
      let s := (diesOf mask).foldl State.invalidateDie s
      let s := s.modLaunch launch fun l => { l with started := true }
      (diesOf l.dies).foldl State.fillDie (s.gangReady l))

/-! ### The end of a launch -/

/-- Stakes of a launch that are STAKED or WORKING: their cells (R173, R244). -/
def State.stakesOf (s : State) (n : Nat) : List Nat :=
  s.dies.flatMap fun d => (d.2.stakes.filter fun x => x.launch = n).map (·.cell)

/-- A stake of a launch that is retired: STAKED becomes VALUE, WORKING becomes FAILED (R116, R404). -/
def State.retireStake (s : State) (cell : Nat) : State :=
  if s.tag cell = .staked then s.unstakeCell cell else if s.tag cell = .working then s.failClaim cell else s.freeClaim cell

/-- Every stake of a launch is retired (R404). -/
def State.retireStakes (s : State) (n : Nat) : State := (s.stakesOf n).foldl State.retireStake s

/-- Objects of a core that a launch owns are reset and released (R110, R298, R330). -/
def Core.release (x : Core) (n : Nat) : Core :=
  { x with
    cbs := x.cbs.map fun e => if e.2.owner = some n then (e.1, {}) else e
    relays := x.relays.map fun e => if e.2.owner = some n then (e.1, { status := CStat.cancelled.code }) else e
    rqs := x.rqs.map fun e => if e.2.owner = some n then (e.1, {}) else e }

/-- Where 64 KiB of a page of a segment are kept: its frame, which a migration still has to copy or has poisoned, or the copy that a
page-out has saved. -/
def State.pageHome (s : State) (launch seg off : Nat) : Option Nat :=
  match (s.walk launch seg off).1 with
  | .leaf _ level w => some (leafFrame w + off % pageSize level)
  | .fault _ level w => if entryKind w = 3 ∧ level ≤ 1 then some (leafFrame w + off % pageSize level) else none
  | .migrating level w | .badLeaf level w => some (leafFrame w + off % pageSize level)
  | .poison | .config _ _ => none

/-- The newest version of a tile becomes the tile's contents (R154): its bytes are written to the place that the table maps (log 22). -/
def State.mergeTile (s : State) (launch seg tile frame : Nat) : State :=
  let size := 2 ^ ((s.launch launch).seg seg).tileLog
  let step := min size 65536
  (List.range (size / step)).foldl (fun s k =>
    match s.pageHome launch seg (tile * size + k * step) with
    | some pa => s.moveBytes (frame + k * step) pa step
    | none => s) s

/-- Every tile version of a launch is merged, oldest first, and the frames return to their pools (R154). -/
def State.mergeTiles (s : State) (n : Nat) : State :=
  let vs := (s.launch n).versions
  let s := vs.foldl (fun s v => s.mergeTile n v.1 v.2.1 v.2.2.1) s
  s.modLaunch n fun l => { l with
    versions := [], pools := vs.foldl (fun m v => smPut m v.1 (smGet [] m v.1 ++ [v.2.2.1])) l.pools }

/-- The status of a launch that ran (R379). -/
def Launch.endStat (l : Launch) : LStat :=
  if l.gang.isSome && l.gangFail then .gang
  else if l.retired && !l.heldFull then .retired
  else if l.heldFull then .heldFull
  else if 0 < l.nAbort then .aborted
  else .ok

/-- A completion of an accepted launch joins its queue (R378). -/
def State.complete (s : State) (n kind : Nat) : State :=
  let l := s.launch n
  s.postCompletion l.queue (l.completion kind l.endStat (s.stakesOf n).length (s.time 0) l.number)

/-- The launch ends: its last completion, and all that it holds released (R110, R173, R391, R404). -/
def State.endLaunch (s : State) (n kind : Nat) : State :=
  let s := (s.mergeTiles n).complete n kind
  let cleared := (s.launch n).byDriver
  let s := s.modLaunch n fun l => { l with ended := true, held := false }
  { s with
    cores := s.cores.map fun e => (e.1, e.2.release n)
    dies := s.dies.map fun e => (e.1, { e.2 with tlb := e.2.tlb.filter fun k => k.1 ≠ n })
    walks := s.walks.filter fun w => w.launch ≠ n
    nodes := if cleared then s.nodes.filter fun k => k.2 ≠ n else s.nodes }

/-- Held launches on a die (R173). -/
def State.heldOn (s : State) (d : Nat) : Nat := (s.launches.filter fun l => l.2.held && flag l.2.dies d).length

/-! ### Retirement (R158, R293, R404) -/

/-- The driver or firmware retires a launch: its issuing tasks get a request, its jobs take no further step, and the stakes of a held
launch are retired (R158, R293, R404). Its tasks end as their cores move. -/
def State.retireLaunch (s : State) (n : Nat) : State :=
  let held := (s.launch n).held
  let s := s.modLaunch n fun l => { l with retired := true, heldFull := false }
  let l := s.tasksWith fun _ t => decide (t.launch = n) && decide (t.status ≠ .ended)
  let s := l.foldl (fun s i =>
    let t := s.task i
    let s := if t.job.state = .done then s else s.jobLeaves i .done
    let s := s.modCore t.die t.core fun x => { x with engine := x.engine.filter (· ≠ i) }
    if t.status = .issuing then s.modTask i fun t => { t with preempt := true } else s) s
  if held then s.retireStakes n else s

/-- Each die of a gang's launch knows how its start ended: with CANCEL, with CONFIRM, or with the tokens of an abort (R415, R417, R418). A
die where a retired launch has no leave to start waits for none of them. -/
def State.gangSettled (s : State) (l : Launch) : Bool :=
  match l.gang.bind fun (g : Nat) => s.gangs[g]? with
  | none => true
  | some x => (diesOf l.dies).all fun d =>
    let p := smGet .none x.phases d
    x.confirmed.contains d || x.dropped.contains d || decide (p = GPhase.cancelled)
      || (l.retired && decide (p ≠ GPhase.committed) && decide (p ≠ GPhase.started) && decide (p ≠ GPhase.failed))

/-- LAUNCH_COMPLETION: the tasks of a launch have ended: it completes, is held, or is retired as a 65th held launch; a held launch
whose last stake is gone ends (R173, R378, R404). -/
def execLaunchCompletion (launch : Nat) (s : State) : Host.Outcome State Fault Refusal :=
  .next (
    let l := s.launch launch
    if !l.alive ∨ !(l.started ∨ l.retired ∨ l.gangFail) ∨ !s.quiet launch false ∨ !s.gangSettled l then s
    else if (s.stakesOf launch).isEmpty then (if s.quiet launch true then s.endLaunch launch (if l.held then 2 else 0) else s)
    else if l.retired then s.retireStakes launch
    else if l.held then s
    else if (diesOf l.dies).all fun d => decide (s.heldOn d < 64) then
      ((s.mergeTiles launch).modLaunch launch fun l => { l with held := true }).complete launch 1
    else ((s.retireLaunch launch).modLaunch launch fun l => { l with heldFull := true }).retireStakes launch)


/-! ### Retirement by the driver (R381, R391, R404) -/

/-- The launch of a number on a die; one whose numbers are drawn there first (R371, R381). -/
def State.launchNamed (s : State) (d number : Nat) : Option Nat :=
  let l := (s.launches.filter fun e => e.2.alive && flag e.2.dies d && decide (e.2.number = number))
  ((l.find? fun e => firstDie e.2.dies = d).or l.head?).map (·.1)

/-- RETIRE: the loader runs the mailbox command (R381, R404). -/
def execRetire (die launch : Word) (s : State) : Host.Outcome State Fault Refusal :=
  .next (
    if !s.mbHolds 3 [die, launch] then s
    else if !s.mbSpare 2 ∨ 8 ≤ die.toNat ∨ 65536 ≤ launch.toNat then s.mbDone .badCommand
    else if (s.die die.toNat).contained then s.mbDone .noLaunch
    else
      match s.launchNamed die.toNat launch.toNat with
      | some n => ((s.retireLaunch n).modLaunch n fun l => { l with byDriver := true }).mbDone .ok
      | none => s.mbDone .noLaunch)

/-- A line lies in a claim-enabled segment of a launch that has not ended, in its pages or in its rename pool (R86, R403). -/
def State.inClaimSeg (s : State) (cell : Nat) : Bool :=
  s.launches.any fun e => e.2.alive && e.2.segs.any fun g => g.valid && g.claim &&
    ((if g.pinned then inside cell 64 g.base (g.len64k * 65536) else s.tableMaps cell 64 3 g.base)
      || (g.tiled && inside cell 64 g.rpBase (g.rpCount * 2 ^ g.tileLog)))

/-- MB_UNSTAKE: the loader returns a STAKED or FAILED cell of a claim-enabled segment to VALUE (R403). -/
def execMbUnstake (addr : Word) (s : State) : Host.Outcome State Fault Refusal :=
  .next (
    if !s.mbHolds 4 [addr] then s
    else if !s.mbSpare 1 then s.mbDone .badCommand
    else if 2 ^ 42 ≤ addr.toNat then s.mbDone .address
    else
      let cell := lineOf (s.here addr.toNat)
      if s.inClaimSeg cell ∧ (s.tag cell = .staked ∨ s.tag cell = .failed) then (s.unstakeCell cell).mbDone .ok else s.mbDone .claimState)

/-! ### Stamps in use (R380, R381) -/

/-- Accepted launches that name a stamp, held ones among them (R380). -/
def State.stampCount (s : State) (idx : Nat) : Nat := (s.launches.filter fun l => l.2.alive && decide (l.2.stamp = idx)).length

/-- UNSTAMP: the loader takes the request (R381). -/
def execUnstamp (idx : Word) (s : State) : Host.Outcome State Fault Refusal :=
  .next (
    if !s.mbHolds 2 [idx] then s
    else if !s.mbSpare 1 then s.mbDone .badCommand
    else if !(smGet {} s.host.stamps idx.toNat : Stamp).valid then s.mbDone .noStamp
    else { s with host := { s.host with mailbox := { s.host.mailbox with unstamping := some idx.toNat } } })

/-- UNSTAMP_COMPLETE: no launch names the stamp any more, and its entry is freed (R381). -/
def execUnstampComplete (idx : Nat) (s : State) : Host.Outcome State Fault Refusal :=
  .next (
    if s.host.mailbox.unstamping ≠ some idx ∨ s.stampCount idx ≠ 0 then s
    else State.mbDone { s with host := { s.host with stamps := smErase s.host.stamps idx } } .ok)

end Sys2Proof.Machine
end

