-- ==== Sys2Proof/Machine/Fleet.lean ====
section
/-! DEFINITION. Resets and boot (R9, R36, R425, R426, R430), device time (R410, R411), links (R426), the patrol scrub (R423), containment
(R424, R425), and heat (R432). -/

set_option Elab.async false

namespace Sys2Proof.Machine

/-! ### Resets (R9, R36) -/

/-- The state after cold reset, with what outlives it: module flash, host memory, and the model's own agenda and counts of free values
(R36, R431, R432). -/
def State.coldReset (s : State) : State :=
  { State.reset with
    agenda := s.agenda, freeCount := s.freeCount
    flashImage := s.flashImage, firmware := s.flashImage
    log := { State.reset.log with flash := s.log.flash, fresh := s.log.fresh }
    host := { State.reset.host with mem := s.host.mem } }

/-- COLD_RESET (R36). -/
def execColdReset (s : State) : Host.Outcome State Fault Refusal := .next s.coldReset

/-- The registers of a die after warm reset: time, its event numbers and the work of the die go on; the fields of its register tables take
their Reset values (R9; log 26). -/
def Die.warm (x : Die) : Die :=
  { x with timeUnc := BitVec.allOnes 64, moduleId := 0, domSize := 1, timeRoot := 0, yieldLimit := 16384, clBase := 0, clLen := 0
           stackRegs := [], contained := false, booted := false }

/-- The registers of a task after warm reset: its handles (R89), its control word table (R189) and its system registers (R201) take their
Reset values (R9; log 26). -/
def Regs.warm (r : Regs) (seed : Word) : Regs :=
  { r with h := Vector.replicate 16 {}, seed := seed, claimTimeout := 100000000, yieldCount := 0, callCount := 0, winBase := 0, step := 0 }

/-- A task after warm reset. -/
def State.warmTask (s : State) (t : Task) : Task :=
  let seed := (s.launch t.launch).seed
  { t with live := t.live.warm seed, dup := t.dup.warm seed, cwt := [], cwtDirty := true }

/-- WARM_RESET: contained dies and down links are restored (R425, R426), and the register fields take their Reset values (R9; log 26), FSTUSED
and FSTHELD among them: no staging byte is reserved, and no contribution waits for one (R398). -/
def execWarmReset (s : State) : Host.Outcome State Fault Refusal :=
  .next { s with
    dies := s.dies.map fun e => (e.1, e.2.warm)
    cores := s.cores.map fun e => (e.1, { e.2 with carve := 0, drain := none, cache := [] })
    tasks := s.tasks.map fun e => (e.1, s.warmTask e.2)
    links := [], bootLocked := false
    rounds := s.rounds.map fun r => { r with reserved := 0 }
    foldMsgs := s.foldMsgs.map fun m => { m with waiting := false }
    host := { State.reset.host with mem := s.host.mem, bar2 := s.host.bar2, stamps := s.host.stamps, win2Log := s.host.win2Log, msix := s.host.msix }
    log := { s.log with tail := 0, head := 0, lost := 0, irq := true } }

/-! ### Boot (R430) -/

/-- Every die has booted. -/
def State.allBooted (s : State) : Bool := (List.range 8).all fun d => (s.die d).booted

/-- An RWL value or a policy that the controller of a die sets at boot: 0x43000, 0x43008 and 0x43020 are the registers of R409, 6 is
SYS.YIELDLIMIT, 1 is balancing, 2 is the shift length in nanoseconds (R383; log 27). -/
def Die.setRwl (x : Die) (p : Nat × Word) : Die :=
  let v := p.2.toNat
  match p.1 with
  | 0x43000 => { x with moduleId := v % 2 ^ 10 }
  | 0x43008 => { x with domSize := v % 2 ^ 11 }
  | 0x43020 => { x with timeRoot := v % 2 ^ 13 }
  | 6 => { x with yieldLimit := v }
  | 1 => { x with balancing := decide (v ≠ 0) }
  | 2 => { x with shiftLen := max 10000 (min v 10000000) }
  | _ => x

/-- The severity-3 entries in flash that no boot has copied yet are copied into the ring, oldest first (R432). -/
def State.copyFlash (s : State) : State :=
  (s.log.flash.take s.log.fresh).reverse.foldl State.ringEntry { s with log := { s.log with fresh := 0 } }

/-- The boot chain of a die verifies: its signatures do, and no image has a security version below the fused counter (R430). -/
def bootsFrom (d : Nat) (img : List Byte) : Bool :=
  Config.bootVerifies d img && decide (Config.fusedVersion.toNat ≤ (Config.imageVersion img).toNat)

/-- FIRMWARE_BOOT: the controller of a die verifies its boot chain and writes its RWL registers; the boot lock is set with the last
die (R430). A chain that fails stops the module (R424). -/
def execFirmwareBoot (d : Nat) (rwl : List (Nat × Word)) (s : State) : Host.Outcome State Fault Refusal :=
  .next (
    if (s.die d).booted ∨ s.bootLocked ∨ s.moduleDown ∨ 8 ≤ d then s
    else if bootsFrom d (s.firmware.getD []) then
      let s := s.modDie d fun x => { rwl.foldl Die.setRwl x with booted := true }
      let s := if d = 0 then s.copyFlash else s
      if s.allBooted then { s with bootLocked := true } else s
    else
      let stage := (Config.freeWord s.freeCount).toNat
      State.logEvent { s with freeCount := s.freeCount + 1, moduleDown := true } { code := 0x10, die := d, sev := 3, unit := 32, info := stage })

/-! ### Device time (R410, R411) -/

/-- TIME_SYNC_MESSAGE: firmware sets a die's rate, within 200 parts per million, and publishes its uncertainty (R410, R411). -/
def execTimeSyncMessage (d : Nat) (ppm : Int) (unc : Word) (s : State) : Host.Outcome State Fault Refusal :=
  .next (s.modDie (d % 8) fun x => { x with ppm := max (-200) (min ppm 200), timeUnc := unc })

/-! ### Links (R426) -/

/-- Link k is a plane port. -/
def isPort (k : Nat) : Bool := decide (64 ≤ k)

/-- The die that reports a link, its unit in entries (R428), and the dies at its ends on this module. -/
def linkEnds (k : Nat) : Nat × Nat × List Nat :=
  if isPort k then ((k - 64) / 4 % 8, 27 + (k - 64) % 4, [(k - 64) / 4 % 8])
  else
    let a := k / 8 % 8
    let b := k % 8
    (a, 20 + (if a < b then b - 1 else b), [a, b])

/-- Link k. -/
def State.link (s : State) (k : Nat) : Link := smGet {} s.links k

/-- The state with a link changed. -/
def State.modLink (s : State) (k : Nat) (f : Link → Link) : State := { s with links := smPut s.links k (f (s.link k)) }

/-- The times of a list within the last second. -/
def lastSecond (now : Nat) (l : List Nat) : List Nat := l.filter fun t => now < t + 1000000000

/-- Retries within one second beyond which they are reported (R429). -/
def retryMark : Nat := 1024

/-- A link whose second is over, counted from the first of its retries: their number is reported where it is past 1,024 (R429; log 96). -/
def State.closeSecond (s : State) (k : Nat) : State :=
  let r := (s.link k).retries
  let e := linkEnds k
  if r.any fun t => t + 1000000000 ≤ s.time e.1 then
    let s := s.modLink k fun l => { l with retries := [] }
    if retryMark < r.length then s.logEvent { code := 0x07, die := e.1, sev := 0, unit := e.2.1, info := r.length } else s
  else s

/-- Every link whose second is over. -/
def State.closeSeconds (s : State) : State := (s.links.map (·.1)).foldl State.closeSecond s

/-- FLIT_CRC_ERROR: the receiver discards a flit, which the sender replays in order (R426). It is one more retry of its second (R429). -/
def execFlitCrcError (link : Nat) (again : Bool) (s : State) : Host.Outcome State Fault Refusal :=
  .next (
    let l := s.link link
    let e := linkEnds link
    let now := s.time e.1
    if l.retraining ∨ l.down then s
    else
      s.modLink link fun l => { l with fails := if again then l.fails + 1 else 1, retries := now :: l.retries })

/-- Every live launch with a task on a die is retired by firmware (R425, R426). -/
def State.retireDie (s : State) (d : Nat) : State :=
  (s.launches.filter fun l => l.2.alive && s.tasks.any fun t => decide (t.2.launch = l.1) && decide (t.2.die = d)).foldl
    (fun s l => s.retireLaunch l.1) s

/-- LINK_RETRAIN: a flit has failed 16 times in a row; the third retraining within a second takes the link down (R426). -/
def execLinkRetrain (link : Nat) (s : State) : Host.Outcome State Fault Refusal :=
  .next (
    let l := s.link link
    let e := linkEnds link
    let now := s.time e.1
    if l.retraining ∨ l.down ∨ l.fails < 16 then s
    else
      let r := lastSecond now l.retrains ++ [now]
      let s := s.modLink link fun l => { l with fails := 0, retraining := true, retrains := r }
      let s := s.logEvent { code := 0x08, die := e.1, sev := 1, unit := e.2.1, info := r.length }
      if r.length < 3 then s
      else
        let s := s.modLink link fun l => { l with retraining := false, down := true }
        let s := s.logEvent { code := 0x09, die := e.1, sev := 2, unit := e.2.1 }
        e.2.2.foldl State.retireDie s)

/-- LINK_RETRAIN_COMPLETE: held messages go on (R426). -/
def execLinkRetrainComplete (link : Nat) (s : State) : Host.Outcome State Fault Refusal :=
  .next (if (s.link link).retraining then s.modLink link fun l => { l with retraining := false } else s)

/-! ### Scrub and refresh (R384, R423) -/

/-- PATROL_SCRUB: the scrub of a line is one step at its home (R423). -/
def execPatrolScrub (line : Nat) (f : ScrubFinding) (s : State) : Host.Outcome State Fault Refusal :=
  .next (
    let a := lineOf line
    let d := paDie a
    if !isHbm a ∨ paModule a ≠ s.modId d ∨ s.dirty.contains a then s
    else
      match f with
      | .clean => s
      | .corrected => s.countEvent 0x01 d
      | .uncorrectable =>
        if s.poison.contains a then s
        else
          State.logEvent { s with poison := setInsert s.poison a }
            { code := 0x02, die := d, sev := 1, unit := 18 + paStack a, addr := a % 2 ^ 42, info := 2 })

/-- The line of an address whose data cannot be read becomes poison, with the entry of a code (R421, R429). -/
def State.spoil (s : State) (code unit info pa : Nat) : State :=
  let u := poisonUnit pa
  if s.poison.contains u then s
  else State.logEvent { s with poison := setInsert s.poison u }
    { code := code, die := paDie pa, sev := 1, unit := unit, addr := u % 2 ^ 42, info := info }

/-- Row or line of its unit that an entry names for a poisoned unit of a core window (R429): the row of a seam bank or of the accumulator,
the line of the scratchpad. -/
def unitLocal (pa : Nat) : Nat :=
  match paPlace pa with
  | .seam => (paWinOff pa - 0xC00000) % 0x20000 / 128
  | .acc => (paWinOff pa - 0x1000000) / 256
  | .spad | .hbm | .nowhere => paWinOff pa / 64

/-- The die whose controller counts an error in what a unit stores for an address: that of the cache, else the home of the line (R429). -/
def Upset.die (unit : Upset) (pa : Nat) : Nat :=
  match unit with
  | .rdc d | .carve d _ => d % 8
  | .hbm | .l2 | .window => paDie pa

/-- An error in stored data (R421): a corrected one is counted. One that is not corrected drops the clean copy of a line from a cache, to
be fetched again, and poisons what has no other copy: a line of HBM, a dirty line of L2, a line or segment of a core window. -/
def State.upset (s : State) (unit : Upset) (pa : Nat) (fixed : Bool) : State :=
  let d := paDie pa
  let l := lineOf pa
  if paModule pa ≠ s.modId d then s
  else if fixed then s.countEvent (if unit = .hbm then 0x01 else 0x03) (unit.die pa)
  else
    match unit with
    | .hbm => if isHbm pa && !s.dirty.contains l then s.spoil 0x02 (18 + paStack pa) 1 l else s
    | .l2 => if isHbm pa && s.dirty.contains l then s.spoil 0x04 16 (l % 2 ^ 39 / 64) l else s
    | .rdc d => s.modDie d fun x => { x with rdc := smErase x.rdc l }
    | .carve d c => s.modCore d c fun x => { x with cache := smErase x.cache l }
    | .window => if isWindow pa then s.spoil 0x04 (paCore pa) (unitLocal pa) pa else s

/-- HBM_REFRESH takes a channel of a stack for a time and changes nothing else (R384). -/
def execHbmRefresh (_stack _channel : Nat) (s : State) : Host.Outcome State Fault Refusal := .next s

/-! ### Containment (R424, R425) -/

/-- DIE_CONTAINMENT: the launches with a task on the die are retired, and it accepts none until warm reset (R425). -/
def execDieContainment (d structure_ : Nat) (s : State) : Host.Outcome State Fault Refusal :=
  .next (
    let s := s.logEvent { code := 0x0E, die := d % 8, sev := 2, unit := 31, info := structure_ }
    (s.modDie (d % 8) fun x => { x with contained := true }).retireDie (d % 8))

/-- The module takes no record until cold reset, with a severity-3 entry to which the spec gives no code: its code and INFO words are open
values (R424; log 28). -/
def State.stopModule (s : State) (d : Nat) : State :=
  let w := fun (k : Nat) => (Config.freeWord (s.freeCount + k)).toNat
  State.writeEntry { s with moduleDown := true, freeCount := s.freeCount + 3 }
    { code := w 0 % 256, die := d, sev := 3, unit := 32, info := w 1, info2 := w 2 }

/-- WATCHDOG_FAILURE (R424). -/
def execWatchdogFailure (d : Nat) (s : State) : Host.Outcome State Fault Refusal := .next (s.stopModule (d % 8))

/-- A fault in the stamp table or the boot lock, as the controller of a die finds it (R424). -/
def State.moduleFault (s : State) (d : Nat) : State := s.stopModule (d % 8)

/-- HOST_LINK_LOSS (R424). -/
def execHostLinkLoss (s : State) : Host.Outcome State Fault Refusal := .next (s.stopModule 0)

/-! ### Heat (R429, R432) -/

/-- Hard power-off: all contents are lost but for module flash (R432). -/
def State.powerOff (s : State) (d : Nat) : State :=
  let s := s.logEvent { code := 0x0F, die := d, sev := 3, unit := 32, info := 7 }
  { s.coldReset with poweredOff := true, firmware := none }

/-- COOLANT_FLOW_LOST (R432). -/
def execCoolantFlowLost (s : State) : Host.Outcome State Fault Refusal := .next (s.powerOff 0)

/-- The gate level after a sample: one higher while a limit or the cap is exceeded, 7 at the second limit; otherwise firmware chooses a
level that is no higher, an open value (R432; log 29). -/
def nextGate (gate tj stack mw cap free : Nat) : Nat :=
  if 840 ≤ tj ∨ 760 ≤ stack then 7
  else if 760 < tj ∨ 680 < stack ∨ cap < mw then min 7 (gate + 1)
  else free % (gate + 1)

/-- THERMAL_SAMPLE: temperatures are in units of 0.125 °C, the power in milliwatts (R429, R432). A rise of the gate level is an action that
the log tells of, of severity 0 (log 29). -/
def execThermalSample (d tj t0 t1 mw : Nat) (s : State) : Host.Outcome State Fault Refusal :=
  .next (
    let d := d % 8
    let hot := max t0 t1
    if 880 ≤ tj then s.powerOff d
    else
      let old := (s.die d).gate
      let g := nextGate old tj hot mw (s.die d).powerCap (Config.freeWord s.freeCount).toNat
      let s := { s with freeCount := s.freeCount + 1 }
      let words := [s.time d, tj, t0, t1, mw, g]
      let s := s.modDie d fun x => { x with gate := g, telemetry := words.zipIdx.map fun p => (p.2, BitVec.ofNat 64 p.1) }
      if 840 ≤ tj ∨ 760 ≤ hot then s.logEvent { code := 0x0F, die := d, sev := 2, unit := 32, info := 7 }
      else if old < g then s.logEvent { code := 0x0F, die := d, sev := 0, unit := 32, info := g }
      else s)

/-- Firmware sets the power cap of a die (R432). -/
def State.setPowerCap (s : State) (d mw : Nat) : State := s.modDie (d % 8) fun x => { x with powerCap := mw }

end Sys2Proof.Machine
end

