-- ==== Sys2Proof/Machine/Gangs.lean ====
section
/-! DEFINITION. Gang launches (R413 to R418), abort rounds and the agreed step (R419, R420). A message from a die of this module is
taken from what that die has done; a message from another module is what the event says (log 24). -/

set_option Elab.async false

namespace Sys2Proof.Machine

/-! ### Parts of a gang -/

/-- Gang g of the module. -/
def State.gang (s : State) (g : Nat) : Option Gang := s.gangs[g]?

/-- The state with a gang changed. -/
def State.modGang (s : State) (g : Nat) (f : Gang → Gang) : State := { s with gangs := s.gangs.modify g f }

/-- What a die of this module has reached. -/
def Gang.phase (x : Gang) (d : Nat) : GPhase := smGet .none x.phases d

/-- The leader is a die of this module. -/
def State.leads (s : State) (x : Gang) : Bool := decide (x.leadMod = s.modId 0)

/-- A member is a die of this module. -/
def State.isLocal (s : State) (m : Member) : Bool := decide (m.mod = s.modId 0)

/-- The state with a die's phase. -/
def State.setPhase (s : State) (g d : Nat) (p : GPhase) : State := s.modGang g fun x => { x with phases := smPut x.phases d p }

/-- The device-written half of a descriptor (R413). -/
def Gang.word (x : Gang) : Nat :=
  x.agreed.toNat * 2 ^ 128 + x.startT % 2 ^ 64 * 2 ^ 64 + x.omod % 2 ^ 10 * 2 ^ 54 + x.odie % 8 * 2 ^ 51
    + ofFlag (!x.confirmed.isEmpty) * 2 ^ 47 + ofFlag x.lateMark * 2 ^ 46 + x.cause % 2 ^ 8 * 2 ^ 32

/-- The gang is changed and its descriptor written (R413). -/
def State.noteGang (s : State) (g : Nat) (f : Gang → Gang) : State :=
  let s := s.modGang g f
  match s.gang g with
  | some x => s.putOutside (x.desc + 64) 64 x.word
  | none => s

/-- The origin of a cause goes into the descriptor (R413, R420). -/
def Gang.blame (x : Gang) (cause origin : Nat) : Gang := { x with cause := cause, omod := origin % 2 ^ 10, odie := origin / 2 ^ 10 % 8 }

/-- Tasks of a gang's launch on a die that have not ended. -/
def State.gangTasks (s : State) (x : Gang) (d : Nat) : List Nat :=
  s.tasksWith fun _ t => decide (t.launch = x.launch) && decide (t.die = d) && decide (t.status ≠ .ended)

/-- The tasks of a die that never starts them end without a bundle, and its reservation is released (R415, R416). -/
def State.releaseGang (s : State) (x : Gang) (d : Nat) : State :=
  ((s.gangTasks x d).foldl (fun s i =>
    (s.modLaunch x.launch fun l => { l with crews := l.crews.map (crewDrop i) }).modTask i fun t => { t with
      status := .ended, parkedOn := .none, tiles := [], swapFrame := none, ending := none }) s).fillTable d tableSize

/-- The launch of a gang completes with LAUNCH_GANG (R379). -/
def State.failGang (s : State) (x : Gang) : State := s.modLaunch x.launch fun l => { l with gangFail := true }

/-- A message of die d of module m to the leader waits for a link (R406). -/
def State.upWaits (s : State) (x : Gang) (m d : Nat) : Bool := s.messageWaits m d x.leadMod x.leadDie

/-- A message of the leader to a die of this module waits for a link (R406). -/
def State.downWaits (s : State) (x : Gang) (d : Nat) : Bool := s.messageWaits x.leadMod x.leadDie (s.modId d) d

/-- An earlier message of die d of this module to the leader is on its way before a message of the same die (R407). -/
def Gang.mailLate (x : Gang) (d : Nat) (m : UpMsg) : Bool :=
  let l := (x.mail.filter fun e => e.1 = d).map (·.2)
  l.contains m && decide (l.head? ≠ some m)

/-- READY or ACK of a member die of this module is on its way to a leader that still takes it (R407, R414). -/
def Gang.unheard (x : Gang) (d : Nat) : Bool :=
  x.cancelSent.isNone && x.members.any fun m => decide (m.die = d) && match x.phase d with
    | .ready | .reserving => !m.readyIn
    | .acked | .committed | .started => !(m.readyIn && m.ackIn)
    | .none | .cancelled | .failed => false

/-- A message that the leader sent to a die of this module earlier, ARM, COMMIT or CONFIRM, has not arrived there yet: a later one comes
after it (R407). -/
def State.gangBehind (s : State) (x : Gang) (d : Nat) : Bool :=
  s.leads x && ((x.armSent && decide (x.phase d = .ready)) || (x.commitSent && decide (x.phase d = .acked))
    || (x.confirmSent && decide (x.phase d = .started) && !x.confirmed.contains d && !x.dropped.contains d))

/-! ### READY to CANCEL (R414, R415) -/

/-- The leader's clock. -/
def State.leadTime (s : State) (x : Gang) : Nat := s.time x.leadDie

/-- The sum of the two largest of a list. -/
def twoLargest (l : List Nat) : Nat :=
  let a := l.foldl max 0
  a + (l.erase a).foldl max 0

/-- CANCEL goes to every member die with a cause and an origin (R414). -/
def State.sendCancel (s : State) (g cause origin : Nat) : State :=
  s.modGang g fun x => { x with cancelSent := some (cause, origin % 2 ^ 10, origin / 2 ^ 10 % 8) }

/-- CANCEL for a cause to which the spec gives no origin: an open value (log 25). -/
def State.cancelOpen (s : State) (g cause : Nat) : State :=
  State.sendCancel { s with freeCount := s.freeCount + 1 } g cause (Config.freeWord s.freeCount).toNat

/-- The leader's checks when it holds every READY (R414). -/
def State.checkReady (s : State) (g : Nat) (x : Gang) : State :=
  if !x.members.all fun m => m.digest = (x.members.head?.map (·.digest)).getD 0 then s.cancelOpen g 4
  else if x.t ≤ s.leadTime x + x.guard then s.cancelOpen g 5
  else if x.w < twoLargest (x.members.map fun m => m.unc.toNat) then s.cancelOpen g 2
  else s.modGang g fun x => { x with armSent := true }

/-- READY: the leader receives a member's uncertainty and digest (R414). -/
def execReady (gang member : Nat) (unc : Word) (digest : BitVec 256) (s : State) : Host.Outcome State Fault Refusal :=
  .next (match s.gang gang with
    | none => s
    | some x =>
      match x.members[member]? with
      | none => s
      | some m =>
        let here := s.isLocal m
        if !s.leads x || m.readyIn || x.cancelSent.isSome || (here && decide (x.phase m.die = .none)) || s.upWaits x m.mod m.die then s
        else
          let m' := { m with readyIn := true, unc := if here then (s.die m.die).timeUnc else unc, digest := if here then x.digest else digest }
          let s := s.modGang gang fun x => { x with members := x.members.set member m' }
          match s.gang gang with
          | some x => if x.members.all (·.readyIn) then s.checkReady gang x else s
          | none => s)

/-- ARM: a member die starts to reserve for its static tasks (R414). -/
def execArm (gang die : Nat) (s : State) : Host.Outcome State Fault Refusal :=
  .next (match s.gang gang with
    | none => s
    | some x => if x.phase die = .ready ∧ (!s.leads x ∨ x.armSent) ∧ !s.downWaits x die then (s.setPhase gang die .reserving).markLeaving die else s)

/-- Every static task of the gang on a die that the dependence table lets run has its slot and extents (R414). -/
def State.reserved_ (s : State) (x : Gang) (d : Nat) : Bool :=
  s.tasks.all fun e => decide (e.2.launch ≠ x.launch) || decide (e.2.die ≠ d) || e.2.parent.isSome || e.2.evalCell.isSome
    || decide (e.2.status = .admitted) || decide (e.2.status = .ended) || !s.mayRun e.1

/-- The residents of a core that a gang does not pre-empt: those of its launch, and those whose level is not below its own (R158, R414). -/
def State.keptBy (s : State) (x : Gang) (d c : Nat) : List Task :=
  ((s.residents d c).map s.task).filter fun t => decide (t.launch = x.launch) || decide (t.level ≤ (s.launch x.launch).level)

/-- A task as it stands with its extents placed. -/
def Task.placedAt (t : Task) (e : Entry) (p : Nat × Nat × Nat) : Task :=
  { t with
    spadBase := p.1, spadSize := e.spad4k * 4096, bankBase := p.2.1, bankCount := e.banks, rowBase := p.2.2, rowCount := e.rows64 * 64 }

/-- The static tasks of a gang that wait on a core find a slot and extents beside the tasks rs, one after the other. -/
def State.allFit (s : State) (rs : List Task) : List Nat → Bool
  | [] => true
  | i :: l =>
    let t := s.task i
    match s.placeAmong rs t.launch (s.entryOf i) with
    | some p => State.allFit s (rs ++ [t.placedAt (s.entryOf i) p]) l
    | none => false

/-- The reservation of a die is made: what the gang's static tasks need is free there, or is held by work that has its request to make
way (R414). -/
def State.reservable (s : State) (x : Gang) (d : Nat) : Bool :=
  (List.range 16).all fun c => s.allFit (s.keptBy x d c) (s.tasksWith fun i t =>
    decide (t.launch = x.launch) && decide (t.die = d) && decide (t.core = c) && t.parent.isNone && t.evalCell.isNone
      && decide (t.status = .queued) && s.mayRun i)

/-- GANG_RESERVE_COMPLETE: the reservation of a die is made, and it sends ACK, while earlier work may still be on its way out (R414). -/
def execGangReserveComplete (gang die : Nat) (s : State) : Host.Outcome State Fault Refusal :=
  .next (match s.gang gang with
    | none => s
    | some x => if x.phase die = .reserving ∧ s.reservable x die then (s.setPhase gang die .acked).markLeaving die else s)

/-- ACK: the leader receives a member's ACK, and sends COMMIT when it holds all before T − GUARD. From that moment on it takes none, and
the member counts as silent (R414). -/
def execAck (gang member : Nat) (s : State) : Host.Outcome State Fault Refusal :=
  .next (match s.gang gang with
    | none => s
    | some x =>
      match x.members[member]? with
      | none => s
      | some m =>
        if !s.leads x || !x.armSent || x.cancelSent.isSome || (s.isLocal m && decide (x.phase m.die ≠ .acked))
            || decide (x.t ≤ s.leadTime x + x.guard) || s.upWaits x m.mod m.die then s
        else s.modGang gang fun x =>
          let l := x.members.set member { m with ackIn := true }
          { x with members := l, commitSent := x.commitSent || l.all (·.ackIn) })

/-- GANG_GUARD_EXPIRY: at T − GUARD the leader cancels for the lowest-numbered silent die (R414). -/
def execGangGuardExpiry (gang : Nat) (s : State) : Host.Outcome State Fault Refusal :=
  .next (match s.gang gang with
    | none => s
    | some x =>
      if !s.leads x || x.commitSent || x.cancelSent.isSome || decide (s.leadTime x + x.guard < x.t) then s
      else
        match x.members.find? fun m => !(m.readyIn && m.ackIn) with
        | some m => s.sendCancel gang 1 (originWord m.mod m.die 0)
        | none => s)

/-- COMMIT: a member die may start at T (R415, R416). -/
def execCommit (gang die : Nat) (s : State) : Host.Outcome State Fault Refusal :=
  .next (match s.gang gang with
    | none => s
    | some x => if x.phase die = .acked ∧ (!s.leads x ∨ x.commitSent) ∧ !s.downWaits x die then s.setPhase gang die .committed else s)

/-- A die of this module is a member. -/
def State.hasMember (s : State) (x : Gang) (d : Nat) : Bool := x.members.any fun m => s.isLocal m && decide (m.die = d)

/-- CANCEL: a member die releases its reservation, and its launch completes with LAUNCH_GANG (R415, R418), also where the die has not got
as far as READY. -/
def execCancel (gang die cause origin : Nat) (s : State) : Host.Outcome State Fault Refusal :=
  .next (match s.gang gang with
    | none => s
    | some x =>
      let what := if s.leads x then x.cancelSent.map fun c => (c.1, c.2.1 + c.2.2 * 2 ^ 10) else some (cause, origin)
      match what, x.phase die with
      | some (c, o), .none | some (c, o), .ready | some (c, o), .reserving | some (c, o), .acked =>
        if s.hasMember x die ∧ !s.downWaits x die ∧ !s.gangBehind x die then
          ((((s.releaseGang x die).failGang x).setPhase gang die .cancelled).noteGang gang fun x => x.blame c o).markLeaving die
        else s
      | _, _ => s)

/-! ### The start (R416, R417) -/

/-- A die starts the tasks of a gang at a time of its clock, and sends STARTED (R416). -/
def State.startGang (s : State) (g d t : Nat) : State :=
  (s.setPhase g d .started).noteGang g fun x => { x with
    startT := if x.startT = 0 then t else x.startT, lateMark := x.lateMark || decide (x.t < t), mail := x.mail ++ [(d, .started)] }

/-- GANG_START: at its time T, or late but by T + W, a die whose reservation is complete starts its tasks and sends STARTED (R416). -/
def execGangStart (gang die : Nat) (s : State) : Host.Outcome State Fault Refusal :=
  .next (match s.gang gang with
    | none => s
    | some x =>
      let t := s.time die
      if x.phase die ≠ .committed ∨ !s.reserved_ x die ∨ t < x.t ∨ x.t + x.w < t then s
      else s.startGang gang die t)

/-- The first moment has come at which a die that holds COMMIT starts its tasks: its reservation is complete, and its clock has come to T.
It is max T (the clock in s0), where s0 is the state in which its reservation was complete first (R416). -/
def State.startsNow (s0 s : State) (x : Gang) (d : Nat) : Option Nat :=
  let t := max x.t (s0.time d)
  if x.phase d = .committed ∧ s.reserved_ x d ∧ t ≤ s.time d ∧ t ≤ x.t + x.w then some t else none

/-- Every die that can start the tasks of a gang starts them: it does so at the first moment (R416). -/
def State.startDue (s0 s : State) : State :=
  (List.range s.gangs.length).foldl (fun s g => (List.range 8).foldl (fun s d =>
    match (s.gang g).bind fun x => State.startsNow s0 s x d with
    | some t => s.startGang g d t
    | none => s) s) s

/-- GANG_LATE_EXPIRY: a die that has not started by T + W starts no task and sends ABORT (R416). -/
def execGangLateExpiry (gang die : Nat) (s : State) : Host.Outcome State Fault Refusal :=
  .next (match s.gang gang with
    | none => s
    | some x =>
      if x.phase die ≠ .committed ∨ s.time die ≤ x.t + x.w then s
      else
        let s := (((s.releaseGang x die).failGang x).setPhase gang die .failed).markLeaving die
        s.modGang gang (Gang.ask die 3 (2 ^ 64) (originWord (s.modId die) die 0)))

/-- STARTED: the leader receives a member's STARTED, and sends CONFIRM when it holds all (R417); an abort round before that leaves the
gang unconfirmed (R418). -/
def execStarted (gang member : Nat) (s : State) : Host.Outcome State Fault Refusal :=
  .next (match s.gang gang with
    | none => s
    | some x =>
      match x.members[member]? with
      | none => s
      | some m =>
        if !s.leads x || !x.commitSent || (s.isLocal m && (decide (x.phase m.die ≠ .started) || x.mailLate m.die .started)) || s.upWaits x m.mod m.die then s
        else
          let s := s.modGang gang fun x => { x with
            members := x.members.set member { m with startedIn := true }, mail := if s.isLocal m then x.mail.erase (m.die, .started) else x.mail }
          match s.gang gang with
          | some x =>
            if (x.members.all (·.startedIn)) && x.round.isNone && x.dropped.isEmpty then s.modGang gang fun x => { x with confirmSent := true } else s
          | none => s)

/-- CONFIRM: a member die may perform its held effects (R417). -/
def execConfirm (gang die : Nat) (s : State) : Host.Outcome State Fault Refusal :=
  .next (match s.gang gang with
    | none => s
    | some x =>
      if x.phase die = .started ∧ !x.dropped.contains die ∧ (!s.leads x ∨ x.confirmSent) ∧ !s.downWaits x die then
        s.noteGang gang fun x => { x with confirmed := setInsert x.confirmed die }
      else s)

/-! ### Abort rounds (R419, R420) -/

/-- An abort request joins the open round, whose origin is the requester with the smallest key, or opens one (R419, R420). -/
def Gang.join (x : Gang) (cause key origin : Nat) : Gang :=
  match x.round with
  | none => { x with round := some (cause, key, origin), members := x.members.map fun m => { m with reply := none, frozen := none } }
  | some (_, k, _) => if key < k ∧ x.tokenFor.isEmpty then { x with round := some (cause, key, origin) } else x

/-- GANG_ABORT: the leader receives an abort request (R419); after CANCEL there is nothing to abort. -/
def execGangAbort (gang cause key origin : Nat) (s : State) : Host.Outcome State Fault Refusal :=
  .next (match s.gang gang with
    | none => s
    | some x =>
      let here := decide (origin % 2 ^ 10 = s.modId 0)
      let d := origin / 2 ^ 10 % 8
      if !s.leads x || (here && (!x.requests.contains (cause, key, origin) || x.unheard d || x.mailLate d (.request cause key origin)))
          || s.upWaits x (origin % 2 ^ 10) (origin / 2 ^ 10 % 8) then s
      else s.modGang gang fun x =>
        let x := { x with requests := x.requests.erase (cause, key, origin), mail := x.mail.erase (d, .request cause key origin) }
        if x.cancelSent.isSome then x else x.join cause key origin)

/-- The smallest SYS.STEP among the gang's tasks that a die has held (R420). -/
def State.smallestStep (s : State) (x : Gang) (d : Nat) : Nat :=
  (s.tasksWith fun _ t => decide (t.launch = x.launch) && decide (t.die = d)).foldl (fun a i => min a (s.task i).live.step.toNat) (2 ^ 64 - 1)

/-- What FREEZE leaves of member m at die d: a member there that holds no value fixes v (R420). -/
def State.freezeMember (s : State) (d v : Nat) (m : Member) : Member :=
  if m.mod = s.modId 0 ∧ m.die = d ∧ m.frozen.isNone then { m with frozen := some v } else m

/-- FREEZE: a member die fixes its reply (R420). -/
def execFreeze (gang die : Nat) (s : State) : Host.Outcome State Fault Refusal :=
  .next (match s.gang gang with
    | none => s
    | some x =>
      if (s.leads x ∧ x.round.isNone) ∨ s.gangBehind x die ∨ s.downWaits x die then s
      else
        let v := s.smallestStep x die
        s.modGang gang fun x => { x with
          members := x.members.map (s.freezeMember die v)
          mail := if x.members.any fun m => s.isLocal m && decide (m.die = die) && m.frozen.isNone then x.mail ++ [(die, .reply)] else x.mail })

/-- FREEZE_REPLY: the leader receives a reply, and with the last one sends TOKEN with the least (R420). -/
def execFreezeReply (gang member : Nat) (step : Word) (s : State) : Host.Outcome State Fault Refusal :=
  .next (match s.gang gang with
    | none => s
    | some x =>
      match x.members[member]? with
      | none => s
      | some m =>
        let v := if s.isLocal m then m.frozen else some step.toNat
        if !s.leads x || x.round.isNone || m.reply.isSome || v.isNone || (s.isLocal m && x.mailLate m.die .reply) || s.upWaits x m.mod m.die then s
        else
          let s := s.modGang gang fun x => { x with
            members := x.members.set member { m with reply := v }, mail := if s.isLocal m then x.mail.erase (m.die, .reply) else x.mail }
          match s.gang gang with
          | some x =>
            if x.members.all (·.reply.isSome) then
              let least := x.members.foldl (fun a m => min a (m.reply.getD 0)) (2 ^ 64 - 1)
              let mine := (x.members.filter s.isLocal).map (·.die)
              s.modGang gang fun x => { x with
                agreed := BitVec.ofNat 64 least, tokenFor := mine, round := if mine.isEmpty then none else x.round }
            else s
          | none => s)

/-- What TOKEN leaves of a member at die d: no reply held (R420). -/
def State.thawMember (s : State) (d : Nat) (m : Member) : Member :=
  if m.mod = s.modId 0 ∧ m.die = d then { m with frozen := none } else m

/-- What TOKEN does on a die (R418, R420): the descriptor, ABORT_TOKEN in every unended task of the gang, and before CONFIRM the end of
all held effects. A task that has not started takes the trap when it first issues. -/
def State.takeToken (s : State) (g d step cause origin : Nat) (x : Gang) : State :=
  let early := !x.confirmed.contains d
  let s := (s.gangTasks x d).foldl (fun s i => s.modTask i fun t => { t with abortTok := some (step, origin) }) s
  let s := if early then s.failGang x else s
  s.noteGang g fun x => { (x.blame cause origin) with
    agreed := BitVec.ofNat 64 step, dropped := if early then setInsert x.dropped d else x.dropped
    members := x.members.map (s.thawMember d) }

/-- TOKEN: a member die receives the agreed step (R420); the round closes when every die of this module has it. -/
def execToken (gang die : Nat) (step : Word) (cause origin : Nat) (s : State) : Host.Outcome State Fault Refusal :=
  .next (match s.gang gang with
    | none => s
    | some x =>
      if s.gangBehind x die ∨ s.downWaits x die then s
      else if s.leads x then
        match x.round with
        | some (c, _, o) =>
          if !x.tokenFor.contains die then s
          else
            (s.takeToken gang die x.agreed.toNat c o x).modGang gang fun x =>
              let l := x.tokenFor.filter (· ≠ die)
              { x with tokenFor := l, round := if l.isEmpty then none else x.round }
        | none => s
      else if s.hasMember x die then s.takeToken gang die step.toNat cause origin x
      else s)

end Sys2Proof.Machine
end

