-- ==== Sys2Proof/Machine/Loader.lean ====
section
/-! DEFINITION. The loader: certification of code images (R220, R340, R357, R380, R381), attestation, the certificate chain and firmware
updates (R430, R431). -/

set_option Elab.async false

namespace Sys2Proof.Machine

/-! ### The bundles of an image -/

/-- A bundle of an image as the loader sees it. -/
structure Node where
  k : Nat
  ops : List Op
  yieldPt : Bool
  /-- A checkpoint, a yield point, or a bundle that holds a committing instruction. -/
  ckpt : Bool
  committing : Bool
  /-- It would raise a trap under checks 1 to 3 of R198. -/
  illegal : Bool
  /-- It holds a short pair, whose operations the loader does not see. -/
  pairs : Bool
  deriving DecidableEq, Repr

/-- The operations of a slot that do not depend on a control word table: a short pair names entries of a table that the launch brings,
so the loader does not see them (log 23). -/
def certSlot (sl : Slot) : List (Except Ill Op) :=
  match sl.instr with
  | .ok (.cw _ _) => []
  | _ => expandSlot [] sl

/-- Latches that all hold a value. -/
def fullLatches : Latches := { ls := some 0, lm := some 0, lc0 := some 0, lc1 := some 0, lv0 := some 0, lv1 := some 0 }

/-- An empty handle through which no access is a claim access. -/
def plainHandle (_ : Fin 16) : Handle := {}

/-- Bundle k of the image at an address. -/
def State.node (s : State) (pa k : Nat) : Node :=
  let b := decodeBundle (s.bytes (pa + 16 * k) 16)
  let l := b.slots.flatMap certSlot
  let ops := goodOps l
  let com := ops.any fun o => commits plainHandle o.instr
  { k := k, ops := ops, yieldPt := b.yieldPt, ckpt := b.ckpt || b.yieldPt || com, committing := com
    pairs := b.slots.any fun sl => match sl.instr with
      | .ok (.cw _ _) => true
      | _ => false
    illegal := (checkBundle b l true fullLatches).isSome || s.poisoned (pa + 16 * k) 16 }

/-! ### The control graph (R357) -/

/-- The bundle that a direct transfer from bundle k names. -/
def certTarget (k : Nat) (d : BitVec 24) : Int := (k : Int) + d.toInt

/-- Direct targets of an operation of bundle k. -/
def targetsOf (k : Nat) (i : Instr) : List Int :=
  match i with
  | .br d | .brc _ _ d | .brz _ d | .brnz _ d | .call _ d => [certTarget k d]
  | _ => []

/-- The operation never lets fetch go on behind its bundle. -/
def endsPath (i : Instr) : Bool :=
  match i with
  | .br _ | .ret _ | .jmpr _ _ | .resume _ | .abort _ | .done => true
  | _ => false

/-- A control transfer (R218). -/
def isTransfer (i : Instr) : Bool :=
  match i with
  | .br _ | .brc _ _ _ | .brz _ _ | .brnz _ _ | .call _ _ | .ret _ | .jmpr _ _ => true
  | _ => false

/-- A bundle with the operation must be a yield point (R220, R357). -/
def wantsYield (i : Instr) : Bool :=
  match i with
  | .call _ _ | .ret _ | .jmpr _ _ | .resume _ | .abort _ => true
  | _ => false

/-- The loop that an operation of bundle k starts: k, its length, PRE. -/
def loopOf (k : Nat) (i : Instr) : Option (Nat × Nat × Bool) :=
  match i with
  | .loop _ pre _ len => some (k, len.val, pre)
  | _ => none

/-- The loops of a bundle. -/
def Node.loops (x : Node) : List (Nat × Nat × Bool) := x.ops.filterMap fun o => loopOf x.k o.instr

/-- Some operation of the bundle satisfies a test. -/
def Node.has (x : Node) (f : Instr → Bool) : Bool := x.ops.any fun o => f o.instr

/-- Bundles that may follow a bundle: what a `ret` comes back to follows its `call`. -/
def Node.succs (x : Node) : List Int :=
  (if x.has endsPath then [] else [(x.k : Int) + 1]) ++ (x.ops.flatMap fun o => targetsOf x.k o.instr)
    ++ x.loops.map fun l => ((l.1 + l.2.1 + 1 : Nat) : Int)

/-- The reachable bundles of an image of n bundles; fuel bounds the search. -/
def State.reachable (s : State) (pa n : Nat) : Nat → List Node → List Int → List Node
  | 0, seen, _ => seen
  | _, seen, [] => seen
  | fuel + 1, seen, k :: work =>
    if k < 0 ∨ (n : Int) ≤ k ∨ seen.any fun x => (x.k : Int) = k then State.reachable s pa n fuel seen work
    else
      let x := s.node pa k.toNat
      State.reachable s pa n fuel (seen ++ [x]) (x.succs ++ work)

/-- The operation is a `jmpr`. -/
def isJmpr (i : Instr) : Bool :=
  match i with
  | .jmpr _ _ => true
  | _ => false

/-- The reachable bundles, with those that a register target may lead to, and where it leads there. The loader cannot follow such a target
(R220): where reached code holds a `jmpr`, the lowest bundle of the image that is not reached otherwise is taken as one, until all are
reached. DEDUCED (log 23). -/
def State.withTargets (s : State) (pa n : Nat) : Nat → List Node → List Nat → List Node × List Nat
  | 0, ns, heads => (ns, heads)
  | fuel + 1, ns, heads =>
    if ns.any (·.has isJmpr) then
      match (List.range n).find? fun k => !ns.any fun x => x.k = k with
      | some k => s.withTargets pa n fuel (s.reachable pa n (8 * n + 8) ns [(k : Int)]) (heads ++ [k])
      | none => (ns, heads)
    else (ns, heads)

/-- A way from one bundle to the next. -/
structure Edge where
  src : Nat
  dst : Nat
  /-- A yield point lies on it: the boundary of a pre-emptible loop (R222, R357). -/
  yld : Bool
  /-- A resumption point may lie on it, so that latches may be lost: the boundary of a pre-emptible loop at which the task stops for a
  request (R193, R222). -/
  cut : Bool
  deriving DecidableEq, Repr

/-- The innermost loop of a list that holds a bundle in its body. -/
def innerLoop (ls : List (Nat × Nat × Bool)) (k : Nat) : Option (Nat × Nat × Bool) :=
  (ls.filter fun l => decide (l.1 < k) && decide (k ≤ l.1 + l.2.1)).foldl (fun a l => some (match a with
    | some b => if l.2.1 < b.2.1 then l else b
    | none => l)) none

/-- Ways on from bundle k once fetch has come to the end of a body whose last bundle is given: past it, and back into each loop of a list
that ends there too (R222). -/
def endEdges (k last : Nat) (outer : List (Nat × Nat × Bool)) : List Edge :=
  { src := k, dst := last + 1, yld := outer.any (·.2.2), cut := outer.any (·.2.2) : Edge }
    :: outer.map fun l => { src := k, dst := l.1 + 1, yld := l.2.2, cut := l.2.2 : Edge }

/-- The operation is a `call`, behind whose bundle fetch goes on only from a `ret` (R224). -/
def isCall (i : Instr) : Bool :=
  match i with
  | .call _ _ => true
  | _ => false

/-- The operation is a `ret`. -/
def isRet (i : Instr) : Bool :=
  match i with
  | .ret _ => true
  | _ => false

/-- The operation is an `lbreak`. -/
def isBreak (i : Instr) : Bool :=
  match i with
  | .lbreak _ => true
  | _ => false

/-- The edges of the control graph: along the image and to direct targets, back from every `ret` to behind every `call`, and those of the
loop engine, a loop that is skipped and one that is left by `lbreak` among them (R222, R225). -/
def edgesOf (ns : List Node) : List Edge :=
  let ls := ns.flatMap Node.loops
  let lastOf := fun (k : Nat) => ls.filter fun l => l.1 + l.2.1 = k
  let calls := ns.filter (·.has isCall)
  ns.flatMap fun x =>
    (if x.has endsPath || x.has isCall || !x.loops.isEmpty then []
      else if (lastOf x.k).isEmpty then [{ src := x.k, dst := x.k + 1, yld := false, cut := false : Edge }]
      else endEdges x.k x.k (lastOf x.k))
    ++ ((x.ops.flatMap fun o => targetsOf x.k o.instr).map fun d => { src := x.k, dst := d.toNat, yld := false, cut := false : Edge })
    ++ (if x.has isRet then calls.map fun c => { src := x.k, dst := c.k + 1, yld := false, cut := false : Edge } else [])
    ++ (x.loops.flatMap fun l =>
        { src := x.k, dst := l.1 + 1, yld := false, cut := false : Edge }
          :: endEdges x.k (l.1 + l.2.1) ((lastOf (l.1 + l.2.1)).filter fun o => decide (o.1 < l.1)))
    ++ (if x.has isBreak then
        ((innerLoop ls x.k).toList.flatMap fun l =>
          endEdges x.k (l.1 + l.2.1) ((lastOf (l.1 + l.2.1)).filter fun o => decide (o.1 < l.1)))
      else [])

/-- The bundles that a list of edges leads to from a work list; fuel bounds the search. -/
def follow (es : List Edge) : Nat → List Nat → List Nat → List Nat
  | 0, seen, _ => seen
  | _, seen, [] => seen
  | fuel + 1, seen, k :: work =>
    if seen.contains k then follow es fuel seen work
    else follow es fuel (seen ++ [k]) (((es.filter fun e => e.src = k).map (·.dst)) ++ work)

/-- A bundle lies on a cycle of the edges. -/
def onCycle (es : List Edge) (k : Nat) : Bool :=
  (follow es (2 * es.length + 2) [] ((es.filter fun e => e.src = k).map (·.dst))).contains k

/-- The least of a list of bundle numbers. -/
def leastOf (l : List Nat) : Option Nat := l.foldl (fun a k => some (match a with
  | some b => min b k
  | none => k)) none

/-! ### The rules (R357) -/

/-- Rule 2: a bundle that would trap, or a direct target or entry outside the image. -/
def broken2 (ns : List Node) (n : Nat) (entries : List Nat) : Option Nat :=
  leastOf ((ns.filter fun x => x.illegal || (x.ops.any fun o => (targetsOf x.k o.instr).any fun d => decide (d < 0) || decide ((n : Int) ≤ d))).map (·.k)
    ++ entries.filter fun k => decide (n ≤ k))

/-- Edges between bundles that are no yield points, with no yield point on them. -/
def yieldFree (ns : List Node) (es : List Edge) : List Edge :=
  let plain := fun (k : Nat) => ns.any fun x => x.k = k ∧ !x.yieldPt
  es.filter fun e => !e.yld && plain e.src && plain e.dst

/-- A path through the body of a loop, from its first bundle to its last, along edges between bundles of the body (R357). -/
def bodyPath (es : List Edge) (l : Nat × Nat × Bool) : Bool :=
  let inBody := fun (k : Nat) => decide (l.1 < k) && decide (k ≤ l.1 + l.2.1)
  let f := es.filter fun e => inBody e.src && inBody e.dst
  (follow f (2 * f.length + 2) [] [l.1 + 1]).contains (l.1 + l.2.1)

/-- Rule 3: a cycle without a yield point, or a loop without PRE whose body has a path without a yield bundle. -/
def broken3 (ns : List Node) (es : List Edge) : Option Nat :=
  let plain := fun (k : Nat) => ns.any fun x => x.k = k ∧ !x.yieldPt
  let g := es.filter fun e => plain e.src && plain e.dst
  leastOf ((ns.map (·.k)).filter (onCycle (yieldFree ns es))
    ++ (((ns.flatMap Node.loops).filter fun l => !l.2.2 && plain (l.1 + 1) && bodyPath g l).map (·.1)))

/-- Rule 4: a bundle that must be a yield point and is none, or a transfer in the last bundle of a loop body. -/
def broken4 (ns : List Node) : Option Nat :=
  let ls := ns.flatMap Node.loops
  leastOf ((ns.filter fun x => (x.has wantsYield && !x.yieldPt) || (x.has isTransfer && ls.any fun l => l.1 + l.2.1 = x.k)).map (·.k))

/-- A number for each bundle, found by n rounds: each is put together from the numbers that its incoming edges carry. -/
def rounds (ns : List Node) (es : List Edge) (join : Node → List (Edge × Node × Nat) → Nat) : Nat → SMap Nat → SMap Nat
  | 0, m => m
  | r + 1, m =>
    rounds ns es join r (ns.foldl (fun acc x => smPut acc x.k (join x (es.filterMap fun e =>
      if e.dst = x.k then (ns.find? fun y => y.k = e.src).map fun y => (e, y, smGet 0 m e.src) else none))) [])

/-- Rule 5: bundles since the last yield point, by the longest path. -/
def broken5 (ns : List Node) (es : List Edge) (limit : Nat) : Option Nat :=
  let d := rounds ns es (fun x l => if x.yieldPt then 0
    else 1 + (l.map fun p => if p.1.yld || p.2.1.yieldPt then 0 else p.2.2).foldl max 0) (ns.length + 1) []
  leastOf ((d.filter fun p => decide (limit < p.2)).map (·.1))

/-- Lines that the stores of a bundle withhold (R357). -/
def Node.lines (x : Node) : Nat :=
  (x.ops.map fun o => match o.instr with
    | .st _ => 1
    | .stv m => 2 ^ m.sz.val
    | _ => 0).sum

/-- Edges on which no resumption point lies, so that withheld stores add up along them. The boundary of a pre-emptible loop is one only for a
request, so that the passes of the loop add up too (R193, R222, R336). -/
def heldEdges (ns : List Node) (es : List Edge) : List Edge :=
  let stays := fun (k : Nat) => ns.any fun x => decide (x.k = k) && !x.committing
  let joins := fun (k : Nat) => ns.any fun x => decide (x.k = k) && !x.ckpt
  es.filter fun e => stays e.src && joins e.dst

/-- What a register may hold where a path of the image has come to, as a number: 0 where no path has come yet, 1 for any value, v + 2 for the
value v. -/
def meetConst (a b : Nat) : Nat := if a = 0 then b else if b = 0 ∨ a = b then a else 1

/-- What a bundle leaves in a scalar register that held x: the value of a `movi`, and any value where something else writes it. -/
def Node.setsConst (n : Node) (r : Fin 32) (x : Nat) : Nat :=
  match (n.ops.filter fun o => decide (destOf o.instr = some (.s r))).getLast? with
  | some o => (match o.instr with
    | .movi _ v => (v.signExtend 64 : Word).toNat + 2
    | _ => 1)
  | none => if n.pairs then 1 else x

/-- What a scalar register may hold as bundle k issues, on every path from an entry. -/
def constAt (ns : List Node) (es : List Edge) (entries : List Nat) (r : Fin 32) (k : Nat) : Nat :=
  let into := fun (x : Node) (l : List Nat) => l.foldl meetConst (if entries.contains x.k then 1 else 0)
  let m := rounds ns es (fun x l => x.setsConst r (into x (l.map (·.2.2)))) (2 * ns.length + 2) []
  match ns.find? fun x => x.k = k with
  | some x => into x ((es.filter fun e => e.dst = k).map fun e => smGet 0 m e.src)
  | none => 1

/-- The passes of the loop of bundle k, where the loader can tell its trip count (R222). -/
def passesOf (ns : List Node) (es : List Edge) (entries : List Nat) (k : Nat) : Option Nat :=
  ((ns.find? fun x => x.k = k).bind fun x => x.ops.findSome? fun o => match o.instr with
    | .loop a _ stages _ => some (a, stages.val)
    | _ => none).bind fun p =>
      if h : p.1.code < 32 then
        let v := if p.1.code = 0 then 2 else constAt ns es entries ⟨p.1.code, h⟩ k
        if v < 2 then none else some (v - 2 + max p.2 1 - 1)
      else none

/-- Rule 6: lines withheld since the last resumption point, by the heaviest path. A bundle in a loop whose passes have no resumption point
between them counts for every pass, so that a store there breaks the rule where the loader cannot tell their number (log 23). -/
def broken6 (ns : List Node) (es : List Edge) (entries : List Nat) : Option Nat :=
  let f := heldEdges ns es
  let open_ := (ns.flatMap Node.loops).filter fun l =>
    f.any (fun e => decide (e.src = l.1 + l.2.1) && decide (e.dst = l.1 + 1)) && bodyPath f l
  let times := fun (k : Nat) => (open_.filter fun l => decide (l.1 < k) && decide (k ≤ l.1 + l.2.1)).foldl
    (fun n l => n * (passesOf ns es entries l.1).getD 257) 1
  let g := f.filter fun e => !open_.any fun l => decide (e.src = l.1 + l.2.1) && decide (e.dst = l.1 + 1)
  let w := rounds ns g (fun x l => (if x.lines = 0 then 0 else x.lines * times x.k) + (l.map (·.2.2)).foldl max 0) (ns.length + 1) []
  leastOf ((w.filter fun p => decide (256 < p.2)).map (·.1) ++ (ns.filter fun x => decide (0 < x.lines) && onCycle g x.k).map (·.k))

/-- The instruction names a destination register, so that its port's latch takes its result (R192). -/
def givesResult (i : Instr) : Bool :=
  match portOf i with
  | .v => match i with
    | .vwin _ => false
    | _ => true
  | .m => match i with
    | .mshape .. | .mopnd .. | .mdrain .. | .mstat _ => true
    | _ => false
  | .c => decide (classOf i ≠ 10) || match i with
    | .spop .. => true
    | _ => false
  | .s => decide (classOf i ≤ 1) || match i with
    | .call .. | .ld _ | .hchk .. | .amo .. | .cas .. | .ctag .. | .cbRead .. | .mfsr .. | .time _ | .timeUnc _ => true
    | _ => false

/-- The guard predicate of an instruction; P0 where it has none (R194). -/
def guardOf (i : Instr) : Fin 8 :=
  match i with
  | .add o | .sub o | .mul o | .mulhI o | .mulhN o | .and o | .or o | .xor o | .andn o | .shl o | .shr o | .sra o | .minI o | .maxI o
  | .minN o | .maxN o | .sel o _ | .bfx o | .bfi o _ | .divI o | .divN o | .remI o | .remN o => o.g
  | .clz o | .ctz o | .popc o | .mov o => o.g
  | .cmp _ _ _ _ _ g => g
  | _ => 0

/-- The latches that a bundle's operations give a value whatever their guards, as a set of bits: LS, LV0, LV1, LM, LC0, LC1. -/
def latchBits : List Op → Nat → Nat → Nat
  | [], _, _ => 0
  | o :: l, v, c =>
    let p := portOf o.instr
    let bit := match p with
      | .s => 1
      | .v => if v = 0 then 2 else 4
      | .m => 8
      | .c => if c = 0 then 16 else 32
    let own := if givesResult o.instr && decide (guardOf o.instr = 0) then bit else 0
    own ||| latchBits l (if p = .v then v + 1 else v) (if p = .c then c + 1 else c)

/-- The latches that the operations of a short pair may give a value: those of ports V and C (R189). -/
def pairBits : Nat := 2 + 4 + 16 + 32

/-- Latches that may hold a value made since the last resumption point, on every path to a bundle. A short pair counts as giving those of
its ports, since the loader does not see which (log 23). -/
def latchesAt (ns : List Node) (es : List Edge) (entries : List Nat) : SMap Nat :=
  rounds ns es (fun x l =>
    if x.ckpt || entries.contains x.k then 0
    else (l.map fun p => if p.1.cut || p.2.1.committing then 0 else p.2.2 ||| latchBits p.2.1.ops 0 0 ||| if p.2.1.pairs then pairBits else 0).foldl (· &&& ·) 63)
    (6 * ns.length + 1) (ns.map fun x => (x.k, 63))

/-- Rule 7: a latch is read whose producer lies before the most recent resumption point on some path. -/
def broken7 (ns : List Node) (es : List Edge) (entries : List Nat) : Option Nat :=
  let v := latchesAt ns es entries
  leastOf ((ns.filter fun x => x.ops.any fun o => (specsOf o.instr).any fun k =>
    decide (32 ≤ k) && decide (k ≤ 37) && !flag (smGet 0 v x.k) (k - 32)).map (·.k))

/-- Most bytes of an image (R357). -/
def imageMax : Nat := 16 * 2 ^ 20

/-- The first broken rule of R357, with the lowest failing bundle. -/
def State.certFault (s : State) (pa len : Nat) (entries : List Nat) (limit : Nat) : Option (Nat × Nat) :=
  let n := len / 16
  if imageMax < len then some (1, imageMax / 16)
  else
    let p := s.withTargets pa n n (s.reachable pa n (8 * n + entries.length + 8) [] (entries.map Int.ofNat)) []
    let ns := p.1
    let heads := entries ++ p.2
    let es := edgesOf ns
    ((broken2 ns n entries).map fun k => (2, k)).or (((broken3 ns es).map fun k => (3, k)).or (((broken4 ns).map fun k => (4, k)).or
      (((broken5 ns es limit).map fun k => (5, k)).or (((broken6 ns es heads).map fun k => (6, k)).or
        ((broken7 ns es heads).map fun k => (7, k))))))

/-! ### CERTIFY (R380, R381) -/

/-- Entries of the stamp table (R380). -/
def stampSlots : Nat := 256

/-- The lowest free stamp. -/
def HostIf.freeStamp (h : HostIf) : Option Nat := (List.range stampSlots).find? fun k => !(smGet {} h.stamps k : Stamp).valid

/-- A bundle index of an entry list: one in a poisoned line counts as lying outside every image. DESIGN CHOICE (log 91). -/
def State.entryAt (s : State) (a : Nat) : Nat := if s.poisoned a 4 then 2 ^ 28 - 1 else s.bytes a 4

/-- CERTIFY: the loader runs the mailbox command (R381). -/
def execCertify (base len list count : Word) (s : State) : Host.Outcome State Fault Refusal :=
  .next (
    if !s.mbHolds 1 [base, len, list, count] then s
    else if 2 ^ 42 ≤ base.toNat ∨ 2 ^ 42 ≤ list.toNat then s.mbDone .address
    else if 1024 < count.toNat then s.mbDone .badCommand
    else
      let entries := (List.range count.toNat).map fun k => s.entryAt (s.here list.toNat + 4 * k)
      let limit := (s.die 0).yieldLimit
      let pa := s.here base.toNat
      match s.certFault pa len.toNat entries limit with
      | some (rule, k) => s.mbDone .cert (rule + k * 16)
      | none =>
        match s.host.freeStamp with
        | none => s.mbDone .full
        | some i =>
          let x : Stamp := { valid := true, base := base.toNat, len := len.toNat, digest := sha256 (bytesOf (s.bytes pa len.toNat) len.toNat)
                             limit := limit, entries := entries }
          State.mbDone { s with host := { s.host with stamps := smPut s.host.stamps i x } } .ok i)

/-! ### Identity and firmware (R430, R431) -/

/-- A number in n bytes, lowest first, as bytes. -/
def le (n v : Nat) : List Byte := bytesOf v n

/-- A digest as its 32 bytes, first byte first. -/
def digestBytes (d : BitVec 256) : List Byte := (bytesOf d.toNat 32).reverse

/-- The RWL values of the module, die by die (R8, R159, R409). -/
def State.rwlValues (s : State) : List Nat :=
  (List.range 8).flatMap fun d => let x := s.die d; [x.moduleId, x.domSize, x.timeRoot, x.yieldLimit]

/-- The digest of the stamp table's 256 digests (R431). -/
def HostIf.stampDigest (h : HostIf) : BitVec 256 :=
  sha256 ((List.range stampSlots).flatMap fun k => digestBytes (smGet {} h.stamps k : Stamp).digest)

/-- Bytes 0 to 639 of an attestation report (R431). -/
def State.report (s : State) (nonce : BitVec 256) : List Byte :=
  le 8 1 ++ le 8 Config.partId.toNat ++ digestBytes Config.identityDigest ++ bytesOf nonce.toNat 32
    ++ ((List.range 6).flatMap fun k => digestBytes (Config.measurement k (s.firmware.getD []) s.rwlValues))
    ++ digestBytes s.host.stampDigest ++ le 32 0
    ++ le 8 Config.fusedVersion.toNat ++ le 8 (s.time 0) ++ le 288 0

/-- Bytes written to host memory. -/
def State.hostPut (s : State) (a : Nat) (l : List Byte) : State :=
  { s with host := { s.host with mem := memWrite s.host.mem a l.length (ofLanes 8 (l.map (·.toNat))) } }

/-- ATTEST: the report goes to host memory, with the nonce that host memory holds at the address in MBARG1 (R431). The
salt of the signature is random (R430): it comes with the event. -/
def execAttest (report nonceAddr : Word) (salt : BitVec 256) (s : State) : Host.Outcome State Fault Refusal :=
  .next (
    if !s.mbHolds 5 [report, nonceAddr] then s
    else if !s.mbSpare 2 then s.mbDone .badCommand
    else if report.toNat % 64 ≠ 0 then s.mbDone .address
    else
      let body := s.report (BitVec.ofNat 256 (memRead s.host.mem nonceAddr.toNat 32))
      let sig := (bytesOf (Config.signature salt body).toNat 384).reverse
      (s.hostPut report.toNat (body ++ sig)).mbDone .ok)

/-- GETCERT: the certificate chain goes to host memory if it fits (R431). -/
def execGetcert (addr len : Word) (s : State) : Host.Outcome State Fault Refusal :=
  .next (
    let n := Config.certChain.length
    if !s.mbHolds 6 [addr, len] then s
    else if !s.mbSpare 2 then s.mbDone .badCommand
    else if len.toNat < n then s.mbDone .short n
    else (s.hostPut addr.toNat Config.certChain).mbDone .ok n)

/-- FWUPDATE: a signed image that verifies goes to module flash (R430, R431). -/
def execFwupdate (addr len : Word) (s : State) : Host.Outcome State Fault Refusal :=
  .next (
    if !s.mbHolds 7 [addr, len] then s
    else if !s.mbSpare 2 then s.mbDone .badCommand
    else if 2 ^ 42 ≤ addr.toNat then s.mbDone .address
    else
      let pa := s.here addr.toNat
      let img := bytesOf (s.bytes pa len.toNat) len.toNat
      if s.poisoned pa len.toNat || !Config.imageVerifies img then s.mbDone .auth
      else if (Config.imageVersion img).toNat < Config.fusedVersion.toNat then s.mbDone .version
      else State.mbDone { s with flashImage := some img } .ok)

end Sys2Proof.Machine
end

