-- ==== Sys2Proof/Machine/Dispatch.lean ====
section
/-! DEFINITION. The meaning of each step of the opcode table: one arm per constructor of Instr. -/

namespace Sys2Proof.Machine

def exec (i : Instr) (s : State) : Host.Outcome State Fault Refusal :=
  match i with
  | .add o => Sys2Proof.Machine.execAdd o s
  | .sub o => Sys2Proof.Machine.execSub o s
  | .mul o => Sys2Proof.Machine.execMul o s
  | .mulhI o => Sys2Proof.Machine.execMulhI o s
  | .mulhN o => Sys2Proof.Machine.execMulhN o s
  | .and o => Sys2Proof.Machine.execAnd o s
  | .or o => Sys2Proof.Machine.execOr o s
  | .xor o => Sys2Proof.Machine.execXor o s
  | .andn o => Sys2Proof.Machine.execAndn o s
  | .shl o => Sys2Proof.Machine.execShl o s
  | .shr o => Sys2Proof.Machine.execShr o s
  | .sra o => Sys2Proof.Machine.execSra o s
  | .minI o => Sys2Proof.Machine.execMinI o s
  | .maxI o => Sys2Proof.Machine.execMaxI o s
  | .minN o => Sys2Proof.Machine.execMinN o s
  | .maxN o => Sys2Proof.Machine.execMaxN o s
  | .cmp cond p a b nw g => Sys2Proof.Machine.execCmp cond p a b nw g s
  | .sel o k => Sys2Proof.Machine.execSel o k s
  | .clz o => Sys2Proof.Machine.execClz o s
  | .ctz o => Sys2Proof.Machine.execCtz o s
  | .popc o => Sys2Proof.Machine.execPopc o s
  | .bfx o => Sys2Proof.Machine.execBfx o s
  | .bfi o e => Sys2Proof.Machine.execBfi o e s
  | .mov o => Sys2Proof.Machine.execMov o s
  | .divI o => Sys2Proof.Machine.execDivI o s
  | .divN o => Sys2Proof.Machine.execDivN o s
  | .remI o => Sys2Proof.Machine.execRemI o s
  | .remN o => Sys2Proof.Machine.execRemN o s
  | .addi o => Sys2Proof.Machine.execAddi o s
  | .andi o => Sys2Proof.Machine.execAndi o s
  | .ori o => Sys2Proof.Machine.execOri o s
  | .xori o => Sys2Proof.Machine.execXori o s
  | .shli d a n => Sys2Proof.Machine.execShli d a n s
  | .shri d a n => Sys2Proof.Machine.execShri d a n s
  | .srai d a n => Sys2Proof.Machine.execSrai d a n s
  | .cmpi cond p a imm => Sys2Proof.Machine.execCmpi cond p a imm s
  | .movi d imm => Sys2Proof.Machine.execMovi d imm s
  | .movhi o => Sys2Proof.Machine.execMovhi o s
  | .vaddr d a g => Sys2Proof.Machine.execVaddr d a g s
  | .nop => Sys2Proof.Machine.execNop s
  | .br d => Sys2Proof.Machine.execBr d s
  | .brc p neg d => Sys2Proof.Machine.execBrc p neg d s
  | .brz a d => Sys2Proof.Machine.execBrz a d s
  | .brnz a d => Sys2Proof.Machine.execBrnz a d s
  | .call l d => Sys2Proof.Machine.execCall l d s
  | .ret a => Sys2Proof.Machine.execRet a s
  | .jmpr a n => Sys2Proof.Machine.execJmpr a n s
  | .loop a pre stages len => Sys2Proof.Machine.execLoop a pre stages len s
  | .lbreak p => Sys2Proof.Machine.execLbreak p s
  | .spawn a named core entry => Sys2Proof.Machine.execSpawn a named core entry s
  | .done => Sys2Proof.Machine.execDone s
  | .ld o => Sys2Proof.Machine.execLd o s
  | .st o => Sys2Proof.Machine.execSt o s
  | .ldv o => Sys2Proof.Machine.execLdv o s
  | .stv o => Sys2Proof.Machine.execStv o s
  | .xlat ro d h x imm => Sys2Proof.Machine.execXlat ro d h x imm s
  | .hchk sel d h => Sys2Proof.Machine.execHchk sel d h s
  | .hdrop h => Sys2Proof.Machine.execHdrop h s
  | .hmov hd hs => Sys2Proof.Machine.execHmov hd hs s
  | .pf sz hint h x imm => Sys2Proof.Machine.execPf sz hint h x imm s
  | .phase n => Sys2Proof.Machine.execPhase n s
  | .amo op w32 ord sc d m => Sys2Proof.Machine.execAmo op w32 ord sc d m s
  | .cas w32 ord sc d m e => Sys2Proof.Machine.execCas w32 ord sc d m e s
  | .famo op ty sc m d => Sys2Proof.Machine.execFamo op ty sc m d s
  | .fence mode sc => Sys2Proof.Machine.execFence mode sc s
  | .stake m d => Sys2Proof.Machine.execStake m d s
  | .settle m d => Sys2Proof.Machine.execSettle m d s
  | .ctag d m => Sys2Proof.Machine.execCtag d m s
  | .unstake m => Sys2Proof.Machine.execUnstake m s
  | .crewJoin n => Sys2Proof.Machine.execCrewJoin n s
  | .crewLeave n => Sys2Proof.Machine.execCrewLeave n s
  | .crewSync n close => Sys2Proof.Machine.execCrewSync n close s
  | .cbArm n a => Sys2Proof.Machine.execCbArm n a s
  | .cbWait n sc => Sys2Proof.Machine.execCbWait n sc s
  | .cbAdd n a => Sys2Proof.Machine.execCbAdd n a s
  | .cbRead d n => Sys2Proof.Machine.execCbRead d n s
  | .stepCommit a => Sys2Proof.Machine.execStepCommit a s
  | .atmClose wait sc => Sys2Proof.Machine.execAtmClose wait sc s
  | .vadd o => Sys2Proof.Machine.execVadd o s
  | .vsub o => Sys2Proof.Machine.execVsub o s
  | .vmul o => Sys2Proof.Machine.execVmul o s
  | .vfma o => Sys2Proof.Machine.execVfma o s
  | .vfms o => Sys2Proof.Machine.execVfms o s
  | .vfnma o => Sys2Proof.Machine.execVfnma o s
  | .vmin o => Sys2Proof.Machine.execVmin o s
  | .vmax o => Sys2Proof.Machine.execVmax o s
  | .vabs o => Sys2Proof.Machine.execVabs o s
  | .vneg o => Sys2Proof.Machine.execVneg o s
  | .vcmp cond t k a b m nw => Sys2Proof.Machine.execVcmp cond t k a b m nw s
  | .vsel o => Sys2Proof.Machine.execVsel o s
  | .vscale o => Sys2Proof.Machine.execVscale o s
  | .vround o => Sys2Proof.Machine.execVround o s
  | .vclass o => Sys2Proof.Machine.execVclass o s
  | .viadd o => Sys2Proof.Machine.execViadd o s
  | .visub o => Sys2Proof.Machine.execVisub o s
  | .vimul o => Sys2Proof.Machine.execVimul o s
  | .vimulh o => Sys2Proof.Machine.execVimulh o s
  | .vand o => Sys2Proof.Machine.execVand o s
  | .vor o => Sys2Proof.Machine.execVor o s
  | .vxor o => Sys2Proof.Machine.execVxor o s
  | .vshl o => Sys2Proof.Machine.execVshl o s
  | .vshr o => Sys2Proof.Machine.execVshr o s
  | .vsra o => Sys2Proof.Machine.execVsra o s
  | .vimin o => Sys2Proof.Machine.execVimin o s
  | .vimax o => Sys2Proof.Machine.execVimax o s
  | .vicmp cond t k a b m nw => Sys2Proof.Machine.execVicmp cond t k a b m nw s
  | .vcvt o ts p => Sys2Proof.Machine.execVcvt o ts p s
  | .vbcast t d a m nw => Sys2Proof.Machine.execVbcast t d a m nw s
  | .vperm o => Sys2Proof.Machine.execVperm o s
  | .vlrot t d a b m nw => Sys2Proof.Machine.execVlrot t d a b m nw s
  | .vext t d a b nw => Sys2Proof.Machine.execVext t d a b nw s
  | .vins t d a b nw => Sys2Proof.Machine.execVins t d a b nw s
  | .vmask op d nw => Sys2Proof.Machine.execVmask op d nw s
  | .vmcnt t d a nw => Sys2Proof.Machine.execVmcnt t d a nw s
  | .vpop d q nw => Sys2Proof.Machine.execVpop d q nw s
  | .vwin a => Sys2Proof.Machine.execVwin a s
  | .vmov o => Sys2Proof.Machine.execVmov o s
  | .vrcpA o => Sys2Proof.Machine.execVrcpA o s
  | .vrsqA o => Sys2Proof.Machine.execVrsqA o s
  | .vexp2A o => Sys2Proof.Machine.execVexp2A o s
  | .vlog2A o => Sys2Proof.Machine.execVlog2A o s
  | .vdiv o => Sys2Proof.Machine.execVdiv o s
  | .vsqrt o => Sys2Proof.Machine.execVsqrt o s
  | .vidiv o => Sys2Proof.Machine.execVidiv o s
  | .virem o => Sys2Proof.Machine.execVirem o s
  | .vredsum o => Sys2Proof.Machine.execVredsum o s
  | .vredmax o => Sys2Proof.Machine.execVredmax o s
  | .vredmin o => Sys2Proof.Machine.execVredmin o s
  | .vdot o => Sys2Proof.Machine.execVdot o s
  | .mshape fmt a b c => Sys2Proof.Machine.execMshape fmt a b c s
  | .mcfg level drain o => Sys2Proof.Machine.execMcfg level drain o s
  | .mopnd isB a b h => Sys2Proof.Machine.execMopnd isB a b h s
  | .mrot o => Sys2Proof.Machine.execMrot o s
  | .mprof p => Sys2Proof.Machine.execMprof p s
  | .mdrain a b c => Sys2Proof.Machine.execMdrain a b c s
  | .mgo => Sys2Proof.Machine.execMgo s
  | .mwait => Sys2Proof.Machine.execMwait s
  | .mstat a => Sys2Proof.Machine.execMstat a s
  | .mzero b c => Sys2Proof.Machine.execMzero b c s
  | .rqbind q b bind => Sys2Proof.Machine.execRqbind q b bind s
  | .cpy o => Sys2Proof.Machine.execCpy o s
  | .cpym o => Sys2Proof.Machine.execCpym o s
  | .cpyc o => Sys2Proof.Machine.execCpyc o s
  | .cpyr a b q hd => Sys2Proof.Machine.execCpyr a b q hd s
  | .cwait a b => Sys2Proof.Machine.execCwait a b s
  | .cstat a b => Sys2Proof.Machine.execCstat a b s
  | .qnt o md esc => Sys2Proof.Machine.execQnt o md esc s
  | .qscl a b hs fmt => Sys2Proof.Machine.execQscl a b hs fmt s
  | .dqnt o md => Sys2Proof.Machine.execDqnt o md s
  | .sld a b c esz signed => Sys2Proof.Machine.execSld a b c esz signed s
  | .sst a b c esz signed => Sys2Proof.Machine.execSst a b c esz signed s
  | .sadd o sat => Sys2Proof.Machine.execSadd o sat s
  | .ssub o sat => Sys2Proof.Machine.execSsub o sat s
  | .smul o => Sys2Proof.Machine.execSmul o s
  | .scmp cond o => Sys2Proof.Machine.execScmp cond o s
  | .ssel a b c => Sys2Proof.Machine.execSsel a b c s
  | .slog op o => Sys2Proof.Machine.execSlog op o s
  | .scp a b pred => Sys2Proof.Machine.execScp a b pred s
  | .spred a inv => Sys2Proof.Machine.execSpred a inv s
  | .spop a b => Sys2Proof.Machine.execSpop a b s
  | .srow op o => Sys2Proof.Machine.execSrow op o s
  | .swait b => Sys2Proof.Machine.execSwait b s
  | .rpost a b c hs hd => Sys2Proof.Machine.execRpost a b c hs hd s
  | .rarm a b => Sys2Proof.Machine.execRarm a b s
  | .rcancel a b => Sys2Proof.Machine.execRcancel a b s
  | .rstat a b => Sys2Proof.Machine.execRstat a b s
  | .stend a b h => Sys2Proof.Machine.execStend a b h s
  | .sfold a b h => Sys2Proof.Machine.execSfold a b h s
  | .sflush a b h => Sys2Proof.Machine.execSflush a b h s
  | .mfsr d n => Sys2Proof.Machine.execMfsr d n s
  | .mtsr n a => Sys2Proof.Machine.execMtsr n a s
  | .trap n => Sys2Proof.Machine.execTrap n s
  | .resume keep => Sys2Proof.Machine.execResume keep s
  | .abort a => Sys2Proof.Machine.execAbort a s
  | .time d => Sys2Proof.Machine.execTime d s
  | .timeUnc d => Sys2Proof.Machine.execTimeUnc d s
  | .timeUntil a => Sys2Proof.Machine.execTimeUntil a s
  | .cwtld d a first => Sys2Proof.Machine.execCwtld d a first s
  | .cw x y => Sys2Proof.Machine.execCw x y s
  | .divideComplete d c => Sys2Proof.Machine.execDivideComplete d c s
  | .phaseComplete d c => Sys2Proof.Machine.execPhaseComplete d c s
  | .vectorDivideComplete d c port int => Sys2Proof.Machine.execVectorDivideComplete d c port int s
  | .matrixJobStart d c => Sys2Proof.Machine.execMatrixJobStart d c s
  | .matrixStep d c => Sys2Proof.Machine.execMatrixStep d c s
  | .atbankChunkReturn d c chunk => Sys2Proof.Machine.execAtbankChunkReturn d c chunk s
  | .copyStart t ticket => Sys2Proof.Machine.execCopyStart t ticket s
  | .copyChunk t ticket chunk => Sys2Proof.Machine.execCopyChunk t ticket chunk s
  | .copyChunkAck t ticket chunk => Sys2Proof.Machine.execCopyChunkAck t ticket chunk s
  | .seamMacroExecute d c bank => Sys2Proof.Machine.execSeamMacroExecute d c bank s
  | .relayTimeFire d c entry => Sys2Proof.Machine.execRelayTimeFire d c entry s
  | .relayDelivery d c entry => Sys2Proof.Machine.execRelayDelivery d c entry s
  | .flushCommand d => Sys2Proof.Machine.execFlushCommand d s
  | .stackCommandRelease d => Sys2Proof.Machine.execStackCommandRelease d s
  | .tendBlock cmd => Sys2Proof.Machine.execTendBlock cmd s
  | .foldContribution n => Sys2Proof.Machine.execFoldContribution n s
  | .foldStagingTake n => Sys2Proof.Machine.execFoldStagingTake n s
  | .asyncEventTake d c => Sys2Proof.Machine.execAsyncEventTake d c s
  | .stallPark d c => Sys2Proof.Machine.execStallPark d c s
  | .yieldLimit d c => Sys2Proof.Machine.execYieldLimit d c s
  | .coreParityError d c e => Sys2Proof.Machine.execCoreParityError d c e s
  | .timeUntilReached t => Sys2Proof.Machine.execTimeUntilReached t s
  | .assayScanComplete t => Sys2Proof.Machine.execAssayScanComplete t s
  | .taskAdmission d c t => Sys2Proof.Machine.execTaskAdmission d c t s
  | .taskSwitch d c => Sys2Proof.Machine.execTaskSwitch d c s
  | .balancingExchange d => Sys2Proof.Machine.execBalancingExchange d s
  | .shiftBoundary d launch => Sys2Proof.Machine.execShiftBoundary d launch s
  | .groupSwapOut d launch group => Sys2Proof.Machine.execGroupSwapOut d launch group s
  | .groupSwapIn d launch group => Sys2Proof.Machine.execGroupSwapIn d launch group s
  | .crewDeadlock launch crew => Sys2Proof.Machine.execCrewDeadlock launch crew s
  | .epochDeadlock n => Sys2Proof.Machine.execEpochDeadlock n s
  | .claimSelfDetect t => Sys2Proof.Machine.execClaimSelfDetect t s
  | .storePerform n => Sys2Proof.Machine.execStorePerform n s
  | .loadServe n => Sys2Proof.Machine.execLoadServe n s
  | .atomicPerform n => Sys2Proof.Machine.execAtomicPerform n s
  | .famoHold n => Sys2Proof.Machine.execFamoHold n s
  | .famoAccept n => Sys2Proof.Machine.execFamoAccept n s
  | .epochApply n => Sys2Proof.Machine.execEpochApply n s
  | .claimFirstTouch n => Sys2Proof.Machine.execClaimFirstTouch n s
  | .claimWaiterAdd n => Sys2Proof.Machine.execClaimWaiterAdd n s
  | .claimTimeout t => Sys2Proof.Machine.execClaimTimeout t s
  | .walkComplete n => Sys2Proof.Machine.execWalkComplete n s
  | .pageFaultResolve n entry => Sys2Proof.Machine.execPageFaultResolve n entry s
  | .handleRevoke d c frame => Sys2Proof.Machine.execHandleRevoke d c frame s
  | .migrateFrame leaf dst => Sys2Proof.Machine.execMigrateFrame leaf dst s
  | .migrationCopy n dst2 => Sys2Proof.Machine.execMigrationCopy n dst2 s
  | .recordTake => Sys2Proof.Machine.execRecordTake s
  | .launchStart launch => Sys2Proof.Machine.execLaunchStart launch s
  | .launchCompletion launch => Sys2Proof.Machine.execLaunchCompletion launch s
  | .qtailWrite q v => Sys2Proof.Machine.execQtailWrite q v s
  | .qstatClear q v => Sys2Proof.Machine.execQstatClear q v s
  | .cheadWrite q v => Sys2Proof.Machine.execCheadWrite q v s
  | .peeridWrite n v => Sys2Proof.Machine.execPeeridWrite n v s
  | .stagingConfigWrite d seg isLen v => Sys2Proof.Machine.execStagingConfigWrite d seg isLen v s
  | .claimAreaWrite d isLen v => Sys2Proof.Machine.execClaimAreaWrite d isLen v s
  | .registerWrite off v => Sys2Proof.Machine.execRegisterWrite off v s
  | .bar2Read off len => Sys2Proof.Machine.execBar2Read off len s
  | .bar2Write off bytes requester => Sys2Proof.Machine.execBar2Write off bytes requester s
  | .certify base len list count => Sys2Proof.Machine.execCertify base len list count s
  | .unstamp idx => Sys2Proof.Machine.execUnstamp idx s
  | .unstampComplete idx => Sys2Proof.Machine.execUnstampComplete idx s
  | .retire die launch => Sys2Proof.Machine.execRetire die launch s
  | .mbUnstake addr => Sys2Proof.Machine.execMbUnstake addr s
  | .attest report nonceAddr salt => Sys2Proof.Machine.execAttest report nonceAddr salt s
  | .getcert addr len => Sys2Proof.Machine.execGetcert addr len s
  | .fwupdate addr len => Sys2Proof.Machine.execFwupdate addr len s
  | .coldReset => Sys2Proof.Machine.execColdReset s
  | .warmReset => Sys2Proof.Machine.execWarmReset s
  | .firmwareBoot d rwl => Sys2Proof.Machine.execFirmwareBoot d rwl s
  | .timeSyncMessage d ppm unc => Sys2Proof.Machine.execTimeSyncMessage d ppm unc s
  | .flitCrcError link again => Sys2Proof.Machine.execFlitCrcError link again s
  | .linkRetrain link => Sys2Proof.Machine.execLinkRetrain link s
  | .linkRetrainComplete link => Sys2Proof.Machine.execLinkRetrainComplete link s
  | .ready gang member unc digest => Sys2Proof.Machine.execReady gang member unc digest s
  | .arm gang die => Sys2Proof.Machine.execArm gang die s
  | .gangReserveComplete gang die => Sys2Proof.Machine.execGangReserveComplete gang die s
  | .ack gang member => Sys2Proof.Machine.execAck gang member s
  | .gangGuardExpiry gang => Sys2Proof.Machine.execGangGuardExpiry gang s
  | .commit gang die => Sys2Proof.Machine.execCommit gang die s
  | .cancel gang die cause origin => Sys2Proof.Machine.execCancel gang die cause origin s
  | .gangStart gang die => Sys2Proof.Machine.execGangStart gang die s
  | .gangLateExpiry gang die => Sys2Proof.Machine.execGangLateExpiry gang die s
  | .started gang member => Sys2Proof.Machine.execStarted gang member s
  | .confirm gang die => Sys2Proof.Machine.execConfirm gang die s
  | .gangAbort gang cause key origin => Sys2Proof.Machine.execGangAbort gang cause key origin s
  | .freeze gang die => Sys2Proof.Machine.execFreeze gang die s
  | .freezeReply gang member step => Sys2Proof.Machine.execFreezeReply gang member step s
  | .token gang die step cause origin => Sys2Proof.Machine.execToken gang die step cause origin s
  | .patrolScrub line f => Sys2Proof.Machine.execPatrolScrub line f s
  | .hbmRefresh stack channel => Sys2Proof.Machine.execHbmRefresh stack channel s
  | .dieContainment d structure_ => Sys2Proof.Machine.execDieContainment d structure_ s
  | .watchdogFailure d => Sys2Proof.Machine.execWatchdogFailure d s
  | .thermalSample d tj t0 t1 mw => Sys2Proof.Machine.execThermalSample d tj t0 t1 mw s
  | .coolantFlowLost => Sys2Proof.Machine.execCoolantFlowLost s
  | .hostLinkLoss => Sys2Proof.Machine.execHostLinkLoss s
  | .queueConfigWrite q isSize v => Sys2Proof.Machine.execQueueConfigWrite q isSize v s
  | .pageOut leaf save => Sys2Proof.Machine.execPageOut leaf save s

end Sys2Proof.Machine
end

