-- ==== Sys2Proof/Machine/Agenda.lean ====
section
/-! DEFINITION. What moves next. The spec fixes no order between the agents of the module (R105, R122, R176, R407): a move of the
agenda says which of them takes its step, and a statement about steps holds for every agenda. With an empty agenda the machine moves by
itself in one order that the spec allows: a core that can issue, then an event that is due, then a waiting bundle, then the clock (log 5). -/

set_option Elab.async false

namespace Sys2Proof.Machine

/-! ### Clocks (R6, R410) -/

/-- Device time of a die after n more nanoseconds, at the rate that firmware has set (R410). The fraction is in parts of a million. -/
def Die.advance (x : Die) (n : Nat) : Die :=
  let f := x.frac + n * (1000000 + x.ppm).toNat
  { x with time := x.time + f / 1000000, frac := f % 1000000 }

/-- n nanoseconds pass on every die: device time is counted apart from the clocks of the cores (R6, R410). -/
def State.elapse (s : State) (n : Nat) : State :=
  (List.range 8).foldl (fun s d => s.modDie d fun x => x.advance n) { s with elapsed := s.elapsed + n }

/-- n core clocks pass (R6). -/
def State.ticks (s : State) (n : Nat) : State := { s with clock := s.clock + n }

/-! ### Events that are due -/

/-- The positions of a list. -/
def positions {α : Type} (l : List α) : List Nat := List.range l.length

/-- Events of a core, its banks, its relay entries and its divider ports. -/
def coreEvents (s : State) (d c : Nat) : List Instr :=
  let x := s.core d c
  [.asyncEventTake d c, .stallPark d c, .yieldLimit d c, .divideComplete d c, .phaseComplete d c, .matrixStep d c, .matrixJobStart d c]
    ++ ((s.runningJob d c).map fun i => Instr.atbankChunkReturn d c (s.task i).job.steps).toList
    ++ (x.fdiv.map fun p => .vectorDivideComplete d c p.1 false) ++ (x.idiv.map fun p => .vectorDivideComplete d c p.1 true)
    ++ (x.banks.map fun b => .seamMacroExecute d c b.1)
    ++ x.relays.flatMap fun r => [.relayTimeFire d c r.1, .relayDelivery d c r.1]

/-- Events of a command: its start, its chunks in order, their acknowledgements, the next block of a tend. -/
def commandEvents (s : State) (n : Nat) (c : Cmd) : List Instr :=
  let line := (List.range c.count).findSome? fun k =>
    let p := s.piece c k
    if c.present p then (c.linesOf p).find? fun l => !c.moved.contains l else none
  [.copyStart c.task c.ticket, .tendBlock n, .copyChunk c.task c.ticket (line.getD 0)]
    ++ c.unacked.map fun a => .copyChunkAck c.task c.ticket a.line

/-- Events of the homes and of the walkers. -/
def homeEvents (s : State) : List Instr :=
  (positions s.loads).map .loadServe ++ (positions s.atomics).map .atomicPerform ++ (positions s.stores).map .storePerform
    ++ (positions s.famoSent).map .famoHold ++ (positions s.famoWait).map .famoAccept ++ (positions s.dueEpochs).map .epochApply
    ++ (positions s.claimReqs).flatMap (fun n => [.claimFirstTouch n, .claimWaiterAdd n])
    ++ (positions s.walks).map .walkComplete ++ (positions s.migrations).map (fun n => .migrationCopy n [])
    ++ (positions s.foldMsgs).flatMap fun n => [.foldContribution n, .foldStagingTake n]

/-- Events of a task: its admission, its claim waits, its engine replies, and the deadlock of its domain. -/
def taskEvents (i : Nat) (t : Task) : List Instr :=
  [.taskAdmission t.die t.core i, .assayScanComplete i, .timeUntilReached i, .claimSelfDetect i, .claimTimeout i, .epochDeadlock t.domain]

/-- Events of a die, with the shifts of its launches. -/
def dieEvents (s : State) (d : Nat) : List Instr :=
  [.flushCommand d, .stackCommandRelease d, .balancingExchange d] ++ s.launches.map fun l => .shiftBoundary d l.1

/-- Events of a launch: its start and completion, and the deadlocks of its crews. -/
def launchEvents (n : Nat) (l : Launch) : List Instr :=
  [.launchStart n, .launchCompletion n] ++ (positions l.crews).map fun k => .crewDeadlock n k

/-- The cores that a task names. -/
def State.busyCores (s : State) : List (Nat × Nat) := (s.tasks.map fun t => (t.2.die, t.2.core)).eraseDups

/-- The events that may be due, in the order in which the machine tries them by itself. Events that only an agent outside the model
sends (the host, the fabric, firmware, a failure) are not among them. -/
def State.candidates (s : State) : List Instr :=
  s.busyCores.map (fun k => .taskSwitch k.1 k.2) ++ homeEvents s ++ s.busyCores.flatMap (fun k => coreEvents s k.1 k.2)
    ++ s.cmds.zipIdx.flatMap (fun c => commandEvents s c.2 c.1) ++ s.tasks.flatMap (fun t => taskEvents t.1 t.2)
    ++ (List.range 8).flatMap (dieEvents s)
    ++ s.tasks.flatMap (fun t => [.groupSwapOut t.2.die t.2.launch t.1, .groupSwapIn t.2.die t.2.launch t.1])
    ++ s.migrations.flatMap (fun m => m.waitCores.map fun k => .handleRevoke k.1 k.2 m.src)
    ++ s.launches.flatMap (fun l => launchEvents l.1 l.2)
    ++ (s.host.mailbox.unstamping.map Instr.unstampComplete).toList ++ [.recordTake]

/-- An outcome that is a state other than s. -/
def changes (s : State) (r : Host.Outcome State Fault Refusal) : Bool :=
  match r with
  | .next t => decide (t ≠ s)
  | .fault _ | .refused _ => false

/-- A waiting bundle that gets further when it is tried again: more than the record of the bundle in issue changes. -/
def State.retryChanges (s : State) (d c : Nat) : Bool :=
  match s.coreMove d c with
  | .next t => decide ({ t with iss := s.iss } ≠ s)
  | .fault _ | .refused _ => false

/-- A core whose task may issue now, with no wait before it, or with tasks to end. -/
def State.issues (s : State) (d c : Nat) : Bool :=
  ((s.core d c).issuing.any fun i => (s.task i).ending.isNone && (s.task i).stallSince.isNone && decide ((s.core d c).switchDone ≤ s.clock))
    || decide (s.finishTasks d c ≠ s)

/-- Messages on their way that no row of the table names: responses to stack commands, held chunks, accesses through BAR2. -/
def State.messageMoves (s : State) : List Move :=
  (s.cmds.filterMap fun c => c.answer.map fun _ => Move.answer c.id) ++ (s.heldChunks.map fun h => Move.land h.no)
    ++ (positions s.host.bar2).map Move.bar2

/-- What such a message leaves. -/
def State.message (s : State) (m : Move) : State :=
  match m with
  | .answer id => s.answerStep id
  | .land n => s.landStep n
  | .bar2 n => s.bar2Step n
  | .bundle .. | .event _ | .tick _ | .evict .. | .writeBack _ | .elapse _ | .resize _ | .rotate .. | .upset .. | .moduleFault _ | .powerCap .. => s

/-- What moves when the agenda is empty. -/
def State.defaultMove (s : State) : Move :=
  match s.busyCores.find? fun k => s.issues k.1 k.2 with
  | some (d, c) => .bundle d c
  | none =>
    match s.candidates.find? fun i => changes s (exec i s) with
    | some i => .event i
    | none =>
      match s.busyCores.find? fun k => s.retryChanges k.1 k.2 with
      | some (d, c) => .bundle d c
      | none =>
        match s.messageMoves.find? fun m => decide (s.message m ≠ s) with
        | some m => m
        -- a core clock is 20/17 ns
        | none => if 17 * s.elapsed < 20 * s.clock then .elapse 1 else .tick 1

/-! ### Moves -/

/-- The step is an event: an agent of the module takes it on its own, with no bundle (every other row of the table has an encoding). -/
def isEvent (i : Instr) : Bool :=
  match i with
  | .divideComplete .. | .phaseComplete .. | .vectorDivideComplete .. | .matrixJobStart .. | .matrixStep .. | .atbankChunkReturn .. | .copyStart .. | .copyChunk .. | .copyChunkAck .. | .seamMacroExecute .. | .relayTimeFire .. | .relayDelivery .. |
    .flushCommand .. | .stackCommandRelease .. | .tendBlock .. | .foldContribution .. | .foldStagingTake .. | .asyncEventTake .. |
    .stallPark .. | .yieldLimit .. | .coreParityError .. | .taskAdmission .. | .taskSwitch .. | .balancingExchange .. |
    .shiftBoundary .. | .groupSwapOut .. | .groupSwapIn .. | .crewDeadlock .. | .epochDeadlock .. | .claimSelfDetect .. |
    .storePerform .. | .loadServe .. | .atomicPerform .. | .famoHold .. | .famoAccept .. | .epochApply .. | .claimFirstTouch .. |
    .claimWaiterAdd .. | .claimTimeout .. | .walkComplete .. | .pageFaultResolve .. | .handleRevoke .. | .migrateFrame .. |
    .migrationCopy .. | .recordTake | .launchStart .. | .launchCompletion .. | .qtailWrite .. | .qstatClear .. | .cheadWrite .. |
    .peeridWrite .. | .stagingConfigWrite .. | .claimAreaWrite .. | .registerWrite .. | .bar2Read .. | .bar2Write .. | .certify ..
    | .unstamp .. | .unstampComplete .. | .retire .. | .mbUnstake .. | .attest .. | .getcert .. | .fwupdate .. | .coldReset |
    .warmReset | .firmwareBoot .. | .timeSyncMessage .. | .flitCrcError .. | .linkRetrain .. | .linkRetrainComplete .. | .ready ..
    | .arm .. | .gangReserveComplete .. | .ack .. | .gangGuardExpiry .. | .commit .. | .cancel .. | .gangStart .. |
    .gangLateExpiry .. | .started .. | .confirm .. | .gangAbort .. | .freeze .. | .freezeReply .. | .token .. | .patrolScrub .. |
    .hbmRefresh .. | .dieContainment .. | .watchdogFailure .. | .thermalSample .. | .coolantFlowLost | .timeUntilReached .. |
    .assayScanComplete .. | .hostLinkLoss | .queueConfigWrite .. | .pageOut .. => true
  | .add .. | .sub .. | .mul .. | .mulhI .. | .mulhN .. | .and .. | .or .. | .xor .. | .andn .. | .shl .. | .shr .. | .sra .. |
    .minI .. | .maxI .. | .minN .. | .maxN .. | .cmp .. | .sel .. | .clz .. | .ctz .. | .popc .. | .bfx .. | .bfi .. | .mov .. |
    .divI .. | .divN .. | .remI .. | .remN .. | .addi .. | .andi .. | .ori .. | .xori .. | .shli .. | .shri .. | .srai .. | .cmpi .. | .movi .. | .movhi .. | .vaddr .. | .nop | .br .. | .brc .. | .brz .. | .brnz .. | .call .. | .ret .. | .jmpr .. | .loop .. | .lbreak .. | .spawn .. | .done | .ld .. | .st .. | .ldv .. | .stv .. | .xlat .. | .hchk .. | .hdrop .. | .hmov .. | .pf .. | .phase .. | .amo .. | .cas .. | .famo .. | .fence .. | .stake .. | .settle .. | .ctag .. | .unstake .. | .crewJoin .. |
    .crewLeave .. | .crewSync .. | .cbArm .. | .cbWait .. | .cbAdd .. | .cbRead .. | .stepCommit .. | .atmClose .. | .vadd .. |
    .vsub .. | .vmul .. | .vfma .. | .vfms .. | .vfnma .. | .vmin .. | .vmax .. | .vabs .. | .vneg .. | .vcmp .. | .vsel .. |
    .vscale .. | .vround .. | .vclass .. | .viadd .. | .visub .. | .vimul .. | .vimulh .. | .vand .. | .vor .. | .vxor .. | .vshl .. | .vshr .. | .vsra .. | .vimin .. | .vimax .. | .vicmp .. | .vcvt .. | .vbcast .. | .vperm .. | .vlrot .. | .vext .. |
    .vins .. | .vmask .. | .vmcnt .. | .vpop .. | .vwin .. | .vmov .. | .vrcpA .. | .vrsqA .. | .vexp2A .. | .vlog2A .. | .vdiv ..
    | .vsqrt .. | .vidiv .. | .virem .. | .vredsum .. | .vredmax .. | .vredmin .. | .vdot .. | .mshape .. | .mcfg .. | .mopnd .. |
    .mrot .. | .mprof .. | .mdrain .. | .mgo | .mwait | .mstat .. | .mzero .. | .rqbind .. | .cpy .. | .cpym .. | .cpyc .. | .cpyr .. | .cwait .. | .cstat .. | .qnt .. | .qscl .. | .dqnt .. | .sld .. | .sst .. | .sadd .. | .ssub .. | .smul .. | .scmp .. |
    .ssel .. | .slog .. | .scp .. | .spred .. | .spop .. | .srow .. | .swait .. | .rpost .. | .rarm .. | .rcancel .. | .rstat .. |
    .stend .. | .sfold .. | .sflush .. | .mfsr .. | .mtsr .. | .trap .. | .resume .. | .abort .. | .time .. | .timeUnc .. |
    .timeUntil .. | .cwtld .. | .cw .. => false

/-- A move without power: only a cold reset (R432). -/
def Move.wakes : Move → Bool
  | .event i => decide (i = .coldReset)
  | .bundle .. | .tick _ | .evict .. | .writeBack _ | .elapse _ | .bar2 _ | .resize _ | .rotate .. | .upset .. | .answer _ | .land _ |
    .moduleFault _ | .powerCap .. => false

/-- After an event, every gang that can start does (R416). -/
def andStart (r : Host.Outcome State Fault Refusal) : Host.Outcome State Fault Refusal :=
  match r with
  | .next t => .next (t.startDue t)
  | .fault f => .fault f
  | .refused x => .refused x

/-- Device time passes; the seconds of the links end with it, and gangs start as it comes to their moment (R410, R416, R429). -/
def State.passTime (s : State) (n : Nat) : State := s.startDue (s.elapse n).closeSeconds

/-- One move. -/
def State.move (s : State) (m : Move) : Host.Outcome State Fault Refusal :=
  match m with
  | .bundle d c => s.coreMove d c
  | .event i => if isEvent i then andStart (exec i s) else .fault .strayMove
  | .tick n => .next (s.ticks n)
  | .evict d (some c) line => .next (s.modCore d c fun x => { x with cache := smErase x.cache line })
  | .evict d none line => .next (s.modDie d fun x => { x with rdc := smErase x.rdc line })
  | .writeBack line => .next { s with dirty := s.dirty.filter fun l => l ≠ line }
  | .elapse n => .next (s.passTime n)
  | .bar2 _ | .answer _ | .land _ => .next (s.message m)
  | .resize log => .next { s with host := { s.host with win2Log := max 30 (min 40 log) } }
  | .rotate d launch out into => .next (s.modDie d fun x => { x with rotation := smPut x.rotation launch (out, into) })
  | .upset unit pa fixed => .next (s.upset unit pa fixed)
  | .moduleFault d => .next (s.moduleFault d)
  | .powerCap d mw => .next (s.setPowerCap d mw)

/-- The next move of the agenda is taken from it and made; without power only a cold reset is possible (R432). -/
def State.moveNext (s : State) : Host.Outcome State Fault Refusal :=
  match s.agenda with
  | [] => if s.poweredOff then .fault .noPower else s.move s.defaultMove
  | m :: rest => if s.poweredOff && !m.wakes then .fault .noPower else State.move { s with agenda := rest } m

end Sys2Proof.Machine
end

