-- ==== Sys2Proof/Machine/Step.lean ====
section
/-! DEFINITION. One step of the machine: the next move of its agenda. -/

set_option Elab.async false

namespace Sys2Proof.Machine

/-- One step: the next move (R176, R432). -/
def step (s : State) : Host.Outcome State Fault Refusal := s.moveNext

/-- Where withFetchWord places its program: a module-local HBM offset of die 0. -/
def fetchBase (s : State) : Nat := globalOf (s.modId 0) 0x10000

/-- The launch that withFetchWord places: one bundle of code and no segment. -/
def fetchLaunch (s : State) : Launch :=
  { codeBase := fetchBase s, codeLen := 64, dies := 1, elig := 1, accepted := true, started := true,
    entries := [{ code := 0, rows64 := 1, spad4k := 1, banks := 1, cwt := none, rd := [], wr := [] }] }

/-- The task that withFetchWord places: resident on core 0 of die 0 with 64 rows, 4 KiB of scratchpad and one bank, and issuing. -/
def fetchTask : Task :=
  { status := .issuing, started := true, rowCount := 64, spadSize := 4096, bankCount := 1 }

/-- s with an instruction of the opcode table placed where the next step fetches (log 30): a program comes to run by a launch from
outside the machine, and this stands for that launch, with its one task issuing on core 0 of die 0 and the word in slot 0 of the bundle
at the task's program counter. -/
def State.withFetchWord (s : State) (nbits w : Nat) : State :=
  let s := { s with mem := memWrite s.mem (fetchBase s) 16 (w % 2 ^ nbits), poweredOff := false, agenda := [.bundle 0 0] }
  let s := { s with launches := smPut s.launches 0 (fetchLaunch s), tasks := smPut s.tasks 0 fetchTask }
  s.modCore 0 0 fun x => { x with issuing := some 0, issuedAt := none, switchDone := s.clock }

end Sys2Proof.Machine
end

