-- ==== Sys2Proof/Safety.lean ====
section
/-! DEFINITION. What counts as a sound state and a safe run, in the terms that statements use. -/

set_option Elab.async false

namespace Sys2Proof.Machine

/-- Both memories are in canonical form: device memory and, as far as the device sees it, host memory. -/
def State.memWf (s : State) : Bool := Mem.wf s.mem && Mem.wf s.host.mem

/-- The hard-wired registers of a register file read as R184 and R189 have them: what is stored for S0, P0 and M0 is never read. -/
def Regs.wired (r : Regs) : Bool := decide (r.rdS 0 = 0) && r.rdP 0

/-- A step that answers a state: neither a fault nor a refusal. -/
def Steps (s t : State) : Prop := step s = .next t

/-- A run of n steps from s to t. -/
def Runs : Nat → State → State → Prop
  | 0, s, t => s = t
  | n + 1, s, t => ∃ u, Steps s u ∧ Runs n u t

end Sys2Proof.Machine
end

