-- ==== Sys2Proof/Certificates/Slice0/Obligations.lean ====
section
/-! DEFINITION. The statements for the provers. Each is about the machine alone and holds for every state and operand that meets its
hypotheses; the definitions in Sys2Proof.Stated are the words that the statements share. -/

set_option Elab.async false

namespace Sys2Proof.Stated

open Sys2Proof Sys2Proof.Machine

/-! ### What an instruction leaves alone

In issue, an instruction acts for the task s.iss.task. Saying that a state is the old one with one table entry replaced says that memory,
every other task, core, die and launch, and every queue of the machine are unchanged. -/

/-- Everything but the record of the issuing task is unchanged. -/
def OnlyMe (s t : State) : Prop := t = s.setTask s.iss.task t.me

/-- Everything but the record of the issuing task and the record of the bundle in issue is unchanged. -/
def OnlyMeIss (s t : State) : Prop := t = { s.setTask s.iss.task t.me with iss := t.iss } ∧ t.iss.task = s.iss.task

/-- S[d] receives v, the latches become l, and nothing else changes: S0 discards a write (R199). -/
def WritesS (s t : State) (d : Fin 32) (v : Word) (l : Latches) : Prop :=
  OnlyMe s t ∧ t.me = { s.me with live := { s.me.live with s := t.me.live.s }, latches := l }
    ∧ ∀ r : Fin 32, t.me.live.rdS r = if r = d ∧ d ≠ 0 then v else s.me.live.rdS r

/-- A result of port S: LS receives v, and S[d] does unless NW = 1 (R192, R194). -/
def ResultS (s t : State) (d : Fin 32) (v : Word) (nw : Bool) : Prop :=
  WritesS s t (if nw then 0 else d) v { s.me.latches with ls := some v }

/-- A result of port M: LM and S[a] receive v (R192). -/
def ResultM (s t : State) (a : Fin 32) (v : Word) : Prop := WritesS s t a v { s.me.latches with lm := some v }

/-- A result of a C port: the latch of the C port that the operation issued on, and S[a], receive v (R192). -/
def ResultC (s t : State) (a : Fin 32) (v : Word) : Prop :=
  WritesS s t a v (if s.iss.cPort = 0 then { s.me.latches with lc0 := some v } else { s.me.latches with lc1 := some v })

/-- A predicate result: LS receives 1 or 0, and P[p] does unless NW = 1; P0 discards a write (R199, R211). -/
def ResultP (s t : State) (p : Fin 8) (b nw : Bool) : Prop :=
  OnlyMe s t ∧ t.me = { s.me with live := { s.me.live with p := t.me.live.p }
                                  latches := { s.me.latches with ls := some (if b then 1 else 0) } }
    ∧ ∀ q : Fin 8, t.me.live.rdP q = if q = p ∧ p ≠ 0 ∧ nw = false then b else s.me.live.rdP q

/-- The trap entry of R342 at the operation in issue, and nothing of the operation itself. -/
def Traps (i : Instr) (s : State) (r : TrapRec) : Prop :=
  exec i s = .next (s.takeTrap s.iss.task r s.iss.slot s.iss.half s.iss.pc)

/-! ### Classes 0x0 and 0x1 -/

/-- The two-source instructions of R210 with their results. -/
def twoSource (o : SrOp) : List (Instr × (Word → Word → Word)) :=
  [(.add o, fun a b => BitVec.ofNat 64 (a.toNat + b.toNat)), (.sub o, fun a b => BitVec.ofInt 64 (a.toNat - b.toNat)),
   (.mul o, fun a b => BitVec.ofNat 64 (a.toNat * b.toNat)),
   (.mulhI o, fun a b => BitVec.ofInt 64 (a.toInt * b.toInt / 2 ^ 64)), (.mulhN o, fun a b => BitVec.ofNat 64 (a.toNat * b.toNat / 2 ^ 64)),
   (.and o, fun a b => a &&& b), (.or o, fun a b => a ||| b), (.xor o, fun a b => a ^^^ b), (.andn o, fun a b => a &&& ~~~b),
   (.shl o, fun a b => BitVec.ofNat 64 (a.toNat * 2 ^ (b.toNat % 64))), (.shr o, fun a b => BitVec.ofNat 64 (a.toNat / 2 ^ (b.toNat % 64))),
   (.sra o, fun a b => BitVec.ofInt 64 (a.toInt / 2 ^ (b.toNat % 64))),
   (.minI o, fun a b => BitVec.ofInt 64 (min a.toInt b.toInt)), (.maxI o, fun a b => BitVec.ofInt 64 (max a.toInt b.toInt)),
   (.minN o, fun a b => BitVec.ofNat 64 (min a.toNat b.toNat)), (.maxN o, fun a b => BitVec.ofNat 64 (max a.toNat b.toNat))]

/-- The guarded instructions of class 0x0 with a destination in S: two sources. -/
def guarded2 (o : SrOp) (k : Fin 8) (e : SSrc) : List Instr :=
  [.add o, .sub o, .mul o, .mulhI o, .mulhN o, .and o, .or o, .xor o, .andn o, .shl o, .shr o, .sra o, .minI o, .maxI o, .minN o,
   .maxN o, .sel o k, .bfx o, .bfi o e, .divI o, .divN o, .remI o, .remN o]

/-- The guarded instructions of class 0x0 with one source. -/
def guarded1 (o : SrOne) : List Instr := [.clz o, .ctz o, .popc o, .mov o]

/-- The outcome of the eight conditions of R211. -/
def condOf (c : SCond) (a b : Word) : Bool :=
  match c with
  | .eq => decide (a = b)
  | .ne => decide (a ≠ b)
  | .ltI => decide (a.toInt < b.toInt)
  | .geI => decide (b.toInt ≤ a.toInt)
  | .ltN => decide (a.toNat < b.toNat)
  | .geN => decide (b.toNat ≤ a.toNat)
  | .tst => decide (a &&& b ≠ 0)
  | .ntst => decide (a &&& b = 0)

/-- Quotient and remainder of R214, the operands read as the form says. -/
def quotRem (signed : Bool) (a b : Word) : Int × Int :=
  let x : Int := if signed then a.toInt else a.toNat
  let y : Int := if signed then b.toInt else b.toNat
  if y = 0 then (if signed then -1 else 2 ^ 64 - 1, x)
  else if signed = true ∧ x = -2 ^ 63 ∧ y = -1 then (-2 ^ 63, 0)
  else (x.tdiv y, x - x.tdiv y * y)

/-- The divides with their results modulo 2^64. -/
def divides (o : SrOp) : List (Instr × Bool × (Word → Word → Int)) :=
  [(.divI o, true, fun a b => (quotRem true a b).1), (.divN o, false, fun a b => (quotRem false a b).1),
   (.remI o, true, fun a b => (quotRem true a b).2), (.remN o, false, fun a b => (quotRem false a b).2)]

/-- Clocks that a division takes (R214): 4 + half the significant bits of the quotient, rounded up; 4 by zero. -/
def divClocks (signed : Bool) (a b : Word) : Nat :=
  let q := (quotRem signed a b).1.natAbs
  if b = 0 ∨ q = 0 then 4 else 4 + (Nat.log2 q + 2) / 2

/-- The class-0x1 instructions with IMM18 and one register source (R216). -/
def immediate (o : SiOp) : List (Instr × (Word → Word)) :=
  [(.addi o, fun a => a + o.imm.signExtend 64), (.andi o, fun a => a &&& o.imm.signExtend 64),
   (.ori o, fun a => a ||| o.imm.signExtend 64), (.xori o, fun a => a ^^^ o.imm.signExtend 64),
   (.movhi o, fun a => BitVec.ofNat 64 (a.toNat * 2 ^ 18 + o.imm.toNat))]

/-- The class-0x1 instructions with IMM18[5:0] (R216). -/
def immediate6 (d : Fin 32) (a : SSrc) (n : Fin 64) : List (Instr × (Word → Word)) :=
  [(.shli d a n, fun x => BitVec.ofNat 64 (x.toNat * 2 ^ n.val)), (.shri d a n, fun x => BitVec.ofNat 64 (x.toNat / 2 ^ n.val)),
   (.srai d a n, fun x => BitVec.ofInt 64 (x.toInt / 2 ^ n.val)),
   (.vaddr d a n, fun x => BitVec.ofNat 64 (n.val * 2 ^ 51 + x.toNat % 2 ^ 51))]

end Sys2Proof.Stated

open Sys2Proof Sys2Proof.Machine Sys2Proof.Stated

/-! ### Scalar instructions -/

/-- R210: the result of each two-source instruction of class 0x0, and its frame. -/
def Sys2Proof.Stated.TwoSourceResults : Prop :=
  ∀ (s : State) (o : SrOp) (a b : Word), s.srcS o.a = .ok a → s.srcS o.b = .ok b → s.guardOn o.g = true →
    ∀ x ∈ twoSource o, ∃ t, exec x.1 s = .next t ∧ ResultS s t o.d (x.2 a b) o.nw

/-- R210: mov and the counting instructions, whose results are said by what they count. -/
def Sys2Proof.Stated.OneSourceResults : Prop :=
  ∀ (s : State) (o : SrOne) (a : Word), s.srcS o.a = .ok a → s.guardOn o.g = true →
    (∃ t, exec (.mov o) s = .next t ∧ ResultS s t o.d a o.nw)
    ∧ (∃ t v, exec (.clz o) s = .next t ∧ ResultS s t o.d v o.nw ∧ v.toNat ≤ 64
        ∧ (∀ i, 64 - v.toNat ≤ i → a.getLsbD i = false) ∧ (v.toNat < 64 → a.getLsbD (63 - v.toNat) = true))
    ∧ (∃ t v, exec (.ctz o) s = .next t ∧ ResultS s t o.d v o.nw ∧ v.toNat ≤ 64
        ∧ (∀ i, i < v.toNat → a.getLsbD i = false) ∧ (v.toNat < 64 → a.getLsbD v.toNat = true))
    ∧ (∃ t v, exec (.popc o) s = .next t ∧ ResultS s t o.d v o.nw
        ∧ v.toNat = ((List.range 64).filter fun i => a.getLsbD i).length)

/-- R211: cmp, and cmpi with its sign-extended immediate (R216). -/
def Sys2Proof.Stated.CompareResults : Prop :=
  ∀ (s : State) (c : SCond) (p : Fin 8) (a b : SSrc) (x y : Word) (nw : Bool) (g : Fin 8) (k : BitVec 18),
    s.srcS a = .ok x → s.srcS b = .ok y →
    (s.guardOn g = true → ∃ t, exec (.cmp c p a b nw g) s = .next t ∧ ResultP s t p (condOf c x y) nw)
    ∧ ∃ t, exec (.cmpi c p a k) s = .next t ∧ ResultP s t p (condOf c x (k.signExtend 64)) false

/-- R212: sel writes a to D when predicate Pk is 1 and b when it is 0; E[2:0] is the number of the predicate, P0 without a lend, which is true, so that sel writes
a; a word with E[5:3] or a bit above set is no instruction, which the decoder turns into ILLEGAL_INSTRUCTION. -/
def Obligations.SelectResult : Prop :=
  (∀ (s : State) (o : SrOp) (k : Fin 8) (a b : Word), s.srcS o.a = .ok a → s.srcS o.b = .ok b → s.guardOn o.g = true →
    ∃ t, exec (.sel o k) s = .next t ∧ ResultS s t o.d (if s.regP k then a else b) o.nw)
  ∧ (∀ s : State, s.regP 0 = true)
  ∧ (∀ (o : SrOp) (k : Fin 8), decodeWord (encode (.sel o 0)).1 k.val = .ok (.sel o k))
  ∧ (∀ (o : SrOp) (e : Nat), 8 ≤ e → e < 256 → ∃ r, decodeWord (encode (.sel o 0)).1 e = .error r)
  ∧ ∀ (rows : Bool) (cwt : SMap Nat) (sl : Slot) (r : Reject), sl.instr = .error r →
      ∃ x, checkIllegal rows (expandSlot cwt sl) = some x ∧ x.record.code = 0x01

/-- R213, bit by bit: LO is c[5:0], the effective length the lesser of c[12:6] and 64 − LO, and c[13] selects sign extension. -/
def Sys2Proof.Stated.BitfieldResults : Prop :=
  ∀ (s : State) (o : SrOp) (e : SSrc) (a b c : Word), s.srcS o.a = .ok a → s.srcS o.b = .ok b → s.srcS e = .ok c → s.guardOn o.g = true →
    (∃ t v, exec (.bfx o) s = .next t ∧ ResultS s t o.d v o.nw ∧
      ∀ i, i < 64 → v.getLsbD i =
        let lo := b.toNat % 64
        let l := min (b.toNat / 64 % 128) (64 - lo)
        if i < l then a.getLsbD (lo + i) else (b.getLsbD 13 && decide (1 ≤ l) && a.getLsbD (lo + l - 1)))
    ∧ ∃ t v, exec (.bfi o e) s = .next t ∧ ResultS s t o.d v o.nw ∧
      ∀ i, i < 64 → v.getLsbD i =
        let lo := c.toNat % 64
        let l := min (c.toNat / 64 % 128) (64 - lo)
        if lo ≤ i ∧ i < lo + l then a.getLsbD (i - lo) else b.getLsbD i

/-- R214: quotients and remainders at every operand, division by zero and −2^63 ÷ −1 among them, and the divider's clocks; a divide
that finds the divider busy waits and does nothing else. -/
def Obligations.DivideResults : Prop :=
  ∀ (s : State) (o : SrOp) (a b : Word), s.srcS o.a = .ok a → s.srcS o.b = .ok b → s.guardOn o.g = true →
    ∀ x ∈ divides o,
      (s.myCore.divider.task = none → ∃ t, exec x.1 s = .next t ∧
        ResultS (s.modMyCore fun y => { y with divider := { task := some s.iss.task, doneAt := s.clock + divClocks x.2.1 a b } }) t
          o.d (BitVec.ofInt 64 (x.2.2 a b)) o.nw)
      ∧ (s.myCore.divider.task ≠ none → exec x.1 s = .next (s.stall (.stall .divider)))

/-- R195, R215: with a false guard no instruction of class 0x0 does anything. -/
def Sys2Proof.Stated.GuardOff : Prop :=
  ∀ (s : State) (o : SrOp) (q : SrOne) (k : Fin 8) (e : SSrc) (c : SCond) (p : Fin 8) (a b : Word) (z : Word),
    s.srcS o.a = .ok a → s.srcS o.b = .ok b → s.srcS e = .ok z → s.srcS q.a = .ok a →
    s.guardOn o.g = false → s.guardOn q.g = false →
    (∀ i ∈ guarded2 o k e, exec i s = .next s) ∧ (∀ i ∈ guarded1 q, exec i s = .next s)
      ∧ exec (.cmp c p o.a o.b o.nw o.g) s = .next s

/-- An operand names a scalar latch that is lost; n is its specifier (R179, R193). -/
def Sys2Proof.Stated.LatchLost (s : State) (a : SSrc) (n : Nat) : Prop :=
  (a = .ls ∧ s.iss.snapL.ls = none ∧ n = 32) ∨ (a = .lm ∧ s.iss.snapL.lm = none ∧ n = 35)
    ∨ (a = .lc0 ∧ s.iss.snapL.lc0 = none ∧ n = 36) ∨ (a = .lc1 ∧ s.iss.snapL.lc1 = none ∧ n = 37)

/-- R193, R195: an instruction of class 0x0 or 0x1, a compare or a transfer, whose operand A, B or E names a lost latch, LS, LM, LC0 or LC1,
raises STALE_LATCH with the specifier in INFO, whatever the guard or the condition. -/
def Sys2Proof.Stated.LostLatchTraps : Prop :=
  ∀ (s : State) (o : SrOp) (q : SrOne) (u : SiOp) (k : Fin 8) (e : SSrc) (c : SCond) (p : Fin 8) (x : Word) (d : Fin 32) (m : Fin 64)
    (j : BitVec 18) (w : BitVec 24) (n : Nat),
    let r : TrapRec := { code := 0x03, info := n }
    (LatchLost s o.a n → s.srcS e = .ok x → (∀ i ∈ guarded2 o k e, Traps i s r) ∧ Traps (.cmp c p o.a o.b o.nw o.g) s r)
    ∧ (LatchLost s o.b n → s.srcS o.a = .ok x → s.srcS e = .ok x → (∀ i ∈ guarded2 o k e, Traps i s r) ∧ Traps (.cmp c p o.a o.b o.nw o.g) s r)
    ∧ (LatchLost s e n → Traps (.bfi o e) s r)
    ∧ (LatchLost s q.a n → ∀ i ∈ guarded1 q, Traps i s r)
    ∧ (LatchLost s u.a n → (∀ i ∈ immediate u, Traps i.1 s r) ∧ Traps (.cmpi c p u.a j) s r ∧ (∀ i ∈ immediate6 d u.a m, Traps i.1 s r)
        ∧ ∀ i ∈ ([.brz u.a w, .brnz u.a w, .ret u.a, .jmpr u.a w] : List Instr), Traps i s r)

/-- R216, R217: the results of the instructions of class 0x1 that take an immediate, and their frames. -/
def Sys2Proof.Stated.ImmediateResults : Prop :=
  ∀ (s : State) (o : SiOp) (d : Fin 32) (a : SSrc) (n : Fin 64) (x y : Word) (k : BitVec 18), s.srcS o.a = .ok x → s.srcS a = .ok y →
    (∀ i ∈ immediate o, ∃ t, exec i.1 s = .next t ∧ ResultS s t o.d (i.2 x) false)
    ∧ (∀ i ∈ immediate6 d a n, ∃ t, exec i.1 s = .next t ∧ ResultS s t d (i.2 y) false)
    ∧ ∃ t, exec (.movi d k) s = .next t ∧ ResultS s t d (k.signExtend 64) false

namespace Sys2Proof.Stated

open Sys2Proof Sys2Proof.Machine

/-! ### Class 0x2 -/

/-- L + 16 × d modulo 2^64 (R218). -/
def displaced (s : State) (d : BitVec 24) : Nat := (((s.iss.pc : Int) + 16 * d.toInt) % 2 ^ 64).toNat

/-- The transfers that keep the levels of R224 only, each with the condition under which it is taken and its target; x is the value of its
register operand (R218). -/
def transfers (s : State) (a : SSrc) (p : Fin 8) (n : Bool) (d : BitVec 24) (x : Word) : List (Instr × Bool × Nat) :=
  [(.br d, true, displaced s d), (.brc p n d, s.regP p != n, displaced s d), (.brz a d, decide (x = 0), displaced s d),
   (.brnz a d, decide (x ≠ 0), displaced s d), (.ret a, true, x.toNat),
   (.jmpr a d, true, (((x.toNat : Int) + 16 * d.toInt) % 2 ^ 64).toNat)]

/-- The levels kept by a taken transfer: the longest run of outermost levels whose ranges all hold the target (R224). -/
def KeptLevels (target : Nat) (before after : List LoopRec) : Prop :=
  ∃ k, after = before.drop k ∧ (∀ l ∈ after, l.body ≤ target ∧ target ≤ l.last)
    ∧ ∀ j < k, ∃ l ∈ before.drop j, ¬ (l.body ≤ target ∧ target ≤ l.last)

/-- Fetch goes on at a target with the levels of the loop engine as given; l holds the latches, and S registers other than those that
the clause about them names are unchanged. -/
def Jumps (s t : State) (target : Nat) (levels : List LoopRec) (l : Latches) : Prop :=
  OnlyMeIss s t ∧ t.iss = { s.iss with taken := true }
    ∧ t.me = { s.me with live := { s.me.live with pc := target, loops := levels, s := t.me.live.s }, latches := l }

/-- The stage predicates that SetStages writes for a level (R222). -/
def StagesSet (lv : LoopRec) (before after : Regs) : Prop :=
  ∀ q : Fin 8, after.rdP q = if 2 ≤ lv.stages ∧ 4 ≤ q.val ∧ q.val < 4 + lv.stages
    then decide (q.val - 4 ≤ lv.j ∧ lv.j < lv.n + (q.val - 4)) else before.rdP q

end Sys2Proof.Stated

/-! ### Control flow -/

/-- R218, R224: a taken transfer to an aligned address of the code image moves the pc there and discards the levels that do not hold it. -/
def Sys2Proof.Stated.TransfersTaken : Prop :=
  ∀ (s : State) (a : SSrc) (p : Fin 8) (n : Bool) (d : BitVec 24) (x : Word), s.srcS a = .ok x →
    ∀ i ∈ transfers s a p n d x, i.2.1 = true → i.2.2 % 16 = 0 → i.2.2 < s.myLaunch.codeLen →
      ∃ t levels, exec i.1 s = .next t ∧ KeptLevels i.2.2 s.me.live.loops levels
        ∧ Jumps s t i.2.2 levels s.me.latches ∧ t.me.live.s = s.me.live.s

/-- R218: a transfer that is not taken has no effect, and nop has none. -/
def Sys2Proof.Stated.TransfersNotTaken : Prop :=
  ∀ (s : State) (a : SSrc) (p : Fin 8) (n : Bool) (d : BitVec 24) (x : Word), s.srcS a = .ok x →
    (∀ i ∈ transfers s a p n d x, i.2.1 = false → exec i.1 s = .next s) ∧ exec .nop s = .next s

/-- R219: a taken transfer to an unaligned address raises MISALIGNED, and one outside the code image SEGMENT_VIOLATION. -/
def Sys2Proof.Stated.TransfersTrap : Prop :=
  ∀ (s : State) (a : SSrc) (p : Fin 8) (n : Bool) (d : BitVec 24) (x : Word) (l : Fin 32), s.srcS a = .ok x →
    ∀ i ∈ transfers s a p n d x ++ [(.call l d, true, displaced s d)], i.2.1 = true →
      (i.2.2 % 16 ≠ 0 → Traps i.1 s { code := 0x08, addr := i.2.2 })
      ∧ (i.2.2 % 16 = 0 → s.myLaunch.codeLen ≤ i.2.2 → Traps i.1 s { code := 0x07, addr := i.2.2 })

/-- R218, R224: call writes the link register and LS with L + 16, moves the pc, and keeps every level. -/
def Sys2Proof.Stated.CallLinks : Prop :=
  ∀ (s : State) (l : Fin 32) (d : BitVec 24), displaced s d % 16 = 0 → displaced s d < s.myLaunch.codeLen →
    ∃ t, exec (.call l d) s = .next t
      ∧ Jumps s t (displaced s d) s.me.live.loops { s.me.latches with ls := some (BitVec.ofNat 64 (s.iss.pc + 16)) }
      ∧ ∀ r : Fin 32, t.me.live.rdS r = if r = l ∧ l ≠ 0 then BitVec.ofNat 64 (s.iss.pc + 16) else s.me.live.rdS r

/-- R221 to R223: a loop of non-zero trip count pushes its record, writes its stage predicates and fetches its body; one of trip count
0, or lbreak on a level without stages, goes on past the body, where an enclosing level that ends there takes its boundary; lbreak in a staged level lets its
drain run; lbreak on a false predicate does nothing. -/
def Sys2Proof.Stated.LoopEngine : Prop :=
  ∀ (s : State) (a : SSrc) (pre : Bool) (stages : Fin 8) (len : Fin 4096) (x : Word) (p : Fin 8) (lv : LoopRec) (ls : List LoopRec),
    s.srcS a = .ok x → stages.val ≤ 4 → s.me.live.loops.length < 4 →
    (∀ e ∈ s.me.live.loops.find? (fun e => decide (e.body ≤ s.iss.pc) && decide (s.iss.pc ≤ e.last)), s.iss.pc + 16 * len.val ≤ e.last) →
    (∀ e ∈ s.me.live.loops, e.stages < 2 ∨ stages.val < 2) →
    (x ≠ 0 →
      let new : LoopRec := { body := s.iss.pc + 16, last := s.iss.pc + 16 * len.val, t := x.toNat, n := x.toNat, j := 0, stages := stages.val, sEff := max stages.val 1, pre := pre, left := 0 }
      ∃ t, exec (.loop a pre stages len) s = .next t ∧ OnlyMeIss s t ∧ t.iss = { s.iss with taken := true }
        ∧ t.me = { s.me with live := { s.me.live with pc := s.iss.pc + 16, loops := new :: s.me.live.loops, p := t.me.live.p } }
        ∧ StagesSet new s.me.live t.me.live)
    ∧ (x = 0 → (∀ e ∈ s.me.live.loops, e.last ≠ s.iss.pc + 16 * len.val) →
        ∃ t, exec (.loop a pre stages len) s = .next t ∧ Jumps s t (s.iss.pc + 16 * len.val + 16) s.me.live.loops s.me.latches
          ∧ t.me.live.s = s.me.live.s)
    ∧ (x = 0 → (∃ e ∈ s.me.live.loops.head?, e.last = s.iss.pc + 16 * len.val) → exec (.loop a pre stages len) s
        = .next (State.boundary { s.modLive (fun r => { r with pc := s.iss.pc + 16 * len.val + 16 }) with iss := { s.iss with taken := true } } 4))
    ∧ (s.me.live.loops = lv :: ls →
        (s.regP p = false → exec (.lbreak p) s = .next s)
        ∧ (s.regP p = true → lv.sEff = 1 → (∀ e ∈ ls, e.last ≠ lv.last) →
            ∃ t, exec (.lbreak p) s = .next t ∧ Jumps s t (lv.last + 16) ls s.me.latches ∧ t.me.live.s = s.me.live.s)
        ∧ (s.regP p = true → lv.sEff = 1 → (∃ e ∈ ls.head?, e.last = lv.last) → exec (.lbreak p) s
            = .next (State.boundary { s.modLive (fun r => { r with loops := ls, pc := lv.last + 16 }) with iss := { s.iss with taken := true } } 4))
        ∧ (s.regP p = true → lv.sEff ≠ 1 → exec (.lbreak p) s
            = .next (s.modLive fun r => { r with loops := { lv with n := min lv.n (lv.j + 1), left := 0 } :: ls })))

/-- R225, R223: lbreak with no active level, and a fifth level, raise ILLEGAL_INSTRUCTION with the word in INFO. -/
def Sys2Proof.Stated.LoopTraps : Prop :=
  ∀ (s : State) (a : SSrc) (pre : Bool) (stages : Fin 8) (len : Fin 4096) (x : Word) (p : Fin 8), s.srcS a = .ok x →
    (s.me.live.loops = [] → Traps (.lbreak p) s { code := 0x01, info := s.iss.word })
    ∧ (4 ≤ s.me.live.loops.length → Traps (.loop a pre stages len) s { code := 0x01, info := s.iss.word })

/-- R222, Boundary for a level without an enclosing one that ends with it and with no pre-emption: the next pass with its stage
predicates, or the level popped and fetch past the body. -/
def Sys2Proof.Stated.IterationBoundary : Prop :=
  ∀ (s : State) (lv : LoopRec) (ls : List LoopRec) (n : Nat), s.me.live.loops = lv :: ls → lv.pre = false → lv.left = 0 →
    (lv.j + 1 < lv.n + lv.sEff - 1 → lv.stages ≤ 4 →
      let next : LoopRec := { lv with j := lv.j + 1 }
      OnlyMe s (s.boundary (n + 1))
        ∧ (s.boundary (n + 1)).me
          = { s.me with live := { s.me.live with pc := lv.body, loops := next :: ls, p := (s.boundary (n + 1)).me.live.p } }
        ∧ StagesSet next s.me.live (s.boundary (n + 1)).me.live)
    ∧ (¬ lv.j + 1 < lv.n + lv.sEff - 1 → (∀ e ∈ ls.head?, e.last ≠ lv.last) →
        s.boundary (n + 1) = s.modLive fun r => { r with loops := ls, pc := lv.last + 16 })

/-- R227, R146, R150, R200: the pending child that spawn creates, with its key, place and registers, and the call count that it advances. A child
without a named core goes to the core that stands as many places after its parent's in the launch's list as the call count says, the list taken as a
ring; a parent whose core is not in the list, where balancing moved it, counts as its first, which is a choice of the model (log 74). -/
def Sys2Proof.Stated.SpawnCreates : Prop :=
  ∀ (s : State) (a : Fin 32) (named : Bool) (core : Fin 16) (entry : Fin 256) (e : Entry), a.val ≤ 26 →
    keyDepth s.me.key.toNat ≠ 5 → s.me.live.callCount ≠ 255 → s.myLaunch.entries[entry.val]? = some e →
    (named = true → (s.me.die, core.val) ∈ s.myLaunch.eligible) →
    s.childFits e ((s.regS a).toNat % 2 ^ 24) = true → s.spawnWaiting s.me.die < 4096 →
    let cores := (s.myLaunch.eligOn s.me.die).map (·.2)
    ∃ child : Task, exec (.spawn a named core entry) s
        = .next ((s.modLive fun r => { r with callCount := r.callCount + 1 }).addTask child)
      ∧ child.parent = some s.iss.task ∧ child.status = .pending ∧ child.launch = s.me.launch ∧ child.die = s.me.die
      ∧ child.key = BitVec.ofNat 64 (childKey s.me.key.toNat (s.me.live.callCount + 1)) ∧ child.entry = entry.val
      ∧ child.footIdx = (s.regS a).toNat % 2 ^ 24 ∧ child.ancestry = s.me.ancestry ∧ child.domain = s.me.domain
      ∧ (named = true → child.core = core.val)
      ∧ (named = false → ∀ q, cores[q]? = some s.me.core → s.me.core ∉ cores.take q →
          cores[(q + s.me.live.callCount + 1) % cores.length]? = some child.core)
      ∧ (named = false → s.me.core ∉ cores → cores ≠ [] → cores[(s.me.live.callCount + 1) % cores.length]? = some child.core)
      ∧ child.live.pc = e.code * 16 ∧ child.live.seed = s.myLaunch.seed ∧ child.level = s.myLaunch.level
      ∧ ∀ k : Fin 32, child.live.rdS k = if 1 ≤ k.val ∧ k.val ≤ 6 then s.regS (Fin.ofNat 32 (a.val + k.val - 1)) else 0

/-- R227: where spawn traps, with the call count in INFO for SPAWN_LIMIT, and FOOTPRINT_VIOLATION for a child that does not fit its parent. -/
def Sys2Proof.Stated.SpawnTraps : Prop :=
  ∀ (s : State) (a : Fin 32) (named : Bool) (core : Fin 16) (entry : Fin 256),
    (keyDepth s.me.key.toNat = 5 ∨ s.me.live.callCount = 255 ∨ s.myLaunch.entries[entry.val]? = none →
      Traps (.spawn a named core entry) s { code := 0x1C, info := s.me.live.callCount })
    ∧ ∀ e, keyDepth s.me.key.toNat ≠ 5 → s.me.live.callCount ≠ 255 → s.myLaunch.entries[entry.val]? = some e →
        (named = true ∧ (s.me.die, core.val) ∉ s.myLaunch.eligible →
          Traps (.spawn a named core entry) s { code := 0x1C, info := s.me.live.callCount })
        ∧ (¬ (named = true ∧ (s.me.die, core.val) ∉ s.myLaunch.eligible) → s.childFits e ((s.regS a).toNat % 2 ^ 24) = false →
            Traps (.spawn a named core entry) s { code := 0x09 })

/-- R168: a spawn that needs a place in a full spawn area parks, and creates nothing. -/
def Sys2Proof.Stated.SpawnWaits : Prop :=
  ∀ (s : State) (a : Fin 32) (named : Bool) (core : Fin 16) (entry : Fin 256) (e : Entry), a.val ≤ 26 →
    keyDepth s.me.key.toNat ≠ 5 → s.me.live.callCount ≠ 255 → s.myLaunch.entries[entry.val]? = some e →
    (named = true → (s.me.die, core.val) ∈ s.myLaunch.eligible) →
    s.childFits e ((s.regS a).toNat % 2 ^ 24) = true → 4096 ≤ s.spawnWaiting s.me.die →
    exec (.spawn a named core entry) s = .next (s.noteWait.park s.iss.task .spawnArea)

/-- R228: done, with no matrix job in flight, marks the task to end after its bundle; with a job in flight it waits, and with the trap of a failed job it
takes that trap. The wait is a check of the bundle, which does not see a job that an mgo of the same bundle starts (R176, R338). -/
def Sys2Proof.Stated.DoneEnds : Prop :=
  ∀ s : State,
    (s.me.job.pend = none → s.me.job.state = .done ∨ s.iss.newJob = true →
      exec .done s = .next (s.modMe fun t => { t with ending := some none }))
    ∧ (s.me.job.pend = none → s.me.job.state = .running → s.iss.newJob = false → exec .done s = .next (s.stall (.stall .job)))
    ∧ ∀ r, s.me.job.pend = some r → exec .done s
        = .next ((s.modMe fun t => { t with job := { t.job with pend := none } }).takeTrap s.iss.task r s.iss.slot s.iss.half s.iss.pc)

/-- R228, the steps after the bundle of done, at the core of the one task that ends there: while its job or a command is in flight nothing happens; then its
part of the epoch is closed; and once its stores have been performed too it leaves its crews, settles the claim that it evaluated, and gives its slot back,
with memory as it was. -/
def Sys2Proof.Stated.DoneSteps : Prop :=
  ∀ (s : State) (i d c : Nat) (st : Option (Nat × Bool)),
    (s.tasks.map (·.1)).Pairwise (· < ·) → (i, s.task i) ∈ s.tasks → (s.task i).die = d → (s.task i).core = c → (s.task i).status ≠ .ended →
    (s.task i).opened = none → (s.task i).ending = some st → (∀ j, j ≠ i → (s.task j).ending = none) →
    (∀ j, (s.launch (s.task j).launch).retired = false) →
    ((s.task i).job.state ≠ .done ∨ s.hasCommands i = true → s.finishTasks d c = s)
    ∧ ((s.task i).job.state = .done → s.hasCommands i = false →
        ((∃ x ∈ s.stores, x.task = i) → s.finishTasks d c = s.modTask i fun t => { t with closedTo := max t.closedTo (t.live.ep + 1) })
        ∧ ((∀ x ∈ s.stores, x.task ≠ i) →
            let u := s.finishTasks d c
            u.mem = s.mem ∧ (u.task i).status = .ended ∧ (u.task i).closedTo = max (s.task i).closedTo ((s.task i).live.ep + 1)
              ∧ i ∉ u.residents d c ∧ (u.core d c).issuing ≠ some i
              ∧ (∀ k ∈ (u.launch (s.task i).launch).crews, i ∉ k.members ∧ i ∉ k.joining ∧ i ∉ k.arrived)
              ∧ ((s.task i).evalCell = none → u.tags = s.tags)
              ∧ ∀ cell, (s.task i).evalCell = some cell → (s.claimEntry cell).map ClaimEntry.evaluator = some i → s.tag cell = .working →
                  u.tag cell = .failed))

namespace Sys2Proof.Stated

open Sys2Proof Sys2Proof.Machine

/-! ### Class 0x3 -/

/-- The virtual address of an access at a byte offset from a handle's own (R90). -/
def vaOf (h : Handle) (off : Nat) : Nat := (h.va.toNat + off) % 2 ^ 57

/-- The physical address that a handle gives a byte offset (R90). -/
def paOf (h : Handle) (off : Nat) : Nat := h.pa.toNat + vaOf h off % 2 ^ 51 - h.va.toNat % 2 ^ 51

/-- The access stays in the handle's segment and bounds, and in no carved range (R28, R90). -/
def InBounds (s : State) (h : Handle) (off n : Nat) : Prop :=
  vaOf h off / 2 ^ 51 = h.va.toNat / 2 ^ 51 ∧ h.lo.toNat ≤ vaOf h off % 2 ^ 51 ∧ vaOf h off % 2 ^ 51 + n - 1 ≤ h.last.toNat
    ∧ s.reachesCarve h.span.1 h.span.2 = false

/-- The handle's permissions allow the access (R90). -/
def Permitted (h : Handle) (rd wr : Bool) : Prop := (wr = true → h.write = true) ∧ (rd = true → h.read = true)

/-- The footprint test of R129: loads of claim-enabled segments and handles that are not checked pass; a load may lie in a read or write
range, a store only in a write range. -/
def InFootprint (s : State) (h : Handle) (off n : Nat) (isStore : Bool) : Prop :=
  h.checked = false ∨ (h.claim = true ∧ isStore = false)
    ∨ conforms (vaOf h off) n (s.writeRanges s.iss.task) = true ∨ (isStore = false ∧ conforms (vaOf h off) n (s.readRanges s.iss.task) = true)

/-- Every test of R229 before the claim tag passes. -/
def Passes (s : State) (h : Handle) (off n align : Nat) (isStore : Bool) : Prop :=
  h.valid = true ∧ InBounds s h off n ∧ Permitted h (!isStore) isStore ∧ vaOf h off % 2 ^ 51 % align = 0 ∧ InFootprint s h off n isStore

/-- The byte offset of a class-0x3 access: IMM14 in units of u bytes, plus S[X], modulo 2^64 (R229). -/
def mmOffset (s : State) (x : Fin 8) (imm : BitVec 14) (u : Nat) : Nat :=
  ((imm.toInt * u + (s.regS (x.castLE (by decide))).toNat) % 2 ^ 64).toNat

/-- The copy that serves a lookup of a core (R29, R96, R106, R107): the core's own, unless its carve-out drains, or its die's of a remote line to
which no store of the core is on its way (R136). -/
def copySeen (s : State) (h : Handle) (hint : Hint) (line : Nat) : Option Nat :=
  if h.cache = true ∧ h.claim = false ∧ isHbm line = true ∧ paModule line = s.modId s.iss.die ∧ hint ≠ .bypass then
    match (if s.myCore.drain = none then smFind s.myCore.cache line else none) with
    | some v => some v
    | none => if s.onDie s.iss.die line || s.storeAhead s.iss.die s.iss.core line 64 then none else smFind s.myDie.rdc line
  else none

/-- The line that a lookup of a core finds: a copy, or memory. -/
def lineSeen (s : State) (h : Handle) (hint : Hint) (line : Nat) : Nat := (copySeen s h hint line).getD (memRead s.mem line 64)

/-- The byte that a plain load of the issuing task sees: that of the task's newest withheld store to it, or that of its line (R123). -/
def byteSeen (s : State) (h : Handle) (hint : Hint) (a : Nat) : Nat :=
  match (s.me.withheld.filter fun x => decide (x.pa ≤ a) && decide (a < x.pa + x.len)).getLast? with
  | some x => x.data / 2 ^ (8 * (a - x.pa)) % 256
  | none => lineSeen s h hint (lineOf a) / 2 ^ (8 * (a - lineOf a)) % 256

/-- Nothing holds back a plain load of n bytes: the core, the home and the links let it through and no byte of it that memory gives is poisoned (R104,
R105, R111, R113, R123, R229), or the task's own withheld stores cover it: that such a load does not go to its home, and so meets no poison there, is a reading
of the model (log 40). -/
def LoadReady (s : State) (h : Handle) (hint : Hint) (pa n : Nat) : Prop :=
  covered s.me.withheld pa n = true
    ∨ (s.me.reply = none ∧ s.loadStands s.iss.die s.iss.core pa n hint (h.cache && !h.claim) = false
        ∧ ∀ k < n, copySeen s h hint (lineOf (pa + k)) = none → s.poisoned (pa + k) 1 = false)

/-- Only the core's carve-out cache and its die's remote cache may differ (R29, R106), with the count of the open values drawn. -/
def OnlyCaches (s t : State) : Prop :=
  t = { s with cores := t.cores, dies := t.dies, freeCount := t.freeCount } ∧ (∀ d c, t.core d c = { s.core d c with cache := (t.core d c).cache })
    ∧ (∀ d c, (d ≠ s.iss.die ∨ c ≠ s.iss.core) → d < 8 → c < 16 → s.iss.core < 16 → t.core d c = s.core d c)
    ∧ ∀ d, t.die d = { s.die d with rdc := (t.die d).rdc }

/-- The first k bytes of a window row receive v, and the latches of the task become l: those bytes alone change in memory, the row's contents
and its poison at the last checkpoint are kept for a rollback (R255, R422), and the poison of the units written whole goes. -/
def RowBytesWritten (s t : State) (n k v : Nat) (l : Latches) : Prop :=
  t = { s.setTask s.iss.task t.me with iss := t.iss, mem := t.mem, poison := t.poison, dirty := t.dirty }
    ∧ (∀ a, memByte t.mem a = if s.vaddr n ≤ a ∧ a < s.vaddr n + k then byteAt v (a - s.vaddr n) else memByte s.mem a)
    ∧ (∀ u, u ∈ t.poison ↔ u ∈ s.poison ∧ coversUnit (s.vaddr n) k u = false)
    ∧ t.iss = { s.iss with oldRows := t.iss.oldRows }
    ∧ t.me = { s.me with shadow := t.me.shadow, shadowBad := t.me.shadowBad, withheld := t.me.withheld, latches := l }
    ∧ (∀ x, x ∈ t.me.withheld ↔ x ∈ s.me.withheld ∧ inside x.pa x.len (s.vaddr n) k = false)
    ∧ (∀ u, u ∈ t.me.shadowBad ↔ u ∈ s.me.shadowBad ∨ (smFind s.me.shadow n = none ∧ u ∈ s.poison ∧ overlaps u 64 (s.vaddr n) 256 = true))
    ∧ ∀ m, smFind t.me.shadow m = if m = n ∧ smFind s.me.shadow n = none then some (BitVec.ofNat 2048 (memRead s.mem (s.vaddr n) 256))
        else smFind s.me.shadow m

/-- A window row receives v. -/
def RowWritten (s t : State) (n : Nat) (v : Row) (l : Latches) : Prop := RowBytesWritten s t n 256 v.toNat l

/-- A vector register may be named: the task has rows, the row is no output row of a job in flight, and no store to it is on its way
(R23, R99, R100). -/
def RowFree (s : State) (j : Fin 32) : Prop :=
  s.me.rowCount ≠ 0 ∧ s.me.isOut (s.vrow j) = false ∧ s.rowStalls (s.vrow j) = false

/-- A vector register may be read and written: it may be named, and its row was not poisoned before the bundle (R176, R422). -/
def RowUsable (s : State) (j : Fin 32) : Prop := RowFree s j ∧ s.rowPoison (s.vrow j) = false

/-- The loads and stores of class 0x3: whether it stores, the unit of its offset, its length in bytes, its alignment, and whether its register is V[D]
(R229 to R231). -/
def accessForms (o : MmOp) : List (Instr × Bool × Nat × Nat × Nat × Bool) :=
  let w := 2 ^ o.sz.val
  [(.ld o, false, w, w, w, false), (.st o, true, w, w, w, false), (.ldv o, false, 64, 64 * w, 64, true), (.stv o, true, 64, 64 * w, 64, true)]

/-- The store that a task withholds (R122, R232). -/
def storeOf (s : State) (pa n v : Nat) (hint : Hint) : Store :=
  { pa := pa, len := n, data := v, hint := hint, die := s.iss.die, core := s.iss.core, task := s.iss.task, launch := s.me.launch }

end Sys2Proof.Stated

/-! ### Loads, stores, handles -/

/-- R90: the handle test answers the physical address for a valid handle, within bounds and permitted; outside the bounds HANDLE_BOUNDS, and without permission HANDLE_PERMISSION. -/
def Sys2Proof.Stated.AccessTest : Prop :=
  ∀ (s : State) (h : Handle) (off n reg : Nat) (rd wr : Bool), h.valid = true →
    (InBounds s h off n → Permitted h rd wr → s.accessCheck h off n rd wr reg = .ok (paOf h off))
    ∧ (InBounds s h off n → ¬ Permitted h rd wr →
        s.accessCheck h off n rd wr reg = .error (.trap { code := 0x05, addr := vaOf h off, write := wr }))
    ∧ (¬ InBounds s h off n → s.accessCheck h off n rd wr reg = .error (.trap { code := 0x04, addr := vaOf h off, write := wr }))

/-- R230, R231: ld zero-extends the bytes it sees into S[D] and LS; ldv replaces the low bytes of its row and
keeps the others. A load that the task's own withheld stores cover completes without its home (log 40). -/
def Sys2Proof.Stated.LoadResults : Prop :=
  ∀ (s : State) (o : MmOp), s.memWf = true → (s.regH o.h).claim = false →
    (let w := 2 ^ o.sz.val
     let h := s.regH o.h
     let off := mmOffset s o.x o.imm w
     Passes s h off w w false → LoadReady s h o.hint (paOf h off) w →
      ∃ u t v, exec (.ld o) s = .next t ∧ OnlyCaches s u
        ∧ ResultS u t o.d (BitVec.ofNat 64 v) false ∧ v < 2 ^ (8 * w)
        ∧ ∀ k < w, v / 2 ^ (8 * k) % 256 = byteSeen s h o.hint (paOf h off + k))
    ∧ (let n := 64 * 2 ^ o.sz.val
       let h := s.regH o.h
       let off := mmOffset s o.x o.imm 64
       RowFree s o.d → o.sz ≠ 3 → Passes s h off n 64 false → LoadReady s h o.hint (paOf h off) n →
        ∃ u t v, exec (.ldv o) s = .next t ∧ OnlyCaches s u ∧ v < 2 ^ (8 * n)
          ∧ (∀ k < n, v / 2 ^ (8 * k) % 256 = byteSeen s h o.hint (paOf h off + k))
          ∧ RowBytesWritten u t (s.vrow o.d) n v s.me.latches)

/-- R122, R230, R231: a store through a plain handle joins the task's withheld stores and changes no byte of memory; stv withholds 64-byte
parts. -/
def Sys2Proof.Stated.StoreResults : Prop :=
  ∀ (s : State) (o : MmOp), (s.regH o.h).claim = false →
    (let w := 2 ^ o.sz.val
     let h := s.regH o.h
     let off := mmOffset s o.x o.imm w
     Passes s h off w w true → s.issueStalls (paOf h off) w true = false →
      exec (.st o) s = .next (s.modMe fun t => { t with withheld := t.withheld ++
        [storeOf s (paOf h off) w ((s.regS o.d).toNat % 2 ^ (8 * w)) o.hint] }))
    ∧ (let n := 2 ^ o.sz.val
       let h := s.regH o.h
       let off := mmOffset s o.x o.imm 64
       RowUsable s o.d → o.sz ≠ 3 → Passes s h off (64 * n) 64 true →
        s.issueStalls (paOf h off) (64 * n) true = false →
        let row := (s.rowBefore (s.vrow o.d)).toNat
        let parts := (List.range n).map fun j => storeOf s (paOf h off + 64 * j) 64 (row / 2 ^ (512 * j) % 2 ^ 512) o.hint
        exec (.stv o) s = .next (s.modMe fun t => { t with withheld := t.withheld ++ parts }))

/-- R229, R90: the traps of a load or store, scalar or vector, in the order of the tests: bounds, permission, alignment, footprint, and the poison of a
plain load that goes to its home. -/
def Sys2Proof.Stated.AccessTraps : Prop :=
  ∀ (s : State) (o : MmOp), (s.regH o.h).valid = true →
    let h := s.regH o.h
    ∀ f ∈ accessForms o, (f.2.2.2.2.2 = true → RowFree s o.d) →
      let i := f.1
      let wr := f.2.1
      let off := mmOffset s o.x o.imm f.2.2.1
      let n := f.2.2.2.1
      let al := f.2.2.2.2.1
      (¬ InBounds s h off n → Traps i s { code := 0x04, addr := vaOf h off, write := wr })
      ∧ (InBounds s h off n → ¬ Permitted h (!wr) wr → Traps i s { code := 0x05, addr := vaOf h off, write := wr })
      ∧ (InBounds s h off n → Permitted h (!wr) wr → vaOf h off % 2 ^ 51 % al ≠ 0 →
          Traps i s { code := 0x08, addr := vaOf h off, write := wr })
      ∧ (InBounds s h off n → Permitted h (!wr) wr → vaOf h off % 2 ^ 51 % al = 0 → ¬ InFootprint s h off n wr →
          Traps i s { code := 0x09, addr := vaOf h off, write := wr })
      ∧ (wr = false → h.claim = false → Passes s h off n al false → covered s.me.withheld (paOf h off) n = false → s.me.reply = none →
          s.loadStands s.iss.die s.iss.core (paOf h off) n o.hint h.cache = false →
          (∃ k < n, copySeen s h o.hint (lineOf (paOf h off + k)) = none ∧ s.poisoned (paOf h off + k) 1 = true) →
          Traps i s { code := 0x13, addr := vaOf h off })

/-- R90, R92: a load or store through an empty handle raises HANDLE_BOUNDS, and HANDLE_PERMISSION where one byte at offset 0 is all it reaches; through a
pending or revoked handle it parks the task, with a walk for the page. -/
def Sys2Proof.Stated.HandleUnusable : Prop :=
  ∀ (s : State) (o : MmOp),
    let h := s.regH o.h
    ∀ f ∈ accessForms o, (f.2.2.2.2.2 = true → RowFree s o.d) →
      let i := f.1
      let wr := f.2.1
      let off := mmOffset s o.x o.imm f.2.2.1
      let n := f.2.2.2.1
      (h = {} → Traps i s { code := if vaOf h off = 0 ∧ n = 1 then 0x05 else 0x04, addr := vaOf h off, write := wr })
      ∧ (h.valid = false → h.pending = true ∨ h.revoked = true → ∃ t, exec i s = .next t
          ∧ (t.task s.iss.task).status = .parked
          ∧ (t.task s.iss.task).parkedOn = .handle h.seg.toNat h.va.toNat o.h.val (vaOf h off) wr
          ∧ ∃ x ∈ t.walks, x.die = s.iss.die ∧ x.launch = s.me.launch ∧ x.seg = h.seg.toNat
              ∧ x.off = h.va.toNat % 2 ^ 51 / 65536 * 65536)

/-- R24, R88, R91, R233: xlat fills its handle from the local segment or a pinned segment, and raises SEGMENT_VIOLATION outside. -/
def Sys2Proof.Stated.TranslateHandle : Prop :=
  ∀ (s : State) (ro : Bool) (d : Fin 32) (h : Fin 16) (x : Fin 8) (imm : BitVec 14) (va : Nat),
    va = (((s.regS d).toNat + (s.regS (x.castLE (by decide))).toNat + imm.toInt) % 2 ^ 64).toNat →
    let seg := va / 2 ^ 51
    let off := va % 2 ^ 51
    let g := s.myLaunch.seg seg
    (2 ^ 57 ≤ va ∨ (seg < 63 ∧ (g.valid = false ∨ g.len64k * 65536 ≤ off ∨ (s.die s.me.die).domSize ≤ g.homeMod
        ∨ (g.pinned = true ∧ (s.die s.me.die).domSize ≤ paModule g.base))) → Traps (.xlat ro d h x imm) s { code := 0x07, addr := va })
    ∧ (seg < 63 → g.valid = true → off < g.len64k * 65536 → g.homeMod < (s.die s.me.die).domSize → g.pinned = true →
        paModule g.base < (s.die s.me.die).domSize →
        ∃ hd : Handle, exec (.xlat ro d h x imm) s = .next (s.modLive fun r => r.wrH h hd)
          ∧ hd.valid = true ∧ hd.pending = false ∧ hd.revoked = false ∧ hd.va.toNat = va ∧ hd.seg.toNat = seg ∧ hd.pinned = true
          ∧ hd.pa = BitVec.ofNat 52 (g.base + off) ∧ hd.lo = 0 ∧ hd.last = BitVec.ofNat 51 (g.len64k * 65536 - 1)
          ∧ hd.read = g.read ∧ hd.write = (g.write && !ro) ∧ hd.cache = g.cache ∧ hd.checked = g.checked ∧ hd.claim = g.claim)
    ∧ (seg = 63 → va < 2 ^ 57 → off < s.me.spadSize →
        ∃ hd : Handle, exec (.xlat ro d h x imm) s = .next (s.modLive fun r => r.wrH h hd)
          ∧ hd.valid = true ∧ hd.va.toNat = va ∧ hd.read = true ∧ hd.write = !ro ∧ hd.claim = false ∧ hd.checked = false
          ∧ hd.pa = BitVec.ofNat 52 (winAddr (s.modId s.me.die) s.me.die s.me.core + s.me.spadBase + off)
          ∧ hd.lo = 0 ∧ hd.last = BitVec.ofNat 51 (s.me.spadSize - 1))
    ∧ (seg = 63 → va < 2 ^ 57 → s.me.spadSize ≤ 0xC00000 → s.me.bankCount ≤ 32 →
        let parts := [(0, s.me.spadSize, s.me.spadBase), (0xC00000, s.me.bankCount * 0x20000, 0xC00000 + s.me.bankBase * 0x20000),
          (0x1000000, s.me.rowCount * 256, 0x1000000 + s.me.rowBase * 256)]
        (∀ p ∈ parts, p.1 ≤ off → off < p.1 + p.2.1 →
          ∃ hd : Handle, exec (.xlat ro d h x imm) s = .next (s.modLive fun r => r.wrH h hd)
            ∧ hd.valid = true ∧ hd.va.toNat = va ∧ hd.read = true ∧ hd.write = !ro ∧ hd.claim = false ∧ hd.checked = false
            ∧ hd.pa = BitVec.ofNat 52 (winAddr (s.modId s.me.die) s.me.die s.me.core + p.2.2 + (off - p.1))
            ∧ hd.lo = BitVec.ofNat 51 p.1 ∧ hd.last = BitVec.ofNat 51 (p.1 + p.2.1 - 1))
        ∧ ((∀ p ∈ parts, ¬ (p.1 ≤ off ∧ off < p.1 + p.2.1)) → Traps (.xlat ro d h x imm) s { code := 0x07, addr := va }))

/-- R91, R87, R233, R389, R390: where the translation cache holds the page of a pageable segment, xlat fills its handle from the leaf: the page, or the tile where
one is smaller or bound to the task, whose version it then reaches; a leaf outside the configured domain raises SEGMENT_VIOLATION. -/
def Sys2Proof.Stated.TranslateHit : Prop :=
  ∀ (s : State) (ro : Bool) (d : Fin 32) (h : Fin 16) (x : Fin 8) (imm : BitVec 14) (va : Nat) (big : Bool) (w : Nat),
    va = (((s.regS d).toNat + (s.regS (x.castLE (by decide))).toNat + imm.toInt) % 2 ^ 64).toNat →
    let seg := va / 2 ^ 51
    let off := va % 2 ^ 51
    let g := s.myLaunch.seg seg
    let page := if big then 2 ^ 21 else 2 ^ 16
    let tile := 2 ^ g.tileLog
    let bound := if g.tiled then s.boundTile s.iss.task seg off else none
    let n := if bound.isSome || (g.tiled && decide (tile < page)) then min page tile else page
    let lo := off / n * n
    seg < 63 → g.valid = true → off < g.len64k * 65536 → g.homeMod < (s.die s.me.die).domSize → g.pinned = false →
    s.tlbFind s.me.die s.me.launch seg off = some (big, w) →
    ((s.die s.me.die).domSize ≤ paModule w → Traps (.xlat ro d h x imm) s { code := 0x07, addr := va })
    ∧ (paModule w < (s.die s.me.die).domSize → ∃ hd : Handle, exec (.xlat ro d h x imm) s = .next (s.modLive fun r => r.wrH h hd)
        ∧ hd.valid = true ∧ hd.pending = false ∧ hd.revoked = false ∧ hd.va.toNat = va ∧ hd.seg.toNat = seg ∧ hd.pinned = false
        ∧ hd.pg2m = big ∧ hd.tiled = g.tiled ∧ hd.lo = BitVec.ofNat 51 lo ∧ hd.last = BitVec.ofNat 51 (lo + n - 1)
        ∧ hd.pa = (match bound with
          | some f => BitVec.ofNat 52 (f + off % tile)
          | none => BitVec.ofNat 52 (leafFrame w + off % page))
        ∧ hd.read = g.read ∧ hd.write = (g.write && !ro && !w.testBit 3) ∧ hd.cache = g.cache ∧ hd.checked = g.checked ∧ hd.claim = g.claim)

/-- R91, R387: on a miss of the translation cache xlat leaves a pending handle and starts one walk for its page. -/
def Sys2Proof.Stated.TranslateMiss : Prop :=
  ∀ (s : State) (ro : Bool) (d : Fin 32) (h : Fin 16) (x : Fin 8) (imm : BitVec 14) (va : Nat),
    va = (((s.regS d).toNat + (s.regS (x.castLE (by decide))).toNat + imm.toInt) % 2 ^ 64).toNat →
    let seg := va / 2 ^ 51
    let off := va % 2 ^ 51
    let g := s.myLaunch.seg seg
    seg < 63 → g.valid = true → off < g.len64k * 65536 → g.homeMod < (s.die s.me.die).domSize → g.pinned = false →
    s.tlbFind s.me.die s.me.launch seg off = none →
    (s.walks.any fun w => w.die = s.me.die && w.launch = s.me.launch && w.seg = seg && w.off = off / 65536 * 65536) = false →
    let w : Walk := { die := s.me.die, launch := s.me.launch, seg := seg, off := off / 65536 * 65536 }
    ∃ hd : Handle, exec (.xlat ro d h x imm) s = .next { s.modLive (fun r => r.wrH h hd) with walks := s.walks ++ [w] }
      ∧ hd.valid = false ∧ hd.pending = true ∧ hd.va.toNat = va

/-- R234, R235: hchk reads a field of a handle into S[D] and LS; hdrop nulls a handle and hmov copies one, and nothing else changes. -/
def Sys2Proof.Stated.HandleResults : Prop :=
  ∀ (s : State) (d : Fin 32) (h hd hs : Fin 16),
    (∃ t, exec (.hchk .va d h) s = .next t ∧ ResultS s t d ((s.regH h).va.zeroExtend 64) false)
    ∧ (∃ t, exec (.hchk .lo d h) s = .next t ∧ ResultS s t d ((s.regH h).lo.zeroExtend 64) false)
    ∧ (∃ t, exec (.hchk .last d h) s = .next t ∧ ResultS s t d ((s.regH h).last.zeroExtend 64) false)
    ∧ (∃ t v, exec (.hchk .st d h) s = .next t ∧ ResultS s t d v false ∧ v.getLsbD 0 = (s.regH h).valid
        ∧ v.getLsbD 1 = (s.regH h).pending ∧ v.getLsbD 2 = (s.regH h).revoked ∧ v.getLsbD 3 = (s.regH h).read
        ∧ v.getLsbD 4 = (s.regH h).write ∧ v.getLsbD 5 = (s.regH h).cache ∧ v.getLsbD 6 = (s.regH h).checked ∧ v.getLsbD 7 = (s.regH h).claim
        ∧ v.getLsbD 8 = (s.regH h).tiled ∧ v.getLsbD 9 = (s.regH h).pinned ∧ v.getLsbD 10 = (s.regH h).pg2m
        ∧ v.toNat / 2 ^ 11 = (s.regH h).seg.toNat)
    ∧ (∃ t, exec (.hdrop h) s = .next t ∧ OnlyMe s t ∧ t.me = { s.me with live := { s.me.live with h := t.me.live.h } }
        ∧ ∀ k, t.me.live.rdH k = if k = h then {} else s.me.live.rdH k)
    ∧ ∃ t, exec (.hmov hd hs) s = .next t ∧ OnlyMe s t ∧ t.me = { s.me with live := { s.me.live with h := t.me.live.h } }
        ∧ ∀ k, t.me.live.rdH k = if k = hd then s.regH hs else s.me.live.rdH k

/-- R236, R237: pf changes nothing but caches; phase starts a change of the carve-out size that drains, waits while one drains, and refuses
a size above the launch's. -/
def Sys2Proof.Stated.PrefetchAndPhase : Prop :=
  ∀ (s : State) (sz : Fin 4) (hint : Hint) (h : Fin 16) (x : Fin 8) (imm : BitVec 14) (n : Fin 8),
    (∃ t, exec (.pf sz hint h x imm) s = .next t ∧ OnlyCaches s t)
    ∧ (n.val ≤ 4 → n.val ≤ s.myLaunch.maxCarve → s.myCore.drain = none →
        let busy := s.clock + 64 + 128 * (max s.myCore.carve n.val - min s.myCore.carve n.val)
        ∃ c, exec (.phase n) s = .next (s.modMyCore fun y => { y with drain := some (s.myCore.carve, n.val, busy), cache := c }))
    ∧ (n.val ≤ 4 → n.val ≤ s.myLaunch.maxCarve → s.myCore.drain ≠ none → exec (.phase n) s = .next (s.stall (.stall .drain)))
    ∧ (s.myLaunch.maxCarve < n.val → Traps (.phase n) s { code := 0x01, info := s.iss.word })

namespace Sys2Proof.Stated

open Sys2Proof Sys2Proof.Machine

/-! ### Class 0x4 -/

/-- Every test of an atomic passes (R238): a valid handle that may read and write, alignment, and at its home a VALUE line without poison. -/
def AtomicPasses (s : State) (h : Handle) (off n : Nat) : Prop :=
  h.valid = true ∧ InBounds s h off n ∧ Permitted h true true ∧ vaOf h off % 2 ^ 51 % n = 0 ∧ s.me.reply = none
    ∧ (h.claim = true → s.tag (paOf h off) = .value) ∧ s.poisoned (paOf h off) n = false

/-- Every test of an atomic passes, and nothing holds it back at its home. -/
def AtomicReady (s : State) (h : Handle) (off n : Nat) : Prop :=
  AtomicPasses s h off n ∧ s.atomicWaits s.me.launch s.iss.die s.iss.core (paOf h off) n = false

/-- A claim operation may be performed at its home: the handle may write n bytes there and nothing holds it back (R244 to R247). -/
def ClaimReady (s : State) (h : Handle) (off n : Nat) : Prop :=
  h.valid = true ∧ h.claim = true ∧ InBounds s h off n ∧ Permitted h false true ∧ vaOf h off % 2 ^ 51 % 64 = 0
    ∧ s.atomicWaits s.me.launch s.iss.die s.iss.core (paOf h off) 64 = false

/-- The new value of amo for an old value and the low w bits of the register (R239). -/
def amoNew (op : AmoOp) (w old v : Nat) : Nat :=
  match op with
  | .add => (old + v) % 2 ^ w
  | .and => old &&& v
  | .or => old ||| v
  | .xor => old ^^^ v
  | .minI => if sextNat w v < sextNat w old then v else old
  | .maxI => if sextNat w old < sextNat w v then v else old
  | .minN => if v < old then v else old
  | .maxN => if old < v then v else old
  | .swap => v

/-- n bytes from pa hold v; beside them only poison, caches, the record of the issuing task and other tasks' saved rows may differ. -/
def MemoryWritten (s t : State) (pa n v : Nat) : Prop :=
  (∀ a, memByte t.mem a = if pa ≤ a ∧ a < pa + n then byteAt v (a - pa) else memByte s.mem a)
    ∧ t = { s with tasks := t.tasks, cores := t.cores, dies := t.dies, mem := t.mem, poison := t.poison, dirty := t.dirty }
    ∧ (∀ d c, t.core d c = { s.core d c with cache := (t.core d c).cache }) ∧ (∀ d, t.die d = { s.die d with rdc := (t.die d).rdc })
    ∧ ∀ i, i ≠ s.iss.task → t.task i = { s.task i with shadow := (t.task i).shadow, shadowBad := (t.task i).shadowBad }

/-- The acquire of a scope (R97, R106, R121): nothing at .core, the core's carve-out cache at .die, and the die's remote cache too above. -/
def acquired (s : State) (sc : Scope) : State :=
  match sc with
  | .core => s
  | .die => s.modMyCore fun x => { x with cache := [] }
  | .mod | .dom => (s.modMyCore fun x => { x with cache := [] }).modDie s.iss.die fun x => { x with rdc := [] }

/-- The issuing task may use a count barrier (R110). -/
def MayUse (s : State) (n : Fin 64) : Prop := (s.myCore.cb n.val).owner = none ∨ (s.myCore.cb n.val).owner = some s.me.launch

/-- COUNT after a change by a register value: a value or a sum outside 40 bits sets OVF and leaves COUNT (R109, R249). -/
def countChanged (b : CB) (v : Int) : CB :=
  if -2 ^ 39 ≤ v ∧ v < 2 ^ 39 ∧ -2 ^ 39 ≤ b.count + v ∧ b.count + v < 2 ^ 39 then { b with count := b.count + v } else { b with ovf := true }

end Sys2Proof.Stated

/-! ### Atomics, fences, claims, crews, barriers, epochs -/

/-- R119, R139, R171, R229, R230: a load of a claim cell is an acquire at .dom whatever tag it finds: it reads a VALUE line; a FAILED cell raises CLAIM_FAILED
with the cell's address; a WORKING cell that the task descends from raises CLAIM_SELF; a poisoned VALUE or STAKED line raises MEM_POISON; a load of a STAKED
cell, its first touch, or of any other WORKING cell parks the task, with its request on the way to the home. A store to a VALUE line changes its bytes there;
to another, it raises CLAIM_STATE. -/
def Sys2Proof.Stated.ClaimAccess : Prop :=
  ∀ (s : State) (o : MmOp), (s.regH o.h).claim = true →
    let w := 2 ^ o.sz.val
    let h := s.regH o.h
    let off := mmOffset s o.x o.imm w
    let pa := paOf h off
    (Passes s h off w w false → s.scoreboardHolds s.iss.die s.iss.core pa w false = false →
      s.atomicWaits s.me.launch s.iss.die s.iss.core pa w none false = false →
      (s.tag pa = .value → s.poisoned pa w = false → ∃ t, exec (.ld o) s = .next t
        ∧ ResultS (acquired s .dom) t o.d (BitVec.ofNat 64 (memRead s.mem pa w)) false)
      ∧ (s.tag pa = .failed → exec (.ld o) s = .next ((acquired s .dom).takeTrap s.iss.task
          { code := 0x0B, addr := lineOf (vaOf h off) } s.iss.slot s.iss.half s.iss.pc))
      ∧ (s.tag pa = .working → s.me.ancestry.contains (lineOf pa) = true → exec (.ld o) s = .next ((acquired s .dom).takeTrap s.iss.task
          { code := 0x0A, addr := lineOf (vaOf h off) } s.iss.slot s.iss.half s.iss.pc))
      ∧ (s.tag pa = .value ∨ s.tag pa = .staked → s.poisoned pa w = true → exec (.ld o) s = .next ((acquired s .dom).takeTrap s.iss.task
          { code := 0x13, addr := vaOf h off } s.iss.slot s.iss.half s.iss.pc))
      ∧ ((s.tag pa = .staked ∧ s.poisoned pa w = false) ∨ (s.tag pa = .working ∧ s.me.ancestry.contains (lineOf pa) = false) →
          ∃ t, exec (.ld o) s = .next t ∧ (t.task s.iss.task).status = .parked
            ∧ (t.task s.iss.task).parkedOn = .claimWait (lineOf pa) (lineOf (vaOf h off)) ∧ t.tags = s.tags
            ∧ ((∀ r ∈ s.claimReqs, r.task ≠ s.iss.task) → ∃ r, t.claimReqs = s.claimReqs ++ [r] ∧ r.task = s.iss.task ∧ r.cell = lineOf pa
                ∧ r.level = s.me.level)))
    ∧ (Passes s h off w w true → s.issueStalls pa w true = false → s.sameHomeStore pa = false →
        s.atomicWaits s.me.launch s.iss.die s.iss.core pa w = false →
        (s.tag pa = .value → ∃ t, exec (.st o) s = .next t ∧ MemoryWritten s t pa w ((s.regS o.d).toNat % 2 ^ (8 * w))
            ∧ t.me.live = s.me.live ∧ t.me.latches = s.me.latches)
        ∧ (s.tag pa ≠ .value → Traps (.st o) s { code := 0x0D, addr := vaOf h off, write := true }))

/-- R119, R139, R231: ldv through a claim-enabled handle reads its lines, all VALUE, as an acquire at .dom; stv writes its 64-byte parts where they lie, and
raises CLAIM_STATE with the address of the first part whose line is not VALUE, having written none. -/
def Sys2Proof.Stated.ClaimRowAccess : Prop :=
  ∀ (s : State) (o : MmOp), (s.regH o.h).claim = true → o.sz ≠ 3 →
    let k := 2 ^ o.sz.val
    let h := s.regH o.h
    let off := mmOffset s o.x o.imm 64
    let pa := paOf h off
    (RowFree s o.d → Passes s h off (64 * k) 64 false →
      (∀ j < k, s.scoreboardHolds s.iss.die s.iss.core (pa + 64 * j) 64 false = false
        ∧ s.atomicWaits s.me.launch s.iss.die s.iss.core (pa + 64 * j) 64 none false = false
        ∧ s.tag (pa + 64 * j) = .value ∧ s.poisoned (pa + 64 * j) 64 = false) →
      ∃ t, exec (.ldv o) s = .next t
        ∧ RowBytesWritten (acquired s .dom) t (s.vrow o.d) (64 * k) (memRead s.mem pa (64 * k)) s.me.latches)
    ∧ (RowUsable s o.d → Passes s h off (64 * k) 64 true →
        (∀ j < k, s.issueStalls (pa + 64 * j) 64 true = false ∧ s.sameHomeStore (pa + 64 * j) = false
          ∧ s.atomicWaits s.me.launch s.iss.die s.iss.core (pa + 64 * j) 64 = false) →
        ((∀ j < k, s.tag (pa + 64 * j) = .value) → ∃ t, exec (.stv o) s = .next t
          ∧ MemoryWritten s t pa (64 * k) ((s.rowBefore (s.vrow o.d)).toNat % 2 ^ (512 * k)) ∧ t.me.live = s.me.live ∧ t.me.latches = s.me.latches)
        ∧ ∀ j < k, (∀ m < j, s.tag (pa + 64 * m) = .value) → s.tag (pa + 64 * j) ≠ .value →
            Traps (.stv o) s { code := 0x0D, addr := vaOf h off + 64 * j, write := true })

/-- R239, R240, R137, R138: amo writes its new value to its bytes alone and returns the old one; cas writes only when the old value is S[D]. -/
def Sys2Proof.Stated.AtomicResults : Prop :=
  ∀ (s : State) (op : AmoOp) (w32 : Bool) (ord : Ord) (sc : Scope) (d e : Fin 32) (m : SyAddr),
    s.memWf = true →
    let n := if w32 then 4 else 8
    let h := s.regH m.h
    let off := (s.regS m.a).toNat
    let pa := paOf h off
    let old := memRead s.mem pa n
    AtomicReady s h off n → ((ord = .rel ∨ ord = .ar) → s.releaseWaits s.iss.task = false) →
    (∃ t, exec (.amo op w32 ord sc d m) s = .next t ∧ MemoryWritten s t pa n (amoNew op (8 * n) old ((s.regS d).toNat % 2 ^ (8 * n)))
      ∧ (∀ r : Fin 32, t.me.live.rdS r = if r = d ∧ d ≠ 0 then BitVec.ofNat 64 old else s.me.live.rdS r)
      ∧ t.me.latches = { s.me.latches with ls := some (BitVec.ofNat 64 old) })
    ∧ (old = (s.regS d).toNat % 2 ^ (8 * n) → ∃ t, exec (.cas w32 ord sc d m e) s = .next t
        ∧ MemoryWritten s t pa n ((s.regS e).toNat % 2 ^ (8 * n))
        ∧ (∀ r : Fin 32, t.me.live.rdS r = if r = d ∧ d ≠ 0 then BitVec.ofNat 64 old else s.me.live.rdS r)
        ∧ t.me.latches = { s.me.latches with ls := some (BitVec.ofNat 64 old) })
    ∧ (old ≠ (s.regS d).toNat % 2 ^ (8 * n) → ∃ t, exec (.cas w32 ord sc d m e) s = .next t ∧ t = { s with tasks := t.tasks, cores := t.cores, dies := t.dies }
        ∧ (∀ r : Fin 32, t.me.live.rdS r = if r = d ∧ d ≠ 0 then BitVec.ofNat 64 old else s.me.live.rdS r))

/-- R241, R242: outside deterministic mode famo changes its element at once and returns nothing; in it the update leaves with the task's key,
EP and SEQ, and the bundle that finds it accepted advances SEQ. -/
def Sys2Proof.Stated.FamoResults : Prop :=
  ∀ (s : State) (op : FamoOp) (ty : FamoTy) (sc : Scope) (m : SyAddr) (d : SSrc) (v : Word), s.srcS d = .ok v →
    let n := if ty = .f32 then 4 else 2
    let h := s.regH m.h
    let off := (s.regS m.a).toNat
    let pa := paOf h off
    (isHbm pa = true → s.myLaunch.det = false → AtomicReady s h off n → ∃ t, exec (.famo op ty sc m d) s = .next t
      ∧ MemoryWritten s t pa n (famoApply op ty (memRead s.mem pa n) v.toNat) ∧ t.me.live = s.me.live ∧ t.me.latches = s.me.latches)
    ∧ (isHbm pa = true → s.myLaunch.det = true → AtomicPasses s h off n → s.releaseWaits s.iss.task = false →
        ∃ u : Update, exec (.famo op ty sc m d) s = .next ((s.applySide (.famo u)).stall (.famo s.me.domain s.me.live.ep pa))
          ∧ u.key = s.me.key ∧ u.ep = s.me.live.ep ∧ u.seq = s.me.live.seq ∧ u.pa = pa ∧ u.v = v ∧ u.domain = s.me.domain)
    ∧ (s.myLaunch.det = true → s.me.reply ≠ none → exec (.famo op ty sc m d) s
        = .next (s.modMe fun t => { t with reply := none, live := { t.live with seq := t.live.seq + 1 } }))

/-- R243, R137, R138: a fence with a release part waits for the task's stores; with an acquire part it empties the caches of its scope. -/
def Sys2Proof.Stated.FenceResults : Prop :=
  ∀ (s : State) (sc : Scope),
    exec (.fence .acq sc) s = .next (acquired s sc)
    ∧ (s.releaseWaits s.iss.task = false → exec (.fence .rel sc) s = .next s ∧ exec (.fence .ar sc) s = .next (acquired s sc)
        ∧ exec (.fence .sc sc) s = .next (acquired s sc))
    ∧ (s.releaseWaits s.iss.task = true → ∀ md ∈ [FenceMode.rel, .ar, .sc], exec (.fence md sc) s = .next (s.stall (.stall .release)))

/-- R244, R245: stake writes the staking record to the cell, makes it STAKED and advances SYS.CALLCOUNT. -/
def Sys2Proof.Stated.StakeResult : Prop :=
  ∀ (s : State) (m : SyAddr) (d : Fin 32), d.val ≤ 25 →
    let h := s.regH m.h
    let off := (s.regS m.a).toNat
    let pa := paOf h off
    let ctl := (s.regS (Fin.ofNat 32 (d.val + 6))).toNat
    ClaimReady s h off 1 → pa % 64 = 0 → keyDepth s.me.key.toNat ≠ 5 → s.me.live.callCount ≠ 255 →
    ctl % 256 < s.myLaunch.entries.length → s.tag pa ≠ .staked → s.tag pa ≠ .working → s.claimRoom (paDie pa) = true →
    ∃ t v, exec (.stake m d) s = .next t ∧ t.tag pa = .staked ∧ t.me.live.callCount = s.me.live.callCount + 1
      ∧ (∀ a, memByte t.mem a = if pa ≤ a ∧ a < pa + 64 then byteAt v (a - pa) else memByte s.mem a)
      ∧ v / 2 ^ 448 = s.me.key.toNat ∧ v / 2 ^ 432 % 2 ^ 16 = s.myLaunch.number % 2 ^ 16
      ∧ v / 2 ^ 392 % 256 = (s.me.live.callCount + 1) % 256 ∧ v / 2 ^ 384 % 256 = ctl % 256
      ∧ (∀ k, k < 6 → v / 2 ^ (64 * k) % 2 ^ 64 = (s.regS (Fin.ofNat 32 (d.val + k))).toNat)
      ∧ t.me.live.s = s.me.live.s ∧ t.me.latches = s.me.latches ∧ ∀ l, lineOf l ≠ pa → t.tag l = s.tag l

/-- R246, R247, R119: settle writes a value to a WORKING cell of its own evaluation and frees its entry; unstake returns a staker's STAKED or
FAILED cell to a VALUE of zeros. -/
def Sys2Proof.Stated.SettleAndUnstake : Prop :=
  ∀ (s : State) (m : SyAddr) (d : Fin 32), d.val ≤ 24 →
    let h := s.regH m.h
    let off := (s.regS m.a).toNat
    let pa := paOf h off
    ClaimReady s h off 64 → pa % 64 = 0 →
    (s.tag pa = .working → (s.claimEntry pa).map (fun e => (s.task e.evaluator).key) = some s.me.key →
      s.releaseWaits s.iss.task = false → s.poisoned pa 64 = false →
      ∃ t, exec (.settle m d) s = .next t ∧ t.tag pa = .value ∧ t.claimEntry pa = none
        ∧ (∀ k, k < 8 → memRead t.mem (pa + 8 * k) 8 = (s.regS (Fin.ofNat 32 (d.val + k))).toNat)
        ∧ (∀ a, (a < pa ∨ pa + 64 ≤ a) → memByte t.mem a = memByte s.mem a)
        ∧ t.me.live = s.me.live ∧ t.me.latches = s.me.latches)
    ∧ ((s.tag pa = .staked ∨ s.tag pa = .failed) → memRead s.mem (pa + 56) 8 = s.me.key.toNat →
        ∃ t, exec (.unstake m) s = .next t ∧ t.tag pa = .value ∧ memRead t.mem pa 64 = 0
          ∧ (∀ a, (a < pa ∨ pa + 64 ≤ a) → memByte t.mem a = memByte s.mem a)
          ∧ t.me.live = s.me.live ∧ t.me.latches = s.me.latches)
    ∧ ((s.tag pa = .value ∨ s.tag pa = .working) →
        Traps (.unstake m) s { code := 0x0D, addr := vaOf h off, write := true })

/-- R247, R115: ctag reads the tag code of a cell, and 0 through a handle that is not claim-enabled; it neither waits nor starts an evaluation. -/
def Sys2Proof.Stated.CtagResult : Prop :=
  ∀ (s : State) (m : SyAddr) (d : Fin 32),
    let h := s.regH m.h
    let off := (s.regS m.a).toNat
    let pa := paOf h off
    h.valid = true → InBounds s h off 1 → Permitted h true false → s.atomicWaits s.me.launch s.iss.die s.iss.core pa 1 none false = false →
    ∃ t, exec (.ctag d m) s = .next t ∧ ResultS s t d (if h.claim = false then 0 else match s.tag pa with
      | .value => 0 | .staked => 1 | .working => 2 | .failed => 3) false

/-- What a leave of task i makes of a crew (R163): the remaining members, with those who joined during a round that it completes or that has no arrival
left; the round completes when every remaining member has arrived. That the leaver's own arrival goes with it, and that a round without arrivals is open no
longer, is a choice of the model (log 72). -/
def Sys2Proof.Stated.crewLeft (i : Nat) (c : Crew) : Crew :=
  let rest := c.members.filter (· ≠ i)
  let late := c.joining.filter (· ≠ i)
  let here := c.arrived.filter (· ≠ i)
  if here = [] then { c with members := rest ++ late, joining := [], arrived := [] }
  else if ∀ j ∈ rest, j ∈ here then { c with members := rest ++ late, joining := [], arrived := [], rounds := c.rounds + 1 }
  else { c with members := rest, joining := late, arrived := here }

/-- Only crew n of the launch of the issuing task changes, to c. -/
def Sys2Proof.Stated.CrewBecomes (l l' : Launch) (n : Nat) (c : Crew) : Prop :=
  l' = { l with crews := l'.crews } ∧ l'.crews.length = l.crews.length ∧ l'.crew n = c ∧ ∀ k, k ≠ n → l'.crew k = l.crew k

/-- R162, R163, R248: crew.join enters a crew of the task's die, or the round after the open one, and nothing else changes; crew.leave drops the task, may
complete the round, and clears the task's record of an arrival there. Each raises CREW_STATE where the table of R163 says so. A task that only joined an open
round is no member yet, so that its crew.leave and crew.sync raise CREW_STATE: that is a reading of the model (log 54). -/
def Sys2Proof.Stated.CrewMembers : Prop :=
  ∀ (s : State) (n : Fin 256),
    let l := s.myLaunch
    let i := s.iss.task
    let c := l.crew n.val
    (n.val < l.crews.length → c.die = s.iss.die → c.all.contains i = false → l.crewsOf i < 4 → s.groupFits (s.joinGroup i n.val) = true →
      ∃ t, exec (.crewJoin n) s = .next t ∧ t = s.setLaunch s.me.launch t.myLaunch ∧ CrewBecomes l t.myLaunch n.val
        (if c.arrived = [] then { c with members := c.members ++ [i] } else { c with joining := c.joining ++ [i] }))
    ∧ (l.crews.length ≤ n.val ∨ c.die ≠ s.iss.die ∨ c.all.contains i = true ∨ 4 ≤ l.crewsOf i ∨ s.groupFits (s.joinGroup i n.val) = false →
        Traps (.crewJoin n) s { code := 0x15, info := n.val })
    ∧ (n.val < l.crews.length → c.members.contains i = true →
        ∃ t, exec (.crewLeave n) s = .next t ∧ t = (s.setLaunch s.me.launch t.myLaunch).setTask i t.me
          ∧ CrewBecomes l t.myLaunch n.val (crewLeft i c)
          ∧ t.me = { s.me with arrival := if s.me.arrival.map (·.1) = some n.val then none else s.me.arrival })
    ∧ (l.crews.length ≤ n.val ∨ c.members.contains i = false →
        Traps (.crewLeave n) s { code := 0x15, info := n.val } ∧ ∀ close, Traps (.crewSync n close) s { code := 0x15, info := n.val })

/-- R163, R242, R248: crew.sync arrives and waits for the round, or completes it as the last to arrive, and departs with an acquire at .die once it is
complete; its arrival is a release, made once: a replay finds the record. crew.sync.close also closes the task's part of its epoch at the arrival, waits
for the epoch, and opens the next. -/
def Sys2Proof.Stated.CrewResults : Prop :=
  ∀ (s : State) (n : Fin 256) (close : Bool),
    let l := s.myLaunch
    let i := s.iss.task
    let c := l.crew n.val
    let closes := close && l.det
    let u := s.applySide (.arrive n.val closes)
    n.val < l.crews.length → c.members.contains i = true →
    (∀ r, s.me.arrival = some (n.val, r) → c.rounds ≠ r →
      exec (.crewSync n false) s = .next ((acquired s .die).modMe fun t => { t with arrival := none }))
    ∧ (∀ r, s.me.arrival = some (n.val, r) → c.rounds = r → exec (.crewSync n close) s = .next (s.stall (.crew n.val r)))
    ∧ (s.me.arrival.map (·.1) ≠ some n.val → s.releaseWaits i = true → exec (.crewSync n close) s = .next (s.stall (.stall .release)))
    ∧ (s.me.arrival.map (·.1) ≠ some n.val → s.releaseWaits i = false → c.arrived.contains i = false →
        (∃ j ∈ c.members, j ≠ i ∧ c.arrived.contains j = false) →
        exec (.crewSync n close) s = .next (u.stall (.crew n.val c.rounds))
          ∧ u = (s.setLaunch s.me.launch u.myLaunch).setTask i u.me ∧ CrewBecomes l u.myLaunch n.val { c with arrived := c.arrived ++ [i] }
          ∧ u.me = { s.me with arrival := some (n.val, c.rounds)
                               closedTo := if closes then max s.me.closedTo (s.me.live.ep + 1) else s.me.closedTo })
    ∧ (s.me.arrival.map (·.1) ≠ some n.val → s.releaseWaits i = false → (∀ j ∈ c.members, j = i ∨ c.arrived.contains j = true) →
        ∃ l', exec (.crewSync n false) s = .next ((acquired (s.setLaunch s.me.launch l') .die).modMe fun t => { t with arrival := none })
          ∧ CrewBecomes l l' n.val { c with arrived := [], rounds := c.rounds + 1, members := c.members ++ c.joining, joining := [] })
    ∧ ∀ r, s.me.arrival = some (n.val, r) → c.rounds ≠ r →
        (l.det = false → exec (.crewSync n true) s = exec (.crewSync n false) s)
        ∧ (l.det = true → s.epochDone s.me.domain s.me.live.ep = true → exec (.crewSync n true) s = .next ((acquired s .die).modMe fun t =>
            { t with arrival := none, live := { t.live with ep := t.live.ep + 1, seq := 0 } }))
        ∧ (l.det = true → s.epochDone s.me.domain s.me.live.ep = false →
            exec (.crewSync n true) s = .next (s.stall (.epoch s.me.domain s.me.live.ep)))

/-- R108 to R110, R249: cb.arm and cb.add change COUNT, and an arming arms; cb.wait completes on an armed barrier at zero and disarms it, or when the
barrier has met it while it waited (a reading of the model, log 62), traps on one below zero or overflowed, and waits otherwise; cb.read returns the barrier's word; each use takes an
unowned barrier for the task's launch, and another launch's barrier traps. -/
def Sys2Proof.Stated.BarrierResults : Prop :=
  ∀ (s : State) (n : Fin 64) (a : SSrc) (v : Word) (d : Fin 32) (sc : Scope), s.srcS a = .ok v →
    let b := s.myCore.cb n.val
    (MayUse s n →
      exec (.cbArm n a) s = .next (s.cbChange s.iss.die s.iss.core n.val fun x =>
        { countChanged x v.toInt with armed := true, owner := some s.me.launch })
      ∧ (s.releaseWaits s.iss.task = false → exec (.cbAdd n a) s = .next (s.cbChange s.iss.die s.iss.core n.val fun x =>
          { countChanged x v.toInt with owner := some s.me.launch }))
      ∧ (∃ t w, exec (.cbRead d n) s = .next t ∧ ResultS (s.modMyCore fun x => { x with cbs := smPut x.cbs n.val { b with owner := some s.me.launch } }) t d w false
          ∧ (w.toNat % 2 ^ 40 : Int) = b.count % 2 ^ 40 ∧ w.getLsbD 48 = b.armed ∧ w.getLsbD 49 = b.ovf)
      ∧ (b.met = some s.iss.task → exec (.cbWait n sc) s
          = .next (acquired (acquired (s.modMyCore fun x => { x with cbs := smPut x.cbs n.val { b with met := none } }) .die) sc))
      ∧ (b.met ≠ some s.iss.task →
          (b.ovf = false → b.armed = true → b.count = 0 → exec (.cbWait n sc) s
            = .next (acquired (acquired (s.modMyCore fun x => { x with cbs := smPut x.cbs n.val { b with armed := false } }) .die) sc))
          ∧ (b.ovf = false → b.armed = false ∨ 0 < b.count → exec (.cbWait n sc) s = .next (State.stall
              (s.modMyCore fun x => { x with cbs := smPut x.cbs n.val { b with owner := some s.me.launch } }) (.barrier n.val)))
          ∧ (b.ovf = true ∨ (b.armed = true ∧ b.count < 0) → ∃ r : TrapRec, r.code = 0x16 ∧ r.info2 = n.val ∧ Traps (.cbWait n sc) s r)))
    ∧ (¬ MayUse s n → ∃ r : TrapRec, r.code = 0x16 ∧ r.info2 = n.val ∧ Traps (.cbArm n a) s r ∧ Traps (.cbAdd n a) s r ∧ Traps (.cbRead d n) s r
        ∧ Traps (.cbWait n sc) s r)

/-- R109: a change of a barrier with no armed relay entry and no waiting bundle changes that barrier alone. -/
def Sys2Proof.Stated.BarrierChange : Prop :=
  ∀ (s : State) (d c n : Nat) (f : CB → CB), (s.core d c).relays = [] → (s.core d c).issuing = none →
    let t := s.cbChange d c n f
    (t.core d c).cb n = f ((s.core d c).cb n) ∧ (∀ k, k ≠ n → (t.core d c).cb k = (s.core d c).cb k)
      ∧ t = s.setCore d c { s.core d c with cbs := (t.core d c).cbs }

/-- R250, R251, R242: step.commit writes SYS.STEP; atm.close does nothing outside deterministic mode, and in it closes the task's part of
its epoch and opens the next, waiting for the epoch's updates where it says so. -/
def Sys2Proof.Stated.StepAndEpoch : Prop :=
  ∀ (s : State) (a : SSrc) (v : Word) (sc : Scope), s.srcS a = .ok v →
    exec (.stepCommit a) s = .next (s.modLive fun r => { r with step := v })
    ∧ (s.myLaunch.det = false → ∀ w, exec (.atmClose w sc) s = .next s)
    ∧ (s.myLaunch.det = true →
        let closed := s.modMe fun t => { t with closedTo := max t.closedTo (t.live.ep + 1) }
        let next := closed.modLive fun r => { r with ep := r.ep + 1, seq := 0 }
        exec (.atmClose false sc) s = .next next
        ∧ (closed.epochDone s.me.domain s.me.live.ep = true → exec (.atmClose true sc) s = .next (acquired next sc))
        ∧ (closed.epochDone s.me.domain s.me.live.ep = false → exec (.atmClose true sc) s
            = .next (closed.noteWait.park s.iss.task (.epoch s.me.domain s.me.live.ep))))

namespace Sys2Proof.Stated

open Sys2Proof Sys2Proof.Machine

/-! ### Classes 0x5 to 0x7 -/

/-- The latches with that of the V port that the operation issued on replaced (R192). -/
def vLatch (s : State) (v : Row) : Latches :=
  if s.iss.vPort = 0 then { s.me.latches with lv0 := some v } else { s.me.latches with lv1 := some v }

/-- A row result: the latch, and the row that V[d] names unless NW = 1 (R192, R194). -/
def ResultV (s t : State) (d : Fin 32) (v : Row) (nw : Bool) : Prop :=
  (nw = true → OnlyMe s t ∧ t.me = { s.me with latches := vLatch s v })
    ∧ (nw = false → RowWritten s t (s.vrow d) v (vLatch s v))

/-- A mask result: the latch, and M[k] unless NW = 1; M0 discards a write (R189, R252, R259). -/
def ResultMask (s t : State) (k : Fin 8) (v : Mask) (nw : Bool) : Prop :=
  OnlyMe s t ∧ t.me = { s.me with live := { s.me.live with m := t.me.live.m }, latches := vLatch s (v.zeroExtend 2048) }
    ∧ ∀ q : Fin 8, t.me.live.rdM q = if q = k ∧ k ≠ 0 ∧ nw = false then v else s.me.live.rdM q

/-- Each active lane of the result is what f gives; the others keep the row's contents before the bundle (R253). -/
def LaneResult (s t : State) (ty : VTy) (d : Fin 32) (m : Fin 8) (nw : Bool) (f : Nat → Nat) : Prop :=
  ∃ v : Row, ResultV s t d v nw ∧ ∀ i < ty.lanes, laneOf ty.width v.toNat i =
    if (s.regM m).getLsbD i then f i % 2 ^ ty.width else laneOf ty.width (s.rowBefore (s.vrow d)).toNat i

/-- Lane i of a row in a type. -/
def lane (ty : VTy) (x : Row) (i : Nat) : Nat := laneOf ty.width x.toNat i

/-- The value of lane i of a floating row. -/
def flane (ty : VTy) (x : Row) (i : Nat) : FVal := decodeF (vfmt ty) (lane ty x i)

/-- The value of lane i of an integer row, in the type's signedness. -/
def ilane (ty : VTy) (x : Row) (i : Nat) : Int := if vsigned ty then sextNat ty.width (lane ty x i) else lane ty x i

/-- The floating instructions that round once, with the exact value of a lane from those of A, B and D (R257). -/
def floatOps (o : VBinR) : List (Instr × (FVal → FVal → FVal → FVal)) :=
  [(.vadd o, fun a b _ => addF o.md a b), (.vsub o, fun a b _ => addF o.md a (negF b)), (.vmul o, fun a b _ => mulF a b),
   (.vfma o, fun a b d => addF o.md (mulF a b) d), (.vfms o, fun a b d => addF o.md (mulF a b) (negF d)),
   (.vfnma o, fun a b d => addF o.md d (negF (mulF a b)))]

/-- The lane instructions on integers of two sources that wrap (R261), with the exact value. -/
def intOps (o : VBin) : List (Instr × (Int → Int → Int)) :=
  [(.vimul o, fun a b => a * b), (.vimulh o, fun a b => a * b / 2 ^ o.t.width), (.vimin o, fun a b => min a b), (.vimax o, fun a b => max a b)]

/-- The lane instructions on bits of two sources (R261), shifts by the low bits of the second lane. -/
def bitOps (o : VBin) : List (Instr × (Nat → Nat → Nat)) :=
  [(.vand o, fun a b => a &&& b), (.vor o, fun a b => a ||| b), (.vxor o, fun a b => a ^^^ b),
   (.vshl o, fun a b => a * 2 ^ (b % o.t.width)), (.vshr o, fun a b => a / 2 ^ (b % o.t.width)),
   (.vsra o, fun a b => (sextNat o.t.width a / 2 ^ (b % o.t.width) % 2 ^ o.t.width).toNat)]

/-- vmin and vmax of two lanes (R258): a NaN gives the canonical NaN, and −0 lies below +0. -/
def pickOf (g : Fmt) (largest : Bool) (x y : Nat) : Nat :=
  if isNan (decodeF g x) = true ∨ isNan (decodeF g y) = true then g.nanCode
  else if (if largest then ltF true (decodeF g x) (decodeF g y) else ltF true (decodeF g y) (decodeF g x)) then y else x

/-- The conditions of R259 on two floating values. -/
def fcond (c : FCond) (a b : FVal) : Bool :=
  match c with
  | .eq => eqF a b
  | .ne => !eqF a b
  | .lt => ltF false a b
  | .le => ltF false a b || eqF a b
  | .gt => ltF false b a
  | .ge => ltF false b a || eqF a b
  | .uo => isNan a || isNan b
  | .or => !(isNan a || isNan b)

/-- A mask whose active lanes below n hold f and whose other bits are those of the old one (R259). -/
def MaskLanes (m old v : Mask) (n : Nat) (f : Nat → Bool) : Prop :=
  ∀ i < 256, v.getLsbD i = if i < n ∧ m.getLsbD i = true then f i else old.getLsbD i

/-- The lanes of a row that a mask selects, ascending (R271). -/
def selected (ty : VTy) (m : Mask) (x : Row) : List Nat :=
  ((List.range ty.lanes).filter fun i => m.getLsbD i).map (lane ty x)

/-- The low n bytes of a row replaced by v. -/
def lowBytes (r : Row) (n v : Nat) : Row := BitVec.ofNat 2048 (r.toNat / 2 ^ (8 * n) * 2 ^ (8 * n) + v % 2 ^ (8 * n))

end Sys2Proof.Stated

/-! ### Vector instructions -/

/-- R253, R257: the lane results of the floating instructions that round once, and of vscale, with the rounding draw of each lane. -/
def Sys2Proof.Stated.VectorFloatResults : Prop :=
  ∀ (s : State) (o : VBinR) (x y : Row), s.srcV o.a = .ok x → s.srcV o.b = .ok y → RowUsable s o.d →
    (∀ p ∈ floatOps o, ∃ t, exec p.1 s = .next t ∧ LaneResult s t o.t o.d o.m o.nw fun i =>
      roundF o.md (s.laneDraw o.md (s.vrow o.d) i) (vfmt o.t)
        (p.2 (flane o.t x i) (flane o.t y i) (flane o.t (s.rowBefore (s.vrow o.d)) i)))
    ∧ ∃ t, exec (.vscale o) s = .next t ∧ LaneResult s t o.t o.d o.m o.nw fun i =>
        roundF o.md (s.laneDraw o.md (s.vrow o.d) i) (vfmt o.t) (scaleF (flane o.t x i) (sextNat o.t.width (lane o.t y i)))

/-- R253, R261, R258: the lane results of the integer and bit instructions, of vmin and vmax, of the saturating sums, of vsel and of vperm. -/
def Obligations.VectorIntResults : Prop :=
  ∀ (s : State) (o : VBin) (q : VBinS) (x y : Row), s.srcV o.a = .ok x → s.srcV o.b = .ok y → RowUsable s o.d →
    s.srcV q.a = .ok x → s.srcV q.b = .ok y → RowUsable s q.d →
    (∀ p ∈ intOps o, ∃ t, exec p.1 s = .next t ∧ LaneResult s t o.t o.d o.m o.nw fun i =>
      (p.2 (ilane o.t x i) (ilane o.t y i) % 2 ^ o.t.width).toNat)
    ∧ (∀ p ∈ bitOps o, ∃ t, exec p.1 s = .next t ∧ LaneResult s t o.t o.d o.m o.nw fun i => p.2 (lane o.t x i) (lane o.t y i))
    ∧ (∃ t, exec (.vmin o) s = .next t ∧ LaneResult s t o.t o.d o.m o.nw fun i => pickOf (vfmt o.t) false (lane o.t x i) (lane o.t y i))
    ∧ (∃ t, exec (.vmax o) s = .next t ∧ LaneResult s t o.t o.d o.m o.nw fun i => pickOf (vfmt o.t) true (lane o.t x i) (lane o.t y i))
    ∧ (∃ t, exec (.vperm o) s = .next t ∧ LaneResult s t o.t o.d o.m o.nw fun i => lane o.t x (lane o.t y i % o.t.lanes))
    ∧ (∃ t v, exec (.vsel o) s = .next t ∧ ResultV s t o.d v o.nw ∧
        ∀ i < o.t.lanes, lane o.t v i = if (s.regM o.m).getLsbD i then lane o.t x i else lane o.t y i)
    ∧ ∀ p ∈ [(Instr.viadd q, (1 : Int)), (Instr.visub q, -1)], ∃ t, exec p.1 s = .next t ∧ LaneResult s t q.t q.d q.m q.nw fun i =>
        let z := ilane q.t x i + p.2 * ilane q.t y i
        ((if q.sat then clampInt q.t.width (vsigned q.t) z else z) % 2 ^ q.t.width).toNat

/-- R253, R258, R260, R263, R268, R269: the lane results of the instructions with one source; vcvt converts part p of its source lanes. -/
def Sys2Proof.Stated.VectorOneSourceResults : Prop :=
  ∀ (s : State) (o : VUn) (r : VUnR) (x : Row) (ts : VTy) (p : Fin 4), s.srcV o.a = .ok x → RowUsable s o.d → s.srcV r.a = .ok x → RowUsable s r.d →
    (∃ t, exec (.vabs o) s = .next t ∧ LaneResult s t o.t o.d o.m o.nw fun i => fsign (vfmt o.t) false (lane o.t x i))
    ∧ (∃ t, exec (.vneg o) s = .next t ∧ LaneResult s t o.t o.d o.m o.nw fun i => fsign (vfmt o.t) true (lane o.t x i))
    ∧ (∃ t, exec (.vclass o) s = .next t ∧ LaneResult s t o.t o.d o.m o.nw fun i => fclass (vfmt o.t) (lane o.t x i))
    ∧ (∃ t, exec (.vmov o) s = .next t ∧ LaneResult s t o.t o.d o.m o.nw fun i => lane o.t x i)
    ∧ (∃ t, exec (.vround r) s = .next t ∧ LaneResult s t r.t r.d r.m r.nw fun i =>
        roundF .rne 0 (vfmt r.t) (roundInt r.md (s.laneDraw r.md (s.vrow r.d) i) (flane r.t x i)))
    ∧ (∀ f ∈ [(Instr.vrcpA o, rcpA), (.vrsqA o, rsqA), (.vexp2A o, exp2A), (.vlog2A o, log2A)], o.t = .f32 →
        ∃ t, exec f.1 s = .next t ∧ LaneResult s t .f32 o.d o.m o.nw fun i => f.2 (lane .f32 x i))
    ∧ (p.val < cvtParts r.t ts → ∃ t v, exec (.vcvt r ts p) s = .next t ∧ ResultV s t r.d v r.nw ∧
        ∀ j < r.t.lanes, lane r.t v j =
          if (s.regM r.m).getLsbD j ∧ (ts.lanes < r.t.lanes → p.val * ts.lanes ≤ j ∧ j < (p.val + 1) * ts.lanes) then
            convertLane ts r.t r.md (s.laneDraw r.md (s.vrow r.d) j)
              (lane ts x (if ts.lanes < r.t.lanes then j - p.val * ts.lanes else p.val * r.t.lanes + j)) % 2 ^ r.t.width
          else lane r.t (s.rowBefore (s.vrow r.d)) j)

/-- R259, R262, R265: comparisons write the active bits of a mask, and the mask instructions write whole masks or counts. -/
def Sys2Proof.Stated.MaskResults : Prop :=
  ∀ (s : State) (c : FCond) (ic : ICond) (ty : VTy) (k m a b : Fin 8) (va vb : VSrc) (nw : Bool) (x y : Row) (d : Fin 32) (e : SSrc) (n : Word),
    s.srcV va = .ok x → s.srcV vb = .ok y → s.srcS e = .ok n →
    (∃ t v, exec (.vcmp c ty k va vb m nw) s = .next t ∧ ResultMask s t k v nw
      ∧ MaskLanes (s.regM m) (s.regM k) v ty.lanes fun i => fcond c (flane ty x i) (flane ty y i))
    ∧ (∃ t v, exec (.vicmp ic ty k va vb m nw) s = .next t ∧ ResultMask s t k v nw
        ∧ MaskLanes (s.regM m) (s.regM k) v ty.lanes fun i => match ic with
          | .eq => decide (lane ty x i = lane ty y i)
          | .ne => decide (lane ty x i ≠ lane ty y i)
          | .lt => decide (ilane ty x i < ilane ty y i)
          | .ge => decide (ilane ty y i ≤ ilane ty x i)
          | .tst => decide (lane ty x i &&& lane ty y i ≠ 0)
          | .ntst => decide (lane ty x i &&& lane ty y i = 0))
    ∧ (∀ p ∈ [(MaskOp.and a b, s.regM a &&& s.regM b), (.or a b, s.regM a ||| s.regM b), (.xor a b, s.regM a ^^^ s.regM b),
          (.andn a b, s.regM a &&& ~~~ s.regM b), (.not a, ~~~ s.regM a)],
        ∃ t, exec (.vmask p.1 k nw) s = .next t ∧ ResultMask s t k p.2 nw)
    ∧ (∃ t v, exec (.vmask (.first e) k nw) s = .next t ∧ ResultMask s t k v nw ∧ ∀ i < 256, v.getLsbD i = decide (i < n.toNat))
    ∧ ∃ t w, exec (.vmcnt ty d a nw) s = .next t ∧ w.toNat = ((List.range ty.lanes).filter fun i => (s.regM a).getLsbD i).length
        ∧ WritesS s t (if nw then 0 else d) w (vLatch s (w.zeroExtend 2048))

/-- R264, R266, R267, R99: broadcasts, lane rotations, insertions and extractions, and the window base. -/
def Sys2Proof.Stated.VectorMoveResults : Prop :=
  ∀ (s : State) (ty : VTy) (d : Fin 32) (a : VSrc) (b e : SSrc) (m : Fin 8) (nw : Bool) (x : Row) (k v : Word),
    s.srcV a = .ok x → s.srcS b = .ok k → s.srcS e = .ok v →
    (RowUsable s d →
      (∃ t, exec (.vbcast ty d e m nw) s = .next t ∧ LaneResult s t ty d m nw fun _ => v.toNat)
      ∧ (∃ t, exec (.vlrot ty d a b m nw) s = .next t ∧ LaneResult s t ty d m nw fun i => lane ty x ((i + k.toNat) % ty.lanes))
      ∧ (∃ t r, exec (.vins ty d e b nw) s = .next t ∧ ResultV s t d r nw ∧ ∀ i < ty.lanes, lane ty r i =
          if i = k.toNat % ty.lanes then v.toNat % 2 ^ ty.width else lane ty (s.rowBefore (s.vrow d)) i))
    ∧ (∃ t w, exec (.vext ty d a b nw) s = .next t ∧ w.toInt % 2 ^ 64 = ilane ty x (k.toNat % ty.lanes) % 2 ^ 64
        ∧ WritesS s t (if nw then 0 else d) w (vLatch s (w.zeroExtend 2048)))
    ∧ (k.toNat % 32 = 0 → k.toNat + 32 ≤ s.me.rowCount → exec (.vwin b) s = .next (s.modLive fun r => { r with winBase := k.toNat }))
    ∧ (k.toNat % 32 ≠ 0 ∨ s.me.rowCount < k.toNat + 32 → Traps (.vwin b) s { code := 0x04, info := k.toNat })

/-- R256, R269, R270: the quotients, roots and remainders of the lanes, each of which takes the divider of its V port; a busy divider makes the
bundle wait with nothing done. -/
def Sys2Proof.Stated.VectorDivideResults : Prop :=
  ∀ (s : State) (o : VBinR) (q : VUnR) (r : VBin) (x y : Row),
    s.srcV o.a = .ok x → s.srcV o.b = .ok y → RowUsable s o.d → s.srcV q.a = .ok x → RowUsable s q.d →
    s.srcV r.a = .ok x → s.srcV r.b = .ok y → RowUsable s r.d →
    ((smGet {} s.myCore.fdiv s.iss.vPort).task = none →
      (∃ u, exec (.vdiv o) s = .next (u.modMyCore fun c => { c with
            fdiv := smPut c.fdiv s.iss.vPort { task := some s.iss.task, doneAt := s.clock + if o.t = .f32 then 26 else 16 } })
        ∧ LaneResult s u o.t o.d o.m o.nw fun i => roundF o.md (s.laneDraw o.md (s.vrow o.d) i) (vfmt o.t) (divF (flane o.t x i) (flane o.t y i)))
      ∧ ∃ u, exec (.vsqrt q) s = .next (u.modMyCore fun c => { c with
            fdiv := smPut c.fdiv s.iss.vPort { task := some s.iss.task, doneAt := s.clock + if q.t = .f32 then 26 else 16 } })
        ∧ LaneResult s u q.t q.d q.m q.nw fun i => roundF q.md (s.laneDraw q.md (s.vrow q.d) i) (vfmt q.t) (sqrtF (flane q.t x i)))
    ∧ ((smGet {} s.myCore.fdiv s.iss.vPort).task ≠ none →
        exec (.vdiv o) s = .next (s.stall (.stall (.fdiv s.iss.vPort))) ∧ exec (.vsqrt q) s = .next (s.stall (.stall (.fdiv s.iss.vPort))))
    ∧ ((smGet {} s.myCore.idiv s.iss.vPort).task = none → ∀ p ∈ [(Instr.vidiv r, false), (Instr.virem r, true)],
        ∃ u n, exec p.1 s = .next (u.modMyCore fun c => { c with
            idiv := smPut c.idiv s.iss.vPort { task := some s.iss.task, doneAt := s.clock + 4 + n } })
          ∧ LaneResult s u r.t r.d r.m r.nw fun i =>
              let z := divide r.t.width (vsigned r.t) (lane r.t x i) (lane r.t y i)
              ((if p.2 then z.2 else z.1) % 2 ^ r.t.width).toNat)

/-- R271, R272, R55: reductions replace the low bytes of the destination row with the sum or extreme of the selected lanes, in the fixed tree
order for floating sums; with no lane selected a sum or extreme is 0 and vdot leaves its accumulator. -/
def Sys2Proof.Stated.ReductionResults : Prop :=
  ∀ (s : State) (o : VUn) (r : VBin) (x y : Row), s.srcV o.a = .ok x → RowUsable s o.d → s.srcV r.a = .ok x → s.srcV r.b = .ok y → RowUsable s r.d →
    let l := selected o.t (s.regM o.m) x
    let old := s.rowBefore (s.vrow o.d)
    let acc := s.rowBefore (s.vrow r.d)
    (∃ t, exec (.vredsum o) s = .next t ∧ ResultV s t o.d (lowBytes old 4 (if l = [] then 0
        else if o.t.isF8 then roundF .rne 0 .f32 (pairTree (l.map (decodeF (vfmt o.t))))
        else (((l.map fun z => if vsigned o.t then sextNat o.t.width z else (z : Int)).sum) % 2 ^ 32).toNat)) o.nw)
    ∧ (∃ t, exec (.vredmax o) s = .next t ∧ ResultV s t o.d (lowBytes old (o.t.width / 8) (redPick o.t true l)) o.nw)
    ∧ (∃ t, exec (.vredmin o) s = .next t ∧ ResultV s t o.d (lowBytes old (o.t.width / 8) (redPick o.t false l)) o.nw)
    ∧ ∃ t, exec (.vdot r) s = .next t ∧ ResultV s t r.d (lowBytes acc 4 (
        let ps := ((List.range r.t.lanes).filter fun i => (s.regM r.m).getLsbD i).map fun i => mulF (flane r.t x i) (flane r.t y i)
        if ps = [] then acc.toNat % 2 ^ 32
        else roundF .rne 0 .f32 (addF .rne (decodeF .f32 (acc.toNat % 2 ^ 32)) (pairTree ps)))) r.nw

namespace Sys2Proof.Stated

open Sys2Proof Sys2Proof.Machine

/-! ### Classes 0x8 and 0x9 -/

/-- The shadow set of the task's matrix engine changed by f, and nothing else (R275). -/
def shadowed (s : State) (f : MSet → MSet) : State := s.modMe fun t => { t with shadowSet := f t.shadowSet }

/-- A card of n bytes can be read from the task's scratchpad extent at an offset, and holds d (R300). -/
def CardAt (s : State) (off : Word) (n d : Nat) : Prop :=
  let pa := winAddr (s.modId s.iss.die) s.iss.die s.iss.core + s.me.spadBase + off.toNat
  off.toNat % 64 = 0 ∧ off.toNat + n ≤ s.me.spadSize ∧ s.releaseWaits s.iss.task = false
    ∧ s.scoreboardHolds s.iss.die s.iss.core pa n false = false ∧ s.poisoned pa n = false ∧ d = memRead s.mem pa n

/-- A handle does not wait for the walker. -/
def Settled (h : Handle) : Prop := h.valid = true ∨ (h.pending = false ∧ h.revoked = false)

/-- A command takes the task's next ticket, which S[a] and the latch of its C port receive. With status 0 it is accepted as command c of the engine;
with another it is recorded as a failure with that status (R301, R306, R313). No byte of memory changes. -/
def TicketTaken (s t : State) (a : Fin 32) (kind : CmdKind) (card status : Nat) (started : Bool := false) : Prop :=
  let n := s.me.live.ticket + 1
  t = { s.setTask s.iss.task t.me with cmds := t.cmds, issued := t.issued, sent := t.sent }
    ∧ t.me = { s.me with live := { s.me.live with ticket := n, s := t.me.live.s }, latches := t.me.latches, failures := t.me.failures,
                          openTickets := t.me.openTickets, late := t.me.late }
    ∧ (∀ r : Fin 32, t.me.live.rdS r = if r = a ∧ a ≠ 0 then BitVec.ofNat 64 n else s.me.live.rdS r)
    ∧ t.me.latches = (if s.iss.cPort = 0 then { s.me.latches with lc0 := some (BitVec.ofNat 64 n) }
        else { s.me.latches with lc1 := some (BitVec.ofNat 64 n) })
    ∧ (status = 0 → ∃ c : Cmd, t.cmds = s.cmds ++ [c] ∧ c.ticket = n ∧ c.kind = kind ∧ c.card = card ∧ c.task = s.iss.task ∧ c.die = s.iss.die
          ∧ c.core = s.iss.core ∧ c.launch = s.me.launch ∧ c.started = started ∧ c.order = s.issued ∧ c.no = s.sent
          ∧ t.issued = s.issued + 1 ∧ t.sent = s.sent + 1
          ∧ t.me.openTickets = s.me.openTickets ++ [n] ∧ t.me.failures = s.me.failures)
    ∧ (status ≠ 0 → t.cmds = s.cmds ∧ t.issued = s.issued ∧ t.sent = s.sent ∧ t.me.failures = s.me.failures ++ [{ ticket := n, code := status }] ∧ t.me.openTickets = s.me.openTickets)

/-- The status of qnt and dqnt (R306, R315): a descriptor refused for either or by the instruction, two views of unequal size, then bounds, access
and address. -/
def assayCode (s : State) (bad : Bool) (d : Nat) (hs hd : Handle) : Nat :=
  let v := viewOf (d % 2 ^ 512)
  let w := viewOf (d / 2 ^ 512)
  if v.assayBad || w.assayBad || decide (v.rext ≠ w.rext) || decide (v.kext ≠ w.kext) || bad then 1 else s.assayStatus v hs (some (w, hd))

/-- What qnt refuses in its two views (R316). -/
def qntRefuses (md : RMode) (esc : Bool) (d : Nat) : Bool :=
  let v := viewOf (d % 2 ^ 512)
  let w := viewOf (d / 2 ^ 512)
  !v.isFloat || !w.isMx || (w.noside && esc) || (decide (md = .rsr) && (v.tooLarge || w.tooLarge))

/-- What dqnt refuses in its two views (R316). -/
def dqntRefuses (md : RMode) (d : Nat) : Bool :=
  let v := viewOf (d % 2 ^ 512)
  let w := viewOf (d / 2 ^ 512)
  !v.isMx || !w.isFloat || (decide (md = .rsr) && (v.tooLarge || w.tooLarge))

/-- The status of stend (R306, R331, R332, R400): its card, bounds, access and one stack, and then an enabled tend window for what it writes. -/
def tendCode (s : State) (d : Nat) (h : Handle) : Nat :=
  let st := if badTendCard d then 1 else s.stackStatus h (tendArrays d) true
  if st ≠ 0 then st
  else
    match s.oneStack ((tendArrays d).map h.span2) with
    | some (k, j) => if s.inWindow k j (((tendArrays d).map h.span2).take 4) then 0 else 4
    | none => 4

/-- The status of a fold (R306, R331, R333, R334): its card, the source in the task's extent for sfold, and then bounds, access and one stack. -/
def foldCode (s : State) (flush : Bool) (d : Nat) (h : Handle) : Nat :=
  if badFoldCard flush d then 1
  else if flush = false ∧ s.me.spadSize < d / 2 ^ 64 % 2 ^ 24 + 4 * (d / 2 ^ 96 % 2 ^ 24) then 2
  else s.stackStatus h [foldRun d] false

end Sys2Proof.Stated

/-! ### The matrix engine and result queues -/

/-- R275, R276, R278 to R280, R283 to R285: what the configuration instructions write to the shadow set, their results, and that all but
mshape need a grant. -/
def Sys2Proof.Stated.MatrixConfiguration : Prop :=
  ∀ (s : State) (fmt : EngFmt) (a : Fin 32) (o : En3) (x y z : Word) (level : Fin 8) (dr : Bool) (p : BitVec 8),
    s.srcS o.a = .ok x → s.srcS o.b = .ok y → s.srcS o.c = .ok z →
    (let g := grantOf fmt (y.toNat % 2 ^ 20) (y.toNat / 2 ^ 20 % 2 ^ 20) (y.toNat / 2 ^ 40) z.toNat (s.me.rowCount - z.toNat)
     ∃ t w, exec (.mshape fmt a o.b o.c) s = .next t ∧ ResultM (shadowed s fun m => { m with grant := g }) t a w
      ∧ (g = none → w = 0) ∧ ∀ k, g = some k → w.toNat % 2 ^ 64 = (k.m + k.n * 2 ^ 20 + k.k * 2 ^ 40) % 2 ^ 64)
    ∧ (s.me.shadowSet.grant ≠ none →
        (∀ h : level.val < 6, exec (.mcfg level dr o) s
          = .next (shadowed s fun m => { m with levels := m.levels.set level.val { a := x, b := y, c := z, drain := dr } h }))
        ∧ (level.val = 6 → x.toNat % 2 ^ 32 = 0 → exec (.mcfg level dr o) s = .next (shadowed s fun m => { m with orgA := x, orgB := y, orgC := z }))
        ∧ exec (.mrot o) s = .next (shadowed s fun m =>
            { m with rot := x, rk := if x.getLsbD 20 then y else m.rk, qk := if x.getLsbD 21 then z else m.qk })
        ∧ (p.toNat ∈ [1, 2, 3, 4, 0x11] → exec (.mprof p) s = .next (shadowed s fun m => { m with prof := p }))
        ∧ (p.toNat ∉ [1, 2, 3, 4, 0x11] → Traps (.mprof p) s { code := 0x1A, info := p.toNat })
        ∧ (drainRefused y.toNat = false → ∃ t, exec (.mdrain a o.b o.c) s = .next t
            ∧ ResultM (shadowed s fun m => { m with drain := y, dk := if y.getLsbD 20 then z else m.dk }) t a 0)
        ∧ (drainRefused y.toNat = true → ∃ t, exec (.mdrain a o.b o.c) s = .next t ∧ ResultM s t a 1))
    ∧ (s.me.shadowSet.grant = none → ∀ i ∈ [Instr.mcfg level dr o, .mrot o, .mprof p, .mdrain a o.b o.c], Traps i s { code := 0x10 })

/-- R280, R282: mopnd reads the 64 bytes of its descriptor through its handle, and binds the operand when the status it returns is 0. -/
def Sys2Proof.Stated.MatrixOperand : Prop :=
  ∀ (s : State) (isB : Bool) (a : Fin 32) (b : SSrc) (h : Fin 16) (off : Word), s.srcS b = .ok off →
    let hd := s.regH h
    let k := hd.toSeg off.toNat
    off.toNat < 2 ^ 51 → s.me.shadowSet.grant ≠ none → Passes s hd k 64 64 false → (hd.claim = true → s.tag (paOf hd k) = .value) →
    LoadReady s hd .none (paOf hd k) 64 → s.memWf = true →
    ∃ u t d st, exec (.mopnd isB a b h) s = .next t ∧ OnlyCaches s u ∧ d < 2 ^ 512 ∧ st = u.mopndStatus isB (viewOf d) hd
      ∧ (∀ j < 64, d / 2 ^ (8 * j) % 256 = byteSeen s hd .none (paOf hd k + j))
      ∧ ResultM (shadowed u fun m =>
          let op : Option Operand := if st = 0 then some { desc := BitVec.ofNat 512 d, h := hd } else none
          if isB then { m with opB := op } else { m with opA := op }) t a (BitVec.ofNat 64 st)

/-- The active set that mgo takes from a shadow set: all of it, with SYS.SEED for the keys of rounding, quantising and draining whose set bits are 0, which
bits the copy then has set (R69, R273, R287). -/
def Sys2Proof.Stated.activated (m : MSet) (seed : Word) : MSet :=
  { grant := m.grant, levels := m.levels, orgA := m.orgA, orgB := m.orgB, orgC := m.orgC, opA := m.opA, opB := m.opB, prof := m.prof
    rot := m.rot ||| 0x300000
    rk := if m.rot.getLsbD 20 then m.rk else seed
    qk := if m.rot.getLsbD 21 then m.qk else seed
    drain := m.drain ||| 0x100000
    dk := if m.drain.getLsbD 20 then m.dk else seed }

/-- R110, R273, R287: mgo, when its checks pass, gives the task a queued job whose active set is the shadow set with the keys filled in, at the end of its core's
engine queue; a job that drains to a result queue takes the queue for its launch; a job with weights at the bank lists B's arrays as read ranges; copies that
wait for rows of an ended job go on with those they have; nothing else changes. -/
def Sys2Proof.Stated.JobStarts : Prop :=
  ∀ (s : State) (g : Grant) (x y : Operand), s.me.job.pend = none →
    let m := s.me.shadowSet
    let queue := m.drain.toNat / 2 ^ 16 % 8
    let toQueue := m.drain.getLsbD 15
    let ranges := if g.fmt = .ab4 then y.view.arrays.map fun z => ((y.h.phys z).1.toNat, (y.h.phys z).2) else []
    m.grant = some g → m.opA = some x → m.opB = some y →
    (s.me.job.state ≠ .done → exec .mgo s = .next (s.stall (.stall .job)))
    ∧ (s.me.job.state = .done →
        (m.badNumerics g x y = true → Traps .mgo s { code := 0x1A, info := m.prof.toNat })
        ∧ (m.badNumerics g x y = false → m.tilesFit g = false → Traps .mgo s { code := 0x04 })
        ∧ (m.badNumerics g x y = false → m.tilesFit g = true →
            let mine := (s.myCore.rq queue).owner = none ∨ (s.myCore.rq queue).owner = some s.me.launch
            (toQueue = true → ¬ mine → Traps .mgo s { code := 0x0E, info := queue })
            ∧ ((toQueue = true → mine) → s.releaseWaits s.iss.task = true → exec .mgo s = .next (s.stall (.stall .release)))
            ∧ ((toQueue = true → mine) → s.releaseWaits s.iss.task = false →
                ∃ t, exec .mgo s = .next t
                  ∧ t = { (s.setTask s.iss.task t.me).setCore s.iss.die s.iss.core t.myCore with
                          issued := s.issued + 1, sent := t.sent, iss := { s.iss with newJob := true }, cmds := t.cmds }
                  ∧ t.sent = (if ranges = [] then s.sent else s.sent + 1)
                  ∧ t.myCore = { s.myCore with engine := s.myCore.engine ++ [s.iss.task], rqs := t.myCore.rqs }
                  ∧ (∀ k, t.myCore.rq k = if toQueue = true ∧ k = queue then { s.myCore.rq k with owner := some s.me.launch } else s.myCore.rq k)
                  ∧ t.cmds = s.cmds.map (fun z => { z with short := z.short || (decide (z.task = s.iss.task) && !s.fillable z) })
                  ∧ t.me = { s.me with active := activated m s.iss.snap.seed
                                       job := { state := .queued, ranges := ranges, order := s.issued, no := t.sent, faultCode := s.me.job.faultCode } })))

/-- R287, R291, R295, R296: without a grant or an operand mgo raises SHAPE_UNGRANTED; mwait completes when the task has no job and acquires at .die, waits while
one runs, and raises RQ_OVERFLOW where the job is parked on a full queue that no route empties; mstat reads the job's word; each raises the trap that a failed
job has left. -/
def Sys2Proof.Stated.JobControl : Prop :=
  ∀ (s : State) (a : Fin 32),
    let j := s.me.job
    (j.pend = none →
      (s.me.shadowSet.grant = none ∨ s.me.shadowSet.opA = none ∨ s.me.shadowSet.opB = none → Traps .mgo s { code := 0x10 })
      ∧ (j.state = .done ∨ s.iss.newJob = true → exec .mwait s = .next (acquired s .die))
      ∧ (j.state = .running → s.iss.newJob = false → exec .mwait s = .next (s.stall (.stall .job)))
      ∧ (let q := s.me.active.drain.toNat / 2 ^ 16 % 8
         j.state = .parked → j.rqFull = true → (s.myCore.rq q).bound = none → 96 < (s.myCore.rq q).rows.length + 48 → s.iss.newJob = false →
          Traps .mwait s { code := 0x0E, info := q })
      ∧ ∃ t w, exec (.mstat a) s = .next t ∧ ResultM s t a w ∧ w.getLsbD 0 = decide (j.state ≠ .done)
          ∧ w.toNat / 2 ^ 32 = j.steps % 2 ^ 32 ∧ w.toNat / 2 ^ 8 % 2 ^ 8 = j.faultCode % 2 ^ 8)
    ∧ ∀ f, j.pend = some f → ∀ i ∈ [Instr.mgo, .mwait, .mstat a], exec i s
        = .next ((s.modMe fun t => { t with job := { t.job with pend := none } }).takeTrap s.iss.task f s.iss.slot s.iss.half s.iss.pc)

/-- R297: mzero clears whole rows of the task and nothing else; no row at all for a count of 0; rows outside the extent raise HANDLE_BOUNDS, and rows of a job in
flight ALIAS_HAZARD. -/
def Sys2Proof.Stated.RowsZeroed : Prop :=
  ∀ (s : State) (b c : SSrc) (r n : Word), s.srcS b = .ok r → s.srcS c = .ok n →
    (n = 0 → exec (.mzero b c) s = .next s)
    ∧ (n ≠ 0 → s.me.rowCount < r.toNat + n.toNat → Traps (.mzero b c) s { code := 0x04 })
    ∧ (∀ o k, n ≠ 0 → r.toNat + n.toNat ≤ s.me.rowCount → s.me.outRows = some (o, k) → 0 < k → o < r.toNat + n.toNat → r.toNat < o + k →
        Traps (.mzero b c) s { code := 0x12, info := max r.toNat o })
    ∧ (n ≠ 0 → r.toNat + n.toNat ≤ s.me.rowCount → (∀ o k, s.me.outRows = some (o, k) → ¬ (0 < k ∧ o < r.toNat + n.toNat ∧ r.toNat < o + k)) →
        (s.stores.any fun w => decide (w.task = s.iss.task) && overlaps w.pa w.len (s.vaddr r.toNat) (n.toNat * 256)) = false →
        ∃ t, exec (.mzero b c) s = .next t
          ∧ t = { s with iss := { s.iss with oldRows := t.iss.oldRows }, mem := t.mem, poison := t.poison, dirty := t.dirty }
          ∧ ∀ q, memByte t.mem q = if s.vaddr r.toNat ≤ q ∧ q < s.vaddr r.toNat + n.toNat * 256 then 0 else memByte s.mem q)

/-- R287, R295 to R297: mgo, mwait, mstat and mzero. -/
def Obligations.MatrixJobs : Prop :=
  Sys2Proof.Stated.JobStarts ∧ Sys2Proof.Stated.JobControl ∧ Sys2Proof.Stated.RowsZeroed

/-- R266, R298, R299: vpop writes the first untaken row of a queue to its destination and marks it taken by the task; an empty queue that no job of
the task fills raises RQ_UNDERFLOW; rqbind binds a queue to a relay entry or frees it. -/
def Obligations.QueueResults : Prop :=
  ∀ (s : State) (q : Fin 8) (d : Fin 32) (nw : Bool) (b : SSrc) (e : Word) (row : QRow) (rest : List QRow), s.srcS b = .ok e →
    let r := s.myCore.rq q.val
    (r.owner = none ∨ r.owner = some s.me.launch) →
    (RowFree s d → r.bound = none → s.reserved s.iss.die s.iss.core q.val = 0 → r.rows = row :: rest → row.takenBy = none → row.poison = false →
      ∃ t, exec (.vpop d q nw) s = .next t ∧ ResultV (s.modMyCore fun x => { x with rqs := smPut x.rqs q.val { x.rq q.val with
        owner := some s.me.launch, rows := { row with takenBy := some s.iss.task } :: rest } }) t d row.row nw)
    ∧ (RowFree s d → r.bound = none → s.reserved s.iss.die s.iss.core q.val = 0 → r.rows = [] → s.me.drainsTo q.val = false →
        Traps (.vpop d q nw) s { code := 0x0F, info := q.val })
    ∧ (RowFree s d → r.bound ≠ none → Traps (.vpop d q nw) s { code := 0x0F, info := q.val })
    ∧ (e.toNat < 64 → exec (.rqbind q b true) s = .next (State.relayTest
        (s.modMyCore fun x => { x with rqs := smPut x.rqs q.val { x.rq q.val with owner := some s.me.launch, bound := some e.toNat } })
        s.iss.die s.iss.core))
    ∧ (r.bound = none → exec (.rqbind q b false) s = .next
        (s.modMyCore fun x => { x with rqs := smPut x.rqs q.val { x.rq q.val with owner := some s.me.launch, bound := none } }))

/-! ### Engine commands -/

/-- R300, R301, R305, R306: a copy from memory reads its card, takes a ticket, and is accepted or fails with a status; a strict card whose time has
passed raises TT_EXPIRED instead. -/
def Sys2Proof.Stated.CopyIssue : Prop :=
  ∀ (s : State) (o : CpyOp) (off : Word) (d : Nat), s.srcS o.b = .ok off → CardAt s off 64 d →
    ∀ p ∈ [(Instr.cpy o, CmdKind.cpy), (.cpym o, .cpym), (.cpyc o, .cpyc)],
      ((copyCard d).strict = true → s.passed (copyCard d).notBefore = true → Traps p.1 s { code := 0x1D, info := (copyCard d).notBefore })
      ∧ (¬ ((copyCard d).strict = true ∧ s.passed (copyCard d).notBefore = true) → Settled (s.regH o.hs) → Settled (s.regH o.hd) →
          s.scoreboardUsed s.iss.die s.iss.core < 16 → ∃ t, exec p.1 s = .next t
            ∧ TicketTaken s t o.a p.2 d (s.copyStatus p.2 (copyCard d) (s.regH o.hs) (s.regH o.hd)))

/-- R310: cpyr takes its rows from a result queue of its core that holds them, or that a job of the task fills, and which the launch then owns. -/
def Sys2Proof.Stated.QueueCopyIssue : Prop :=
  ∀ (s : State) (a : Fin 32) (b : SSrc) (q : Fin 8) (hd : Fin 16) (off : Word) (d : Nat), s.srcS b = .ok off → CardAt s off 64 d →
    ¬ ((copyCard d).strict = true ∧ s.passed (copyCard d).notBefore = true) → Settled (s.regH hd) →
    s.scoreboardUsed s.iss.die s.iss.core < 16 →
    let r := s.myCore.rq q.val
    (r.owner = none ∨ r.owner = some s.me.launch) → r.bound = none →
    (s.me.drainsTo q.val = true ∨ (copyCard d).x1 * (copyCard d).x2 + s.reserved s.iss.die s.iss.core q.val
      ≤ (r.rows.filter fun y => y.takenBy.isNone).length) →
    let own := s.modMyCore fun x => { x with rqs := smPut x.rqs q.val { x.rq q.val with owner := some s.me.launch } }
    ∃ u, exec (.cpyr a b q hd) s = .next (u.rqStart s.issued s.iss.die s.iss.core q.val) ∧ TicketTaken own u a (.cpyr q.val) d
      (own.copyStatus (.cpyr q.val) (copyCard d) {} (s.regH hd))

/-- R315, R316: qnt and dqnt read two descriptors, take a ticket, and are accepted or fail with a status. -/
def Sys2Proof.Stated.AssayIssue : Prop :=
  ∀ (s : State) (o : CpyOp) (md : RMode) (esc : Bool) (off : Word) (d : Nat), s.srcS o.b = .ok off → CardAt s off 128 d →
    Settled (s.regH o.hs) → Settled (s.regH o.hd) → s.scoreboardUsed s.iss.die s.iss.core < 16 →
    (∃ t, exec (.qnt o md esc) s = .next t ∧ TicketTaken s t o.a (.qnt md esc) d (assayCode s (qntRefuses md esc d) d (s.regH o.hs) (s.regH o.hd)))
      ∧ ∃ t, exec (.dqnt o md) s = .next t ∧ TicketTaken s t o.a (.dqnt md) d (assayCode s (dqntRefuses md d) d (s.regH o.hs) (s.regH o.hd))

/-- R316, R338, R362: qscl waits while the assay engine scans its view, and completes with the word that the scan returned. -/
def Sys2Proof.Stated.ScanResult : Prop :=
  ∀ (s : State) (a : Fin 32) (b : SSrc) (hs : Fin 16) (fmt : QsclFmt),
    (∀ v, smFind s.me.cReply s.iss.cPort = some v → ∃ t, exec (.qscl a b hs fmt) s = .next t
      ∧ ResultC (s.modMe fun t => { t with cReply := smErase t.cReply s.iss.cPort }) t a (BitVec.ofNat 64 v))
    ∧ ∀ off d, s.srcS b = .ok off → CardAt s off 64 d → smFind s.me.cReply s.iss.cPort = none → Settled (s.regH hs) →
        let st := if (viewOf d).assayBad || !(viewOf d).isFloat then 1 else s.assayStatus (viewOf d) (s.regH hs) none
        (st = 0 → ∃ x : Scan, exec (.qscl a b hs fmt) s
              = .next ((State.modMe { s with issued := s.issued + 1 } fun t => { t with scans := t.scans ++ [x] }).stall .engine)
            ∧ x.port = s.iss.cPort ∧ x.desc = d ∧ x.h = s.regH hs ∧ x.fmt = fmt ∧ x.order = s.issued
            ∧ x.ranges = s.hoistRanges ((viewOf d).arrays.map (s.regH hs).span2))
          ∧ (st ≠ 0 → ∃ t, exec (.qscl a b hs fmt) s = .next t ∧ ResultC s t a (BitVec.ofNat 64 (0xFF00 + st)))

/-- R313: cwait waits for the tickets at or below its bound, reports the lowest failure among them and clears it with the late flag, and acquires;
cstat reads the same record without waiting. -/
def Sys2Proof.Stated.TicketReports : Prop :=
  ∀ (s : State) (a : Fin 32) (b : SSrc) (x : Word), s.srcS b = .ok x →
    (s.ticketsDone x = true → ∃ u t, exec (.cwait a b) s = .next t
        ∧ u = acquired (s.modMe fun t => { t with late := false, failures := u.me.failures }) (if s.me.farTickets.any (fun n => decide (n ≤ x.toNat)) then .mod else .die)
        ∧ ((s.me.failures = [] → u.me.failures = [] ∧ ResultC u t a (if s.me.late then 0x100 else 0))
          ∧ ∀ f, f ∈ s.me.failures → (∀ y ∈ s.me.failures, y ≠ f → f.ticket < y.ticket) → (f.ticket ≤ x.toNat ∨ x = 0) → f.code < 256 →
              u.me.failures = s.me.failures.filter (fun y => y.ticket ≠ f.ticket)
                ∧ ResultC u t a (BitVec.ofNat 64 (f.ticket % 2 ^ 48 * 2 ^ 16 + f.code + if s.me.late then 0x100 else 0))))
    ∧ (s.ticketsDone x = false → exec (.cwait a b) s = .next (s.stall (.stall (.tickets (min x.toNat s.iss.snap.ticket)))))
    ∧ ∃ t w, exec (.cstat a b) s = .next t ∧ ResultC s t a w ∧ w.getLsbD 0 = s.ticketsDone x ∧ w.getLsbD 1 = decide (s.me.failures ≠ [])

namespace Sys2Proof.Stated

open Sys2Proof Sys2Proof.Machine

/-! ### Classes 0xA, 0xB and 0xC -/

/-- Row, bank, width and precision of a seam operand word (R317): K = 0 stands for W. -/
def seamBankField (x : Word) : Nat := x.toNat / 2 ^ 10 % 2 ^ 5

/-- W of an operand word. -/
def seamW (x : Word) : Nat := x.toNat / 2 ^ 15 % 2 ^ 6 + 1

/-- K of an operand word. -/
def seamK (x : Word) : Nat := if x.toNat / 2 ^ 21 % 2 ^ 6 = 0 then seamW x else x.toNat / 2 ^ 21 % 2 ^ 6

/-- An operand word names planes of an owned bank; a destination names all W planes (R318). -/
def SeamFits (s : State) (x : Word) (isDst : Bool) : Prop :=
  seamBankField x < s.me.bankCount ∧ x.toNat % 2 ^ 10 + seamW x - 1 ≤ 1023 ∧ seamK x ≤ seamW x ∧ (isDst = true → seamK x = seamW x)

/-- The core's number of the bank that an operand word names (R102). -/
def seamBank (s : State) (x : Word) : Nat := s.me.bankBase + seamBankField x

/-- A bank's queue takes a macro: the task's earlier stores are performed, and fewer than 4 macros wait (R103, R144). -/
def BankReady (s : State) (n : Nat) : Prop := s.releaseWaits s.iss.task = false ∧ (s.myCore.bank n).queue.length < 4

/-- The state with macro m at the end of the queue of bank n. -/
def queued (s : State) (n : Nat) (m : Macro) : State :=
  s.modMyCore fun x => { x with banks := smPut x.banks n { x.bank n with queue := (x.bank n).queue ++ [m] } }

/-- The instruction queues a macro of its own with operands x, y, z in bank n, and does nothing else (R103). -/
def Queues (i : Instr) (s : State) (n : Nat) (x y z : Word) (iv : Nat × Nat) (wr : Bool) : Prop :=
  ∃ m : Macro, exec i s = .next { queued s n m with iss := { s.iss with fresh := s.iss.fresh ++ [n] } }
    ∧ m.task = s.iss.task ∧ m.instr = i ∧ m.a = x ∧ m.b = y ∧ m.c = z ∧ m.iv = iv ∧ m.isWrite = wr
    ∧ ∀ id ∈ m.after, ∃ c ∈ s.cmds, c.id = id ∧ c.die = s.iss.die ∧ c.core = s.iss.core

/-- The w bits of a vector in column j, plane 0 the highest (R317). -/
def column (s : State) (d c bank : Nat) (x : Word) (j : Nat) : Nat :=
  planeBits (s.planes d c bank (svec x)) (seamW x) j

/-- The value of a source in column j: its first K planes as a signed number (R317). -/
def columnVal (s : State) (d c bank : Nat) (x : Word) (j : Nat) : Int :=
  sextNat (seamK x) (column s d c bank x j / 2 ^ (seamW x - seamK x))

/-- The outcome of scmp on two numbers (R320). -/
def seamHolds (cond : SeamCond) (x y : Int) : Bool :=
  match cond with
  | .eq => decide (x = y)
  | .ne => decide (x ≠ y)
  | .lt => decide (x < y)
  | .ge => decide (y ≤ x)

/-- Relay entry e of the issuing core changed. -/
def relaySet (s : State) (e : Nat) (f : Relay → Relay) : State :=
  s.modMyCore fun x => { x with relays := smPut x.relays e (f (x.relay e)) }

/-- Another launch owns the entry (R110). -/
def NotMine (s : State) (r : Relay) : Prop := r.owner ≠ none ∧ r.owner ≠ some s.me.launch

/-- The system registers with their values before the bundle (R201). -/
def systemRegisters (s : State) : List (Fin 1024 × Word) :=
  [(0, s.me.key), (1, s.iss.snap.seed), (2, BitVec.ofNat 64 s.myDie.time), (3, BitVec.ofNat 64 s.iss.core), (4, BitVec.ofNat 64 s.iss.die),
   (5, BitVec.ofNat 64 s.myDie.moduleId), (6, BitVec.ofNat 64 s.myDie.yieldLimit), (7, BitVec.ofNat 64 s.iss.snap.yieldCount),
   (8, s.iss.snap.claimTimeout), (9, BitVec.ofNat 64 s.iss.snap.callCount), (10, BitVec.ofNat 64 s.iss.snap.winBase),
   (11, BitVec.ofNat 64 s.myCore.carve), (12, BitVec.ofNat 64 ((if s.myLaunch.det then 1 else 0) + s.myLaunch.level % 4 * 2)), (13, s.iss.snap.step)]

end Sys2Proof.Stated

/-! ### Seam macros -/

/-- R103, R318 to R320: a seam macro whose operand words fit enters the queue of their bank; one whose destination does not fit raises SEAM_OPERAND. -/
def Sys2Proof.Stated.SeamIssue : Prop :=
  ∀ (s : State) (o : SeamOp) (sat pred : Bool) (cond : SeamCond) (lop : SeamLog) (rop : SeamRow) (x y : Word),
    s.srcS o.a = .ok x → s.srcS o.b = .ok y →
    (SeamFits s x true → SeamFits s y false → seamBankField y = seamBankField x → BankReady s (seamBank s x) →
      Queues (.scp o.a o.b pred) s (seamBank s x) x y 0 (0, 0) false ∧ Queues (.slog .not o) s (seamBank s x) x y 0 (0, 0) false
      ∧ ∀ z, s.srcS o.c = .ok z → SeamFits s z false → seamBankField z = seamBankField x →
          (∀ i ∈ [Instr.sadd o sat, .ssub o sat, .smul o, .ssel o.a o.b o.c], Queues i s (seamBank s x) x y z (0, 0) false)
          ∧ (lop ≠ .not → Queues (.slog lop o) s (seamBank s x) x y z (0, 0) false)
          ∧ (seamW x = 1 → Queues (.scmp cond o) s (seamBank s x) x y z (0, 0) false)
          ∧ (seamW x ≠ 1 → Traps (.scmp cond o) s { code := 0x11, info := s.iss.word })
          ∧ (seamW x = 1 → seamW y = 1 → seamW z = 1 → Queues (.srow rop o) s (seamBank s x) x y z (0, 0) false))
    ∧ (¬ SeamFits s x true → ∀ z, s.srcS o.c = .ok z →
        ∀ i ∈ [Instr.sadd o sat, .ssub o sat, .smul o, .ssel o.a o.b o.c, .slog lop o, .scmp cond o, .srow rop o, .scp o.a o.b pred],
          Traps i s { code := 0x11, info := s.iss.word })

/-- R320, R322, R362: spred queues its macro; spop queues one and waits, and completes with the bank's value; swait completes when the named
banks hold no macro that the task queued before the bundle. -/
def Sys2Proof.Stated.SeamScalars : Prop :=
  ∀ (s : State) (a : SSrc) (inv : Bool) (r : Fin 32) (x : Word), s.srcS a = .ok x →
    (SeamFits s x false → seamW x = 1 → BankReady s (seamBank s x) →
      Queues (.spred a inv) s (seamBank s x) x 0 0 (0, 0) false
      ∧ (smFind s.me.cReply s.iss.cPort = none →
          ∃ m : Macro, exec (.spop r a) s = .next ((queued s (seamBank s x) m).stall .engine)
            ∧ m.task = s.iss.task ∧ m.port = s.iss.cPort ∧ m.instr = .spop r a ∧ m.b = x))
    ∧ (∀ v, smFind s.me.cReply s.iss.cPort = some v → ∃ t, exec (.spop r a) s = .next t
        ∧ ResultC (s.modMe fun t => { t with cReply := smErase t.cReply s.iss.cPort }) t r (BitVec.ofNat 64 v))
    ∧ ((∀ k < 32, x.toNat % 2 ^ 32 = 0 ∨ x.getLsbD k = true →
          ((s.myCore.bank (s.me.bankBase + k)).queue.filter fun m => m.task = s.iss.task).length ≤ s.iss.fresh.count (s.me.bankBase + k)) →
        exec (.swait a) s = .next s)

/-- R321: sld and sst check their plane, offset and count, and queue a macro whose scratchpad interval enters the range scoreboard. -/
def Sys2Proof.Stated.SeamTransfers : Prop :=
  ∀ (s : State) (a b c : SSrc) (esz : Fin 4) (sg : Bool) (x o l : Word), s.srcS a = .ok x → s.srcS b = .ok o → s.srcS c = .ok l →
    ∀ p ∈ [(Instr.sld a b c esz sg, true), (.sst a b c esz sg, false)],
      let e := 2 ^ esz.val
      (SeamFits s x p.2 → o.toNat % e = 0 → (l = 0 ∨ o.toNat + l.toNat * e ≤ s.me.spadSize) → l.toNat ≤ 1024 → BankReady s (seamBank s x) →
        s.scoreboardUsed s.iss.die s.iss.core < 16 →
        Queues p.1 s (seamBank s x) x o l (winAddr (s.modId s.iss.die) s.iss.die s.iss.core + s.me.spadBase + o.toNat, l.toNat * e) (!p.2))
      ∧ (¬ SeamFits s x p.2 → Traps p.1 s { code := 0x11, info := s.iss.word })
      ∧ (SeamFits s x p.2 → o.toNat % e ≠ 0 → Traps p.1 s { code := 0x08, addr := 63 * 2 ^ 51 + o.toNat, write := !p.2 })
      ∧ (SeamFits s x p.2 → o.toNat % e = 0 → ((l ≠ 0 ∧ s.me.spadSize < o.toNat + l.toNat * e) ∨ 1024 < l.toNat) →
          Traps p.1 s { code := 0x11, info := s.iss.word })

/-- R103, R317, R319, R320: the macro at the head of a bank's queue runs and leaves it. In every column that the predicate row lets through, sadd,
ssub and smul write the low W bits of the exact result, saturated where the form says so, and scmp writes its outcome; the other columns
keep their bits, and every byte outside the destination's planes keeps its value. -/
def Obligations.SeamArithmetic : Prop :=
  ∀ (s : State) (d c bank : Nat) (m : Macro) (rest : List Macro) (o : SeamOp) (sat : Bool) (cond : SeamCond), s.memWf = true →
    ((s.core d c).bank bank).queue = m :: rest → (∀ x ∈ s.cmds, x.id ∉ m.after) → m.a.toNat % 2 ^ 10 + seamW m.a ≤ 1024 →
    seamK m.b ≤ seamW m.b → seamK m.c ≤ seamW m.c →
    let w := seamW m.a
    let fit := fun (v : Int) => if sat then max (-2 ^ (w - 1)) (min v (2 ^ (w - 1) - 1)) else v
    ∀ p ∈ [(Instr.sadd o sat, fun x y => fit (x + y)), (.ssub o sat, fun x y => fit (x - y)), (.smul o, fun x y => x * y),
           (.scmp cond o, fun x y => if seamHolds cond x y then 1 else 0)],
      m.instr = p.1 → ∃ t, exec (.seamMacroExecute d c bank) s = .next t ∧ ((t.core d c).bank bank).queue = rest
        ∧ (∀ j < 1024, (column t d c bank m.a j : Int) =
            if o.pred = false ∨ ((s.core d c).bank bank).pred.getLsbD j = true then p.2 (columnVal s d c bank m.b j) (columnVal s d c bank m.c j) % 2 ^ w
            else column s d c bank m.a j)
        ∧ ∀ a, ¬ (s.seamRow d c bank (m.a.toNat % 2 ^ 10) ≤ a ∧ a < s.seamRow d c bank (m.a.toNat % 2 ^ 10) + 128 * w) →
            memByte t.mem a = memByte s.mem a

/-! ### Relays and stack commands -/

/-- R110, R325, R326, R329: rpost answers 0 and posts the entry, or a status and changes nothing; rarm arms a posted entry and tests the core's entries at
once; rcancel withdraws a posted or armed entry and answers its state; rstat answers the entry's word. -/
def Sys2Proof.Stated.RelayResults : Prop :=
  ∀ (s : State) (a : Fin 32) (b c : SSrc) (hs hd : Fin 16) (x y : Word) (d : Nat), s.srcS b = .ok x → s.srcS c = .ok y → y.toNat < 64 →
    let e := y.toNat
    let r := s.myCore.relay e
    let posted : Relay := { state := .posted, card := BitVec.ofNat 512 d, hs := s.regH hs, hd := s.regH hd, status := r.status, owner := some s.me.launch, task := s.iss.task }
    (CardAt s x 64 d → (posted.kind ≠ 2 → Settled (s.regH hs)) → Settled (s.regH hd) → ∃ u t st, exec (.rpost a b c hs hd) s = .next t ∧ ResultC u t a (BitVec.ofNat 64 st)
        ∧ st = s.rpostStatus posted r ∧ (st ≠ 0 → u = s) ∧ (st = 0 → u = relaySet s e fun _ => posted)
        ∧ (r.state = .posted ∨ r.state = .armed ∨ r.state = .firing ∨ NotMine s r → st ≠ 0))
    ∧ (NotMine s r ∨ r.state ≠ .posted → ∃ t, exec (.rarm a c) s = .next t ∧ ResultC s t a 9)
    ∧ (¬ NotMine s r → r.state = .posted → s.releaseWaits s.iss.task = false →
        let late := decide (r.notBefore ≠ 0 ∧ r.notBefore ≤ s.myDie.time)
        (r.card.getLsbD 394 = true ∧ late = true → Traps (.rarm a c) s { code := 0x1D, info := r.notBefore })
        ∧ (¬ (r.card.getLsbD 394 = true ∧ late = true) →
            exec (.rarm a c) s = .next (((relaySet s e fun r => { r with state := .armed, late := late }).relayTest s.iss.die s.iss.core).resC a 0)))
    ∧ (NotMine s r → ∃ t, exec (.rcancel a c) s = .next t ∧ ResultC s t a 0xF)
    ∧ (¬ NotMine s r → ∃ u t, exec (.rcancel a c) s = .next t ∧ ResultC u t a (BitVec.ofNat 64 r.state.code)
        ∧ u = if r.state = .posted ∨ r.state = .armed then relaySet s e fun r => { r with state := .idle, status := 8 } else s)
    ∧ ∃ t w, exec (.rstat a c) s = .next t ∧ ResultC s t a w ∧ w.toNat % 2 ^ 8 = r.state.code ∧ w.toNat / 2 ^ 8 % 2 ^ 8 = r.status % 2 ^ 8
        ∧ w.getLsbD 16 = r.late ∧ w.toNat / 2 ^ 24 = r.doneRows % 2 ^ 16

/-- R325, R326, R329: an entry number above 63 raises ILLEGAL_INSTRUCTION. -/
def Sys2Proof.Stated.RelayEntryTraps : Prop :=
  ∀ (s : State) (a : Fin 32) (b c : SSrc) (hs hd : Fin 16) (x y : Word), s.srcS b = .ok x → s.srcS c = .ok y → 64 ≤ y.toNat →
    ∀ i ∈ [Instr.rpost a b c hs hd, .rarm a c, .rcancel a c, .rstat a c], Traps i s { code := 0x01, info := s.iss.word }

/-- R331 to R334: a stack command reads its card and takes a ticket; stend is then at its stack or fails with a status, and an accepted fold sends one
message, with its rank and row run, beside the command. A source of sfold outside the scratchpad extent is BAD_BOUNDS by a reading of the model (log 42):
check 6 of R306 speaks of handles. -/
def Obligations.StackIssue : Prop :=
  ∀ (s : State) (a : Fin 32) (b : SSrc) (h : Fin 16) (off : Word) (d : Nat), s.srcS b = .ok off → CardAt s off 64 d → Settled (s.regH h) →
    ((tendCode s d (s.regH h) = 0 → s.holdRoom s.me.launch s.iss.die (((tendArrays d).map (s.regH h).span2).headD (0, 0)).1 1 = true) →
      ∃ t, exec (.stend a b h) s = .next t ∧ TicketTaken s t a .stend d (tendCode s d (s.regH h)) true)
    ∧ ∀ p ∈ [(Instr.sfold a b h, CmdKind.sfold, false), (.sflush a b h, .sflush, true)],
        (foldCode s p.2.2 d (s.regH h) = 0 → s.holdRoom s.me.launch s.iss.die ((s.regH h).span2 (foldRun d)).1
          (if p.2.2 then 1 else (4 * (d / 2 ^ 96 % 2 ^ 24) + 63) / 64) = true) →
        ∃ u msgs, exec p.1 s = .next { u with foldMsgs := s.foldMsgs ++ msgs, sent := u.sent + msgs.length } ∧ TicketTaken s u a p.2.1 d (foldCode s p.2.2 d (s.regH h)) true
          ∧ (foldCode s p.2.2 d (s.regH h) ≠ 0 → msgs = [])
          ∧ (foldCode s p.2.2 d (s.regH h) = 0 → ∃ m : FoldMsg, msgs = [m] ∧ m.isFlush = p.2.2 ∧ m.launch = s.me.launch ∧ m.det = s.myLaunch.det
              ∧ m.part.rank = d / 2 ^ 128 % 2 ^ 16 ∧ m.id.nrank = d / 2 ^ 144 % 2 ^ 16 ∧ m.id.len = d / 2 ^ 96 % 2 ^ 24
              ∧ (m.id.bf16 = true ↔ d / 2 ^ 120 % 2 ^ 4 = 5) ∧ m.part.task = s.iss.task ∧ m.part.ticket = s.me.live.ticket + 1)

/-! ### System registers, traps by program, time, the control word table -/

/-- R201, R348, R352: mfsr reads every assigned system register, mtsr writes the two that a program may write, and every other number raises
ILLEGAL_INSTRUCTION; time reads device time, and time.until waits for it. -/
def Sys2Proof.Stated.SystemRegisters : Prop :=
  ∀ (s : State) (d : Fin 32) (n : Fin 1024) (a : SSrc) (v : Word), s.srcS a = .ok v →
    (∀ p ∈ systemRegisters s, ∃ t, exec (.mfsr d p.1) s = .next t ∧ ResultS s t d p.2 false)
    ∧ (14 ≤ n.val → Traps (.mfsr d n) s { code := 0x01, info := s.iss.word })
    ∧ exec (.mtsr 1 a) s = .next (s.modMe fun t => { t with live := { t.live with seed := v } })
    ∧ exec (.mtsr 8 a) s = .next (s.modMe fun t => { t with live := { t.live with claimTimeout := v } })
    ∧ (n ≠ 1 → n ≠ 8 → Traps (.mtsr n a) s { code := 0x01, info := s.iss.word })
    ∧ (∃ t, exec (.time d) s = .next t ∧ ResultS s t d (BitVec.ofNat 64 s.myDie.time) false)
    ∧ (∃ t, exec (.timeUnc d) s = .next t ∧ ResultS s t d s.myDie.timeUnc false)
    ∧ (s.me.reply = none → v.toNat ≤ s.myDie.time → exec (.timeUntil a) s = .next s)
    ∧ (s.me.reply = none → s.myDie.time < v.toNat → exec (.timeUntil a) s = .next (s.stall (.timeUntil v.toNat)))
    ∧ (s.me.reply ≠ none → exec (.timeUntil a) s = .next (s.modMe fun t => { t with reply := none }))

/-- The stores of a task in the form in which they leave with a commit: numbered in program order (R122, R407). -/
def Sys2Proof.Stated.leaving (s : State) (l : List Store) : List Store := l.zipIdx.map fun (x : Store × Nat) => { x.1 with no := s.sent + x.2 }

/-- R349 to R351: trap leaves its number and its place for the end of the bundle; resume, in a handler, gives back S24 to S31 unless its form keeps them, clears HND and
goes to S25 with a commit; outside a handler it is illegal; a bad target traps; abort ends the task with its status. -/
def Obligations.TrapResumeAbort : Prop :=
  ∀ (s : State) (n : BitVec 18) (keep : Bool) (a : SSrc) (v : Word), s.srcS a = .ok v →
    let dest := (s.regS 25).toNat
    exec (.trap n) s = .next { s with iss := { s.iss with userTrap := some n.toNat, trapAt := (s.iss.slot, s.iss.half) } }
    ∧ exec (.abort a) s = .next (s.modMe fun t => { t with ending := some (some (v.toNat % 2 ^ 16, false)) })
    ∧ (s.iss.snap.hnd = false → Traps (.resume keep) s { code := 0x01, info := s.iss.word })
    ∧ (s.iss.snap.hnd = true → s.iss.snap.hse = true →
        exec (.resume keep) s = .next (s.modMe fun t => { t with ending := some (some (0x19, true)) }))
    ∧ (s.iss.snap.hnd = true → s.iss.snap.hse = false →
        (dest % 16 ≠ 0 → Traps (.resume keep) s { code := 0x08, addr := dest })
        ∧ (dest % 16 = 0 → s.myLaunch.codeLen ≤ dest → Traps (.resume keep) s { code := 0x07, addr := dest })
        ∧ (dest % 16 = 0 → dest < s.myLaunch.codeLen → ∃ t, exec (.resume keep) s = .next t ∧ t.mem = s.mem
            ∧ t.stores = s.stores ++ leaving s s.me.withheld ∧ t.me.withheld = [] ∧ t.me.shadow = [] ∧ t.me.shadowBad = [] ∧ t.me.dup = t.me.live ∧ t.me.latches = {}
            ∧ t.me.live = { s.me.live with s := t.me.live.s, hnd := false, hse := false, yieldCount := 0, pc := dest }
            ∧ ∀ k : Fin 32, t.me.live.rdS k = if h : keep = false ∧ 24 ≤ k.val then s.me.live.stash[k.val - 24]'(by omega) else s.me.live.rdS k))

/-- R353: cwtld copies its control words from the scratchpad into the task's table, and changes nothing else. -/
def Sys2Proof.Stated.ControlWords : Prop :=
  ∀ (s : State) (d : Fin 32) (a : SSrc) (first : Fin 512) (x : Word), s.srcS a = .ok x → x.toNat % 32 = 0 →
    let n := (s.regS d).toNat
    let pa := winAddr (s.modId s.iss.die) s.iss.die s.iss.core + s.me.spadBase + x.toNat
    (512 < first.val + n ∨ (n ≠ 0 ∧ s.me.spadSize < x.toNat + 32 * n) → Traps (.cwtld d a first) s { code := 0x04, addr := 63 * 2 ^ 51 + x.toNat })
    ∧ (first.val + n ≤ 512 → (n = 0 ∨ x.toNat + 32 * n ≤ s.me.spadSize) → s.releaseWaits s.iss.task = false →
        s.scoreboardHolds s.iss.die s.iss.core pa (32 * n) false = false → s.poisoned pa (32 * n) = false →
        ∃ t, exec (.cwtld d a first) s = .next t ∧ OnlyMe s t
          ∧ t.me = { s.me with cwt := t.me.cwt, cwtDirty := s.me.cwtDirty || decide (0 < n) }
          ∧ ∀ k, smGet 0 t.me.cwt k = if first.val ≤ k ∧ k < first.val + n then memRead s.mem (pa + 32 * (k - first.val)) 32
              else smGet 0 s.me.cwt k)

/-- The port that an operation used is counted for the next operation of its bundle (R192). -/
def Sys2Proof.Stated.portCounted (i : Instr) (t : State) : State :=
  match portOf i with
  | .v => { t with iss := { t.iss with vPort := t.iss.vPort + 1 } }
  | .c => { t with iss := { t.iss with cPort := t.iss.cPort + 1 } }
  | .s | .m => t

/-- R188 to R190: a short pair runs the operations that its two short forms stand for, in order, each as its long form does; a short form that
is all zero stands for none; one that stands for no instruction raises ILLEGAL_INSTRUCTION. -/
def Obligations.ShortPairs : Prop :=
  ∀ (s : State) (x y : ShortForm), s.iss.half = 0 → s.me.rowCount ≠ 0 → (x.index ≠ 0 ∨ x.ofs ≠ 0) →
    let form := fun (z : ShortForm) => decodeShort (smGet 0 s.iss.snapCwt z.index.val) z.ofs.val
    let next := fun (t : State) => { t with iss := { t.iss with slot := s.iss.slot, half := 1, word := s.iss.word } }
    (∀ i t, form x = .ok i → actOf i s = .ok t →
      (y.index = 0 → y.ofs = 0 → exec (.cw x y) s = .next (portCounted i t))
      ∧ ((y.index ≠ 0 ∨ y.ofs ≠ 0) → ∀ j u, form y = .ok j → actOf j (next (portCounted i t)) = .ok u →
          exec (.cw x y) s = .next (portCounted j u)))
    ∧ (∀ (o : VBin) (v w : Row), form x = .ok (.vand o) → y.index = 0 → y.ofs = 0 → s.srcV o.a = .ok v → s.srcV o.b = .ok w →
        RowUsable s o.d → ∃ t, exec (.cw x y) s = .next (portCounted (.vand o) t)
          ∧ LaneResult s t o.t o.d o.m o.nw fun k => lane o.t v k &&& lane o.t w k)
    ∧ (∀ r, form x = .error r → Traps (.cw x y) s { code := 0x01, info := s.iss.word })
    ∧ ∀ z : ShortForm, z.index = 0 → z.ofs = 0 → exec (.cw z z) s = .next s

namespace Sys2Proof.Stated

open Sys2Proof Sys2Proof.Machine

/-! ### Events -/

/-- Core c of die d is between two bundles of task i, and no part of a bundle of it is unfinished (R338, R344). -/
def Between (s : State) (d c i : Nat) : Prop :=
  (s.core d c).issuing = some i ∧ (s.task i).ending = none ∧ (s.core d c).switchDone ≤ s.clock ∧ s.engaged i = false

/-- Task i takes a trap between bundles (R344): the state is the one given, at the task's own pc. -/
def eventTrap (u : State) (i : Nat) (code info info2 : Nat) : State :=
  u.takeTrap i { code := code, asyncT := true, info := info, info2 := info2 } 0 0 (u.task i).live.pc

/-- A list without its element n. -/
def without {α : Type} (l : List α) (n : Nat) : List α := l.take n ++ l.drop (n + 1)

/-- Memory holds v in n bytes from pa, and its old bytes elsewhere. -/
def BytesAre (s t : State) (pa n v : Nat) : Prop :=
  ∀ a, memByte t.mem a = if pa ≤ a ∧ a < pa + n then byteAt v (a - pa) else memByte s.mem a

/-- Task i takes a trap when it next issues, where none is pending for it. -/
def WillTrap (s t : State) (i : Nat) (r : TrapRec) : Prop := (t.task i).pendTrap = some ((s.task i).pendTrap.getD r)

/-- The numbers of a mailbox command's completion (R382). -/
def MailboxEnds (t : State) (status result : Nat) : Prop :=
  t.host.mailbox.busy = false ∧ t.host.mailbox.status = status ∧ t.host.mailbox.result = result % 2 ^ 32 ∧ t.host.mailbox.unstamping = none
    ∧ t.host.msix.head? = some 8

/-- COUNT after the arrival of n bytes: a result outside 40 bits sets OVF and leaves COUNT (R109). -/
def countedDown (b : CB) (n : Nat) : CB :=
  if -2 ^ 39 ≤ b.count - n ∧ b.count - n < 2 ^ 39 then { b with count := b.count - n } else { b with ovf := true }

/-- A member of a gang may be heard by the leader: the leader is here and has not cancelled. -/
def Hears (s : State) (x : Gang) : Prop := s.leads x = true ∧ x.cancelSent = none

/-- The state with gang g replaced. -/
def gangSet (s : State) (g : Nat) (x : Gang) : State := { s with gangs := s.gangs.set g x }

/-! ### Events of a core and its engines -/

/-- R96, R214, R256, R270: dividers and carve-out changes end when their clocks have passed. -/
def UnitsComplete : Prop :=
  ∀ (s : State) (d c port : Nat) (v : Divider) (o n k : Nat), v.task ≠ none → v.doneAt ≤ s.clock →
    ((s.core d c).divider = v → exec (.divideComplete d c) s = .next (s.modCore d c fun x => { x with divider := {} }))
    ∧ (smFind (s.core d c).fdiv port = some v → exec (.vectorDivideComplete d c port false) s
        = .next (s.modCore d c fun x => { x with fdiv := smErase x.fdiv port }))
    ∧ (smFind (s.core d c).idiv port = some v → exec (.vectorDivideComplete d c port true) s
        = .next (s.modCore d c fun x => { x with idiv := smErase x.idiv port }))
    ∧ ((s.core d c).drain = some (o, n, k) → k ≤ s.clock → exec (.phaseComplete d c) s
        = .next (s.modCore d c fun x => { x with carve := n, drain := none }))

/-- R159, R160, R339, R341, R344: between bundles the highest pending event is taken, a soft error that came during an unfinished bundle before all (R362); a
bundle that has waited 512 clocks parks its task, and a parity error rolls back or leaves SOFT_ERROR_UNRECOVERED. A YIELD_LIMIT is pending from when the count
first exceeds the limit, and its record gives the count at which it arose, which is a reading of the model (log 87). -/
def CoreEventsTaken : Prop :=
  ∀ (s : State) (d c i : Nat), Between s d c i →
    let t := s.task i
    let due := if t.yieldDue = none ∧ (s.die t.die).yieldLimit < t.live.yieldCount then some t.live.yieldCount else t.yieldDue
    let v := if due = t.yieldDue then s else s.modTask i fun t => { t with yieldDue := due }
    (∀ e l, t.lateErr = e :: l → exec (.asyncEventTake d c) s = .next ((v.modTask i fun t => { t with lateErr := l }).parityError i e))
    ∧ (∀ n, t.lateErr = [] → t.softErr = some n →
        exec (.asyncEventTake d c) s = .next (eventTrap (v.modTask i fun t => { t with softErr := none }) i 0x19 n 0))
    ∧ (t.lateErr = [] → t.softErr = none → t.live.hnd = false →
        (∀ x, t.abortTok = some x → exec (.asyncEventTake d c) s = .next (eventTrap (v.modTask i fun t => { t with abortTok := none }) i 0x18 x.1 x.2))
        ∧ (∀ x, t.abortTok = none → t.stepMis = some x →
            exec (.asyncEventTake d c) s = .next (eventTrap (v.modTask i fun t => { t with stepMis := none }) i 0x1B x.1 x.2))
        ∧ (∀ n, t.abortTok = none → t.stepMis = none → due = some n →
            exec (.asyncEventTake d c) s = .next (eventTrap (v.modTask i fun t => { t with yieldDue := none }) i 0x17 n 0)
              ∧ exec (.yieldLimit d c) s = .next (eventTrap (v.modTask i fun t => { t with yieldDue := none }) i 0x17 n 0)))
    ∧ (∀ k, t.stallSince = some k → k + 512 ≤ s.clock → exec (.stallPark d c) s = .next (s.park i t.stallWhy))
    ∧ (∃ u, exec (.coreParityError d c .live) s = .next u ∧ u = { s.rollback i with log := u.log }
        ∧ smGet 0 u.log.counters (64 * t.die + 4) = min (2 ^ 64 - 1) (smGet 0 s.log.counters (64 * t.die + 4) + 1))
    ∧ ∀ p ∈ [(SoftErr.duplicate, 1), (.shadow, 2), (.withheld, 3), (.restore, 4)],
        ∃ u, exec (.coreParityError d c p.1) s = .next u ∧ (u.task i).softErr = some p.2 ∧ u.mem = s.mem

/-- R316, R352, R362: a wait of time.until and a scan of qscl end with a reply to the waiting bundle. -/
def WaitsEnd : Prop :=
  ∀ (s : State) (i : Nat),
    (∀ x, (s.task i).stallWhy = .timeUntil x → (s.task i).status = .issuing → (s.task i).stallSince ≠ none → (s.task i).reply = none →
      x ≤ s.time (s.task i).die → exec (.timeUntilReached i) s = .next (s.modTask i fun t => { t with reply := some (0, 0, 0) }))
    ∧ ∀ x rest, (s.task i).scans = x :: rest →
        (∀ r ∈ (viewOf x.desc).arrays.map x.h.span2, s.chunkWaits (s.task i).die r.1 r.2 false = false
          ∧ s.outputOn (s.task i).die (s.task i).core r.1 r.2 = false) →
        s.stackBlocked s.issued x.order false x.ranges [] = false →
        s.rectBad (viewOf x.desc) x.h (viewOf x.desc).kext 0 0 (viewOf x.desc).rext (viewOf x.desc).kext = none →
        exec (.assayScanComplete i) s = .next (s.modTask i fun t =>
          { t with scans := rest, cReply := smPut t.cReply x.port (qsclWord x.fmt (s.viewValues (viewOf x.desc) x.h)) })

/-- R274, R279, R288 to R293: the first queued job gets a free engine; a step computes the tile with the profile and moves to the next point; a job
that is to stop, or whose handles are not usable, leaves the engine; a chunk of an at-bank job is kept for its step. -/
def MatrixEvents : Prop :=
  ∀ (s : State) (d c i : Nat) (rest : List Nat),
    (s.runningJob d c = none → (∀ j ∈ s.residents d c, (s.task j).job.state ≠ .parked) → (s.core d c).engine = i :: rest →
      (s.task i).job.state = .queued → exec (.matrixJobStart d c) s = .next ((s.modCore d c fun x => { x with engine := rest }).modTask i
        fun t => { t with job := { t.job with state := .running } }))
    ∧ (s.runningJob d c = some i →
        ((s.task i).job.halt = true → (s.task i).job.tile = none → exec (.matrixStep d c) s
          = .next (s.modTask i fun t => { t with job := { t.job with state := .stopped, halt := false } }))
        ∧ ((s.task i).job.halt = false → (s.task i).active.usable = none → ∃ t, exec (.matrixStep d c) s = .next t
            ∧ (t.task i).job.state = .parked ∧ (t.task i).job.onHandle = true ∧ (t.task i).job.steps = (s.task i).job.steps)
        ∧ ∀ g a b, (s.task i).active.grant = some g → (s.task i).active.usable = some (a, b) →
            let m := (s.task i).active
            let j := (s.task i).job
            let pa := m.path g a b false a.h
            let pb := m.path g a b true b.h
            s.stepBad m g pa pb j.idx = none →
            (g.fmt ≠ .ab4 → j.halt = false → drainsAt m.levels.toList j.idx = false → ∀ x next, j.tile = some x → (x.cm, x.cn) = m.cTile j.idx →
              j.chunk = none → nextPoint m.levels.toList j.idx = some next →
              exec (.matrixStep d c) s = .next (s.modTask i fun t =>
                let tile : Tile := { x with rows := s.tileStep m g pa pb j.idx x.rows }
                { t with job := { t.job with tile := some tile, steps := j.steps + 1, chunk := none, idx := next } }))
            ∧ (g.fmt = .ab4 → j.released = true → s.stackBlocked s.issued j.order false j.ranges [] = false → j.chunk = none → exec (.atbankChunkReturn d c j.steps) s
                = .next (s.modTask i fun t => { t with job := { t.job with chunk := some (s.chunkRows m g pa pb j.idx) } })))

/-- R277, R279, R286, R288, R289, R298: a step of the engine, at any point of any job. The tile of the point is the one that the engine holds, or that is written back
and the point's own read; the step adds the profile's sums to it, or under .ab4 the rows of the chunk. A point that drains writes the drained rows to the tile, or to the
result queue, which must have room for them, and clears the tile where the drain says so. The nest then goes on to its next point, or the job is done and its
tile written back. -/
def MatrixSteps : Prop :=
  ∀ (s : State) (d c i : Nat) (g : Grant) (a b : Operand), s.runningJob d c = some i → (s.task i).die = d → (s.task i).core = c →
    (s.task i).active.grant = some g → (s.task i).active.usable = some (a, b) →
    let t := s.task i
    let m := t.active
    let j := t.job
    let pa := m.path g a b false a.h
    let pb := m.path g a b true b.h
    let queue := m.drain.toNat / 2 ^ 16 % 8
    let toQueue := m.drain.getLsbD 15
    let drains := drainsAt m.levels.toList j.idx
    let full := drains && toQueue && decide (96 < ((s.core d c).rq queue).rows.length + 48)
    let at_ := m.cTile j.idx
    let same := match j.tile with
      | some x => decide (x.cm = at_.1 ∧ x.cn = at_.2)
      | none => false
    let u := match j.tile with
      | some x => if same then s else s.storeTile t g x
      | none => s
    let old := match j.tile with
      | some x => if same then x else u.loadTile t g at_.1 at_.2
      | none => u.loadTile t g at_.1 at_.2
    let rows := match j.chunk with
      | some k => (old.rows.zip k).map fun p => rowOfF32 (((f32Lanes p.1).zip (f32Lanes p.2)).map fun q => combine q.1 q.2)
      | none => u.tileStep m g pa pb j.idx old.rows
    let out := drainRows m g { old with rows := rows }
    let kept := if !drains then rows else if m.drain.getLsbD 19 then rows.map (fun _ => (0 : Row)) else if toQueue then rows else out
    let w := if drains && toQueue then u.modCore d c fun x => { x with
        rqs := smPut x.rqs queue { x.rq queue with rows := (x.rq queue).rows ++ out.map fun r => { row := r } } } else u
    let after : Job := { j with tile := some { old with rows := kept }, steps := j.steps + 1, chunk := none
                                rotNone := j.rotNone || (drains && decide (m.drain.toNat % 4 = 1 ∧ m.rot.toNat / 64 % 4 = 0)) }
    j.halt = false →
    (full = true → ∃ v, exec (.matrixStep d c) s = .next v ∧ (v.task i).job.state = .parked ∧ (v.task i).job.rqFull = true
      ∧ (v.task i).job.steps = j.steps)
    ∧ (full = false → (g.fmt = .ab4 ↔ j.chunk.isSome = true) → (g.fmt ≠ .ab4 → s.stepBad m g pa pb j.idx = none) →
        (same = false → ∀ k < 48, u.poisoned (u.tileRowAddr t g at_.1 at_.2 k) 256 = false) →
        (drains = true → toQueue = true → (s.core d c).relays = [] ∧ ∀ x ∈ s.cmds, ∀ q, x.kind ≠ .cpyr q) →
        (∀ next, nextPoint m.levels.toList j.idx = some next →
          exec (.matrixStep d c) s = .next (w.modTask i fun t => { t with job := { after with idx := next } }))
        ∧ (nextPoint m.levels.toList j.idx = none → ∃ v, exec (.matrixStep d c) s = .next v
            ∧ v.mem = (w.storeTile t g { old with rows := kept }).mem
            ∧ (v.task i).job = { after with tile := none, state := .done, halt := false, ranges := [], flushed := false, released := false }))

/-- R326 to R330: an armed entry whose condition holds fires; a firing entry reads its source, and then its bytes land at its destination, where they count on
a barrier if the card says so, or leave as one contribution to a fold. That the source is read in one step after the firing, and that the bytes land line by line
from the lowest address up, is a reading of the model (log 35): R307 gives chunks no order. -/
def RelayEvents : Prop :=
  ∀ (s : State) (d c e : Nat), s.memWf = true →
    let r := (s.core d c).relay e
    (s.relayReady d c e = true → ∃ t, exec (.relayTimeFire d c e) s = .next t
      ∧ (((t.core d c).relay e).state = .firing ∨ ((t.core d c).relay e).state = .done))
    ∧ (r.state = .firing → r.loaded = false → r.kind ≠ 2 → r.hs.valid = true → r.hs.lo.toNat ≤ r.soff → r.soff + r.len ≤ r.hs.last.toNat + 1 →
        s.chunkWaits d (r.hs.at r.soff) r.len false = false → (r.hs.claim = true → s.claimMet (r.hs.at r.soff) r.len = false) →
        s.poisoned (r.hs.at r.soff) r.len = false → ∃ t, exec (.relayDelivery d c e) s = .next t
          ∧ (t.core d c).relay e = { r with loaded := true, data := s.outerBytes (r.hs.at r.soff) r.len, dataLen := r.len, sent := 0 })
    ∧ (r.state = .firing → r.loaded = true → r.kind = 1 → r.hd.valid = true → r.sent = 0 →
        let launch := (s.task r.task).launch
        let addr := r.hd.at r.dst
        s.holdRoom launch d addr ((r.len + 63) / 64) = true → s.gangDrops launch d addr = false → ∃ t m, exec (.relayDelivery d c e) s = .next t
          ∧ t.mem = s.mem ∧ t.foldMsgs = s.foldMsgs ++ [m] ∧ m.launch = launch ∧ m.det = (s.launch launch).det ∧ m.no = s.sent
          ∧ m.id.addr = addr ∧ m.id.len = r.len / 4 ∧ (m.id.bf16 = true ↔ r.card.toNat / 2 ^ 387 % 2 ^ 4 = 5)
          ∧ m.id.nrank = r.card.toNat / 2 ^ 288 % 2 ^ 16 ∧ m.part.rank = r.card.toNat / 2 ^ 304 % 2 ^ 16
          ∧ m.part.data = (List.range (r.len / 4)).map (fun k => r.data / 2 ^ (32 * k) % 2 ^ 32)
          ∧ (t.core d c).relay e = { r with sent := 1 })
    ∧ (r.state = .firing → r.loaded = true → r.kind ≠ 1 → r.hd.valid = true → r.hd.lo.toNat ≤ r.dst → r.dst + r.dataLen ≤ r.hd.last.toNat + 1 →
        r.sent < r.dataLen → r.card.getLsbD 393 = false →
        let pa := r.hd.at (r.dst + r.sent)
        let n := min (r.dataLen - r.sent) (64 - pa % 64)
        s.gangHolds (s.task r.task).launch d pa = false → s.chunkWaits d pa n true = false → s.gangDrops (s.task r.task).launch d pa = false →
        s.claimBars pa r.hd.claim = false →
        (isHbm pa = true → r.card.getLsbD 395 = false → ∃ t, exec (.relayDelivery d c e) s = .next t ∧ BytesAre s t pa n (r.data / 2 ^ (8 * r.sent)))
        ∧ (isWindow pa = true → s.onDie (paDie pa) pa = true → s.holder pa ≠ none → r.card.getLsbD 395 = true → coreKey (paDie pa) (paCore pa) ≠ coreKey d c →
            (s.core (paDie pa) (paCore pa)).relays = [] → (s.core (paDie pa) (paCore pa)).issuing = none →
            let k := r.card.toNat / 2 ^ 396 % 2 ^ 6
            let old := (s.core (paDie pa) (paCore pa)).cb k
            let launch := (s.task r.task).launch
            (old.owner = none ∨ old.owner = some launch) →
            ∃ t, exec (.relayDelivery d c e) s = .next t ∧ BytesAre s t pa n (r.data / 2 ^ (8 * r.sent))
              ∧ (t.core (paDie pa) (paCore pa)).cb k = { countedDown old n with owner := some launch }))

/-! ### Copies, stack commands and folds -/

/-- R307 to R311, R316: a copy or an assay command starts when its time has come; a chunk puts the values of its positions into its line, in each window that a multicast
names; an acknowledgement from a home is counted on the card's barrier. That one chunk writes every position of a destination line, and reads their sources as it
moves, is a reading of the model (log 34): R307 says only that a chunk lies within one line. -/
def CopyEvents : Prop :=
  ∀ (s : State) (i ticket : Nat) (x : Cmd), s.cmdOf i ticket = some x →
    (x.started = false → ((x.kind ∈ [CmdKind.cpy, .cpym, .cpyc] ∨ ∃ q, x.kind = .cpyr q) → (copyCard x.card).notBefore ≤ s.time x.die) →
      exec (.copyStart i ticket) s = .next { s with
        issued := s.issued + 1, sent := s.sent + 1
        cmds := s.cmds.map fun y => if y.id = x.id then { y with started := true, order := s.issued, no := s.sent } else y })
    ∧ (x.started = true → x.stop = none → x.count ≠ 0 → s.stackReady x = true → s.cmdDone x = false → ∀ line < x.lines, line ∉ x.moved →
        let l := s.linePieces x line 0
        let places := x.places line
        l ≠ [] → (∀ p ∈ l, x.present p = true) →
        (∀ p ∈ l, p.edge = false → ∀ n w, p.row = some n → x.rowsIn[n]? = some w → w.poison = false) →
        (∀ r ∈ x.srcPa l, s.cmdWaits x r.1 r.2 false = false) → s.firstBad x.hs (l.flatMap (·.reads)) = none →
        (∀ p ∈ places, s.gangHolds x.launch x.die p = false ∧ s.gangDrops x.launch x.die p = false ∧ s.cmdWaits x p 64 true = false
          ∧ s.claimBars p x.hd.claim = false ∧ (isWindow p = true → s.onDie (paDie p) p = true → s.holder p ≠ none)) →
        ∃ t, exec (.copyChunk i ticket line) s = .next t ∧ ∀ a, memByte t.mem a =
          match places.find? (fun p => decide (p ≤ a) && decide (a < p + 64)) with
          | some p => match (x.lineBytes line l).getD (a - p) none with
            | some v => BitVec.ofNat 8 v
            | none => memByte s.mem a
          | none => memByte s.mem a)
    ∧ ∀ k y, x.unacked.find? (fun y => y.line = k) = some y → s.responseWaits x.die y.pa y.no = false →
        ∃ t, exec (.copyChunkAck i ticket k) s = .next t ∧ t.mem = s.mem
          ∧ (∀ z ∈ t.cmds, z.id = x.id → ∃ z0 ∈ s.cmds, z0.id = x.id ∧ z.unacked = z0.unacked.erase y)
          ∧ ∀ n, x.barrier = some n → (s.core x.die x.core).relays = [] → (s.core x.die x.core).issuing = none →
              let old := (s.core x.die x.core).cb n
              (old.owner = none ∨ old.owner = some x.launch) →
              let len := x.chunkLen k ((s.linePieces x k 0).filter x.present)
              (t.core x.die x.core).cb n = { countedDown old len with owner := some x.launch }

/-- R113, R397: a die's flush engine takes the oldest waiting command and writes its dirty lines back, and the command then goes to its stack. -/
def FlushEvents : Prop :=
  ∀ (s : State) (d : Nat) (x : Cmd), (∀ y ∈ s.cmds, y.id = x.id → y = x) → x ∈ s.cmds →
    (s.flushBusy d = false → s.flushQueue d = [(x.order, Sum.inl x.id)] → exec (.flushCommand d) s
      = .next { s with dirty := s.dirty.filter (fun l => !rangeOn (x.reads ++ x.writes) l 64),
                       cmds := s.cmds.map fun y => if y.id = x.id then { y with flushed := true } else y })
    ∧ (x.flushed = true → (∃ r ∈ x.reads ++ x.writes, paDie r.1 = d) → ∃ t, exec (.stackCommandRelease d) s = .next t ∧ t.mem = s.mem
        ∧ ∀ y ∈ t.cmds, y.id = x.id → y.released = true)

/-- R332: a block of a tend: the new main value quantises old main + old residual + update, and the new residual what that leaves. -/
def TendEvent : Prop :=
  ∀ (s : State) (n : Nat) (x : Cmd), s.cmds[n]? = some x → x.kind = .stend → x.answer = none → s.stackReady x = true →
    s.gangDrops x.launch x.die x.target = false →
    let k := x.card
    let b := x.blocks
    let h := x.hd
    let u : Nat := if field k 347 344 = 5 then 2 else 4
    let mo : Int := field k 50 0 + 32 * b
    let ms : Int := field k 114 64 + b
    let ro : Int := field k 178 128 + 32 * b
    let rs : Int := field k 242 192 + b
    let uo : Int := field k 306 256 + (32 * b * u : Nat)
    s.firstBad h [(mo, 32), (ms, 1), (ro, 32), (rs, 1), (uo, (32 * u : Nat))] = none →
    let upd := (List.range 32).map fun j => decodeF (if field k 347 344 = 5 then .bf16 else .f32) (s.viewBytes h (uo + (j * u : Nat)) u)
    let new := tendBlock (s.mxBlock8 h mo ms) (s.mxBlock8 h ro rs) upd
    let at_ := fun (o : Int) => (h.phys (o, o)).1.toNat
    ∃ t, exec (.tendBlock n) s = .next t
      ∧ t.mem = memWrite (memWrite (memWrite (memWrite s.mem (at_ mo) 32 (packCodes 8 new.1.codes)) (at_ ms) 1 new.1.scale)
          (at_ ro) 32 (packCodes 8 new.2.codes)) (at_ rs) 1 new.2.scale

/-- R66, R333, R334, R399: a contribution outside deterministic mode is added to its row; in it, the last contribution of a round applies the sum of
all, rank order deciding the tree; one that finds no room waits, and is taken when there is room; an sflush applies the oldest round with −0 for the ranks that have
not arrived. That the values of sfold are read from the scratchpad when its message arrives is a reading of the model (log 42), and that a staged contribution
changes no byte of memory is its choice (log 43). -/
def FoldEvents : Prop :=
  ∀ (s : State) (n : Nat) (m : FoldMsg), s.foldMsgs[n]? = some m →
    let need := m.id.len * m.id.nrank * 4
    let st := stackOf m.id.addr
    let sum := fun (l : List Contribution) => (s.addRun m.id fun i => pairTree ((List.range m.id.nrank).map fun k => leafOf l k i)).mem
    (m.waiting = false → s.mayArrive m n = true → s.gangDrops m.launch (s.msgDie m) m.id.addr = false →
      (m.isFlush = false → (m.part.relay = none → m.part.data = [] → s.poisoned m.src (4 * m.id.len) = false) → s.runHeld m.id = false →
        let data := if m.part.relay = none ∧ m.part.data = [] then words32 (s.outerBytes m.src (4 * m.id.len)) (4 * m.id.len) else m.part.data
        let part : Contribution := { m.part with data := data }
        (m.det = false → s.foldBad m.id m.part.claim = none → ∃ t, exec (.foldContribution n) s = .next t
          ∧ t.mem = (s.addRun m.id fun i => f32 (data.getD i 0)).mem)
        ∧ (m.det = true → (∀ r ∈ s.rounds, r.id ≠ m.id) → m.id.nrank ≠ 1 → s.stagingUsed st + need ≤ s.stagingBytes st.1 st.2 →
            (∀ y ∈ s.foldMsgs, y.waiting = false) → ∃ t, exec (.foldContribution n) s = .next t ∧ t.mem = s.mem
              ∧ t.rounds = s.rounds ++ [{ id := m.id, reserved := need, parts := [part] }])
        ∧ (m.det = true → ∀ r, s.rounds = [r] → r.id = m.id → (∀ p ∈ r.parts, p.rank ≠ m.part.rank) → r.parts.length + 1 = m.id.nrank →
            s.foldBad m.id ((r.parts ++ [part]).any (·.claim)) = none → ∃ t, exec (.foldContribution n) s = .next t ∧ t.rounds = []
              ∧ t.mem = sum (r.parts ++ [part])))
      ∧ (m.isFlush = true →
          (m.det = true → ∀ r, s.rounds = [r] → r.id = m.id → s.foldBad m.id (m.part.claim || r.parts.any (·.claim)) = none →
            ∃ t, exec (.foldContribution n) s = .next t ∧ t.rounds = [] ∧ t.mem = sum r.parts)
          ∧ (m.det = false ∨ (∀ r ∈ s.rounds, r.id ≠ m.id) → ∃ t, exec (.foldContribution n) s = .next t ∧ t.rounds = s.rounds ∧ t.mem = s.mem)))
    ∧ (m.waiting = true → s.runHeld m.id = false → (∀ y ∈ s.foldMsgs.take n, y.waiting = false) → (∀ r ∈ s.rounds, r.id ≠ m.id) → m.id.nrank ≠ 1 →
        s.stagingUsed st + need ≤ s.stagingBytes st.1 st.2 → ∃ t, exec (.foldStagingTake n) s = .next t
          ∧ t.rounds = s.rounds ++ [{ id := m.id, reserved := need, parts := [m.part] }])

/-! ### Homes -/

/-- The event x at a home in s leads to s', where the home has done what the waiting bundle of task i asks and answered: the task's bundle is performed with it.
Where the bundle then traps or parks, or fails the decoder, the request is withdrawn, as in s0; where something of it waits, nothing is done (R125, R338). That the
home acts in one step with the whole bundle, and by the rank of its stops, is a reading of the model (log 44). -/
def BundleFollows (x : Instr) (s s0 s' : State) (i : Nat) : Prop :=
  (∀ u, s'.runWaiting i = .ok u → exec x s = .next u)
    ∧ (∀ e, s'.runWaiting i = .error (some e) → exec x s = .next (if e.rank < 2 then s0 else s))
    ∧ (s'.runWaiting i = .error none → exec x s = .next s0)

/-- R105, R122, R123, R125, R142, R418: a store that nothing holds back changes its own bytes and leaves the list; a store of an aborted gang is dropped; a load
is served and its task gets the bytes; an atomic changes its bytes and is performed together with the bundle that holds it (log 44). That a load or an atomic of
a poisoned line is withdrawn, so that its bundle meets the poison itself, is a reading of the model (log 40). -/
def HomeAccesses : Prop :=
  ∀ (s : State) (n : Nat), s.memWf = true →
    (∀ x, s.stores[n]? = some x → s.storeReady n x = true →
      (s.gangDrops x.launch x.die x.pa = false → ∃ t, exec (.storePerform n) s = .next t ∧ t.stores = without s.stores n
        ∧ BytesAre s t x.pa x.len x.data
        ∧ ∀ i, t.task i = { s.task i with shadow := (t.task i).shadow, shadowBad := (t.task i).shadowBad, level := (t.task i).level })
      ∧ (s.gangDrops x.launch x.die x.pa = true → exec (.storePerform n) s = .next { s with stores := without s.stores n }))
    ∧ (∀ r, s.loads[n]? = some r →
        s.loadStands r.die r.core r.pa r.len r.hint r.cache (some r.no) = false →
        (s.meetsPoison r.die r.core r.pa r.len r.hint r.cache = true → exec (.loadServe n) s = .next { s with loads := without s.loads n })
        ∧ (s.meetsPoison r.die r.core r.pa r.len r.hint r.cache = false → ∃ t v, exec (.loadServe n) s = .next t ∧ t.loads = without s.loads n
            ∧ (t.task r.task).reply = some (r.pa, r.len, v) ∧ t.mem = s.mem ∧ (r.cache = false → v = memRead s.mem r.pa r.len)))
    ∧ ∀ r, s.atomics[n]? = some r →
        s.atomicWaits (s.task r.task).launch (s.task r.task).die (s.task r.task).core r.pa r.kind.bytes (some r.no) = false →
        let s0 : State := { s with atomics := without s.atomics n }
        let old := memRead s.mem r.pa r.kind.bytes
        (s.poisoned r.pa r.kind.bytes = true ∨ (r.claim = true ∧ s.tag r.pa ≠ .value) → exec (.atomicPerform n) s = .next s0)
        ∧ (s.poisoned r.pa r.kind.bytes = false → (r.claim = true → s.tag r.pa = .value) → ∃ s', BundleFollows (.atomicPerform n) s s0 s' r.task
            ∧ s'.atomics = without s.atomics n ∧ (s'.task r.task).reply = some (r.pa, r.kind.bytes, old)
            ∧ (∀ op w32 v, r.kind = .amo op w32 v → BytesAre s s' r.pa (if w32 then 4 else 8)
                (amoNew op (if w32 then 32 else 64) old (v.toNat % 2 ^ (if w32 then 32 else 64)))))

/-- R242, R360, R361: a deterministic update takes its place at its home, with the bundle that holds it, or waits for one; a waiting one is accepted when there
is room, unless its cell refuses it by then; an epoch that is due is applied and its updates are freed. An update whose cell is not VALUE by then changes
nothing, which is a choice of the model (log 90). -/
def HomeUpdates : Prop :=
  ∀ (s : State) (n : Nat),
    (∀ u, s.famoSent[n]? = some u →
      let k := (famoFmt u.ty).width / 8
      let s0 : State := { s with famoSent := without s.famoSent n }
      s.atomicWaits u.launch (s.task u.task).die (s.task u.task).core u.pa k (some u.no) = false →
      (s.poisoned u.pa k = true ∨ (u.claim = true ∧ s.tag u.pa ≠ .value) → exec (.famoHold n) s = .next s0)
      ∧ (s.poisoned u.pa k = false → (u.claim = true → s.tag u.pa = .value) →
          (s.famoRoom u.pa u.launch = true → ∃ s' v, BundleFollows (.famoHold n) s s0 s' u.task ∧ s'.famoSent = without s.famoSent n
            ∧ s'.updates = s.updates ++ [v] ∧ v = { u with spilled := v.spilled, place := v.place } ∧ (s'.task u.task).reply = some (u.pa, 0, 0))
          ∧ (s.famoRoom u.pa u.launch = false → exec (.famoHold n) s
              = .next { s with famoSent := without s.famoSent n, famoWait := s.famoWait ++ [u] })))
    ∧ (∀ u, s.famoWait[n]? = some u → s.replyWaits (s.task u.task).die u.pa = false → s.famoRefused u = true →
        exec (.famoAccept n) s = .next { s with famoWait := without s.famoWait n })
    ∧ (∀ u, s.famoWait[n]? = some u → s.replyWaits (s.task u.task).die u.pa = false → s.poisoned u.pa ((famoFmt u.ty).width / 8) = false →
        (u.claim = true → s.tag u.pa = .value) → s.famoRoom u.pa u.launch = true →
        ∃ s' v, BundleFollows (.famoAccept n) s { s with famoWait := without s.famoWait n } s' u.task ∧ s'.famoWait = without s.famoWait n
          ∧ s'.updates = s.updates ++ [v] ∧ v = { u with spilled := v.spilled, place := v.place } ∧ (s'.task u.task).reply = some (u.pa, 0, 0))
    ∧ ∀ e, s.dueEpochs[n]? = some e →
        let mine := fun (u : Update) => u.domain = e.1 ∧ u.ep = e.2
        ∃ t, exec (.epochApply n) s = .next t ∧ (∀ u, u ∈ t.updates ↔ u ∈ s.updates ∧ ¬ mine u)
          ∧ (∀ a, (∀ u ∈ s.updates, mine u → ¬ (u.pa ≤ a ∧ a < u.pa + (famoFmt u.ty).width / 8)) → memByte t.mem a = memByte s.mem a)
          ∧ ∀ u, s.updates.filter (fun u => decide (u.domain = e.1) && decide (u.ep = e.2)) = [u] →
              (s.poisoned u.pa ((famoFmt u.ty).width / 8) = false → (u.claim = true → s.tag u.pa = .value) →
                BytesAre s t u.pa ((famoFmt u.ty).width / 8) (famoApply u.op u.ty (memRead s.mem u.pa ((famoFmt u.ty).width / 8)) u.v.toNat))
              ∧ (u.claim = true → s.tag u.pa ≠ .value → t.mem = s.mem)

/-- R119, R169 to R172: the first touch of a STAKED cell makes it WORKING and creates its evaluator; a later one waits with its level and timeout; a waiter
whose time is over, or that waits for itself, takes its trap. -/
def ClaimEvents : Prop :=
  ∀ (s : State) (n : Nat) (r : ClaimReq), s.claimReqs[n]? = some r → s.claimHeld r = false →
    (∀ st, s.tag r.cell = .staked → s.poisoned r.cell 64 = false → (s.die (paDie r.cell)).claims.length < 1024 →
      (s.die (paDie r.cell)).stakes.find? (fun x => x.cell = r.cell) = some st → ∃ t w, exec (.claimFirstTouch n) s = .next t ∧ t.tag r.cell = .working
        ∧ t.claimReqs = without s.claimReqs n ∧ w.task = r.task ∧ w.level = r.level
        ∧ (r.task ≠ s.freshTask → w.since = if r.stuck then s.time (s.task r.task).die else (s.task r.task).parkTime)
        ∧ (t.task s.freshTask).evalCell = some r.cell ∧ (t.task s.freshTask).status = .queued
        ∧ (t.task s.freshTask).launch = st.launch ∧ (t.task s.freshTask).die = paDie r.cell
        ∧ (t.die (paDie r.cell)).claims = (s.die (paDie r.cell)).claims ++ [{ cell := r.cell, evaluator := s.freshTask, waiters := [w] }])
    ∧ (∀ e, s.tag r.cell = .working → s.claimEntry r.cell = some e →
        (r.cell ∉ (s.task r.task).ancestry → s.waiterRoom e = true → ∃ t w, exec (.claimWaiterAdd n) s = .next t ∧ t.claimReqs = without s.claimReqs n
          ∧ w.task = r.task ∧ w.level = r.level ∧ w.since = (if r.stuck then s.time (s.task r.task).die else (s.task r.task).parkTime) ∧ t.claimEntry r.cell = some { e with waiters := e.waiters ++ [w] })
        ∧ (r.cell ∈ (s.task r.task).ancestry → ∃ t, exec (.claimWaiterAdd n) s = .next t
            ∧ WillTrap s t r.task { code := 0x0A, addr := (s.task r.task).claimVa }))

/-- R119, R171, R172: a waiter whose time is over takes CLAIM_TIMEOUT, and one that keeps back a task of its evaluator's tree, or one that such a task needs,
takes CLAIM_SELF, when it next issues. -/
def ClaimWaitEnds : Prop :=
  ∀ (s : State) (i : Nat) (cell : Nat) (w : Waiter), s.waitOf i = some (cell, w) →
    (w.timeout ≠ 0 → w.since + w.timeout < s.time (s.task i).die → ∃ t, exec (.claimTimeout i) s = .next t
      ∧ WillTrap s t i { code := 0x0C, addr := (s.task i).claimVa })
    ∧ ∀ e u, s.claimEntry cell = some e → u ∈ s.tasks →
        (s.inTree e.evaluator u.1 = true ∨ ∃ v ∈ s.tasks, s.inTree e.evaluator v.1 = true ∧ s.neededBy [v.1] u.1 = true) → s.keepsBack i u.1 = true →
        ∃ t, exec (.claimSelfDetect i) s = .next t ∧ WillTrap s t i { code := 0x0A, addr := (s.task i).claimVa }

/-! ### The scheduler -/

/-- R151, R157, R359: a core admits its next task with its entry's extents, and an idle core switches to its next task in 64 clocks. -/
def TasksComeIn : Prop :=
  ∀ (s : State) (d c i : Nat),
    (∀ p, s.nextAdmitted d c = some i → s.placeOn d c (s.task i).launch (s.entryOf i) = some p → ∃ t, exec (.taskAdmission d c i) s = .next t
      ∧ (t.task i).status = .admitted ∧ (t.task i).spadBase = p.1 ∧ (t.task i).bankBase = p.2.1 ∧ (t.task i).rowBase = p.2.2
      ∧ (t.task i).spadSize = (s.entryOf i).spad4k * 4096 ∧ (t.task i).bankCount = (s.entryOf i).banks ∧ (t.task i).rowCount = (s.entryOf i).rows64 * 64
      ∧ (t.task i).cwtDirty = false)
    ∧ ((s.core d c).issuing = none → (s.markLeaving d).nextTask d c = some i → ∃ t, exec (.taskSwitch d c) s = .next t
        ∧ (t.core (s.task i).die (s.task i).core).issuing = some i ∧ (t.core (s.task i).die (s.task i).core).switchDone = s.clock + 64
        ∧ (t.task i).status = .issuing ∧ (t.task i).started = true ∧ (t.task i).latches = {} ∧ (t.task i).live = (s.task i).live)

/-- R156, R158, R164, R165: an exchange moves movable tasks alone, between cores of their die; a shift boundary is noted, and starts a shift that the rotation of
the launch names, unless one is open; the members of a group that is to leave get a pre-emption request where they issue. -/
def ExchangesAndShifts : Prop :=
  ∀ (s : State) (d launch : Nat),
    ((s.die d).balancing = true → (s.die d).lastExchange + 256 ≤ s.clock → ∃ t, exec (.balancingExchange d) s = .next t
      ∧ (t.die d).lastExchange = s.clock ∧ (t.die d).parity = !(s.die d).parity ∧ t.mem = s.mem
      ∧ ∀ i, (t.task i).key = (s.task i).key ∧ (t.task i).die = (s.task i).die
          ∧ ((∀ x ∈ s.tasks, x.1 = i → s.movable x.2 = false) → t.task i = s.task i))
    ∧ (smGet 0 (s.die d).lastShift launch + (s.die d).shiftLen ≤ (s.die d).time →
        let u := (s.noteShift d launch).modDie d fun x => { x with lastShift := smPut x.lastShift launch x.time, shifts := s.openShifts d }
        let v := u.modDie d fun x => { x with rotation := smErase x.rotation launch }
        ((∃ y ∈ s.openShifts d, y.launch = launch) → exec (.shiftBoundary d launch) s = .next (u.markLeaving d))
        ∧ ((∀ y ∈ s.openShifts d, y.launch ≠ launch) →
            (u.rotationOf d launch = none → exec (.shiftBoundary d launch) s = .next (v.markLeaving d))
            ∧ ∀ g w, u.rotationOf d launch = some (g, w) → exec (.shiftBoundary d launch) s = .next (State.markLeaving
                (v.modDie d fun x => { x with shifts := x.shifts ++ [{ launch := launch, out := g.head?, into := w.headD 0 }] }) d)))
    ∧ ∀ i t, smFind s.tasks i = some t →
        let idle := (s.die d).shifts = [] ∧ s.gangs = [] ∧ ∀ e ∈ s.tasks, e.2.leaving = false
        let u := s.modDie d fun x => { x with shifts := s.openShifts d }
        (idle → s.markLeaving d = s)
        ∧ (t.die ≠ d → (s.markLeaving d).task i = t)
        ∧ (¬ idle → t.die = d → (∃ g ∈ u.allGroups d, u.groupGoes d g = true ∧ i ∈ g) →
            (s.markLeaving d).task i = { t with leaving := true, preempt := t.preempt || decide (t.status = .issuing) })
        ∧ (¬ idle → t.die = d → (∀ g ∈ u.allGroups d, u.groupGoes d g = true → i ∉ g) → (s.markLeaving d).task i = { t with leaving := false })

/-- R31, R164: a stopped group that a shift sends out is swapped out, each task to a frame of its own; a swapped group comes back to its extents. -/
def GroupSwaps : Prop :=
  ∀ (s : State) (d launch group : Nat), (s.task group).die = d → (s.task group).launch = launch →
    (∀ u, s.groupGoes d (s.group group) = true → s.groupLeaves (s.group group) = true → s.groupStopped (s.group group) = true →
      s.placeFrames (s.group group) = some u → ∃ t, exec (.groupSwapOut d launch group) s = .next t
        ∧ ∀ i ∈ s.group group, (t.task i).status = .swapped ∧ (t.task i).swapFrame = (u.task i).swapFrame)
    ∧ ∀ u, s.outside (s.group group) ≠ [] → (∀ x ∈ s.openShifts d, x.launch = launch → x.into ∈ s.group group) → s.bringIn (s.outside (s.group group)) = some u →
        exec (.groupSwapIn d launch group) s = .next (u.markLeaving d)
        ∧ ∀ i ∈ s.outside (s.group group), (u.task i).status = .parked ∨ (u.task i).status = .ready

/-- R132, R251, R361: a crew round or an epoch that can never end: its waiting tasks take their trap when they next issue. -/
def Deadlocks : Prop :=
  ∀ (s : State) (launch crew n e m a : Nat),
    (let c := (s.launch launch).crew crew
     a ∈ c.arrived → m ∈ c.members → (s.task a).evalCell = none → (s.task m).evalCell = none → ((s.task m).status = .queued ∨ (s.task m).status = .pending) → (s.task a).key.ult (s.task m).key = true →
      s.heldBehind m a = true → ∃ t, exec (.crewDeadlock launch crew) s = .next t ∧ ((t.launch launch).crew crew).arrived = []
        ∧ ∀ i ∈ c.arrived, (t.task i).arrival = none ∧ WillTrap s t i { code := 0x15, info := crew })
    ∧ (s.openEpoch n = some e → s.epochStuck n e = true → ∃ t, exec (.epochDeadlock n) s = .next t
        ∧ ∀ i ∈ s.openParts n e ++ s.epochWaiters n e, WillTrap s t i { code := 0x16 })

/-! ### Translation and migration -/

/-- R390: a walk that ends at a leaf sets its accessed bit, fills the die's translation cache and ends; one that ends at a fault waits for firmware, which
writes the entry and lets the walk repeat. -/
def WalkEvents : Prop :=
  ∀ (s : State) (n : Nat) (w : Walk), s.memWf = true → s.walks[n]? = some w →
    (w.faulted = false → w.dead = false → s.walkPlace n w < 32 →
      (∀ e level x seen, s.walk w.launch w.seg w.off = (.leaf e level x, seen) → ∃ t x', exec (.walkComplete n) s = .next t
        ∧ (memByte t.mem e).getLsbD 0 = true ∧ (∀ a, ¬ (e ≤ a ∧ a < e + 8) → memByte t.mem a = memByte s.mem a)
        ∧ (w.launch, w.seg, w.off / pageSize level * pageSize level, decide (level = 1), x') ∈ (t.die w.die).tlb ∧ leafFrame x' = leafFrame x
        ∧ w ∉ t.walks)
      ∧ (∀ e level x seen, s.walk w.launch w.seg w.off = (.fault e level x, seen) → ∃ t, exec (.walkComplete n) s = .next t
          ∧ t.walks = s.walks.set n { w with faulted := true } ∧ t.mem = s.mem))
    ∧ (∀ e level x seen entry, w.faulted = true → s.walk w.launch w.seg w.off = (.fault e level x, seen) → entryKind x = 0 →
        (entryKind (BitVec.toNat entry) = 1 ∨ entryKind (BitVec.toNat entry) = 2) → ∃ t, exec (.pageFaultResolve n entry) s = .next t
          ∧ BytesAre s t e 8 (BitVec.toNat entry) ∧ t.walks = s.walks.set n { w with faulted := false })

/-- R93, R393 to R395: firmware marks a leaf and revokes its frame; a core gives up its handles and acknowledges; the frame's bytes are then copied and the
migration ends. -/
def MigrationEvents : Prop :=
  ∀ (s : State) (leaf dst : Nat), s.memWf = true →
    let e := leaf / 8 * 8
    let size := if leaf % 2 = 1 then 2 ^ 21 else 2 ^ 16
    let w := memRead s.mem e 8
    let src := leafFrame w
    (entryKind w = 2 → flag w 5 = false → flag w 4 = false → s.frameTakes src size dst = true → s.frameFixed src size = false →
        ∃ t, exec (.migrateFrame leaf dst) s = .next t
        ∧ BytesAre s t e 8 (w + 32) ∧ t.migrations = s.migrations ++ [{ leaf := leaf, src := src, dst := dst, size := size, waitCores := s.revokedCores }])
    ∧ (∀ d c frame m, s.revoking d c frame = some m → (∀ i, (s.core d c).issuing = some i → s.engaged i = false) →
        (∀ i, (s.task i).withheld = []) → (s.revokeCore d c frame m.size).frameBusy d c frame m.size = false → ∃ t, exec (.handleRevoke d c frame) s = .next t
          ∧ (∀ x ∈ t.migrations, x.src = frame → (d, c) ∉ x.waitCores)
          ∧ ∀ i, (i, s.task i) ∈ s.tasks → (s.task i).die = d → (s.task i).core = c → (s.task i).status ≠ .ended → ∀ k : Fin 16,
              let h := (s.task i).live.h[k]
              h.valid = true → h.pinned = false → frame ≤ h.pa.toNat → h.pa.toNat < frame + m.size →
                (t.task i).live.h[k] = { h with valid := false, revoked := true })
    ∧ (∀ n m, s.migrations[n]? = some m → m.leaf = leaf → m.src = src → m.size = size → m.dst = dst → m.waitCores = [] →
        (∀ x ∈ s.cmds, anyMeet (x.reads ++ x.writes) [(src, size)] = false) → (e + 8 ≤ dst ∨ dst + size ≤ e) → ∃ t, exec (.migrationCopy n []) s = .next t ∧ m ∉ t.migrations
          ∧ (∀ k < size, memByte t.mem (dst + k) = memByte s.mem (src + k)))

/-- R390, R393: firmware saves a page to a swap area: its bytes are kept there and its leaf is no longer resident. -/
def PageOutEvent : Prop :=
  ∀ (s : State) (leaf save n : Nat) (l : Launch), s.memWf = true → (n, l) ∈ s.launches → l.alive = true →
    let e := leaf / 8 * 8
    let size := if leaf % 2 = 1 then 2 ^ 21 else 2 ^ 16
    let w := memRead s.mem e 8
    let src := leafFrame w
    let u := allCores.foldl (fun s k => s.revokeCore k.1 k.2 src size) s
    entryKind w = 2 → flag w 5 = false → flag w 4 = false → s.frameFixed src size = false → s.swapFree n save size = true → save % 65536 = 0 →
    (∀ k ∈ allCores, ∀ i, (s.core k.1 k.2).issuing = some i → s.engaged i = false) → (∀ k ∈ allCores, u.frameBusy k.1 k.2 src size = false) →
    (∀ i, (s.task i).withheld = []) → (e + 8 ≤ save ∨ save + size ≤ e) →
    ∃ t, exec (.pageOut leaf save) s = .next t ∧ (∀ k < size, memByte t.mem (save + k) = memByte s.mem (src + k))
      ∧ entryKind (memRead t.mem e 8) = 3

end Sys2Proof.Stated

namespace Sys2Proof.Stated

open Sys2Proof Sys2Proof.Machine

/-! ### Registers and windows of the host -/

/-- The mailbox command of a code with these arguments is before the loader, and no argument past them holds a bit (R381, R382). -/
def Asked (s : State) (cmd : Nat) (args : List Word) : Prop :=
  s.mbHolds cmd args = true ∧ s.mbSpare args.length = true

/-- Records of a ring by its size register: 2 to the size, which is 4 to 16 (R368); a value outside these stands for the nearest (the model's choice, log 19). -/
def ringOf (n : Nat) : Nat := 2 ^ min 16 (max 4 n)

/-- R8, R368, R378: what the driver's writes to the registers of a launch queue do. -/
def QueueRegisters : Prop :=
  ∀ (s : State) (q : Nat) (v : Word), q < 8 →
    let x := s.queue q
    ((v.toNat + 2 ^ 32 - x.qhead) % 2 ^ 32 ≤ ringOf x.qsize → v.toNat < 2 ^ 32 →
      exec (.qtailWrite q v) s = .next (s.modQueue q fun x => { x with qtail := v.toNat }))
    ∧ (ringOf x.qsize < (v.toNat + 2 ^ 32 - x.qhead) % 2 ^ 32 → v.toNat < 2 ^ 32 → ∃ t, exec (.qtailWrite q v) s = .next t
        ∧ (t.queue q).qerr = true ∧ (t.queue q).qtail = v.toNat)
    ∧ (v.getLsbD 0 = true → exec (.qstatClear q v) s = .next (s.modQueue q fun x => { x with qerr := false, qhead := x.qtail }))
    ∧ (v.getLsbD 0 = false → exec (.qstatClear q v) s = .next s)
    ∧ (x.waiting = [] → v.toNat < 2 ^ 32 → exec (.cheadWrite q v) s = .next (s.modQueue q fun x => { x with chead := v.toNat }))
    ∧ (x.qhead = x.qtail → exec (.queueConfigWrite q false v) s = .next (s.modQueue q fun x => { x with qbase := v })
        ∧ exec (.queueConfigWrite q true v) s = .next (s.modQueue q fun x => { x with qsize := v.toNat }))
    ∧ (x.qhead ≠ x.qtail → v.toNat ≠ x.qsize → ∃ t, exec (.queueConfigWrite q true v) s = .next t
        ∧ (t.queue q).qerr = true ∧ (t.queue q).qsize = v.toNat)
    ∧ exec (.registerWrite (0x10000 + q * 0x100 + 0x28) v) s = .next (s.modQueue q fun x => { x with cbase := v })
    ∧ exec (.registerWrite (0x10000 + q * 0x100 + 0x30) v) s = .next (s.modQueue q fun x => { x with csize := v.toNat })

/-- R8, R365, R367, R398, R401, R409: what other register writes do: each changes its own register; a locked or an unlisted one only counts the write. -/
def OtherRegisters : Prop :=
  ∀ (s : State) (d n off : Nat) (v : Word), d < 8 → n < 16 →
    exec (.peeridWrite n v) s = .next { s with host := { s.host with
      peers := smPut s.host.peers n { id := v.toNat % 2 ^ 16, valid := v.getLsbD 16, bytes := 0 } } }
    ∧ (∀ st < 2, s.stagingUsed (d, st) = 0 →
        (∃ t, exec (.stagingConfigWrite d st false v) s = .next t ∧ ((t.die d).stack st).fstBase = v ∧ ((t.die d).stack st).fstLen = ((s.die d).stack st).fstLen)
        ∧ ∃ t, exec (.stagingConfigWrite d st true v) s = .next t ∧ ((t.die d).stack st).fstLen = v.toNat % 2 ^ 32
            ∧ ((t.die d).stack st).fstBase = ((s.die d).stack st).fstBase)
    ∧ (∀ st < 2, s.stagingUsed (d, st) ≠ 0 → ∀ b, exec (.stagingConfigWrite d st b v) s
        = .next (s.ignoredWrite d (0x100000 + d * 0x60000 + (if b then 0x40008 else 0x40000) + st * 0x1000)))
    ∧ (s.claimAreaUsed d = 0 →
        (∃ t, exec (.claimAreaWrite d false v) s = .next t ∧ (t.die d).clBase = v ∧ (t.die d).clLen = (s.die d).clLen)
        ∧ ∃ t, exec (.claimAreaWrite d true v) s = .next t ∧ (t.die d).clLen = v.toNat ∧ (t.die d).clBase = (s.die d).clBase)
    ∧ exec (.registerWrite 0x18 v) s = .next { s with host := { s.host with win2Base := v } }
    ∧ exec (.registerWrite 0 v) s = .next s
    ∧ (0x48 ≤ off → off < 0x10000 → exec (.registerWrite off v) s = .next (s.ignoredWrite 0 off))
    ∧ (∀ k : Fin 4, exec (.registerWrite (0x20008 + 8 * k.val) v) s = .next { s with host := { s.host with
        mailbox := { s.host.mailbox with arg := s.host.mailbox.arg.set k v } } })
    ∧ (s.host.mailbox.busy = false → 1 ≤ v.toNat → v.toNat ≤ 7 → exec (.registerWrite 0x20000 v) s = .next { s with host := { s.host with
        mailbox := { s.host.mailbox with cmd := v, busy := true } } })
    ∧ (s.bootLocked = false → exec (.registerWrite (0x100000 + d * 0x60000 + 0x43000) v) s = .next (s.modDie d fun x => { x with moduleId := v.toNat % 2 ^ 10 }))
    ∧ (s.bootLocked = true → exec (.registerWrite (0x100000 + d * 0x60000 + 0x43000) v) s = .next (s.ignoredWrite d (0x100000 + d * 0x60000 + 0x43000)))

/-- R113, R366, R367: a read or a write of one line through BAR2, where no earlier access waits; a line that a stack command holds makes the access wait at its
home; a misplaced window answers Unsupported Request and drops writes. -/
def WindowAccesses : Prop :=
  ∀ (s : State) (off len rq : Nat) (bytes : List Byte), s.memWf = true →
    let l := s.host.win2Base.toNat + off
    let pa := s.linear l
    let held := fun (x : Bar2Op) => ({ s with sent := s.sent + 1, host := { s.host with bar2 := s.host.bar2 ++ [{ x with no := s.sent }] } } : State)
    (s.host.reaches off len = true → l % 64 + len ≤ 64 → len ≠ 0 →
      (s.commandHolds pa len false = true → exec (.bar2Read off len) s = .next (held { lin := l, off := off, len := len }))
      ∧ (s.commandHolds pa len false = false → s.host.bar2 = [] → s.linkWaits 0 pa = false → s.overtakes 0 pa s.sent = false →
          s.replyWaits 0 pa = false → s.poisoned pa len = false → s.tag pa = .value →
          ∃ t, exec (.bar2Read off len) s = .next t ∧ t.mem = s.mem ∧ t.host.readStatus = 0
            ∧ t.host.readData = (List.range len).map fun k => memByte s.mem (pa + k)))
    ∧ (s.host.reaches off len = false → ∃ t, exec (.bar2Read off len) s = .next t ∧ t.mem = s.mem ∧ t.host.readStatus = 2 ∧ t.host.readData = [])
    ∧ (s.host.reaches off bytes.length = true → l % 64 + bytes.length ≤ 64 → bytes ≠ [] →
      (s.commandHolds pa bytes.length true = true → exec (.bar2Write off bytes rq) s
        = .next (held { lin := l, off := off, len := bytes.length, isWrite := true, bytes := bytes, requester := rq }))
      ∧ (s.commandHolds pa bytes.length true = false → s.host.bar2 = [] → s.linkWaits 0 pa = false → s.overtakes 0 pa s.sent = false → s.stamped pa bytes.length = false → s.tag pa = .value →
          s.poisoned pa bytes.length = false → ∃ t, exec (.bar2Write off bytes rq) s = .next t
            ∧ ∀ a, memByte t.mem a = if pa ≤ a ∧ a < pa + bytes.length then bytes.getD (a - pa) 0 else memByte s.mem a))
    ∧ (s.host.reaches off bytes.length = false → ∃ t, exec (.bar2Write off bytes rq) s = .next t ∧ t.mem = s.mem)

/-! ### Launches -/

/-- R368, R370, R376, R378: die 0 takes the record at the head of its next queue: the launch joins the machine, or its refusal is posted. -/
def RecordsTaken : Prop :=
  ∀ (s : State), s.moduleDown = false → (∀ x ∈ s.host.bar2, x.isWrite = false) → s.host.scan < 8 → (s.queue s.host.scan).offers = true → s.poisoned (s.recordAddr s.host.scan) 256 = false →
    let q := s.host.scan
    let r := memRead s.mem (s.recordAddr q) 256
    (∀ u, s.submit r q = .ok u → s.dieFull (r / 2 ^ 856 % 2 ^ 8) = false → ∃ t, exec .recordTake s = .next t
      ∧ (t.queue q).qhead = ((s.queue q).qhead + 1) % 2 ^ 32 ∧ t.host.scan = (q + 1) % 8 ∧ t.launches = u.launches ∧ t.tasks = u.tasks ∧ t.mem = s.mem
      ∧ (t.launch s.freshLaunch).accepted = true ∧ (t.launch s.freshLaunch).dies = r / 2 ^ 856 % 2 ^ 8 ∧ (t.launch s.freshLaunch).started = false)
    ∧ ∀ st, s.submit r q = .error st → (s.queue q).waiting = [] → (s.queue q).unread < ringOf (s.queue q).csize → ∃ t, exec .recordTake s = .next t
        ∧ (t.queue q).qhead = ((s.queue q).qhead + 1) % 2 ^ 32 ∧ (t.queue q).ctail = ((s.queue q).ctail + 1) % 2 ^ 32
        ∧ t.launches = s.launches ∧ t.tasks = s.tasks ∧ t.mem = s.mem ∧ t.host.msix.head? = some q

/-- R110, R145, R173, R370, R376, R378: a launch starts past its boundaries with the caches of its dies empty; it completes when nothing of it is under way,
and then owns no object; with stakes left it is held. -/
def LaunchEvents : Prop :=
  ∀ (s : State) (n : Nat), (s.launch n).accepted = true → (s.launch n).ended = false →
    ((s.launch n).started = false → (s.launch n).retired = false → (s.launch n).gangFail = false → (∀ k ∈ (s.launch n).after, s.boundaryPassed k = true) → ∃ t, exec (.launchStart n) s = .next t
      ∧ (t.launch n).started = true ∧ t.mem = s.mem ∧ (∀ d ∈ diesOf (s.launch n).dies, (t.die d).rdc = [])
      ∧ ∀ d ∈ diesOf (s.launch n).dies, ∀ c < 16, (t.core d c).cache = [])
    ∧ ((s.launch n).started = true → s.gangSettled (s.launch n) = true → s.quiet n false = true → s.quiet n true = true → s.stakesOf n = [] → ∃ t, exec (.launchCompletion n) s = .next t
        ∧ (t.launch n).ended = true ∧ (t.launch n).held = false
        ∧ ∀ d c k, ((t.core d c).cb k).owner ≠ some n ∧ ((t.core d c).relay k).owner ≠ some n ∧ ((t.core d c).rq k).owner ≠ some n)
    ∧ ((s.launch n).started = true → s.gangSettled (s.launch n) = true → s.quiet n false = true → s.stakesOf n ≠ [] → (s.launch n).retired = false → (s.launch n).held = false →
        (∀ d ∈ diesOf (s.launch n).dies, s.heldOn d < 64) → ∃ t, exec (.launchCompletion n) s = .next t ∧ (t.launch n).held = true ∧ (t.launch n).ended = false)

/-! ### The mailbox -/

/-- R380, R381: certification stamps an image that keeps the rules, and reports the first broken rule of one that does not; a stamp is freed once no launch
names it. An index in a poisoned line of the entry list counts as one outside the image, which is a choice of the model (log 91). -/
def StampCommands : Prop :=
  ∀ (s : State) (base len list count idx : Word),
    (Asked s 1 [base, len, list, count] → base.toNat < 2 ^ 42 → list.toNat < 2 ^ 42 → count.toNat ≤ 1024 →
      let entries := (List.range count.toNat).map fun k =>
        if s.poisoned (globalOf (s.modId 0) list.toNat + 4 * k) 4 then 2 ^ 28 - 1 else memRead s.mem (globalOf (s.modId 0) list.toNat + 4 * k) 4
      let pa := globalOf (s.modId 0) base.toNat
      let found := s.certFault pa len.toNat entries (s.die 0).yieldLimit
      (∀ rule k, found = some (rule, k) → ∃ t, exec (.certify base len list count) s = .next t ∧ MailboxEnds t 5 (rule + k * 16) ∧ t.host.stamps = s.host.stamps)
      ∧ (∀ i, found = none → s.host.freeStamp = some i → ∃ t x, exec (.certify base len list count) s = .next t ∧ MailboxEnds t 0 i
          ∧ t.host.stamps = smPut s.host.stamps i x ∧ x.valid = true ∧ x.base = base.toNat ∧ x.len = len.toNat ∧ x.entries = entries
          ∧ x.limit = (s.die 0).yieldLimit))
    ∧ (Asked s 2 [idx] →
        ((smGet {} s.host.stamps idx.toNat : Stamp).valid = false → ∃ t, exec (.unstamp idx) s = .next t ∧ MailboxEnds t 0x0F 0)
        ∧ ((smGet {} s.host.stamps idx.toNat : Stamp).valid = true → exec (.unstamp idx) s = .next { s with host := { s.host with
            mailbox := { s.host.mailbox with unstamping := some idx.toNat } } }))
    ∧ (s.host.mailbox.unstamping = some idx.toNat → s.stampCount idx.toNat = 0 → ∃ t, exec (.unstampComplete idx.toNat) s = .next t ∧ MailboxEnds t 0 0
        ∧ t.host.stamps = smErase s.host.stamps idx.toNat)

/-- R381, R404: the retirement of a launch by the mailbox. -/
def RetireCommand : Prop :=
  ∀ (s : State) (die launch : Word) (n : Nat), Asked s 3 [die, launch] → die.toNat < 8 → launch.toNat < 65536 → (s.die die.toNat).contained = false →
    (s.launchNamed die.toNat launch.toNat = some n → ∃ t, exec (.retire die launch) s = .next t ∧ MailboxEnds t 0 0 ∧ (t.launch n).retired = true)
    ∧ (s.launchNamed die.toNat launch.toNat = none → ∃ t, exec (.retire die launch) s = .next t ∧ MailboxEnds t 0x0E 0 ∧ t.launches = s.launches)

/-- R430, R431: the attestation report over the nonce in host memory, and the certificate chain, go to host memory; a verified firmware image of a version that is not too low goes to flash. The
contents that the spec leaves to keys and images are free values (log 3). -/
def IdentityCommands : Prop :=
  ∀ (s : State) (a b : Word) (salt : BitVec 256),
    let nonce := BitVec.ofNat 256 (memRead s.host.mem b.toNat 32)
    (Asked s 5 [a, b] → a.toNat % 64 = 0 → ∃ t sig, exec (.attest a b salt) s = .next t ∧ MailboxEnds t 0 0 ∧ t.mem = s.mem
      ∧ sig = (s.report nonce ++ (bytesOf (Config.signature salt (s.report nonce)).toNat 384).reverse)
      ∧ ∀ k < sig.length, memByte t.host.mem (a.toNat + k) = sig.getD k 0)
    ∧ (Asked s 6 [a, b] → Config.certChain.length ≤ b.toNat → ∃ t, exec (.getcert a b) s = .next t ∧ MailboxEnds t 0 Config.certChain.length
        ∧ ∀ k < Config.certChain.length, memByte t.host.mem (a.toNat + k) = Config.certChain.getD k 0)
    ∧ (Asked s 7 [a, b] → a.toNat < 2 ^ 42 →
        let pa := globalOf (s.modId 0) a.toNat
        let img := bytesOf (memRead s.mem pa b.toNat) b.toNat
        s.poisoned pa b.toNat = false → Config.imageVerifies img = true →
        (Config.fusedVersion.toNat ≤ (Config.imageVersion img).toNat → ∃ t, exec (.fwupdate a b) s = .next t ∧ MailboxEnds t 0 0 ∧ t.flashImage = some img)
        ∧ ((Config.imageVersion img).toNat < Config.fusedVersion.toNat → ∃ t, exec (.fwupdate a b) s = .next t ∧ MailboxEnds t 0x12 0
            ∧ t.flashImage = s.flashImage))

/-! ### Resets, links, scrub, failures, heat -/

/-- R9, R36, R398, R430, R432: what resets leave, and the boot of a die. That memory is the empty list after a cold reset, so that every byte of it reads 0, is the
choice of log 1: R36 leaves those bytes undefined. What a warm reset leaves is a reading of the model (log 26). -/
def ResetEvents : Prop :=
  ∀ (s : State) (d : Nat) (rwl : List (Nat × Word)),
    (∃ t, exec .coldReset s = .next t ∧ t.mem = [] ∧ t.tasks = [] ∧ t.launches = [] ∧ t.cores = [] ∧ t.poison = [] ∧ t.tags = [] ∧ t.bootLocked = false
      ∧ t.poweredOff = false ∧ t.moduleDown = false ∧ t.flashImage = s.flashImage ∧ t.log.flash = s.log.flash ∧ t.host.mem = s.host.mem)
    ∧ (∃ t, exec .warmReset s = .next t ∧ t.mem = s.mem ∧ t.launches = s.launches ∧ t.links = [] ∧ (∀ k, (t.die k).contained = false ∧ (t.die k).time = (s.die k).time)
        ∧ t.host.stamps = s.host.stamps ∧ (∀ r ∈ t.rounds, r.reserved = 0) ∧ (∀ m ∈ t.foldMsgs, m.waiting = false) ∧ (∀ d c, (t.core d c).carve = 0 ∧ (t.core d c).cache = [])
        ∧ ∀ i x, smFind s.tasks i = some x → ∃ y, smFind t.tasks i = some y ∧ y = { x with live := y.live, dup := y.dup, cwt := [], cwtDirty := true }
            ∧ (∀ k : Fin 16, y.live.rdH k = {}) ∧ y.live.s = x.live.s ∧ y.live.pc = x.live.pc ∧ y.live.seed = (s.launch x.launch).seed
            ∧ y.live.claimTimeout = 100000000 ∧ y.live.yieldCount = 0 ∧ y.live.callCount = 0 ∧ y.live.winBase = 0 ∧ y.live.step = 0)
    ∧ (d < 8 → (s.die d).booted = false → s.bootLocked = false → s.moduleDown = false →
        let img := s.firmware.getD []
        let good := Config.bootVerifies d img = true ∧ Config.fusedVersion.toNat ≤ (Config.imageVersion img).toNat
        (good → ∃ t, exec (.firmwareBoot d rwl) s = .next t ∧ (t.die d).booted = true
          ∧ ((∀ k < 8, k ≠ d → (s.die k).booted = true) → t.bootLocked = true) ∧ t.mem = s.mem)
        ∧ (¬ good → ∃ t, exec (.firmwareBoot d rwl) s = .next t ∧ t.moduleDown = true ∧ (t.die d).booted = false))

/-- R384, R410, R411, R423, R426: time messages, link errors and retraining, the scrub and refresh. -/
def LinkAndScrubEvents : Prop :=
  ∀ (s : State) (d k : Nat) (ppm : Int) (unc : Word) (again : Bool) (line : Nat), d < 8 →
    exec (.timeSyncMessage d ppm unc) s = .next (s.modDie d fun x => { x with ppm := max (-200) (min ppm 200), timeUnc := unc })
    ∧ ((s.link k).retraining = false → (s.link k).down = false → ∃ t, exec (.flitCrcError k again) s = .next t ∧ t.mem = s.mem
        ∧ (t.link k).fails = (if again then (s.link k).fails + 1 else 1))
    ∧ ((s.link k).retraining = false → (s.link k).down = false → 16 ≤ (s.link k).fails →
        let old := ((s.link k).retrains.filter fun x => decide (s.time (linkEnds k).1 < x + 1000000000)).length
        (old < 2 → ∃ t, exec (.linkRetrain k) s = .next t ∧ (t.link k).retraining = true ∧ (t.link k).down = false ∧ (t.link k).fails = 0)
        ∧ (2 ≤ old → ∃ t, exec (.linkRetrain k) s = .next t ∧ (t.link k).down = true))
    ∧ ((s.link k).retraining = true → exec (.linkRetrainComplete k) s = .next { s with links := smPut s.links k { s.link k with retraining := false } })
    ∧ (isHbm (lineOf line) = true → paModule (lineOf line) = s.modId (paDie (lineOf line)) → lineOf line ∉ s.dirty →
        exec (.patrolScrub line .clean) s = .next s
        ∧ (∃ t, exec (.patrolScrub line .corrected) s = .next t ∧ t = { s with log := t.log })
        ∧ (lineOf line ∉ s.poison → ∃ t, exec (.patrolScrub line .uncorrectable) s = .next t ∧ t.mem = s.mem
            ∧ ∀ u, u ∈ t.poison ↔ u = lineOf line ∨ u ∈ s.poison))
    ∧ exec (.hbmRefresh d k) s = .next s

/-- R424, R425, R432: containment retires the launches with a task on the die; a watchdog failure or the loss of the host link stops the taking of records; heat and
the loss of coolant gate or switch off. That memory is the empty list once the module has switched off is the choice of log 1. -/
def FailureEvents : Prop :=
  ∀ (s : State) (d n tj t0 t1 mw x : Nat), d < 8 →
    (∃ t, exec (.dieContainment d x) s = .next t ∧ (t.die d).contained = true
      ∧ ∀ l, (n, l) ∈ s.launches → l.alive = true → (∃ u ∈ s.tasks, u.2.launch = n ∧ u.2.die = d) → (t.launch n).retired = true)
    ∧ (∃ t, exec (.watchdogFailure d) s = .next t ∧ t.moduleDown = true ∧ t.tasks = s.tasks ∧ t.mem = s.mem)
    ∧ (∃ t, exec .hostLinkLoss s = .next t ∧ t.moduleDown = true ∧ t.tasks = s.tasks ∧ t.mem = s.mem)
    ∧ (∃ t, exec .coolantFlowLost s = .next t ∧ t.poweredOff = true ∧ t.mem = [] ∧ t.tasks = [])
    ∧ (880 ≤ tj → ∃ t, exec (.thermalSample d tj t0 t1 mw) s = .next t ∧ t.poweredOff = true ∧ t.mem = [])
    ∧ (tj < 880 → (840 ≤ tj ∨ 760 ≤ max t0 t1) → ∃ t, exec (.thermalSample d tj t0 t1 mw) s = .next t ∧ (t.die d).gate = 7 ∧ t.mem = s.mem)
    ∧ (tj < 840 → max t0 t1 < 760 → (760 < tj ∨ 680 < max t0 t1 ∨ (s.die d).powerCap < mw) → ∃ t, exec (.thermalSample d tj t0 t1 mw) s = .next t
        ∧ (t.die d).gate = min 7 ((s.die d).gate + 1) ∧ t.mem = s.mem)

/-! ### Gangs -/

/-- R406, R414, R415: a gang's reservation, where no link on the way of its messages is down or retraining. The leader hears READY with the digest and the
uncertainty of a die, and with the last one sends ARM or cancels; ARM starts the reservation at a die, and its end sends ACK; the leader counts ACKs that come before
the guard, with the last one sends COMMIT, and after the guard's expiry cancels, naming the first die that lacks READY or ACK. -/
def GangReservation : Prop :=
  ∀ (s : State) (g k die : Nat) (x : Gang) (m : Member) (unc : Word) (dig : BitVec 256), s.gangs[g]? = some x → x.members[k]? = some m →
    s.upWaits x m.mod m.die = false → s.downWaits x die = false →
    (Hears s x → m.readyIn = false → (s.isLocal m = true → x.phase m.die ≠ .none) → ∃ t y m', exec (.ready g k unc dig) s = .next t
      ∧ t.gangs[g]? = some y ∧ y.members[k]? = some m' ∧ m'.readyIn = true
      ∧ (s.isLocal m = false → m'.unc = unc ∧ m'.digest = dig) ∧ (s.isLocal m = true → m'.unc = (s.die m.die).timeUnc ∧ m'.digest = x.digest)
      ∧ (y.members.all (·.readyIn) = true → y.armSent = true ∨ y.cancelSent ≠ none))
    ∧ (x.phase die = .ready → (s.leads x = true → x.armSent = true) →
        exec (.arm g die) s = .next ((gangSet s g { x with phases := smPut x.phases die .reserving }).markLeaving die))
    ∧ (x.phase die = .reserving → s.reservable x die = true →
        exec (.gangReserveComplete g die) s = .next ((gangSet s g { x with phases := smPut x.phases die .acked }).markLeaving die))
    ∧ (Hears s x → x.armSent = true → (s.isLocal m = true → x.phase m.die = .acked) →
        (s.time x.leadDie + x.guard < x.t →
          let l := x.members.set k { m with ackIn := true }
          exec (.ack g k) s = .next (gangSet s g { x with members := l, commitSent := x.commitSent || l.all (·.ackIn) }))
        ∧ (x.t ≤ s.time x.leadDie + x.guard → exec (.ack g k) s = .next s))
    ∧ (Hears s x → x.commitSent = false → x.t ≤ s.time x.leadDie + x.guard → ∀ f, x.members.find? (fun m => !(m.readyIn && m.ackIn)) = some f →
        f.mod < 2 ^ 10 → f.die < 8 → exec (.gangGuardExpiry g) s = .next (gangSet s g { x with cancelSent := some (1, f.mod, f.die) }))

/-- R406, R415 to R418: the start of a gang, where no link on the way of its messages is down or retraining. COMMIT commits an acknowledged die; CANCEL ends the launch
of a die that is not committed with LAUNCH_GANG; a committed die with its reservation starts from T to T + W, and one that is later fails and asks for an abort; STARTED
counts a started die at the leader, which with the last one sends CONFIRM; CONFIRM makes a started die confirmed. -/
def GangStarts : Prop :=
  ∀ (s : State) (g k die cause org : Nat) (x : Gang) (m : Member), s.gangs[g]? = some x → x.members[k]? = some m →
    s.upWaits x m.mod m.die = false → s.downWaits x die = false →
    (x.phase die = .acked → (s.leads x = true → x.commitSent = true) → exec (.commit g die) s = .next (gangSet s g { x with phases := smPut x.phases die .committed }))
    ∧ ((s.leads x = false ∨ ∃ o, x.cancelSent = some (cause, o)) → s.isLocal m = true → m.die = die →
        (x.phase die = .none ∨ x.phase die = .ready ∨ x.phase die = .reserving ∨ x.phase die = .acked) → s.gangBehind x die = false → ∃ t y, exec (.cancel g die cause org) s = .next t
        ∧ t.gangs[g]? = some y ∧ y.phase die = .cancelled ∧ y.cause = cause ∧ (t.launch x.launch).gangFail = true)
    ∧ (x.phase die = .committed → s.reserved_ x die = true → x.t ≤ s.time die → s.time die ≤ x.t + x.w → ∃ t y, exec (.gangStart g die) s = .next t
        ∧ t.gangs[g]? = some y ∧ y.phase die = .started ∧ y.lateMark = (x.lateMark || decide (x.t < s.time die)) ∧ BytesAre s t (x.desc + 64) 64 y.word)
    ∧ (x.phase die = .committed → x.t + x.w < s.time die → ∃ t y, exec (.gangLateExpiry g die) s = .next t ∧ t.gangs[g]? = some y ∧ y.phase die = .failed
        ∧ (t.launch x.launch).gangFail = true ∧ y.requests = x.requests ++ [(3, 2 ^ 64, s.modId die + die * 2 ^ 10)])
    ∧ (s.leads x = true → x.commitSent = true → (s.isLocal m = true → x.phase m.die = .started ∧ x.mailLate m.die .started = false) →
        let y := { x with members := x.members.set k { m with startedIn := true }, mail := if s.isLocal m then x.mail.erase (m.die, .started) else x.mail }
        exec (.started g k) s = .next (gangSet s g
          (if y.members.all (·.startedIn) && x.round.isNone && x.dropped.isEmpty then { y with confirmSent := true } else y)))
    ∧ (x.phase die = .started → die ∉ x.dropped → (s.leads x = true → x.confirmSent = true) → ∃ t y, exec (.confirm g die) s = .next t
        ∧ t.gangs[g]? = some y ∧ die ∈ y.confirmed ∧ BytesAre s t (x.desc + 64) 64 y.word)

/-- R406, R407, R418 to R420: the abort of a gang, where no link on the way is down or retraining and no earlier message to the die is still on its way. An abort
request opens a round at the leader; FREEZE makes a die note its smallest step; the last reply to the freeze gives the agreed step, no later than any of theirs; TOKEN
brings it to the tasks of a die, each of which then takes ABORT_TOKEN, and a die that was not confirmed drops its held effects and ends with LAUNCH_GANG. -/
def GangAborts : Prop :=
  ∀ (s : State) (g k die cause key org : Nat) (step : Word) (x : Gang) (m : Member), s.gangs[g]? = some x → x.members[k]? = some m →
    s.upWaits x m.mod m.die = false → s.downWaits x die = false → s.gangBehind x die = false →
    (Hears s x → (org % 2 ^ 10 = s.modId 0 → (cause, key, org) ∈ x.requests ∧ x.unheard (org / 2 ^ 10 % 8) = false
        ∧ x.mailLate (org / 2 ^ 10 % 8) (.request cause key org) = false) → s.upWaits x (org % 2 ^ 10) (org / 2 ^ 10 % 8) = false → x.round = none →
      ∃ t y, exec (.gangAbort g cause key org) s = .next t
      ∧ t.gangs[g]? = some y ∧ y.round = some (cause, key, org) ∧ y.requests = x.requests.erase (cause, key, org) ∧ ∀ m ∈ y.members, m.reply = none ∧ m.frozen = none)
    ∧ ((s.leads x = true → x.round ≠ none) → s.isLocal m = true → m.die = die → m.frozen = none → ∃ t y m', exec (.freeze g die) s = .next t
        ∧ t.gangs[g]? = some y ∧ y.members[k]? = some m' ∧ m'.frozen = some (s.smallestStep x die))
    ∧ (s.leads x = true → x.round ≠ none → m.reply = none → s.isLocal m = false →
        let y := { x with members := x.members.set k { m with reply := some step.toNat } }
        (y.members.all (·.reply.isSome) = false → exec (.freezeReply g k step) s = .next (gangSet s g y))
        ∧ (y.members.all (·.reply.isSome) = true → ∃ t z, exec (.freezeReply g k step) s = .next t ∧ t.gangs[g]? = some z
            ∧ z.tokenFor = (y.members.filter s.isLocal).map (·.die) ∧ ∀ f ∈ y.members, ∀ v, f.reply = some v → z.agreed.toNat ≤ v))
    ∧ (s.leads x = false → s.isLocal m = true → m.die = die → ∃ t y, exec (.token g die step cause org) s = .next t
        ∧ t.gangs[g]? = some y ∧ y.agreed = BitVec.ofNat 64 step.toNat ∧ y.cause = cause
        ∧ (die ∉ x.confirmed → die ∈ y.dropped ∧ (t.launch x.launch).gangFail = true)
        ∧ ∀ i, (i, s.task i) ∈ s.tasks → (s.task i).launch = x.launch → (s.task i).die = die → (s.task i).status ≠ .ended →
            (t.task i).abortTok = some (step.toNat, org))

end Sys2Proof.Stated

/-- R403: mailbox command UNSTAKE returns a STAKED or FAILED cell to VALUE with 64 zero bytes and status 0x00, for any caller; a VALUE or WORKING cell, or an
address outside every claim-enabled segment, is left unchanged with status 0x0D. -/
def Obligations.MailboxUnstake : Prop :=
  ∀ (s : State) (addr : Word), Asked s 4 [addr] → addr.toNat < 2 ^ 42 →
    let cell := lineOf (globalOf (s.modId 0) addr.toNat)
    (s.inClaimSeg cell = true → s.tag cell = .staked ∨ s.tag cell = .failed → ∃ t, exec (.mbUnstake addr) s = .next t ∧ MailboxEnds t 0 0
      ∧ t.tag cell = .value ∧ BytesAre s t cell 64 0 ∧ ∀ pa, lineOf pa ≠ cell → t.tag pa = s.tag pa)
    ∧ (s.inClaimSeg cell = false ∨ s.tag cell = .value ∨ s.tag cell = .working → ∃ t, exec (.mbUnstake addr) s = .next t ∧ MailboxEnds t 0x0D 0
        ∧ t.mem = s.mem ∧ t.tags = s.tags)

/-- R210, R213: the results of the arithmetic, counting, move and bit-field instructions of class 0x0, with their frames. -/
def Obligations.ScalarArithmetic : Prop :=
  Sys2Proof.Stated.TwoSourceResults ∧ Sys2Proof.Stated.OneSourceResults ∧ Sys2Proof.Stated.BitfieldResults

/-- R211, R216, R217: the results of comparisons and of the instructions of class 0x1, with their frames. -/
def Obligations.CompareAndImmediate : Prop :=
  Sys2Proof.Stated.CompareResults ∧ Sys2Proof.Stated.ImmediateResults

/-- R193, R195, R215: a false guard makes an instruction of class 0x0 do nothing, and a lost latch traps whatever the guard. -/
def Obligations.GuardsAndLatches : Prop :=
  Sys2Proof.Stated.GuardOff ∧ Sys2Proof.Stated.LostLatchTraps

/-- R218, R219, R224: branches, calls, returns and jumps, taken, not taken and trapping. -/
def Obligations.Transfers : Prop :=
  Sys2Proof.Stated.TransfersTaken ∧ Sys2Proof.Stated.TransfersNotTaken ∧ Sys2Proof.Stated.TransfersTrap ∧ Sys2Proof.Stated.CallLinks

/-- R221 to R225: the loop engine. -/
def Obligations.Loops : Prop :=
  Sys2Proof.Stated.LoopEngine ∧ Sys2Proof.Stated.LoopTraps ∧ Sys2Proof.Stated.IterationBoundary

/-- R146, R150, R227, R228: spawn and done. -/
def Obligations.SpawnAndDone : Prop :=
  Sys2Proof.Stated.SpawnCreates ∧ Sys2Proof.Stated.SpawnWaits ∧ Sys2Proof.Stated.SpawnTraps ∧ Sys2Proof.Stated.DoneEnds
    ∧ Sys2Proof.Stated.DoneSteps

/-- Loads and stores: results, frames, the bytes stored, and loads of claim cells. -/
def Obligations.LoadsAndStores : Prop :=
  Sys2Proof.Stated.LoadResults ∧ Sys2Proof.Stated.StoreResults ∧ Sys2Proof.Stated.ClaimAccess ∧ Sys2Proof.Stated.ClaimRowAccess

/-- The tests of an access and the traps that they raise. -/
def Obligations.AccessTraps : Prop :=
  Sys2Proof.Stated.AccessTest ∧ Sys2Proof.Stated.AccessTraps ∧ Sys2Proof.Stated.HandleUnusable

/-- xlat, hchk, hdrop, hmov, pf and phase. -/
def Obligations.HandleInstructions : Prop :=
  Sys2Proof.Stated.TranslateHandle ∧ Sys2Proof.Stated.TranslateHit ∧ Sys2Proof.Stated.TranslateMiss ∧ Sys2Proof.Stated.HandleResults ∧ Sys2Proof.Stated.PrefetchAndPhase

/-- amo, cas, famo and fence. -/
def Obligations.Atomics : Prop :=
  Sys2Proof.Stated.AtomicResults ∧ Sys2Proof.Stated.FamoResults ∧ Sys2Proof.Stated.FenceResults

/-- stake, settle, unstake and ctag. -/
def Obligations.ClaimInstructions : Prop :=
  Sys2Proof.Stated.StakeResult ∧ Sys2Proof.Stated.SettleAndUnstake ∧ Sys2Proof.Stated.CtagResult

/-- R162, R163, R248: crew.join, crew.leave and crew.sync. The traps of a task that only joined rest on log 54, the leave of one that has arrived on log 72. -/
def Obligations.Crews : Prop :=
  Sys2Proof.Stated.CrewMembers ∧ Sys2Proof.Stated.CrewResults

/-- The floating-point instructions of class 0x5 and the one-source vector instructions. -/
def Obligations.VectorFloat : Prop :=
  Sys2Proof.Stated.VectorFloatResults ∧ Sys2Proof.Stated.VectorOneSourceResults

/-- Vector comparisons, masks and moves of lanes. -/
def Obligations.VectorMasksAndMoves : Prop :=
  Sys2Proof.Stated.MaskResults ∧ Sys2Proof.Stated.VectorMoveResults

/-- Vector divides, square roots and reductions. -/
def Obligations.VectorDivideReduce : Prop :=
  Sys2Proof.Stated.VectorDivideResults ∧ Sys2Proof.Stated.ReductionResults

/-- The instructions that write the shadow set of the matrix engine. -/
def Obligations.MatrixSetup : Prop :=
  Sys2Proof.Stated.MatrixConfiguration ∧ Sys2Proof.Stated.MatrixOperand

/-- The issue of copies and assay commands. -/
def Obligations.CommandIssue : Prop :=
  Sys2Proof.Stated.CopyIssue ∧ Sys2Proof.Stated.QueueCopyIssue ∧ Sys2Proof.Stated.AssayIssue

/-- qscl, cwait and cstat. -/
def Obligations.TicketsAndScans : Prop :=
  Sys2Proof.Stated.ScanResult ∧ Sys2Proof.Stated.TicketReports

/-- The issue of seam macros. -/
def Obligations.SeamIssue : Prop :=
  Sys2Proof.Stated.SeamIssue ∧ Sys2Proof.Stated.SeamTransfers ∧ Sys2Proof.Stated.SeamScalars

/-- rpost, rarm, rcancel and rstat. -/
def Obligations.Relays : Prop :=
  Sys2Proof.Stated.RelayResults ∧ Sys2Proof.Stated.RelayEntryTraps

/-- System registers, device time and control words. -/
def Obligations.SystemRegisters : Prop :=
  Sys2Proof.Stated.SystemRegisters ∧ Sys2Proof.Stated.ControlWords

/-- Events of a core: units that complete, asynchronous traps, parking, and waits that end. -/
def Obligations.CoreEvents : Prop :=
  Sys2Proof.Stated.UnitsComplete ∧ Sys2Proof.Stated.CoreEventsTaken ∧ Sys2Proof.Stated.WaitsEnd

/-- Events of the matrix engine and of relay entries. -/
def Obligations.EngineEvents : Prop :=
  Sys2Proof.Stated.MatrixEvents ∧ Sys2Proof.Stated.MatrixSteps ∧ Sys2Proof.Stated.RelayEvents

/-- R307, R311: starts, chunks and acknowledgements of copies and assay commands. -/
def Obligations.CopyEvents : Prop :=
  Sys2Proof.Stated.CopyEvents

/-- Events of the stack engines: flushes, tends and folds. -/
def Obligations.StackEvents : Prop :=
  Sys2Proof.Stated.FlushEvents ∧ Sys2Proof.Stated.TendEvent ∧ Sys2Proof.Stated.FoldEvents

/-- Stores, loads, atomics and deterministic updates performed at their homes. -/
def Obligations.HomeEvents : Prop :=
  Sys2Proof.Stated.HomeAccesses ∧ Sys2Proof.Stated.HomeUpdates

/-- First touches, waiters and ends of claim waits. -/
def Obligations.ClaimEvents : Prop :=
  Sys2Proof.Stated.ClaimEvents ∧ Sys2Proof.Stated.ClaimWaitEnds

/-- Admission, task switches, balancing, shifts, swaps, and deadlocks of crews and epochs. -/
def Obligations.SchedulerEvents : Prop :=
  Sys2Proof.Stated.TasksComeIn ∧ Sys2Proof.Stated.ExchangesAndShifts ∧ Sys2Proof.Stated.GroupSwaps ∧ Sys2Proof.Stated.Deadlocks

/-- Walks, page faults, revocations, migrations and page-outs. -/
def Obligations.TranslationEvents : Prop :=
  Sys2Proof.Stated.WalkEvents ∧ Sys2Proof.Stated.MigrationEvents ∧ Sys2Proof.Stated.PageOutEvent

/-- Writes of the host to registers, and accesses through BAR2. -/
def Obligations.RegisterEvents : Prop :=
  Sys2Proof.Stated.QueueRegisters ∧ Sys2Proof.Stated.OtherRegisters ∧ Sys2Proof.Stated.WindowAccesses

/-- Records taken, and the start and the end of a launch. -/
def Obligations.LaunchEvents : Prop :=
  Sys2Proof.Stated.RecordsTaken ∧ Sys2Proof.Stated.LaunchEvents

/-- The mailbox commands but for UNSTAKE. -/
def Obligations.MailboxEvents : Prop :=
  Sys2Proof.Stated.StampCommands ∧ Sys2Proof.Stated.RetireCommand ∧ Sys2Proof.Stated.IdentityCommands

/-- Resets, boot, device time, links, scrub, failures and heat. -/
def Obligations.FleetEvents : Prop :=
  Sys2Proof.Stated.ResetEvents ∧ Sys2Proof.Stated.LinkAndScrubEvents ∧ Sys2Proof.Stated.FailureEvents

/-- R414, R415: READY, ARM, the end of a reservation, ACK and the expiry of the guard of a gang. -/
def Obligations.GangReservation : Prop :=
  Sys2Proof.Stated.GangReservation

namespace Sys2Proof.Stated

open Sys2Proof Sys2Proof.Machine

/-! ### Words and bundles -/

/-- A bundle with the word of i in slot k: for k ≥ 1 under a header whose only set field is the lend of that slot (R174, R177). -/
def bundleOf (k : Nat) (i : Instr) : Nat :=
  (encode i).1 * 2 ^ (32 * k) + (if k = 0 then 0 else 15 * 2 ^ 28 + (encode i).2 * 2 ^ (8 * k - 8))

/-- The operations of a fetched bundle (R190). -/
def opsOf (cwt : SMap Nat) (b : Bundle) : List Op := goodOps (b.slots.flatMap (expandSlot cwt))

/-- How many operations use a port. -/
def uses (p : Port) (l : List Op) : Nat := (l.filter fun o => decide (portOf o.instr = p)).length

/-- The limits of R196 are exceeded. -/
def OverPorts (l : List Op) : Prop := 1 < uses .s l ∨ 2 < uses .v l ∨ 1 < uses .m l ∨ 2 < uses .c l

/-- Two operations write back to one register, S0, P0 and M0 apart (R197). -/
def WritesTwice (l : List Op) : Prop :=
  ∃ (j k : Nat) (x y : Op) (d : Dest), j < k ∧ l[j]? = some x ∧ l[k]? = some y ∧ destOf x.instr = some d ∧ destOf y.instr = some d
    ∧ d ≠ .s 0 ∧ d ≠ .p 0 ∧ d ≠ .m 0

/-- The class of slot k of a bundle: bits [31:28] of its word (R175). -/
def slotClass (w k : Nat) : Nat := w / 2 ^ (32 * k + 28) % 16

/-! ### A core that is about to issue -/

/-- Core c of die d is about to issue the next bundle of task i: nothing else is due at the core, no bundle has issued there in this clock, and no part of a
bundle of the task is unfinished (R15, R338, R339, R344). -/
def AboutToIssue (s : State) (d c i : Nat) : Prop :=
  s.finishTasks d c = s ∧ (s.core d c).issuing = some i ∧ (s.core d c).switchDone ≤ s.clock ∧ (s.core d c).issuedAt ≠ some s.clock
    ∧ (s.task i).ending = none ∧ (s.task i).opened = none ∧ (s.task i).pendTrap = none ∧ s.noteYield i = s ∧ s.takeAsync i = none
    ∧ ((s.task i).stallSince = none ∨ s.preemptWanted i = false) ∧ (s.task i).job.state ≠ .stopped ∧ (s.task i).job.halt = false

/-- The state before the first operation of a bundle: the record of the bundle in issue is made, the commit before a committing bundle, a checkpoint or a
yield point has been taken, and the one that a bundle needs for want of room (R336). -/
def opened (s : State) (d c i : Nat) (l : List Op) (ckpt : Bool) : State :=
  let p := s.present i d c
  let q := if ckpt then p.commit i else p
  if q.needsRoom l then q.commit i else q

/-- The state in which the only operation of a bundle is performed, its place set. -/
def issued (s : State) (d c i : Nat) (o : Op) (ckpt : Bool) : State :=
  let r := opened s d c i [o] ckpt
  { r with iss := { r.iss with slot := o.slot, half := o.half, word := o.word } }

/-- Address of row n of task i (R98). -/
def taskRow (s : State) (i n : Nat) : Nat := rowAddr (s.modId (s.task i).die) (s.task i).die (s.task i).core ((s.task i).rowBase + n)

end Sys2Proof.Stated

/-! ### Encoding -/

/-- R174 to R202: the encoding drops no bit. Every instruction that a word stands for is read back from its word and lend, alone and in each
slot of a bundle, with the lend in the header. -/
def Obligations.EncodeThenDecode : Prop :=
  ∀ i : Instr, i.wf = true →
    decodeWord (encode i).1 (encode i).2 = .ok i ∧ (encode i).1 < 2 ^ 32 ∧ (encode i).2 < 2 ^ 8
      ∧ ∀ k < 4, (k = 0 → (encode i).2 = 0) →
        let b := decodeBundle (bundleOf k i)
        b.slots = [{ num := k, word := (encode i).1, lend := (encode i).2, instr := .ok i }]
          ∧ b.lateHeader = none ∧ b.badHeader = none ∧ b.ckpt = false ∧ b.yieldPt = false

/-- R187, R198, R202: every word and lend that decode are the encoding of what they decode to, so that no two words stand for one instruction and no
field is ignored; what is decoded is well-formed. -/
def Obligations.DecodeThenEncode : Prop :=
  ∀ (w e : Nat) (i : Instr), w < 2 ^ 32 → e < 2 ^ 8 → decodeWord w e = .ok i → encode i = (w, e) ∧ i.wf = true

/-- Words that the spec writes out stand for the instructions it gives them; class 0xD and an unassigned minor opcode stand for none. -/
def Obligations.SpecWordsDecode : Prop :=
  decodeWord 0x00030CF1 0 = .ok (.add { d := 3, a := .reg 3, b := .reg 15, nw := false, g := 1 })
  ∧ decodeWord 0x1241079B 0xDD = .ok (.movhi { d := 1, a := .reg 1, imm := 0x3779B })
  ∧ decodeWord 0x2201B003 0 = .ok (.loop (.reg 1) true 3 3)
  ∧ decodeWord 0x3061247E 0xFF = .ok (.st { sz := 2, hint := .none, d := 9, h := 2, x := 1, imm := 0x3FFE })
  ∧ decodeWord 0x40008312 6 = .ok (.amo .add false .ar .mod 4 { h := 2, a := 3 })
  ∧ decodeWord 0x50848470 0 = .ok (.vmul { t := .f32, md := .rne, d := 4, a := .lv0, b := .reg 7, m := 0, nw := false })
  ∧ decodeWord 0x62030D46 0 = .ok (.vshr { t := .n32, d := 3, a := .reg 3, b := .reg 20, m := 0, nw := false })
  ∧ decodeWord 0x720A2C00 3 = .ok (.vredsum { t := .f32, d := 10, a := .reg 11, m := 3, nw := false })
  ∧ decodeWord 0x80040803 0 = .ok (.mshape .bf16 4 (.reg 2) (.reg 0))
  ∧ decodeWord 0x904B0C12 0 = .ok (.cpym { a := 11, b := .reg 3, hs := 1, hd := 2 })
  ∧ decodeWord 0xA08A2CC0 1 = .ok (.sadd { a := .reg 10, b := .reg 11, c := .reg 12, pred := false } true)
  ∧ decodeWord 0xB10D0C03 0 = .ok (.stend 13 (.reg 3) 3)
  ∧ decodeWord 0xC0800234 4 = .ok (.trap 0x1234)
  ∧ (decodeWord 0xD0000000 0).toOption = none
  ∧ (decodeWord 0x2FC00000 0).toOption = none

/-- R196, R197: a bundle that uses a port more often than its limit, short forms counted, or writes back twice to one register raises ILLEGAL_BUNDLE once the
checks before are passed; no other bundle does. An operation with NW = 1, which bit 3 of the word holds in class 0x0 and bit 3 of the lend in classes 0x5 to
0x7, writes nothing back. -/
def Obligations.BundleLimits : Prop :=
  (∀ (b : Bundle) (cwt : SMap Nat) (rows : Bool) (l : Latches), b.lateHeader = none → b.badHeader = none →
    checkIllegal rows (b.slots.flatMap (expandSlot cwt)) = none →
    (OverPorts (opsOf cwt b) ∨ WritesTwice (opsOf cwt b) →
      ∃ x, checkBundle b (b.slots.flatMap (expandSlot cwt)) rows l = some x ∧ x.record.code = 0x02)
    ∧ (¬ OverPorts (opsOf cwt b) → ¬ WritesTwice (opsOf cwt b) →
        checkBundle b (b.slots.flatMap (expandSlot cwt)) rows l = checkLatches l (opsOf cwt b)))
  ∧ ∀ i : Instr, (classOf i = 0 ∧ (encode i).1 / 2 ^ 3 % 2 = 1)
      ∨ ((classOf i = 5 ∨ classOf i = 6 ∨ classOf i = 7) ∧ (encode i).2 / 2 ^ 3 % 2 = 1) → destOf i = none

/-- R177: a header in slot 0 gives the checkpoint and yield marks and the lends of slots 1 to 3; a bundle without one has none of them. A class-0xF word in
another slot raises ILLEGAL_BUNDLE, and a reserved bit of the header ILLEGAL_INSTRUCTION. Where an instruction of the bundle commits, CKPT changes nothing: the
bundle is issued alike with and without it. -/
def Obligations.HeaderSlot : Prop :=
  (∀ w : Nat, let b := decodeBundle w
    (slotClass w 0 = 15 → b.ckpt = decide (w / 2 ^ 27 % 2 = 1) ∧ b.yieldPt = decide (w / 2 ^ 26 % 2 = 1)
      ∧ ∀ sl ∈ b.slots, 1 ≤ sl.num ∧ sl.lend = w / 2 ^ (8 * (sl.num - 1)) % 2 ^ 8)
    ∧ (slotClass w 0 ≠ 15 → b.ckpt = false ∧ b.yieldPt = false ∧ ∀ sl ∈ b.slots, sl.lend = 0)
    ∧ (∀ sl ∈ b.slots, sl.num < 4 ∧ sl.word = w / 2 ^ (32 * sl.num) % 2 ^ 32 ∧ sl.instr = decodeWord sl.word sl.lend)
    ∧ (∀ k, k < 4 → (w / 2 ^ (32 * k) % 2 ^ 32 ≠ 0) → slotClass w k ≠ 15 → ∃ sl ∈ b.slots, sl.num = k)
    ∧ ∀ (cwt : SMap Nat) (rows : Bool) (l : Latches),
        ((∃ k, 1 ≤ k ∧ k ≤ 3 ∧ slotClass w k = 15) →
          ∃ x, checkBundle b (b.slots.flatMap (expandSlot cwt)) rows l = some x ∧ x.record.code = 0x02)
        ∧ ((∀ k, 1 ≤ k → k ≤ 3 → slotClass w k ≠ 15) → slotClass w 0 = 15 → w / 2 ^ 24 % 4 ≠ 0 →
          ∃ x, checkBundle b (b.slots.flatMap (expandSlot cwt)) rows l = some x ∧ x.record.code = 0x01 ∧ x.slot = 0))
  ∧ ∀ (s : State) (w v : Nat), slotClass w 0 = 15 → w / 2 ^ 24 % 4 = 0 → w % 2 ^ 27 = v % 2 ^ 27 → w / 2 ^ 28 = v / 2 ^ 28 →
      (∃ o ∈ opsOf s.iss.snapCwt (decodeBundle w), commits s.iss.snap.rdH o.instr = true) → s.issueBundle w = s.issueBundle v

/-! ### The machine -/

/-- R174, R198, R338, R362: when the bundle at the program counter of a core's task holds one instruction that is no short pair, and the checks of R198 pass, the
step is what exec answers for that instruction in the issued state: past its effect, the end of the bundle (R222, R336, R350), and otherwise its trap or wait. An
instruction that an engine has accepted and answers later has issued its bundle, which is completed once the answer has come. -/
def Obligations.StepRunsDecoded : Prop :=
  ∀ (s : State) (d c i : Nat) (rest : List Move) (sl : Slot) (ins : Instr), s.agenda = .bundle d c :: rest → s.poweredOff = false →
    let u : State := { s with agenda := rest }
    let p := u.present i d c
    let b := decodeBundle p.fetchBundle
    let cm := commits p.iss.snap.rdH ins
    let ck := cm || b.ckpt || b.yieldPt
    let o : Op := { slot := sl.num, half := 0, word := sl.word, instr := ins }
    let q := issued u d c i o ck
    AboutToIssue u d c i → p.pastImage = false → p.poisoned (p.myLaunch.codeBase + p.iss.pc) 16 = false →
    b.lateHeader = none → b.badHeader = none → b.slots = [sl] → sl.instr = .ok ins → isEvent ins = false → (∀ x y, ins ≠ .cw x y) →
    (namesV ins = true → (u.task i).rowCount ≠ 0) → (∀ k ∈ specsOf ins, (u.task i).latches.has k = true) →
    (ck = true → p.holdFull i d = false) →
      exec ins q = resolve q (actOf ins q)
      ∧ (∀ t, actOf ins q = .ok t → step s = .next (State.performed (t.used o) cm b.yieldPt))
      ∧ (∀ sd, actOf ins q = .error (.wait .engine sd) → step s = .next (State.performed ((q.accepted o sd).used o) cm b.yieldPt))
      ∧ ∀ e, actOf ins q = .error e → (∀ sd, e ≠ .wait .engine sd) → step s = exec ins q

/-- R174, R176, R190, R336, R338: the operations of a bundle that passes the checks of R198, short forms among them, run in slot order, each on the state that
those before it leave, and the step ends the bundle after the last; for a bundle of one short pair that is exec of the pair. -/
def Obligations.StepRunsBundles : Prop :=
  (∀ (s0 s t : State) (o : Op) (l : List Op), runOps s0 [] s none = .ok s
    ∧ (actOf o.instr (s.at o) = .ok t → runOps s0 (o :: l) s none = runOps s0 l (portCounted o.instr t) none))
  ∧ ∀ (s : State) (d c i : Nat) (rest : List Move), s.agenda = .bundle d c :: rest → s.poweredOff = false →
    let u : State := { s with agenda := rest }
    let p := u.present i d c
    let b := decodeBundle p.fetchBundle
    let l := b.slots.flatMap (expandSlot p.iss.snapCwt)
    let cm := (goodOps l).any fun o => commits p.iss.snap.rdH o.instr
    let ck := cm || b.ckpt || b.yieldPt
    let r := opened u d c i (goodOps l) ck
    AboutToIssue u d c i → p.pastImage = false → p.poisoned (p.myLaunch.codeBase + p.iss.pc) 16 = false →
    (ck = true → p.holdFull i d = false) → checkBundle b l (decide ((u.task i).rowCount ≠ 0)) (u.task i).latches = none →
    ∀ t, runOps r (goodOps l) r none = .ok t →
      step s = .next (t.performed cm b.yieldPt)
      ∧ ∀ sl x y, b.slots = [sl] → sl.instr = .ok (.cw x y) → goodOps l ≠ [] →
          exec (.cw x y) { r with iss := { r.iss with slot := sl.num, half := 0, word := sl.word } } = .next t

/-- A step takes the next move of the agenda: an event is exec of it, after which every gang that can start does (R416). Every instruction and event answers a next state; a step stops only without power (R432),
or where the agenda names an encoded instruction as an event, which no module does (the model's own, log 5). -/
def Obligations.StepOutcomes : Prop :=
  (∀ (i : Instr) (s : State), ∃ t, exec i s = .next t)
  ∧ (∀ (s : State) (i : Instr) (rest : List Move), s.agenda = .event i :: rest → isEvent i = true → (s.poweredOff = false ∨ i = .coldReset) →
      ∀ t, exec i { s with agenda := rest } = .next t → step s = .next (t.startDue t) ∧ (t.gangs = [] → step s = .next t))
  ∧ (∀ s : State, s.poweredOff = true → (∀ m ∈ s.agenda.head?, m ≠ .event .coldReset) → step s = .fault .noPower)
  ∧ (∀ (s : State) (i : Instr) (rest : List Move), s.poweredOff = false → s.agenda = .event i :: rest → isEvent i = false →
      step s = .fault .strayMove)
  ∧ ∀ s : State, s.poweredOff = false → (∀ i, s.agenda.head? = some (.event i) → isEvent i = true) → ∃ t, step s = .next t

/-- R8, R108, R110, R116, R159, R200, R201, R368, R398, R409 to R411, R427: what cold reset leaves where the spec gives it. The registers of a task are those with which
a new task starts. -/
def Obligations.ResetState : Prop :=
  let s := State.reset
  s.memWf = true ∧ s.tasks = [] ∧ s.launches = [] ∧ s.poison = [] ∧ s.stores = [] ∧ s.cmds = [] ∧ s.bootLocked = false
  ∧ (∀ pa, s.tag pa = .value)
  ∧ (∀ d, (s.die d).timeUnc = BitVec.allOnes 64 ∧ (s.die d).moduleId = 0 ∧ (s.die d).domSize = 1 ∧ (s.die d).yieldLimit = 16384
      ∧ (s.die d).time = 0 ∧ (s.die d).timeRoot = 0 ∧ (s.die d).clBase = 0 ∧ (s.die d).clLen = 0
      ∧ ∀ st, ((s.die d).stack st).fstBase = 0 ∧ ((s.die d).stack st).fstLen = 0 ∧ s.stagingUsed (d, st) = 0
        ∧ ∀ w, s.twLen d st w = if w = 0 then 786432 else 0)
  ∧ (∀ d c k, ((s.core d c).cb k).count = 0 ∧ ((s.core d c).cb k).armed = false ∧ ((s.core d c).cb k).ovf = false
      ∧ ((s.core d c).cb k).owner = none ∧ ((s.core d c).relay k).owner = none ∧ ((s.core d c).rq k).owner = none)
  ∧ (∀ q, (s.queue q).qbase = 0 ∧ (s.queue q).qsize = 4 ∧ (s.queue q).qtail = 0 ∧ (s.queue q).qhead = 0 ∧ (s.queue q).qerr = false
      ∧ (s.queue q).cbase = 0 ∧ (s.queue q).csize = 4 ∧ (s.queue q).chead = 0 ∧ (s.queue q).ctail = 0)
  ∧ s.host.win2Base = 0 ∧ s.host.mailbox.busy = false ∧ s.log.tail = 0 ∧ s.log.head = 0 ∧ s.log.lost = 0 ∧ s.log.irq = true
  ∧ (({} : Regs).hnd = false ∧ ({} : Regs).loops = [] ∧ ({} : Regs).claimTimeout = 100000000 ∧ ∀ r : Fin 32, ({} : Regs).rdS r = 0)

/-- Every step keeps both memories in their one canonical form: addresses rise strictly, and no listed byte equals what an unlisted address reads as. -/
def Obligations.StepKeepsMemoryCanonical : Prop :=
  ∀ s t : State, s.memWf = true → step s = .next t → t.memWf = true

/-- R7, R422: bytes written at their home are read back, little-endian; every other byte is unchanged, the canonical form is kept, and the poison of exactly those
units is cleared that are written whole. -/
def Obligations.WriteThenRead : Prop :=
  ∀ (s : State) (pa n v : Nat), s.memWf = true →
    let t := s.putBytes pa n v
    t.bytes pa n = v % 2 ^ (8 * n) ∧ t.memWf = true
    ∧ (∀ a, memByte t.mem a = if pa ≤ a ∧ a < pa + n then byteAt v (a - pa) else memByte s.mem a)
    ∧ (∀ a k, a + k ≤ pa ∨ pa + n ≤ a → t.bytes a k = s.bytes a k)
    ∧ (∀ u, u ∈ t.poison ↔ u ∈ s.poison ∧ coversUnit pa n u = false)
    ∧ ∀ a k, s.bytes a (k + 1) = (memByte s.mem a).toNat + 2 ^ 8 * s.bytes (a + 1) k

/-- R342, R343, R346: taking an exception. The task is rolled back, but for USER_TRAP; its latches are lost; with a handler entry and HND = 0 the eight words of
the record go to S24 to S31, whose old values are stashed, and fetch goes on at the handler after a commit; otherwise the task ends with the code. -/
def Obligations.TrapEntry : Prop :=
  ∀ (s : State) (i : Nat) (r : TrapRec) (slot half fpc : Nat), r.code < 2 ^ 8 → slot < 4 → half < 2 → r.aux < 2 ^ 32 →
    let user := decide (r.code = 0x14)
    let u := if user then s else s.rollback i
    let t := s.takeTrap i r slot half fpc
    let z := t.task i
    (∀ h, (u.launch (u.task i).launch).handler = some h → (u.task i).live.hnd = false →
      z.latches = {} ∧ z.stallSince = none ∧ z.live.hnd = true ∧ z.live.hse = decide (r.code = 0x19) ∧ z.live.yieldCount = 0 ∧ z.live.pc = h
      ∧ (∀ k : Fin 8, z.live.stash[k] = (u.task i).live.s[24 + k.val])
      ∧ (∀ k : Fin 32, k.val < 24 → z.live.rdS k = (u.task i).live.rdS k)
      ∧ (let w := (z.live.rdS 24).toNat
         w % 2 ^ 8 = r.code ∧ w / 2 ^ 8 % 4 = slot ∧ w / 2 ^ 10 % 2 = half ∧ w / 2 ^ 11 % 2 = (if r.write then 1 else 0)
          ∧ w / 2 ^ 12 % 2 = (if r.asyncT then 1 else 0) ∧ w / 2 ^ 13 % 2 = (if user then 1 else 0) ∧ w / 2 ^ 14 % 2 ^ 18 = 0 ∧ w / 2 ^ 32 = r.aux)
      ∧ z.live.rdS 25 = BitVec.ofNat 64 (u.task i).live.pc ∧ z.live.rdS 26 = BitVec.ofNat 64 fpc ∧ z.live.rdS 27 = BitVec.ofNat 64 r.addr
      ∧ z.live.rdS 28 = BitVec.ofNat 64 r.info ∧ z.live.rdS 29 = BitVec.ofNat 64 r.info2
      ∧ z.live.rdS 30 = BitVec.ofNat 64 (u.time (u.task i).die) ∧ z.live.rdS 31 = 0
      ∧ z.live.h = (u.task i).live.h ∧ z.live.p = (u.task i).live.p ∧ z.live.m = (u.task i).live.m ∧ z.live.loops = (u.task i).live.loops
      ∧ z.dup = z.live ∧ z.withheld = [] ∧ z.shadow = [] ∧ z.shadowBad = [] ∧ t.mem = u.mem ∧ t.stores = u.stores ++ leaving u (u.task i).withheld)
    ∧ ((u.launch (u.task i).launch).handler = none ∨ (u.task i).live.hnd = true →
        t = u.modTask i fun x => { x with latches := {}, stallSince := none, ending := some (some (r.code, true)) })

/-- R266, R335: a commit copies the live registers and lets the withheld stores leave in program order; a rollback restores the registers of the last
commit, discards the withheld stores, gives each shadowed row its saved contents and poison back, and loses the latches. Both act on one task alone. -/
def Obligations.CommitAndRollback : Prop :=
  ∀ (s : State) (i : Nat),
    (let t := s.commit i
     t.task i = { s.task i with dup := (s.task i).live, withheld := [], shadow := [], shadowBad := [] }
      ∧ t.stores = s.stores ++ leaving s (s.task i).withheld ∧ t.sent = s.sent + (s.task i).withheld.length ∧ t.mem = s.mem ∧ (∀ j, j ≠ i → t.task j = s.task j)
      ∧ ∀ q, ((t.core (s.task i).die (s.task i).core).rq q).rows
          = ((s.core (s.task i).die (s.task i).core).rq q).rows.filter fun r => decide (r.takenBy ≠ some i))
    ∧ (let t := s.rollback i
       t.task i = { s.task i with live := (s.task i).dup, withheld := [], shadow := [], shadowBad := [], latches := {}, reply := none, cReply := [], stallSince := none }
      ∧ (∀ u, u ∈ t.poison ↔ u ∈ s.poison ∨ u ∈ (s.task i).shadowBad)
      ∧ t.stores = s.stores ∧ (∀ j, j ≠ i → t.task j = s.task j)
      ∧ (∀ q r, r ∈ ((t.core (s.task i).die (s.task i).core).rq q).rows → r.takenBy ≠ some i)
      ∧ (((s.task i).shadow.map (·.1)).Nodup →
          (∀ e ∈ (s.task i).shadow, ∀ k < 256, memByte t.mem (taskRow s i e.1 + k) = byteAt e.2.toNat k)
          ∧ ∀ a, (∀ e ∈ (s.task i).shadow, ¬ (taskRow s i e.1 ≤ a ∧ a < taskRow s i e.1 + 256)) → memByte t.mem a = memByte s.mem a))

/-- R108 to R110, R249: cb.arm, cb.add, cb.wait and cb.read; R250, R251: step.commit and atm.close. -/
def Obligations.BarriersAndEpochs : Prop :=
  Sys2Proof.Stated.BarrierResults ∧ Sys2Proof.Stated.BarrierChange ∧ Sys2Proof.Stated.StepAndEpoch

/-- R415 to R418: COMMIT, CANCEL, the start of a die, its lateness, STARTED and CONFIRM of a gang. -/
def Obligations.GangStarts : Prop :=
  Sys2Proof.Stated.GangStarts

/-- R418 to R420: ABORT, FREEZE, the reply to a freeze and TOKEN of a gang. -/
def Obligations.GangAborts : Prop :=
  Sys2Proof.Stated.GangAborts
end

