-- ==== Sys2Proof/Laws/Decode.lean ====
section
/-! SUPPORT. The fields of a packed word read back, and the codes of single fields read back: what the round trip of every encoded
instruction rests on. -/

set_option Elab.async false

namespace Sys2Proof

/-! ### Codes -/

@[simp] theorem getS_code (a : SSrc) : getS a.code = .ok a := by
  cases a with
  | reg n => simp [getS, SSrc.code]
  | ls => rfl
  | lm => rfl
  | lc0 => rfl
  | lc1 => rfl

@[simp] theorem getV_code (a : VSrc) : getV a.code = .ok a := by
  cases a with
  | reg n => simp [getV, VSrc.code]
  | lv0 => rfl
  | lv1 => rfl

@[simp] theorem getReg_val (d : Fin 32) : getReg d.val = .ok d := by simp [getReg]
@[simp] theorem getFin_val (n : Nat) (d : Fin n) (r : Reject) : getFin n d.val r = .ok d := by simp [getFin]
theorem getPlainS_code (a : SSrc) (h : a.isReg = true) : getPlainS a.code = .ok a := by
  cases a with
  | reg n => simp [getPlainS, SSrc.code, Except.map]
  | ls | lm | lc0 | lc1 => exact absurd h (by decide)

@[simp] theorem getTy_code (t : VTy) : getTy t.code = .ok t := by cases t <;> rfl
@[simp] theorem getMode_code (t : RMode) : getMode t.code = .ok t := by cases t <;> rfl
@[simp] theorem getScope_code (t : Scope) : getScope t.code = .ok t := by cases t <;> rfl
@[simp] theorem getHint_code (t : Hint) : getHint t.code = .ok t := by cases t <;> rfl
@[simp] theorem getOrd_code (t : Ord) : getOrd t.code = .ok t := by cases t <;> rfl
@[simp] theorem getFence_code (t : FenceMode) : getFence t.code = .ok t := by cases t <;> rfl
@[simp] theorem getSCond_code (t : SCond) : getSCond t.code = .ok t := by cases t <;> rfl
@[simp] theorem getFCond_code (t : FCond) : getFCond t.code = .ok t := by cases t <;> rfl
@[simp] theorem getICond_code (t : ICond) : getICond t.code = .ok t := by cases t <;> rfl
@[simp] theorem getAmo_code (t : AmoOp) : getAmo t.code = .ok t := by cases t <;> rfl
@[simp] theorem getFamo_code (t : FamoOp) : getFamo t.code = .ok t := by cases t <;> rfl
@[simp] theorem getFamoTy_code (t : FamoTy) : getFamoTy t.code = .ok t := by cases t <;> rfl
@[simp] theorem getHchk_code (t : HchkSel) : getHchk t.code = .ok t := by cases t <;> rfl
@[simp] theorem getEng_code (t : EngFmt) : getEng t.code = .ok t := by cases t <;> rfl
@[simp] theorem getSeamCond_code (t : SeamCond) : getSeamCond t.code = .ok t := by cases t <;> rfl
@[simp] theorem getSeamLog_code (t : SeamLog) : getSeamLog t.code = .ok t := by cases t <;> rfl
@[simp] theorem getSeamRow_code (t : SeamRow) : getSeamRow t.code = .ok t := by cases t <;> rfl
@[simp] theorem getQscl_code (t : QsclFmt) : getQscl t.code = .ok t := by cases t <;> rfl
@[simp] theorem need_true (r : Reject) : need true r = .ok () := rfl

/-! ### Bounds -/

@[simp] theorem SSrc.code_lt (a : SSrc) : a.code < 64 := by cases a <;> simp [SSrc.code]; omega
@[simp] theorem VSrc.code_lt (a : VSrc) : a.code < 64 := by cases a <;> simp [VSrc.code]; omega
@[simp] theorem VTy.code_lt (t : VTy) : t.code < 16 := by cases t <;> decide
@[simp] theorem RMode.code_lt (t : RMode) : t.code < 8 := by cases t <;> decide
@[simp] theorem RMode.code_lt16 (t : RMode) : t.code < 16 := by cases t <;> decide
@[simp] theorem Scope.code_lt (t : Scope) : t.code < 4 := by cases t <;> decide
@[simp] theorem Hint.code_lt (t : Hint) : t.code < 4 := by cases t <;> decide
@[simp] theorem Ord.code_lt (t : Ord) : t.code < 4 := by cases t <;> decide
@[simp] theorem FenceMode.code_lt (t : FenceMode) : t.code < 4 := by cases t <;> decide
@[simp] theorem SCond.code_lt (t : SCond) : t.code < 8 := by cases t <;> decide
@[simp] theorem FCond.code_lt (t : FCond) : t.code < 16 := by cases t <;> decide
@[simp] theorem ICond.code_lt (t : ICond) : t.code < 16 := by cases t <;> decide
@[simp] theorem AmoOp.code_lt (t : AmoOp) : t.code < 16 := by cases t <;> decide
@[simp] theorem FamoOp.code_lt (t : FamoOp) : t.code < 16 := by cases t <;> decide
@[simp] theorem FamoTy.code_lt (t : FamoTy) : t.code < 4 := by cases t <;> decide
@[simp] theorem HchkSel.code_lt (t : HchkSel) : t.code < 4 := by cases t <;> decide
@[simp] theorem EngFmt.code_lt (t : EngFmt) : t.code < 16 := by cases t <;> decide
@[simp] theorem SeamCond.code_lt (t : SeamCond) : t.code < 16 := by cases t <;> decide
@[simp] theorem SeamLog.code_lt (t : SeamLog) : t.code < 16 := by cases t <;> decide
@[simp] theorem SeamRow.code_lt (t : SeamRow) : t.code < 16 := by cases t <;> decide
@[simp] theorem QsclFmt.code_lt (t : QsclFmt) : t.code < 4 := by cases t <;> decide
theorem ofFlag_lt (b : Bool) : ofFlag b < 2 := by cases b <;> decide
theorem ofFlag_one (b : Bool) : (ofFlag b % 2 == 1) = b := by cases b <;> rfl
@[simp] theorem fin4_lt64 (d : Fin 4) : d.val < 64 := by omega
@[simp] theorem fin8_lt64 (d : Fin 8) : d.val < 64 := by omega
@[simp] theorem fin16_lt64 (d : Fin 16) : d.val < 64 := by omega
@[simp] theorem fin32_lt64 (d : Fin 32) : d.val < 64 := by omega
@[simp] theorem fin8_lt16 (d : Fin 8) : d.val < 16 := by omega
@[simp] theorem fin64_lt1024 (d : Fin 64) : d.val < 1024 := by omega
@[simp] theorem fin512_lt1024 (d : Fin 512) : d.val < 1024 := by omega

/-! ### Fields of form SR, and of the forms that share its boundaries (R180, R185, R186) -/

section
variable (c m d a b l : Nat)

@[simp] theorem sr_class (hc : c < 16) (hm : m < 64) (hd : d < 64) (ha : a < 64) (hb : b < 64) (hl : l < 16) :
    field (packSr c m d a b l) 31 28 = c := by simp only [field, packSr]; omega
@[simp] theorem sr_minor (hm : m < 64) (hd : d < 64) (ha : a < 64) (hb : b < 64) (hl : l < 16) :
    field (packSr c m d a b l) 27 22 = m := by simp only [field, packSr]; omega
@[simp] theorem sr_d (hd : d < 64) (ha : a < 64) (hb : b < 64) (hl : l < 16) : field (packSr c m d a b l) 21 16 = d := by
  simp only [field, packSr]; omega
@[simp] theorem sr_dhi (hd : d < 64) (ha : a < 64) (hb : b < 64) (hl : l < 16) : field (packSr c m d a b l) 21 19 = d / 8 := by
  simp only [field, packSr]; omega
@[simp] theorem sr_dlo (ha : a < 64) (hb : b < 64) (hl : l < 16) : field (packSr c m d a b l) 18 16 = d % 8 := by
  simp only [field, packSr]; omega
@[simp] theorem sr_a (ha : a < 64) (hb : b < 64) (hl : l < 16) : field (packSr c m d a b l) 15 10 = a := by simp only [field, packSr]; omega
@[simp] theorem sr_b (hb : b < 64) (hl : l < 16) : field (packSr c m d a b l) 9 4 = b := by simp only [field, packSr]; omega
@[simp] theorem sr_b8 (hb : b < 64) (hl : l < 16) : field (packSr c m d a b l) 9 8 = b / 16 := by simp only [field, packSr]; omega
@[simp] theorem sr_b7 (_hl : l < 16) : field (packSr c m d a b l) 7 4 = b % 16 := by simp only [field, packSr]; omega
@[simp] theorem sr_low (hl : l < 16) : field (packSr c m d a b l) 3 0 = l := by simp only [field, packSr]; omega
@[simp] theorem sr_low3 : field (packSr c m d a b l) 2 0 = l % 8 := by simp only [field, packSr]; omega
@[simp] theorem sr_low1 (hl : l < 16) : field (packSr c m d a b l) 3 1 = l / 2 := by simp only [field, packSr]; omega
@[simp] theorem sr_flag3 (_hl : l < 16) : flag (packSr c m d a b l) 3 = (l / 8 % 2 == 1) := by
  simp only [flag, packSr]; congr 1; omega
@[simp] theorem sr_flag0 : flag (packSr c m d a b l) 0 = (l % 2 == 1) := by simp only [flag, packSr]; congr 1; omega
@[simp] theorem sr_90 (hb : b < 64) (hl : l < 16) : field (packSr c m d a b l) 9 0 = b * 16 + l := by simp only [field, packSr]; omega
@[simp] theorem sr_91 (hb : b < 64) (hl : l < 16) : field (packSr c m d a b l) 9 1 = (b * 16 + l) / 2 := by simp only [field, packSr]; omega
@[simp] theorem sr_150 (ha : a < 64) (hb : b < 64) (hl : l < 16) : field (packSr c m d a b l) 15 0 = a * 1024 + b * 16 + l := by
  simp only [field, packSr]; omega
@[simp] theorem sr_151 (ha : a < 64) (hb : b < 64) (hl : l < 16) : field (packSr c m d a b l) 15 1 = (a * 1024 + b * 16 + l) / 2 := by
  simp only [field, packSr]; omega
@[simp] theorem sr_210 (hd : d < 64) (ha : a < 64) (hb : b < 64) (hl : l < 16) :
    field (packSr c m d a b l) 21 0 = d * 65536 + a * 1024 + b * 16 + l := by simp only [field, packSr]; omega
@[simp] theorem sr_zero : packSr c m d a b l = 0 ↔ c = 0 ∧ m = 0 ∧ d = 0 ∧ a = 0 ∧ b = 0 ∧ l = 0 := by
  simp only [packSr]; omega
end

/-! ### Form SI (R181) -/

section
variable (c m d a i : Nat)

@[simp] theorem si_31_28 (hc : c < 16) (hm : m < 64) (hd : d < 64) (ha : a < 64) (hi : i < 1024) :
    field (packSi c m d a i) 31 28 = c := by simp only [field, packSi]; omega
@[simp] theorem si_27_22 (hm : m < 64) (hd : d < 64) (ha : a < 64) (hi : i < 1024) :
    field (packSi c m d a i) 27 22 = m := by simp only [field, packSi]; omega
@[simp] theorem si_21_16 (hd : d < 64) (ha : a < 64) (hi : i < 1024) :
    field (packSi c m d a i) 21 16 = d := by simp only [field, packSi]; omega
@[simp] theorem si_21_19 (hd : d < 64) (ha : a < 64) (hi : i < 1024) :
    field (packSi c m d a i) 21 19 = d / 8 := by simp only [field, packSi]; omega
@[simp] theorem si_18_16 (ha : a < 64) (hi : i < 1024) :
    field (packSi c m d a i) 18 16 = d % 8 := by simp only [field, packSi]; omega
@[simp] theorem si_15_10 (ha : a < 64) (hi : i < 1024) :
    field (packSi c m d a i) 15 10 = a := by simp only [field, packSi]; omega
@[simp] theorem si_9_0 (hi : i < 1024) :
    field (packSi c m d a i) 9 0 = i := by simp only [field, packSi]; omega
@[simp] theorem si_9_2 (hi : i < 1024) :
    field (packSi c m d a i) 9 2 = i / 4 := by simp only [field, packSi]; omega
@[simp] theorem si_1_0  :
    field (packSi c m d a i) 1 0 = i % 4 := by simp only [field, packSi]; omega
@[simp] theorem si_21_10 (hd : d < 64) (ha : a < 64) (hi : i < 1024) :
    field (packSi c m d a i) 21 10 = d * 64 + a := by simp only [field, packSi]; omega
@[simp] theorem si_21_1 (hd : d < 64) (ha : a < 64) (hi : i < 1024) :
    field (packSi c m d a i) 21 1 = (d * 65536 + a * 1024 + i) / 2 := by simp only [field, packSi]; omega
@[simp] theorem si_flag0  :
    flag (packSi c m d a i) 0 = (i % 2 == 1) := by simp only [flag, packSi]; congr 1; omega
@[simp] theorem si_zero : packSi c m d a i = 0 ↔ c = 0 ∧ m = 0 ∧ d = 0 ∧ a = 0 ∧ i = 0 := by simp only [packSi]; omega
end

/-! ### Form CT (R182) -/

section
variable (m a i : Nat)

@[simp] theorem ct_31_28 (hm : m < 64) (ha : a < 64) (hi : i < 65536) :
    field (packCt m a i) 31 28 = 2 := by simp only [field, packCt]; omega
@[simp] theorem ct_27_22 (hm : m < 64) (ha : a < 64) (hi : i < 65536) :
    field (packCt m a i) 27 22 = m := by simp only [field, packCt]; omega
@[simp] theorem ct_21_16 (ha : a < 64) (hi : i < 65536) :
    field (packCt m a i) 21 16 = a := by simp only [field, packCt]; omega
@[simp] theorem ct_21_20 (ha : a < 64) (hi : i < 65536) :
    field (packCt m a i) 21 20 = a / 16 := by simp only [field, packCt]; omega
@[simp] theorem ct_18_16 (hi : i < 65536) :
    field (packCt m a i) 18 16 = a % 8 := by simp only [field, packCt]; omega
@[simp] theorem ct_15_0 (hi : i < 65536) :
    field (packCt m a i) 15 0 = i := by simp only [field, packCt]; omega
@[simp] theorem ct_14_12  :
    field (packCt m a i) 14 12 = i / 4096 % 8 := by simp only [field, packCt]; omega
@[simp] theorem ct_11_0  :
    field (packCt m a i) 11 0 = i % 4096 := by simp only [field, packCt]; omega
@[simp] theorem ct_15_13 (hi : i < 65536) :
    field (packCt m a i) 15 13 = i / 8192 := by simp only [field, packCt]; omega
@[simp] theorem ct_11_8  :
    field (packCt m a i) 11 8 = i / 256 % 16 := by simp only [field, packCt]; omega
@[simp] theorem ct_7_0  :
    field (packCt m a i) 7 0 = i % 256 := by simp only [field, packCt]; omega
@[simp] theorem ct_21_0 (ha : a < 64) (hi : i < 65536) :
    field (packCt m a i) 21 0 = a * 65536 + i := by simp only [field, packCt]; omega
@[simp] theorem ct_flag19 (hi : i < 65536) :
    flag (packCt m a i) 19 = (a / 8 % 2 == 1) := by simp only [flag, packCt]; congr 1; omega
@[simp] theorem ct_flag15  :
    flag (packCt m a i) 15 = (i / 32768 % 2 == 1) := by simp only [flag, packCt]; congr 1; omega
@[simp] theorem ct_flag12  :
    flag (packCt m a i) 12 = (i / 4096 % 2 == 1) := by simp only [flag, packCt]; congr 1; omega
@[simp] theorem ct_ne : packCt m a i ≠ 0 := by simp only [packCt]; omega
end

/-! ### Form MM (R183) -/

section
variable (m sz hint d h x i : Nat)

@[simp] theorem mm_31_28 (hm : m < 64) (hsz : sz < 4) (hhint : hint < 4) (hd : d < 32) (hh : h < 16) (hx : x < 8) (hi : i < 64) :
    field (packMm m sz hint d h x i) 31 28 = 3 := by simp only [field, packMm]; omega
@[simp] theorem mm_27_22 (hm : m < 64) (hsz : sz < 4) (hhint : hint < 4) (hd : d < 32) (hh : h < 16) (hx : x < 8) (hi : i < 64) :
    field (packMm m sz hint d h x i) 27 22 = m := by simp only [field, packMm]; omega
@[simp] theorem mm_21_20 (hsz : sz < 4) (hhint : hint < 4) (hd : d < 32) (hh : h < 16) (hx : x < 8) (hi : i < 64) :
    field (packMm m sz hint d h x i) 21 20 = sz := by simp only [field, packMm]; omega
@[simp] theorem mm_19_18 (hhint : hint < 4) (hd : d < 32) (hh : h < 16) (hx : x < 8) (hi : i < 64) :
    field (packMm m sz hint d h x i) 19 18 = hint := by simp only [field, packMm]; omega
@[simp] theorem mm_17_13 (hd : d < 32) (hh : h < 16) (hx : x < 8) (hi : i < 64) :
    field (packMm m sz hint d h x i) 17 13 = d := by simp only [field, packMm]; omega
@[simp] theorem mm_16_13 (hh : h < 16) (hx : x < 8) (hi : i < 64) :
    field (packMm m sz hint d h x i) 16 13 = d % 16 := by simp only [field, packMm]; omega
@[simp] theorem mm_21_17 (hsz : sz < 4) (hhint : hint < 4) (hd : d < 32) (hh : h < 16) (hx : x < 8) (hi : i < 64) :
    field (packMm m sz hint d h x i) 21 17 = sz * 8 + hint * 2 + d / 16 := by simp only [field, packMm]; omega
@[simp] theorem mm_12_9 (hh : h < 16) (hx : x < 8) (hi : i < 64) :
    field (packMm m sz hint d h x i) 12 9 = h := by simp only [field, packMm]; omega
@[simp] theorem mm_8_6 (hx : x < 8) (hi : i < 64) :
    field (packMm m sz hint d h x i) 8 6 = x := by simp only [field, packMm]; omega
@[simp] theorem mm_5_0 (hi : i < 64) :
    field (packMm m sz hint d h x i) 5 0 = i := by simp only [field, packMm]; omega
@[simp] theorem mm_8_0 (hx : x < 8) (hi : i < 64) :
    field (packMm m sz hint d h x i) 8 0 = x * 64 + i := by simp only [field, packMm]; omega
@[simp] theorem mm_21_13 (hsz : sz < 4) (hhint : hint < 4) (hd : d < 32) (hh : h < 16) (hx : x < 8) (hi : i < 64) :
    field (packMm m sz hint d h x i) 21 13 = sz * 128 + hint * 32 + d := by simp only [field, packMm]; omega
@[simp] theorem mm_21_6 (hsz : sz < 4) (hhint : hint < 4) (hd : d < 32) (hh : h < 16) (hx : x < 8) (hi : i < 64) :
    field (packMm m sz hint d h x i) 21 6 = sz * 16384 + hint * 4096 + d * 128 + h * 8 + x := by simp only [field, packMm]; omega
@[simp] theorem mm_flag20 (hhint : hint < 4) (hd : d < 32) (hh : h < 16) (hx : x < 8) (hi : i < 64) :
    flag (packMm m sz hint d h x i) 20 = (sz % 2 == 1) := by simp only [flag, packMm]; congr 1; omega
@[simp] theorem mm_flag21 (hhint : hint < 4) (hd : d < 32) (hh : h < 16) (hx : x < 8) (hi : i < 64) :
    flag (packMm m sz hint d h x i) 21 = (sz / 2 % 2 == 1) := by simp only [flag, packMm]; congr 1; omega
@[simp] theorem mm_ne : packMm m sz hint d h x i ≠ 0 := by simp only [packMm]; omega
end

/-! ### Form SY (R184) -/

section
variable (m n a d sc : Nat)

@[simp] theorem sy_31_28 (hm : m < 64) (hn : n < 256) (ha : a < 64) (hd : d < 64) (hsc : sc < 4) :
    field (packSy m n a d sc) 31 28 = 4 := by simp only [field, packSy]; omega
@[simp] theorem sy_27_22 (hm : m < 64) (hn : n < 256) (ha : a < 64) (hd : d < 64) (hsc : sc < 4) :
    field (packSy m n a d sc) 27 22 = m := by simp only [field, packSy]; omega
@[simp] theorem sy_21_14 (hn : n < 256) (ha : a < 64) (hd : d < 64) (hsc : sc < 4) :
    field (packSy m n a d sc) 21 14 = n := by simp only [field, packSy]; omega
@[simp] theorem sy_21_18 (hn : n < 256) (ha : a < 64) (hd : d < 64) (hsc : sc < 4) :
    field (packSy m n a d sc) 21 18 = n / 16 := by simp only [field, packSy]; omega
@[simp] theorem sy_17_14 (ha : a < 64) (hd : d < 64) (hsc : sc < 4) :
    field (packSy m n a d sc) 17 14 = n % 16 := by simp only [field, packSy]; omega
@[simp] theorem sy_21_16 (hn : n < 256) (ha : a < 64) (hd : d < 64) (hsc : sc < 4) :
    field (packSy m n a d sc) 21 16 = n / 4 := by simp only [field, packSy]; omega
@[simp] theorem sy_15_14 (ha : a < 64) (hd : d < 64) (hsc : sc < 4) :
    field (packSy m n a d sc) 15 14 = n % 4 := by simp only [field, packSy]; omega
@[simp] theorem sy_13_8 (ha : a < 64) (hd : d < 64) (hsc : sc < 4) :
    field (packSy m n a d sc) 13 8 = a := by simp only [field, packSy]; omega
@[simp] theorem sy_7_2 (hd : d < 64) (hsc : sc < 4) :
    field (packSy m n a d sc) 7 2 = d := by simp only [field, packSy]; omega
@[simp] theorem sy_1_0 (hsc : sc < 4) :
    field (packSy m n a d sc) 1 0 = sc := by simp only [field, packSy]; omega
@[simp] theorem sy_13_2 (ha : a < 64) (hd : d < 64) (hsc : sc < 4) :
    field (packSy m n a d sc) 13 2 = a * 64 + d := by simp only [field, packSy]; omega
@[simp] theorem sy_7_0 (hd : d < 64) (hsc : sc < 4) :
    field (packSy m n a d sc) 7 0 = d * 4 + sc := by simp only [field, packSy]; omega
@[simp] theorem sy_13_0 (ha : a < 64) (hd : d < 64) (hsc : sc < 4) :
    field (packSy m n a d sc) 13 0 = a * 256 + d * 4 + sc := by simp only [field, packSy]; omega
@[simp] theorem sy_21_2 (hn : n < 256) (ha : a < 64) (hd : d < 64) (hsc : sc < 4) :
    field (packSy m n a d sc) 21 2 = n * 4096 + a * 64 + d := by simp only [field, packSy]; omega
@[simp] theorem sy_ne : packSy m n a d sc ≠ 0 := by simp only [packSy]; omega
end

/-! ### Packed subfields -/

@[simp] theorem low_lt (b : Bool) (g : Fin 8) : ofFlag b * 8 + g.val < 16 := by have := ofFlag_lt b; omega
@[simp] theorem low_flag (b : Bool) (g : Fin 8) : ((ofFlag b * 8 + g.val) / 8 % 2 == 1) = b := by
  have : (ofFlag b * 8 + g.val) / 8 = ofFlag b := by omega
  rw [this, ofFlag_one]
@[simp] theorem fin8_mod8 (g : Fin 8) : g.val % 8 = g.val := by omega
@[simp] theorem fin16_mod16 (g : Fin 16) : g.val % 16 = g.val := by omega
@[simp] theorem ofFlag_eq_one (b : Bool) : (ofFlag b % 2 == 1) = b := ofFlag_one b
@[simp] theorem ofFlag_eq_one' (b : Bool) : (ofFlag b == 1) = b := by cases b <;> rfl

end Sys2Proof
end

