-- ==== Sys2Proof/Laws/Memory.lean ====
section
/-! SUPPORT. Laws of sparse tables and of byte memory: read after write, writes elsewhere, and the canonical form, which every write
keeps. -/

set_option Elab.async false

namespace Sys2Proof.Machine

/-! ### Sparse tables -/

theorem smGet_smPut_same {α : Type} (d : α) (m : SMap α) (k : Nat) (v : α) : smGet d (smPut m k v) k = v := by
  induction m with
  | nil => simp [smPut, smGet]
  | cons e m ih =>
    obtain ⟨k', v'⟩ := e
    simp only [smPut]
    split
    · simp [smGet]
    · split
      · simp [smGet]
      · next h1 h2 => simp [smGet, ih, Ne.symm h2]

theorem smGet_smPut_other {α : Type} (d : α) (m : SMap α) (k j : Nat) (v : α) (h : j ≠ k) :
    smGet d (smPut m k v) j = smGet d m j := by
  induction m with
  | nil => simp [smPut, smGet, Ne.symm h]
  | cons e m ih =>
    obtain ⟨k', v'⟩ := e
    simp only [smPut]
    split
    · simp [smGet, Ne.symm h]
    · split
      · next h2 => subst h2; simp [smGet, Ne.symm h]
      · simp [smGet, ih]

/-! ### Bytes -/

theorem memByte_append (l m : Mem) (a : Nat) :
    memByte (l ++ m) a = if l.any (fun c => c.1 = a) then memByte l a else memByte m a := by
  induction l with
  | nil => simp
  | cons c l ih =>
    obtain ⟨k, v⟩ := c
    by_cases h : k = a <;> simp [memByte, h, ih]

theorem memByte_filter (m : Mem) (p : Nat → Bool) (a : Nat) :
    memByte (m.filter fun c => p c.1) a = if p a then memByte m a else memDefault := by
  induction m with
  | nil => simp [memByte]
  | cons c m ih =>
    obtain ⟨k, v⟩ := c
    by_cases hk : k = a
    · subst hk
      by_cases hp : p k = true
      · simp [hp, memByte]
      · simp [hp, ih]
    · by_cases hp : p k = true
      · simp [hp, memByte, hk, ih]
      · simp [hp, memByte, hk, ih]

theorem memByte_memCells (a v n k b : Nat) :
    memByte (memCells a v n k) b = if a + k ≤ b ∧ b < a + k + n then byteAt v (b - a) else memDefault := by
  induction n generalizing k with
  | zero => simp [memCells, memByte]
  | succ n ih =>
    simp only [memCells]
    by_cases hb : b = a + k
    · subst hb
      split
      · next h => rw [ih]; simp [h, show ¬ a + (k + 1) ≤ a + k by omega]
      · simp [memByte]
    · have e : (a + (k + 1) ≤ b ∧ b < a + (k + 1) + n) ↔ (a + k ≤ b ∧ b < a + k + (n + 1)) := by omega
      split
      · rw [ih]; simp only [e]
      · simp only [memByte, ih, e, if_neg (Ne.symm hb)]

theorem memCells_keys (a v n k : Nat) : ∀ c ∈ memCells a v n k, a + k ≤ c.1 ∧ c.1 < a + k + n := by
  induction n generalizing k with
  | zero => simp [memCells]
  | succ n ih =>
    intro c hc
    simp only [memCells] at hc
    split at hc
    · have := ih (k + 1) c hc; omega
    · rcases List.mem_cons.1 hc with rfl | hc
      · simp only; omega
      · have := ih (k + 1) c hc; omega

theorem memByte_absent (l : Mem) (b : Nat) (h : l.any (fun c => c.1 = b) = false) : memByte l b = memDefault := by
  induction l with
  | nil => rfl
  | cons c l ih =>
    simp only [List.any_cons, Bool.or_eq_false_iff, decide_eq_false_iff_not] at h
    simp [memByte, h.1, ih h.2]

/-- A byte after a write: the byte written inside the interval, the old byte outside it. -/
theorem memByte_memWrite (m : Mem) (a n v b : Nat) :
    memByte (memWrite m a n v) b = if a ≤ b ∧ b < a + n then byteAt v (b - a) else memByte m b := by
  unfold memWrite
  rw [List.append_assoc, memByte_append, memByte_append]
  have hlo := memByte_filter m (fun x => decide (x < a)) b
  have hhi := memByte_filter m (fun x => decide (a + n ≤ x)) b
  simp only [decide_eq_true_eq] at hlo hhi
  rw [hlo, hhi, memByte_memCells]
  by_cases h1 : b < a
  · have e1 : ¬ (a ≤ b ∧ b < a + n) := by omega
    have e2 : ¬ (a + n ≤ b) := by omega
    have e3 : ¬ (a + 0 ≤ b ∧ b < a + 0 + n) := by omega
    have c : (memCells a v n 0).any (fun c => decide (c.1 = b)) = false := by
      rw [List.any_eq_false]; intro c hc; have := memCells_keys a v n 0 c hc
      simp only [decide_eq_true_eq]; omega
    simp only [h1, e1, e2, if_true, if_false, c]
    split
    · rfl
    · next hn =>
      have : (m.any fun c => decide (c.1 = b)) = false := by
        simp only [Bool.not_eq_true, List.any_eq_false, List.mem_filter, decide_eq_true_eq, and_imp] at hn ⊢
        intro c hc hcb; exact hn c hc (by omega) hcb
      have hd := memByte_absent m b this
      simp [hd]
  · have e0 : (List.filter (fun c => decide (c.1 < a)) m).any (fun c => decide (c.1 = b)) = false := by
      rw [List.any_eq_false]; intro c hc
      have := (List.mem_filter.1 hc).2
      simp only [decide_eq_true_eq] at this ⊢; omega
    simp only [e0, Bool.false_eq_true, if_false, h1]
    by_cases h2 : b < a + n
    · have e1 : a ≤ b ∧ b < a + n := by omega
      have e2 : ¬ (a + n ≤ b) := by omega
      simp only [e1, e2, Nat.add_zero, and_self, if_true, if_false]
      split
      · rfl
      · next hn =>
        have hb := memByte_memCells a v n 0 b
        simp only [Nat.add_zero, e1, and_self, if_true] at hb
        rw [← hb]
        exact (memByte_absent _ _ (Bool.not_eq_true _ ▸ hn)).symm
    · have e1 : ¬ (a ≤ b ∧ b < a + n) := by omega
      have e2 : a + n ≤ b := by omega
      have c : (memCells a v n 0).any (fun c => decide (c.1 = b)) = false := by
        rw [List.any_eq_false]; intro c hc; have := memCells_keys a v n 0 c hc
        simp only [decide_eq_true_eq]; omega
      simp only [c, e1, e2, Bool.false_eq_true, if_true, if_false]

/-- A byte outside the interval of a write is unchanged. -/
theorem memByte_memWrite_outside (m : Mem) (a n v b : Nat) (h : b < a ∨ a + n ≤ b) :
    memByte (memWrite m a n v) b = memByte m b := by
  rw [memByte_memWrite, if_neg (by omega)]

/-! ### The canonical form -/

/-- The canonical form as a pairwise order and a condition on each cell. -/
theorem wf_iff (m : Mem) : Mem.wf m = true ↔ (m.Pairwise fun c d => c.1 < d.1) ∧ ∀ c ∈ m, c.2 ≠ memDefault := by
  induction m with
  | nil => simp [Mem.wf]
  | cons c m ih =>
    cases m with
    | nil => simp [Mem.wf]
    | cons d m =>
      simp only [Mem.wf, Bool.and_eq_true, bne_iff_ne, ne_eq, decide_eq_true_eq, ih, List.pairwise_cons, List.mem_cons,
        forall_eq_or_imp]
      constructor
      · rintro ⟨⟨h1, h2⟩, ⟨h3, h4⟩, h5⟩
        exact ⟨⟨⟨h2, fun x hx => lt_trans h2 (h3 x hx)⟩, h3, h4⟩, h1, h5⟩
      · rintro ⟨⟨⟨h2, _⟩, h3, h4⟩, h1, h5⟩
        exact ⟨⟨h1, h2⟩, ⟨h3, h4⟩, h5⟩

theorem memCells_sorted (a v n k : Nat) :
    ((memCells a v n k).Pairwise fun c d => c.1 < d.1) ∧ ∀ c ∈ memCells a v n k, c.2 ≠ memDefault := by
  induction n generalizing k with
  | zero => simp [memCells]
  | succ n ih =>
    simp only [memCells]
    split
    · exact ih (k + 1)
    · next h =>
      refine ⟨List.pairwise_cons.2 ⟨fun c hc => ?_, (ih (k + 1)).1⟩, ?_⟩
      · have := memCells_keys a v n (k + 1) c hc; simp only; omega
      · intro c hc
        rcases List.mem_cons.1 hc with rfl | hc
        · exact h
        · exact (ih (k + 1)).2 c hc

/-- A write keeps the canonical form. -/
theorem wf_memWrite (m : Mem) (a n v : Nat) (h : Mem.wf m = true) : Mem.wf (memWrite m a n v) = true := by
  rw [wf_iff] at h ⊢
  obtain ⟨hs, hd⟩ := h
  have cells := memCells_sorted a v n 0
  have keys := memCells_keys a v n 0
  unfold memWrite
  refine ⟨List.pairwise_append.2 ⟨List.pairwise_append.2 ⟨hs.filter _, cells.1, ?_⟩, hs.filter _, ?_⟩, ?_⟩
  · intro c hc d hd
    have h1 := (List.mem_filter.1 hc).2
    have h2 := keys d hd
    simp only [decide_eq_true_eq] at h1; omega
  · intro c hc d hd
    have h2 := (List.mem_filter.1 hd).2
    simp only [decide_eq_true_eq] at h2
    rcases List.mem_append.1 hc with hc | hc
    · have h1 := (List.mem_filter.1 hc).2
      simp only [decide_eq_true_eq] at h1; omega
    · have h1 := keys c hc; omega
  · intro c hc
    rcases List.mem_append.1 hc with hc | hc
    · rcases List.mem_append.1 hc with hc | hc
      · exact hd c (List.mem_filter.1 hc).1
      · exact cells.2 c hc
    · exact hd c (List.mem_filter.1 hc).1

/-! ### Reading several bytes -/

theorem memRead_sum (m : Mem) (a n : Nat) :
    memRead m a n = (m.map fun c => if a ≤ c.1 ∧ c.1 < a + n then c.2.toNat * 2 ^ (8 * (c.1 - a)) else 0).sum := by
  have h : ∀ (m : Mem) (acc : Nat),
      m.foldl (fun acc c => if a ≤ c.1 ∧ c.1 < a + n then acc + c.2.toNat * 2 ^ (8 * (c.1 - a)) else acc) acc
        = acc + (m.map fun c => if a ≤ c.1 ∧ c.1 < a + n then c.2.toNat * 2 ^ (8 * (c.1 - a)) else 0).sum := by
    intro m
    induction m with
    | nil => simp
    | cons c m ih =>
      intro acc
      simp only [List.foldl_cons, List.map_cons, List.sum_cons]
      split <;> rw [ih] <;> omega
  simpa [memRead] using h m 0

theorem memCells_sum (a v n k : Nat) :
    ((memCells a v n k).map fun c => if a ≤ c.1 ∧ c.1 < a + (k + n) then c.2.toNat * 2 ^ (8 * (c.1 - a)) else 0).sum
      = v / 2 ^ (8 * k) % 2 ^ (8 * n) * 2 ^ (8 * k) := by
  induction n generalizing k with
  | zero => simp [memCells, Nat.mod_one]
  | succ n ih =>
    have hb : (byteAt v k).toNat = v / 2 ^ (8 * k) % 256 := by simp [byteAt]
    have hs : v / 2 ^ (8 * k) % 2 ^ (8 * (n + 1)) * 2 ^ (8 * k)
        = (byteAt v k).toNat * 2 ^ (8 * k) + v / 2 ^ (8 * (k + 1)) % 2 ^ (8 * n) * 2 ^ (8 * (k + 1)) := by
      have e1 : (2 : Nat) ^ (8 * (n + 1)) = 256 * 2 ^ (8 * n) := by
        rw [show 8 * (n + 1) = 8 + 8 * n by ring, pow_add]; norm_num
      have e2 : (2 : Nat) ^ (8 * (k + 1)) = 2 ^ (8 * k) * 256 := by
        rw [show 8 * (k + 1) = 8 * k + 8 by ring, pow_add]; norm_num
      rw [hb, e1, e2, Nat.mod_mul, ← Nat.div_div_eq_div_mul]
      ring
    have e : k + 1 + n = k + (n + 1) := by omega
    have ih' := ih (k + 1)
    rw [e] at ih'
    simp only [memCells]
    split
    · next h => rw [ih', hs, h]; simp [memDefault]
    · simp only [List.map_cons, List.sum_cons, ih', hs]
      rw [if_pos (by omega), Nat.add_sub_cancel_left]

/-- Reading back what has just been written gives it, modulo the width. -/
theorem memRead_memWrite_same (m : Mem) (a n v : Nat) : memRead (memWrite m a n v) a n = v % 2 ^ (8 * n) := by
  have zero : ∀ l : Mem, (∀ c ∈ l, ¬ (a ≤ c.1 ∧ c.1 < a + n)) →
      (l.map fun c => if a ≤ c.1 ∧ c.1 < a + n then c.2.toNat * 2 ^ (8 * (c.1 - a)) else 0).sum = 0 := by
    intro l h
    rw [List.sum_eq_zero]
    intro x hx
    obtain ⟨c, hc, rfl⟩ := List.mem_map.1 hx
    rw [if_neg (h c hc)]
  rw [memRead_sum, memWrite, List.map_append, List.map_append, List.sum_append, List.sum_append]
  have c := memCells_sum a v n 0
  simp only [Nat.zero_add, Nat.mul_zero, pow_zero, Nat.div_one, Nat.mul_one] at c
  rw [c, zero, zero]
  · omega
  · intro c hc; have := (List.mem_filter.1 hc).2; simp only [decide_eq_true_eq] at this; omega
  · intro c hc; have := (List.mem_filter.1 hc).2; simp only [decide_eq_true_eq] at this; omega

/-- A read of bytes that a write does not touch is unchanged. -/
theorem memRead_memWrite_apart (m : Mem) (a n v b k : Nat) (h : b + k ≤ a ∨ a + n ≤ b) :
    memRead (memWrite m a n v) b k = memRead m b k := by
  rw [memRead_sum, memRead_sum, memWrite, List.map_append, List.map_append, List.sum_append, List.sum_append]
  have hc : ((memCells a v n 0).map fun c => if b ≤ c.1 ∧ c.1 < b + k then c.2.toNat * 2 ^ (8 * (c.1 - b)) else 0).sum = 0 := by
    rw [List.sum_eq_zero]
    intro x hx
    obtain ⟨c, hc, rfl⟩ := List.mem_map.1 hx
    have := memCells_keys a v n 0 c hc
    rw [if_neg (by omega)]
  rw [hc, Nat.add_zero]
  induction m with
  | nil => simp
  | cons c m ih =>
    simp only [List.filter_cons, List.map_cons, List.sum_cons]
    by_cases h1 : c.1 < a <;> by_cases h2 : a + n ≤ c.1
    · omega
    · simp only [h1, h2, decide_true, decide_false, if_true, Bool.false_eq_true, if_false, List.map_cons, List.sum_cons]; omega
    · simp only [h1, h2, decide_true, decide_false, if_true, Bool.false_eq_true, if_false, List.map_cons, List.sum_cons]; omega
    · simp only [h1, h2, decide_false, Bool.false_eq_true, if_false]
      rw [if_neg (by omega : ¬ (b ≤ c.1 ∧ c.1 < b + k))]; omega

end Sys2Proof.Machine
end

