-- ==== Sys2Proof/Laws/State.lean ====
section
/-! SUPPORT. One lemma per field of State and per named update, true by unfolding, so that no later proof unfolds a record update; and the
reads of the four tables after their updates. -/

set_option Elab.async false

namespace Sys2Proof.Machine


/-! ### setTask -/

@[simp] theorem State.setTask_agenda (s : State) (i : Nat) (t : Task) : (s.setTask i t).agenda = s.agenda := rfl
@[simp] theorem State.setTask_clock (s : State) (i : Nat) (t : Task) : (s.setTask i t).clock = s.clock := rfl
@[simp] theorem State.setTask_elapsed (s : State) (i : Nat) (t : Task) : (s.setTask i t).elapsed = s.elapsed := rfl
@[simp] theorem State.setTask_heldChunks (s : State) (i : Nat) (t : Task) : (s.setTask i t).heldChunks = s.heldChunks := rfl
@[simp] theorem State.setTask_launches (s : State) (i : Nat) (t : Task) : (s.setTask i t).launches = s.launches := rfl
@[simp] theorem State.setTask_cores (s : State) (i : Nat) (t : Task) : (s.setTask i t).cores = s.cores := rfl
@[simp] theorem State.setTask_dies (s : State) (i : Nat) (t : Task) : (s.setTask i t).dies = s.dies := rfl
@[simp] theorem State.setTask_mem (s : State) (i : Nat) (t : Task) : (s.setTask i t).mem = s.mem := rfl
@[simp] theorem State.setTask_poison (s : State) (i : Nat) (t : Task) : (s.setTask i t).poison = s.poison := rfl
@[simp] theorem State.setTask_tags (s : State) (i : Nat) (t : Task) : (s.setTask i t).tags = s.tags := rfl
@[simp] theorem State.setTask_dirty (s : State) (i : Nat) (t : Task) : (s.setTask i t).dirty = s.dirty := rfl
@[simp] theorem State.setTask_nodes (s : State) (i : Nat) (t : Task) : (s.setTask i t).nodes = s.nodes := rfl
@[simp] theorem State.setTask_badFrames (s : State) (i : Nat) (t : Task) : (s.setTask i t).badFrames = s.badFrames := rfl
@[simp] theorem State.setTask_saved (s : State) (i : Nat) (t : Task) : (s.setTask i t).saved = s.saved := rfl
@[simp] theorem State.setTask_stores (s : State) (i : Nat) (t : Task) : (s.setTask i t).stores = s.stores := rfl
@[simp] theorem State.setTask_loads (s : State) (i : Nat) (t : Task) : (s.setTask i t).loads = s.loads := rfl
@[simp] theorem State.setTask_atomics (s : State) (i : Nat) (t : Task) : (s.setTask i t).atomics = s.atomics := rfl
@[simp] theorem State.setTask_updates (s : State) (i : Nat) (t : Task) : (s.setTask i t).updates = s.updates := rfl
@[simp] theorem State.setTask_famoWait (s : State) (i : Nat) (t : Task) : (s.setTask i t).famoWait = s.famoWait := rfl
@[simp] theorem State.setTask_famoSent (s : State) (i : Nat) (t : Task) : (s.setTask i t).famoSent = s.famoSent := rfl
@[simp] theorem State.setTask_claimReqs (s : State) (i : Nat) (t : Task) : (s.setTask i t).claimReqs = s.claimReqs := rfl
@[simp] theorem State.setTask_walks (s : State) (i : Nat) (t : Task) : (s.setTask i t).walks = s.walks := rfl
@[simp] theorem State.setTask_migrations (s : State) (i : Nat) (t : Task) : (s.setTask i t).migrations = s.migrations := rfl
@[simp] theorem State.setTask_cmds (s : State) (i : Nat) (t : Task) : (s.setTask i t).cmds = s.cmds := rfl
@[simp] theorem State.setTask_issued (s : State) (i : Nat) (t : Task) : (s.setTask i t).issued = s.issued := rfl
@[simp] theorem State.setTask_sent (s : State) (i : Nat) (t : Task) : (s.setTask i t).sent = s.sent := rfl
@[simp] theorem State.setTask_foldMsgs (s : State) (i : Nat) (t : Task) : (s.setTask i t).foldMsgs = s.foldMsgs := rfl
@[simp] theorem State.setTask_rounds (s : State) (i : Nat) (t : Task) : (s.setTask i t).rounds = s.rounds := rfl
@[simp] theorem State.setTask_host (s : State) (i : Nat) (t : Task) : (s.setTask i t).host = s.host := rfl
@[simp] theorem State.setTask_log (s : State) (i : Nat) (t : Task) : (s.setTask i t).log = s.log := rfl
@[simp] theorem State.setTask_links (s : State) (i : Nat) (t : Task) : (s.setTask i t).links = s.links := rfl
@[simp] theorem State.setTask_gangs (s : State) (i : Nat) (t : Task) : (s.setTask i t).gangs = s.gangs := rfl
@[simp] theorem State.setTask_bootLocked (s : State) (i : Nat) (t : Task) : (s.setTask i t).bootLocked = s.bootLocked := rfl
@[simp] theorem State.setTask_moduleDown (s : State) (i : Nat) (t : Task) : (s.setTask i t).moduleDown = s.moduleDown := rfl
@[simp] theorem State.setTask_poweredOff (s : State) (i : Nat) (t : Task) : (s.setTask i t).poweredOff = s.poweredOff := rfl
@[simp] theorem State.setTask_flashImage (s : State) (i : Nat) (t : Task) : (s.setTask i t).flashImage = s.flashImage := rfl
@[simp] theorem State.setTask_firmware (s : State) (i : Nat) (t : Task) : (s.setTask i t).firmware = s.firmware := rfl
@[simp] theorem State.setTask_freeCount (s : State) (i : Nat) (t : Task) : (s.setTask i t).freeCount = s.freeCount := rfl
@[simp] theorem State.setTask_iss (s : State) (i : Nat) (t : Task) : (s.setTask i t).iss = s.iss := rfl

/-! ### setCore -/

@[simp] theorem State.setCore_agenda (s : State) (d c : Nat) (x : Core) : (s.setCore d c x).agenda = s.agenda := rfl
@[simp] theorem State.setCore_clock (s : State) (d c : Nat) (x : Core) : (s.setCore d c x).clock = s.clock := rfl
@[simp] theorem State.setCore_elapsed (s : State) (d c : Nat) (x : Core) : (s.setCore d c x).elapsed = s.elapsed := rfl
@[simp] theorem State.setCore_heldChunks (s : State) (d c : Nat) (x : Core) : (s.setCore d c x).heldChunks = s.heldChunks := rfl
@[simp] theorem State.setCore_tasks (s : State) (d c : Nat) (x : Core) : (s.setCore d c x).tasks = s.tasks := rfl
@[simp] theorem State.setCore_launches (s : State) (d c : Nat) (x : Core) : (s.setCore d c x).launches = s.launches := rfl
@[simp] theorem State.setCore_dies (s : State) (d c : Nat) (x : Core) : (s.setCore d c x).dies = s.dies := rfl
@[simp] theorem State.setCore_mem (s : State) (d c : Nat) (x : Core) : (s.setCore d c x).mem = s.mem := rfl
@[simp] theorem State.setCore_poison (s : State) (d c : Nat) (x : Core) : (s.setCore d c x).poison = s.poison := rfl
@[simp] theorem State.setCore_tags (s : State) (d c : Nat) (x : Core) : (s.setCore d c x).tags = s.tags := rfl
@[simp] theorem State.setCore_dirty (s : State) (d c : Nat) (x : Core) : (s.setCore d c x).dirty = s.dirty := rfl
@[simp] theorem State.setCore_nodes (s : State) (d c : Nat) (x : Core) : (s.setCore d c x).nodes = s.nodes := rfl
@[simp] theorem State.setCore_badFrames (s : State) (d c : Nat) (x : Core) : (s.setCore d c x).badFrames = s.badFrames := rfl
@[simp] theorem State.setCore_saved (s : State) (d c : Nat) (x : Core) : (s.setCore d c x).saved = s.saved := rfl
@[simp] theorem State.setCore_stores (s : State) (d c : Nat) (x : Core) : (s.setCore d c x).stores = s.stores := rfl
@[simp] theorem State.setCore_loads (s : State) (d c : Nat) (x : Core) : (s.setCore d c x).loads = s.loads := rfl
@[simp] theorem State.setCore_atomics (s : State) (d c : Nat) (x : Core) : (s.setCore d c x).atomics = s.atomics := rfl
@[simp] theorem State.setCore_updates (s : State) (d c : Nat) (x : Core) : (s.setCore d c x).updates = s.updates := rfl
@[simp] theorem State.setCore_famoWait (s : State) (d c : Nat) (x : Core) : (s.setCore d c x).famoWait = s.famoWait := rfl
@[simp] theorem State.setCore_famoSent (s : State) (d c : Nat) (x : Core) : (s.setCore d c x).famoSent = s.famoSent := rfl
@[simp] theorem State.setCore_claimReqs (s : State) (d c : Nat) (x : Core) : (s.setCore d c x).claimReqs = s.claimReqs := rfl
@[simp] theorem State.setCore_walks (s : State) (d c : Nat) (x : Core) : (s.setCore d c x).walks = s.walks := rfl
@[simp] theorem State.setCore_migrations (s : State) (d c : Nat) (x : Core) : (s.setCore d c x).migrations = s.migrations := rfl
@[simp] theorem State.setCore_cmds (s : State) (d c : Nat) (x : Core) : (s.setCore d c x).cmds = s.cmds := rfl
@[simp] theorem State.setCore_issued (s : State) (d c : Nat) (x : Core) : (s.setCore d c x).issued = s.issued := rfl
@[simp] theorem State.setCore_sent (s : State) (d c : Nat) (x : Core) : (s.setCore d c x).sent = s.sent := rfl
@[simp] theorem State.setCore_foldMsgs (s : State) (d c : Nat) (x : Core) : (s.setCore d c x).foldMsgs = s.foldMsgs := rfl
@[simp] theorem State.setCore_rounds (s : State) (d c : Nat) (x : Core) : (s.setCore d c x).rounds = s.rounds := rfl
@[simp] theorem State.setCore_host (s : State) (d c : Nat) (x : Core) : (s.setCore d c x).host = s.host := rfl
@[simp] theorem State.setCore_log (s : State) (d c : Nat) (x : Core) : (s.setCore d c x).log = s.log := rfl
@[simp] theorem State.setCore_links (s : State) (d c : Nat) (x : Core) : (s.setCore d c x).links = s.links := rfl
@[simp] theorem State.setCore_gangs (s : State) (d c : Nat) (x : Core) : (s.setCore d c x).gangs = s.gangs := rfl
@[simp] theorem State.setCore_bootLocked (s : State) (d c : Nat) (x : Core) : (s.setCore d c x).bootLocked = s.bootLocked := rfl
@[simp] theorem State.setCore_moduleDown (s : State) (d c : Nat) (x : Core) : (s.setCore d c x).moduleDown = s.moduleDown := rfl
@[simp] theorem State.setCore_poweredOff (s : State) (d c : Nat) (x : Core) : (s.setCore d c x).poweredOff = s.poweredOff := rfl
@[simp] theorem State.setCore_flashImage (s : State) (d c : Nat) (x : Core) : (s.setCore d c x).flashImage = s.flashImage := rfl
@[simp] theorem State.setCore_firmware (s : State) (d c : Nat) (x : Core) : (s.setCore d c x).firmware = s.firmware := rfl
@[simp] theorem State.setCore_freeCount (s : State) (d c : Nat) (x : Core) : (s.setCore d c x).freeCount = s.freeCount := rfl
@[simp] theorem State.setCore_iss (s : State) (d c : Nat) (x : Core) : (s.setCore d c x).iss = s.iss := rfl

/-! ### setDie -/

@[simp] theorem State.setDie_agenda (s : State) (d : Nat) (x : Die) : (s.setDie d x).agenda = s.agenda := rfl
@[simp] theorem State.setDie_clock (s : State) (d : Nat) (x : Die) : (s.setDie d x).clock = s.clock := rfl
@[simp] theorem State.setDie_elapsed (s : State) (d : Nat) (x : Die) : (s.setDie d x).elapsed = s.elapsed := rfl
@[simp] theorem State.setDie_heldChunks (s : State) (d : Nat) (x : Die) : (s.setDie d x).heldChunks = s.heldChunks := rfl
@[simp] theorem State.setDie_tasks (s : State) (d : Nat) (x : Die) : (s.setDie d x).tasks = s.tasks := rfl
@[simp] theorem State.setDie_launches (s : State) (d : Nat) (x : Die) : (s.setDie d x).launches = s.launches := rfl
@[simp] theorem State.setDie_cores (s : State) (d : Nat) (x : Die) : (s.setDie d x).cores = s.cores := rfl
@[simp] theorem State.setDie_mem (s : State) (d : Nat) (x : Die) : (s.setDie d x).mem = s.mem := rfl
@[simp] theorem State.setDie_poison (s : State) (d : Nat) (x : Die) : (s.setDie d x).poison = s.poison := rfl
@[simp] theorem State.setDie_tags (s : State) (d : Nat) (x : Die) : (s.setDie d x).tags = s.tags := rfl
@[simp] theorem State.setDie_dirty (s : State) (d : Nat) (x : Die) : (s.setDie d x).dirty = s.dirty := rfl
@[simp] theorem State.setDie_nodes (s : State) (d : Nat) (x : Die) : (s.setDie d x).nodes = s.nodes := rfl
@[simp] theorem State.setDie_badFrames (s : State) (d : Nat) (x : Die) : (s.setDie d x).badFrames = s.badFrames := rfl
@[simp] theorem State.setDie_saved (s : State) (d : Nat) (x : Die) : (s.setDie d x).saved = s.saved := rfl
@[simp] theorem State.setDie_stores (s : State) (d : Nat) (x : Die) : (s.setDie d x).stores = s.stores := rfl
@[simp] theorem State.setDie_loads (s : State) (d : Nat) (x : Die) : (s.setDie d x).loads = s.loads := rfl
@[simp] theorem State.setDie_atomics (s : State) (d : Nat) (x : Die) : (s.setDie d x).atomics = s.atomics := rfl
@[simp] theorem State.setDie_updates (s : State) (d : Nat) (x : Die) : (s.setDie d x).updates = s.updates := rfl
@[simp] theorem State.setDie_famoWait (s : State) (d : Nat) (x : Die) : (s.setDie d x).famoWait = s.famoWait := rfl
@[simp] theorem State.setDie_famoSent (s : State) (d : Nat) (x : Die) : (s.setDie d x).famoSent = s.famoSent := rfl
@[simp] theorem State.setDie_claimReqs (s : State) (d : Nat) (x : Die) : (s.setDie d x).claimReqs = s.claimReqs := rfl
@[simp] theorem State.setDie_walks (s : State) (d : Nat) (x : Die) : (s.setDie d x).walks = s.walks := rfl
@[simp] theorem State.setDie_migrations (s : State) (d : Nat) (x : Die) : (s.setDie d x).migrations = s.migrations := rfl
@[simp] theorem State.setDie_cmds (s : State) (d : Nat) (x : Die) : (s.setDie d x).cmds = s.cmds := rfl
@[simp] theorem State.setDie_issued (s : State) (d : Nat) (x : Die) : (s.setDie d x).issued = s.issued := rfl
@[simp] theorem State.setDie_sent (s : State) (d : Nat) (x : Die) : (s.setDie d x).sent = s.sent := rfl
@[simp] theorem State.setDie_foldMsgs (s : State) (d : Nat) (x : Die) : (s.setDie d x).foldMsgs = s.foldMsgs := rfl
@[simp] theorem State.setDie_rounds (s : State) (d : Nat) (x : Die) : (s.setDie d x).rounds = s.rounds := rfl
@[simp] theorem State.setDie_host (s : State) (d : Nat) (x : Die) : (s.setDie d x).host = s.host := rfl
@[simp] theorem State.setDie_log (s : State) (d : Nat) (x : Die) : (s.setDie d x).log = s.log := rfl
@[simp] theorem State.setDie_links (s : State) (d : Nat) (x : Die) : (s.setDie d x).links = s.links := rfl
@[simp] theorem State.setDie_gangs (s : State) (d : Nat) (x : Die) : (s.setDie d x).gangs = s.gangs := rfl
@[simp] theorem State.setDie_bootLocked (s : State) (d : Nat) (x : Die) : (s.setDie d x).bootLocked = s.bootLocked := rfl
@[simp] theorem State.setDie_moduleDown (s : State) (d : Nat) (x : Die) : (s.setDie d x).moduleDown = s.moduleDown := rfl
@[simp] theorem State.setDie_poweredOff (s : State) (d : Nat) (x : Die) : (s.setDie d x).poweredOff = s.poweredOff := rfl
@[simp] theorem State.setDie_flashImage (s : State) (d : Nat) (x : Die) : (s.setDie d x).flashImage = s.flashImage := rfl
@[simp] theorem State.setDie_firmware (s : State) (d : Nat) (x : Die) : (s.setDie d x).firmware = s.firmware := rfl
@[simp] theorem State.setDie_freeCount (s : State) (d : Nat) (x : Die) : (s.setDie d x).freeCount = s.freeCount := rfl
@[simp] theorem State.setDie_iss (s : State) (d : Nat) (x : Die) : (s.setDie d x).iss = s.iss := rfl

/-! ### setLaunch -/

@[simp] theorem State.setLaunch_agenda (s : State) (n : Nat) (x : Launch) : (s.setLaunch n x).agenda = s.agenda := rfl
@[simp] theorem State.setLaunch_clock (s : State) (n : Nat) (x : Launch) : (s.setLaunch n x).clock = s.clock := rfl
@[simp] theorem State.setLaunch_elapsed (s : State) (n : Nat) (x : Launch) : (s.setLaunch n x).elapsed = s.elapsed := rfl
@[simp] theorem State.setLaunch_heldChunks (s : State) (n : Nat) (x : Launch) : (s.setLaunch n x).heldChunks = s.heldChunks := rfl
@[simp] theorem State.setLaunch_tasks (s : State) (n : Nat) (x : Launch) : (s.setLaunch n x).tasks = s.tasks := rfl
@[simp] theorem State.setLaunch_cores (s : State) (n : Nat) (x : Launch) : (s.setLaunch n x).cores = s.cores := rfl
@[simp] theorem State.setLaunch_dies (s : State) (n : Nat) (x : Launch) : (s.setLaunch n x).dies = s.dies := rfl
@[simp] theorem State.setLaunch_mem (s : State) (n : Nat) (x : Launch) : (s.setLaunch n x).mem = s.mem := rfl
@[simp] theorem State.setLaunch_poison (s : State) (n : Nat) (x : Launch) : (s.setLaunch n x).poison = s.poison := rfl
@[simp] theorem State.setLaunch_tags (s : State) (n : Nat) (x : Launch) : (s.setLaunch n x).tags = s.tags := rfl
@[simp] theorem State.setLaunch_dirty (s : State) (n : Nat) (x : Launch) : (s.setLaunch n x).dirty = s.dirty := rfl
@[simp] theorem State.setLaunch_nodes (s : State) (n : Nat) (x : Launch) : (s.setLaunch n x).nodes = s.nodes := rfl
@[simp] theorem State.setLaunch_badFrames (s : State) (n : Nat) (x : Launch) : (s.setLaunch n x).badFrames = s.badFrames := rfl
@[simp] theorem State.setLaunch_saved (s : State) (n : Nat) (x : Launch) : (s.setLaunch n x).saved = s.saved := rfl
@[simp] theorem State.setLaunch_stores (s : State) (n : Nat) (x : Launch) : (s.setLaunch n x).stores = s.stores := rfl
@[simp] theorem State.setLaunch_loads (s : State) (n : Nat) (x : Launch) : (s.setLaunch n x).loads = s.loads := rfl
@[simp] theorem State.setLaunch_atomics (s : State) (n : Nat) (x : Launch) : (s.setLaunch n x).atomics = s.atomics := rfl
@[simp] theorem State.setLaunch_updates (s : State) (n : Nat) (x : Launch) : (s.setLaunch n x).updates = s.updates := rfl
@[simp] theorem State.setLaunch_famoWait (s : State) (n : Nat) (x : Launch) : (s.setLaunch n x).famoWait = s.famoWait := rfl
@[simp] theorem State.setLaunch_famoSent (s : State) (n : Nat) (x : Launch) : (s.setLaunch n x).famoSent = s.famoSent := rfl
@[simp] theorem State.setLaunch_claimReqs (s : State) (n : Nat) (x : Launch) : (s.setLaunch n x).claimReqs = s.claimReqs := rfl
@[simp] theorem State.setLaunch_walks (s : State) (n : Nat) (x : Launch) : (s.setLaunch n x).walks = s.walks := rfl
@[simp] theorem State.setLaunch_migrations (s : State) (n : Nat) (x : Launch) : (s.setLaunch n x).migrations = s.migrations := rfl
@[simp] theorem State.setLaunch_cmds (s : State) (n : Nat) (x : Launch) : (s.setLaunch n x).cmds = s.cmds := rfl
@[simp] theorem State.setLaunch_issued (s : State) (n : Nat) (x : Launch) : (s.setLaunch n x).issued = s.issued := rfl
@[simp] theorem State.setLaunch_sent (s : State) (n : Nat) (x : Launch) : (s.setLaunch n x).sent = s.sent := rfl
@[simp] theorem State.setLaunch_foldMsgs (s : State) (n : Nat) (x : Launch) : (s.setLaunch n x).foldMsgs = s.foldMsgs := rfl
@[simp] theorem State.setLaunch_rounds (s : State) (n : Nat) (x : Launch) : (s.setLaunch n x).rounds = s.rounds := rfl
@[simp] theorem State.setLaunch_host (s : State) (n : Nat) (x : Launch) : (s.setLaunch n x).host = s.host := rfl
@[simp] theorem State.setLaunch_log (s : State) (n : Nat) (x : Launch) : (s.setLaunch n x).log = s.log := rfl
@[simp] theorem State.setLaunch_links (s : State) (n : Nat) (x : Launch) : (s.setLaunch n x).links = s.links := rfl
@[simp] theorem State.setLaunch_gangs (s : State) (n : Nat) (x : Launch) : (s.setLaunch n x).gangs = s.gangs := rfl
@[simp] theorem State.setLaunch_bootLocked (s : State) (n : Nat) (x : Launch) : (s.setLaunch n x).bootLocked = s.bootLocked := rfl
@[simp] theorem State.setLaunch_moduleDown (s : State) (n : Nat) (x : Launch) : (s.setLaunch n x).moduleDown = s.moduleDown := rfl
@[simp] theorem State.setLaunch_poweredOff (s : State) (n : Nat) (x : Launch) : (s.setLaunch n x).poweredOff = s.poweredOff := rfl
@[simp] theorem State.setLaunch_flashImage (s : State) (n : Nat) (x : Launch) : (s.setLaunch n x).flashImage = s.flashImage := rfl
@[simp] theorem State.setLaunch_firmware (s : State) (n : Nat) (x : Launch) : (s.setLaunch n x).firmware = s.firmware := rfl
@[simp] theorem State.setLaunch_freeCount (s : State) (n : Nat) (x : Launch) : (s.setLaunch n x).freeCount = s.freeCount := rfl
@[simp] theorem State.setLaunch_iss (s : State) (n : Nat) (x : Launch) : (s.setLaunch n x).iss = s.iss := rfl

/-! ### modTask -/

@[simp] theorem State.modTask_agenda (s : State) (i : Nat) (f : Task → Task) : (s.modTask i f).agenda = s.agenda := rfl
@[simp] theorem State.modTask_clock (s : State) (i : Nat) (f : Task → Task) : (s.modTask i f).clock = s.clock := rfl
@[simp] theorem State.modTask_elapsed (s : State) (i : Nat) (f : Task → Task) : (s.modTask i f).elapsed = s.elapsed := rfl
@[simp] theorem State.modTask_heldChunks (s : State) (i : Nat) (f : Task → Task) : (s.modTask i f).heldChunks = s.heldChunks := rfl
@[simp] theorem State.modTask_launches (s : State) (i : Nat) (f : Task → Task) : (s.modTask i f).launches = s.launches := rfl
@[simp] theorem State.modTask_cores (s : State) (i : Nat) (f : Task → Task) : (s.modTask i f).cores = s.cores := rfl
@[simp] theorem State.modTask_dies (s : State) (i : Nat) (f : Task → Task) : (s.modTask i f).dies = s.dies := rfl
@[simp] theorem State.modTask_mem (s : State) (i : Nat) (f : Task → Task) : (s.modTask i f).mem = s.mem := rfl
@[simp] theorem State.modTask_poison (s : State) (i : Nat) (f : Task → Task) : (s.modTask i f).poison = s.poison := rfl
@[simp] theorem State.modTask_tags (s : State) (i : Nat) (f : Task → Task) : (s.modTask i f).tags = s.tags := rfl
@[simp] theorem State.modTask_dirty (s : State) (i : Nat) (f : Task → Task) : (s.modTask i f).dirty = s.dirty := rfl
@[simp] theorem State.modTask_nodes (s : State) (i : Nat) (f : Task → Task) : (s.modTask i f).nodes = s.nodes := rfl
@[simp] theorem State.modTask_badFrames (s : State) (i : Nat) (f : Task → Task) : (s.modTask i f).badFrames = s.badFrames := rfl
@[simp] theorem State.modTask_saved (s : State) (i : Nat) (f : Task → Task) : (s.modTask i f).saved = s.saved := rfl
@[simp] theorem State.modTask_stores (s : State) (i : Nat) (f : Task → Task) : (s.modTask i f).stores = s.stores := rfl
@[simp] theorem State.modTask_loads (s : State) (i : Nat) (f : Task → Task) : (s.modTask i f).loads = s.loads := rfl
@[simp] theorem State.modTask_atomics (s : State) (i : Nat) (f : Task → Task) : (s.modTask i f).atomics = s.atomics := rfl
@[simp] theorem State.modTask_updates (s : State) (i : Nat) (f : Task → Task) : (s.modTask i f).updates = s.updates := rfl
@[simp] theorem State.modTask_famoWait (s : State) (i : Nat) (f : Task → Task) : (s.modTask i f).famoWait = s.famoWait := rfl
@[simp] theorem State.modTask_famoSent (s : State) (i : Nat) (f : Task → Task) : (s.modTask i f).famoSent = s.famoSent := rfl
@[simp] theorem State.modTask_claimReqs (s : State) (i : Nat) (f : Task → Task) : (s.modTask i f).claimReqs = s.claimReqs := rfl
@[simp] theorem State.modTask_walks (s : State) (i : Nat) (f : Task → Task) : (s.modTask i f).walks = s.walks := rfl
@[simp] theorem State.modTask_migrations (s : State) (i : Nat) (f : Task → Task) : (s.modTask i f).migrations = s.migrations := rfl
@[simp] theorem State.modTask_cmds (s : State) (i : Nat) (f : Task → Task) : (s.modTask i f).cmds = s.cmds := rfl
@[simp] theorem State.modTask_issued (s : State) (i : Nat) (f : Task → Task) : (s.modTask i f).issued = s.issued := rfl
@[simp] theorem State.modTask_sent (s : State) (i : Nat) (f : Task → Task) : (s.modTask i f).sent = s.sent := rfl
@[simp] theorem State.modTask_foldMsgs (s : State) (i : Nat) (f : Task → Task) : (s.modTask i f).foldMsgs = s.foldMsgs := rfl
@[simp] theorem State.modTask_rounds (s : State) (i : Nat) (f : Task → Task) : (s.modTask i f).rounds = s.rounds := rfl
@[simp] theorem State.modTask_host (s : State) (i : Nat) (f : Task → Task) : (s.modTask i f).host = s.host := rfl
@[simp] theorem State.modTask_log (s : State) (i : Nat) (f : Task → Task) : (s.modTask i f).log = s.log := rfl
@[simp] theorem State.modTask_links (s : State) (i : Nat) (f : Task → Task) : (s.modTask i f).links = s.links := rfl
@[simp] theorem State.modTask_gangs (s : State) (i : Nat) (f : Task → Task) : (s.modTask i f).gangs = s.gangs := rfl
@[simp] theorem State.modTask_bootLocked (s : State) (i : Nat) (f : Task → Task) : (s.modTask i f).bootLocked = s.bootLocked := rfl
@[simp] theorem State.modTask_moduleDown (s : State) (i : Nat) (f : Task → Task) : (s.modTask i f).moduleDown = s.moduleDown := rfl
@[simp] theorem State.modTask_poweredOff (s : State) (i : Nat) (f : Task → Task) : (s.modTask i f).poweredOff = s.poweredOff := rfl
@[simp] theorem State.modTask_flashImage (s : State) (i : Nat) (f : Task → Task) : (s.modTask i f).flashImage = s.flashImage := rfl
@[simp] theorem State.modTask_firmware (s : State) (i : Nat) (f : Task → Task) : (s.modTask i f).firmware = s.firmware := rfl
@[simp] theorem State.modTask_freeCount (s : State) (i : Nat) (f : Task → Task) : (s.modTask i f).freeCount = s.freeCount := rfl
@[simp] theorem State.modTask_iss (s : State) (i : Nat) (f : Task → Task) : (s.modTask i f).iss = s.iss := rfl

/-! ### modCore -/

@[simp] theorem State.modCore_agenda (s : State) (d c : Nat) (f : Core → Core) : (s.modCore d c f).agenda = s.agenda := rfl
@[simp] theorem State.modCore_clock (s : State) (d c : Nat) (f : Core → Core) : (s.modCore d c f).clock = s.clock := rfl
@[simp] theorem State.modCore_elapsed (s : State) (d c : Nat) (f : Core → Core) : (s.modCore d c f).elapsed = s.elapsed := rfl
@[simp] theorem State.modCore_heldChunks (s : State) (d c : Nat) (f : Core → Core) : (s.modCore d c f).heldChunks = s.heldChunks := rfl
@[simp] theorem State.modCore_tasks (s : State) (d c : Nat) (f : Core → Core) : (s.modCore d c f).tasks = s.tasks := rfl
@[simp] theorem State.modCore_launches (s : State) (d c : Nat) (f : Core → Core) : (s.modCore d c f).launches = s.launches := rfl
@[simp] theorem State.modCore_dies (s : State) (d c : Nat) (f : Core → Core) : (s.modCore d c f).dies = s.dies := rfl
@[simp] theorem State.modCore_mem (s : State) (d c : Nat) (f : Core → Core) : (s.modCore d c f).mem = s.mem := rfl
@[simp] theorem State.modCore_poison (s : State) (d c : Nat) (f : Core → Core) : (s.modCore d c f).poison = s.poison := rfl
@[simp] theorem State.modCore_tags (s : State) (d c : Nat) (f : Core → Core) : (s.modCore d c f).tags = s.tags := rfl
@[simp] theorem State.modCore_dirty (s : State) (d c : Nat) (f : Core → Core) : (s.modCore d c f).dirty = s.dirty := rfl
@[simp] theorem State.modCore_nodes (s : State) (d c : Nat) (f : Core → Core) : (s.modCore d c f).nodes = s.nodes := rfl
@[simp] theorem State.modCore_badFrames (s : State) (d c : Nat) (f : Core → Core) : (s.modCore d c f).badFrames = s.badFrames := rfl
@[simp] theorem State.modCore_saved (s : State) (d c : Nat) (f : Core → Core) : (s.modCore d c f).saved = s.saved := rfl
@[simp] theorem State.modCore_stores (s : State) (d c : Nat) (f : Core → Core) : (s.modCore d c f).stores = s.stores := rfl
@[simp] theorem State.modCore_loads (s : State) (d c : Nat) (f : Core → Core) : (s.modCore d c f).loads = s.loads := rfl
@[simp] theorem State.modCore_atomics (s : State) (d c : Nat) (f : Core → Core) : (s.modCore d c f).atomics = s.atomics := rfl
@[simp] theorem State.modCore_updates (s : State) (d c : Nat) (f : Core → Core) : (s.modCore d c f).updates = s.updates := rfl
@[simp] theorem State.modCore_famoWait (s : State) (d c : Nat) (f : Core → Core) : (s.modCore d c f).famoWait = s.famoWait := rfl
@[simp] theorem State.modCore_famoSent (s : State) (d c : Nat) (f : Core → Core) : (s.modCore d c f).famoSent = s.famoSent := rfl
@[simp] theorem State.modCore_claimReqs (s : State) (d c : Nat) (f : Core → Core) : (s.modCore d c f).claimReqs = s.claimReqs := rfl
@[simp] theorem State.modCore_walks (s : State) (d c : Nat) (f : Core → Core) : (s.modCore d c f).walks = s.walks := rfl
@[simp] theorem State.modCore_migrations (s : State) (d c : Nat) (f : Core → Core) : (s.modCore d c f).migrations = s.migrations := rfl
@[simp] theorem State.modCore_cmds (s : State) (d c : Nat) (f : Core → Core) : (s.modCore d c f).cmds = s.cmds := rfl
@[simp] theorem State.modCore_issued (s : State) (d c : Nat) (f : Core → Core) : (s.modCore d c f).issued = s.issued := rfl
@[simp] theorem State.modCore_sent (s : State) (d c : Nat) (f : Core → Core) : (s.modCore d c f).sent = s.sent := rfl
@[simp] theorem State.modCore_foldMsgs (s : State) (d c : Nat) (f : Core → Core) : (s.modCore d c f).foldMsgs = s.foldMsgs := rfl
@[simp] theorem State.modCore_rounds (s : State) (d c : Nat) (f : Core → Core) : (s.modCore d c f).rounds = s.rounds := rfl
@[simp] theorem State.modCore_host (s : State) (d c : Nat) (f : Core → Core) : (s.modCore d c f).host = s.host := rfl
@[simp] theorem State.modCore_log (s : State) (d c : Nat) (f : Core → Core) : (s.modCore d c f).log = s.log := rfl
@[simp] theorem State.modCore_links (s : State) (d c : Nat) (f : Core → Core) : (s.modCore d c f).links = s.links := rfl
@[simp] theorem State.modCore_gangs (s : State) (d c : Nat) (f : Core → Core) : (s.modCore d c f).gangs = s.gangs := rfl
@[simp] theorem State.modCore_bootLocked (s : State) (d c : Nat) (f : Core → Core) : (s.modCore d c f).bootLocked = s.bootLocked := rfl
@[simp] theorem State.modCore_moduleDown (s : State) (d c : Nat) (f : Core → Core) : (s.modCore d c f).moduleDown = s.moduleDown := rfl
@[simp] theorem State.modCore_poweredOff (s : State) (d c : Nat) (f : Core → Core) : (s.modCore d c f).poweredOff = s.poweredOff := rfl
@[simp] theorem State.modCore_flashImage (s : State) (d c : Nat) (f : Core → Core) : (s.modCore d c f).flashImage = s.flashImage := rfl
@[simp] theorem State.modCore_firmware (s : State) (d c : Nat) (f : Core → Core) : (s.modCore d c f).firmware = s.firmware := rfl
@[simp] theorem State.modCore_freeCount (s : State) (d c : Nat) (f : Core → Core) : (s.modCore d c f).freeCount = s.freeCount := rfl
@[simp] theorem State.modCore_iss (s : State) (d c : Nat) (f : Core → Core) : (s.modCore d c f).iss = s.iss := rfl

/-! ### modDie -/

@[simp] theorem State.modDie_agenda (s : State) (d : Nat) (f : Die → Die) : (s.modDie d f).agenda = s.agenda := rfl
@[simp] theorem State.modDie_clock (s : State) (d : Nat) (f : Die → Die) : (s.modDie d f).clock = s.clock := rfl
@[simp] theorem State.modDie_elapsed (s : State) (d : Nat) (f : Die → Die) : (s.modDie d f).elapsed = s.elapsed := rfl
@[simp] theorem State.modDie_heldChunks (s : State) (d : Nat) (f : Die → Die) : (s.modDie d f).heldChunks = s.heldChunks := rfl
@[simp] theorem State.modDie_tasks (s : State) (d : Nat) (f : Die → Die) : (s.modDie d f).tasks = s.tasks := rfl
@[simp] theorem State.modDie_launches (s : State) (d : Nat) (f : Die → Die) : (s.modDie d f).launches = s.launches := rfl
@[simp] theorem State.modDie_cores (s : State) (d : Nat) (f : Die → Die) : (s.modDie d f).cores = s.cores := rfl
@[simp] theorem State.modDie_mem (s : State) (d : Nat) (f : Die → Die) : (s.modDie d f).mem = s.mem := rfl
@[simp] theorem State.modDie_poison (s : State) (d : Nat) (f : Die → Die) : (s.modDie d f).poison = s.poison := rfl
@[simp] theorem State.modDie_tags (s : State) (d : Nat) (f : Die → Die) : (s.modDie d f).tags = s.tags := rfl
@[simp] theorem State.modDie_dirty (s : State) (d : Nat) (f : Die → Die) : (s.modDie d f).dirty = s.dirty := rfl
@[simp] theorem State.modDie_nodes (s : State) (d : Nat) (f : Die → Die) : (s.modDie d f).nodes = s.nodes := rfl
@[simp] theorem State.modDie_badFrames (s : State) (d : Nat) (f : Die → Die) : (s.modDie d f).badFrames = s.badFrames := rfl
@[simp] theorem State.modDie_saved (s : State) (d : Nat) (f : Die → Die) : (s.modDie d f).saved = s.saved := rfl
@[simp] theorem State.modDie_stores (s : State) (d : Nat) (f : Die → Die) : (s.modDie d f).stores = s.stores := rfl
@[simp] theorem State.modDie_loads (s : State) (d : Nat) (f : Die → Die) : (s.modDie d f).loads = s.loads := rfl
@[simp] theorem State.modDie_atomics (s : State) (d : Nat) (f : Die → Die) : (s.modDie d f).atomics = s.atomics := rfl
@[simp] theorem State.modDie_updates (s : State) (d : Nat) (f : Die → Die) : (s.modDie d f).updates = s.updates := rfl
@[simp] theorem State.modDie_famoWait (s : State) (d : Nat) (f : Die → Die) : (s.modDie d f).famoWait = s.famoWait := rfl
@[simp] theorem State.modDie_famoSent (s : State) (d : Nat) (f : Die → Die) : (s.modDie d f).famoSent = s.famoSent := rfl
@[simp] theorem State.modDie_claimReqs (s : State) (d : Nat) (f : Die → Die) : (s.modDie d f).claimReqs = s.claimReqs := rfl
@[simp] theorem State.modDie_walks (s : State) (d : Nat) (f : Die → Die) : (s.modDie d f).walks = s.walks := rfl
@[simp] theorem State.modDie_migrations (s : State) (d : Nat) (f : Die → Die) : (s.modDie d f).migrations = s.migrations := rfl
@[simp] theorem State.modDie_cmds (s : State) (d : Nat) (f : Die → Die) : (s.modDie d f).cmds = s.cmds := rfl
@[simp] theorem State.modDie_issued (s : State) (d : Nat) (f : Die → Die) : (s.modDie d f).issued = s.issued := rfl
@[simp] theorem State.modDie_sent (s : State) (d : Nat) (f : Die → Die) : (s.modDie d f).sent = s.sent := rfl
@[simp] theorem State.modDie_foldMsgs (s : State) (d : Nat) (f : Die → Die) : (s.modDie d f).foldMsgs = s.foldMsgs := rfl
@[simp] theorem State.modDie_rounds (s : State) (d : Nat) (f : Die → Die) : (s.modDie d f).rounds = s.rounds := rfl
@[simp] theorem State.modDie_host (s : State) (d : Nat) (f : Die → Die) : (s.modDie d f).host = s.host := rfl
@[simp] theorem State.modDie_log (s : State) (d : Nat) (f : Die → Die) : (s.modDie d f).log = s.log := rfl
@[simp] theorem State.modDie_links (s : State) (d : Nat) (f : Die → Die) : (s.modDie d f).links = s.links := rfl
@[simp] theorem State.modDie_gangs (s : State) (d : Nat) (f : Die → Die) : (s.modDie d f).gangs = s.gangs := rfl
@[simp] theorem State.modDie_bootLocked (s : State) (d : Nat) (f : Die → Die) : (s.modDie d f).bootLocked = s.bootLocked := rfl
@[simp] theorem State.modDie_moduleDown (s : State) (d : Nat) (f : Die → Die) : (s.modDie d f).moduleDown = s.moduleDown := rfl
@[simp] theorem State.modDie_poweredOff (s : State) (d : Nat) (f : Die → Die) : (s.modDie d f).poweredOff = s.poweredOff := rfl
@[simp] theorem State.modDie_flashImage (s : State) (d : Nat) (f : Die → Die) : (s.modDie d f).flashImage = s.flashImage := rfl
@[simp] theorem State.modDie_firmware (s : State) (d : Nat) (f : Die → Die) : (s.modDie d f).firmware = s.firmware := rfl
@[simp] theorem State.modDie_freeCount (s : State) (d : Nat) (f : Die → Die) : (s.modDie d f).freeCount = s.freeCount := rfl
@[simp] theorem State.modDie_iss (s : State) (d : Nat) (f : Die → Die) : (s.modDie d f).iss = s.iss := rfl

/-! ### modLaunch -/

@[simp] theorem State.modLaunch_agenda (s : State) (n : Nat) (f : Launch → Launch) : (s.modLaunch n f).agenda = s.agenda := rfl
@[simp] theorem State.modLaunch_clock (s : State) (n : Nat) (f : Launch → Launch) : (s.modLaunch n f).clock = s.clock := rfl
@[simp] theorem State.modLaunch_elapsed (s : State) (n : Nat) (f : Launch → Launch) : (s.modLaunch n f).elapsed = s.elapsed := rfl
@[simp] theorem State.modLaunch_heldChunks (s : State) (n : Nat) (f : Launch → Launch) : (s.modLaunch n f).heldChunks = s.heldChunks := rfl
@[simp] theorem State.modLaunch_tasks (s : State) (n : Nat) (f : Launch → Launch) : (s.modLaunch n f).tasks = s.tasks := rfl
@[simp] theorem State.modLaunch_cores (s : State) (n : Nat) (f : Launch → Launch) : (s.modLaunch n f).cores = s.cores := rfl
@[simp] theorem State.modLaunch_dies (s : State) (n : Nat) (f : Launch → Launch) : (s.modLaunch n f).dies = s.dies := rfl
@[simp] theorem State.modLaunch_mem (s : State) (n : Nat) (f : Launch → Launch) : (s.modLaunch n f).mem = s.mem := rfl
@[simp] theorem State.modLaunch_poison (s : State) (n : Nat) (f : Launch → Launch) : (s.modLaunch n f).poison = s.poison := rfl
@[simp] theorem State.modLaunch_tags (s : State) (n : Nat) (f : Launch → Launch) : (s.modLaunch n f).tags = s.tags := rfl
@[simp] theorem State.modLaunch_dirty (s : State) (n : Nat) (f : Launch → Launch) : (s.modLaunch n f).dirty = s.dirty := rfl
@[simp] theorem State.modLaunch_nodes (s : State) (n : Nat) (f : Launch → Launch) : (s.modLaunch n f).nodes = s.nodes := rfl
@[simp] theorem State.modLaunch_badFrames (s : State) (n : Nat) (f : Launch → Launch) : (s.modLaunch n f).badFrames = s.badFrames := rfl
@[simp] theorem State.modLaunch_saved (s : State) (n : Nat) (f : Launch → Launch) : (s.modLaunch n f).saved = s.saved := rfl
@[simp] theorem State.modLaunch_stores (s : State) (n : Nat) (f : Launch → Launch) : (s.modLaunch n f).stores = s.stores := rfl
@[simp] theorem State.modLaunch_loads (s : State) (n : Nat) (f : Launch → Launch) : (s.modLaunch n f).loads = s.loads := rfl
@[simp] theorem State.modLaunch_atomics (s : State) (n : Nat) (f : Launch → Launch) : (s.modLaunch n f).atomics = s.atomics := rfl
@[simp] theorem State.modLaunch_updates (s : State) (n : Nat) (f : Launch → Launch) : (s.modLaunch n f).updates = s.updates := rfl
@[simp] theorem State.modLaunch_famoWait (s : State) (n : Nat) (f : Launch → Launch) : (s.modLaunch n f).famoWait = s.famoWait := rfl
@[simp] theorem State.modLaunch_famoSent (s : State) (n : Nat) (f : Launch → Launch) : (s.modLaunch n f).famoSent = s.famoSent := rfl
@[simp] theorem State.modLaunch_claimReqs (s : State) (n : Nat) (f : Launch → Launch) : (s.modLaunch n f).claimReqs = s.claimReqs := rfl
@[simp] theorem State.modLaunch_walks (s : State) (n : Nat) (f : Launch → Launch) : (s.modLaunch n f).walks = s.walks := rfl
@[simp] theorem State.modLaunch_migrations (s : State) (n : Nat) (f : Launch → Launch) : (s.modLaunch n f).migrations = s.migrations := rfl
@[simp] theorem State.modLaunch_cmds (s : State) (n : Nat) (f : Launch → Launch) : (s.modLaunch n f).cmds = s.cmds := rfl
@[simp] theorem State.modLaunch_issued (s : State) (n : Nat) (f : Launch → Launch) : (s.modLaunch n f).issued = s.issued := rfl
@[simp] theorem State.modLaunch_sent (s : State) (n : Nat) (f : Launch → Launch) : (s.modLaunch n f).sent = s.sent := rfl
@[simp] theorem State.modLaunch_foldMsgs (s : State) (n : Nat) (f : Launch → Launch) : (s.modLaunch n f).foldMsgs = s.foldMsgs := rfl
@[simp] theorem State.modLaunch_rounds (s : State) (n : Nat) (f : Launch → Launch) : (s.modLaunch n f).rounds = s.rounds := rfl
@[simp] theorem State.modLaunch_host (s : State) (n : Nat) (f : Launch → Launch) : (s.modLaunch n f).host = s.host := rfl
@[simp] theorem State.modLaunch_log (s : State) (n : Nat) (f : Launch → Launch) : (s.modLaunch n f).log = s.log := rfl
@[simp] theorem State.modLaunch_links (s : State) (n : Nat) (f : Launch → Launch) : (s.modLaunch n f).links = s.links := rfl
@[simp] theorem State.modLaunch_gangs (s : State) (n : Nat) (f : Launch → Launch) : (s.modLaunch n f).gangs = s.gangs := rfl
@[simp] theorem State.modLaunch_bootLocked (s : State) (n : Nat) (f : Launch → Launch) : (s.modLaunch n f).bootLocked = s.bootLocked := rfl
@[simp] theorem State.modLaunch_moduleDown (s : State) (n : Nat) (f : Launch → Launch) : (s.modLaunch n f).moduleDown = s.moduleDown := rfl
@[simp] theorem State.modLaunch_poweredOff (s : State) (n : Nat) (f : Launch → Launch) : (s.modLaunch n f).poweredOff = s.poweredOff := rfl
@[simp] theorem State.modLaunch_flashImage (s : State) (n : Nat) (f : Launch → Launch) : (s.modLaunch n f).flashImage = s.flashImage := rfl
@[simp] theorem State.modLaunch_firmware (s : State) (n : Nat) (f : Launch → Launch) : (s.modLaunch n f).firmware = s.firmware := rfl
@[simp] theorem State.modLaunch_freeCount (s : State) (n : Nat) (f : Launch → Launch) : (s.modLaunch n f).freeCount = s.freeCount := rfl
@[simp] theorem State.modLaunch_iss (s : State) (n : Nat) (f : Launch → Launch) : (s.modLaunch n f).iss = s.iss := rfl

/-! ### modMe -/

@[simp] theorem State.modMe_agenda (s : State) (f : Task → Task) : (s.modMe f).agenda = s.agenda := rfl
@[simp] theorem State.modMe_clock (s : State) (f : Task → Task) : (s.modMe f).clock = s.clock := rfl
@[simp] theorem State.modMe_elapsed (s : State) (f : Task → Task) : (s.modMe f).elapsed = s.elapsed := rfl
@[simp] theorem State.modMe_heldChunks (s : State) (f : Task → Task) : (s.modMe f).heldChunks = s.heldChunks := rfl
@[simp] theorem State.modMe_launches (s : State) (f : Task → Task) : (s.modMe f).launches = s.launches := rfl
@[simp] theorem State.modMe_cores (s : State) (f : Task → Task) : (s.modMe f).cores = s.cores := rfl
@[simp] theorem State.modMe_dies (s : State) (f : Task → Task) : (s.modMe f).dies = s.dies := rfl
@[simp] theorem State.modMe_mem (s : State) (f : Task → Task) : (s.modMe f).mem = s.mem := rfl
@[simp] theorem State.modMe_poison (s : State) (f : Task → Task) : (s.modMe f).poison = s.poison := rfl
@[simp] theorem State.modMe_tags (s : State) (f : Task → Task) : (s.modMe f).tags = s.tags := rfl
@[simp] theorem State.modMe_dirty (s : State) (f : Task → Task) : (s.modMe f).dirty = s.dirty := rfl
@[simp] theorem State.modMe_nodes (s : State) (f : Task → Task) : (s.modMe f).nodes = s.nodes := rfl
@[simp] theorem State.modMe_badFrames (s : State) (f : Task → Task) : (s.modMe f).badFrames = s.badFrames := rfl
@[simp] theorem State.modMe_saved (s : State) (f : Task → Task) : (s.modMe f).saved = s.saved := rfl
@[simp] theorem State.modMe_stores (s : State) (f : Task → Task) : (s.modMe f).stores = s.stores := rfl
@[simp] theorem State.modMe_loads (s : State) (f : Task → Task) : (s.modMe f).loads = s.loads := rfl
@[simp] theorem State.modMe_atomics (s : State) (f : Task → Task) : (s.modMe f).atomics = s.atomics := rfl
@[simp] theorem State.modMe_updates (s : State) (f : Task → Task) : (s.modMe f).updates = s.updates := rfl
@[simp] theorem State.modMe_famoWait (s : State) (f : Task → Task) : (s.modMe f).famoWait = s.famoWait := rfl
@[simp] theorem State.modMe_famoSent (s : State) (f : Task → Task) : (s.modMe f).famoSent = s.famoSent := rfl
@[simp] theorem State.modMe_claimReqs (s : State) (f : Task → Task) : (s.modMe f).claimReqs = s.claimReqs := rfl
@[simp] theorem State.modMe_walks (s : State) (f : Task → Task) : (s.modMe f).walks = s.walks := rfl
@[simp] theorem State.modMe_migrations (s : State) (f : Task → Task) : (s.modMe f).migrations = s.migrations := rfl
@[simp] theorem State.modMe_cmds (s : State) (f : Task → Task) : (s.modMe f).cmds = s.cmds := rfl
@[simp] theorem State.modMe_issued (s : State) (f : Task → Task) : (s.modMe f).issued = s.issued := rfl
@[simp] theorem State.modMe_sent (s : State) (f : Task → Task) : (s.modMe f).sent = s.sent := rfl
@[simp] theorem State.modMe_foldMsgs (s : State) (f : Task → Task) : (s.modMe f).foldMsgs = s.foldMsgs := rfl
@[simp] theorem State.modMe_rounds (s : State) (f : Task → Task) : (s.modMe f).rounds = s.rounds := rfl
@[simp] theorem State.modMe_host (s : State) (f : Task → Task) : (s.modMe f).host = s.host := rfl
@[simp] theorem State.modMe_log (s : State) (f : Task → Task) : (s.modMe f).log = s.log := rfl
@[simp] theorem State.modMe_links (s : State) (f : Task → Task) : (s.modMe f).links = s.links := rfl
@[simp] theorem State.modMe_gangs (s : State) (f : Task → Task) : (s.modMe f).gangs = s.gangs := rfl
@[simp] theorem State.modMe_bootLocked (s : State) (f : Task → Task) : (s.modMe f).bootLocked = s.bootLocked := rfl
@[simp] theorem State.modMe_moduleDown (s : State) (f : Task → Task) : (s.modMe f).moduleDown = s.moduleDown := rfl
@[simp] theorem State.modMe_poweredOff (s : State) (f : Task → Task) : (s.modMe f).poweredOff = s.poweredOff := rfl
@[simp] theorem State.modMe_flashImage (s : State) (f : Task → Task) : (s.modMe f).flashImage = s.flashImage := rfl
@[simp] theorem State.modMe_firmware (s : State) (f : Task → Task) : (s.modMe f).firmware = s.firmware := rfl
@[simp] theorem State.modMe_freeCount (s : State) (f : Task → Task) : (s.modMe f).freeCount = s.freeCount := rfl
@[simp] theorem State.modMe_iss (s : State) (f : Task → Task) : (s.modMe f).iss = s.iss := rfl

/-! ### modLive -/

@[simp] theorem State.modLive_agenda (s : State) (f : Regs → Regs) : (s.modLive f).agenda = s.agenda := rfl
@[simp] theorem State.modLive_clock (s : State) (f : Regs → Regs) : (s.modLive f).clock = s.clock := rfl
@[simp] theorem State.modLive_elapsed (s : State) (f : Regs → Regs) : (s.modLive f).elapsed = s.elapsed := rfl
@[simp] theorem State.modLive_heldChunks (s : State) (f : Regs → Regs) : (s.modLive f).heldChunks = s.heldChunks := rfl
@[simp] theorem State.modLive_launches (s : State) (f : Regs → Regs) : (s.modLive f).launches = s.launches := rfl
@[simp] theorem State.modLive_cores (s : State) (f : Regs → Regs) : (s.modLive f).cores = s.cores := rfl
@[simp] theorem State.modLive_dies (s : State) (f : Regs → Regs) : (s.modLive f).dies = s.dies := rfl
@[simp] theorem State.modLive_mem (s : State) (f : Regs → Regs) : (s.modLive f).mem = s.mem := rfl
@[simp] theorem State.modLive_poison (s : State) (f : Regs → Regs) : (s.modLive f).poison = s.poison := rfl
@[simp] theorem State.modLive_tags (s : State) (f : Regs → Regs) : (s.modLive f).tags = s.tags := rfl
@[simp] theorem State.modLive_dirty (s : State) (f : Regs → Regs) : (s.modLive f).dirty = s.dirty := rfl
@[simp] theorem State.modLive_nodes (s : State) (f : Regs → Regs) : (s.modLive f).nodes = s.nodes := rfl
@[simp] theorem State.modLive_badFrames (s : State) (f : Regs → Regs) : (s.modLive f).badFrames = s.badFrames := rfl
@[simp] theorem State.modLive_saved (s : State) (f : Regs → Regs) : (s.modLive f).saved = s.saved := rfl
@[simp] theorem State.modLive_stores (s : State) (f : Regs → Regs) : (s.modLive f).stores = s.stores := rfl
@[simp] theorem State.modLive_loads (s : State) (f : Regs → Regs) : (s.modLive f).loads = s.loads := rfl
@[simp] theorem State.modLive_atomics (s : State) (f : Regs → Regs) : (s.modLive f).atomics = s.atomics := rfl
@[simp] theorem State.modLive_updates (s : State) (f : Regs → Regs) : (s.modLive f).updates = s.updates := rfl
@[simp] theorem State.modLive_famoWait (s : State) (f : Regs → Regs) : (s.modLive f).famoWait = s.famoWait := rfl
@[simp] theorem State.modLive_famoSent (s : State) (f : Regs → Regs) : (s.modLive f).famoSent = s.famoSent := rfl
@[simp] theorem State.modLive_claimReqs (s : State) (f : Regs → Regs) : (s.modLive f).claimReqs = s.claimReqs := rfl
@[simp] theorem State.modLive_walks (s : State) (f : Regs → Regs) : (s.modLive f).walks = s.walks := rfl
@[simp] theorem State.modLive_migrations (s : State) (f : Regs → Regs) : (s.modLive f).migrations = s.migrations := rfl
@[simp] theorem State.modLive_cmds (s : State) (f : Regs → Regs) : (s.modLive f).cmds = s.cmds := rfl
@[simp] theorem State.modLive_issued (s : State) (f : Regs → Regs) : (s.modLive f).issued = s.issued := rfl
@[simp] theorem State.modLive_sent (s : State) (f : Regs → Regs) : (s.modLive f).sent = s.sent := rfl
@[simp] theorem State.modLive_foldMsgs (s : State) (f : Regs → Regs) : (s.modLive f).foldMsgs = s.foldMsgs := rfl
@[simp] theorem State.modLive_rounds (s : State) (f : Regs → Regs) : (s.modLive f).rounds = s.rounds := rfl
@[simp] theorem State.modLive_host (s : State) (f : Regs → Regs) : (s.modLive f).host = s.host := rfl
@[simp] theorem State.modLive_log (s : State) (f : Regs → Regs) : (s.modLive f).log = s.log := rfl
@[simp] theorem State.modLive_links (s : State) (f : Regs → Regs) : (s.modLive f).links = s.links := rfl
@[simp] theorem State.modLive_gangs (s : State) (f : Regs → Regs) : (s.modLive f).gangs = s.gangs := rfl
@[simp] theorem State.modLive_bootLocked (s : State) (f : Regs → Regs) : (s.modLive f).bootLocked = s.bootLocked := rfl
@[simp] theorem State.modLive_moduleDown (s : State) (f : Regs → Regs) : (s.modLive f).moduleDown = s.moduleDown := rfl
@[simp] theorem State.modLive_poweredOff (s : State) (f : Regs → Regs) : (s.modLive f).poweredOff = s.poweredOff := rfl
@[simp] theorem State.modLive_flashImage (s : State) (f : Regs → Regs) : (s.modLive f).flashImage = s.flashImage := rfl
@[simp] theorem State.modLive_firmware (s : State) (f : Regs → Regs) : (s.modLive f).firmware = s.firmware := rfl
@[simp] theorem State.modLive_freeCount (s : State) (f : Regs → Regs) : (s.modLive f).freeCount = s.freeCount := rfl
@[simp] theorem State.modLive_iss (s : State) (f : Regs → Regs) : (s.modLive f).iss = s.iss := rfl

/-! ### modMyCore -/

@[simp] theorem State.modMyCore_agenda (s : State) (f : Core → Core) : (s.modMyCore f).agenda = s.agenda := rfl
@[simp] theorem State.modMyCore_clock (s : State) (f : Core → Core) : (s.modMyCore f).clock = s.clock := rfl
@[simp] theorem State.modMyCore_elapsed (s : State) (f : Core → Core) : (s.modMyCore f).elapsed = s.elapsed := rfl
@[simp] theorem State.modMyCore_heldChunks (s : State) (f : Core → Core) : (s.modMyCore f).heldChunks = s.heldChunks := rfl
@[simp] theorem State.modMyCore_tasks (s : State) (f : Core → Core) : (s.modMyCore f).tasks = s.tasks := rfl
@[simp] theorem State.modMyCore_launches (s : State) (f : Core → Core) : (s.modMyCore f).launches = s.launches := rfl
@[simp] theorem State.modMyCore_dies (s : State) (f : Core → Core) : (s.modMyCore f).dies = s.dies := rfl
@[simp] theorem State.modMyCore_mem (s : State) (f : Core → Core) : (s.modMyCore f).mem = s.mem := rfl
@[simp] theorem State.modMyCore_poison (s : State) (f : Core → Core) : (s.modMyCore f).poison = s.poison := rfl
@[simp] theorem State.modMyCore_tags (s : State) (f : Core → Core) : (s.modMyCore f).tags = s.tags := rfl
@[simp] theorem State.modMyCore_dirty (s : State) (f : Core → Core) : (s.modMyCore f).dirty = s.dirty := rfl
@[simp] theorem State.modMyCore_nodes (s : State) (f : Core → Core) : (s.modMyCore f).nodes = s.nodes := rfl
@[simp] theorem State.modMyCore_badFrames (s : State) (f : Core → Core) : (s.modMyCore f).badFrames = s.badFrames := rfl
@[simp] theorem State.modMyCore_saved (s : State) (f : Core → Core) : (s.modMyCore f).saved = s.saved := rfl
@[simp] theorem State.modMyCore_stores (s : State) (f : Core → Core) : (s.modMyCore f).stores = s.stores := rfl
@[simp] theorem State.modMyCore_loads (s : State) (f : Core → Core) : (s.modMyCore f).loads = s.loads := rfl
@[simp] theorem State.modMyCore_atomics (s : State) (f : Core → Core) : (s.modMyCore f).atomics = s.atomics := rfl
@[simp] theorem State.modMyCore_updates (s : State) (f : Core → Core) : (s.modMyCore f).updates = s.updates := rfl
@[simp] theorem State.modMyCore_famoWait (s : State) (f : Core → Core) : (s.modMyCore f).famoWait = s.famoWait := rfl
@[simp] theorem State.modMyCore_famoSent (s : State) (f : Core → Core) : (s.modMyCore f).famoSent = s.famoSent := rfl
@[simp] theorem State.modMyCore_claimReqs (s : State) (f : Core → Core) : (s.modMyCore f).claimReqs = s.claimReqs := rfl
@[simp] theorem State.modMyCore_walks (s : State) (f : Core → Core) : (s.modMyCore f).walks = s.walks := rfl
@[simp] theorem State.modMyCore_migrations (s : State) (f : Core → Core) : (s.modMyCore f).migrations = s.migrations := rfl
@[simp] theorem State.modMyCore_cmds (s : State) (f : Core → Core) : (s.modMyCore f).cmds = s.cmds := rfl
@[simp] theorem State.modMyCore_issued (s : State) (f : Core → Core) : (s.modMyCore f).issued = s.issued := rfl
@[simp] theorem State.modMyCore_sent (s : State) (f : Core → Core) : (s.modMyCore f).sent = s.sent := rfl
@[simp] theorem State.modMyCore_foldMsgs (s : State) (f : Core → Core) : (s.modMyCore f).foldMsgs = s.foldMsgs := rfl
@[simp] theorem State.modMyCore_rounds (s : State) (f : Core → Core) : (s.modMyCore f).rounds = s.rounds := rfl
@[simp] theorem State.modMyCore_host (s : State) (f : Core → Core) : (s.modMyCore f).host = s.host := rfl
@[simp] theorem State.modMyCore_log (s : State) (f : Core → Core) : (s.modMyCore f).log = s.log := rfl
@[simp] theorem State.modMyCore_links (s : State) (f : Core → Core) : (s.modMyCore f).links = s.links := rfl
@[simp] theorem State.modMyCore_gangs (s : State) (f : Core → Core) : (s.modMyCore f).gangs = s.gangs := rfl
@[simp] theorem State.modMyCore_bootLocked (s : State) (f : Core → Core) : (s.modMyCore f).bootLocked = s.bootLocked := rfl
@[simp] theorem State.modMyCore_moduleDown (s : State) (f : Core → Core) : (s.modMyCore f).moduleDown = s.moduleDown := rfl
@[simp] theorem State.modMyCore_poweredOff (s : State) (f : Core → Core) : (s.modMyCore f).poweredOff = s.poweredOff := rfl
@[simp] theorem State.modMyCore_flashImage (s : State) (f : Core → Core) : (s.modMyCore f).flashImage = s.flashImage := rfl
@[simp] theorem State.modMyCore_firmware (s : State) (f : Core → Core) : (s.modMyCore f).firmware = s.firmware := rfl
@[simp] theorem State.modMyCore_freeCount (s : State) (f : Core → Core) : (s.modMyCore f).freeCount = s.freeCount := rfl
@[simp] theorem State.modMyCore_iss (s : State) (f : Core → Core) : (s.modMyCore f).iss = s.iss := rfl

/-! ### The tables after an update -/

@[simp] theorem State.task_setTask_same (s : State) (i : Nat) (t : Task) : (s.setTask i t).task i = t :=
  smGet_smPut_same _ _ _ _

theorem State.task_setTask_other (s : State) (i j : Nat) (t : Task) (h : j ≠ i) : (s.setTask i t).task j = s.task j :=
  smGet_smPut_other _ _ _ _ _ h

@[simp] theorem State.task_modTask_same (s : State) (i : Nat) (f : Task → Task) : (s.modTask i f).task i = f (s.task i) :=
  State.task_setTask_same _ _ _

theorem State.task_modTask_other (s : State) (i j : Nat) (f : Task → Task) (h : j ≠ i) : (s.modTask i f).task j = s.task j :=
  State.task_setTask_other _ _ _ _ h

@[simp] theorem State.me_modMe (s : State) (f : Task → Task) : (s.modMe f).me = f s.me := State.task_modTask_same _ _ _

@[simp] theorem State.me_modLive (s : State) (f : Regs → Regs) : (s.modLive f).me = { s.me with live := f s.me.live } :=
  State.task_modTask_same _ _ _

theorem State.task_modMe_other (s : State) (f : Task → Task) (j : Nat) (h : j ≠ s.iss.task) : (s.modMe f).task j = s.task j :=
  State.task_modTask_other _ _ _ _ h

theorem State.task_modLive_other (s : State) (f : Regs → Regs) (j : Nat) (h : j ≠ s.iss.task) : (s.modLive f).task j = s.task j :=
  State.task_modTask_other _ _ _ _ h

@[simp] theorem State.core_setCore_same (s : State) (d c : Nat) (x : Core) : (s.setCore d c x).core d c = x :=
  smGet_smPut_same _ _ _ _

theorem State.core_setCore_other (s : State) (d c d' c' : Nat) (x : Core) (h : coreKey d' c' ≠ coreKey d c) :
    (s.setCore d c x).core d' c' = s.core d' c' := smGet_smPut_other _ _ _ _ _ h

@[simp] theorem State.core_modCore_same (s : State) (d c : Nat) (f : Core → Core) : (s.modCore d c f).core d c = f (s.core d c) :=
  State.core_setCore_same _ _ _ _

@[simp] theorem State.die_setDie_same (s : State) (d : Nat) (x : Die) : (s.setDie d x).die d = x := smGet_smPut_same _ _ _ _

theorem State.die_setDie_other (s : State) (d d' : Nat) (x : Die) (h : d' ≠ d) : (s.setDie d x).die d' = s.die d' :=
  smGet_smPut_other _ _ _ _ _ h

@[simp] theorem State.die_modDie_same (s : State) (d : Nat) (f : Die → Die) : (s.modDie d f).die d = f (s.die d) :=
  State.die_setDie_same _ _ _

@[simp] theorem State.launch_setLaunch_same (s : State) (n : Nat) (x : Launch) : (s.setLaunch n x).launch n = x :=
  smGet_smPut_same _ _ _ _

theorem State.launch_setLaunch_other (s : State) (n m : Nat) (x : Launch) (h : m ≠ n) : (s.setLaunch n x).launch m = s.launch m :=
  smGet_smPut_other _ _ _ _ _ h

@[simp] theorem State.launch_modLaunch_same (s : State) (n : Nat) (f : Launch → Launch) :
    (s.modLaunch n f).launch n = f (s.launch n) := State.launch_setLaunch_same _ _ _

@[simp] theorem State.task_setCore (s : State) (d c i : Nat) (x : Core) : (s.setCore d c x).task i = s.task i := rfl
@[simp] theorem State.task_setDie (s : State) (d i : Nat) (x : Die) : (s.setDie d x).task i = s.task i := rfl
@[simp] theorem State.task_setLaunch (s : State) (n i : Nat) (x : Launch) : (s.setLaunch n x).task i = s.task i := rfl
@[simp] theorem State.task_modCore (s : State) (d c i : Nat) (f : Core → Core) : (s.modCore d c f).task i = s.task i := rfl
@[simp] theorem State.task_modDie (s : State) (d i : Nat) (f : Die → Die) : (s.modDie d f).task i = s.task i := rfl
@[simp] theorem State.core_modTask (s : State) (i d c : Nat) (f : Task → Task) : (s.modTask i f).core d c = s.core d c := rfl
@[simp] theorem State.die_modTask (s : State) (i d : Nat) (f : Task → Task) : (s.modTask i f).die d = s.die d := rfl
@[simp] theorem State.launch_modTask (s : State) (i n : Nat) (f : Task → Task) : (s.modTask i f).launch n = s.launch n := rfl
@[simp] theorem State.die_modCore (s : State) (d c d' : Nat) (f : Core → Core) : (s.modCore d c f).die d' = s.die d' := rfl
@[simp] theorem State.core_modDie (s : State) (d d' c : Nat) (f : Die → Die) : (s.modDie d f).core d' c = s.core d' c := rfl

/-! ### Registers -/

@[simp] theorem Regs.rdS_zero (r : Regs) : r.rdS 0 = 0 := rfl
@[simp] theorem Regs.rdP_zero (r : Regs) : r.rdP 0 = true := rfl
@[simp] theorem Regs.rdM_zero (r : Regs) : r.rdM 0 = BitVec.allOnes 256 := rfl
@[simp] theorem Regs.wrS_zero (r : Regs) (v : Word) : r.wrS 0 v = r := rfl
@[simp] theorem Regs.wrP_zero (r : Regs) (b : Bool) : r.wrP 0 b = r := rfl
@[simp] theorem Regs.wrM_zero (r : Regs) (v : Mask) : r.wrM 0 v = r := rfl

theorem Regs.rdS_wrS_same (r : Regs) (n : Fin 32) (v : Word) (h : n ≠ 0) : (r.wrS n v).rdS n = v := by
  simp [Regs.rdS, Regs.wrS, h]

theorem Regs.rdS_wrS_other (r : Regs) (n k : Fin 32) (v : Word) (h : k ≠ n) : (r.wrS n v).rdS k = r.rdS k := by
  unfold Regs.rdS Regs.wrS
  by_cases hn : n = 0
  · simp [hn]
  · by_cases hk : k = 0
    · simp [hk]
    · simp only [hn, hk, if_false]
      exact Vector.getElem_set_ne _ _ (fun e => h (Fin.ext e.symm))

theorem Regs.rdM_wrM_same (r : Regs) (n : Fin 8) (v : Mask) (h : n ≠ 0) : (r.wrM n v).rdM n = v := by
  simp [Regs.rdM, Regs.wrM, h]

theorem Regs.rdM_wrM_other (r : Regs) (n k : Fin 8) (v : Mask) (h : k ≠ n) : (r.wrM n v).rdM k = r.rdM k := by
  unfold Regs.rdM Regs.wrM
  by_cases hn : n = 0
  · simp [hn]
  · by_cases hk : k = 0
    · simp [hk]
    · simp only [hn, hk, if_false]
      exact Vector.getElem_set_ne _ _ (fun e => h (Fin.ext e.symm))

theorem Regs.rdP_wrP_same (r : Regs) (n : Fin 8) (b : Bool) (h : n ≠ 0) : (r.wrP n b).rdP n = b := by
  revert h; revert n; cases b <;> simp only [Regs.rdP, Regs.wrP] <;> intro n h <;> fin_cases n <;> simp_all

theorem Regs.rdP_wrP_other (r : Regs) (n k : Fin 8) (b : Bool) (h : k ≠ n) : (r.wrP n b).rdP k = r.rdP k := by
  revert h; cases b <;> fin_cases n <;> fin_cases k <;> simp [Regs.rdP, Regs.wrP]

theorem Regs.rdH_wrH_same (r : Regs) (n : Fin 16) (v : Handle) : (r.wrH n v).rdH n = v := by
  simp [Regs.rdH, Regs.wrH]

theorem Regs.rdH_wrH_other (r : Regs) (n k : Fin 16) (v : Handle) (h : k ≠ n) : (r.wrH n v).rdH k = r.rdH k := by
  simp only [Regs.rdH, Regs.wrH]
  exact Vector.getElem_set_ne n.isLt k.isLt (fun e => h (Fin.ext e.symm))

end Sys2Proof.Machine
end

