-- ==== Sys2Proof/Laws/Ops.lean ====
section
/-! SUPPORT. What the shared operations can do, each said once: updates of the issuing task joined into one, results of a port, answers
of an instruction. -/

set_option Elab.async false

namespace Sys2Proof.Machine

/-! ### Tables and the issuing task -/

theorem smPut_smPut {α : Type} (m : SMap α) (k : Nat) (v w : α) : smPut (smPut m k v) k w = smPut m k w := by
  induction m with
  | nil => simp [smPut]
  | cons e m ih =>
    obtain ⟨k', v'⟩ := e
    simp only [smPut]
    split
    · simp [smPut]
    · split
      · simp [smPut]
      · rename_i h1 h2; simp [smPut, h1, h2, ih]

theorem State.setTask_setTask (s : State) (i : Nat) (t u : Task) : (s.setTask i t).setTask i u = s.setTask i u := by
  simp only [State.setTask, smPut_smPut]

/-- Two updates of the issuing task are one. -/
theorem State.modMe_modMe (s : State) (f g : Task → Task) : (s.modMe f).modMe g = s.modMe fun t => g (f t) := by
  show ((s.modTask s.iss.task f).setTask s.iss.task (g ((s.modTask s.iss.task f).task s.iss.task))) = _
  rw [State.task_modTask_same]
  exact State.setTask_setTask _ _ _ _

/-- An update of the issuing task replaces its record and nothing else. -/
theorem State.modMe_eq (s : State) (f : Task → Task) : s.modMe f = s.setTask s.iss.task (s.modMe f).me := by
  rw [State.me_modMe]; rfl

theorem State.modLive_eq (s : State) (f : Regs → Regs) : s.modLive f = s.modMe fun t => { t with live := f t.live } := rfl

/-! ### Results of the ports (R192, R194) -/

/-- A result of port S as one update of the issuing task. -/
theorem State.resS_eq (s : State) (d : Fin 32) (v : Word) (nw : Bool) : s.resS d v nw = s.modMe fun t =>
    { t with latches := { t.latches with ls := some v }, live := if nw then t.live else t.live.wrS d v } := by
  cases nw
  · exact State.modMe_modMe s (fun t => { t with latches := { t.latches with ls := some v } }) fun t => { t with live := t.live.wrS d v }
  · rfl

/-- A result of port M as one update of the issuing task. -/
theorem State.resM_eq (s : State) (a : Fin 32) (v : Word) : s.resM a v = s.modMe fun t =>
    { t with latches := { t.latches with lm := some v }, live := t.live.wrS a v } :=
  State.modMe_modMe s (fun t => { t with latches := { t.latches with lm := some v } }) fun t => { t with live := t.live.wrS a v }

/-- A result of a C port as one update of the issuing task. -/
theorem State.resC_eq (s : State) (a : Fin 32) (v : Word) : s.resC a v = s.modMe fun t =>
    { t with latches := if s.iss.cPort = 0 then { t.latches with lc0 := some v } else { t.latches with lc1 := some v }
             live := t.live.wrS a v } :=
  State.modMe_modMe s
    (fun t => { t with latches := if s.iss.cPort = 0 then { t.latches with lc0 := some v } else { t.latches with lc1 := some v } })
    fun t => { t with live := t.live.wrS a v }

/-- A predicate result as one update of the issuing task. -/
theorem State.resP_eq (s : State) (p : Fin 8) (b nw : Bool) : s.resP p b nw = s.modMe fun t =>
    { t with latches := { t.latches with ls := some (if b then 1 else 0) }, live := if nw then t.live else t.live.wrP p b } := by
  cases nw
  · exact State.modMe_modMe s (fun t => { t with latches := { t.latches with ls := some (if b then 1 else 0) } })
      fun t => { t with live := t.live.wrP p b }
  · rfl

/-- What S registers read after a write of one. -/
theorem Regs.rdS_wrS (r : Regs) (d k : Fin 32) (v : Word) : (r.wrS d v).rdS k = if k = d ∧ d ≠ 0 then v else r.rdS k := by
  by_cases h : k = d
  · subst h
    by_cases h0 : k = 0
    · subst h0; simp
    · simp [h0, Regs.rdS_wrS_same]
  · simp [h, Regs.rdS_wrS_other]

/-- What predicates read after a write of one. -/
theorem Regs.rdP_wrP (r : Regs) (d k : Fin 8) (v : Bool) : (r.wrP d v).rdP k = if k = d ∧ d ≠ 0 then v else r.rdP k := by
  by_cases h : k = d
  · subst h
    by_cases h0 : k = 0
    · subst h0; simp
    · simp [h0, Regs.rdP_wrP_same]
  · simp [h, Regs.rdP_wrP_other]

/-- A write of an S register touches the S registers only. -/
theorem Regs.wrS_eq (r : Regs) (d : Fin 32) (v : Word) : r.wrS d v = { r with s := (r.wrS d v).s } := by
  simp only [Regs.wrS]; split <;> rfl

/-- A write of a predicate touches the predicates only. -/
theorem Regs.wrP_eq (r : Regs) (d : Fin 8) (v : Bool) : r.wrP d v = { r with p := (r.wrP d v).p } := by
  simp only [Regs.wrP]; split <;> rfl

/-! ### Answers of an instruction (R338) -/

@[simp] theorem resolve_ok (s t : State) : resolve s (.ok t) = .next t := rfl
@[simp] theorem resolve_trap (s : State) (r : TrapRec) :
    resolve s (.error (.trap r)) = .next (s.takeTrap s.iss.task r s.iss.slot s.iss.half s.iss.pc) := rfl
@[simp] theorem resolve_claimTrap (s : State) (r : TrapRec) : resolve s (.error (.claimTrap r)) =
    .next ((s.acquire .dom s.iss.die s.iss.core).takeTrap s.iss.task r s.iss.slot s.iss.half s.iss.pc) := rfl
@[simp] theorem resolve_wait (s : State) (w : Why) (sd : Side) : resolve s (.error (.wait w sd)) = .next ((s.applySide sd).stall w) := rfl
@[simp] theorem resolve_park (s : State) (w : Why) (sd : Side) :
    resolve s (.error (.park w sd)) = .next ((s.applySide sd).noteWait.park s.iss.task w) := rfl

/-- An encoded instruction always answers a next state: its effect, a trap entry, a wait or a park. -/
theorem resolve_next (s : State) (a : Act) : ∃ t, resolve s a = .next t := by
  match a with
  | .ok t => exact ⟨t, rfl⟩
  | .error (.trap r) => exact ⟨_, rfl⟩
  | .error (.jobTrap r) => exact ⟨_, rfl⟩
  | .error (.claimTrap r) => exact ⟨_, rfl⟩
  | .error (.wait w sd) => exact ⟨_, rfl⟩
  | .error (.park w sd) => exact ⟨_, rfl⟩

/-! ### The two-source, one-source and immediate forms, with readable operands -/

theorem sr2_ok (o : SrOp) (f : Word → Word → Word) (s : State) (a b : Word) (ha : s.srcS o.a = .ok a) (hb : s.srcS o.b = .ok b) :
    sr2 o f s = .ok (if s.guardOn o.g then s.resS o.d (f a b) o.nw else s) := by
  simp [sr2, ha, hb, bind, Except.bind]

theorem sr1_ok (o : SrOne) (f : Word → Word) (s : State) (a : Word) (ha : s.srcS o.a = .ok a) :
    sr1 o f s = .ok (if s.guardOn o.g then s.resS o.d (f a) o.nw else s) := by
  simp [sr1, ha, bind, Except.bind]

theorem si1_ok (o : SiOp) (f : Word → Word → Word) (s : State) (a : Word) (ha : s.srcS o.a = .ok a) :
    si1 o f s = .ok (s.resS o.d (f a (o.imm.signExtend 64))) := by
  simp [si1, ha, bind, Except.bind]

theorem siShift_ok (d : Fin 32) (a : SSrc) (n : Fin 64) (f : Word → Nat → Word) (s : State) (x : Word) (ha : s.srcS a = .ok x) :
    siShift d a n f s = .ok (s.resS d (f x n.val)) := by
  simp [siShift, ha, bind, Except.bind]

end Sys2Proof.Machine
end

