-- ==== Sys2Proof/Laws/PerInstr.lean ====
section
/-! SUPPORT. The family RoundTrip, one lemma per constructor: decoding the word and lend of a well-formed instruction gives that
instruction back. A lemma reads the fields of the packed word as hypotheses about one unknown word before any decoder is unfolded. -/

set_option Elab.async false
set_option linter.unusedSimpArgs false

namespace Sys2Proof.Laws

open Sys2Proof

/-- What the family says of one instruction (R180 to R188, R202). -/
def RoundTrip.Statement (i : Instr) : Prop := i.wf = true → decodeWord (encode i).1 (encode i).2 = .ok i

/-! ### Which decoder a class has -/

theorem decodeWord_class0 (w e : Nat) (h0 : w ≠ 0) (h : field w 31 28 = 0) : decodeWord w e = decScalar w e := by
  unfold decodeWord; rw [if_neg h0, h]; rfl
theorem decodeWord_class1 (w e : Nat) (h0 : w ≠ 0) (h : field w 31 28 = 1) : decodeWord w e = decImmediate w e := by
  unfold decodeWord; rw [if_neg h0, h]; rfl
theorem decodeWord_class2 (w e : Nat) (h0 : w ≠ 0) (h : field w 31 28 = 2) : decodeWord w e = decControl w e := by
  unfold decodeWord; rw [if_neg h0, h]; rfl
theorem decodeWord_class3 (w e : Nat) (h0 : w ≠ 0) (h : field w 31 28 = 3) : decodeWord w e = decMemory w e := by
  unfold decodeWord; rw [if_neg h0, h]; rfl
theorem decodeWord_class4 (w e : Nat) (h0 : w ≠ 0) (h : field w 31 28 = 4) : decodeWord w e = decSync w e := by
  unfold decodeWord; rw [if_neg h0, h]; rfl
theorem decodeWord_class5 (w e : Nat) (h0 : w ≠ 0) (h : field w 31 28 = 5) : decodeWord w e = decVFloat w e := by
  unfold decodeWord; rw [if_neg h0, h]; rfl
theorem decodeWord_class6 (w e : Nat) (h0 : w ≠ 0) (h : field w 31 28 = 6) : decodeWord w e = decVInt w e := by
  unfold decodeWord; rw [if_neg h0, h]; rfl
theorem decodeWord_class7 (w e : Nat) (h0 : w ≠ 0) (h : field w 31 28 = 7) : decodeWord w e = decVSpecial w e := by
  unfold decodeWord; rw [if_neg h0, h]; rfl
theorem decodeWord_class8 (w e : Nat) (h0 : w ≠ 0) (h : field w 31 28 = 8) : decodeWord w e = decMatrix w e := by
  unfold decodeWord; rw [if_neg h0, h]; rfl
theorem decodeWord_class9 (w e : Nat) (h0 : w ≠ 0) (h : field w 31 28 = 9) : decodeWord w e = decCopy w e := by
  unfold decodeWord; rw [if_neg h0, h]; rfl
theorem decodeWord_class10 (w e : Nat) (h0 : w ≠ 0) (h : field w 31 28 = 10) : decodeWord w e = decSeamOp w e := by
  unfold decodeWord; rw [if_neg h0, h]; rfl
theorem decodeWord_class11 (w e : Nat) (h0 : w ≠ 0) (h : field w 31 28 = 11) : decodeWord w e = decRelay w e := by
  unfold decodeWord; rw [if_neg h0, h]; rfl
theorem decodeWord_class12 (w e : Nat) (h0 : w ≠ 0) (h : field w 31 28 = 12) : decodeWord w e = decSystem w e := by
  unfold decodeWord; rw [if_neg h0, h]; rfl
theorem decodeWord_class14 (w e : Nat) (h0 : w ≠ 0) (h : field w 31 28 = 14) : decodeWord w e = decShort w e := by
  unfold decodeWord; rw [if_neg h0, h]; rfl

/-! ### Immediates put together again, and the fields of a lend -/

theorem imm18_of (w : Nat) (k : BitVec 18) (h : field w 9 0 = k.toNat % 1024) : imm18 w (k.toNat / 1024) = k := by
  have := Nat.div_add_mod k.toNat 1024
  rw [imm18, h, show k.toNat / 1024 * 1024 + k.toNat % 1024 = k.toNat by omega, BitVec.ofNat_toNat, BitVec.setWidth_eq]

theorem imm24_of (w : Nat) (k : BitVec 24) (h : field w 15 0 = k.toNat % 65536) : imm24 w (k.toNat / 65536) = k := by
  have := Nat.div_add_mod k.toNat 65536
  rw [imm24, h, show k.toNat / 65536 * 65536 + k.toNat % 65536 = k.toNat by omega, BitVec.ofNat_toNat, BitVec.setWidth_eq]

theorem imm14_of (w : Nat) (k : BitVec 14) (h : field w 5 0 = k.toNat % 64) : imm14 w (k.toNat / 64) = k := by
  have := Nat.div_add_mod k.toNat 64
  rw [imm14, h, show k.toNat / 64 * 64 + k.toNat % 64 = k.toNat by omega, BitVec.ofNat_toNat, BitVec.setWidth_eq]

theorem lend_hi (x : Nat) (b : Bool) (m : Fin 8) (h : x < 16) : field (x * 16 + ofFlag b * 8 + m.val) 7 4 = x := by
  have := ofFlag_lt b; simp only [field]; omega
theorem lend_hi3 (x : Nat) (b : Bool) (m : Fin 8) (h : x < 8) : field (x * 16 + ofFlag b * 8 + m.val) 7 5 = x / 2 := by
  have := ofFlag_lt b; simp only [field]; omega
theorem lend_bit4 (x : Nat) (b : Bool) (m : Fin 8) : flag (x * 16 + ofFlag b * 8 + m.val) 4 = (x % 2 == 1) := by
  have := ofFlag_lt b; simp only [flag]; congr 1; omega
theorem lend_lo (x : Nat) (b : Bool) (m : Fin 8) : field (x * 16 + ofFlag b * 8 + m.val) 2 0 = m.val := by
  have := ofFlag_lt b; simp only [field]; omega
theorem lend_nw (x : Nat) (b : Bool) (m : Fin 8) : flag (x * 16 + ofFlag b * 8 + m.val) 3 = b := by
  have h := ofFlag_one b; have := ofFlag_lt b; simp only [flag]
  rw [show (x * 16 + ofFlag b * 8 + m.val) / 2 ^ 3 % 2 = ofFlag b % 2 by omega, h]
theorem lend0_hi (b : Bool) (m : Fin 8) : field (ofFlag b * 8 + m.val) 7 4 = 0 := by
  have := ofFlag_lt b; simp only [field]; omega
theorem lend0_lo (b : Bool) (m : Fin 8) : field (ofFlag b * 8 + m.val) 2 0 = m.val := by
  have := ofFlag_lt b; simp only [field]; omega
theorem lend0_nw (b : Bool) (m : Fin 8) : flag (ofFlag b * 8 + m.val) 3 = b := by
  simpa using lend_nw 0 b m
theorem lend1_hi (x : Nat) (b : Bool) (h : x % 16 = 0) (hx : x < 256) : field (x + ofFlag b * 8) 7 4 = x / 16 := by
  have := ofFlag_lt b; simp only [field]; omega
theorem lend1_lo (x : Nat) (b : Bool) (h : x % 16 = 0) : field (x + ofFlag b * 8) 2 0 = 0 := by
  have := ofFlag_lt b; simp only [field]; omega
theorem lend1_nw (x : Nat) (b : Bool) (h : x % 16 = 0) : flag (x + ofFlag b * 8) 3 = b := by
  have h1 := ofFlag_one b; have := ofFlag_lt b; simp only [flag]
  rw [show (x + ofFlag b * 8) / 2 ^ 3 % 2 = ofFlag b % 2 by omega, h1]
theorem lend2_hi (b : Bool) : field (ofFlag b * 8) 7 4 = 0 := by cases b <;> rfl
theorem lend2_lo (b : Bool) : field (ofFlag b * 8) 2 0 = 0 := by cases b <;> rfl
theorem lend2_nw (b : Bool) : flag (ofFlag b * 8) 3 = b := by cases b <;> rfl

/-! ### Operand groups from the fields of a word -/

section
variable (w e : Nat)

theorem decSr_of (o : SrOp) (h1 : field w 21 16 = o.d.val) (h2 : field w 15 10 = o.a.code) (h3 : field w 9 4 = o.b.code)
    (h4 : flag w 3 = o.nw) (h5 : field w 2 0 = o.g.val) : decSr w = .ok o := by
  simp [decSr, h1, h2, h3, h4, h5, bind, Except.bind]
theorem decSrOne_of (o : SrOne) (h1 : field w 21 16 = o.d.val) (h2 : field w 15 10 = o.a.code) (h3 : field w 9 4 = 0)
    (h4 : flag w 3 = o.nw) (h5 : field w 2 0 = o.g.val) : decSrOne w = .ok o := by
  simp [decSrOne, h1, h2, h3, h4, h5, bind, Except.bind]
theorem decSi_of (o : SiOp) (h1 : field w 21 16 = o.d.val) (h2 : field w 15 10 = o.a.code)
    (h3 : field w 9 0 = o.imm.toNat % 1024) : decSi w (o.imm.toNat / 1024) = .ok o := by
  simp [decSi, h1, h2, imm18_of w o.imm h3, bind, Except.bind]
theorem decMm_of (o : MmOp) (h1 : field w 21 20 = o.sz.val) (h2 : field w 19 18 = o.hint.code) (h3 : field w 17 13 = o.d.val)
    (h4 : field w 12 9 = o.h.val) (h5 : field w 8 6 = o.x.val) (h6 : field w 5 0 = o.imm.toNat % 64) :
    decMm w (o.imm.toNat / 64) = .ok o := by
  simp [decMm, h1, h2, h3, h4, h5, imm14_of w o.imm h6, bind, Except.bind]
theorem decSyAddr_of (m : SyAddr) (h1 : field w 17 14 = m.h.val) (h2 : field w 13 8 = m.a.val) : decSyAddr w = .ok m := by
  simp [decSyAddr, h1, h2, bind, Except.bind]
theorem decVBin_of (o : VBin) (h1 : field w 21 16 = o.d.val) (h2 : field w 15 10 = o.a.code) (h3 : field w 9 4 = o.b.code)
    (h4 : field w 3 0 = o.t.code) : decVBin w (ofFlag o.nw * 8 + o.m.val) = .ok o := by
  simp [decVBin, h1, h2, h3, h4, lend0_hi, lend0_lo, lend0_nw, bind, Except.bind]
theorem decVBinR_of (o : VBinR) (h1 : field w 21 16 = o.d.val) (h2 : field w 15 10 = o.a.code) (h3 : field w 9 4 = o.b.code)
    (h4 : field w 3 0 = o.t.code) : decVBinR w (o.md.code * 16 + ofFlag o.nw * 8 + o.m.val) = .ok o := by
  simp [decVBinR, h1, h2, h3, h4, lend_hi, lend_lo, lend_nw, bind, Except.bind]
theorem decVBinS_of (o : VBinS) (h1 : field w 21 16 = o.d.val) (h2 : field w 15 10 = o.a.code) (h3 : field w 9 4 = o.b.code)
    (h4 : field w 3 0 = o.t.code) : decVBinS w (ofFlag o.sat * 16 + ofFlag o.nw * 8 + o.m.val) = .ok o := by
  have hs := ofFlag_lt o.sat
  simp [decVBinS, h1, h2, h3, h4, lend_hi3 _ _ _ (show ofFlag o.sat < 8 by omega), lend_bit4, lend_lo, lend_nw, bind, Except.bind,
    Nat.div_eq_of_lt hs]
theorem decVUn_of (o : VUn) (h1 : field w 21 16 = o.d.val) (h2 : field w 15 10 = o.a.code) (h3 : field w 9 4 = 0)
    (h4 : field w 3 0 = o.t.code) : decVUn w (ofFlag o.nw * 8 + o.m.val) = .ok o := by
  simp [decVUn, h1, h2, h3, h4, lend0_hi, lend0_lo, lend0_nw, bind, Except.bind]
theorem decVUnR_of (o : VUnR) (h1 : field w 21 16 = o.d.val) (h2 : field w 15 10 = o.a.code) (h4 : field w 3 0 = o.t.code) :
    decVUnR w (o.md.code * 16 + ofFlag o.nw * 8 + o.m.val) = .ok o := by
  simp [decVUnR, h1, h2, h4, lend_hi, lend_lo, lend_nw, bind, Except.bind]
theorem decEn3_of (o : En3) (h1 : field w 21 16 = o.a.code) (h2 : field w 15 10 = o.b.code) (h3 : field w 9 4 = o.c.code) :
    decEn3 w = .ok o := by
  simp [decEn3, h1, h2, h3, bind, Except.bind]
theorem decCpy_of (o : CpyOp) (h1 : field w 21 16 = o.a.val) (h2 : field w 15 10 = o.b.code) (h3 : field w 9 4 = o.hs.val)
    (h4 : field w 3 0 = o.hd.val) : decCpy w = .ok o := by
  simp [decCpy, h1, h2, h3, h4, bind, Except.bind]
theorem decSeam_of (o : SeamOp) (h1 : field w 21 16 = o.a.code) (h2 : field w 15 10 = o.b.code) (h3 : field w 9 4 = o.c.code)
    (h4 : flag e 1 = o.pred) : decSeam w e = .ok o := by
  simp [decSeam, h1, h2, h3, h4, bind, Except.bind]
end

/-! ### Packed subfields taken apart -/

theorem pk8_hi (x : Nat) (p : Fin 8) : (x * 8 + p.val) / 8 = x := by omega
theorem pk8_lo (x : Nat) (p : Fin 8) : (x * 8 + p.val) % 8 = p.val := by omega
theorem pk16_hi (x : Nat) (p : Fin 16) : (x * 16 + p.val) / 16 = x := by omega
theorem pk16_lo (x : Nat) (p : Fin 16) : (x * 16 + p.val) % 16 = p.val := by omega
theorem pk8_flag (b : Bool) (p : Fin 8) : ((ofFlag b * 8 + p.val) / 8 % 2 == 1) = b := low_flag b p

theorem encoded_as (i : Instr) (w e : Nat) (he : encode i = (w, e)) (hd : decodeWord w e = .ok i) :
    decodeWord (encode i).1 (encode i).2 = .ok i := by rw [he]; exact hd

theorem ok_bind {α β : Type} (a : α) (f : α → Except Reject β) : (Except.ok a >>= f) = f a := id rfl

theorem reg0_of_code (a : SSrc) (h : a.code = 0) : a = .reg 0 := by
  have h1 := getS_code a
  rw [h] at h1
  exact (Except.ok.inj h1).symm

theorem pk_amo_lt (od : Ord) (b : Bool) : od.code * 2 + ofFlag b < 8 := by have := od.code_lt; have := ofFlag_lt b; omega
theorem pk_amo_bit (x : Nat) (b : Bool) : flag (x * 2 + ofFlag b) 0 = b := by
  have h := ofFlag_one b; simp only [flag]; rw [show (x * 2 + ofFlag b) / 2 ^ 0 % 2 = ofFlag b % 2 by omega, h]
theorem pk_amo_ord (od : Ord) (b : Bool) : field (od.code * 2 + ofFlag b) 2 1 = od.code := by
  have := od.code_lt; have := ofFlag_lt b; simp only [field]; omega
theorem pk_cas_bit (x y : Nat) (b : Bool) : flag (x * 8 + y * 2 + ofFlag b) 0 = b := by
  have h := ofFlag_one b; simp only [flag]; rw [show (x * 8 + y * 2 + ofFlag b) / 2 ^ 0 % 2 = ofFlag b % 2 by omega, h]
theorem pk_cas_ord (x : Nat) (od : Ord) (b : Bool) : field (x * 8 + od.code * 2 + ofFlag b) 2 1 = od.code := by
  have := od.code_lt; have := ofFlag_lt b; simp only [field]; omega
theorem pk_cas_hi (x : Nat) (od : Ord) (b : Bool) : (x * 8 + od.code * 2 + ofFlag b) / 8 = x := by
  have := od.code_lt; have := ofFlag_lt b; omega
theorem pk_bit0 (b : Bool) : flag (ofFlag b) 0 = b := by cases b <;> rfl
theorem pk_bit_lt (b : Bool) : ofFlag b < 2 := ofFlag_lt b
theorem pk_bit_le (b : Bool) : ofFlag b ≤ 1 := by cases b <;> decide
theorem pk_sl_lo (b : Bool) (z : Fin 4) : field (ofFlag b * 4 + z.val) 1 0 = z.val := by
  have := ofFlag_lt b; simp only [field]; omega
theorem pk_sl_bit (b : Bool) (z : Fin 4) : flag (ofFlag b * 4 + z.val) 2 = b := by
  have h := ofFlag_one b; simp only [flag]; rw [show (ofFlag b * 4 + z.val) / 2 ^ 2 % 2 = ofFlag b % 2 by omega, h]
theorem pk_sl_lt (b : Bool) (z : Fin 4) : ofFlag b * 4 + z.val < 8 := by have := ofFlag_lt b; omega
theorem pk_seam_pred (p s : Bool) : flag (ofFlag p * 2 + ofFlag s) 1 = p := by cases p <;> cases s <;> rfl
theorem pk_seam_sat (p s : Bool) : flag (ofFlag p * 2 + ofFlag s) 0 = s := by cases p <;> cases s <;> rfl
theorem pk_seam_lt (p s : Bool) : ofFlag p * 2 + ofFlag s < 4 := by cases p <;> cases s <;> decide
theorem pk_pred (p : Bool) : flag (ofFlag p * 2) 1 = p := by cases p <;> rfl
theorem pk_pred_ok (p : Bool) : (ofFlag p * 2 == 0 || ofFlag p * 2 == 2) = true := by cases p <;> rfl
theorem pk_qnt_md (b : Bool) (m : RMode) : field (ofFlag b * 8 + m.code) 2 0 = m.code := by
  have := ofFlag_lt b; have := m.code_lt; simp only [field]; omega
theorem pk_qnt_bit (b : Bool) (m : RMode) : flag (ofFlag b * 8 + m.code) 3 = b := by
  have h := ofFlag_one b; have := m.code_lt; simp only [flag]
  rw [show (ofFlag b * 8 + m.code) / 2 ^ 3 % 2 = ofFlag b % 2 by omega, h]
theorem pk_qnt_lt (b : Bool) (m : RMode) : ofFlag b * 8 + m.code < 16 := by have := ofFlag_lt b; have := m.code_lt; omega
theorem pk_loop_pre (b : Bool) (k : Fin 8) (l : Fin 4096) : ((ofFlag b * 2 ^ 15 + k.val * 2 ^ 12 + l.val) / 32768 % 2 == 1) = b := by
  have h := ofFlag_one b
  rw [show (ofFlag b * 2 ^ 15 + k.val * 2 ^ 12 + l.val) / 32768 % 2 = ofFlag b % 2 by omega, h]
theorem pk_loop_stg (b : Bool) (k : Fin 8) (l : Fin 4096) : (ofFlag b * 2 ^ 15 + k.val * 2 ^ 12 + l.val) / 4096 % 8 = k.val := by
  have := ofFlag_lt b; omega
theorem pk_loop_len (b : Bool) (k : Fin 8) (l : Fin 4096) : (ofFlag b * 2 ^ 15 + k.val * 2 ^ 12 + l.val) % 4096 = l.val := by
  have := ofFlag_lt b; omega
theorem pk_spawn_nm (b : Bool) (c : Fin 16) (n : Fin 256) : ((ofFlag b * 2 ^ 12 + c.val * 2 ^ 8 + n.val) / 4096 % 2 == 1) = b := by
  have h := ofFlag_one b
  rw [show (ofFlag b * 2 ^ 12 + c.val * 2 ^ 8 + n.val) / 4096 % 2 = ofFlag b % 2 by omega, h]
theorem pk_spawn_core (b : Bool) (c : Fin 16) (n : Fin 256) : (ofFlag b * 2 ^ 12 + c.val * 2 ^ 8 + n.val) / 256 % 16 = c.val := by
  have := ofFlag_lt b; omega
theorem pk_spawn_entry (b : Bool) (c : Fin 16) (n : Fin 256) : (ofFlag b * 2 ^ 12 + c.val * 2 ^ 8 + n.val) % 256 = n.val := by
  have := ofFlag_lt b; omega
theorem pk_spawn_zero (b : Bool) (c : Fin 16) (n : Fin 256) : (ofFlag b * 2 ^ 12 + c.val * 2 ^ 8 + n.val) / 8192 = 0 := by
  have := ofFlag_lt b; omega
theorem pk_cvt_part (p : Fin 4) (t : VTy) : (p.val * 16 + t.code) / 16 = p.val := by have := t.code_lt; omega
theorem pk_cvt_ty (p : Fin 4) (t : VTy) : (p.val * 16 + t.code) % 16 = t.code := by have := t.code_lt; omega

theorem RoundTrip.add (o : SrOp) : RoundTrip.Statement (.add o) := by
  intro wf
  have := o.a.code_lt
  have := o.b.code_lt
  have := o.d.isLt
  have := o.g.isLt
  have := ofFlag_lt o.nw
  have h0 : packSr 0 0 o.d.val o.a.code o.b.code (ofFlag o.nw * 8 + o.g.val) ≠ 0 := by
    rw [ne_eq, sr_zero]
    rintro ⟨-, -, h1, h2, h3, h4⟩
    have h5 : o.a = .reg 0 := reg0_of_code _ h2
    have h6 : o.b = .reg 0 := reg0_of_code _ h3
    have h7 : o.nw = false := by cases hn : o.nw; rfl; rw [hn] at h4; simp [ofFlag] at h4
    have h8 : o.g = 0 := Fin.ext (by simp only [Fin.val_zero]; omega)
    have h9 : o.d = 0 := Fin.ext h1
    simp [Instr.wf, h5, h6, h7, h8, h9] at wf
  have f := decSr_of _ o (sr_d 0 0 _ _ _ _ (by omega) (by omega) (by omega) (by omega)) (sr_a 0 0 _ _ _ _ (by omega) (by omega) (by omega))
    (sr_b 0 0 _ _ _ _ (by omega) (by omega)) ((sr_flag3 0 0 _ _ _ _ (by omega)).trans (pk8_flag _ _))
    ((sr_low3 0 0 _ _ _ _).trans (pk8_lo _ _))
  have f1 := sr_class 0 0 o.d.val o.a.code o.b.code (ofFlag o.nw * 8 + o.g.val) (by omega) (by omega) (by omega) (by omega) (by omega) (by omega)
  have f2 := sr_minor 0 0 o.d.val o.a.code o.b.code (ofFlag o.nw * 8 + o.g.val) (by omega) (by omega) (by omega) (by omega) (by omega)
  simp only [encode]
  generalize packSr 0 0 o.d.val o.a.code o.b.code (ofFlag o.nw * 8 + o.g.val) = w at *
  rw [decodeWord_class0 _ _ h0 f1]; unfold decScalar; rw [f2]
  simp [f, ok_bind]

theorem RoundTrip.sub (o : SrOp) : RoundTrip.Statement (.sub o) := by
  intro wf; simp only [Instr.wf, Bool.and_eq_true] at wf
  have := o.a.code_lt
  have := o.b.code_lt
  have := o.d.isLt
  have := o.g.isLt
  have := ofFlag_lt o.nw
  have f31_28 := sr_class 0 1 o.d.val o.a.code o.b.code (ofFlag o.nw * 8 + o.g.val) (by omega) (by omega) (by omega) (by omega) (by omega) (by omega)
  have f27_22 := sr_minor 0 1 o.d.val o.a.code o.b.code (ofFlag o.nw * 8 + o.g.val) (by omega) (by omega) (by omega) (by omega) (by omega)
  have f21_16 := sr_d 0 1 o.d.val o.a.code o.b.code (ofFlag o.nw * 8 + o.g.val) (by omega) (by omega) (by omega) (by omega)
  have f15_10 := sr_a 0 1 o.d.val o.a.code o.b.code (ofFlag o.nw * 8 + o.g.val) (by omega) (by omega) (by omega)
  have f9_4 := sr_b 0 1 o.d.val o.a.code o.b.code (ofFlag o.nw * 8 + o.g.val) (by omega) (by omega)
  have f3 := sr_flag3 0 1 o.d.val o.a.code o.b.code (ofFlag o.nw * 8 + o.g.val) (by omega)
  have f2_0 := sr_low3 0 1 o.d.val o.a.code o.b.code (ofFlag o.nw * 8 + o.g.val)
  have h0 : packSr 0 1 o.d.val o.a.code o.b.code (ofFlag o.nw * 8 + o.g.val) ≠ 0 := by rw [ne_eq, sr_zero]; omega
  try simp only [pk8_hi, pk8_lo, pk16_hi, pk16_lo, pk8_flag, ofFlag_one, pk_loop_pre, pk_loop_stg, pk_loop_len, pk_spawn_nm, pk_spawn_core, pk_spawn_entry, pk_spawn_zero, pk_cvt_part, pk_cvt_ty, fin8_mod8, fin16_mod16] at f21_16 f15_10 f9_4 f3 f2_0
  refine encoded_as _ (packSr 0 1 o.d.val o.a.code o.b.code (ofFlag o.nw * 8 + o.g.val)) (0) rfl ?_
  generalize packSr 0 1 o.d.val o.a.code o.b.code (ofFlag o.nw * 8 + o.g.val) = w at *
  rw [decodeWord_class0 _ _ h0 f31_28]; unfold decScalar; rw [f27_22]
  simp (disch := omega) [decSr_of w o f21_16 f15_10 f9_4 f3 f2_0, ok_bind, Nat.div_eq_of_lt, Nat.mod_eq_of_lt, wf]

theorem RoundTrip.mul (o : SrOp) : RoundTrip.Statement (.mul o) := by
  intro wf; simp only [Instr.wf, Bool.and_eq_true] at wf
  have := o.a.code_lt
  have := o.b.code_lt
  have := o.d.isLt
  have := o.g.isLt
  have := ofFlag_lt o.nw
  have f31_28 := sr_class 0 2 o.d.val o.a.code o.b.code (ofFlag o.nw * 8 + o.g.val) (by omega) (by omega) (by omega) (by omega) (by omega) (by omega)
  have f27_22 := sr_minor 0 2 o.d.val o.a.code o.b.code (ofFlag o.nw * 8 + o.g.val) (by omega) (by omega) (by omega) (by omega) (by omega)
  have f21_16 := sr_d 0 2 o.d.val o.a.code o.b.code (ofFlag o.nw * 8 + o.g.val) (by omega) (by omega) (by omega) (by omega)
  have f15_10 := sr_a 0 2 o.d.val o.a.code o.b.code (ofFlag o.nw * 8 + o.g.val) (by omega) (by omega) (by omega)
  have f9_4 := sr_b 0 2 o.d.val o.a.code o.b.code (ofFlag o.nw * 8 + o.g.val) (by omega) (by omega)
  have f3 := sr_flag3 0 2 o.d.val o.a.code o.b.code (ofFlag o.nw * 8 + o.g.val) (by omega)
  have f2_0 := sr_low3 0 2 o.d.val o.a.code o.b.code (ofFlag o.nw * 8 + o.g.val)
  have h0 : packSr 0 2 o.d.val o.a.code o.b.code (ofFlag o.nw * 8 + o.g.val) ≠ 0 := by rw [ne_eq, sr_zero]; omega
  try simp only [pk8_hi, pk8_lo, pk16_hi, pk16_lo, pk8_flag, ofFlag_one, pk_loop_pre, pk_loop_stg, pk_loop_len, pk_spawn_nm, pk_spawn_core, pk_spawn_entry, pk_spawn_zero, pk_cvt_part, pk_cvt_ty, fin8_mod8, fin16_mod16] at f21_16 f15_10 f9_4 f3 f2_0
  refine encoded_as _ (packSr 0 2 o.d.val o.a.code o.b.code (ofFlag o.nw * 8 + o.g.val)) (0) rfl ?_
  generalize packSr 0 2 o.d.val o.a.code o.b.code (ofFlag o.nw * 8 + o.g.val) = w at *
  rw [decodeWord_class0 _ _ h0 f31_28]; unfold decScalar; rw [f27_22]
  simp (disch := omega) [decSr_of w o f21_16 f15_10 f9_4 f3 f2_0, ok_bind, Nat.div_eq_of_lt, Nat.mod_eq_of_lt, wf]

theorem RoundTrip.mulhI (o : SrOp) : RoundTrip.Statement (.mulhI o) := by
  intro wf; simp only [Instr.wf, Bool.and_eq_true] at wf
  have := o.a.code_lt
  have := o.b.code_lt
  have := o.d.isLt
  have := o.g.isLt
  have := ofFlag_lt o.nw
  have f31_28 := sr_class 0 3 o.d.val o.a.code o.b.code (ofFlag o.nw * 8 + o.g.val) (by omega) (by omega) (by omega) (by omega) (by omega) (by omega)
  have f27_22 := sr_minor 0 3 o.d.val o.a.code o.b.code (ofFlag o.nw * 8 + o.g.val) (by omega) (by omega) (by omega) (by omega) (by omega)
  have f21_16 := sr_d 0 3 o.d.val o.a.code o.b.code (ofFlag o.nw * 8 + o.g.val) (by omega) (by omega) (by omega) (by omega)
  have f15_10 := sr_a 0 3 o.d.val o.a.code o.b.code (ofFlag o.nw * 8 + o.g.val) (by omega) (by omega) (by omega)
  have f9_4 := sr_b 0 3 o.d.val o.a.code o.b.code (ofFlag o.nw * 8 + o.g.val) (by omega) (by omega)
  have f3 := sr_flag3 0 3 o.d.val o.a.code o.b.code (ofFlag o.nw * 8 + o.g.val) (by omega)
  have f2_0 := sr_low3 0 3 o.d.val o.a.code o.b.code (ofFlag o.nw * 8 + o.g.val)
  have h0 : packSr 0 3 o.d.val o.a.code o.b.code (ofFlag o.nw * 8 + o.g.val) ≠ 0 := by rw [ne_eq, sr_zero]; omega
  try simp only [pk8_hi, pk8_lo, pk16_hi, pk16_lo, pk8_flag, ofFlag_one, pk_loop_pre, pk_loop_stg, pk_loop_len, pk_spawn_nm, pk_spawn_core, pk_spawn_entry, pk_spawn_zero, pk_cvt_part, pk_cvt_ty, fin8_mod8, fin16_mod16] at f21_16 f15_10 f9_4 f3 f2_0
  refine encoded_as _ (packSr 0 3 o.d.val o.a.code o.b.code (ofFlag o.nw * 8 + o.g.val)) (0) rfl ?_
  generalize packSr 0 3 o.d.val o.a.code o.b.code (ofFlag o.nw * 8 + o.g.val) = w at *
  rw [decodeWord_class0 _ _ h0 f31_28]; unfold decScalar; rw [f27_22]
  simp (disch := omega) [decSr_of w o f21_16 f15_10 f9_4 f3 f2_0, ok_bind, Nat.div_eq_of_lt, Nat.mod_eq_of_lt, wf]

theorem RoundTrip.mulhN (o : SrOp) : RoundTrip.Statement (.mulhN o) := by
  intro wf; simp only [Instr.wf, Bool.and_eq_true] at wf
  have := o.a.code_lt
  have := o.b.code_lt
  have := o.d.isLt
  have := o.g.isLt
  have := ofFlag_lt o.nw
  have f31_28 := sr_class 0 4 o.d.val o.a.code o.b.code (ofFlag o.nw * 8 + o.g.val) (by omega) (by omega) (by omega) (by omega) (by omega) (by omega)
  have f27_22 := sr_minor 0 4 o.d.val o.a.code o.b.code (ofFlag o.nw * 8 + o.g.val) (by omega) (by omega) (by omega) (by omega) (by omega)
  have f21_16 := sr_d 0 4 o.d.val o.a.code o.b.code (ofFlag o.nw * 8 + o.g.val) (by omega) (by omega) (by omega) (by omega)
  have f15_10 := sr_a 0 4 o.d.val o.a.code o.b.code (ofFlag o.nw * 8 + o.g.val) (by omega) (by omega) (by omega)
  have f9_4 := sr_b 0 4 o.d.val o.a.code o.b.code (ofFlag o.nw * 8 + o.g.val) (by omega) (by omega)
  have f3 := sr_flag3 0 4 o.d.val o.a.code o.b.code (ofFlag o.nw * 8 + o.g.val) (by omega)
  have f2_0 := sr_low3 0 4 o.d.val o.a.code o.b.code (ofFlag o.nw * 8 + o.g.val)
  have h0 : packSr 0 4 o.d.val o.a.code o.b.code (ofFlag o.nw * 8 + o.g.val) ≠ 0 := by rw [ne_eq, sr_zero]; omega
  try simp only [pk8_hi, pk8_lo, pk16_hi, pk16_lo, pk8_flag, ofFlag_one, pk_loop_pre, pk_loop_stg, pk_loop_len, pk_spawn_nm, pk_spawn_core, pk_spawn_entry, pk_spawn_zero, pk_cvt_part, pk_cvt_ty, fin8_mod8, fin16_mod16] at f21_16 f15_10 f9_4 f3 f2_0
  refine encoded_as _ (packSr 0 4 o.d.val o.a.code o.b.code (ofFlag o.nw * 8 + o.g.val)) (0) rfl ?_
  generalize packSr 0 4 o.d.val o.a.code o.b.code (ofFlag o.nw * 8 + o.g.val) = w at *
  rw [decodeWord_class0 _ _ h0 f31_28]; unfold decScalar; rw [f27_22]
  simp (disch := omega) [decSr_of w o f21_16 f15_10 f9_4 f3 f2_0, ok_bind, Nat.div_eq_of_lt, Nat.mod_eq_of_lt, wf]

theorem RoundTrip.and (o : SrOp) : RoundTrip.Statement (.and o) := by
  intro wf; simp only [Instr.wf, Bool.and_eq_true] at wf
  have := o.a.code_lt
  have := o.b.code_lt
  have := o.d.isLt
  have := o.g.isLt
  have := ofFlag_lt o.nw
  have f31_28 := sr_class 0 5 o.d.val o.a.code o.b.code (ofFlag o.nw * 8 + o.g.val) (by omega) (by omega) (by omega) (by omega) (by omega) (by omega)
  have f27_22 := sr_minor 0 5 o.d.val o.a.code o.b.code (ofFlag o.nw * 8 + o.g.val) (by omega) (by omega) (by omega) (by omega) (by omega)
  have f21_16 := sr_d 0 5 o.d.val o.a.code o.b.code (ofFlag o.nw * 8 + o.g.val) (by omega) (by omega) (by omega) (by omega)
  have f15_10 := sr_a 0 5 o.d.val o.a.code o.b.code (ofFlag o.nw * 8 + o.g.val) (by omega) (by omega) (by omega)
  have f9_4 := sr_b 0 5 o.d.val o.a.code o.b.code (ofFlag o.nw * 8 + o.g.val) (by omega) (by omega)
  have f3 := sr_flag3 0 5 o.d.val o.a.code o.b.code (ofFlag o.nw * 8 + o.g.val) (by omega)
  have f2_0 := sr_low3 0 5 o.d.val o.a.code o.b.code (ofFlag o.nw * 8 + o.g.val)
  have h0 : packSr 0 5 o.d.val o.a.code o.b.code (ofFlag o.nw * 8 + o.g.val) ≠ 0 := by rw [ne_eq, sr_zero]; omega
  try simp only [pk8_hi, pk8_lo, pk16_hi, pk16_lo, pk8_flag, ofFlag_one, pk_loop_pre, pk_loop_stg, pk_loop_len, pk_spawn_nm, pk_spawn_core, pk_spawn_entry, pk_spawn_zero, pk_cvt_part, pk_cvt_ty, fin8_mod8, fin16_mod16] at f21_16 f15_10 f9_4 f3 f2_0
  refine encoded_as _ (packSr 0 5 o.d.val o.a.code o.b.code (ofFlag o.nw * 8 + o.g.val)) (0) rfl ?_
  generalize packSr 0 5 o.d.val o.a.code o.b.code (ofFlag o.nw * 8 + o.g.val) = w at *
  rw [decodeWord_class0 _ _ h0 f31_28]; unfold decScalar; rw [f27_22]
  simp (disch := omega) [decSr_of w o f21_16 f15_10 f9_4 f3 f2_0, ok_bind, Nat.div_eq_of_lt, Nat.mod_eq_of_lt, wf]

theorem RoundTrip.or (o : SrOp) : RoundTrip.Statement (.or o) := by
  intro wf; simp only [Instr.wf, Bool.and_eq_true] at wf
  have := o.a.code_lt
  have := o.b.code_lt
  have := o.d.isLt
  have := o.g.isLt
  have := ofFlag_lt o.nw
  have f31_28 := sr_class 0 6 o.d.val o.a.code o.b.code (ofFlag o.nw * 8 + o.g.val) (by omega) (by omega) (by omega) (by omega) (by omega) (by omega)
  have f27_22 := sr_minor 0 6 o.d.val o.a.code o.b.code (ofFlag o.nw * 8 + o.g.val) (by omega) (by omega) (by omega) (by omega) (by omega)
  have f21_16 := sr_d 0 6 o.d.val o.a.code o.b.code (ofFlag o.nw * 8 + o.g.val) (by omega) (by omega) (by omega) (by omega)
  have f15_10 := sr_a 0 6 o.d.val o.a.code o.b.code (ofFlag o.nw * 8 + o.g.val) (by omega) (by omega) (by omega)
  have f9_4 := sr_b 0 6 o.d.val o.a.code o.b.code (ofFlag o.nw * 8 + o.g.val) (by omega) (by omega)
  have f3 := sr_flag3 0 6 o.d.val o.a.code o.b.code (ofFlag o.nw * 8 + o.g.val) (by omega)
  have f2_0 := sr_low3 0 6 o.d.val o.a.code o.b.code (ofFlag o.nw * 8 + o.g.val)
  have h0 : packSr 0 6 o.d.val o.a.code o.b.code (ofFlag o.nw * 8 + o.g.val) ≠ 0 := by rw [ne_eq, sr_zero]; omega
  try simp only [pk8_hi, pk8_lo, pk16_hi, pk16_lo, pk8_flag, ofFlag_one, pk_loop_pre, pk_loop_stg, pk_loop_len, pk_spawn_nm, pk_spawn_core, pk_spawn_entry, pk_spawn_zero, pk_cvt_part, pk_cvt_ty, fin8_mod8, fin16_mod16] at f21_16 f15_10 f9_4 f3 f2_0
  refine encoded_as _ (packSr 0 6 o.d.val o.a.code o.b.code (ofFlag o.nw * 8 + o.g.val)) (0) rfl ?_
  generalize packSr 0 6 o.d.val o.a.code o.b.code (ofFlag o.nw * 8 + o.g.val) = w at *
  rw [decodeWord_class0 _ _ h0 f31_28]; unfold decScalar; rw [f27_22]
  simp (disch := omega) [decSr_of w o f21_16 f15_10 f9_4 f3 f2_0, ok_bind, Nat.div_eq_of_lt, Nat.mod_eq_of_lt, wf]

theorem RoundTrip.xor (o : SrOp) : RoundTrip.Statement (.xor o) := by
  intro wf; simp only [Instr.wf, Bool.and_eq_true] at wf
  have := o.a.code_lt
  have := o.b.code_lt
  have := o.d.isLt
  have := o.g.isLt
  have := ofFlag_lt o.nw
  have f31_28 := sr_class 0 7 o.d.val o.a.code o.b.code (ofFlag o.nw * 8 + o.g.val) (by omega) (by omega) (by omega) (by omega) (by omega) (by omega)
  have f27_22 := sr_minor 0 7 o.d.val o.a.code o.b.code (ofFlag o.nw * 8 + o.g.val) (by omega) (by omega) (by omega) (by omega) (by omega)
  have f21_16 := sr_d 0 7 o.d.val o.a.code o.b.code (ofFlag o.nw * 8 + o.g.val) (by omega) (by omega) (by omega) (by omega)
  have f15_10 := sr_a 0 7 o.d.val o.a.code o.b.code (ofFlag o.nw * 8 + o.g.val) (by omega) (by omega) (by omega)
  have f9_4 := sr_b 0 7 o.d.val o.a.code o.b.code (ofFlag o.nw * 8 + o.g.val) (by omega) (by omega)
  have f3 := sr_flag3 0 7 o.d.val o.a.code o.b.code (ofFlag o.nw * 8 + o.g.val) (by omega)
  have f2_0 := sr_low3 0 7 o.d.val o.a.code o.b.code (ofFlag o.nw * 8 + o.g.val)
  have h0 : packSr 0 7 o.d.val o.a.code o.b.code (ofFlag o.nw * 8 + o.g.val) ≠ 0 := by rw [ne_eq, sr_zero]; omega
  try simp only [pk8_hi, pk8_lo, pk16_hi, pk16_lo, pk8_flag, ofFlag_one, pk_loop_pre, pk_loop_stg, pk_loop_len, pk_spawn_nm, pk_spawn_core, pk_spawn_entry, pk_spawn_zero, pk_cvt_part, pk_cvt_ty, fin8_mod8, fin16_mod16] at f21_16 f15_10 f9_4 f3 f2_0
  refine encoded_as _ (packSr 0 7 o.d.val o.a.code o.b.code (ofFlag o.nw * 8 + o.g.val)) (0) rfl ?_
  generalize packSr 0 7 o.d.val o.a.code o.b.code (ofFlag o.nw * 8 + o.g.val) = w at *
  rw [decodeWord_class0 _ _ h0 f31_28]; unfold decScalar; rw [f27_22]
  simp (disch := omega) [decSr_of w o f21_16 f15_10 f9_4 f3 f2_0, ok_bind, Nat.div_eq_of_lt, Nat.mod_eq_of_lt, wf]

theorem RoundTrip.andn (o : SrOp) : RoundTrip.Statement (.andn o) := by
  intro wf; simp only [Instr.wf, Bool.and_eq_true] at wf
  have := o.a.code_lt
  have := o.b.code_lt
  have := o.d.isLt
  have := o.g.isLt
  have := ofFlag_lt o.nw
  have f31_28 := sr_class 0 8 o.d.val o.a.code o.b.code (ofFlag o.nw * 8 + o.g.val) (by omega) (by omega) (by omega) (by omega) (by omega) (by omega)
  have f27_22 := sr_minor 0 8 o.d.val o.a.code o.b.code (ofFlag o.nw * 8 + o.g.val) (by omega) (by omega) (by omega) (by omega) (by omega)
  have f21_16 := sr_d 0 8 o.d.val o.a.code o.b.code (ofFlag o.nw * 8 + o.g.val) (by omega) (by omega) (by omega) (by omega)
  have f15_10 := sr_a 0 8 o.d.val o.a.code o.b.code (ofFlag o.nw * 8 + o.g.val) (by omega) (by omega) (by omega)
  have f9_4 := sr_b 0 8 o.d.val o.a.code o.b.code (ofFlag o.nw * 8 + o.g.val) (by omega) (by omega)
  have f3 := sr_flag3 0 8 o.d.val o.a.code o.b.code (ofFlag o.nw * 8 + o.g.val) (by omega)
  have f2_0 := sr_low3 0 8 o.d.val o.a.code o.b.code (ofFlag o.nw * 8 + o.g.val)
  have h0 : packSr 0 8 o.d.val o.a.code o.b.code (ofFlag o.nw * 8 + o.g.val) ≠ 0 := by rw [ne_eq, sr_zero]; omega
  try simp only [pk8_hi, pk8_lo, pk16_hi, pk16_lo, pk8_flag, ofFlag_one, pk_loop_pre, pk_loop_stg, pk_loop_len, pk_spawn_nm, pk_spawn_core, pk_spawn_entry, pk_spawn_zero, pk_cvt_part, pk_cvt_ty, fin8_mod8, fin16_mod16] at f21_16 f15_10 f9_4 f3 f2_0
  refine encoded_as _ (packSr 0 8 o.d.val o.a.code o.b.code (ofFlag o.nw * 8 + o.g.val)) (0) rfl ?_
  generalize packSr 0 8 o.d.val o.a.code o.b.code (ofFlag o.nw * 8 + o.g.val) = w at *
  rw [decodeWord_class0 _ _ h0 f31_28]; unfold decScalar; rw [f27_22]
  simp (disch := omega) [decSr_of w o f21_16 f15_10 f9_4 f3 f2_0, ok_bind, Nat.div_eq_of_lt, Nat.mod_eq_of_lt, wf]

theorem RoundTrip.shl (o : SrOp) : RoundTrip.Statement (.shl o) := by
  intro wf; simp only [Instr.wf, Bool.and_eq_true] at wf
  have := o.a.code_lt
  have := o.b.code_lt
  have := o.d.isLt
  have := o.g.isLt
  have := ofFlag_lt o.nw
  have f31_28 := sr_class 0 9 o.d.val o.a.code o.b.code (ofFlag o.nw * 8 + o.g.val) (by omega) (by omega) (by omega) (by omega) (by omega) (by omega)
  have f27_22 := sr_minor 0 9 o.d.val o.a.code o.b.code (ofFlag o.nw * 8 + o.g.val) (by omega) (by omega) (by omega) (by omega) (by omega)
  have f21_16 := sr_d 0 9 o.d.val o.a.code o.b.code (ofFlag o.nw * 8 + o.g.val) (by omega) (by omega) (by omega) (by omega)
  have f15_10 := sr_a 0 9 o.d.val o.a.code o.b.code (ofFlag o.nw * 8 + o.g.val) (by omega) (by omega) (by omega)
  have f9_4 := sr_b 0 9 o.d.val o.a.code o.b.code (ofFlag o.nw * 8 + o.g.val) (by omega) (by omega)
  have f3 := sr_flag3 0 9 o.d.val o.a.code o.b.code (ofFlag o.nw * 8 + o.g.val) (by omega)
  have f2_0 := sr_low3 0 9 o.d.val o.a.code o.b.code (ofFlag o.nw * 8 + o.g.val)
  have h0 : packSr 0 9 o.d.val o.a.code o.b.code (ofFlag o.nw * 8 + o.g.val) ≠ 0 := by rw [ne_eq, sr_zero]; omega
  try simp only [pk8_hi, pk8_lo, pk16_hi, pk16_lo, pk8_flag, ofFlag_one, pk_loop_pre, pk_loop_stg, pk_loop_len, pk_spawn_nm, pk_spawn_core, pk_spawn_entry, pk_spawn_zero, pk_cvt_part, pk_cvt_ty, fin8_mod8, fin16_mod16] at f21_16 f15_10 f9_4 f3 f2_0
  refine encoded_as _ (packSr 0 9 o.d.val o.a.code o.b.code (ofFlag o.nw * 8 + o.g.val)) (0) rfl ?_
  generalize packSr 0 9 o.d.val o.a.code o.b.code (ofFlag o.nw * 8 + o.g.val) = w at *
  rw [decodeWord_class0 _ _ h0 f31_28]; unfold decScalar; rw [f27_22]
  simp (disch := omega) [decSr_of w o f21_16 f15_10 f9_4 f3 f2_0, ok_bind, Nat.div_eq_of_lt, Nat.mod_eq_of_lt, wf]

theorem RoundTrip.shr (o : SrOp) : RoundTrip.Statement (.shr o) := by
  intro wf; simp only [Instr.wf, Bool.and_eq_true] at wf
  have := o.a.code_lt
  have := o.b.code_lt
  have := o.d.isLt
  have := o.g.isLt
  have := ofFlag_lt o.nw
  have f31_28 := sr_class 0 10 o.d.val o.a.code o.b.code (ofFlag o.nw * 8 + o.g.val) (by omega) (by omega) (by omega) (by omega) (by omega) (by omega)
  have f27_22 := sr_minor 0 10 o.d.val o.a.code o.b.code (ofFlag o.nw * 8 + o.g.val) (by omega) (by omega) (by omega) (by omega) (by omega)
  have f21_16 := sr_d 0 10 o.d.val o.a.code o.b.code (ofFlag o.nw * 8 + o.g.val) (by omega) (by omega) (by omega) (by omega)
  have f15_10 := sr_a 0 10 o.d.val o.a.code o.b.code (ofFlag o.nw * 8 + o.g.val) (by omega) (by omega) (by omega)
  have f9_4 := sr_b 0 10 o.d.val o.a.code o.b.code (ofFlag o.nw * 8 + o.g.val) (by omega) (by omega)
  have f3 := sr_flag3 0 10 o.d.val o.a.code o.b.code (ofFlag o.nw * 8 + o.g.val) (by omega)
  have f2_0 := sr_low3 0 10 o.d.val o.a.code o.b.code (ofFlag o.nw * 8 + o.g.val)
  have h0 : packSr 0 10 o.d.val o.a.code o.b.code (ofFlag o.nw * 8 + o.g.val) ≠ 0 := by rw [ne_eq, sr_zero]; omega
  try simp only [pk8_hi, pk8_lo, pk16_hi, pk16_lo, pk8_flag, ofFlag_one, pk_loop_pre, pk_loop_stg, pk_loop_len, pk_spawn_nm, pk_spawn_core, pk_spawn_entry, pk_spawn_zero, pk_cvt_part, pk_cvt_ty, fin8_mod8, fin16_mod16] at f21_16 f15_10 f9_4 f3 f2_0
  refine encoded_as _ (packSr 0 10 o.d.val o.a.code o.b.code (ofFlag o.nw * 8 + o.g.val)) (0) rfl ?_
  generalize packSr 0 10 o.d.val o.a.code o.b.code (ofFlag o.nw * 8 + o.g.val) = w at *
  rw [decodeWord_class0 _ _ h0 f31_28]; unfold decScalar; rw [f27_22]
  simp (disch := omega) [decSr_of w o f21_16 f15_10 f9_4 f3 f2_0, ok_bind, Nat.div_eq_of_lt, Nat.mod_eq_of_lt, wf]

theorem RoundTrip.sra (o : SrOp) : RoundTrip.Statement (.sra o) := by
  intro wf; simp only [Instr.wf, Bool.and_eq_true] at wf
  have := o.a.code_lt
  have := o.b.code_lt
  have := o.d.isLt
  have := o.g.isLt
  have := ofFlag_lt o.nw
  have f31_28 := sr_class 0 11 o.d.val o.a.code o.b.code (ofFlag o.nw * 8 + o.g.val) (by omega) (by omega) (by omega) (by omega) (by omega) (by omega)
  have f27_22 := sr_minor 0 11 o.d.val o.a.code o.b.code (ofFlag o.nw * 8 + o.g.val) (by omega) (by omega) (by omega) (by omega) (by omega)
  have f21_16 := sr_d 0 11 o.d.val o.a.code o.b.code (ofFlag o.nw * 8 + o.g.val) (by omega) (by omega) (by omega) (by omega)
  have f15_10 := sr_a 0 11 o.d.val o.a.code o.b.code (ofFlag o.nw * 8 + o.g.val) (by omega) (by omega) (by omega)
  have f9_4 := sr_b 0 11 o.d.val o.a.code o.b.code (ofFlag o.nw * 8 + o.g.val) (by omega) (by omega)
  have f3 := sr_flag3 0 11 o.d.val o.a.code o.b.code (ofFlag o.nw * 8 + o.g.val) (by omega)
  have f2_0 := sr_low3 0 11 o.d.val o.a.code o.b.code (ofFlag o.nw * 8 + o.g.val)
  have h0 : packSr 0 11 o.d.val o.a.code o.b.code (ofFlag o.nw * 8 + o.g.val) ≠ 0 := by rw [ne_eq, sr_zero]; omega
  try simp only [pk8_hi, pk8_lo, pk16_hi, pk16_lo, pk8_flag, ofFlag_one, pk_loop_pre, pk_loop_stg, pk_loop_len, pk_spawn_nm, pk_spawn_core, pk_spawn_entry, pk_spawn_zero, pk_cvt_part, pk_cvt_ty, fin8_mod8, fin16_mod16] at f21_16 f15_10 f9_4 f3 f2_0
  refine encoded_as _ (packSr 0 11 o.d.val o.a.code o.b.code (ofFlag o.nw * 8 + o.g.val)) (0) rfl ?_
  generalize packSr 0 11 o.d.val o.a.code o.b.code (ofFlag o.nw * 8 + o.g.val) = w at *
  rw [decodeWord_class0 _ _ h0 f31_28]; unfold decScalar; rw [f27_22]
  simp (disch := omega) [decSr_of w o f21_16 f15_10 f9_4 f3 f2_0, ok_bind, Nat.div_eq_of_lt, Nat.mod_eq_of_lt, wf]

theorem RoundTrip.minI (o : SrOp) : RoundTrip.Statement (.minI o) := by
  intro wf; simp only [Instr.wf, Bool.and_eq_true] at wf
  have := o.a.code_lt
  have := o.b.code_lt
  have := o.d.isLt
  have := o.g.isLt
  have := ofFlag_lt o.nw
  have f31_28 := sr_class 0 12 o.d.val o.a.code o.b.code (ofFlag o.nw * 8 + o.g.val) (by omega) (by omega) (by omega) (by omega) (by omega) (by omega)
  have f27_22 := sr_minor 0 12 o.d.val o.a.code o.b.code (ofFlag o.nw * 8 + o.g.val) (by omega) (by omega) (by omega) (by omega) (by omega)
  have f21_16 := sr_d 0 12 o.d.val o.a.code o.b.code (ofFlag o.nw * 8 + o.g.val) (by omega) (by omega) (by omega) (by omega)
  have f15_10 := sr_a 0 12 o.d.val o.a.code o.b.code (ofFlag o.nw * 8 + o.g.val) (by omega) (by omega) (by omega)
  have f9_4 := sr_b 0 12 o.d.val o.a.code o.b.code (ofFlag o.nw * 8 + o.g.val) (by omega) (by omega)
  have f3 := sr_flag3 0 12 o.d.val o.a.code o.b.code (ofFlag o.nw * 8 + o.g.val) (by omega)
  have f2_0 := sr_low3 0 12 o.d.val o.a.code o.b.code (ofFlag o.nw * 8 + o.g.val)
  have h0 : packSr 0 12 o.d.val o.a.code o.b.code (ofFlag o.nw * 8 + o.g.val) ≠ 0 := by rw [ne_eq, sr_zero]; omega
  try simp only [pk8_hi, pk8_lo, pk16_hi, pk16_lo, pk8_flag, ofFlag_one, pk_loop_pre, pk_loop_stg, pk_loop_len, pk_spawn_nm, pk_spawn_core, pk_spawn_entry, pk_spawn_zero, pk_cvt_part, pk_cvt_ty, fin8_mod8, fin16_mod16] at f21_16 f15_10 f9_4 f3 f2_0
  refine encoded_as _ (packSr 0 12 o.d.val o.a.code o.b.code (ofFlag o.nw * 8 + o.g.val)) (0) rfl ?_
  generalize packSr 0 12 o.d.val o.a.code o.b.code (ofFlag o.nw * 8 + o.g.val) = w at *
  rw [decodeWord_class0 _ _ h0 f31_28]; unfold decScalar; rw [f27_22]
  simp (disch := omega) [decSr_of w o f21_16 f15_10 f9_4 f3 f2_0, ok_bind, Nat.div_eq_of_lt, Nat.mod_eq_of_lt, wf]

theorem RoundTrip.maxI (o : SrOp) : RoundTrip.Statement (.maxI o) := by
  intro wf; simp only [Instr.wf, Bool.and_eq_true] at wf
  have := o.a.code_lt
  have := o.b.code_lt
  have := o.d.isLt
  have := o.g.isLt
  have := ofFlag_lt o.nw
  have f31_28 := sr_class 0 13 o.d.val o.a.code o.b.code (ofFlag o.nw * 8 + o.g.val) (by omega) (by omega) (by omega) (by omega) (by omega) (by omega)
  have f27_22 := sr_minor 0 13 o.d.val o.a.code o.b.code (ofFlag o.nw * 8 + o.g.val) (by omega) (by omega) (by omega) (by omega) (by omega)
  have f21_16 := sr_d 0 13 o.d.val o.a.code o.b.code (ofFlag o.nw * 8 + o.g.val) (by omega) (by omega) (by omega) (by omega)
  have f15_10 := sr_a 0 13 o.d.val o.a.code o.b.code (ofFlag o.nw * 8 + o.g.val) (by omega) (by omega) (by omega)
  have f9_4 := sr_b 0 13 o.d.val o.a.code o.b.code (ofFlag o.nw * 8 + o.g.val) (by omega) (by omega)
  have f3 := sr_flag3 0 13 o.d.val o.a.code o.b.code (ofFlag o.nw * 8 + o.g.val) (by omega)
  have f2_0 := sr_low3 0 13 o.d.val o.a.code o.b.code (ofFlag o.nw * 8 + o.g.val)
  have h0 : packSr 0 13 o.d.val o.a.code o.b.code (ofFlag o.nw * 8 + o.g.val) ≠ 0 := by rw [ne_eq, sr_zero]; omega
  try simp only [pk8_hi, pk8_lo, pk16_hi, pk16_lo, pk8_flag, ofFlag_one, pk_loop_pre, pk_loop_stg, pk_loop_len, pk_spawn_nm, pk_spawn_core, pk_spawn_entry, pk_spawn_zero, pk_cvt_part, pk_cvt_ty, fin8_mod8, fin16_mod16] at f21_16 f15_10 f9_4 f3 f2_0
  refine encoded_as _ (packSr 0 13 o.d.val o.a.code o.b.code (ofFlag o.nw * 8 + o.g.val)) (0) rfl ?_
  generalize packSr 0 13 o.d.val o.a.code o.b.code (ofFlag o.nw * 8 + o.g.val) = w at *
  rw [decodeWord_class0 _ _ h0 f31_28]; unfold decScalar; rw [f27_22]
  simp (disch := omega) [decSr_of w o f21_16 f15_10 f9_4 f3 f2_0, ok_bind, Nat.div_eq_of_lt, Nat.mod_eq_of_lt, wf]

theorem RoundTrip.minN (o : SrOp) : RoundTrip.Statement (.minN o) := by
  intro wf; simp only [Instr.wf, Bool.and_eq_true] at wf
  have := o.a.code_lt
  have := o.b.code_lt
  have := o.d.isLt
  have := o.g.isLt
  have := ofFlag_lt o.nw
  have f31_28 := sr_class 0 14 o.d.val o.a.code o.b.code (ofFlag o.nw * 8 + o.g.val) (by omega) (by omega) (by omega) (by omega) (by omega) (by omega)
  have f27_22 := sr_minor 0 14 o.d.val o.a.code o.b.code (ofFlag o.nw * 8 + o.g.val) (by omega) (by omega) (by omega) (by omega) (by omega)
  have f21_16 := sr_d 0 14 o.d.val o.a.code o.b.code (ofFlag o.nw * 8 + o.g.val) (by omega) (by omega) (by omega) (by omega)
  have f15_10 := sr_a 0 14 o.d.val o.a.code o.b.code (ofFlag o.nw * 8 + o.g.val) (by omega) (by omega) (by omega)
  have f9_4 := sr_b 0 14 o.d.val o.a.code o.b.code (ofFlag o.nw * 8 + o.g.val) (by omega) (by omega)
  have f3 := sr_flag3 0 14 o.d.val o.a.code o.b.code (ofFlag o.nw * 8 + o.g.val) (by omega)
  have f2_0 := sr_low3 0 14 o.d.val o.a.code o.b.code (ofFlag o.nw * 8 + o.g.val)
  have h0 : packSr 0 14 o.d.val o.a.code o.b.code (ofFlag o.nw * 8 + o.g.val) ≠ 0 := by rw [ne_eq, sr_zero]; omega
  try simp only [pk8_hi, pk8_lo, pk16_hi, pk16_lo, pk8_flag, ofFlag_one, pk_loop_pre, pk_loop_stg, pk_loop_len, pk_spawn_nm, pk_spawn_core, pk_spawn_entry, pk_spawn_zero, pk_cvt_part, pk_cvt_ty, fin8_mod8, fin16_mod16] at f21_16 f15_10 f9_4 f3 f2_0
  refine encoded_as _ (packSr 0 14 o.d.val o.a.code o.b.code (ofFlag o.nw * 8 + o.g.val)) (0) rfl ?_
  generalize packSr 0 14 o.d.val o.a.code o.b.code (ofFlag o.nw * 8 + o.g.val) = w at *
  rw [decodeWord_class0 _ _ h0 f31_28]; unfold decScalar; rw [f27_22]
  simp (disch := omega) [decSr_of w o f21_16 f15_10 f9_4 f3 f2_0, ok_bind, Nat.div_eq_of_lt, Nat.mod_eq_of_lt, wf]

theorem RoundTrip.maxN (o : SrOp) : RoundTrip.Statement (.maxN o) := by
  intro wf; simp only [Instr.wf, Bool.and_eq_true] at wf
  have := o.a.code_lt
  have := o.b.code_lt
  have := o.d.isLt
  have := o.g.isLt
  have := ofFlag_lt o.nw
  have f31_28 := sr_class 0 15 o.d.val o.a.code o.b.code (ofFlag o.nw * 8 + o.g.val) (by omega) (by omega) (by omega) (by omega) (by omega) (by omega)
  have f27_22 := sr_minor 0 15 o.d.val o.a.code o.b.code (ofFlag o.nw * 8 + o.g.val) (by omega) (by omega) (by omega) (by omega) (by omega)
  have f21_16 := sr_d 0 15 o.d.val o.a.code o.b.code (ofFlag o.nw * 8 + o.g.val) (by omega) (by omega) (by omega) (by omega)
  have f15_10 := sr_a 0 15 o.d.val o.a.code o.b.code (ofFlag o.nw * 8 + o.g.val) (by omega) (by omega) (by omega)
  have f9_4 := sr_b 0 15 o.d.val o.a.code o.b.code (ofFlag o.nw * 8 + o.g.val) (by omega) (by omega)
  have f3 := sr_flag3 0 15 o.d.val o.a.code o.b.code (ofFlag o.nw * 8 + o.g.val) (by omega)
  have f2_0 := sr_low3 0 15 o.d.val o.a.code o.b.code (ofFlag o.nw * 8 + o.g.val)
  have h0 : packSr 0 15 o.d.val o.a.code o.b.code (ofFlag o.nw * 8 + o.g.val) ≠ 0 := by rw [ne_eq, sr_zero]; omega
  try simp only [pk8_hi, pk8_lo, pk16_hi, pk16_lo, pk8_flag, ofFlag_one, pk_loop_pre, pk_loop_stg, pk_loop_len, pk_spawn_nm, pk_spawn_core, pk_spawn_entry, pk_spawn_zero, pk_cvt_part, pk_cvt_ty, fin8_mod8, fin16_mod16] at f21_16 f15_10 f9_4 f3 f2_0
  refine encoded_as _ (packSr 0 15 o.d.val o.a.code o.b.code (ofFlag o.nw * 8 + o.g.val)) (0) rfl ?_
  generalize packSr 0 15 o.d.val o.a.code o.b.code (ofFlag o.nw * 8 + o.g.val) = w at *
  rw [decodeWord_class0 _ _ h0 f31_28]; unfold decScalar; rw [f27_22]
  simp (disch := omega) [decSr_of w o f21_16 f15_10 f9_4 f3 f2_0, ok_bind, Nat.div_eq_of_lt, Nat.mod_eq_of_lt, wf]

theorem RoundTrip.cmp (c : SCond) (p : Fin 8) (a : SSrc) (b : SSrc) (nw : Bool) (g : Fin 8) : RoundTrip.Statement (.cmp c p a b nw g) := by
  intro wf; simp only [Instr.wf, Bool.and_eq_true] at wf
  have := c.code_lt
  have := a.code_lt
  have := b.code_lt
  have := p.isLt
  have := g.isLt
  have := ofFlag_lt nw
  have f31_28 := sr_class 0 16 (c.code * 8 + p.val) a.code b.code (ofFlag nw * 8 + g.val) (by omega) (by omega) (by omega) (by omega) (by omega) (by omega)
  have f27_22 := sr_minor 0 16 (c.code * 8 + p.val) a.code b.code (ofFlag nw * 8 + g.val) (by omega) (by omega) (by omega) (by omega) (by omega)
  have f21_19 := sr_dhi 0 16 (c.code * 8 + p.val) a.code b.code (ofFlag nw * 8 + g.val) (by omega) (by omega) (by omega) (by omega)
  have f18_16 := sr_dlo 0 16 (c.code * 8 + p.val) a.code b.code (ofFlag nw * 8 + g.val) (by omega) (by omega) (by omega)
  have f15_10 := sr_a 0 16 (c.code * 8 + p.val) a.code b.code (ofFlag nw * 8 + g.val) (by omega) (by omega) (by omega)
  have f9_4 := sr_b 0 16 (c.code * 8 + p.val) a.code b.code (ofFlag nw * 8 + g.val) (by omega) (by omega)
  have f3 := sr_flag3 0 16 (c.code * 8 + p.val) a.code b.code (ofFlag nw * 8 + g.val) (by omega)
  have f2_0 := sr_low3 0 16 (c.code * 8 + p.val) a.code b.code (ofFlag nw * 8 + g.val)
  have h0 : packSr 0 16 (c.code * 8 + p.val) a.code b.code (ofFlag nw * 8 + g.val) ≠ 0 := by rw [ne_eq, sr_zero]; omega
  try simp only [pk8_hi, pk8_lo, pk16_hi, pk16_lo, pk8_flag, ofFlag_one, pk_loop_pre, pk_loop_stg, pk_loop_len, pk_spawn_nm, pk_spawn_core, pk_spawn_entry, pk_spawn_zero, pk_cvt_part, pk_cvt_ty, fin8_mod8, fin16_mod16] at f21_19 f18_16 f15_10 f9_4 f3 f2_0
  refine encoded_as _ (packSr 0 16 (c.code * 8 + p.val) a.code b.code (ofFlag nw * 8 + g.val)) (0) rfl ?_
  generalize packSr 0 16 (c.code * 8 + p.val) a.code b.code (ofFlag nw * 8 + g.val) = w at *
  rw [decodeWord_class0 _ _ h0 f31_28]; unfold decScalar; rw [f27_22]
  simp (disch := omega) [f21_19, f18_16, f15_10, f9_4, f3, f2_0, ok_bind, Nat.div_eq_of_lt, Nat.mod_eq_of_lt, wf]

theorem RoundTrip.sel (o : SrOp) (k : Fin 8) : RoundTrip.Statement (.sel o k) := by
  intro wf; simp only [Instr.wf, Bool.and_eq_true] at wf
  have := o.a.code_lt
  have := o.b.code_lt
  have := o.d.isLt
  have := o.g.isLt
  have := k.isLt
  have := ofFlag_lt o.nw
  have f31_28 := sr_class 0 17 o.d.val o.a.code o.b.code (ofFlag o.nw * 8 + o.g.val) (by omega) (by omega) (by omega) (by omega) (by omega) (by omega)
  have f27_22 := sr_minor 0 17 o.d.val o.a.code o.b.code (ofFlag o.nw * 8 + o.g.val) (by omega) (by omega) (by omega) (by omega) (by omega)
  have f21_16 := sr_d 0 17 o.d.val o.a.code o.b.code (ofFlag o.nw * 8 + o.g.val) (by omega) (by omega) (by omega) (by omega)
  have f15_10 := sr_a 0 17 o.d.val o.a.code o.b.code (ofFlag o.nw * 8 + o.g.val) (by omega) (by omega) (by omega)
  have f9_4 := sr_b 0 17 o.d.val o.a.code o.b.code (ofFlag o.nw * 8 + o.g.val) (by omega) (by omega)
  have f3 := sr_flag3 0 17 o.d.val o.a.code o.b.code (ofFlag o.nw * 8 + o.g.val) (by omega)
  have f2_0 := sr_low3 0 17 o.d.val o.a.code o.b.code (ofFlag o.nw * 8 + o.g.val)
  have h0 : packSr 0 17 o.d.val o.a.code o.b.code (ofFlag o.nw * 8 + o.g.val) ≠ 0 := by rw [ne_eq, sr_zero]; omega
  try simp only [pk8_hi, pk8_lo, pk16_hi, pk16_lo, pk8_flag, ofFlag_one, pk_loop_pre, pk_loop_stg, pk_loop_len, pk_spawn_nm, pk_spawn_core, pk_spawn_entry, pk_spawn_zero, pk_cvt_part, pk_cvt_ty, fin8_mod8, fin16_mod16] at f21_16 f15_10 f9_4 f3 f2_0
  refine encoded_as _ (packSr 0 17 o.d.val o.a.code o.b.code (ofFlag o.nw * 8 + o.g.val)) (k.val) rfl ?_
  generalize packSr 0 17 o.d.val o.a.code o.b.code (ofFlag o.nw * 8 + o.g.val) = w at *
  rw [decodeWord_class0 _ _ h0 f31_28]; unfold decScalar; rw [f27_22]
  simp (disch := omega) [decSr_of w o f21_16 f15_10 f9_4 f3 f2_0, lend_hi, lend_lo, lend_nw, lend0_hi, lend0_lo, lend0_nw, lend1_hi, lend1_lo, lend1_nw, lend2_hi, lend2_lo, lend2_nw, pk_amo_lt, pk_amo_bit, pk_amo_ord, pk_cas_bit, pk_cas_ord, pk_cas_hi, pk_bit0, pk_bit_lt, pk_bit_le, pk_sl_lo, pk_sl_bit, pk_sl_lt, pk_seam_pred, pk_seam_sat, pk_seam_lt, pk_pred, pk_pred_ok, pk_qnt_md, pk_qnt_bit, pk_qnt_lt, ok_bind, Nat.div_eq_of_lt, Nat.mod_eq_of_lt, wf]

theorem RoundTrip.clz (o : SrOne) : RoundTrip.Statement (.clz o) := by
  intro wf; simp only [Instr.wf, Bool.and_eq_true] at wf
  have := o.a.code_lt
  have := o.d.isLt
  have := o.g.isLt
  have := ofFlag_lt o.nw
  have f31_28 := sr_class 0 18 o.d.val o.a.code 0 (ofFlag o.nw * 8 + o.g.val) (by omega) (by omega) (by omega) (by omega) (by omega) (by omega)
  have f27_22 := sr_minor 0 18 o.d.val o.a.code 0 (ofFlag o.nw * 8 + o.g.val) (by omega) (by omega) (by omega) (by omega) (by omega)
  have f21_16 := sr_d 0 18 o.d.val o.a.code 0 (ofFlag o.nw * 8 + o.g.val) (by omega) (by omega) (by omega) (by omega)
  have f15_10 := sr_a 0 18 o.d.val o.a.code 0 (ofFlag o.nw * 8 + o.g.val) (by omega) (by omega) (by omega)
  have f9_4 := sr_b 0 18 o.d.val o.a.code 0 (ofFlag o.nw * 8 + o.g.val) (by omega) (by omega)
  have f3 := sr_flag3 0 18 o.d.val o.a.code 0 (ofFlag o.nw * 8 + o.g.val) (by omega)
  have f2_0 := sr_low3 0 18 o.d.val o.a.code 0 (ofFlag o.nw * 8 + o.g.val)
  have h0 : packSr 0 18 o.d.val o.a.code 0 (ofFlag o.nw * 8 + o.g.val) ≠ 0 := by rw [ne_eq, sr_zero]; omega
  try simp only [pk8_hi, pk8_lo, pk16_hi, pk16_lo, pk8_flag, ofFlag_one, pk_loop_pre, pk_loop_stg, pk_loop_len, pk_spawn_nm, pk_spawn_core, pk_spawn_entry, pk_spawn_zero, pk_cvt_part, pk_cvt_ty, fin8_mod8, fin16_mod16] at f21_16 f15_10 f9_4 f3 f2_0
  refine encoded_as _ (packSr 0 18 o.d.val o.a.code 0 (ofFlag o.nw * 8 + o.g.val)) (0) rfl ?_
  generalize packSr 0 18 o.d.val o.a.code 0 (ofFlag o.nw * 8 + o.g.val) = w at *
  rw [decodeWord_class0 _ _ h0 f31_28]; unfold decScalar; rw [f27_22]
  simp (disch := omega) [decSrOne_of w o f21_16 f15_10 f9_4 f3 f2_0, ok_bind, Nat.div_eq_of_lt, Nat.mod_eq_of_lt, wf]

theorem RoundTrip.ctz (o : SrOne) : RoundTrip.Statement (.ctz o) := by
  intro wf; simp only [Instr.wf, Bool.and_eq_true] at wf
  have := o.a.code_lt
  have := o.d.isLt
  have := o.g.isLt
  have := ofFlag_lt o.nw
  have f31_28 := sr_class 0 19 o.d.val o.a.code 0 (ofFlag o.nw * 8 + o.g.val) (by omega) (by omega) (by omega) (by omega) (by omega) (by omega)
  have f27_22 := sr_minor 0 19 o.d.val o.a.code 0 (ofFlag o.nw * 8 + o.g.val) (by omega) (by omega) (by omega) (by omega) (by omega)
  have f21_16 := sr_d 0 19 o.d.val o.a.code 0 (ofFlag o.nw * 8 + o.g.val) (by omega) (by omega) (by omega) (by omega)
  have f15_10 := sr_a 0 19 o.d.val o.a.code 0 (ofFlag o.nw * 8 + o.g.val) (by omega) (by omega) (by omega)
  have f9_4 := sr_b 0 19 o.d.val o.a.code 0 (ofFlag o.nw * 8 + o.g.val) (by omega) (by omega)
  have f3 := sr_flag3 0 19 o.d.val o.a.code 0 (ofFlag o.nw * 8 + o.g.val) (by omega)
  have f2_0 := sr_low3 0 19 o.d.val o.a.code 0 (ofFlag o.nw * 8 + o.g.val)
  have h0 : packSr 0 19 o.d.val o.a.code 0 (ofFlag o.nw * 8 + o.g.val) ≠ 0 := by rw [ne_eq, sr_zero]; omega
  try simp only [pk8_hi, pk8_lo, pk16_hi, pk16_lo, pk8_flag, ofFlag_one, pk_loop_pre, pk_loop_stg, pk_loop_len, pk_spawn_nm, pk_spawn_core, pk_spawn_entry, pk_spawn_zero, pk_cvt_part, pk_cvt_ty, fin8_mod8, fin16_mod16] at f21_16 f15_10 f9_4 f3 f2_0
  refine encoded_as _ (packSr 0 19 o.d.val o.a.code 0 (ofFlag o.nw * 8 + o.g.val)) (0) rfl ?_
  generalize packSr 0 19 o.d.val o.a.code 0 (ofFlag o.nw * 8 + o.g.val) = w at *
  rw [decodeWord_class0 _ _ h0 f31_28]; unfold decScalar; rw [f27_22]
  simp (disch := omega) [decSrOne_of w o f21_16 f15_10 f9_4 f3 f2_0, ok_bind, Nat.div_eq_of_lt, Nat.mod_eq_of_lt, wf]

theorem RoundTrip.popc (o : SrOne) : RoundTrip.Statement (.popc o) := by
  intro wf; simp only [Instr.wf, Bool.and_eq_true] at wf
  have := o.a.code_lt
  have := o.d.isLt
  have := o.g.isLt
  have := ofFlag_lt o.nw
  have f31_28 := sr_class 0 20 o.d.val o.a.code 0 (ofFlag o.nw * 8 + o.g.val) (by omega) (by omega) (by omega) (by omega) (by omega) (by omega)
  have f27_22 := sr_minor 0 20 o.d.val o.a.code 0 (ofFlag o.nw * 8 + o.g.val) (by omega) (by omega) (by omega) (by omega) (by omega)
  have f21_16 := sr_d 0 20 o.d.val o.a.code 0 (ofFlag o.nw * 8 + o.g.val) (by omega) (by omega) (by omega) (by omega)
  have f15_10 := sr_a 0 20 o.d.val o.a.code 0 (ofFlag o.nw * 8 + o.g.val) (by omega) (by omega) (by omega)
  have f9_4 := sr_b 0 20 o.d.val o.a.code 0 (ofFlag o.nw * 8 + o.g.val) (by omega) (by omega)
  have f3 := sr_flag3 0 20 o.d.val o.a.code 0 (ofFlag o.nw * 8 + o.g.val) (by omega)
  have f2_0 := sr_low3 0 20 o.d.val o.a.code 0 (ofFlag o.nw * 8 + o.g.val)
  have h0 : packSr 0 20 o.d.val o.a.code 0 (ofFlag o.nw * 8 + o.g.val) ≠ 0 := by rw [ne_eq, sr_zero]; omega
  try simp only [pk8_hi, pk8_lo, pk16_hi, pk16_lo, pk8_flag, ofFlag_one, pk_loop_pre, pk_loop_stg, pk_loop_len, pk_spawn_nm, pk_spawn_core, pk_spawn_entry, pk_spawn_zero, pk_cvt_part, pk_cvt_ty, fin8_mod8, fin16_mod16] at f21_16 f15_10 f9_4 f3 f2_0
  refine encoded_as _ (packSr 0 20 o.d.val o.a.code 0 (ofFlag o.nw * 8 + o.g.val)) (0) rfl ?_
  generalize packSr 0 20 o.d.val o.a.code 0 (ofFlag o.nw * 8 + o.g.val) = w at *
  rw [decodeWord_class0 _ _ h0 f31_28]; unfold decScalar; rw [f27_22]
  simp (disch := omega) [decSrOne_of w o f21_16 f15_10 f9_4 f3 f2_0, ok_bind, Nat.div_eq_of_lt, Nat.mod_eq_of_lt, wf]

theorem RoundTrip.bfx (o : SrOp) : RoundTrip.Statement (.bfx o) := by
  intro wf; simp only [Instr.wf, Bool.and_eq_true] at wf
  have := o.a.code_lt
  have := o.b.code_lt
  have := o.d.isLt
  have := o.g.isLt
  have := ofFlag_lt o.nw
  have f31_28 := sr_class 0 21 o.d.val o.a.code o.b.code (ofFlag o.nw * 8 + o.g.val) (by omega) (by omega) (by omega) (by omega) (by omega) (by omega)
  have f27_22 := sr_minor 0 21 o.d.val o.a.code o.b.code (ofFlag o.nw * 8 + o.g.val) (by omega) (by omega) (by omega) (by omega) (by omega)
  have f21_16 := sr_d 0 21 o.d.val o.a.code o.b.code (ofFlag o.nw * 8 + o.g.val) (by omega) (by omega) (by omega) (by omega)
  have f15_10 := sr_a 0 21 o.d.val o.a.code o.b.code (ofFlag o.nw * 8 + o.g.val) (by omega) (by omega) (by omega)
  have f9_4 := sr_b 0 21 o.d.val o.a.code o.b.code (ofFlag o.nw * 8 + o.g.val) (by omega) (by omega)
  have f3 := sr_flag3 0 21 o.d.val o.a.code o.b.code (ofFlag o.nw * 8 + o.g.val) (by omega)
  have f2_0 := sr_low3 0 21 o.d.val o.a.code o.b.code (ofFlag o.nw * 8 + o.g.val)
  have h0 : packSr 0 21 o.d.val o.a.code o.b.code (ofFlag o.nw * 8 + o.g.val) ≠ 0 := by rw [ne_eq, sr_zero]; omega
  try simp only [pk8_hi, pk8_lo, pk16_hi, pk16_lo, pk8_flag, ofFlag_one, pk_loop_pre, pk_loop_stg, pk_loop_len, pk_spawn_nm, pk_spawn_core, pk_spawn_entry, pk_spawn_zero, pk_cvt_part, pk_cvt_ty, fin8_mod8, fin16_mod16] at f21_16 f15_10 f9_4 f3 f2_0
  refine encoded_as _ (packSr 0 21 o.d.val o.a.code o.b.code (ofFlag o.nw * 8 + o.g.val)) (0) rfl ?_
  generalize packSr 0 21 o.d.val o.a.code o.b.code (ofFlag o.nw * 8 + o.g.val) = w at *
  rw [decodeWord_class0 _ _ h0 f31_28]; unfold decScalar; rw [f27_22]
  simp (disch := omega) [decSr_of w o f21_16 f15_10 f9_4 f3 f2_0, ok_bind, Nat.div_eq_of_lt, Nat.mod_eq_of_lt, wf]

theorem RoundTrip.bfi (o : SrOp) (c : SSrc) : RoundTrip.Statement (.bfi o c) := by
  intro wf; simp only [Instr.wf, Bool.and_eq_true] at wf
  have := o.a.code_lt
  have := o.b.code_lt
  have := c.code_lt
  have := o.d.isLt
  have := o.g.isLt
  have := ofFlag_lt o.nw
  have f31_28 := sr_class 0 22 o.d.val o.a.code o.b.code (ofFlag o.nw * 8 + o.g.val) (by omega) (by omega) (by omega) (by omega) (by omega) (by omega)
  have f27_22 := sr_minor 0 22 o.d.val o.a.code o.b.code (ofFlag o.nw * 8 + o.g.val) (by omega) (by omega) (by omega) (by omega) (by omega)
  have f21_16 := sr_d 0 22 o.d.val o.a.code o.b.code (ofFlag o.nw * 8 + o.g.val) (by omega) (by omega) (by omega) (by omega)
  have f15_10 := sr_a 0 22 o.d.val o.a.code o.b.code (ofFlag o.nw * 8 + o.g.val) (by omega) (by omega) (by omega)
  have f9_4 := sr_b 0 22 o.d.val o.a.code o.b.code (ofFlag o.nw * 8 + o.g.val) (by omega) (by omega)
  have f3 := sr_flag3 0 22 o.d.val o.a.code o.b.code (ofFlag o.nw * 8 + o.g.val) (by omega)
  have f2_0 := sr_low3 0 22 o.d.val o.a.code o.b.code (ofFlag o.nw * 8 + o.g.val)
  have h0 : packSr 0 22 o.d.val o.a.code o.b.code (ofFlag o.nw * 8 + o.g.val) ≠ 0 := by rw [ne_eq, sr_zero]; omega
  try simp only [pk8_hi, pk8_lo, pk16_hi, pk16_lo, pk8_flag, ofFlag_one, pk_loop_pre, pk_loop_stg, pk_loop_len, pk_spawn_nm, pk_spawn_core, pk_spawn_entry, pk_spawn_zero, pk_cvt_part, pk_cvt_ty, fin8_mod8, fin16_mod16] at f21_16 f15_10 f9_4 f3 f2_0
  refine encoded_as _ (packSr 0 22 o.d.val o.a.code o.b.code (ofFlag o.nw * 8 + o.g.val)) (c.code) rfl ?_
  generalize packSr 0 22 o.d.val o.a.code o.b.code (ofFlag o.nw * 8 + o.g.val) = w at *
  rw [decodeWord_class0 _ _ h0 f31_28]; unfold decScalar; rw [f27_22]
  simp (disch := omega) [decSr_of w o f21_16 f15_10 f9_4 f3 f2_0, lend_hi, lend_lo, lend_nw, lend0_hi, lend0_lo, lend0_nw, lend1_hi, lend1_lo, lend1_nw, lend2_hi, lend2_lo, lend2_nw, pk_amo_lt, pk_amo_bit, pk_amo_ord, pk_cas_bit, pk_cas_ord, pk_cas_hi, pk_bit0, pk_bit_lt, pk_bit_le, pk_sl_lo, pk_sl_bit, pk_sl_lt, pk_seam_pred, pk_seam_sat, pk_seam_lt, pk_pred, pk_pred_ok, pk_qnt_md, pk_qnt_bit, pk_qnt_lt, ok_bind, Nat.div_eq_of_lt, Nat.mod_eq_of_lt, wf]

theorem RoundTrip.mov (o : SrOne) : RoundTrip.Statement (.mov o) := by
  intro wf; simp only [Instr.wf, Bool.and_eq_true] at wf
  have := o.a.code_lt
  have := o.d.isLt
  have := o.g.isLt
  have := ofFlag_lt o.nw
  have f31_28 := sr_class 0 23 o.d.val o.a.code 0 (ofFlag o.nw * 8 + o.g.val) (by omega) (by omega) (by omega) (by omega) (by omega) (by omega)
  have f27_22 := sr_minor 0 23 o.d.val o.a.code 0 (ofFlag o.nw * 8 + o.g.val) (by omega) (by omega) (by omega) (by omega) (by omega)
  have f21_16 := sr_d 0 23 o.d.val o.a.code 0 (ofFlag o.nw * 8 + o.g.val) (by omega) (by omega) (by omega) (by omega)
  have f15_10 := sr_a 0 23 o.d.val o.a.code 0 (ofFlag o.nw * 8 + o.g.val) (by omega) (by omega) (by omega)
  have f9_4 := sr_b 0 23 o.d.val o.a.code 0 (ofFlag o.nw * 8 + o.g.val) (by omega) (by omega)
  have f3 := sr_flag3 0 23 o.d.val o.a.code 0 (ofFlag o.nw * 8 + o.g.val) (by omega)
  have f2_0 := sr_low3 0 23 o.d.val o.a.code 0 (ofFlag o.nw * 8 + o.g.val)
  have h0 : packSr 0 23 o.d.val o.a.code 0 (ofFlag o.nw * 8 + o.g.val) ≠ 0 := by rw [ne_eq, sr_zero]; omega
  try simp only [pk8_hi, pk8_lo, pk16_hi, pk16_lo, pk8_flag, ofFlag_one, pk_loop_pre, pk_loop_stg, pk_loop_len, pk_spawn_nm, pk_spawn_core, pk_spawn_entry, pk_spawn_zero, pk_cvt_part, pk_cvt_ty, fin8_mod8, fin16_mod16] at f21_16 f15_10 f9_4 f3 f2_0
  refine encoded_as _ (packSr 0 23 o.d.val o.a.code 0 (ofFlag o.nw * 8 + o.g.val)) (0) rfl ?_
  generalize packSr 0 23 o.d.val o.a.code 0 (ofFlag o.nw * 8 + o.g.val) = w at *
  rw [decodeWord_class0 _ _ h0 f31_28]; unfold decScalar; rw [f27_22]
  simp (disch := omega) [decSrOne_of w o f21_16 f15_10 f9_4 f3 f2_0, ok_bind, Nat.div_eq_of_lt, Nat.mod_eq_of_lt, wf]

theorem RoundTrip.divI (o : SrOp) : RoundTrip.Statement (.divI o) := by
  intro wf; simp only [Instr.wf, Bool.and_eq_true] at wf
  have := o.a.code_lt
  have := o.b.code_lt
  have := o.d.isLt
  have := o.g.isLt
  have := ofFlag_lt o.nw
  have f31_28 := sr_class 0 24 o.d.val o.a.code o.b.code (ofFlag o.nw * 8 + o.g.val) (by omega) (by omega) (by omega) (by omega) (by omega) (by omega)
  have f27_22 := sr_minor 0 24 o.d.val o.a.code o.b.code (ofFlag o.nw * 8 + o.g.val) (by omega) (by omega) (by omega) (by omega) (by omega)
  have f21_16 := sr_d 0 24 o.d.val o.a.code o.b.code (ofFlag o.nw * 8 + o.g.val) (by omega) (by omega) (by omega) (by omega)
  have f15_10 := sr_a 0 24 o.d.val o.a.code o.b.code (ofFlag o.nw * 8 + o.g.val) (by omega) (by omega) (by omega)
  have f9_4 := sr_b 0 24 o.d.val o.a.code o.b.code (ofFlag o.nw * 8 + o.g.val) (by omega) (by omega)
  have f3 := sr_flag3 0 24 o.d.val o.a.code o.b.code (ofFlag o.nw * 8 + o.g.val) (by omega)
  have f2_0 := sr_low3 0 24 o.d.val o.a.code o.b.code (ofFlag o.nw * 8 + o.g.val)
  have h0 : packSr 0 24 o.d.val o.a.code o.b.code (ofFlag o.nw * 8 + o.g.val) ≠ 0 := by rw [ne_eq, sr_zero]; omega
  try simp only [pk8_hi, pk8_lo, pk16_hi, pk16_lo, pk8_flag, ofFlag_one, pk_loop_pre, pk_loop_stg, pk_loop_len, pk_spawn_nm, pk_spawn_core, pk_spawn_entry, pk_spawn_zero, pk_cvt_part, pk_cvt_ty, fin8_mod8, fin16_mod16] at f21_16 f15_10 f9_4 f3 f2_0
  refine encoded_as _ (packSr 0 24 o.d.val o.a.code o.b.code (ofFlag o.nw * 8 + o.g.val)) (0) rfl ?_
  generalize packSr 0 24 o.d.val o.a.code o.b.code (ofFlag o.nw * 8 + o.g.val) = w at *
  rw [decodeWord_class0 _ _ h0 f31_28]; unfold decScalar; rw [f27_22]
  simp (disch := omega) [decSr_of w o f21_16 f15_10 f9_4 f3 f2_0, ok_bind, Nat.div_eq_of_lt, Nat.mod_eq_of_lt, wf]

theorem RoundTrip.divN (o : SrOp) : RoundTrip.Statement (.divN o) := by
  intro wf; simp only [Instr.wf, Bool.and_eq_true] at wf
  have := o.a.code_lt
  have := o.b.code_lt
  have := o.d.isLt
  have := o.g.isLt
  have := ofFlag_lt o.nw
  have f31_28 := sr_class 0 25 o.d.val o.a.code o.b.code (ofFlag o.nw * 8 + o.g.val) (by omega) (by omega) (by omega) (by omega) (by omega) (by omega)
  have f27_22 := sr_minor 0 25 o.d.val o.a.code o.b.code (ofFlag o.nw * 8 + o.g.val) (by omega) (by omega) (by omega) (by omega) (by omega)
  have f21_16 := sr_d 0 25 o.d.val o.a.code o.b.code (ofFlag o.nw * 8 + o.g.val) (by omega) (by omega) (by omega) (by omega)
  have f15_10 := sr_a 0 25 o.d.val o.a.code o.b.code (ofFlag o.nw * 8 + o.g.val) (by omega) (by omega) (by omega)
  have f9_4 := sr_b 0 25 o.d.val o.a.code o.b.code (ofFlag o.nw * 8 + o.g.val) (by omega) (by omega)
  have f3 := sr_flag3 0 25 o.d.val o.a.code o.b.code (ofFlag o.nw * 8 + o.g.val) (by omega)
  have f2_0 := sr_low3 0 25 o.d.val o.a.code o.b.code (ofFlag o.nw * 8 + o.g.val)
  have h0 : packSr 0 25 o.d.val o.a.code o.b.code (ofFlag o.nw * 8 + o.g.val) ≠ 0 := by rw [ne_eq, sr_zero]; omega
  try simp only [pk8_hi, pk8_lo, pk16_hi, pk16_lo, pk8_flag, ofFlag_one, pk_loop_pre, pk_loop_stg, pk_loop_len, pk_spawn_nm, pk_spawn_core, pk_spawn_entry, pk_spawn_zero, pk_cvt_part, pk_cvt_ty, fin8_mod8, fin16_mod16] at f21_16 f15_10 f9_4 f3 f2_0
  refine encoded_as _ (packSr 0 25 o.d.val o.a.code o.b.code (ofFlag o.nw * 8 + o.g.val)) (0) rfl ?_
  generalize packSr 0 25 o.d.val o.a.code o.b.code (ofFlag o.nw * 8 + o.g.val) = w at *
  rw [decodeWord_class0 _ _ h0 f31_28]; unfold decScalar; rw [f27_22]
  simp (disch := omega) [decSr_of w o f21_16 f15_10 f9_4 f3 f2_0, ok_bind, Nat.div_eq_of_lt, Nat.mod_eq_of_lt, wf]

theorem RoundTrip.remI (o : SrOp) : RoundTrip.Statement (.remI o) := by
  intro wf; simp only [Instr.wf, Bool.and_eq_true] at wf
  have := o.a.code_lt
  have := o.b.code_lt
  have := o.d.isLt
  have := o.g.isLt
  have := ofFlag_lt o.nw
  have f31_28 := sr_class 0 26 o.d.val o.a.code o.b.code (ofFlag o.nw * 8 + o.g.val) (by omega) (by omega) (by omega) (by omega) (by omega) (by omega)
  have f27_22 := sr_minor 0 26 o.d.val o.a.code o.b.code (ofFlag o.nw * 8 + o.g.val) (by omega) (by omega) (by omega) (by omega) (by omega)
  have f21_16 := sr_d 0 26 o.d.val o.a.code o.b.code (ofFlag o.nw * 8 + o.g.val) (by omega) (by omega) (by omega) (by omega)
  have f15_10 := sr_a 0 26 o.d.val o.a.code o.b.code (ofFlag o.nw * 8 + o.g.val) (by omega) (by omega) (by omega)
  have f9_4 := sr_b 0 26 o.d.val o.a.code o.b.code (ofFlag o.nw * 8 + o.g.val) (by omega) (by omega)
  have f3 := sr_flag3 0 26 o.d.val o.a.code o.b.code (ofFlag o.nw * 8 + o.g.val) (by omega)
  have f2_0 := sr_low3 0 26 o.d.val o.a.code o.b.code (ofFlag o.nw * 8 + o.g.val)
  have h0 : packSr 0 26 o.d.val o.a.code o.b.code (ofFlag o.nw * 8 + o.g.val) ≠ 0 := by rw [ne_eq, sr_zero]; omega
  try simp only [pk8_hi, pk8_lo, pk16_hi, pk16_lo, pk8_flag, ofFlag_one, pk_loop_pre, pk_loop_stg, pk_loop_len, pk_spawn_nm, pk_spawn_core, pk_spawn_entry, pk_spawn_zero, pk_cvt_part, pk_cvt_ty, fin8_mod8, fin16_mod16] at f21_16 f15_10 f9_4 f3 f2_0
  refine encoded_as _ (packSr 0 26 o.d.val o.a.code o.b.code (ofFlag o.nw * 8 + o.g.val)) (0) rfl ?_
  generalize packSr 0 26 o.d.val o.a.code o.b.code (ofFlag o.nw * 8 + o.g.val) = w at *
  rw [decodeWord_class0 _ _ h0 f31_28]; unfold decScalar; rw [f27_22]
  simp (disch := omega) [decSr_of w o f21_16 f15_10 f9_4 f3 f2_0, ok_bind, Nat.div_eq_of_lt, Nat.mod_eq_of_lt, wf]

theorem RoundTrip.remN (o : SrOp) : RoundTrip.Statement (.remN o) := by
  intro wf; simp only [Instr.wf, Bool.and_eq_true] at wf
  have := o.a.code_lt
  have := o.b.code_lt
  have := o.d.isLt
  have := o.g.isLt
  have := ofFlag_lt o.nw
  have f31_28 := sr_class 0 27 o.d.val o.a.code o.b.code (ofFlag o.nw * 8 + o.g.val) (by omega) (by omega) (by omega) (by omega) (by omega) (by omega)
  have f27_22 := sr_minor 0 27 o.d.val o.a.code o.b.code (ofFlag o.nw * 8 + o.g.val) (by omega) (by omega) (by omega) (by omega) (by omega)
  have f21_16 := sr_d 0 27 o.d.val o.a.code o.b.code (ofFlag o.nw * 8 + o.g.val) (by omega) (by omega) (by omega) (by omega)
  have f15_10 := sr_a 0 27 o.d.val o.a.code o.b.code (ofFlag o.nw * 8 + o.g.val) (by omega) (by omega) (by omega)
  have f9_4 := sr_b 0 27 o.d.val o.a.code o.b.code (ofFlag o.nw * 8 + o.g.val) (by omega) (by omega)
  have f3 := sr_flag3 0 27 o.d.val o.a.code o.b.code (ofFlag o.nw * 8 + o.g.val) (by omega)
  have f2_0 := sr_low3 0 27 o.d.val o.a.code o.b.code (ofFlag o.nw * 8 + o.g.val)
  have h0 : packSr 0 27 o.d.val o.a.code o.b.code (ofFlag o.nw * 8 + o.g.val) ≠ 0 := by rw [ne_eq, sr_zero]; omega
  try simp only [pk8_hi, pk8_lo, pk16_hi, pk16_lo, pk8_flag, ofFlag_one, pk_loop_pre, pk_loop_stg, pk_loop_len, pk_spawn_nm, pk_spawn_core, pk_spawn_entry, pk_spawn_zero, pk_cvt_part, pk_cvt_ty, fin8_mod8, fin16_mod16] at f21_16 f15_10 f9_4 f3 f2_0
  refine encoded_as _ (packSr 0 27 o.d.val o.a.code o.b.code (ofFlag o.nw * 8 + o.g.val)) (0) rfl ?_
  generalize packSr 0 27 o.d.val o.a.code o.b.code (ofFlag o.nw * 8 + o.g.val) = w at *
  rw [decodeWord_class0 _ _ h0 f31_28]; unfold decScalar; rw [f27_22]
  simp (disch := omega) [decSr_of w o f21_16 f15_10 f9_4 f3 f2_0, ok_bind, Nat.div_eq_of_lt, Nat.mod_eq_of_lt, wf]

theorem RoundTrip.addi (o : SiOp) : RoundTrip.Statement (.addi o) := by
  intro wf; simp only [Instr.wf, Bool.and_eq_true] at wf
  have := o.a.code_lt
  have := o.d.isLt
  have := o.imm.isLt
  have f31_28 := si_31_28 1 0 o.d.val o.a.code (o.imm.toNat % 1024) (by omega) (by omega) (by omega) (by omega) (by omega)
  have f27_22 := si_27_22 1 0 o.d.val o.a.code (o.imm.toNat % 1024) (by omega) (by omega) (by omega) (by omega)
  have f21_16 := si_21_16 1 0 o.d.val o.a.code (o.imm.toNat % 1024) (by omega) (by omega) (by omega)
  have f15_10 := si_15_10 1 0 o.d.val o.a.code (o.imm.toNat % 1024) (by omega) (by omega)
  have f9_0 := si_9_0 1 0 o.d.val o.a.code (o.imm.toNat % 1024) (by omega)
  have h0 : packSi 1 0 o.d.val o.a.code (o.imm.toNat % 1024) ≠ 0 := by rw [ne_eq, si_zero]; omega
  try simp only [pk8_hi, pk8_lo, pk16_hi, pk16_lo, pk8_flag, ofFlag_one, pk_loop_pre, pk_loop_stg, pk_loop_len, pk_spawn_nm, pk_spawn_core, pk_spawn_entry, pk_spawn_zero, pk_cvt_part, pk_cvt_ty, fin8_mod8, fin16_mod16] at f21_16 f15_10 f9_0
  refine encoded_as _ (packSi 1 0 o.d.val o.a.code (o.imm.toNat % 1024)) (o.imm.toNat / 1024) rfl ?_
  generalize packSi 1 0 o.d.val o.a.code (o.imm.toNat % 1024) = w at *
  rw [decodeWord_class1 _ _ h0 f31_28]; unfold decImmediate; rw [f27_22]
  simp (disch := omega) [decSi_of w o f21_16 f15_10 f9_0, ok_bind, Nat.div_eq_of_lt, Nat.mod_eq_of_lt, wf]

theorem RoundTrip.andi (o : SiOp) : RoundTrip.Statement (.andi o) := by
  intro wf; simp only [Instr.wf, Bool.and_eq_true] at wf
  have := o.a.code_lt
  have := o.d.isLt
  have := o.imm.isLt
  have f31_28 := si_31_28 1 1 o.d.val o.a.code (o.imm.toNat % 1024) (by omega) (by omega) (by omega) (by omega) (by omega)
  have f27_22 := si_27_22 1 1 o.d.val o.a.code (o.imm.toNat % 1024) (by omega) (by omega) (by omega) (by omega)
  have f21_16 := si_21_16 1 1 o.d.val o.a.code (o.imm.toNat % 1024) (by omega) (by omega) (by omega)
  have f15_10 := si_15_10 1 1 o.d.val o.a.code (o.imm.toNat % 1024) (by omega) (by omega)
  have f9_0 := si_9_0 1 1 o.d.val o.a.code (o.imm.toNat % 1024) (by omega)
  have h0 : packSi 1 1 o.d.val o.a.code (o.imm.toNat % 1024) ≠ 0 := by rw [ne_eq, si_zero]; omega
  try simp only [pk8_hi, pk8_lo, pk16_hi, pk16_lo, pk8_flag, ofFlag_one, pk_loop_pre, pk_loop_stg, pk_loop_len, pk_spawn_nm, pk_spawn_core, pk_spawn_entry, pk_spawn_zero, pk_cvt_part, pk_cvt_ty, fin8_mod8, fin16_mod16] at f21_16 f15_10 f9_0
  refine encoded_as _ (packSi 1 1 o.d.val o.a.code (o.imm.toNat % 1024)) (o.imm.toNat / 1024) rfl ?_
  generalize packSi 1 1 o.d.val o.a.code (o.imm.toNat % 1024) = w at *
  rw [decodeWord_class1 _ _ h0 f31_28]; unfold decImmediate; rw [f27_22]
  simp (disch := omega) [decSi_of w o f21_16 f15_10 f9_0, ok_bind, Nat.div_eq_of_lt, Nat.mod_eq_of_lt, wf]

theorem RoundTrip.ori (o : SiOp) : RoundTrip.Statement (.ori o) := by
  intro wf; simp only [Instr.wf, Bool.and_eq_true] at wf
  have := o.a.code_lt
  have := o.d.isLt
  have := o.imm.isLt
  have f31_28 := si_31_28 1 2 o.d.val o.a.code (o.imm.toNat % 1024) (by omega) (by omega) (by omega) (by omega) (by omega)
  have f27_22 := si_27_22 1 2 o.d.val o.a.code (o.imm.toNat % 1024) (by omega) (by omega) (by omega) (by omega)
  have f21_16 := si_21_16 1 2 o.d.val o.a.code (o.imm.toNat % 1024) (by omega) (by omega) (by omega)
  have f15_10 := si_15_10 1 2 o.d.val o.a.code (o.imm.toNat % 1024) (by omega) (by omega)
  have f9_0 := si_9_0 1 2 o.d.val o.a.code (o.imm.toNat % 1024) (by omega)
  have h0 : packSi 1 2 o.d.val o.a.code (o.imm.toNat % 1024) ≠ 0 := by rw [ne_eq, si_zero]; omega
  try simp only [pk8_hi, pk8_lo, pk16_hi, pk16_lo, pk8_flag, ofFlag_one, pk_loop_pre, pk_loop_stg, pk_loop_len, pk_spawn_nm, pk_spawn_core, pk_spawn_entry, pk_spawn_zero, pk_cvt_part, pk_cvt_ty, fin8_mod8, fin16_mod16] at f21_16 f15_10 f9_0
  refine encoded_as _ (packSi 1 2 o.d.val o.a.code (o.imm.toNat % 1024)) (o.imm.toNat / 1024) rfl ?_
  generalize packSi 1 2 o.d.val o.a.code (o.imm.toNat % 1024) = w at *
  rw [decodeWord_class1 _ _ h0 f31_28]; unfold decImmediate; rw [f27_22]
  simp (disch := omega) [decSi_of w o f21_16 f15_10 f9_0, ok_bind, Nat.div_eq_of_lt, Nat.mod_eq_of_lt, wf]

theorem RoundTrip.xori (o : SiOp) : RoundTrip.Statement (.xori o) := by
  intro wf; simp only [Instr.wf, Bool.and_eq_true] at wf
  have := o.a.code_lt
  have := o.d.isLt
  have := o.imm.isLt
  have f31_28 := si_31_28 1 3 o.d.val o.a.code (o.imm.toNat % 1024) (by omega) (by omega) (by omega) (by omega) (by omega)
  have f27_22 := si_27_22 1 3 o.d.val o.a.code (o.imm.toNat % 1024) (by omega) (by omega) (by omega) (by omega)
  have f21_16 := si_21_16 1 3 o.d.val o.a.code (o.imm.toNat % 1024) (by omega) (by omega) (by omega)
  have f15_10 := si_15_10 1 3 o.d.val o.a.code (o.imm.toNat % 1024) (by omega) (by omega)
  have f9_0 := si_9_0 1 3 o.d.val o.a.code (o.imm.toNat % 1024) (by omega)
  have h0 : packSi 1 3 o.d.val o.a.code (o.imm.toNat % 1024) ≠ 0 := by rw [ne_eq, si_zero]; omega
  try simp only [pk8_hi, pk8_lo, pk16_hi, pk16_lo, pk8_flag, ofFlag_one, pk_loop_pre, pk_loop_stg, pk_loop_len, pk_spawn_nm, pk_spawn_core, pk_spawn_entry, pk_spawn_zero, pk_cvt_part, pk_cvt_ty, fin8_mod8, fin16_mod16] at f21_16 f15_10 f9_0
  refine encoded_as _ (packSi 1 3 o.d.val o.a.code (o.imm.toNat % 1024)) (o.imm.toNat / 1024) rfl ?_
  generalize packSi 1 3 o.d.val o.a.code (o.imm.toNat % 1024) = w at *
  rw [decodeWord_class1 _ _ h0 f31_28]; unfold decImmediate; rw [f27_22]
  simp (disch := omega) [decSi_of w o f21_16 f15_10 f9_0, ok_bind, Nat.div_eq_of_lt, Nat.mod_eq_of_lt, wf]

theorem RoundTrip.shli (d : Fin 32) (a : SSrc) (n : Fin 64) : RoundTrip.Statement (.shli d a n) := by
  intro wf; simp only [Instr.wf, Bool.and_eq_true] at wf
  have := a.code_lt
  have := d.isLt
  have := n.isLt
  have f31_28 := si_31_28 1 4 d.val a.code n.val (by omega) (by omega) (by omega) (by omega) (by omega)
  have f27_22 := si_27_22 1 4 d.val a.code n.val (by omega) (by omega) (by omega) (by omega)
  have f21_16 := si_21_16 1 4 d.val a.code n.val (by omega) (by omega) (by omega)
  have f15_10 := si_15_10 1 4 d.val a.code n.val (by omega) (by omega)
  have f9_0 := si_9_0 1 4 d.val a.code n.val (by omega)
  have h0 : packSi 1 4 d.val a.code n.val ≠ 0 := by rw [ne_eq, si_zero]; omega
  try simp only [pk8_hi, pk8_lo, pk16_hi, pk16_lo, pk8_flag, ofFlag_one, pk_loop_pre, pk_loop_stg, pk_loop_len, pk_spawn_nm, pk_spawn_core, pk_spawn_entry, pk_spawn_zero, pk_cvt_part, pk_cvt_ty, fin8_mod8, fin16_mod16] at f21_16 f15_10 f9_0
  refine encoded_as _ (packSi 1 4 d.val a.code n.val) (0) rfl ?_
  generalize packSi 1 4 d.val a.code n.val = w at *
  rw [decodeWord_class1 _ _ h0 f31_28]; unfold decImmediate; rw [f27_22]
  simp (disch := omega) [f21_16, f15_10, f9_0, ok_bind, Nat.div_eq_of_lt, Nat.mod_eq_of_lt, wf]

theorem RoundTrip.shri (d : Fin 32) (a : SSrc) (n : Fin 64) : RoundTrip.Statement (.shri d a n) := by
  intro wf; simp only [Instr.wf, Bool.and_eq_true] at wf
  have := a.code_lt
  have := d.isLt
  have := n.isLt
  have f31_28 := si_31_28 1 5 d.val a.code n.val (by omega) (by omega) (by omega) (by omega) (by omega)
  have f27_22 := si_27_22 1 5 d.val a.code n.val (by omega) (by omega) (by omega) (by omega)
  have f21_16 := si_21_16 1 5 d.val a.code n.val (by omega) (by omega) (by omega)
  have f15_10 := si_15_10 1 5 d.val a.code n.val (by omega) (by omega)
  have f9_0 := si_9_0 1 5 d.val a.code n.val (by omega)
  have h0 : packSi 1 5 d.val a.code n.val ≠ 0 := by rw [ne_eq, si_zero]; omega
  try simp only [pk8_hi, pk8_lo, pk16_hi, pk16_lo, pk8_flag, ofFlag_one, pk_loop_pre, pk_loop_stg, pk_loop_len, pk_spawn_nm, pk_spawn_core, pk_spawn_entry, pk_spawn_zero, pk_cvt_part, pk_cvt_ty, fin8_mod8, fin16_mod16] at f21_16 f15_10 f9_0
  refine encoded_as _ (packSi 1 5 d.val a.code n.val) (0) rfl ?_
  generalize packSi 1 5 d.val a.code n.val = w at *
  rw [decodeWord_class1 _ _ h0 f31_28]; unfold decImmediate; rw [f27_22]
  simp (disch := omega) [f21_16, f15_10, f9_0, ok_bind, Nat.div_eq_of_lt, Nat.mod_eq_of_lt, wf]

theorem RoundTrip.srai (d : Fin 32) (a : SSrc) (n : Fin 64) : RoundTrip.Statement (.srai d a n) := by
  intro wf; simp only [Instr.wf, Bool.and_eq_true] at wf
  have := a.code_lt
  have := d.isLt
  have := n.isLt
  have f31_28 := si_31_28 1 6 d.val a.code n.val (by omega) (by omega) (by omega) (by omega) (by omega)
  have f27_22 := si_27_22 1 6 d.val a.code n.val (by omega) (by omega) (by omega) (by omega)
  have f21_16 := si_21_16 1 6 d.val a.code n.val (by omega) (by omega) (by omega)
  have f15_10 := si_15_10 1 6 d.val a.code n.val (by omega) (by omega)
  have f9_0 := si_9_0 1 6 d.val a.code n.val (by omega)
  have h0 : packSi 1 6 d.val a.code n.val ≠ 0 := by rw [ne_eq, si_zero]; omega
  try simp only [pk8_hi, pk8_lo, pk16_hi, pk16_lo, pk8_flag, ofFlag_one, pk_loop_pre, pk_loop_stg, pk_loop_len, pk_spawn_nm, pk_spawn_core, pk_spawn_entry, pk_spawn_zero, pk_cvt_part, pk_cvt_ty, fin8_mod8, fin16_mod16] at f21_16 f15_10 f9_0
  refine encoded_as _ (packSi 1 6 d.val a.code n.val) (0) rfl ?_
  generalize packSi 1 6 d.val a.code n.val = w at *
  rw [decodeWord_class1 _ _ h0 f31_28]; unfold decImmediate; rw [f27_22]
  simp (disch := omega) [f21_16, f15_10, f9_0, ok_bind, Nat.div_eq_of_lt, Nat.mod_eq_of_lt, wf]

theorem RoundTrip.cmpi (c : SCond) (p : Fin 8) (a : SSrc) (k : BitVec 18) : RoundTrip.Statement (.cmpi c p a k) := by
  intro wf; simp only [Instr.wf, Bool.and_eq_true] at wf
  have := c.code_lt
  have := a.code_lt
  have := p.isLt
  have := k.isLt
  have f31_28 := si_31_28 1 7 (c.code * 8 + p.val) a.code (k.toNat % 1024) (by omega) (by omega) (by omega) (by omega) (by omega)
  have f27_22 := si_27_22 1 7 (c.code * 8 + p.val) a.code (k.toNat % 1024) (by omega) (by omega) (by omega) (by omega)
  have f21_19 := si_21_19 1 7 (c.code * 8 + p.val) a.code (k.toNat % 1024) (by omega) (by omega) (by omega)
  have f18_16 := si_18_16 1 7 (c.code * 8 + p.val) a.code (k.toNat % 1024) (by omega) (by omega)
  have f15_10 := si_15_10 1 7 (c.code * 8 + p.val) a.code (k.toNat % 1024) (by omega) (by omega)
  have f9_0 := si_9_0 1 7 (c.code * 8 + p.val) a.code (k.toNat % 1024) (by omega)
  have h0 : packSi 1 7 (c.code * 8 + p.val) a.code (k.toNat % 1024) ≠ 0 := by rw [ne_eq, si_zero]; omega
  try simp only [pk8_hi, pk8_lo, pk16_hi, pk16_lo, pk8_flag, ofFlag_one, pk_loop_pre, pk_loop_stg, pk_loop_len, pk_spawn_nm, pk_spawn_core, pk_spawn_entry, pk_spawn_zero, pk_cvt_part, pk_cvt_ty, fin8_mod8, fin16_mod16] at f21_19 f18_16 f15_10 f9_0
  refine encoded_as _ (packSi 1 7 (c.code * 8 + p.val) a.code (k.toNat % 1024)) (k.toNat / 1024) rfl ?_
  generalize packSi 1 7 (c.code * 8 + p.val) a.code (k.toNat % 1024) = w at *
  rw [decodeWord_class1 _ _ h0 f31_28]; unfold decImmediate; rw [f27_22]
  simp (disch := omega) [imm18_of w _ f9_0, f21_19, f18_16, f15_10, ok_bind, Nat.div_eq_of_lt, Nat.mod_eq_of_lt, wf]

theorem RoundTrip.movi (d : Fin 32) (k : BitVec 18) : RoundTrip.Statement (.movi d k) := by
  intro wf; simp only [Instr.wf, Bool.and_eq_true] at wf
  have := d.isLt
  have := k.isLt
  have f31_28 := si_31_28 1 8 d.val 0 (k.toNat % 1024) (by omega) (by omega) (by omega) (by omega) (by omega)
  have f27_22 := si_27_22 1 8 d.val 0 (k.toNat % 1024) (by omega) (by omega) (by omega) (by omega)
  have f15_10 := si_15_10 1 8 d.val 0 (k.toNat % 1024) (by omega) (by omega)
  have f21_16 := si_21_16 1 8 d.val 0 (k.toNat % 1024) (by omega) (by omega) (by omega)
  have f9_0 := si_9_0 1 8 d.val 0 (k.toNat % 1024) (by omega)
  have h0 : packSi 1 8 d.val 0 (k.toNat % 1024) ≠ 0 := by rw [ne_eq, si_zero]; omega
  try simp only [pk8_hi, pk8_lo, pk16_hi, pk16_lo, pk8_flag, ofFlag_one, pk_loop_pre, pk_loop_stg, pk_loop_len, pk_spawn_nm, pk_spawn_core, pk_spawn_entry, pk_spawn_zero, pk_cvt_part, pk_cvt_ty, fin8_mod8, fin16_mod16] at f15_10 f21_16 f9_0
  refine encoded_as _ (packSi 1 8 d.val 0 (k.toNat % 1024)) (k.toNat / 1024) rfl ?_
  generalize packSi 1 8 d.val 0 (k.toNat % 1024) = w at *
  rw [decodeWord_class1 _ _ h0 f31_28]; unfold decImmediate; rw [f27_22]
  simp (disch := omega) [imm18_of w _ f9_0, f15_10, f21_16, ok_bind, Nat.div_eq_of_lt, Nat.mod_eq_of_lt, wf]

theorem RoundTrip.movhi (o : SiOp) : RoundTrip.Statement (.movhi o) := by
  intro wf; simp only [Instr.wf, Bool.and_eq_true] at wf
  have := o.a.code_lt
  have := o.d.isLt
  have := o.imm.isLt
  have f31_28 := si_31_28 1 9 o.d.val o.a.code (o.imm.toNat % 1024) (by omega) (by omega) (by omega) (by omega) (by omega)
  have f27_22 := si_27_22 1 9 o.d.val o.a.code (o.imm.toNat % 1024) (by omega) (by omega) (by omega) (by omega)
  have f21_16 := si_21_16 1 9 o.d.val o.a.code (o.imm.toNat % 1024) (by omega) (by omega) (by omega)
  have f15_10 := si_15_10 1 9 o.d.val o.a.code (o.imm.toNat % 1024) (by omega) (by omega)
  have f9_0 := si_9_0 1 9 o.d.val o.a.code (o.imm.toNat % 1024) (by omega)
  have h0 : packSi 1 9 o.d.val o.a.code (o.imm.toNat % 1024) ≠ 0 := by rw [ne_eq, si_zero]; omega
  try simp only [pk8_hi, pk8_lo, pk16_hi, pk16_lo, pk8_flag, ofFlag_one, pk_loop_pre, pk_loop_stg, pk_loop_len, pk_spawn_nm, pk_spawn_core, pk_spawn_entry, pk_spawn_zero, pk_cvt_part, pk_cvt_ty, fin8_mod8, fin16_mod16] at f21_16 f15_10 f9_0
  refine encoded_as _ (packSi 1 9 o.d.val o.a.code (o.imm.toNat % 1024)) (o.imm.toNat / 1024) rfl ?_
  generalize packSi 1 9 o.d.val o.a.code (o.imm.toNat % 1024) = w at *
  rw [decodeWord_class1 _ _ h0 f31_28]; unfold decImmediate; rw [f27_22]
  simp (disch := omega) [decSi_of w o f21_16 f15_10 f9_0, ok_bind, Nat.div_eq_of_lt, Nat.mod_eq_of_lt, wf]

theorem RoundTrip.vaddr (d : Fin 32) (a : SSrc) (n : Fin 64) : RoundTrip.Statement (.vaddr d a n) := by
  intro wf; simp only [Instr.wf, Bool.and_eq_true] at wf
  have := a.code_lt
  have := d.isLt
  have := n.isLt
  have f31_28 := si_31_28 1 10 d.val a.code n.val (by omega) (by omega) (by omega) (by omega) (by omega)
  have f27_22 := si_27_22 1 10 d.val a.code n.val (by omega) (by omega) (by omega) (by omega)
  have f21_16 := si_21_16 1 10 d.val a.code n.val (by omega) (by omega) (by omega)
  have f15_10 := si_15_10 1 10 d.val a.code n.val (by omega) (by omega)
  have f9_0 := si_9_0 1 10 d.val a.code n.val (by omega)
  have h0 : packSi 1 10 d.val a.code n.val ≠ 0 := by rw [ne_eq, si_zero]; omega
  try simp only [pk8_hi, pk8_lo, pk16_hi, pk16_lo, pk8_flag, ofFlag_one, pk_loop_pre, pk_loop_stg, pk_loop_len, pk_spawn_nm, pk_spawn_core, pk_spawn_entry, pk_spawn_zero, pk_cvt_part, pk_cvt_ty, fin8_mod8, fin16_mod16] at f21_16 f15_10 f9_0
  refine encoded_as _ (packSi 1 10 d.val a.code n.val) (0) rfl ?_
  generalize packSi 1 10 d.val a.code n.val = w at *
  rw [decodeWord_class1 _ _ h0 f31_28]; unfold decImmediate; rw [f27_22]
  simp (disch := omega) [f21_16, f15_10, f9_0, ok_bind, Nat.div_eq_of_lt, Nat.mod_eq_of_lt, wf]

theorem RoundTrip.nop : RoundTrip.Statement (.nop) := by
  intro wf; simp only [Instr.wf, Bool.and_eq_true] at wf
  have f31_28 := ct_31_28 0 0 0 (by omega) (by omega) (by omega)
  have f27_22 := ct_27_22 0 0 0 (by omega) (by omega) (by omega)
  have f21_0 := ct_21_0 0 0 0 (by omega) (by omega)
  have h0 : packCt 0 0 0 ≠ 0 := ct_ne _ _ _
  try simp only [pk8_hi, pk8_lo, pk16_hi, pk16_lo, pk8_flag, ofFlag_one, pk_loop_pre, pk_loop_stg, pk_loop_len, pk_spawn_nm, pk_spawn_core, pk_spawn_entry, pk_spawn_zero, pk_cvt_part, pk_cvt_ty, fin8_mod8, fin16_mod16] at f21_0
  refine encoded_as _ (packCt 0 0 0) (0) rfl ?_
  generalize packCt 0 0 0 = w at *
  rw [decodeWord_class2 _ _ h0 f31_28]; unfold decControl; rw [f27_22]
  simp (disch := omega) [f21_0, ok_bind, Nat.div_eq_of_lt, Nat.mod_eq_of_lt, wf]

theorem RoundTrip.br (d : BitVec 24) : RoundTrip.Statement (.br d) := by
  intro wf; simp only [Instr.wf, Bool.and_eq_true] at wf
  have := d.isLt
  have f31_28 := ct_31_28 1 0 (d.toNat % 65536) (by omega) (by omega) (by omega)
  have f27_22 := ct_27_22 1 0 (d.toNat % 65536) (by omega) (by omega) (by omega)
  have f21_16 := ct_21_16 1 0 (d.toNat % 65536) (by omega) (by omega)
  have f15_0 := ct_15_0 1 0 (d.toNat % 65536) (by omega)
  have h0 : packCt 1 0 (d.toNat % 65536) ≠ 0 := ct_ne _ _ _
  try simp only [pk8_hi, pk8_lo, pk16_hi, pk16_lo, pk8_flag, ofFlag_one, pk_loop_pre, pk_loop_stg, pk_loop_len, pk_spawn_nm, pk_spawn_core, pk_spawn_entry, pk_spawn_zero, pk_cvt_part, pk_cvt_ty, fin8_mod8, fin16_mod16] at f21_16 f15_0
  refine encoded_as _ (packCt 1 0 (d.toNat % 65536)) (d.toNat / 65536) rfl ?_
  generalize packCt 1 0 (d.toNat % 65536) = w at *
  rw [decodeWord_class2 _ _ h0 f31_28]; unfold decControl; rw [f27_22]
  simp (disch := omega) [imm24_of w _ f15_0, f21_16, ok_bind, Nat.div_eq_of_lt, Nat.mod_eq_of_lt, wf]

theorem RoundTrip.brc (p : Fin 8) (n : Bool) (d : BitVec 24) : RoundTrip.Statement (.brc p n d) := by
  intro wf; simp only [Instr.wf, Bool.and_eq_true] at wf
  have := p.isLt
  have := ofFlag_lt n
  have := d.isLt
  have f31_28 := ct_31_28 2 (ofFlag n * 8 + p.val) (d.toNat % 65536) (by omega) (by omega) (by omega)
  have f27_22 := ct_27_22 2 (ofFlag n * 8 + p.val) (d.toNat % 65536) (by omega) (by omega) (by omega)
  have f21_20 := ct_21_20 2 (ofFlag n * 8 + p.val) (d.toNat % 65536) (by omega) (by omega)
  have f18_16 := ct_18_16 2 (ofFlag n * 8 + p.val) (d.toNat % 65536) (by omega)
  have f19 := ct_flag19 2 (ofFlag n * 8 + p.val) (d.toNat % 65536) (by omega)
  have f15_0 := ct_15_0 2 (ofFlag n * 8 + p.val) (d.toNat % 65536) (by omega)
  have h0 : packCt 2 (ofFlag n * 8 + p.val) (d.toNat % 65536) ≠ 0 := ct_ne _ _ _
  try simp only [pk8_hi, pk8_lo, pk16_hi, pk16_lo, pk8_flag, ofFlag_one, pk_loop_pre, pk_loop_stg, pk_loop_len, pk_spawn_nm, pk_spawn_core, pk_spawn_entry, pk_spawn_zero, pk_cvt_part, pk_cvt_ty, fin8_mod8, fin16_mod16] at f21_20 f18_16 f19 f15_0
  refine encoded_as _ (packCt 2 (ofFlag n * 8 + p.val) (d.toNat % 65536)) (d.toNat / 65536) rfl ?_
  generalize packCt 2 (ofFlag n * 8 + p.val) (d.toNat % 65536) = w at *
  rw [decodeWord_class2 _ _ h0 f31_28]; unfold decControl; rw [f27_22]
  simp (disch := omega) [imm24_of w _ f15_0, f21_20, f18_16, f19, ok_bind, Nat.div_eq_of_lt, Nat.mod_eq_of_lt, wf]

theorem RoundTrip.brz (a : SSrc) (d : BitVec 24) : RoundTrip.Statement (.brz a d) := by
  intro wf; simp only [Instr.wf, Bool.and_eq_true] at wf
  have := a.code_lt
  have := d.isLt
  have f31_28 := ct_31_28 3 a.code (d.toNat % 65536) (by omega) (by omega) (by omega)
  have f27_22 := ct_27_22 3 a.code (d.toNat % 65536) (by omega) (by omega) (by omega)
  have f21_16 := ct_21_16 3 a.code (d.toNat % 65536) (by omega) (by omega)
  have f15_0 := ct_15_0 3 a.code (d.toNat % 65536) (by omega)
  have h0 : packCt 3 a.code (d.toNat % 65536) ≠ 0 := ct_ne _ _ _
  try simp only [pk8_hi, pk8_lo, pk16_hi, pk16_lo, pk8_flag, ofFlag_one, pk_loop_pre, pk_loop_stg, pk_loop_len, pk_spawn_nm, pk_spawn_core, pk_spawn_entry, pk_spawn_zero, pk_cvt_part, pk_cvt_ty, fin8_mod8, fin16_mod16] at f21_16 f15_0
  refine encoded_as _ (packCt 3 a.code (d.toNat % 65536)) (d.toNat / 65536) rfl ?_
  generalize packCt 3 a.code (d.toNat % 65536) = w at *
  rw [decodeWord_class2 _ _ h0 f31_28]; unfold decControl; rw [f27_22]
  simp (disch := omega) [imm24_of w _ f15_0, f21_16, ok_bind, Nat.div_eq_of_lt, Nat.mod_eq_of_lt, wf]

theorem RoundTrip.brnz (a : SSrc) (d : BitVec 24) : RoundTrip.Statement (.brnz a d) := by
  intro wf; simp only [Instr.wf, Bool.and_eq_true] at wf
  have := a.code_lt
  have := d.isLt
  have f31_28 := ct_31_28 4 a.code (d.toNat % 65536) (by omega) (by omega) (by omega)
  have f27_22 := ct_27_22 4 a.code (d.toNat % 65536) (by omega) (by omega) (by omega)
  have f21_16 := ct_21_16 4 a.code (d.toNat % 65536) (by omega) (by omega)
  have f15_0 := ct_15_0 4 a.code (d.toNat % 65536) (by omega)
  have h0 : packCt 4 a.code (d.toNat % 65536) ≠ 0 := ct_ne _ _ _
  try simp only [pk8_hi, pk8_lo, pk16_hi, pk16_lo, pk8_flag, ofFlag_one, pk_loop_pre, pk_loop_stg, pk_loop_len, pk_spawn_nm, pk_spawn_core, pk_spawn_entry, pk_spawn_zero, pk_cvt_part, pk_cvt_ty, fin8_mod8, fin16_mod16] at f21_16 f15_0
  refine encoded_as _ (packCt 4 a.code (d.toNat % 65536)) (d.toNat / 65536) rfl ?_
  generalize packCt 4 a.code (d.toNat % 65536) = w at *
  rw [decodeWord_class2 _ _ h0 f31_28]; unfold decControl; rw [f27_22]
  simp (disch := omega) [imm24_of w _ f15_0, f21_16, ok_bind, Nat.div_eq_of_lt, Nat.mod_eq_of_lt, wf]

theorem RoundTrip.call (s : Fin 32) (d : BitVec 24) : RoundTrip.Statement (.call s d) := by
  intro wf; simp only [Instr.wf, Bool.and_eq_true] at wf
  have := s.isLt
  have := d.isLt
  have f31_28 := ct_31_28 5 s.val (d.toNat % 65536) (by omega) (by omega) (by omega)
  have f27_22 := ct_27_22 5 s.val (d.toNat % 65536) (by omega) (by omega) (by omega)
  have f21_16 := ct_21_16 5 s.val (d.toNat % 65536) (by omega) (by omega)
  have f15_0 := ct_15_0 5 s.val (d.toNat % 65536) (by omega)
  have h0 : packCt 5 s.val (d.toNat % 65536) ≠ 0 := ct_ne _ _ _
  try simp only [pk8_hi, pk8_lo, pk16_hi, pk16_lo, pk8_flag, ofFlag_one, pk_loop_pre, pk_loop_stg, pk_loop_len, pk_spawn_nm, pk_spawn_core, pk_spawn_entry, pk_spawn_zero, pk_cvt_part, pk_cvt_ty, fin8_mod8, fin16_mod16] at f21_16 f15_0
  refine encoded_as _ (packCt 5 s.val (d.toNat % 65536)) (d.toNat / 65536) rfl ?_
  generalize packCt 5 s.val (d.toNat % 65536) = w at *
  rw [decodeWord_class2 _ _ h0 f31_28]; unfold decControl; rw [f27_22]
  simp (disch := omega) [imm24_of w _ f15_0, f21_16, ok_bind, Nat.div_eq_of_lt, Nat.mod_eq_of_lt, wf]

theorem RoundTrip.ret (a : SSrc) : RoundTrip.Statement (.ret a) := by
  intro wf; simp only [Instr.wf, Bool.and_eq_true] at wf
  have := a.code_lt
  have f31_28 := ct_31_28 6 a.code 0 (by omega) (by omega) (by omega)
  have f27_22 := ct_27_22 6 a.code 0 (by omega) (by omega) (by omega)
  have f21_16 := ct_21_16 6 a.code 0 (by omega) (by omega)
  have f15_0 := ct_15_0 6 a.code 0 (by omega)
  have h0 : packCt 6 a.code 0 ≠ 0 := ct_ne _ _ _
  try simp only [pk8_hi, pk8_lo, pk16_hi, pk16_lo, pk8_flag, ofFlag_one, pk_loop_pre, pk_loop_stg, pk_loop_len, pk_spawn_nm, pk_spawn_core, pk_spawn_entry, pk_spawn_zero, pk_cvt_part, pk_cvt_ty, fin8_mod8, fin16_mod16] at f21_16 f15_0
  refine encoded_as _ (packCt 6 a.code 0) (0) rfl ?_
  generalize packCt 6 a.code 0 = w at *
  rw [decodeWord_class2 _ _ h0 f31_28]; unfold decControl; rw [f27_22]
  simp (disch := omega) [f21_16, f15_0, ok_bind, Nat.div_eq_of_lt, Nat.mod_eq_of_lt, wf]

theorem RoundTrip.jmpr (a : SSrc) (n : BitVec 24) : RoundTrip.Statement (.jmpr a n) := by
  intro wf; simp only [Instr.wf, Bool.and_eq_true] at wf
  have := a.code_lt
  have := n.isLt
  have f31_28 := ct_31_28 7 a.code (n.toNat % 65536) (by omega) (by omega) (by omega)
  have f27_22 := ct_27_22 7 a.code (n.toNat % 65536) (by omega) (by omega) (by omega)
  have f21_16 := ct_21_16 7 a.code (n.toNat % 65536) (by omega) (by omega)
  have f15_0 := ct_15_0 7 a.code (n.toNat % 65536) (by omega)
  have h0 : packCt 7 a.code (n.toNat % 65536) ≠ 0 := ct_ne _ _ _
  try simp only [pk8_hi, pk8_lo, pk16_hi, pk16_lo, pk8_flag, ofFlag_one, pk_loop_pre, pk_loop_stg, pk_loop_len, pk_spawn_nm, pk_spawn_core, pk_spawn_entry, pk_spawn_zero, pk_cvt_part, pk_cvt_ty, fin8_mod8, fin16_mod16] at f21_16 f15_0
  refine encoded_as _ (packCt 7 a.code (n.toNat % 65536)) (n.toNat / 65536) rfl ?_
  generalize packCt 7 a.code (n.toNat % 65536) = w at *
  rw [decodeWord_class2 _ _ h0 f31_28]; unfold decControl; rw [f27_22]
  simp (disch := omega) [imm24_of w _ f15_0, f21_16, ok_bind, Nat.div_eq_of_lt, Nat.mod_eq_of_lt, wf]

theorem RoundTrip.loop (a : SSrc) (pre : Bool) (k : Fin 8) (len : Fin 4096) : RoundTrip.Statement (.loop a pre k len) := by
  intro wf; simp only [Instr.wf, Bool.and_eq_true] at wf
  have := a.code_lt
  have := k.isLt
  have := len.isLt
  have := ofFlag_lt pre
  have f31_28 := ct_31_28 8 a.code (ofFlag pre * 2 ^ 15 + k.val * 2 ^ 12 + len.val) (by omega) (by omega) (by omega)
  have f27_22 := ct_27_22 8 a.code (ofFlag pre * 2 ^ 15 + k.val * 2 ^ 12 + len.val) (by omega) (by omega) (by omega)
  have f21_16 := ct_21_16 8 a.code (ofFlag pre * 2 ^ 15 + k.val * 2 ^ 12 + len.val) (by omega) (by omega)
  have f14_12 := ct_14_12 8 a.code (ofFlag pre * 2 ^ 15 + k.val * 2 ^ 12 + len.val)
  have f11_0 := ct_11_0 8 a.code (ofFlag pre * 2 ^ 15 + k.val * 2 ^ 12 + len.val)
  have f15 := ct_flag15 8 a.code (ofFlag pre * 2 ^ 15 + k.val * 2 ^ 12 + len.val)
  have h0 : packCt 8 a.code (ofFlag pre * 2 ^ 15 + k.val * 2 ^ 12 + len.val) ≠ 0 := ct_ne _ _ _
  try simp only [pk8_hi, pk8_lo, pk16_hi, pk16_lo, pk8_flag, ofFlag_one, pk_loop_pre, pk_loop_stg, pk_loop_len, pk_spawn_nm, pk_spawn_core, pk_spawn_entry, pk_spawn_zero, pk_cvt_part, pk_cvt_ty, fin8_mod8, fin16_mod16] at f21_16 f14_12 f11_0 f15
  refine encoded_as _ (packCt 8 a.code (ofFlag pre * 2 ^ 15 + k.val * 2 ^ 12 + len.val)) (0) rfl ?_
  generalize packCt 8 a.code (ofFlag pre * 2 ^ 15 + k.val * 2 ^ 12 + len.val) = w at *
  rw [decodeWord_class2 _ _ h0 f31_28]; unfold decControl; rw [f27_22]
  simp (disch := omega) [f21_16, f14_12, f11_0, f15, ok_bind, Nat.div_eq_of_lt, Nat.mod_eq_of_lt, wf]

theorem RoundTrip.lbreak (p : Fin 8) : RoundTrip.Statement (.lbreak p) := by
  intro wf; simp only [Instr.wf, Bool.and_eq_true] at wf
  have := p.isLt
  have f31_28 := ct_31_28 9 p.val 0 (by omega) (by omega) (by omega)
  have f27_22 := ct_27_22 9 p.val 0 (by omega) (by omega) (by omega)
  have f21_16 := ct_21_16 9 p.val 0 (by omega) (by omega)
  have f15_0 := ct_15_0 9 p.val 0 (by omega)
  have h0 : packCt 9 p.val 0 ≠ 0 := ct_ne _ _ _
  try simp only [pk8_hi, pk8_lo, pk16_hi, pk16_lo, pk8_flag, ofFlag_one, pk_loop_pre, pk_loop_stg, pk_loop_len, pk_spawn_nm, pk_spawn_core, pk_spawn_entry, pk_spawn_zero, pk_cvt_part, pk_cvt_ty, fin8_mod8, fin16_mod16] at f21_16 f15_0
  refine encoded_as _ (packCt 9 p.val 0) (0) rfl ?_
  generalize packCt 9 p.val 0 = w at *
  rw [decodeWord_class2 _ _ h0 f31_28]; unfold decControl; rw [f27_22]
  simp (disch := omega) [f21_16, f15_0, ok_bind, Nat.div_eq_of_lt, Nat.mod_eq_of_lt, wf]

theorem RoundTrip.spawn (a : Fin 32) (nm : Bool) (c : Fin 16) (en : Fin 256) : RoundTrip.Statement (.spawn a nm c en) := by
  intro wf; simp only [Instr.wf, Bool.and_eq_true] at wf
  have := a.isLt
  have := c.isLt
  have := en.isLt
  have := ofFlag_lt nm
  have f31_28 := ct_31_28 10 a.val (ofFlag nm * 2 ^ 12 + c.val * 2 ^ 8 + en.val) (by omega) (by omega) (by omega)
  have f27_22 := ct_27_22 10 a.val (ofFlag nm * 2 ^ 12 + c.val * 2 ^ 8 + en.val) (by omega) (by omega) (by omega)
  have f21_16 := ct_21_16 10 a.val (ofFlag nm * 2 ^ 12 + c.val * 2 ^ 8 + en.val) (by omega) (by omega)
  have f15_13 := ct_15_13 10 a.val (ofFlag nm * 2 ^ 12 + c.val * 2 ^ 8 + en.val) (by omega)
  have f12 := ct_flag12 10 a.val (ofFlag nm * 2 ^ 12 + c.val * 2 ^ 8 + en.val)
  have f11_8 := ct_11_8 10 a.val (ofFlag nm * 2 ^ 12 + c.val * 2 ^ 8 + en.val)
  have f7_0 := ct_7_0 10 a.val (ofFlag nm * 2 ^ 12 + c.val * 2 ^ 8 + en.val)
  have h0 : packCt 10 a.val (ofFlag nm * 2 ^ 12 + c.val * 2 ^ 8 + en.val) ≠ 0 := ct_ne _ _ _
  try simp only [pk8_hi, pk8_lo, pk16_hi, pk16_lo, pk8_flag, ofFlag_one, pk_loop_pre, pk_loop_stg, pk_loop_len, pk_spawn_nm, pk_spawn_core, pk_spawn_entry, pk_spawn_zero, pk_cvt_part, pk_cvt_ty, fin8_mod8, fin16_mod16] at f21_16 f15_13 f12 f11_8 f7_0
  refine encoded_as _ (packCt 10 a.val (ofFlag nm * 2 ^ 12 + c.val * 2 ^ 8 + en.val)) (0) rfl ?_
  generalize packCt 10 a.val (ofFlag nm * 2 ^ 12 + c.val * 2 ^ 8 + en.val) = w at *
  rw [decodeWord_class2 _ _ h0 f31_28]; unfold decControl; rw [f27_22]
  simp (disch := omega) [f21_16, f15_13, f12, f11_8, f7_0, ok_bind, Nat.div_eq_of_lt, Nat.mod_eq_of_lt, wf]

theorem RoundTrip.done : RoundTrip.Statement (.done) := by
  intro wf; simp only [Instr.wf, Bool.and_eq_true] at wf
  have f31_28 := ct_31_28 11 0 0 (by omega) (by omega) (by omega)
  have f27_22 := ct_27_22 11 0 0 (by omega) (by omega) (by omega)
  have f21_0 := ct_21_0 11 0 0 (by omega) (by omega)
  have h0 : packCt 11 0 0 ≠ 0 := ct_ne _ _ _
  try simp only [pk8_hi, pk8_lo, pk16_hi, pk16_lo, pk8_flag, ofFlag_one, pk_loop_pre, pk_loop_stg, pk_loop_len, pk_spawn_nm, pk_spawn_core, pk_spawn_entry, pk_spawn_zero, pk_cvt_part, pk_cvt_ty, fin8_mod8, fin16_mod16] at f21_0
  refine encoded_as _ (packCt 11 0 0) (0) rfl ?_
  generalize packCt 11 0 0 = w at *
  rw [decodeWord_class2 _ _ h0 f31_28]; unfold decControl; rw [f27_22]
  simp (disch := omega) [f21_0, ok_bind, Nat.div_eq_of_lt, Nat.mod_eq_of_lt, wf]

theorem RoundTrip.ld (o : MmOp) : RoundTrip.Statement (.ld o) := by
  intro wf; simp only [Instr.wf, Bool.and_eq_true] at wf
  have := o.hint.code_lt
  have := o.sz.isLt
  have := o.d.isLt
  have := o.h.isLt
  have := o.x.isLt
  have := o.imm.isLt
  have f31_28 := mm_31_28 0 o.sz.val o.hint.code o.d.val o.h.val o.x.val (o.imm.toNat % 64) (by omega) (by omega) (by omega) (by omega) (by omega) (by omega) (by omega)
  have f27_22 := mm_27_22 0 o.sz.val o.hint.code o.d.val o.h.val o.x.val (o.imm.toNat % 64) (by omega) (by omega) (by omega) (by omega) (by omega) (by omega) (by omega)
  have f21_20 := mm_21_20 0 o.sz.val o.hint.code o.d.val o.h.val o.x.val (o.imm.toNat % 64) (by omega) (by omega) (by omega) (by omega) (by omega) (by omega)
  have f19_18 := mm_19_18 0 o.sz.val o.hint.code o.d.val o.h.val o.x.val (o.imm.toNat % 64) (by omega) (by omega) (by omega) (by omega) (by omega)
  have f17_13 := mm_17_13 0 o.sz.val o.hint.code o.d.val o.h.val o.x.val (o.imm.toNat % 64) (by omega) (by omega) (by omega) (by omega)
  have f12_9 := mm_12_9 0 o.sz.val o.hint.code o.d.val o.h.val o.x.val (o.imm.toNat % 64) (by omega) (by omega) (by omega)
  have f8_6 := mm_8_6 0 o.sz.val o.hint.code o.d.val o.h.val o.x.val (o.imm.toNat % 64) (by omega) (by omega)
  have f5_0 := mm_5_0 0 o.sz.val o.hint.code o.d.val o.h.val o.x.val (o.imm.toNat % 64) (by omega)
  have h0 : packMm 0 o.sz.val o.hint.code o.d.val o.h.val o.x.val (o.imm.toNat % 64) ≠ 0 := mm_ne _ _ _ _ _ _ _
  try simp only [pk8_hi, pk8_lo, pk16_hi, pk16_lo, pk8_flag, ofFlag_one, pk_loop_pre, pk_loop_stg, pk_loop_len, pk_spawn_nm, pk_spawn_core, pk_spawn_entry, pk_spawn_zero, pk_cvt_part, pk_cvt_ty, fin8_mod8, fin16_mod16] at f21_20 f19_18 f17_13 f12_9 f8_6 f5_0
  refine encoded_as _ (packMm 0 o.sz.val o.hint.code o.d.val o.h.val o.x.val (o.imm.toNat % 64)) (o.imm.toNat / 64) rfl ?_
  generalize packMm 0 o.sz.val o.hint.code o.d.val o.h.val o.x.val (o.imm.toNat % 64) = w at *
  rw [decodeWord_class3 _ _ h0 f31_28]; unfold decMemory; rw [f27_22]
  simp (disch := omega) [decMm_of w o f21_20 f19_18 f17_13 f12_9 f8_6 f5_0, ok_bind, Nat.div_eq_of_lt, Nat.mod_eq_of_lt, wf]

theorem RoundTrip.st (o : MmOp) : RoundTrip.Statement (.st o) := by
  intro wf; simp only [Instr.wf, Bool.and_eq_true] at wf
  have := o.hint.code_lt
  have := o.sz.isLt
  have := o.d.isLt
  have := o.h.isLt
  have := o.x.isLt
  have := o.imm.isLt
  have f31_28 := mm_31_28 1 o.sz.val o.hint.code o.d.val o.h.val o.x.val (o.imm.toNat % 64) (by omega) (by omega) (by omega) (by omega) (by omega) (by omega) (by omega)
  have f27_22 := mm_27_22 1 o.sz.val o.hint.code o.d.val o.h.val o.x.val (o.imm.toNat % 64) (by omega) (by omega) (by omega) (by omega) (by omega) (by omega) (by omega)
  have f21_20 := mm_21_20 1 o.sz.val o.hint.code o.d.val o.h.val o.x.val (o.imm.toNat % 64) (by omega) (by omega) (by omega) (by omega) (by omega) (by omega)
  have f19_18 := mm_19_18 1 o.sz.val o.hint.code o.d.val o.h.val o.x.val (o.imm.toNat % 64) (by omega) (by omega) (by omega) (by omega) (by omega)
  have f17_13 := mm_17_13 1 o.sz.val o.hint.code o.d.val o.h.val o.x.val (o.imm.toNat % 64) (by omega) (by omega) (by omega) (by omega)
  have f12_9 := mm_12_9 1 o.sz.val o.hint.code o.d.val o.h.val o.x.val (o.imm.toNat % 64) (by omega) (by omega) (by omega)
  have f8_6 := mm_8_6 1 o.sz.val o.hint.code o.d.val o.h.val o.x.val (o.imm.toNat % 64) (by omega) (by omega)
  have f5_0 := mm_5_0 1 o.sz.val o.hint.code o.d.val o.h.val o.x.val (o.imm.toNat % 64) (by omega)
  have h0 : packMm 1 o.sz.val o.hint.code o.d.val o.h.val o.x.val (o.imm.toNat % 64) ≠ 0 := mm_ne _ _ _ _ _ _ _
  try simp only [pk8_hi, pk8_lo, pk16_hi, pk16_lo, pk8_flag, ofFlag_one, pk_loop_pre, pk_loop_stg, pk_loop_len, pk_spawn_nm, pk_spawn_core, pk_spawn_entry, pk_spawn_zero, pk_cvt_part, pk_cvt_ty, fin8_mod8, fin16_mod16] at f21_20 f19_18 f17_13 f12_9 f8_6 f5_0
  refine encoded_as _ (packMm 1 o.sz.val o.hint.code o.d.val o.h.val o.x.val (o.imm.toNat % 64)) (o.imm.toNat / 64) rfl ?_
  generalize packMm 1 o.sz.val o.hint.code o.d.val o.h.val o.x.val (o.imm.toNat % 64) = w at *
  rw [decodeWord_class3 _ _ h0 f31_28]; unfold decMemory; rw [f27_22]
  simp (disch := omega) [decMm_of w o f21_20 f19_18 f17_13 f12_9 f8_6 f5_0, ok_bind, Nat.div_eq_of_lt, Nat.mod_eq_of_lt, wf]

theorem RoundTrip.ldv (o : MmOp) : RoundTrip.Statement (.ldv o) := by
  intro wf; simp only [Instr.wf, Bool.and_eq_true] at wf
  have := o.hint.code_lt
  have := o.sz.isLt
  have := o.d.isLt
  have := o.h.isLt
  have := o.x.isLt
  have := o.imm.isLt
  have f31_28 := mm_31_28 2 o.sz.val o.hint.code o.d.val o.h.val o.x.val (o.imm.toNat % 64) (by omega) (by omega) (by omega) (by omega) (by omega) (by omega) (by omega)
  have f27_22 := mm_27_22 2 o.sz.val o.hint.code o.d.val o.h.val o.x.val (o.imm.toNat % 64) (by omega) (by omega) (by omega) (by omega) (by omega) (by omega) (by omega)
  have f21_20 := mm_21_20 2 o.sz.val o.hint.code o.d.val o.h.val o.x.val (o.imm.toNat % 64) (by omega) (by omega) (by omega) (by omega) (by omega) (by omega)
  have f19_18 := mm_19_18 2 o.sz.val o.hint.code o.d.val o.h.val o.x.val (o.imm.toNat % 64) (by omega) (by omega) (by omega) (by omega) (by omega)
  have f17_13 := mm_17_13 2 o.sz.val o.hint.code o.d.val o.h.val o.x.val (o.imm.toNat % 64) (by omega) (by omega) (by omega) (by omega)
  have f12_9 := mm_12_9 2 o.sz.val o.hint.code o.d.val o.h.val o.x.val (o.imm.toNat % 64) (by omega) (by omega) (by omega)
  have f8_6 := mm_8_6 2 o.sz.val o.hint.code o.d.val o.h.val o.x.val (o.imm.toNat % 64) (by omega) (by omega)
  have f5_0 := mm_5_0 2 o.sz.val o.hint.code o.d.val o.h.val o.x.val (o.imm.toNat % 64) (by omega)
  have h0 : packMm 2 o.sz.val o.hint.code o.d.val o.h.val o.x.val (o.imm.toNat % 64) ≠ 0 := mm_ne _ _ _ _ _ _ _
  try simp only [pk8_hi, pk8_lo, pk16_hi, pk16_lo, pk8_flag, ofFlag_one, pk_loop_pre, pk_loop_stg, pk_loop_len, pk_spawn_nm, pk_spawn_core, pk_spawn_entry, pk_spawn_zero, pk_cvt_part, pk_cvt_ty, fin8_mod8, fin16_mod16] at f21_20 f19_18 f17_13 f12_9 f8_6 f5_0
  refine encoded_as _ (packMm 2 o.sz.val o.hint.code o.d.val o.h.val o.x.val (o.imm.toNat % 64)) (o.imm.toNat / 64) rfl ?_
  generalize packMm 2 o.sz.val o.hint.code o.d.val o.h.val o.x.val (o.imm.toNat % 64) = w at *
  rw [decodeWord_class3 _ _ h0 f31_28]; unfold decMemory; rw [f27_22]
  simp (disch := omega) [decMm_of w o f21_20 f19_18 f17_13 f12_9 f8_6 f5_0, ok_bind, Nat.div_eq_of_lt, Nat.mod_eq_of_lt, wf]

theorem RoundTrip.stv (o : MmOp) : RoundTrip.Statement (.stv o) := by
  intro wf; simp only [Instr.wf, Bool.and_eq_true] at wf
  have := o.hint.code_lt
  have := o.sz.isLt
  have := o.d.isLt
  have := o.h.isLt
  have := o.x.isLt
  have := o.imm.isLt
  have f31_28 := mm_31_28 3 o.sz.val o.hint.code o.d.val o.h.val o.x.val (o.imm.toNat % 64) (by omega) (by omega) (by omega) (by omega) (by omega) (by omega) (by omega)
  have f27_22 := mm_27_22 3 o.sz.val o.hint.code o.d.val o.h.val o.x.val (o.imm.toNat % 64) (by omega) (by omega) (by omega) (by omega) (by omega) (by omega) (by omega)
  have f21_20 := mm_21_20 3 o.sz.val o.hint.code o.d.val o.h.val o.x.val (o.imm.toNat % 64) (by omega) (by omega) (by omega) (by omega) (by omega) (by omega)
  have f19_18 := mm_19_18 3 o.sz.val o.hint.code o.d.val o.h.val o.x.val (o.imm.toNat % 64) (by omega) (by omega) (by omega) (by omega) (by omega)
  have f17_13 := mm_17_13 3 o.sz.val o.hint.code o.d.val o.h.val o.x.val (o.imm.toNat % 64) (by omega) (by omega) (by omega) (by omega)
  have f12_9 := mm_12_9 3 o.sz.val o.hint.code o.d.val o.h.val o.x.val (o.imm.toNat % 64) (by omega) (by omega) (by omega)
  have f8_6 := mm_8_6 3 o.sz.val o.hint.code o.d.val o.h.val o.x.val (o.imm.toNat % 64) (by omega) (by omega)
  have f5_0 := mm_5_0 3 o.sz.val o.hint.code o.d.val o.h.val o.x.val (o.imm.toNat % 64) (by omega)
  have h0 : packMm 3 o.sz.val o.hint.code o.d.val o.h.val o.x.val (o.imm.toNat % 64) ≠ 0 := mm_ne _ _ _ _ _ _ _
  try simp only [pk8_hi, pk8_lo, pk16_hi, pk16_lo, pk8_flag, ofFlag_one, pk_loop_pre, pk_loop_stg, pk_loop_len, pk_spawn_nm, pk_spawn_core, pk_spawn_entry, pk_spawn_zero, pk_cvt_part, pk_cvt_ty, fin8_mod8, fin16_mod16] at f21_20 f19_18 f17_13 f12_9 f8_6 f5_0
  refine encoded_as _ (packMm 3 o.sz.val o.hint.code o.d.val o.h.val o.x.val (o.imm.toNat % 64)) (o.imm.toNat / 64) rfl ?_
  generalize packMm 3 o.sz.val o.hint.code o.d.val o.h.val o.x.val (o.imm.toNat % 64) = w at *
  rw [decodeWord_class3 _ _ h0 f31_28]; unfold decMemory; rw [f27_22]
  simp (disch := omega) [decMm_of w o f21_20 f19_18 f17_13 f12_9 f8_6 f5_0, ok_bind, Nat.div_eq_of_lt, Nat.mod_eq_of_lt, wf]

theorem RoundTrip.xlat (ro : Bool) (d : Fin 32) (h : Fin 16) (x : Fin 8) (k : BitVec 14) : RoundTrip.Statement (.xlat ro d h x k) := by
  intro wf; simp only [Instr.wf, Bool.and_eq_true] at wf
  have := d.isLt
  have := h.isLt
  have := x.isLt
  have := ofFlag_lt ro
  have := k.isLt
  have f31_28 := mm_31_28 4 (ofFlag ro) 0 d.val h.val x.val (k.toNat % 64) (by omega) (by omega) (by omega) (by omega) (by omega) (by omega) (by omega)
  have f27_22 := mm_27_22 4 (ofFlag ro) 0 d.val h.val x.val (k.toNat % 64) (by omega) (by omega) (by omega) (by omega) (by omega) (by omega) (by omega)
  have f19_18 := mm_19_18 4 (ofFlag ro) 0 d.val h.val x.val (k.toNat % 64) (by omega) (by omega) (by omega) (by omega) (by omega)
  have f21 := mm_flag21 4 (ofFlag ro) 0 d.val h.val x.val (k.toNat % 64) (by omega) (by omega) (by omega) (by omega) (by omega)
  have f20 := mm_flag20 4 (ofFlag ro) 0 d.val h.val x.val (k.toNat % 64) (by omega) (by omega) (by omega) (by omega) (by omega)
  have f17_13 := mm_17_13 4 (ofFlag ro) 0 d.val h.val x.val (k.toNat % 64) (by omega) (by omega) (by omega) (by omega)
  have f12_9 := mm_12_9 4 (ofFlag ro) 0 d.val h.val x.val (k.toNat % 64) (by omega) (by omega) (by omega)
  have f8_6 := mm_8_6 4 (ofFlag ro) 0 d.val h.val x.val (k.toNat % 64) (by omega) (by omega)
  have f5_0 := mm_5_0 4 (ofFlag ro) 0 d.val h.val x.val (k.toNat % 64) (by omega)
  have h0 : packMm 4 (ofFlag ro) 0 d.val h.val x.val (k.toNat % 64) ≠ 0 := mm_ne _ _ _ _ _ _ _
  try simp only [pk8_hi, pk8_lo, pk16_hi, pk16_lo, pk8_flag, ofFlag_one, pk_loop_pre, pk_loop_stg, pk_loop_len, pk_spawn_nm, pk_spawn_core, pk_spawn_entry, pk_spawn_zero, pk_cvt_part, pk_cvt_ty, fin8_mod8, fin16_mod16] at f19_18 f21 f20 f17_13 f12_9 f8_6 f5_0
  refine encoded_as _ (packMm 4 (ofFlag ro) 0 d.val h.val x.val (k.toNat % 64)) (k.toNat / 64) rfl ?_
  generalize packMm 4 (ofFlag ro) 0 d.val h.val x.val (k.toNat % 64) = w at *
  rw [decodeWord_class3 _ _ h0 f31_28]; unfold decMemory; rw [f27_22]
  simp (disch := omega) [imm14_of w _ f5_0, f19_18, f21, f20, f17_13, f12_9, f8_6, ok_bind, Nat.div_eq_of_lt, Nat.mod_eq_of_lt, wf]

theorem RoundTrip.hchk (s : HchkSel) (d : Fin 32) (h : Fin 16) : RoundTrip.Statement (.hchk s d h) := by
  intro wf; simp only [Instr.wf, Bool.and_eq_true] at wf
  have := s.code_lt
  have := d.isLt
  have := h.isLt
  have f31_28 := mm_31_28 5 s.code 0 d.val h.val 0 0 (by omega) (by omega) (by omega) (by omega) (by omega) (by omega) (by omega)
  have f27_22 := mm_27_22 5 s.code 0 d.val h.val 0 0 (by omega) (by omega) (by omega) (by omega) (by omega) (by omega) (by omega)
  have f19_18 := mm_19_18 5 s.code 0 d.val h.val 0 0 (by omega) (by omega) (by omega) (by omega) (by omega)
  have f8_0 := mm_8_0 5 s.code 0 d.val h.val 0 0 (by omega) (by omega)
  have f21_20 := mm_21_20 5 s.code 0 d.val h.val 0 0 (by omega) (by omega) (by omega) (by omega) (by omega) (by omega)
  have f17_13 := mm_17_13 5 s.code 0 d.val h.val 0 0 (by omega) (by omega) (by omega) (by omega)
  have f12_9 := mm_12_9 5 s.code 0 d.val h.val 0 0 (by omega) (by omega) (by omega)
  have h0 : packMm 5 s.code 0 d.val h.val 0 0 ≠ 0 := mm_ne _ _ _ _ _ _ _
  try simp only [pk8_hi, pk8_lo, pk16_hi, pk16_lo, pk8_flag, ofFlag_one, pk_loop_pre, pk_loop_stg, pk_loop_len, pk_spawn_nm, pk_spawn_core, pk_spawn_entry, pk_spawn_zero, pk_cvt_part, pk_cvt_ty, fin8_mod8, fin16_mod16] at f19_18 f8_0 f21_20 f17_13 f12_9
  refine encoded_as _ (packMm 5 s.code 0 d.val h.val 0 0) (0) rfl ?_
  generalize packMm 5 s.code 0 d.val h.val 0 0 = w at *
  rw [decodeWord_class3 _ _ h0 f31_28]; unfold decMemory; rw [f27_22]
  simp (disch := omega) [f19_18, f8_0, f21_20, f17_13, f12_9, ok_bind, Nat.div_eq_of_lt, Nat.mod_eq_of_lt, wf]

theorem RoundTrip.hdrop (h : Fin 16) : RoundTrip.Statement (.hdrop h) := by
  intro wf; simp only [Instr.wf, Bool.and_eq_true] at wf
  have := h.isLt
  have f31_28 := mm_31_28 6 0 0 0 h.val 0 0 (by omega) (by omega) (by omega) (by omega) (by omega) (by omega) (by omega)
  have f27_22 := mm_27_22 6 0 0 0 h.val 0 0 (by omega) (by omega) (by omega) (by omega) (by omega) (by omega) (by omega)
  have f21_13 := mm_21_13 6 0 0 0 h.val 0 0 (by omega) (by omega) (by omega) (by omega) (by omega) (by omega)
  have f8_0 := mm_8_0 6 0 0 0 h.val 0 0 (by omega) (by omega)
  have f12_9 := mm_12_9 6 0 0 0 h.val 0 0 (by omega) (by omega) (by omega)
  have h0 : packMm 6 0 0 0 h.val 0 0 ≠ 0 := mm_ne _ _ _ _ _ _ _
  try simp only [pk8_hi, pk8_lo, pk16_hi, pk16_lo, pk8_flag, ofFlag_one, pk_loop_pre, pk_loop_stg, pk_loop_len, pk_spawn_nm, pk_spawn_core, pk_spawn_entry, pk_spawn_zero, pk_cvt_part, pk_cvt_ty, fin8_mod8, fin16_mod16] at f21_13 f8_0 f12_9
  refine encoded_as _ (packMm 6 0 0 0 h.val 0 0) (0) rfl ?_
  generalize packMm 6 0 0 0 h.val 0 0 = w at *
  rw [decodeWord_class3 _ _ h0 f31_28]; unfold decMemory; rw [f27_22]
  simp (disch := omega) [f21_13, f8_0, f12_9, ok_bind, Nat.div_eq_of_lt, Nat.mod_eq_of_lt, wf]

theorem RoundTrip.hmov (hd : Fin 16) (hs : Fin 16) : RoundTrip.Statement (.hmov hd hs) := by
  intro wf; simp only [Instr.wf, Bool.and_eq_true] at wf
  have := hd.isLt
  have := hs.isLt
  have f31_28 := mm_31_28 7 0 0 hd.val hs.val 0 0 (by omega) (by omega) (by omega) (by omega) (by omega) (by omega) (by omega)
  have f27_22 := mm_27_22 7 0 0 hd.val hs.val 0 0 (by omega) (by omega) (by omega) (by omega) (by omega) (by omega) (by omega)
  have f21_17 := mm_21_17 7 0 0 hd.val hs.val 0 0 (by omega) (by omega) (by omega) (by omega) (by omega) (by omega)
  have f8_0 := mm_8_0 7 0 0 hd.val hs.val 0 0 (by omega) (by omega)
  have f16_13 := mm_16_13 7 0 0 hd.val hs.val 0 0 (by omega) (by omega) (by omega)
  have f12_9 := mm_12_9 7 0 0 hd.val hs.val 0 0 (by omega) (by omega) (by omega)
  have h0 : packMm 7 0 0 hd.val hs.val 0 0 ≠ 0 := mm_ne _ _ _ _ _ _ _
  try simp only [pk8_hi, pk8_lo, pk16_hi, pk16_lo, pk8_flag, ofFlag_one, pk_loop_pre, pk_loop_stg, pk_loop_len, pk_spawn_nm, pk_spawn_core, pk_spawn_entry, pk_spawn_zero, pk_cvt_part, pk_cvt_ty, fin8_mod8, fin16_mod16] at f21_17 f8_0 f16_13 f12_9
  refine encoded_as _ (packMm 7 0 0 hd.val hs.val 0 0) (0) rfl ?_
  generalize packMm 7 0 0 hd.val hs.val 0 0 = w at *
  rw [decodeWord_class3 _ _ h0 f31_28]; unfold decMemory; rw [f27_22]
  simp (disch := omega) [f21_17, f8_0, f16_13, f12_9, ok_bind, Nat.div_eq_of_lt, Nat.mod_eq_of_lt, wf]

theorem RoundTrip.pf (sz : Fin 4) (hint : Hint) (h : Fin 16) (x : Fin 8) (k : BitVec 14) : RoundTrip.Statement (.pf sz hint h x k) := by
  intro wf; simp only [Instr.wf, Bool.and_eq_true] at wf
  have := hint.code_lt
  have := sz.isLt
  have := h.isLt
  have := x.isLt
  have := k.isLt
  have f31_28 := mm_31_28 8 sz.val hint.code 0 h.val x.val (k.toNat % 64) (by omega) (by omega) (by omega) (by omega) (by omega) (by omega) (by omega)
  have f27_22 := mm_27_22 8 sz.val hint.code 0 h.val x.val (k.toNat % 64) (by omega) (by omega) (by omega) (by omega) (by omega) (by omega) (by omega)
  have f17_13 := mm_17_13 8 sz.val hint.code 0 h.val x.val (k.toNat % 64) (by omega) (by omega) (by omega) (by omega)
  have f21_20 := mm_21_20 8 sz.val hint.code 0 h.val x.val (k.toNat % 64) (by omega) (by omega) (by omega) (by omega) (by omega) (by omega)
  have f19_18 := mm_19_18 8 sz.val hint.code 0 h.val x.val (k.toNat % 64) (by omega) (by omega) (by omega) (by omega) (by omega)
  have f12_9 := mm_12_9 8 sz.val hint.code 0 h.val x.val (k.toNat % 64) (by omega) (by omega) (by omega)
  have f8_6 := mm_8_6 8 sz.val hint.code 0 h.val x.val (k.toNat % 64) (by omega) (by omega)
  have f5_0 := mm_5_0 8 sz.val hint.code 0 h.val x.val (k.toNat % 64) (by omega)
  have h0 : packMm 8 sz.val hint.code 0 h.val x.val (k.toNat % 64) ≠ 0 := mm_ne _ _ _ _ _ _ _
  try simp only [pk8_hi, pk8_lo, pk16_hi, pk16_lo, pk8_flag, ofFlag_one, pk_loop_pre, pk_loop_stg, pk_loop_len, pk_spawn_nm, pk_spawn_core, pk_spawn_entry, pk_spawn_zero, pk_cvt_part, pk_cvt_ty, fin8_mod8, fin16_mod16] at f17_13 f21_20 f19_18 f12_9 f8_6 f5_0
  refine encoded_as _ (packMm 8 sz.val hint.code 0 h.val x.val (k.toNat % 64)) (k.toNat / 64) rfl ?_
  generalize packMm 8 sz.val hint.code 0 h.val x.val (k.toNat % 64) = w at *
  rw [decodeWord_class3 _ _ h0 f31_28]; unfold decMemory; rw [f27_22]
  simp (disch := omega) [imm14_of w _ f5_0, f17_13, f21_20, f19_18, f12_9, f8_6, ok_bind, Nat.div_eq_of_lt, Nat.mod_eq_of_lt, wf]

theorem RoundTrip.phase (n : Fin 8) : RoundTrip.Statement (.phase n) := by
  intro wf; simp only [Instr.wf, Bool.and_eq_true] at wf
  have := n.isLt
  have f31_28 := mm_31_28 9 0 0 0 0 0 n.val (by omega) (by omega) (by omega) (by omega) (by omega) (by omega) (by omega)
  have f27_22 := mm_27_22 9 0 0 0 0 0 n.val (by omega) (by omega) (by omega) (by omega) (by omega) (by omega) (by omega)
  have f21_6 := mm_21_6 9 0 0 0 0 0 n.val (by omega) (by omega) (by omega) (by omega) (by omega) (by omega)
  have f5_0 := mm_5_0 9 0 0 0 0 0 n.val (by omega)
  have h0 : packMm 9 0 0 0 0 0 n.val ≠ 0 := mm_ne _ _ _ _ _ _ _
  try simp only [pk8_hi, pk8_lo, pk16_hi, pk16_lo, pk8_flag, ofFlag_one, pk_loop_pre, pk_loop_stg, pk_loop_len, pk_spawn_nm, pk_spawn_core, pk_spawn_entry, pk_spawn_zero, pk_cvt_part, pk_cvt_ty, fin8_mod8, fin16_mod16] at f21_6 f5_0
  refine encoded_as _ (packMm 9 0 0 0 0 0 n.val) (0) rfl ?_
  generalize packMm 9 0 0 0 0 0 n.val = w at *
  rw [decodeWord_class3 _ _ h0 f31_28]; unfold decMemory; rw [f27_22]
  simp (disch := omega) [f21_6, f5_0, ok_bind, Nat.div_eq_of_lt, Nat.mod_eq_of_lt, wf]

theorem RoundTrip.amo (op : AmoOp) (w32 : Bool) (od : Ord) (sc : Scope) (d : Fin 32) (m : SyAddr) : RoundTrip.Statement (.amo op w32 od sc d m) := by
  intro wf; simp only [Instr.wf, Bool.and_eq_true] at wf
  have := op.code_lt
  have := sc.code_lt
  have := od.code_lt
  have := m.h.isLt
  have := m.a.isLt
  have := d.isLt
  have := ofFlag_lt w32
  have f31_28 := sy_31_28 0 (op.code * 16 + m.h.val) m.a.val d.val sc.code (by omega) (by omega) (by omega) (by omega) (by omega)
  have f27_22 := sy_27_22 0 (op.code * 16 + m.h.val) m.a.val d.val sc.code (by omega) (by omega) (by omega) (by omega) (by omega)
  have f17_14 := sy_17_14 0 (op.code * 16 + m.h.val) m.a.val d.val sc.code (by omega) (by omega) (by omega)
  have f13_8 := sy_13_8 0 (op.code * 16 + m.h.val) m.a.val d.val sc.code (by omega) (by omega) (by omega)
  have f21_18 := sy_21_18 0 (op.code * 16 + m.h.val) m.a.val d.val sc.code (by omega) (by omega) (by omega) (by omega)
  have f7_2 := sy_7_2 0 (op.code * 16 + m.h.val) m.a.val d.val sc.code (by omega) (by omega)
  have f1_0 := sy_1_0 0 (op.code * 16 + m.h.val) m.a.val d.val sc.code (by omega)
  have h0 : packSy 0 (op.code * 16 + m.h.val) m.a.val d.val sc.code ≠ 0 := sy_ne _ _ _ _ _
  try simp only [pk8_hi, pk8_lo, pk16_hi, pk16_lo, pk8_flag, ofFlag_one, pk_loop_pre, pk_loop_stg, pk_loop_len, pk_spawn_nm, pk_spawn_core, pk_spawn_entry, pk_spawn_zero, pk_cvt_part, pk_cvt_ty, fin8_mod8, fin16_mod16] at f17_14 f13_8 f21_18 f7_2 f1_0
  refine encoded_as _ (packSy 0 (op.code * 16 + m.h.val) m.a.val d.val sc.code) (od.code * 2 + ofFlag w32) rfl ?_
  generalize packSy 0 (op.code * 16 + m.h.val) m.a.val d.val sc.code = w at *
  rw [decodeWord_class4 _ _ h0 f31_28]; unfold decSync; rw [f27_22]
  simp (disch := omega) [decSyAddr_of w m f17_14 f13_8, f21_18, f7_2, f1_0, lend_hi, lend_lo, lend_nw, lend0_hi, lend0_lo, lend0_nw, lend1_hi, lend1_lo, lend1_nw, lend2_hi, lend2_lo, lend2_nw, pk_amo_lt, pk_amo_bit, pk_amo_ord, pk_cas_bit, pk_cas_ord, pk_cas_hi, pk_bit0, pk_bit_lt, pk_bit_le, pk_sl_lo, pk_sl_bit, pk_sl_lt, pk_seam_pred, pk_seam_sat, pk_seam_lt, pk_pred, pk_pred_ok, pk_qnt_md, pk_qnt_bit, pk_qnt_lt, ok_bind, Nat.div_eq_of_lt, Nat.mod_eq_of_lt, wf]

theorem RoundTrip.cas (w32 : Bool) (od : Ord) (sc : Scope) (d : Fin 32) (m : SyAddr) (n : Fin 32) : RoundTrip.Statement (.cas w32 od sc d m n) := by
  intro wf; simp only [Instr.wf, Bool.and_eq_true] at wf
  have := sc.code_lt
  have := od.code_lt
  have := m.h.isLt
  have := m.a.isLt
  have := d.isLt
  have := n.isLt
  have := ofFlag_lt w32
  have f31_28 := sy_31_28 1 m.h.val m.a.val d.val sc.code (by omega) (by omega) (by omega) (by omega) (by omega)
  have f27_22 := sy_27_22 1 m.h.val m.a.val d.val sc.code (by omega) (by omega) (by omega) (by omega) (by omega)
  have f17_14 := sy_17_14 1 m.h.val m.a.val d.val sc.code (by omega) (by omega) (by omega)
  have f13_8 := sy_13_8 1 m.h.val m.a.val d.val sc.code (by omega) (by omega) (by omega)
  have f21_18 := sy_21_18 1 m.h.val m.a.val d.val sc.code (by omega) (by omega) (by omega) (by omega)
  have f7_2 := sy_7_2 1 m.h.val m.a.val d.val sc.code (by omega) (by omega)
  have f1_0 := sy_1_0 1 m.h.val m.a.val d.val sc.code (by omega)
  have h0 : packSy 1 m.h.val m.a.val d.val sc.code ≠ 0 := sy_ne _ _ _ _ _
  try simp only [pk8_hi, pk8_lo, pk16_hi, pk16_lo, pk8_flag, ofFlag_one, pk_loop_pre, pk_loop_stg, pk_loop_len, pk_spawn_nm, pk_spawn_core, pk_spawn_entry, pk_spawn_zero, pk_cvt_part, pk_cvt_ty, fin8_mod8, fin16_mod16] at f17_14 f13_8 f21_18 f7_2 f1_0
  refine encoded_as _ (packSy 1 m.h.val m.a.val d.val sc.code) (n.val * 8 + od.code * 2 + ofFlag w32) rfl ?_
  generalize packSy 1 m.h.val m.a.val d.val sc.code = w at *
  rw [decodeWord_class4 _ _ h0 f31_28]; unfold decSync; rw [f27_22]
  simp (disch := omega) [decSyAddr_of w m f17_14 f13_8, f21_18, f7_2, f1_0, lend_hi, lend_lo, lend_nw, lend0_hi, lend0_lo, lend0_nw, lend1_hi, lend1_lo, lend1_nw, lend2_hi, lend2_lo, lend2_nw, pk_amo_lt, pk_amo_bit, pk_amo_ord, pk_cas_bit, pk_cas_ord, pk_cas_hi, pk_bit0, pk_bit_lt, pk_bit_le, pk_sl_lo, pk_sl_bit, pk_sl_lt, pk_seam_pred, pk_seam_sat, pk_seam_lt, pk_pred, pk_pred_ok, pk_qnt_md, pk_qnt_bit, pk_qnt_lt, ok_bind, Nat.div_eq_of_lt, Nat.mod_eq_of_lt, wf]

theorem RoundTrip.famo (op : FamoOp) (ty : FamoTy) (sc : Scope) (m : SyAddr) (d : SSrc) : RoundTrip.Statement (.famo op ty sc m d) := by
  intro wf; simp only [Instr.wf, Bool.and_eq_true] at wf
  have := op.code_lt
  have := d.code_lt
  have := sc.code_lt
  have := ty.code_lt
  have := m.h.isLt
  have := m.a.isLt
  have f31_28 := sy_31_28 2 (op.code * 16 + m.h.val) m.a.val d.code sc.code (by omega) (by omega) (by omega) (by omega) (by omega)
  have f27_22 := sy_27_22 2 (op.code * 16 + m.h.val) m.a.val d.code sc.code (by omega) (by omega) (by omega) (by omega) (by omega)
  have f17_14 := sy_17_14 2 (op.code * 16 + m.h.val) m.a.val d.code sc.code (by omega) (by omega) (by omega)
  have f13_8 := sy_13_8 2 (op.code * 16 + m.h.val) m.a.val d.code sc.code (by omega) (by omega) (by omega)
  have f21_18 := sy_21_18 2 (op.code * 16 + m.h.val) m.a.val d.code sc.code (by omega) (by omega) (by omega) (by omega)
  have f7_2 := sy_7_2 2 (op.code * 16 + m.h.val) m.a.val d.code sc.code (by omega) (by omega)
  have f1_0 := sy_1_0 2 (op.code * 16 + m.h.val) m.a.val d.code sc.code (by omega)
  have h0 : packSy 2 (op.code * 16 + m.h.val) m.a.val d.code sc.code ≠ 0 := sy_ne _ _ _ _ _
  try simp only [pk8_hi, pk8_lo, pk16_hi, pk16_lo, pk8_flag, ofFlag_one, pk_loop_pre, pk_loop_stg, pk_loop_len, pk_spawn_nm, pk_spawn_core, pk_spawn_entry, pk_spawn_zero, pk_cvt_part, pk_cvt_ty, fin8_mod8, fin16_mod16] at f17_14 f13_8 f21_18 f7_2 f1_0
  refine encoded_as _ (packSy 2 (op.code * 16 + m.h.val) m.a.val d.code sc.code) (ty.code) rfl ?_
  generalize packSy 2 (op.code * 16 + m.h.val) m.a.val d.code sc.code = w at *
  rw [decodeWord_class4 _ _ h0 f31_28]; unfold decSync; rw [f27_22]
  simp (disch := omega) [decSyAddr_of w m f17_14 f13_8, f21_18, f7_2, f1_0, lend_hi, lend_lo, lend_nw, lend0_hi, lend0_lo, lend0_nw, lend1_hi, lend1_lo, lend1_nw, lend2_hi, lend2_lo, lend2_nw, pk_amo_lt, pk_amo_bit, pk_amo_ord, pk_cas_bit, pk_cas_ord, pk_cas_hi, pk_bit0, pk_bit_lt, pk_bit_le, pk_sl_lo, pk_sl_bit, pk_sl_lt, pk_seam_pred, pk_seam_sat, pk_seam_lt, pk_pred, pk_pred_ok, pk_qnt_md, pk_qnt_bit, pk_qnt_lt, ok_bind, Nat.div_eq_of_lt, Nat.mod_eq_of_lt, wf]

theorem RoundTrip.fence (md : FenceMode) (sc : Scope) : RoundTrip.Statement (.fence md sc) := by
  intro wf; simp only [Instr.wf, Bool.and_eq_true] at wf
  have := md.code_lt
  have := sc.code_lt
  have f31_28 := sy_31_28 3 md.code 0 0 sc.code (by omega) (by omega) (by omega) (by omega) (by omega)
  have f27_22 := sy_27_22 3 md.code 0 0 sc.code (by omega) (by omega) (by omega) (by omega) (by omega)
  have f21_16 := sy_21_16 3 md.code 0 0 sc.code (by omega) (by omega) (by omega) (by omega)
  have f13_2 := sy_13_2 3 md.code 0 0 sc.code (by omega) (by omega) (by omega)
  have f15_14 := sy_15_14 3 md.code 0 0 sc.code (by omega) (by omega) (by omega)
  have f1_0 := sy_1_0 3 md.code 0 0 sc.code (by omega)
  have h0 : packSy 3 md.code 0 0 sc.code ≠ 0 := sy_ne _ _ _ _ _
  try simp only [pk8_hi, pk8_lo, pk16_hi, pk16_lo, pk8_flag, ofFlag_one, pk_loop_pre, pk_loop_stg, pk_loop_len, pk_spawn_nm, pk_spawn_core, pk_spawn_entry, pk_spawn_zero, pk_cvt_part, pk_cvt_ty, fin8_mod8, fin16_mod16] at f21_16 f13_2 f15_14 f1_0
  refine encoded_as _ (packSy 3 md.code 0 0 sc.code) (0) rfl ?_
  generalize packSy 3 md.code 0 0 sc.code = w at *
  rw [decodeWord_class4 _ _ h0 f31_28]; unfold decSync; rw [f27_22]
  simp (disch := omega) [f21_16, f13_2, f15_14, f1_0, ok_bind, Nat.div_eq_of_lt, Nat.mod_eq_of_lt, wf]

theorem RoundTrip.stake (m : SyAddr) (d : Fin 32) : RoundTrip.Statement (.stake m d) := by
  intro wf; simp only [Instr.wf, Bool.and_eq_true] at wf
  have := m.h.isLt
  have := m.a.isLt
  have := d.isLt
  have f31_28 := sy_31_28 4 m.h.val m.a.val d.val 0 (by omega) (by omega) (by omega) (by omega) (by omega)
  have f27_22 := sy_27_22 4 m.h.val m.a.val d.val 0 (by omega) (by omega) (by omega) (by omega) (by omega)
  have f17_14 := sy_17_14 4 m.h.val m.a.val d.val 0 (by omega) (by omega) (by omega)
  have f13_8 := sy_13_8 4 m.h.val m.a.val d.val 0 (by omega) (by omega) (by omega)
  have f21_18 := sy_21_18 4 m.h.val m.a.val d.val 0 (by omega) (by omega) (by omega) (by omega)
  have f1_0 := sy_1_0 4 m.h.val m.a.val d.val 0 (by omega)
  have f7_2 := sy_7_2 4 m.h.val m.a.val d.val 0 (by omega) (by omega)
  have h0 : packSy 4 m.h.val m.a.val d.val 0 ≠ 0 := sy_ne _ _ _ _ _
  try simp only [pk8_hi, pk8_lo, pk16_hi, pk16_lo, pk8_flag, ofFlag_one, pk_loop_pre, pk_loop_stg, pk_loop_len, pk_spawn_nm, pk_spawn_core, pk_spawn_entry, pk_spawn_zero, pk_cvt_part, pk_cvt_ty, fin8_mod8, fin16_mod16] at f17_14 f13_8 f21_18 f1_0 f7_2
  refine encoded_as _ (packSy 4 m.h.val m.a.val d.val 0) (0) rfl ?_
  generalize packSy 4 m.h.val m.a.val d.val 0 = w at *
  rw [decodeWord_class4 _ _ h0 f31_28]; unfold decSync; rw [f27_22]
  simp (disch := omega) [decSyAddr_of w m f17_14 f13_8, f21_18, f1_0, f7_2, ok_bind, Nat.div_eq_of_lt, Nat.mod_eq_of_lt, wf]

theorem RoundTrip.settle (m : SyAddr) (d : Fin 32) : RoundTrip.Statement (.settle m d) := by
  intro wf; simp only [Instr.wf, Bool.and_eq_true] at wf
  have := m.h.isLt
  have := m.a.isLt
  have := d.isLt
  have f31_28 := sy_31_28 5 m.h.val m.a.val d.val 0 (by omega) (by omega) (by omega) (by omega) (by omega)
  have f27_22 := sy_27_22 5 m.h.val m.a.val d.val 0 (by omega) (by omega) (by omega) (by omega) (by omega)
  have f17_14 := sy_17_14 5 m.h.val m.a.val d.val 0 (by omega) (by omega) (by omega)
  have f13_8 := sy_13_8 5 m.h.val m.a.val d.val 0 (by omega) (by omega) (by omega)
  have f21_18 := sy_21_18 5 m.h.val m.a.val d.val 0 (by omega) (by omega) (by omega) (by omega)
  have f1_0 := sy_1_0 5 m.h.val m.a.val d.val 0 (by omega)
  have f7_2 := sy_7_2 5 m.h.val m.a.val d.val 0 (by omega) (by omega)
  have h0 : packSy 5 m.h.val m.a.val d.val 0 ≠ 0 := sy_ne _ _ _ _ _
  try simp only [pk8_hi, pk8_lo, pk16_hi, pk16_lo, pk8_flag, ofFlag_one, pk_loop_pre, pk_loop_stg, pk_loop_len, pk_spawn_nm, pk_spawn_core, pk_spawn_entry, pk_spawn_zero, pk_cvt_part, pk_cvt_ty, fin8_mod8, fin16_mod16] at f17_14 f13_8 f21_18 f1_0 f7_2
  refine encoded_as _ (packSy 5 m.h.val m.a.val d.val 0) (0) rfl ?_
  generalize packSy 5 m.h.val m.a.val d.val 0 = w at *
  rw [decodeWord_class4 _ _ h0 f31_28]; unfold decSync; rw [f27_22]
  simp (disch := omega) [decSyAddr_of w m f17_14 f13_8, f21_18, f1_0, f7_2, ok_bind, Nat.div_eq_of_lt, Nat.mod_eq_of_lt, wf]

theorem RoundTrip.ctag (d : Fin 32) (m : SyAddr) : RoundTrip.Statement (.ctag d m) := by
  intro wf; simp only [Instr.wf, Bool.and_eq_true] at wf
  have := m.h.isLt
  have := m.a.isLt
  have := d.isLt
  have f31_28 := sy_31_28 6 m.h.val m.a.val d.val 0 (by omega) (by omega) (by omega) (by omega) (by omega)
  have f27_22 := sy_27_22 6 m.h.val m.a.val d.val 0 (by omega) (by omega) (by omega) (by omega) (by omega)
  have f17_14 := sy_17_14 6 m.h.val m.a.val d.val 0 (by omega) (by omega) (by omega)
  have f13_8 := sy_13_8 6 m.h.val m.a.val d.val 0 (by omega) (by omega) (by omega)
  have f21_18 := sy_21_18 6 m.h.val m.a.val d.val 0 (by omega) (by omega) (by omega) (by omega)
  have f1_0 := sy_1_0 6 m.h.val m.a.val d.val 0 (by omega)
  have f7_2 := sy_7_2 6 m.h.val m.a.val d.val 0 (by omega) (by omega)
  have h0 : packSy 6 m.h.val m.a.val d.val 0 ≠ 0 := sy_ne _ _ _ _ _
  try simp only [pk8_hi, pk8_lo, pk16_hi, pk16_lo, pk8_flag, ofFlag_one, pk_loop_pre, pk_loop_stg, pk_loop_len, pk_spawn_nm, pk_spawn_core, pk_spawn_entry, pk_spawn_zero, pk_cvt_part, pk_cvt_ty, fin8_mod8, fin16_mod16] at f17_14 f13_8 f21_18 f1_0 f7_2
  refine encoded_as _ (packSy 6 m.h.val m.a.val d.val 0) (0) rfl ?_
  generalize packSy 6 m.h.val m.a.val d.val 0 = w at *
  rw [decodeWord_class4 _ _ h0 f31_28]; unfold decSync; rw [f27_22]
  simp (disch := omega) [decSyAddr_of w m f17_14 f13_8, f21_18, f1_0, f7_2, ok_bind, Nat.div_eq_of_lt, Nat.mod_eq_of_lt, wf]

theorem RoundTrip.unstake (m : SyAddr) : RoundTrip.Statement (.unstake m) := by
  intro wf; simp only [Instr.wf, Bool.and_eq_true] at wf
  have := m.h.isLt
  have := m.a.isLt
  have f31_28 := sy_31_28 7 m.h.val m.a.val 0 0 (by omega) (by omega) (by omega) (by omega) (by omega)
  have f27_22 := sy_27_22 7 m.h.val m.a.val 0 0 (by omega) (by omega) (by omega) (by omega) (by omega)
  have f17_14 := sy_17_14 7 m.h.val m.a.val 0 0 (by omega) (by omega) (by omega)
  have f13_8 := sy_13_8 7 m.h.val m.a.val 0 0 (by omega) (by omega) (by omega)
  have f21_18 := sy_21_18 7 m.h.val m.a.val 0 0 (by omega) (by omega) (by omega) (by omega)
  have f7_0 := sy_7_0 7 m.h.val m.a.val 0 0 (by omega) (by omega)
  have h0 : packSy 7 m.h.val m.a.val 0 0 ≠ 0 := sy_ne _ _ _ _ _
  try simp only [pk8_hi, pk8_lo, pk16_hi, pk16_lo, pk8_flag, ofFlag_one, pk_loop_pre, pk_loop_stg, pk_loop_len, pk_spawn_nm, pk_spawn_core, pk_spawn_entry, pk_spawn_zero, pk_cvt_part, pk_cvt_ty, fin8_mod8, fin16_mod16] at f17_14 f13_8 f21_18 f7_0
  refine encoded_as _ (packSy 7 m.h.val m.a.val 0 0) (0) rfl ?_
  generalize packSy 7 m.h.val m.a.val 0 0 = w at *
  rw [decodeWord_class4 _ _ h0 f31_28]; unfold decSync; rw [f27_22]
  simp (disch := omega) [decSyAddr_of w m f17_14 f13_8, f21_18, f7_0, ok_bind, Nat.div_eq_of_lt, Nat.mod_eq_of_lt, wf]

theorem RoundTrip.crewJoin (n : Fin 256) : RoundTrip.Statement (.crewJoin n) := by
  intro wf; simp only [Instr.wf, Bool.and_eq_true] at wf
  have := n.isLt
  have f31_28 := sy_31_28 8 n.val 0 0 0 (by omega) (by omega) (by omega) (by omega) (by omega)
  have f27_22 := sy_27_22 8 n.val 0 0 0 (by omega) (by omega) (by omega) (by omega) (by omega)
  have f13_0 := sy_13_0 8 n.val 0 0 0 (by omega) (by omega) (by omega)
  have f21_14 := sy_21_14 8 n.val 0 0 0 (by omega) (by omega) (by omega) (by omega)
  have h0 : packSy 8 n.val 0 0 0 ≠ 0 := sy_ne _ _ _ _ _
  try simp only [pk8_hi, pk8_lo, pk16_hi, pk16_lo, pk8_flag, ofFlag_one, pk_loop_pre, pk_loop_stg, pk_loop_len, pk_spawn_nm, pk_spawn_core, pk_spawn_entry, pk_spawn_zero, pk_cvt_part, pk_cvt_ty, fin8_mod8, fin16_mod16] at f13_0 f21_14
  refine encoded_as _ (packSy 8 n.val 0 0 0) (0) rfl ?_
  generalize packSy 8 n.val 0 0 0 = w at *
  rw [decodeWord_class4 _ _ h0 f31_28]; unfold decSync; rw [f27_22]
  simp (disch := omega) [f13_0, f21_14, ok_bind, Nat.div_eq_of_lt, Nat.mod_eq_of_lt, wf]

theorem RoundTrip.crewLeave (n : Fin 256) : RoundTrip.Statement (.crewLeave n) := by
  intro wf; simp only [Instr.wf, Bool.and_eq_true] at wf
  have := n.isLt
  have f31_28 := sy_31_28 9 n.val 0 0 0 (by omega) (by omega) (by omega) (by omega) (by omega)
  have f27_22 := sy_27_22 9 n.val 0 0 0 (by omega) (by omega) (by omega) (by omega) (by omega)
  have f13_0 := sy_13_0 9 n.val 0 0 0 (by omega) (by omega) (by omega)
  have f21_14 := sy_21_14 9 n.val 0 0 0 (by omega) (by omega) (by omega) (by omega)
  have h0 : packSy 9 n.val 0 0 0 ≠ 0 := sy_ne _ _ _ _ _
  try simp only [pk8_hi, pk8_lo, pk16_hi, pk16_lo, pk8_flag, ofFlag_one, pk_loop_pre, pk_loop_stg, pk_loop_len, pk_spawn_nm, pk_spawn_core, pk_spawn_entry, pk_spawn_zero, pk_cvt_part, pk_cvt_ty, fin8_mod8, fin16_mod16] at f13_0 f21_14
  refine encoded_as _ (packSy 9 n.val 0 0 0) (0) rfl ?_
  generalize packSy 9 n.val 0 0 0 = w at *
  rw [decodeWord_class4 _ _ h0 f31_28]; unfold decSync; rw [f27_22]
  simp (disch := omega) [f13_0, f21_14, ok_bind, Nat.div_eq_of_lt, Nat.mod_eq_of_lt, wf]

theorem RoundTrip.crewSync (n : Fin 256) (c : Bool) : RoundTrip.Statement (.crewSync n c) := by
  intro wf; simp only [Instr.wf, Bool.and_eq_true] at wf
  have := n.isLt
  have := ofFlag_lt c
  have f31_28 := sy_31_28 10 n.val 0 0 0 (by omega) (by omega) (by omega) (by omega) (by omega)
  have f27_22 := sy_27_22 10 n.val 0 0 0 (by omega) (by omega) (by omega) (by omega) (by omega)
  have f13_0 := sy_13_0 10 n.val 0 0 0 (by omega) (by omega) (by omega)
  have f21_14 := sy_21_14 10 n.val 0 0 0 (by omega) (by omega) (by omega) (by omega)
  have h0 : packSy 10 n.val 0 0 0 ≠ 0 := sy_ne _ _ _ _ _
  try simp only [pk8_hi, pk8_lo, pk16_hi, pk16_lo, pk8_flag, ofFlag_one, pk_loop_pre, pk_loop_stg, pk_loop_len, pk_spawn_nm, pk_spawn_core, pk_spawn_entry, pk_spawn_zero, pk_cvt_part, pk_cvt_ty, fin8_mod8, fin16_mod16] at f13_0 f21_14
  refine encoded_as _ (packSy 10 n.val 0 0 0) (ofFlag c) rfl ?_
  generalize packSy 10 n.val 0 0 0 = w at *
  rw [decodeWord_class4 _ _ h0 f31_28]; unfold decSync; rw [f27_22]
  simp (disch := omega) [f13_0, f21_14, lend_hi, lend_lo, lend_nw, lend0_hi, lend0_lo, lend0_nw, lend1_hi, lend1_lo, lend1_nw, lend2_hi, lend2_lo, lend2_nw, pk_amo_lt, pk_amo_bit, pk_amo_ord, pk_cas_bit, pk_cas_ord, pk_cas_hi, pk_bit0, pk_bit_lt, pk_bit_le, pk_sl_lo, pk_sl_bit, pk_sl_lt, pk_seam_pred, pk_seam_sat, pk_seam_lt, pk_pred, pk_pred_ok, pk_qnt_md, pk_qnt_bit, pk_qnt_lt, ok_bind, Nat.div_eq_of_lt, Nat.mod_eq_of_lt, wf]

theorem RoundTrip.cbArm (n : Fin 64) (a : SSrc) : RoundTrip.Statement (.cbArm n a) := by
  intro wf; simp only [Instr.wf] at wf
  have := a.code_lt
  have := n.isLt
  have f31_28 := sy_31_28 11 n.val a.code 0 0 (by omega) (by omega) (by omega) (by omega) (by omega)
  have f27_22 := sy_27_22 11 n.val a.code 0 0 (by omega) (by omega) (by omega) (by omega) (by omega)
  have f7_0 := sy_7_0 11 n.val a.code 0 0 (by omega) (by omega)
  have f21_14 := sy_21_14 11 n.val a.code 0 0 (by omega) (by omega) (by omega) (by omega)
  have f13_8 := sy_13_8 11 n.val a.code 0 0 (by omega) (by omega) (by omega)
  have h0 : packSy 11 n.val a.code 0 0 ≠ 0 := sy_ne _ _ _ _ _
  try simp only [pk8_hi, pk8_lo, pk16_hi, pk16_lo, pk8_flag, ofFlag_one, pk_loop_pre, pk_loop_stg, pk_loop_len, pk_spawn_nm, pk_spawn_core, pk_spawn_entry, pk_spawn_zero, pk_cvt_part, pk_cvt_ty, fin8_mod8, fin16_mod16] at f7_0 f21_14 f13_8
  refine encoded_as _ (packSy 11 n.val a.code 0 0) (0) rfl ?_
  generalize packSy 11 n.val a.code 0 0 = w at *
  rw [decodeWord_class4 _ _ h0 f31_28]; unfold decSync; rw [f27_22]
  simp (disch := omega) [f7_0, f21_14, f13_8, ok_bind, getPlainS_code a wf, Nat.div_eq_of_lt, Nat.mod_eq_of_lt, wf]

theorem RoundTrip.cbWait (n : Fin 64) (sc : Scope) : RoundTrip.Statement (.cbWait n sc) := by
  intro wf; simp only [Instr.wf, Bool.and_eq_true] at wf
  have := sc.code_lt
  have := n.isLt
  have f31_28 := sy_31_28 12 n.val 0 0 sc.code (by omega) (by omega) (by omega) (by omega) (by omega)
  have f27_22 := sy_27_22 12 n.val 0 0 sc.code (by omega) (by omega) (by omega) (by omega) (by omega)
  have f13_2 := sy_13_2 12 n.val 0 0 sc.code (by omega) (by omega) (by omega)
  have f21_14 := sy_21_14 12 n.val 0 0 sc.code (by omega) (by omega) (by omega) (by omega)
  have f1_0 := sy_1_0 12 n.val 0 0 sc.code (by omega)
  have h0 : packSy 12 n.val 0 0 sc.code ≠ 0 := sy_ne _ _ _ _ _
  try simp only [pk8_hi, pk8_lo, pk16_hi, pk16_lo, pk8_flag, ofFlag_one, pk_loop_pre, pk_loop_stg, pk_loop_len, pk_spawn_nm, pk_spawn_core, pk_spawn_entry, pk_spawn_zero, pk_cvt_part, pk_cvt_ty, fin8_mod8, fin16_mod16] at f13_2 f21_14 f1_0
  refine encoded_as _ (packSy 12 n.val 0 0 sc.code) (0) rfl ?_
  generalize packSy 12 n.val 0 0 sc.code = w at *
  rw [decodeWord_class4 _ _ h0 f31_28]; unfold decSync; rw [f27_22]
  simp (disch := omega) [f13_2, f21_14, f1_0, ok_bind, Nat.div_eq_of_lt, Nat.mod_eq_of_lt, wf]

theorem RoundTrip.cbAdd (n : Fin 64) (a : SSrc) : RoundTrip.Statement (.cbAdd n a) := by
  intro wf; simp only [Instr.wf] at wf
  have := a.code_lt
  have := n.isLt
  have f31_28 := sy_31_28 13 n.val a.code 0 0 (by omega) (by omega) (by omega) (by omega) (by omega)
  have f27_22 := sy_27_22 13 n.val a.code 0 0 (by omega) (by omega) (by omega) (by omega) (by omega)
  have f7_0 := sy_7_0 13 n.val a.code 0 0 (by omega) (by omega)
  have f21_14 := sy_21_14 13 n.val a.code 0 0 (by omega) (by omega) (by omega) (by omega)
  have f13_8 := sy_13_8 13 n.val a.code 0 0 (by omega) (by omega) (by omega)
  have h0 : packSy 13 n.val a.code 0 0 ≠ 0 := sy_ne _ _ _ _ _
  try simp only [pk8_hi, pk8_lo, pk16_hi, pk16_lo, pk8_flag, ofFlag_one, pk_loop_pre, pk_loop_stg, pk_loop_len, pk_spawn_nm, pk_spawn_core, pk_spawn_entry, pk_spawn_zero, pk_cvt_part, pk_cvt_ty, fin8_mod8, fin16_mod16] at f7_0 f21_14 f13_8
  refine encoded_as _ (packSy 13 n.val a.code 0 0) (0) rfl ?_
  generalize packSy 13 n.val a.code 0 0 = w at *
  rw [decodeWord_class4 _ _ h0 f31_28]; unfold decSync; rw [f27_22]
  simp (disch := omega) [f7_0, f21_14, f13_8, ok_bind, getPlainS_code a wf, Nat.div_eq_of_lt, Nat.mod_eq_of_lt, wf]

theorem RoundTrip.cbRead (d : Fin 32) (n : Fin 64) : RoundTrip.Statement (.cbRead d n) := by
  intro wf; simp only [Instr.wf, Bool.and_eq_true] at wf
  have := n.isLt
  have := d.isLt
  have f31_28 := sy_31_28 14 n.val 0 d.val 0 (by omega) (by omega) (by omega) (by omega) (by omega)
  have f27_22 := sy_27_22 14 n.val 0 d.val 0 (by omega) (by omega) (by omega) (by omega) (by omega)
  have f13_8 := sy_13_8 14 n.val 0 d.val 0 (by omega) (by omega) (by omega)
  have f1_0 := sy_1_0 14 n.val 0 d.val 0 (by omega)
  have f7_2 := sy_7_2 14 n.val 0 d.val 0 (by omega) (by omega)
  have f21_14 := sy_21_14 14 n.val 0 d.val 0 (by omega) (by omega) (by omega) (by omega)
  have h0 : packSy 14 n.val 0 d.val 0 ≠ 0 := sy_ne _ _ _ _ _
  try simp only [pk8_hi, pk8_lo, pk16_hi, pk16_lo, pk8_flag, ofFlag_one, pk_loop_pre, pk_loop_stg, pk_loop_len, pk_spawn_nm, pk_spawn_core, pk_spawn_entry, pk_spawn_zero, pk_cvt_part, pk_cvt_ty, fin8_mod8, fin16_mod16] at f13_8 f1_0 f7_2 f21_14
  refine encoded_as _ (packSy 14 n.val 0 d.val 0) (0) rfl ?_
  generalize packSy 14 n.val 0 d.val 0 = w at *
  rw [decodeWord_class4 _ _ h0 f31_28]; unfold decSync; rw [f27_22]
  simp (disch := omega) [f13_8, f1_0, f7_2, f21_14, ok_bind, Nat.div_eq_of_lt, Nat.mod_eq_of_lt, wf]

theorem RoundTrip.stepCommit (a : SSrc) : RoundTrip.Statement (.stepCommit a) := by
  intro wf; simp only [Instr.wf] at wf
  have := a.code_lt
  have f31_28 := sy_31_28 15 0 a.code 0 0 (by omega) (by omega) (by omega) (by omega) (by omega)
  have f27_22 := sy_27_22 15 0 a.code 0 0 (by omega) (by omega) (by omega) (by omega) (by omega)
  have f21_14 := sy_21_14 15 0 a.code 0 0 (by omega) (by omega) (by omega) (by omega)
  have f7_0 := sy_7_0 15 0 a.code 0 0 (by omega) (by omega)
  have f13_8 := sy_13_8 15 0 a.code 0 0 (by omega) (by omega) (by omega)
  have h0 : packSy 15 0 a.code 0 0 ≠ 0 := sy_ne _ _ _ _ _
  try simp only [pk8_hi, pk8_lo, pk16_hi, pk16_lo, pk8_flag, ofFlag_one, pk_loop_pre, pk_loop_stg, pk_loop_len, pk_spawn_nm, pk_spawn_core, pk_spawn_entry, pk_spawn_zero, pk_cvt_part, pk_cvt_ty, fin8_mod8, fin16_mod16] at f21_14 f7_0 f13_8
  refine encoded_as _ (packSy 15 0 a.code 0 0) (0) rfl ?_
  generalize packSy 15 0 a.code 0 0 = w at *
  rw [decodeWord_class4 _ _ h0 f31_28]; unfold decSync; rw [f27_22]
  simp (disch := omega) [f21_14, f7_0, f13_8, ok_bind, getPlainS_code a wf, Nat.div_eq_of_lt, Nat.mod_eq_of_lt, wf]

theorem RoundTrip.atmClose (wt : Bool) (sc : Scope) : RoundTrip.Statement (.atmClose wt sc) := by
  intro wf; simp only [Instr.wf, Bool.and_eq_true] at wf
  have := sc.code_lt
  have := ofFlag_lt wt
  have f31_28 := sy_31_28 16 0 0 0 sc.code (by omega) (by omega) (by omega) (by omega) (by omega)
  have f27_22 := sy_27_22 16 0 0 0 sc.code (by omega) (by omega) (by omega) (by omega) (by omega)
  have f21_2 := sy_21_2 16 0 0 0 sc.code (by omega) (by omega) (by omega) (by omega)
  have f1_0 := sy_1_0 16 0 0 0 sc.code (by omega)
  have h0 : packSy 16 0 0 0 sc.code ≠ 0 := sy_ne _ _ _ _ _
  try simp only [pk8_hi, pk8_lo, pk16_hi, pk16_lo, pk8_flag, ofFlag_one, pk_loop_pre, pk_loop_stg, pk_loop_len, pk_spawn_nm, pk_spawn_core, pk_spawn_entry, pk_spawn_zero, pk_cvt_part, pk_cvt_ty, fin8_mod8, fin16_mod16] at f21_2 f1_0
  refine encoded_as _ (packSy 16 0 0 0 sc.code) (ofFlag wt) rfl ?_
  generalize packSy 16 0 0 0 sc.code = w at *
  rw [decodeWord_class4 _ _ h0 f31_28]; unfold decSync; rw [f27_22]
  simp (disch := omega) [f21_2, f1_0, lend_hi, lend_lo, lend_nw, lend0_hi, lend0_lo, lend0_nw, lend1_hi, lend1_lo, lend1_nw, lend2_hi, lend2_lo, lend2_nw, pk_amo_lt, pk_amo_bit, pk_amo_ord, pk_cas_bit, pk_cas_ord, pk_cas_hi, pk_bit0, pk_bit_lt, pk_bit_le, pk_sl_lo, pk_sl_bit, pk_sl_lt, pk_seam_pred, pk_seam_sat, pk_seam_lt, pk_pred, pk_pred_ok, pk_qnt_md, pk_qnt_bit, pk_qnt_lt, ok_bind, Nat.div_eq_of_lt, Nat.mod_eq_of_lt, wf]

theorem RoundTrip.vadd (o : VBinR) : RoundTrip.Statement (.vadd o) := by
  intro wf; simp only [Instr.wf, Bool.and_eq_true] at wf
  have := o.a.code_lt
  have := o.b.code_lt
  have := o.t.code_lt
  have := o.md.code_lt
  have := o.d.isLt
  have := o.m.isLt
  have := ofFlag_lt o.nw
  have f31_28 := sr_class 5 0 o.d.val o.a.code o.b.code o.t.code (by omega) (by omega) (by omega) (by omega) (by omega) (by omega)
  have f27_22 := sr_minor 5 0 o.d.val o.a.code o.b.code o.t.code (by omega) (by omega) (by omega) (by omega) (by omega)
  have f21_16 := sr_d 5 0 o.d.val o.a.code o.b.code o.t.code (by omega) (by omega) (by omega) (by omega)
  have f15_10 := sr_a 5 0 o.d.val o.a.code o.b.code o.t.code (by omega) (by omega) (by omega)
  have f9_4 := sr_b 5 0 o.d.val o.a.code o.b.code o.t.code (by omega) (by omega)
  have f3_0 := sr_low 5 0 o.d.val o.a.code o.b.code o.t.code (by omega)
  have h0 : packSr 5 0 o.d.val o.a.code o.b.code o.t.code ≠ 0 := by rw [ne_eq, sr_zero]; omega
  try simp only [pk8_hi, pk8_lo, pk16_hi, pk16_lo, pk8_flag, ofFlag_one, pk_loop_pre, pk_loop_stg, pk_loop_len, pk_spawn_nm, pk_spawn_core, pk_spawn_entry, pk_spawn_zero, pk_cvt_part, pk_cvt_ty, fin8_mod8, fin16_mod16] at f21_16 f15_10 f9_4 f3_0
  refine encoded_as _ (packSr 5 0 o.d.val o.a.code o.b.code o.t.code) (o.md.code * 16 + ofFlag o.nw * 8 + o.m.val) rfl ?_
  generalize packSr 5 0 o.d.val o.a.code o.b.code o.t.code = w at *
  rw [decodeWord_class5 _ _ h0 f31_28]; unfold decVFloat; rw [f27_22]
  simp (disch := omega) [decVBinR_of w o f21_16 f15_10 f9_4 f3_0, ok_bind, Nat.div_eq_of_lt, Nat.mod_eq_of_lt, wf]

theorem RoundTrip.vsub (o : VBinR) : RoundTrip.Statement (.vsub o) := by
  intro wf; simp only [Instr.wf, Bool.and_eq_true] at wf
  have := o.a.code_lt
  have := o.b.code_lt
  have := o.t.code_lt
  have := o.md.code_lt
  have := o.d.isLt
  have := o.m.isLt
  have := ofFlag_lt o.nw
  have f31_28 := sr_class 5 1 o.d.val o.a.code o.b.code o.t.code (by omega) (by omega) (by omega) (by omega) (by omega) (by omega)
  have f27_22 := sr_minor 5 1 o.d.val o.a.code o.b.code o.t.code (by omega) (by omega) (by omega) (by omega) (by omega)
  have f21_16 := sr_d 5 1 o.d.val o.a.code o.b.code o.t.code (by omega) (by omega) (by omega) (by omega)
  have f15_10 := sr_a 5 1 o.d.val o.a.code o.b.code o.t.code (by omega) (by omega) (by omega)
  have f9_4 := sr_b 5 1 o.d.val o.a.code o.b.code o.t.code (by omega) (by omega)
  have f3_0 := sr_low 5 1 o.d.val o.a.code o.b.code o.t.code (by omega)
  have h0 : packSr 5 1 o.d.val o.a.code o.b.code o.t.code ≠ 0 := by rw [ne_eq, sr_zero]; omega
  try simp only [pk8_hi, pk8_lo, pk16_hi, pk16_lo, pk8_flag, ofFlag_one, pk_loop_pre, pk_loop_stg, pk_loop_len, pk_spawn_nm, pk_spawn_core, pk_spawn_entry, pk_spawn_zero, pk_cvt_part, pk_cvt_ty, fin8_mod8, fin16_mod16] at f21_16 f15_10 f9_4 f3_0
  refine encoded_as _ (packSr 5 1 o.d.val o.a.code o.b.code o.t.code) (o.md.code * 16 + ofFlag o.nw * 8 + o.m.val) rfl ?_
  generalize packSr 5 1 o.d.val o.a.code o.b.code o.t.code = w at *
  rw [decodeWord_class5 _ _ h0 f31_28]; unfold decVFloat; rw [f27_22]
  simp (disch := omega) [decVBinR_of w o f21_16 f15_10 f9_4 f3_0, ok_bind, Nat.div_eq_of_lt, Nat.mod_eq_of_lt, wf]

theorem RoundTrip.vmul (o : VBinR) : RoundTrip.Statement (.vmul o) := by
  intro wf; simp only [Instr.wf, Bool.and_eq_true] at wf
  have := o.a.code_lt
  have := o.b.code_lt
  have := o.t.code_lt
  have := o.md.code_lt
  have := o.d.isLt
  have := o.m.isLt
  have := ofFlag_lt o.nw
  have f31_28 := sr_class 5 2 o.d.val o.a.code o.b.code o.t.code (by omega) (by omega) (by omega) (by omega) (by omega) (by omega)
  have f27_22 := sr_minor 5 2 o.d.val o.a.code o.b.code o.t.code (by omega) (by omega) (by omega) (by omega) (by omega)
  have f21_16 := sr_d 5 2 o.d.val o.a.code o.b.code o.t.code (by omega) (by omega) (by omega) (by omega)
  have f15_10 := sr_a 5 2 o.d.val o.a.code o.b.code o.t.code (by omega) (by omega) (by omega)
  have f9_4 := sr_b 5 2 o.d.val o.a.code o.b.code o.t.code (by omega) (by omega)
  have f3_0 := sr_low 5 2 o.d.val o.a.code o.b.code o.t.code (by omega)
  have h0 : packSr 5 2 o.d.val o.a.code o.b.code o.t.code ≠ 0 := by rw [ne_eq, sr_zero]; omega
  try simp only [pk8_hi, pk8_lo, pk16_hi, pk16_lo, pk8_flag, ofFlag_one, pk_loop_pre, pk_loop_stg, pk_loop_len, pk_spawn_nm, pk_spawn_core, pk_spawn_entry, pk_spawn_zero, pk_cvt_part, pk_cvt_ty, fin8_mod8, fin16_mod16] at f21_16 f15_10 f9_4 f3_0
  refine encoded_as _ (packSr 5 2 o.d.val o.a.code o.b.code o.t.code) (o.md.code * 16 + ofFlag o.nw * 8 + o.m.val) rfl ?_
  generalize packSr 5 2 o.d.val o.a.code o.b.code o.t.code = w at *
  rw [decodeWord_class5 _ _ h0 f31_28]; unfold decVFloat; rw [f27_22]
  simp (disch := omega) [decVBinR_of w o f21_16 f15_10 f9_4 f3_0, ok_bind, Nat.div_eq_of_lt, Nat.mod_eq_of_lt, wf]

theorem RoundTrip.vfma (o : VBinR) : RoundTrip.Statement (.vfma o) := by
  intro wf; simp only [Instr.wf, Bool.and_eq_true] at wf
  have := o.a.code_lt
  have := o.b.code_lt
  have := o.t.code_lt
  have := o.md.code_lt
  have := o.d.isLt
  have := o.m.isLt
  have := ofFlag_lt o.nw
  have f31_28 := sr_class 5 3 o.d.val o.a.code o.b.code o.t.code (by omega) (by omega) (by omega) (by omega) (by omega) (by omega)
  have f27_22 := sr_minor 5 3 o.d.val o.a.code o.b.code o.t.code (by omega) (by omega) (by omega) (by omega) (by omega)
  have f21_16 := sr_d 5 3 o.d.val o.a.code o.b.code o.t.code (by omega) (by omega) (by omega) (by omega)
  have f15_10 := sr_a 5 3 o.d.val o.a.code o.b.code o.t.code (by omega) (by omega) (by omega)
  have f9_4 := sr_b 5 3 o.d.val o.a.code o.b.code o.t.code (by omega) (by omega)
  have f3_0 := sr_low 5 3 o.d.val o.a.code o.b.code o.t.code (by omega)
  have h0 : packSr 5 3 o.d.val o.a.code o.b.code o.t.code ≠ 0 := by rw [ne_eq, sr_zero]; omega
  try simp only [pk8_hi, pk8_lo, pk16_hi, pk16_lo, pk8_flag, ofFlag_one, pk_loop_pre, pk_loop_stg, pk_loop_len, pk_spawn_nm, pk_spawn_core, pk_spawn_entry, pk_spawn_zero, pk_cvt_part, pk_cvt_ty, fin8_mod8, fin16_mod16] at f21_16 f15_10 f9_4 f3_0
  refine encoded_as _ (packSr 5 3 o.d.val o.a.code o.b.code o.t.code) (o.md.code * 16 + ofFlag o.nw * 8 + o.m.val) rfl ?_
  generalize packSr 5 3 o.d.val o.a.code o.b.code o.t.code = w at *
  rw [decodeWord_class5 _ _ h0 f31_28]; unfold decVFloat; rw [f27_22]
  simp (disch := omega) [decVBinR_of w o f21_16 f15_10 f9_4 f3_0, ok_bind, Nat.div_eq_of_lt, Nat.mod_eq_of_lt, wf]

theorem RoundTrip.vfms (o : VBinR) : RoundTrip.Statement (.vfms o) := by
  intro wf; simp only [Instr.wf, Bool.and_eq_true] at wf
  have := o.a.code_lt
  have := o.b.code_lt
  have := o.t.code_lt
  have := o.md.code_lt
  have := o.d.isLt
  have := o.m.isLt
  have := ofFlag_lt o.nw
  have f31_28 := sr_class 5 4 o.d.val o.a.code o.b.code o.t.code (by omega) (by omega) (by omega) (by omega) (by omega) (by omega)
  have f27_22 := sr_minor 5 4 o.d.val o.a.code o.b.code o.t.code (by omega) (by omega) (by omega) (by omega) (by omega)
  have f21_16 := sr_d 5 4 o.d.val o.a.code o.b.code o.t.code (by omega) (by omega) (by omega) (by omega)
  have f15_10 := sr_a 5 4 o.d.val o.a.code o.b.code o.t.code (by omega) (by omega) (by omega)
  have f9_4 := sr_b 5 4 o.d.val o.a.code o.b.code o.t.code (by omega) (by omega)
  have f3_0 := sr_low 5 4 o.d.val o.a.code o.b.code o.t.code (by omega)
  have h0 : packSr 5 4 o.d.val o.a.code o.b.code o.t.code ≠ 0 := by rw [ne_eq, sr_zero]; omega
  try simp only [pk8_hi, pk8_lo, pk16_hi, pk16_lo, pk8_flag, ofFlag_one, pk_loop_pre, pk_loop_stg, pk_loop_len, pk_spawn_nm, pk_spawn_core, pk_spawn_entry, pk_spawn_zero, pk_cvt_part, pk_cvt_ty, fin8_mod8, fin16_mod16] at f21_16 f15_10 f9_4 f3_0
  refine encoded_as _ (packSr 5 4 o.d.val o.a.code o.b.code o.t.code) (o.md.code * 16 + ofFlag o.nw * 8 + o.m.val) rfl ?_
  generalize packSr 5 4 o.d.val o.a.code o.b.code o.t.code = w at *
  rw [decodeWord_class5 _ _ h0 f31_28]; unfold decVFloat; rw [f27_22]
  simp (disch := omega) [decVBinR_of w o f21_16 f15_10 f9_4 f3_0, ok_bind, Nat.div_eq_of_lt, Nat.mod_eq_of_lt, wf]

theorem RoundTrip.vfnma (o : VBinR) : RoundTrip.Statement (.vfnma o) := by
  intro wf; simp only [Instr.wf, Bool.and_eq_true] at wf
  have := o.a.code_lt
  have := o.b.code_lt
  have := o.t.code_lt
  have := o.md.code_lt
  have := o.d.isLt
  have := o.m.isLt
  have := ofFlag_lt o.nw
  have f31_28 := sr_class 5 5 o.d.val o.a.code o.b.code o.t.code (by omega) (by omega) (by omega) (by omega) (by omega) (by omega)
  have f27_22 := sr_minor 5 5 o.d.val o.a.code o.b.code o.t.code (by omega) (by omega) (by omega) (by omega) (by omega)
  have f21_16 := sr_d 5 5 o.d.val o.a.code o.b.code o.t.code (by omega) (by omega) (by omega) (by omega)
  have f15_10 := sr_a 5 5 o.d.val o.a.code o.b.code o.t.code (by omega) (by omega) (by omega)
  have f9_4 := sr_b 5 5 o.d.val o.a.code o.b.code o.t.code (by omega) (by omega)
  have f3_0 := sr_low 5 5 o.d.val o.a.code o.b.code o.t.code (by omega)
  have h0 : packSr 5 5 o.d.val o.a.code o.b.code o.t.code ≠ 0 := by rw [ne_eq, sr_zero]; omega
  try simp only [pk8_hi, pk8_lo, pk16_hi, pk16_lo, pk8_flag, ofFlag_one, pk_loop_pre, pk_loop_stg, pk_loop_len, pk_spawn_nm, pk_spawn_core, pk_spawn_entry, pk_spawn_zero, pk_cvt_part, pk_cvt_ty, fin8_mod8, fin16_mod16] at f21_16 f15_10 f9_4 f3_0
  refine encoded_as _ (packSr 5 5 o.d.val o.a.code o.b.code o.t.code) (o.md.code * 16 + ofFlag o.nw * 8 + o.m.val) rfl ?_
  generalize packSr 5 5 o.d.val o.a.code o.b.code o.t.code = w at *
  rw [decodeWord_class5 _ _ h0 f31_28]; unfold decVFloat; rw [f27_22]
  simp (disch := omega) [decVBinR_of w o f21_16 f15_10 f9_4 f3_0, ok_bind, Nat.div_eq_of_lt, Nat.mod_eq_of_lt, wf]

theorem RoundTrip.vmin (o : VBin) : RoundTrip.Statement (.vmin o) := by
  intro wf; simp only [Instr.wf, Bool.and_eq_true] at wf
  have := o.a.code_lt
  have := o.b.code_lt
  have := o.t.code_lt
  have := o.d.isLt
  have := o.m.isLt
  have := ofFlag_lt o.nw
  have f31_28 := sr_class 5 6 o.d.val o.a.code o.b.code o.t.code (by omega) (by omega) (by omega) (by omega) (by omega) (by omega)
  have f27_22 := sr_minor 5 6 o.d.val o.a.code o.b.code o.t.code (by omega) (by omega) (by omega) (by omega) (by omega)
  have f21_16 := sr_d 5 6 o.d.val o.a.code o.b.code o.t.code (by omega) (by omega) (by omega) (by omega)
  have f15_10 := sr_a 5 6 o.d.val o.a.code o.b.code o.t.code (by omega) (by omega) (by omega)
  have f9_4 := sr_b 5 6 o.d.val o.a.code o.b.code o.t.code (by omega) (by omega)
  have f3_0 := sr_low 5 6 o.d.val o.a.code o.b.code o.t.code (by omega)
  have h0 : packSr 5 6 o.d.val o.a.code o.b.code o.t.code ≠ 0 := by rw [ne_eq, sr_zero]; omega
  try simp only [pk8_hi, pk8_lo, pk16_hi, pk16_lo, pk8_flag, ofFlag_one, pk_loop_pre, pk_loop_stg, pk_loop_len, pk_spawn_nm, pk_spawn_core, pk_spawn_entry, pk_spawn_zero, pk_cvt_part, pk_cvt_ty, fin8_mod8, fin16_mod16] at f21_16 f15_10 f9_4 f3_0
  refine encoded_as _ (packSr 5 6 o.d.val o.a.code o.b.code o.t.code) (ofFlag o.nw * 8 + o.m.val) rfl ?_
  generalize packSr 5 6 o.d.val o.a.code o.b.code o.t.code = w at *
  rw [decodeWord_class5 _ _ h0 f31_28]; unfold decVFloat; rw [f27_22]
  simp (disch := omega) [decVBin_of w o f21_16 f15_10 f9_4 f3_0, ok_bind, Nat.div_eq_of_lt, Nat.mod_eq_of_lt, wf]

theorem RoundTrip.vmax (o : VBin) : RoundTrip.Statement (.vmax o) := by
  intro wf; simp only [Instr.wf, Bool.and_eq_true] at wf
  have := o.a.code_lt
  have := o.b.code_lt
  have := o.t.code_lt
  have := o.d.isLt
  have := o.m.isLt
  have := ofFlag_lt o.nw
  have f31_28 := sr_class 5 7 o.d.val o.a.code o.b.code o.t.code (by omega) (by omega) (by omega) (by omega) (by omega) (by omega)
  have f27_22 := sr_minor 5 7 o.d.val o.a.code o.b.code o.t.code (by omega) (by omega) (by omega) (by omega) (by omega)
  have f21_16 := sr_d 5 7 o.d.val o.a.code o.b.code o.t.code (by omega) (by omega) (by omega) (by omega)
  have f15_10 := sr_a 5 7 o.d.val o.a.code o.b.code o.t.code (by omega) (by omega) (by omega)
  have f9_4 := sr_b 5 7 o.d.val o.a.code o.b.code o.t.code (by omega) (by omega)
  have f3_0 := sr_low 5 7 o.d.val o.a.code o.b.code o.t.code (by omega)
  have h0 : packSr 5 7 o.d.val o.a.code o.b.code o.t.code ≠ 0 := by rw [ne_eq, sr_zero]; omega
  try simp only [pk8_hi, pk8_lo, pk16_hi, pk16_lo, pk8_flag, ofFlag_one, pk_loop_pre, pk_loop_stg, pk_loop_len, pk_spawn_nm, pk_spawn_core, pk_spawn_entry, pk_spawn_zero, pk_cvt_part, pk_cvt_ty, fin8_mod8, fin16_mod16] at f21_16 f15_10 f9_4 f3_0
  refine encoded_as _ (packSr 5 7 o.d.val o.a.code o.b.code o.t.code) (ofFlag o.nw * 8 + o.m.val) rfl ?_
  generalize packSr 5 7 o.d.val o.a.code o.b.code o.t.code = w at *
  rw [decodeWord_class5 _ _ h0 f31_28]; unfold decVFloat; rw [f27_22]
  simp (disch := omega) [decVBin_of w o f21_16 f15_10 f9_4 f3_0, ok_bind, Nat.div_eq_of_lt, Nat.mod_eq_of_lt, wf]

theorem RoundTrip.vabs (o : VUn) : RoundTrip.Statement (.vabs o) := by
  intro wf; simp only [Instr.wf, Bool.and_eq_true] at wf
  have := o.a.code_lt
  have := o.t.code_lt
  have := o.d.isLt
  have := o.m.isLt
  have := ofFlag_lt o.nw
  have f31_28 := sr_class 5 8 o.d.val o.a.code 0 o.t.code (by omega) (by omega) (by omega) (by omega) (by omega) (by omega)
  have f27_22 := sr_minor 5 8 o.d.val o.a.code 0 o.t.code (by omega) (by omega) (by omega) (by omega) (by omega)
  have f21_16 := sr_d 5 8 o.d.val o.a.code 0 o.t.code (by omega) (by omega) (by omega) (by omega)
  have f15_10 := sr_a 5 8 o.d.val o.a.code 0 o.t.code (by omega) (by omega) (by omega)
  have f9_4 := sr_b 5 8 o.d.val o.a.code 0 o.t.code (by omega) (by omega)
  have f3_0 := sr_low 5 8 o.d.val o.a.code 0 o.t.code (by omega)
  have h0 : packSr 5 8 o.d.val o.a.code 0 o.t.code ≠ 0 := by rw [ne_eq, sr_zero]; omega
  try simp only [pk8_hi, pk8_lo, pk16_hi, pk16_lo, pk8_flag, ofFlag_one, pk_loop_pre, pk_loop_stg, pk_loop_len, pk_spawn_nm, pk_spawn_core, pk_spawn_entry, pk_spawn_zero, pk_cvt_part, pk_cvt_ty, fin8_mod8, fin16_mod16] at f21_16 f15_10 f9_4 f3_0
  refine encoded_as _ (packSr 5 8 o.d.val o.a.code 0 o.t.code) (ofFlag o.nw * 8 + o.m.val) rfl ?_
  generalize packSr 5 8 o.d.val o.a.code 0 o.t.code = w at *
  rw [decodeWord_class5 _ _ h0 f31_28]; unfold decVFloat; rw [f27_22]
  simp (disch := omega) [decVUn_of w o f21_16 f15_10 f9_4 f3_0, ok_bind, Nat.div_eq_of_lt, Nat.mod_eq_of_lt, wf]

theorem RoundTrip.vneg (o : VUn) : RoundTrip.Statement (.vneg o) := by
  intro wf; simp only [Instr.wf, Bool.and_eq_true] at wf
  have := o.a.code_lt
  have := o.t.code_lt
  have := o.d.isLt
  have := o.m.isLt
  have := ofFlag_lt o.nw
  have f31_28 := sr_class 5 9 o.d.val o.a.code 0 o.t.code (by omega) (by omega) (by omega) (by omega) (by omega) (by omega)
  have f27_22 := sr_minor 5 9 o.d.val o.a.code 0 o.t.code (by omega) (by omega) (by omega) (by omega) (by omega)
  have f21_16 := sr_d 5 9 o.d.val o.a.code 0 o.t.code (by omega) (by omega) (by omega) (by omega)
  have f15_10 := sr_a 5 9 o.d.val o.a.code 0 o.t.code (by omega) (by omega) (by omega)
  have f9_4 := sr_b 5 9 o.d.val o.a.code 0 o.t.code (by omega) (by omega)
  have f3_0 := sr_low 5 9 o.d.val o.a.code 0 o.t.code (by omega)
  have h0 : packSr 5 9 o.d.val o.a.code 0 o.t.code ≠ 0 := by rw [ne_eq, sr_zero]; omega
  try simp only [pk8_hi, pk8_lo, pk16_hi, pk16_lo, pk8_flag, ofFlag_one, pk_loop_pre, pk_loop_stg, pk_loop_len, pk_spawn_nm, pk_spawn_core, pk_spawn_entry, pk_spawn_zero, pk_cvt_part, pk_cvt_ty, fin8_mod8, fin16_mod16] at f21_16 f15_10 f9_4 f3_0
  refine encoded_as _ (packSr 5 9 o.d.val o.a.code 0 o.t.code) (ofFlag o.nw * 8 + o.m.val) rfl ?_
  generalize packSr 5 9 o.d.val o.a.code 0 o.t.code = w at *
  rw [decodeWord_class5 _ _ h0 f31_28]; unfold decVFloat; rw [f27_22]
  simp (disch := omega) [decVUn_of w o f21_16 f15_10 f9_4 f3_0, ok_bind, Nat.div_eq_of_lt, Nat.mod_eq_of_lt, wf]

theorem RoundTrip.vcmp (c : FCond) (t : VTy) (k : Fin 8) (a : VSrc) (b : VSrc) (m : Fin 8) (nw : Bool) : RoundTrip.Statement (.vcmp c t k a b m nw) := by
  intro wf; simp only [Instr.wf, Bool.and_eq_true] at wf
  have := a.code_lt
  have := b.code_lt
  have := t.code_lt
  have := c.code_lt
  have := k.isLt
  have := m.isLt
  have := ofFlag_lt nw
  have f31_28 := sr_class 5 10 k.val a.code b.code t.code (by omega) (by omega) (by omega) (by omega) (by omega) (by omega)
  have f27_22 := sr_minor 5 10 k.val a.code b.code t.code (by omega) (by omega) (by omega) (by omega) (by omega)
  have f21_16 := sr_d 5 10 k.val a.code b.code t.code (by omega) (by omega) (by omega) (by omega)
  have f15_10 := sr_a 5 10 k.val a.code b.code t.code (by omega) (by omega) (by omega)
  have f9_4 := sr_b 5 10 k.val a.code b.code t.code (by omega) (by omega)
  have f3_0 := sr_low 5 10 k.val a.code b.code t.code (by omega)
  have h0 : packSr 5 10 k.val a.code b.code t.code ≠ 0 := by rw [ne_eq, sr_zero]; omega
  try simp only [pk8_hi, pk8_lo, pk16_hi, pk16_lo, pk8_flag, ofFlag_one, pk_loop_pre, pk_loop_stg, pk_loop_len, pk_spawn_nm, pk_spawn_core, pk_spawn_entry, pk_spawn_zero, pk_cvt_part, pk_cvt_ty, fin8_mod8, fin16_mod16] at f21_16 f15_10 f9_4 f3_0
  refine encoded_as _ (packSr 5 10 k.val a.code b.code t.code) (c.code * 16 + ofFlag nw * 8 + m.val) rfl ?_
  generalize packSr 5 10 k.val a.code b.code t.code = w at *
  rw [decodeWord_class5 _ _ h0 f31_28]; unfold decVFloat; rw [f27_22]
  simp (disch := omega) [f21_16, f15_10, f9_4, f3_0, lend_hi, lend_lo, lend_nw, lend0_hi, lend0_lo, lend0_nw, lend1_hi, lend1_lo, lend1_nw, lend2_hi, lend2_lo, lend2_nw, pk_amo_lt, pk_amo_bit, pk_amo_ord, pk_cas_bit, pk_cas_ord, pk_cas_hi, pk_bit0, pk_bit_lt, pk_bit_le, pk_sl_lo, pk_sl_bit, pk_sl_lt, pk_seam_pred, pk_seam_sat, pk_seam_lt, pk_pred, pk_pred_ok, pk_qnt_md, pk_qnt_bit, pk_qnt_lt, ok_bind, Nat.div_eq_of_lt, Nat.mod_eq_of_lt, wf]

theorem RoundTrip.vsel (o : VBin) : RoundTrip.Statement (.vsel o) := by
  intro wf; simp only [Instr.wf, Bool.and_eq_true] at wf
  have := o.a.code_lt
  have := o.b.code_lt
  have := o.t.code_lt
  have := o.d.isLt
  have := o.m.isLt
  have := ofFlag_lt o.nw
  have f31_28 := sr_class 5 11 o.d.val o.a.code o.b.code o.t.code (by omega) (by omega) (by omega) (by omega) (by omega) (by omega)
  have f27_22 := sr_minor 5 11 o.d.val o.a.code o.b.code o.t.code (by omega) (by omega) (by omega) (by omega) (by omega)
  have f21_16 := sr_d 5 11 o.d.val o.a.code o.b.code o.t.code (by omega) (by omega) (by omega) (by omega)
  have f15_10 := sr_a 5 11 o.d.val o.a.code o.b.code o.t.code (by omega) (by omega) (by omega)
  have f9_4 := sr_b 5 11 o.d.val o.a.code o.b.code o.t.code (by omega) (by omega)
  have f3_0 := sr_low 5 11 o.d.val o.a.code o.b.code o.t.code (by omega)
  have h0 : packSr 5 11 o.d.val o.a.code o.b.code o.t.code ≠ 0 := by rw [ne_eq, sr_zero]; omega
  try simp only [pk8_hi, pk8_lo, pk16_hi, pk16_lo, pk8_flag, ofFlag_one, pk_loop_pre, pk_loop_stg, pk_loop_len, pk_spawn_nm, pk_spawn_core, pk_spawn_entry, pk_spawn_zero, pk_cvt_part, pk_cvt_ty, fin8_mod8, fin16_mod16] at f21_16 f15_10 f9_4 f3_0
  refine encoded_as _ (packSr 5 11 o.d.val o.a.code o.b.code o.t.code) (ofFlag o.nw * 8 + o.m.val) rfl ?_
  generalize packSr 5 11 o.d.val o.a.code o.b.code o.t.code = w at *
  rw [decodeWord_class5 _ _ h0 f31_28]; unfold decVFloat; rw [f27_22]
  simp (disch := omega) [decVBin_of w o f21_16 f15_10 f9_4 f3_0, ok_bind, Nat.div_eq_of_lt, Nat.mod_eq_of_lt, wf]

theorem RoundTrip.vscale (o : VBinR) : RoundTrip.Statement (.vscale o) := by
  intro wf; simp only [Instr.wf, Bool.and_eq_true] at wf
  have := o.a.code_lt
  have := o.b.code_lt
  have := o.t.code_lt
  have := o.md.code_lt
  have := o.d.isLt
  have := o.m.isLt
  have := ofFlag_lt o.nw
  have f31_28 := sr_class 5 12 o.d.val o.a.code o.b.code o.t.code (by omega) (by omega) (by omega) (by omega) (by omega) (by omega)
  have f27_22 := sr_minor 5 12 o.d.val o.a.code o.b.code o.t.code (by omega) (by omega) (by omega) (by omega) (by omega)
  have f21_16 := sr_d 5 12 o.d.val o.a.code o.b.code o.t.code (by omega) (by omega) (by omega) (by omega)
  have f15_10 := sr_a 5 12 o.d.val o.a.code o.b.code o.t.code (by omega) (by omega) (by omega)
  have f9_4 := sr_b 5 12 o.d.val o.a.code o.b.code o.t.code (by omega) (by omega)
  have f3_0 := sr_low 5 12 o.d.val o.a.code o.b.code o.t.code (by omega)
  have h0 : packSr 5 12 o.d.val o.a.code o.b.code o.t.code ≠ 0 := by rw [ne_eq, sr_zero]; omega
  try simp only [pk8_hi, pk8_lo, pk16_hi, pk16_lo, pk8_flag, ofFlag_one, pk_loop_pre, pk_loop_stg, pk_loop_len, pk_spawn_nm, pk_spawn_core, pk_spawn_entry, pk_spawn_zero, pk_cvt_part, pk_cvt_ty, fin8_mod8, fin16_mod16] at f21_16 f15_10 f9_4 f3_0
  refine encoded_as _ (packSr 5 12 o.d.val o.a.code o.b.code o.t.code) (o.md.code * 16 + ofFlag o.nw * 8 + o.m.val) rfl ?_
  generalize packSr 5 12 o.d.val o.a.code o.b.code o.t.code = w at *
  rw [decodeWord_class5 _ _ h0 f31_28]; unfold decVFloat; rw [f27_22]
  simp (disch := omega) [decVBinR_of w o f21_16 f15_10 f9_4 f3_0, ok_bind, Nat.div_eq_of_lt, Nat.mod_eq_of_lt, wf]

theorem RoundTrip.vround (o : VUnR) : RoundTrip.Statement (.vround o) := by
  intro wf; simp only [Instr.wf, Bool.and_eq_true] at wf
  have := o.a.code_lt
  have := o.t.code_lt
  have := o.md.code_lt
  have := o.d.isLt
  have := o.m.isLt
  have := ofFlag_lt o.nw
  have f31_28 := sr_class 5 13 o.d.val o.a.code 0 o.t.code (by omega) (by omega) (by omega) (by omega) (by omega) (by omega)
  have f27_22 := sr_minor 5 13 o.d.val o.a.code 0 o.t.code (by omega) (by omega) (by omega) (by omega) (by omega)
  have f21_16 := sr_d 5 13 o.d.val o.a.code 0 o.t.code (by omega) (by omega) (by omega) (by omega)
  have f15_10 := sr_a 5 13 o.d.val o.a.code 0 o.t.code (by omega) (by omega) (by omega)
  have f3_0 := sr_low 5 13 o.d.val o.a.code 0 o.t.code (by omega)
  have f9_4 := sr_b 5 13 o.d.val o.a.code 0 o.t.code (by omega) (by omega)
  have h0 : packSr 5 13 o.d.val o.a.code 0 o.t.code ≠ 0 := by rw [ne_eq, sr_zero]; omega
  try simp only [pk8_hi, pk8_lo, pk16_hi, pk16_lo, pk8_flag, ofFlag_one, pk_loop_pre, pk_loop_stg, pk_loop_len, pk_spawn_nm, pk_spawn_core, pk_spawn_entry, pk_spawn_zero, pk_cvt_part, pk_cvt_ty, fin8_mod8, fin16_mod16] at f21_16 f15_10 f3_0 f9_4
  refine encoded_as _ (packSr 5 13 o.d.val o.a.code 0 o.t.code) (o.md.code * 16 + ofFlag o.nw * 8 + o.m.val) rfl ?_
  generalize packSr 5 13 o.d.val o.a.code 0 o.t.code = w at *
  rw [decodeWord_class5 _ _ h0 f31_28]; unfold decVFloat; rw [f27_22]
  simp (disch := omega) [decVUnR_of w o f21_16 f15_10 f3_0, f9_4, ok_bind, Nat.div_eq_of_lt, Nat.mod_eq_of_lt, wf]

theorem RoundTrip.vclass (o : VUn) : RoundTrip.Statement (.vclass o) := by
  intro wf; simp only [Instr.wf, Bool.and_eq_true] at wf
  have := o.a.code_lt
  have := o.t.code_lt
  have := o.d.isLt
  have := o.m.isLt
  have := ofFlag_lt o.nw
  have f31_28 := sr_class 5 14 o.d.val o.a.code 0 o.t.code (by omega) (by omega) (by omega) (by omega) (by omega) (by omega)
  have f27_22 := sr_minor 5 14 o.d.val o.a.code 0 o.t.code (by omega) (by omega) (by omega) (by omega) (by omega)
  have f21_16 := sr_d 5 14 o.d.val o.a.code 0 o.t.code (by omega) (by omega) (by omega) (by omega)
  have f15_10 := sr_a 5 14 o.d.val o.a.code 0 o.t.code (by omega) (by omega) (by omega)
  have f9_4 := sr_b 5 14 o.d.val o.a.code 0 o.t.code (by omega) (by omega)
  have f3_0 := sr_low 5 14 o.d.val o.a.code 0 o.t.code (by omega)
  have h0 : packSr 5 14 o.d.val o.a.code 0 o.t.code ≠ 0 := by rw [ne_eq, sr_zero]; omega
  try simp only [pk8_hi, pk8_lo, pk16_hi, pk16_lo, pk8_flag, ofFlag_one, pk_loop_pre, pk_loop_stg, pk_loop_len, pk_spawn_nm, pk_spawn_core, pk_spawn_entry, pk_spawn_zero, pk_cvt_part, pk_cvt_ty, fin8_mod8, fin16_mod16] at f21_16 f15_10 f9_4 f3_0
  refine encoded_as _ (packSr 5 14 o.d.val o.a.code 0 o.t.code) (ofFlag o.nw * 8 + o.m.val) rfl ?_
  generalize packSr 5 14 o.d.val o.a.code 0 o.t.code = w at *
  rw [decodeWord_class5 _ _ h0 f31_28]; unfold decVFloat; rw [f27_22]
  simp (disch := omega) [decVUn_of w o f21_16 f15_10 f9_4 f3_0, ok_bind, Nat.div_eq_of_lt, Nat.mod_eq_of_lt, wf]

theorem RoundTrip.viadd (o : VBinS) : RoundTrip.Statement (.viadd o) := by
  intro wf; simp only [Instr.wf, Bool.and_eq_true] at wf
  have := o.a.code_lt
  have := o.b.code_lt
  have := o.t.code_lt
  have := o.d.isLt
  have := o.m.isLt
  have := ofFlag_lt o.sat
  have := ofFlag_lt o.nw
  have f31_28 := sr_class 6 0 o.d.val o.a.code o.b.code o.t.code (by omega) (by omega) (by omega) (by omega) (by omega) (by omega)
  have f27_22 := sr_minor 6 0 o.d.val o.a.code o.b.code o.t.code (by omega) (by omega) (by omega) (by omega) (by omega)
  have f21_16 := sr_d 6 0 o.d.val o.a.code o.b.code o.t.code (by omega) (by omega) (by omega) (by omega)
  have f15_10 := sr_a 6 0 o.d.val o.a.code o.b.code o.t.code (by omega) (by omega) (by omega)
  have f9_4 := sr_b 6 0 o.d.val o.a.code o.b.code o.t.code (by omega) (by omega)
  have f3_0 := sr_low 6 0 o.d.val o.a.code o.b.code o.t.code (by omega)
  have h0 : packSr 6 0 o.d.val o.a.code o.b.code o.t.code ≠ 0 := by rw [ne_eq, sr_zero]; omega
  try simp only [pk8_hi, pk8_lo, pk16_hi, pk16_lo, pk8_flag, ofFlag_one, pk_loop_pre, pk_loop_stg, pk_loop_len, pk_spawn_nm, pk_spawn_core, pk_spawn_entry, pk_spawn_zero, pk_cvt_part, pk_cvt_ty, fin8_mod8, fin16_mod16] at f21_16 f15_10 f9_4 f3_0
  refine encoded_as _ (packSr 6 0 o.d.val o.a.code o.b.code o.t.code) (ofFlag o.sat * 16 + ofFlag o.nw * 8 + o.m.val) rfl ?_
  generalize packSr 6 0 o.d.val o.a.code o.b.code o.t.code = w at *
  rw [decodeWord_class6 _ _ h0 f31_28]; unfold decVInt; rw [f27_22]
  simp (disch := omega) [decVBinS_of w o f21_16 f15_10 f9_4 f3_0, ok_bind, Nat.div_eq_of_lt, Nat.mod_eq_of_lt, wf]

theorem RoundTrip.visub (o : VBinS) : RoundTrip.Statement (.visub o) := by
  intro wf; simp only [Instr.wf, Bool.and_eq_true] at wf
  have := o.a.code_lt
  have := o.b.code_lt
  have := o.t.code_lt
  have := o.d.isLt
  have := o.m.isLt
  have := ofFlag_lt o.sat
  have := ofFlag_lt o.nw
  have f31_28 := sr_class 6 1 o.d.val o.a.code o.b.code o.t.code (by omega) (by omega) (by omega) (by omega) (by omega) (by omega)
  have f27_22 := sr_minor 6 1 o.d.val o.a.code o.b.code o.t.code (by omega) (by omega) (by omega) (by omega) (by omega)
  have f21_16 := sr_d 6 1 o.d.val o.a.code o.b.code o.t.code (by omega) (by omega) (by omega) (by omega)
  have f15_10 := sr_a 6 1 o.d.val o.a.code o.b.code o.t.code (by omega) (by omega) (by omega)
  have f9_4 := sr_b 6 1 o.d.val o.a.code o.b.code o.t.code (by omega) (by omega)
  have f3_0 := sr_low 6 1 o.d.val o.a.code o.b.code o.t.code (by omega)
  have h0 : packSr 6 1 o.d.val o.a.code o.b.code o.t.code ≠ 0 := by rw [ne_eq, sr_zero]; omega
  try simp only [pk8_hi, pk8_lo, pk16_hi, pk16_lo, pk8_flag, ofFlag_one, pk_loop_pre, pk_loop_stg, pk_loop_len, pk_spawn_nm, pk_spawn_core, pk_spawn_entry, pk_spawn_zero, pk_cvt_part, pk_cvt_ty, fin8_mod8, fin16_mod16] at f21_16 f15_10 f9_4 f3_0
  refine encoded_as _ (packSr 6 1 o.d.val o.a.code o.b.code o.t.code) (ofFlag o.sat * 16 + ofFlag o.nw * 8 + o.m.val) rfl ?_
  generalize packSr 6 1 o.d.val o.a.code o.b.code o.t.code = w at *
  rw [decodeWord_class6 _ _ h0 f31_28]; unfold decVInt; rw [f27_22]
  simp (disch := omega) [decVBinS_of w o f21_16 f15_10 f9_4 f3_0, ok_bind, Nat.div_eq_of_lt, Nat.mod_eq_of_lt, wf]

theorem RoundTrip.vimul (o : VBin) : RoundTrip.Statement (.vimul o) := by
  intro wf; simp only [Instr.wf, Bool.and_eq_true] at wf
  have := o.a.code_lt
  have := o.b.code_lt
  have := o.t.code_lt
  have := o.d.isLt
  have := o.m.isLt
  have := ofFlag_lt o.nw
  have f31_28 := sr_class 6 2 o.d.val o.a.code o.b.code o.t.code (by omega) (by omega) (by omega) (by omega) (by omega) (by omega)
  have f27_22 := sr_minor 6 2 o.d.val o.a.code o.b.code o.t.code (by omega) (by omega) (by omega) (by omega) (by omega)
  have f21_16 := sr_d 6 2 o.d.val o.a.code o.b.code o.t.code (by omega) (by omega) (by omega) (by omega)
  have f15_10 := sr_a 6 2 o.d.val o.a.code o.b.code o.t.code (by omega) (by omega) (by omega)
  have f9_4 := sr_b 6 2 o.d.val o.a.code o.b.code o.t.code (by omega) (by omega)
  have f3_0 := sr_low 6 2 o.d.val o.a.code o.b.code o.t.code (by omega)
  have h0 : packSr 6 2 o.d.val o.a.code o.b.code o.t.code ≠ 0 := by rw [ne_eq, sr_zero]; omega
  try simp only [pk8_hi, pk8_lo, pk16_hi, pk16_lo, pk8_flag, ofFlag_one, pk_loop_pre, pk_loop_stg, pk_loop_len, pk_spawn_nm, pk_spawn_core, pk_spawn_entry, pk_spawn_zero, pk_cvt_part, pk_cvt_ty, fin8_mod8, fin16_mod16] at f21_16 f15_10 f9_4 f3_0
  refine encoded_as _ (packSr 6 2 o.d.val o.a.code o.b.code o.t.code) (ofFlag o.nw * 8 + o.m.val) rfl ?_
  generalize packSr 6 2 o.d.val o.a.code o.b.code o.t.code = w at *
  rw [decodeWord_class6 _ _ h0 f31_28]; unfold decVInt; rw [f27_22]
  simp (disch := omega) [decVBin_of w o f21_16 f15_10 f9_4 f3_0, ok_bind, Nat.div_eq_of_lt, Nat.mod_eq_of_lt, wf]

theorem RoundTrip.vimulh (o : VBin) : RoundTrip.Statement (.vimulh o) := by
  intro wf; simp only [Instr.wf, Bool.and_eq_true] at wf
  have := o.a.code_lt
  have := o.b.code_lt
  have := o.t.code_lt
  have := o.d.isLt
  have := o.m.isLt
  have := ofFlag_lt o.nw
  have f31_28 := sr_class 6 3 o.d.val o.a.code o.b.code o.t.code (by omega) (by omega) (by omega) (by omega) (by omega) (by omega)
  have f27_22 := sr_minor 6 3 o.d.val o.a.code o.b.code o.t.code (by omega) (by omega) (by omega) (by omega) (by omega)
  have f21_16 := sr_d 6 3 o.d.val o.a.code o.b.code o.t.code (by omega) (by omega) (by omega) (by omega)
  have f15_10 := sr_a 6 3 o.d.val o.a.code o.b.code o.t.code (by omega) (by omega) (by omega)
  have f9_4 := sr_b 6 3 o.d.val o.a.code o.b.code o.t.code (by omega) (by omega)
  have f3_0 := sr_low 6 3 o.d.val o.a.code o.b.code o.t.code (by omega)
  have h0 : packSr 6 3 o.d.val o.a.code o.b.code o.t.code ≠ 0 := by rw [ne_eq, sr_zero]; omega
  try simp only [pk8_hi, pk8_lo, pk16_hi, pk16_lo, pk8_flag, ofFlag_one, pk_loop_pre, pk_loop_stg, pk_loop_len, pk_spawn_nm, pk_spawn_core, pk_spawn_entry, pk_spawn_zero, pk_cvt_part, pk_cvt_ty, fin8_mod8, fin16_mod16] at f21_16 f15_10 f9_4 f3_0
  refine encoded_as _ (packSr 6 3 o.d.val o.a.code o.b.code o.t.code) (ofFlag o.nw * 8 + o.m.val) rfl ?_
  generalize packSr 6 3 o.d.val o.a.code o.b.code o.t.code = w at *
  rw [decodeWord_class6 _ _ h0 f31_28]; unfold decVInt; rw [f27_22]
  simp (disch := omega) [decVBin_of w o f21_16 f15_10 f9_4 f3_0, ok_bind, Nat.div_eq_of_lt, Nat.mod_eq_of_lt, wf]

theorem RoundTrip.vand (o : VBin) : RoundTrip.Statement (.vand o) := by
  intro wf; simp only [Instr.wf, Bool.and_eq_true] at wf
  have := o.a.code_lt
  have := o.b.code_lt
  have := o.t.code_lt
  have := o.d.isLt
  have := o.m.isLt
  have := ofFlag_lt o.nw
  have f31_28 := sr_class 6 4 o.d.val o.a.code o.b.code o.t.code (by omega) (by omega) (by omega) (by omega) (by omega) (by omega)
  have f27_22 := sr_minor 6 4 o.d.val o.a.code o.b.code o.t.code (by omega) (by omega) (by omega) (by omega) (by omega)
  have f21_16 := sr_d 6 4 o.d.val o.a.code o.b.code o.t.code (by omega) (by omega) (by omega) (by omega)
  have f15_10 := sr_a 6 4 o.d.val o.a.code o.b.code o.t.code (by omega) (by omega) (by omega)
  have f9_4 := sr_b 6 4 o.d.val o.a.code o.b.code o.t.code (by omega) (by omega)
  have f3_0 := sr_low 6 4 o.d.val o.a.code o.b.code o.t.code (by omega)
  have h0 : packSr 6 4 o.d.val o.a.code o.b.code o.t.code ≠ 0 := by rw [ne_eq, sr_zero]; omega
  try simp only [pk8_hi, pk8_lo, pk16_hi, pk16_lo, pk8_flag, ofFlag_one, pk_loop_pre, pk_loop_stg, pk_loop_len, pk_spawn_nm, pk_spawn_core, pk_spawn_entry, pk_spawn_zero, pk_cvt_part, pk_cvt_ty, fin8_mod8, fin16_mod16] at f21_16 f15_10 f9_4 f3_0
  refine encoded_as _ (packSr 6 4 o.d.val o.a.code o.b.code o.t.code) (ofFlag o.nw * 8 + o.m.val) rfl ?_
  generalize packSr 6 4 o.d.val o.a.code o.b.code o.t.code = w at *
  rw [decodeWord_class6 _ _ h0 f31_28]; unfold decVInt; rw [f27_22]
  simp (disch := omega) [decVBin_of w o f21_16 f15_10 f9_4 f3_0, ok_bind, Nat.div_eq_of_lt, Nat.mod_eq_of_lt, wf]

theorem RoundTrip.vor (o : VBin) : RoundTrip.Statement (.vor o) := by
  intro wf; simp only [Instr.wf, Bool.and_eq_true] at wf
  have := o.a.code_lt
  have := o.b.code_lt
  have := o.t.code_lt
  have := o.d.isLt
  have := o.m.isLt
  have := ofFlag_lt o.nw
  have f31_28 := sr_class 6 5 o.d.val o.a.code o.b.code o.t.code (by omega) (by omega) (by omega) (by omega) (by omega) (by omega)
  have f27_22 := sr_minor 6 5 o.d.val o.a.code o.b.code o.t.code (by omega) (by omega) (by omega) (by omega) (by omega)
  have f21_16 := sr_d 6 5 o.d.val o.a.code o.b.code o.t.code (by omega) (by omega) (by omega) (by omega)
  have f15_10 := sr_a 6 5 o.d.val o.a.code o.b.code o.t.code (by omega) (by omega) (by omega)
  have f9_4 := sr_b 6 5 o.d.val o.a.code o.b.code o.t.code (by omega) (by omega)
  have f3_0 := sr_low 6 5 o.d.val o.a.code o.b.code o.t.code (by omega)
  have h0 : packSr 6 5 o.d.val o.a.code o.b.code o.t.code ≠ 0 := by rw [ne_eq, sr_zero]; omega
  try simp only [pk8_hi, pk8_lo, pk16_hi, pk16_lo, pk8_flag, ofFlag_one, pk_loop_pre, pk_loop_stg, pk_loop_len, pk_spawn_nm, pk_spawn_core, pk_spawn_entry, pk_spawn_zero, pk_cvt_part, pk_cvt_ty, fin8_mod8, fin16_mod16] at f21_16 f15_10 f9_4 f3_0
  refine encoded_as _ (packSr 6 5 o.d.val o.a.code o.b.code o.t.code) (ofFlag o.nw * 8 + o.m.val) rfl ?_
  generalize packSr 6 5 o.d.val o.a.code o.b.code o.t.code = w at *
  rw [decodeWord_class6 _ _ h0 f31_28]; unfold decVInt; rw [f27_22]
  simp (disch := omega) [decVBin_of w o f21_16 f15_10 f9_4 f3_0, ok_bind, Nat.div_eq_of_lt, Nat.mod_eq_of_lt, wf]

theorem RoundTrip.vxor (o : VBin) : RoundTrip.Statement (.vxor o) := by
  intro wf; simp only [Instr.wf, Bool.and_eq_true] at wf
  have := o.a.code_lt
  have := o.b.code_lt
  have := o.t.code_lt
  have := o.d.isLt
  have := o.m.isLt
  have := ofFlag_lt o.nw
  have f31_28 := sr_class 6 6 o.d.val o.a.code o.b.code o.t.code (by omega) (by omega) (by omega) (by omega) (by omega) (by omega)
  have f27_22 := sr_minor 6 6 o.d.val o.a.code o.b.code o.t.code (by omega) (by omega) (by omega) (by omega) (by omega)
  have f21_16 := sr_d 6 6 o.d.val o.a.code o.b.code o.t.code (by omega) (by omega) (by omega) (by omega)
  have f15_10 := sr_a 6 6 o.d.val o.a.code o.b.code o.t.code (by omega) (by omega) (by omega)
  have f9_4 := sr_b 6 6 o.d.val o.a.code o.b.code o.t.code (by omega) (by omega)
  have f3_0 := sr_low 6 6 o.d.val o.a.code o.b.code o.t.code (by omega)
  have h0 : packSr 6 6 o.d.val o.a.code o.b.code o.t.code ≠ 0 := by rw [ne_eq, sr_zero]; omega
  try simp only [pk8_hi, pk8_lo, pk16_hi, pk16_lo, pk8_flag, ofFlag_one, pk_loop_pre, pk_loop_stg, pk_loop_len, pk_spawn_nm, pk_spawn_core, pk_spawn_entry, pk_spawn_zero, pk_cvt_part, pk_cvt_ty, fin8_mod8, fin16_mod16] at f21_16 f15_10 f9_4 f3_0
  refine encoded_as _ (packSr 6 6 o.d.val o.a.code o.b.code o.t.code) (ofFlag o.nw * 8 + o.m.val) rfl ?_
  generalize packSr 6 6 o.d.val o.a.code o.b.code o.t.code = w at *
  rw [decodeWord_class6 _ _ h0 f31_28]; unfold decVInt; rw [f27_22]
  simp (disch := omega) [decVBin_of w o f21_16 f15_10 f9_4 f3_0, ok_bind, Nat.div_eq_of_lt, Nat.mod_eq_of_lt, wf]

theorem RoundTrip.vshl (o : VBin) : RoundTrip.Statement (.vshl o) := by
  intro wf; simp only [Instr.wf, Bool.and_eq_true] at wf
  have := o.a.code_lt
  have := o.b.code_lt
  have := o.t.code_lt
  have := o.d.isLt
  have := o.m.isLt
  have := ofFlag_lt o.nw
  have f31_28 := sr_class 6 7 o.d.val o.a.code o.b.code o.t.code (by omega) (by omega) (by omega) (by omega) (by omega) (by omega)
  have f27_22 := sr_minor 6 7 o.d.val o.a.code o.b.code o.t.code (by omega) (by omega) (by omega) (by omega) (by omega)
  have f21_16 := sr_d 6 7 o.d.val o.a.code o.b.code o.t.code (by omega) (by omega) (by omega) (by omega)
  have f15_10 := sr_a 6 7 o.d.val o.a.code o.b.code o.t.code (by omega) (by omega) (by omega)
  have f9_4 := sr_b 6 7 o.d.val o.a.code o.b.code o.t.code (by omega) (by omega)
  have f3_0 := sr_low 6 7 o.d.val o.a.code o.b.code o.t.code (by omega)
  have h0 : packSr 6 7 o.d.val o.a.code o.b.code o.t.code ≠ 0 := by rw [ne_eq, sr_zero]; omega
  try simp only [pk8_hi, pk8_lo, pk16_hi, pk16_lo, pk8_flag, ofFlag_one, pk_loop_pre, pk_loop_stg, pk_loop_len, pk_spawn_nm, pk_spawn_core, pk_spawn_entry, pk_spawn_zero, pk_cvt_part, pk_cvt_ty, fin8_mod8, fin16_mod16] at f21_16 f15_10 f9_4 f3_0
  refine encoded_as _ (packSr 6 7 o.d.val o.a.code o.b.code o.t.code) (ofFlag o.nw * 8 + o.m.val) rfl ?_
  generalize packSr 6 7 o.d.val o.a.code o.b.code o.t.code = w at *
  rw [decodeWord_class6 _ _ h0 f31_28]; unfold decVInt; rw [f27_22]
  simp (disch := omega) [decVBin_of w o f21_16 f15_10 f9_4 f3_0, ok_bind, Nat.div_eq_of_lt, Nat.mod_eq_of_lt, wf]

theorem RoundTrip.vshr (o : VBin) : RoundTrip.Statement (.vshr o) := by
  intro wf; simp only [Instr.wf, Bool.and_eq_true] at wf
  have := o.a.code_lt
  have := o.b.code_lt
  have := o.t.code_lt
  have := o.d.isLt
  have := o.m.isLt
  have := ofFlag_lt o.nw
  have f31_28 := sr_class 6 8 o.d.val o.a.code o.b.code o.t.code (by omega) (by omega) (by omega) (by omega) (by omega) (by omega)
  have f27_22 := sr_minor 6 8 o.d.val o.a.code o.b.code o.t.code (by omega) (by omega) (by omega) (by omega) (by omega)
  have f21_16 := sr_d 6 8 o.d.val o.a.code o.b.code o.t.code (by omega) (by omega) (by omega) (by omega)
  have f15_10 := sr_a 6 8 o.d.val o.a.code o.b.code o.t.code (by omega) (by omega) (by omega)
  have f9_4 := sr_b 6 8 o.d.val o.a.code o.b.code o.t.code (by omega) (by omega)
  have f3_0 := sr_low 6 8 o.d.val o.a.code o.b.code o.t.code (by omega)
  have h0 : packSr 6 8 o.d.val o.a.code o.b.code o.t.code ≠ 0 := by rw [ne_eq, sr_zero]; omega
  try simp only [pk8_hi, pk8_lo, pk16_hi, pk16_lo, pk8_flag, ofFlag_one, pk_loop_pre, pk_loop_stg, pk_loop_len, pk_spawn_nm, pk_spawn_core, pk_spawn_entry, pk_spawn_zero, pk_cvt_part, pk_cvt_ty, fin8_mod8, fin16_mod16] at f21_16 f15_10 f9_4 f3_0
  refine encoded_as _ (packSr 6 8 o.d.val o.a.code o.b.code o.t.code) (ofFlag o.nw * 8 + o.m.val) rfl ?_
  generalize packSr 6 8 o.d.val o.a.code o.b.code o.t.code = w at *
  rw [decodeWord_class6 _ _ h0 f31_28]; unfold decVInt; rw [f27_22]
  simp (disch := omega) [decVBin_of w o f21_16 f15_10 f9_4 f3_0, ok_bind, Nat.div_eq_of_lt, Nat.mod_eq_of_lt, wf]

theorem RoundTrip.vsra (o : VBin) : RoundTrip.Statement (.vsra o) := by
  intro wf; simp only [Instr.wf, Bool.and_eq_true] at wf
  have := o.a.code_lt
  have := o.b.code_lt
  have := o.t.code_lt
  have := o.d.isLt
  have := o.m.isLt
  have := ofFlag_lt o.nw
  have f31_28 := sr_class 6 9 o.d.val o.a.code o.b.code o.t.code (by omega) (by omega) (by omega) (by omega) (by omega) (by omega)
  have f27_22 := sr_minor 6 9 o.d.val o.a.code o.b.code o.t.code (by omega) (by omega) (by omega) (by omega) (by omega)
  have f21_16 := sr_d 6 9 o.d.val o.a.code o.b.code o.t.code (by omega) (by omega) (by omega) (by omega)
  have f15_10 := sr_a 6 9 o.d.val o.a.code o.b.code o.t.code (by omega) (by omega) (by omega)
  have f9_4 := sr_b 6 9 o.d.val o.a.code o.b.code o.t.code (by omega) (by omega)
  have f3_0 := sr_low 6 9 o.d.val o.a.code o.b.code o.t.code (by omega)
  have h0 : packSr 6 9 o.d.val o.a.code o.b.code o.t.code ≠ 0 := by rw [ne_eq, sr_zero]; omega
  try simp only [pk8_hi, pk8_lo, pk16_hi, pk16_lo, pk8_flag, ofFlag_one, pk_loop_pre, pk_loop_stg, pk_loop_len, pk_spawn_nm, pk_spawn_core, pk_spawn_entry, pk_spawn_zero, pk_cvt_part, pk_cvt_ty, fin8_mod8, fin16_mod16] at f21_16 f15_10 f9_4 f3_0
  refine encoded_as _ (packSr 6 9 o.d.val o.a.code o.b.code o.t.code) (ofFlag o.nw * 8 + o.m.val) rfl ?_
  generalize packSr 6 9 o.d.val o.a.code o.b.code o.t.code = w at *
  rw [decodeWord_class6 _ _ h0 f31_28]; unfold decVInt; rw [f27_22]
  simp (disch := omega) [decVBin_of w o f21_16 f15_10 f9_4 f3_0, ok_bind, Nat.div_eq_of_lt, Nat.mod_eq_of_lt, wf]

theorem RoundTrip.vimin (o : VBin) : RoundTrip.Statement (.vimin o) := by
  intro wf; simp only [Instr.wf, Bool.and_eq_true] at wf
  have := o.a.code_lt
  have := o.b.code_lt
  have := o.t.code_lt
  have := o.d.isLt
  have := o.m.isLt
  have := ofFlag_lt o.nw
  have f31_28 := sr_class 6 10 o.d.val o.a.code o.b.code o.t.code (by omega) (by omega) (by omega) (by omega) (by omega) (by omega)
  have f27_22 := sr_minor 6 10 o.d.val o.a.code o.b.code o.t.code (by omega) (by omega) (by omega) (by omega) (by omega)
  have f21_16 := sr_d 6 10 o.d.val o.a.code o.b.code o.t.code (by omega) (by omega) (by omega) (by omega)
  have f15_10 := sr_a 6 10 o.d.val o.a.code o.b.code o.t.code (by omega) (by omega) (by omega)
  have f9_4 := sr_b 6 10 o.d.val o.a.code o.b.code o.t.code (by omega) (by omega)
  have f3_0 := sr_low 6 10 o.d.val o.a.code o.b.code o.t.code (by omega)
  have h0 : packSr 6 10 o.d.val o.a.code o.b.code o.t.code ≠ 0 := by rw [ne_eq, sr_zero]; omega
  try simp only [pk8_hi, pk8_lo, pk16_hi, pk16_lo, pk8_flag, ofFlag_one, pk_loop_pre, pk_loop_stg, pk_loop_len, pk_spawn_nm, pk_spawn_core, pk_spawn_entry, pk_spawn_zero, pk_cvt_part, pk_cvt_ty, fin8_mod8, fin16_mod16] at f21_16 f15_10 f9_4 f3_0
  refine encoded_as _ (packSr 6 10 o.d.val o.a.code o.b.code o.t.code) (ofFlag o.nw * 8 + o.m.val) rfl ?_
  generalize packSr 6 10 o.d.val o.a.code o.b.code o.t.code = w at *
  rw [decodeWord_class6 _ _ h0 f31_28]; unfold decVInt; rw [f27_22]
  simp (disch := omega) [decVBin_of w o f21_16 f15_10 f9_4 f3_0, ok_bind, Nat.div_eq_of_lt, Nat.mod_eq_of_lt, wf]

theorem RoundTrip.vimax (o : VBin) : RoundTrip.Statement (.vimax o) := by
  intro wf; simp only [Instr.wf, Bool.and_eq_true] at wf
  have := o.a.code_lt
  have := o.b.code_lt
  have := o.t.code_lt
  have := o.d.isLt
  have := o.m.isLt
  have := ofFlag_lt o.nw
  have f31_28 := sr_class 6 11 o.d.val o.a.code o.b.code o.t.code (by omega) (by omega) (by omega) (by omega) (by omega) (by omega)
  have f27_22 := sr_minor 6 11 o.d.val o.a.code o.b.code o.t.code (by omega) (by omega) (by omega) (by omega) (by omega)
  have f21_16 := sr_d 6 11 o.d.val o.a.code o.b.code o.t.code (by omega) (by omega) (by omega) (by omega)
  have f15_10 := sr_a 6 11 o.d.val o.a.code o.b.code o.t.code (by omega) (by omega) (by omega)
  have f9_4 := sr_b 6 11 o.d.val o.a.code o.b.code o.t.code (by omega) (by omega)
  have f3_0 := sr_low 6 11 o.d.val o.a.code o.b.code o.t.code (by omega)
  have h0 : packSr 6 11 o.d.val o.a.code o.b.code o.t.code ≠ 0 := by rw [ne_eq, sr_zero]; omega
  try simp only [pk8_hi, pk8_lo, pk16_hi, pk16_lo, pk8_flag, ofFlag_one, pk_loop_pre, pk_loop_stg, pk_loop_len, pk_spawn_nm, pk_spawn_core, pk_spawn_entry, pk_spawn_zero, pk_cvt_part, pk_cvt_ty, fin8_mod8, fin16_mod16] at f21_16 f15_10 f9_4 f3_0
  refine encoded_as _ (packSr 6 11 o.d.val o.a.code o.b.code o.t.code) (ofFlag o.nw * 8 + o.m.val) rfl ?_
  generalize packSr 6 11 o.d.val o.a.code o.b.code o.t.code = w at *
  rw [decodeWord_class6 _ _ h0 f31_28]; unfold decVInt; rw [f27_22]
  simp (disch := omega) [decVBin_of w o f21_16 f15_10 f9_4 f3_0, ok_bind, Nat.div_eq_of_lt, Nat.mod_eq_of_lt, wf]

theorem RoundTrip.vicmp (c : ICond) (t : VTy) (k : Fin 8) (a : VSrc) (b : VSrc) (m : Fin 8) (nw : Bool) : RoundTrip.Statement (.vicmp c t k a b m nw) := by
  intro wf; simp only [Instr.wf, Bool.and_eq_true] at wf
  have := a.code_lt
  have := b.code_lt
  have := t.code_lt
  have := c.code_lt
  have := k.isLt
  have := m.isLt
  have := ofFlag_lt nw
  have f31_28 := sr_class 6 12 k.val a.code b.code t.code (by omega) (by omega) (by omega) (by omega) (by omega) (by omega)
  have f27_22 := sr_minor 6 12 k.val a.code b.code t.code (by omega) (by omega) (by omega) (by omega) (by omega)
  have f21_16 := sr_d 6 12 k.val a.code b.code t.code (by omega) (by omega) (by omega) (by omega)
  have f15_10 := sr_a 6 12 k.val a.code b.code t.code (by omega) (by omega) (by omega)
  have f9_4 := sr_b 6 12 k.val a.code b.code t.code (by omega) (by omega)
  have f3_0 := sr_low 6 12 k.val a.code b.code t.code (by omega)
  have h0 : packSr 6 12 k.val a.code b.code t.code ≠ 0 := by rw [ne_eq, sr_zero]; omega
  try simp only [pk8_hi, pk8_lo, pk16_hi, pk16_lo, pk8_flag, ofFlag_one, pk_loop_pre, pk_loop_stg, pk_loop_len, pk_spawn_nm, pk_spawn_core, pk_spawn_entry, pk_spawn_zero, pk_cvt_part, pk_cvt_ty, fin8_mod8, fin16_mod16] at f21_16 f15_10 f9_4 f3_0
  refine encoded_as _ (packSr 6 12 k.val a.code b.code t.code) (c.code * 16 + ofFlag nw * 8 + m.val) rfl ?_
  generalize packSr 6 12 k.val a.code b.code t.code = w at *
  rw [decodeWord_class6 _ _ h0 f31_28]; unfold decVInt; rw [f27_22]
  simp (disch := omega) [f21_16, f15_10, f9_4, f3_0, lend_hi, lend_lo, lend_nw, lend0_hi, lend0_lo, lend0_nw, lend1_hi, lend1_lo, lend1_nw, lend2_hi, lend2_lo, lend2_nw, pk_amo_lt, pk_amo_bit, pk_amo_ord, pk_cas_bit, pk_cas_ord, pk_cas_hi, pk_bit0, pk_bit_lt, pk_bit_le, pk_sl_lo, pk_sl_bit, pk_sl_lt, pk_seam_pred, pk_seam_sat, pk_seam_lt, pk_pred, pk_pred_ok, pk_qnt_md, pk_qnt_bit, pk_qnt_lt, ok_bind, Nat.div_eq_of_lt, Nat.mod_eq_of_lt, wf]

theorem RoundTrip.vcvt (o : VUnR) (ts : VTy) (p : Fin 4) : RoundTrip.Statement (.vcvt o ts p) := by
  intro wf; simp only [Instr.wf, Bool.and_eq_true] at wf
  have := o.a.code_lt
  have := ts.code_lt
  have := o.t.code_lt
  have := o.md.code_lt
  have := o.d.isLt
  have := p.isLt
  have := o.m.isLt
  have := ofFlag_lt o.nw
  have f31_28 := sr_class 6 13 o.d.val o.a.code (p.val * 16 + ts.code) o.t.code (by omega) (by omega) (by omega) (by omega) (by omega) (by omega)
  have f27_22 := sr_minor 6 13 o.d.val o.a.code (p.val * 16 + ts.code) o.t.code (by omega) (by omega) (by omega) (by omega) (by omega)
  have f21_16 := sr_d 6 13 o.d.val o.a.code (p.val * 16 + ts.code) o.t.code (by omega) (by omega) (by omega) (by omega)
  have f15_10 := sr_a 6 13 o.d.val o.a.code (p.val * 16 + ts.code) o.t.code (by omega) (by omega) (by omega)
  have f3_0 := sr_low 6 13 o.d.val o.a.code (p.val * 16 + ts.code) o.t.code (by omega)
  have f7_4 := sr_b7 6 13 o.d.val o.a.code (p.val * 16 + ts.code) o.t.code (by omega)
  have f9_8 := sr_b8 6 13 o.d.val o.a.code (p.val * 16 + ts.code) o.t.code (by omega) (by omega)
  have h0 : packSr 6 13 o.d.val o.a.code (p.val * 16 + ts.code) o.t.code ≠ 0 := by rw [ne_eq, sr_zero]; omega
  try simp only [pk8_hi, pk8_lo, pk16_hi, pk16_lo, pk8_flag, ofFlag_one, pk_loop_pre, pk_loop_stg, pk_loop_len, pk_spawn_nm, pk_spawn_core, pk_spawn_entry, pk_spawn_zero, pk_cvt_part, pk_cvt_ty, fin8_mod8, fin16_mod16] at f21_16 f15_10 f3_0 f7_4 f9_8
  refine encoded_as _ (packSr 6 13 o.d.val o.a.code (p.val * 16 + ts.code) o.t.code) (o.md.code * 16 + ofFlag o.nw * 8 + o.m.val) rfl ?_
  generalize packSr 6 13 o.d.val o.a.code (p.val * 16 + ts.code) o.t.code = w at *
  rw [decodeWord_class6 _ _ h0 f31_28]; unfold decVInt; rw [f27_22]
  simp (disch := omega) [decVUnR_of w o f21_16 f15_10 f3_0, f7_4, f9_8, ok_bind, Nat.div_eq_of_lt, Nat.mod_eq_of_lt, wf]

theorem RoundTrip.vbcast (t : VTy) (d : Fin 32) (a : SSrc) (m : Fin 8) (nw : Bool) : RoundTrip.Statement (.vbcast t d a m nw) := by
  intro wf; simp only [Instr.wf, Bool.and_eq_true] at wf
  have := a.code_lt
  have := t.code_lt
  have := d.isLt
  have := m.isLt
  have := ofFlag_lt nw
  have f31_28 := sr_class 6 14 d.val a.code 0 t.code (by omega) (by omega) (by omega) (by omega) (by omega) (by omega)
  have f27_22 := sr_minor 6 14 d.val a.code 0 t.code (by omega) (by omega) (by omega) (by omega) (by omega)
  have f9_4 := sr_b 6 14 d.val a.code 0 t.code (by omega) (by omega)
  have f3_0 := sr_low 6 14 d.val a.code 0 t.code (by omega)
  have f21_16 := sr_d 6 14 d.val a.code 0 t.code (by omega) (by omega) (by omega) (by omega)
  have f15_10 := sr_a 6 14 d.val a.code 0 t.code (by omega) (by omega) (by omega)
  have h0 : packSr 6 14 d.val a.code 0 t.code ≠ 0 := by rw [ne_eq, sr_zero]; omega
  try simp only [pk8_hi, pk8_lo, pk16_hi, pk16_lo, pk8_flag, ofFlag_one, pk_loop_pre, pk_loop_stg, pk_loop_len, pk_spawn_nm, pk_spawn_core, pk_spawn_entry, pk_spawn_zero, pk_cvt_part, pk_cvt_ty, fin8_mod8, fin16_mod16] at f9_4 f3_0 f21_16 f15_10
  refine encoded_as _ (packSr 6 14 d.val a.code 0 t.code) (ofFlag nw * 8 + m.val) rfl ?_
  generalize packSr 6 14 d.val a.code 0 t.code = w at *
  rw [decodeWord_class6 _ _ h0 f31_28]; unfold decVInt; rw [f27_22]
  simp (disch := omega) [f9_4, f3_0, f21_16, f15_10, lend_hi, lend_lo, lend_nw, lend0_hi, lend0_lo, lend0_nw, lend1_hi, lend1_lo, lend1_nw, lend2_hi, lend2_lo, lend2_nw, pk_amo_lt, pk_amo_bit, pk_amo_ord, pk_cas_bit, pk_cas_ord, pk_cas_hi, pk_bit0, pk_bit_lt, pk_bit_le, pk_sl_lo, pk_sl_bit, pk_sl_lt, pk_seam_pred, pk_seam_sat, pk_seam_lt, pk_pred, pk_pred_ok, pk_qnt_md, pk_qnt_bit, pk_qnt_lt, ok_bind, Nat.div_eq_of_lt, Nat.mod_eq_of_lt, wf]

theorem RoundTrip.vperm (o : VBin) : RoundTrip.Statement (.vperm o) := by
  intro wf; simp only [Instr.wf, Bool.and_eq_true] at wf
  have := o.a.code_lt
  have := o.b.code_lt
  have := o.t.code_lt
  have := o.d.isLt
  have := o.m.isLt
  have := ofFlag_lt o.nw
  have f31_28 := sr_class 6 15 o.d.val o.a.code o.b.code o.t.code (by omega) (by omega) (by omega) (by omega) (by omega) (by omega)
  have f27_22 := sr_minor 6 15 o.d.val o.a.code o.b.code o.t.code (by omega) (by omega) (by omega) (by omega) (by omega)
  have f21_16 := sr_d 6 15 o.d.val o.a.code o.b.code o.t.code (by omega) (by omega) (by omega) (by omega)
  have f15_10 := sr_a 6 15 o.d.val o.a.code o.b.code o.t.code (by omega) (by omega) (by omega)
  have f9_4 := sr_b 6 15 o.d.val o.a.code o.b.code o.t.code (by omega) (by omega)
  have f3_0 := sr_low 6 15 o.d.val o.a.code o.b.code o.t.code (by omega)
  have h0 : packSr 6 15 o.d.val o.a.code o.b.code o.t.code ≠ 0 := by rw [ne_eq, sr_zero]; omega
  try simp only [pk8_hi, pk8_lo, pk16_hi, pk16_lo, pk8_flag, ofFlag_one, pk_loop_pre, pk_loop_stg, pk_loop_len, pk_spawn_nm, pk_spawn_core, pk_spawn_entry, pk_spawn_zero, pk_cvt_part, pk_cvt_ty, fin8_mod8, fin16_mod16] at f21_16 f15_10 f9_4 f3_0
  refine encoded_as _ (packSr 6 15 o.d.val o.a.code o.b.code o.t.code) (ofFlag o.nw * 8 + o.m.val) rfl ?_
  generalize packSr 6 15 o.d.val o.a.code o.b.code o.t.code = w at *
  rw [decodeWord_class6 _ _ h0 f31_28]; unfold decVInt; rw [f27_22]
  simp (disch := omega) [decVBin_of w o f21_16 f15_10 f9_4 f3_0, ok_bind, Nat.div_eq_of_lt, Nat.mod_eq_of_lt, wf]

theorem RoundTrip.vlrot (t : VTy) (d : Fin 32) (a : VSrc) (b : SSrc) (m : Fin 8) (nw : Bool) : RoundTrip.Statement (.vlrot t d a b m nw) := by
  intro wf; simp only [Instr.wf, Bool.and_eq_true] at wf
  have := a.code_lt
  have := b.code_lt
  have := t.code_lt
  have := d.isLt
  have := m.isLt
  have := ofFlag_lt nw
  have f31_28 := sr_class 6 16 d.val a.code b.code t.code (by omega) (by omega) (by omega) (by omega) (by omega) (by omega)
  have f27_22 := sr_minor 6 16 d.val a.code b.code t.code (by omega) (by omega) (by omega) (by omega) (by omega)
  have f3_0 := sr_low 6 16 d.val a.code b.code t.code (by omega)
  have f21_16 := sr_d 6 16 d.val a.code b.code t.code (by omega) (by omega) (by omega) (by omega)
  have f15_10 := sr_a 6 16 d.val a.code b.code t.code (by omega) (by omega) (by omega)
  have f9_4 := sr_b 6 16 d.val a.code b.code t.code (by omega) (by omega)
  have h0 : packSr 6 16 d.val a.code b.code t.code ≠ 0 := by rw [ne_eq, sr_zero]; omega
  try simp only [pk8_hi, pk8_lo, pk16_hi, pk16_lo, pk8_flag, ofFlag_one, pk_loop_pre, pk_loop_stg, pk_loop_len, pk_spawn_nm, pk_spawn_core, pk_spawn_entry, pk_spawn_zero, pk_cvt_part, pk_cvt_ty, fin8_mod8, fin16_mod16] at f3_0 f21_16 f15_10 f9_4
  refine encoded_as _ (packSr 6 16 d.val a.code b.code t.code) (ofFlag nw * 8 + m.val) rfl ?_
  generalize packSr 6 16 d.val a.code b.code t.code = w at *
  rw [decodeWord_class6 _ _ h0 f31_28]; unfold decVInt; rw [f27_22]
  simp (disch := omega) [f3_0, f21_16, f15_10, f9_4, lend_hi, lend_lo, lend_nw, lend0_hi, lend0_lo, lend0_nw, lend1_hi, lend1_lo, lend1_nw, lend2_hi, lend2_lo, lend2_nw, pk_amo_lt, pk_amo_bit, pk_amo_ord, pk_cas_bit, pk_cas_ord, pk_cas_hi, pk_bit0, pk_bit_lt, pk_bit_le, pk_sl_lo, pk_sl_bit, pk_sl_lt, pk_seam_pred, pk_seam_sat, pk_seam_lt, pk_pred, pk_pred_ok, pk_qnt_md, pk_qnt_bit, pk_qnt_lt, ok_bind, Nat.div_eq_of_lt, Nat.mod_eq_of_lt, wf]

theorem RoundTrip.vext (t : VTy) (d : Fin 32) (a : VSrc) (b : SSrc) (nw : Bool) : RoundTrip.Statement (.vext t d a b nw) := by
  intro wf; simp only [Instr.wf, Bool.and_eq_true] at wf
  have := a.code_lt
  have := b.code_lt
  have := t.code_lt
  have := d.isLt
  have := ofFlag_lt nw
  have f31_28 := sr_class 6 17 d.val a.code b.code t.code (by omega) (by omega) (by omega) (by omega) (by omega) (by omega)
  have f27_22 := sr_minor 6 17 d.val a.code b.code t.code (by omega) (by omega) (by omega) (by omega) (by omega)
  have f3_0 := sr_low 6 17 d.val a.code b.code t.code (by omega)
  have f21_16 := sr_d 6 17 d.val a.code b.code t.code (by omega) (by omega) (by omega) (by omega)
  have f15_10 := sr_a 6 17 d.val a.code b.code t.code (by omega) (by omega) (by omega)
  have f9_4 := sr_b 6 17 d.val a.code b.code t.code (by omega) (by omega)
  have h0 : packSr 6 17 d.val a.code b.code t.code ≠ 0 := by rw [ne_eq, sr_zero]; omega
  try simp only [pk8_hi, pk8_lo, pk16_hi, pk16_lo, pk8_flag, ofFlag_one, pk_loop_pre, pk_loop_stg, pk_loop_len, pk_spawn_nm, pk_spawn_core, pk_spawn_entry, pk_spawn_zero, pk_cvt_part, pk_cvt_ty, fin8_mod8, fin16_mod16] at f3_0 f21_16 f15_10 f9_4
  refine encoded_as _ (packSr 6 17 d.val a.code b.code t.code) (ofFlag nw * 8) rfl ?_
  generalize packSr 6 17 d.val a.code b.code t.code = w at *
  rw [decodeWord_class6 _ _ h0 f31_28]; unfold decVInt; rw [f27_22]
  simp (disch := omega) [f3_0, f21_16, f15_10, f9_4, lend_hi, lend_lo, lend_nw, lend0_hi, lend0_lo, lend0_nw, lend1_hi, lend1_lo, lend1_nw, lend2_hi, lend2_lo, lend2_nw, pk_amo_lt, pk_amo_bit, pk_amo_ord, pk_cas_bit, pk_cas_ord, pk_cas_hi, pk_bit0, pk_bit_lt, pk_bit_le, pk_sl_lo, pk_sl_bit, pk_sl_lt, pk_seam_pred, pk_seam_sat, pk_seam_lt, pk_pred, pk_pred_ok, pk_qnt_md, pk_qnt_bit, pk_qnt_lt, ok_bind, Nat.div_eq_of_lt, Nat.mod_eq_of_lt, wf]

theorem RoundTrip.vins (t : VTy) (d : Fin 32) (a : SSrc) (b : SSrc) (nw : Bool) : RoundTrip.Statement (.vins t d a b nw) := by
  intro wf; simp only [Instr.wf, Bool.and_eq_true] at wf
  have := a.code_lt
  have := b.code_lt
  have := t.code_lt
  have := d.isLt
  have := ofFlag_lt nw
  have f31_28 := sr_class 6 18 d.val a.code b.code t.code (by omega) (by omega) (by omega) (by omega) (by omega) (by omega)
  have f27_22 := sr_minor 6 18 d.val a.code b.code t.code (by omega) (by omega) (by omega) (by omega) (by omega)
  have f3_0 := sr_low 6 18 d.val a.code b.code t.code (by omega)
  have f21_16 := sr_d 6 18 d.val a.code b.code t.code (by omega) (by omega) (by omega) (by omega)
  have f15_10 := sr_a 6 18 d.val a.code b.code t.code (by omega) (by omega) (by omega)
  have f9_4 := sr_b 6 18 d.val a.code b.code t.code (by omega) (by omega)
  have h0 : packSr 6 18 d.val a.code b.code t.code ≠ 0 := by rw [ne_eq, sr_zero]; omega
  try simp only [pk8_hi, pk8_lo, pk16_hi, pk16_lo, pk8_flag, ofFlag_one, pk_loop_pre, pk_loop_stg, pk_loop_len, pk_spawn_nm, pk_spawn_core, pk_spawn_entry, pk_spawn_zero, pk_cvt_part, pk_cvt_ty, fin8_mod8, fin16_mod16] at f3_0 f21_16 f15_10 f9_4
  refine encoded_as _ (packSr 6 18 d.val a.code b.code t.code) (ofFlag nw * 8) rfl ?_
  generalize packSr 6 18 d.val a.code b.code t.code = w at *
  rw [decodeWord_class6 _ _ h0 f31_28]; unfold decVInt; rw [f27_22]
  simp (disch := omega) [f3_0, f21_16, f15_10, f9_4, lend_hi, lend_lo, lend_nw, lend0_hi, lend0_lo, lend0_nw, lend1_hi, lend1_lo, lend1_nw, lend2_hi, lend2_lo, lend2_nw, pk_amo_lt, pk_amo_bit, pk_amo_ord, pk_cas_bit, pk_cas_ord, pk_cas_hi, pk_bit0, pk_bit_lt, pk_bit_le, pk_sl_lo, pk_sl_bit, pk_sl_lt, pk_seam_pred, pk_seam_sat, pk_seam_lt, pk_pred, pk_pred_ok, pk_qnt_md, pk_qnt_bit, pk_qnt_lt, ok_bind, Nat.div_eq_of_lt, Nat.mod_eq_of_lt, wf]

theorem vmask_and (a b : Fin 8) (d : Fin 8) (nw : Bool) : RoundTrip.Statement (.vmask (.and a b) d nw) := by
  intro wf; simp only [Instr.wf] at wf
  have := d.isLt
  have := a.isLt
  have := b.isLt
  have := ofFlag_lt nw
  have f31_28 := sr_class 6 19 d.val a.val b.val 0 (by omega) (by omega) (by omega) (by omega) (by omega) (by omega)
  have f27_22 := sr_minor 6 19 d.val a.val b.val 0 (by omega) (by omega) (by omega) (by omega) (by omega)
  have f3_0 := sr_low 6 19 d.val a.val b.val 0 (by omega)
  have f21_16 := sr_d 6 19 d.val a.val b.val 0 (by omega) (by omega) (by omega) (by omega)
  have f15_10 := sr_a 6 19 d.val a.val b.val 0 (by omega) (by omega) (by omega)
  have f9_4 := sr_b 6 19 d.val a.val b.val 0 (by omega) (by omega)
  have h0 : packSr 6 19 d.val a.val b.val 0 ≠ 0 := by rw [ne_eq, sr_zero]; omega
  try simp only [pk8_hi, pk8_lo, pk16_hi, pk16_lo, pk8_flag, ofFlag_one, pk_loop_pre, pk_loop_stg, pk_loop_len, pk_spawn_nm, pk_spawn_core, pk_spawn_entry, pk_spawn_zero, pk_cvt_part, pk_cvt_ty, fin8_mod8, fin16_mod16] at f3_0 f21_16 f15_10 f9_4
  refine encoded_as _ (packSr 6 19 d.val a.val b.val 0) (0 + ofFlag nw * 8) rfl ?_
  generalize packSr 6 19 d.val a.val b.val 0 = w at *
  rw [decodeWord_class6 _ _ h0 f31_28]; unfold decVInt; rw [f27_22]
  simp (disch := omega) [decMaskOp, f3_0, f21_16, f15_10, f9_4, lend_hi, lend_lo, lend_nw, lend0_hi, lend0_lo, lend0_nw, lend1_hi, lend1_lo, lend1_nw, lend2_hi, lend2_lo, lend2_nw, pk_amo_lt, pk_amo_bit, pk_amo_ord, pk_cas_bit, pk_cas_ord, pk_cas_hi, pk_bit0, pk_bit_lt, pk_bit_le, pk_sl_lo, pk_sl_bit, pk_sl_lt, pk_seam_pred, pk_seam_sat, pk_seam_lt, pk_pred, pk_pred_ok, pk_qnt_md, pk_qnt_bit, pk_qnt_lt, ok_bind, Nat.div_eq_of_lt, Nat.mod_eq_of_lt, wf]

theorem vmask_or (a b : Fin 8) (d : Fin 8) (nw : Bool) : RoundTrip.Statement (.vmask (.or a b) d nw) := by
  intro wf; simp only [Instr.wf] at wf
  have := d.isLt
  have := a.isLt
  have := b.isLt
  have := ofFlag_lt nw
  have f31_28 := sr_class 6 19 d.val a.val b.val 0 (by omega) (by omega) (by omega) (by omega) (by omega) (by omega)
  have f27_22 := sr_minor 6 19 d.val a.val b.val 0 (by omega) (by omega) (by omega) (by omega) (by omega)
  have f3_0 := sr_low 6 19 d.val a.val b.val 0 (by omega)
  have f21_16 := sr_d 6 19 d.val a.val b.val 0 (by omega) (by omega) (by omega) (by omega)
  have f15_10 := sr_a 6 19 d.val a.val b.val 0 (by omega) (by omega) (by omega)
  have f9_4 := sr_b 6 19 d.val a.val b.val 0 (by omega) (by omega)
  have h0 : packSr 6 19 d.val a.val b.val 0 ≠ 0 := by rw [ne_eq, sr_zero]; omega
  try simp only [pk8_hi, pk8_lo, pk16_hi, pk16_lo, pk8_flag, ofFlag_one, pk_loop_pre, pk_loop_stg, pk_loop_len, pk_spawn_nm, pk_spawn_core, pk_spawn_entry, pk_spawn_zero, pk_cvt_part, pk_cvt_ty, fin8_mod8, fin16_mod16] at f3_0 f21_16 f15_10 f9_4
  refine encoded_as _ (packSr 6 19 d.val a.val b.val 0) (16 + ofFlag nw * 8) rfl ?_
  generalize packSr 6 19 d.val a.val b.val 0 = w at *
  rw [decodeWord_class6 _ _ h0 f31_28]; unfold decVInt; rw [f27_22]
  simp (disch := omega) [decMaskOp, f3_0, f21_16, f15_10, f9_4, lend_hi, lend_lo, lend_nw, lend0_hi, lend0_lo, lend0_nw, lend1_hi, lend1_lo, lend1_nw, lend2_hi, lend2_lo, lend2_nw, pk_amo_lt, pk_amo_bit, pk_amo_ord, pk_cas_bit, pk_cas_ord, pk_cas_hi, pk_bit0, pk_bit_lt, pk_bit_le, pk_sl_lo, pk_sl_bit, pk_sl_lt, pk_seam_pred, pk_seam_sat, pk_seam_lt, pk_pred, pk_pred_ok, pk_qnt_md, pk_qnt_bit, pk_qnt_lt, ok_bind, Nat.div_eq_of_lt, Nat.mod_eq_of_lt, wf]

theorem vmask_xor (a b : Fin 8) (d : Fin 8) (nw : Bool) : RoundTrip.Statement (.vmask (.xor a b) d nw) := by
  intro wf; simp only [Instr.wf] at wf
  have := d.isLt
  have := a.isLt
  have := b.isLt
  have := ofFlag_lt nw
  have f31_28 := sr_class 6 19 d.val a.val b.val 0 (by omega) (by omega) (by omega) (by omega) (by omega) (by omega)
  have f27_22 := sr_minor 6 19 d.val a.val b.val 0 (by omega) (by omega) (by omega) (by omega) (by omega)
  have f3_0 := sr_low 6 19 d.val a.val b.val 0 (by omega)
  have f21_16 := sr_d 6 19 d.val a.val b.val 0 (by omega) (by omega) (by omega) (by omega)
  have f15_10 := sr_a 6 19 d.val a.val b.val 0 (by omega) (by omega) (by omega)
  have f9_4 := sr_b 6 19 d.val a.val b.val 0 (by omega) (by omega)
  have h0 : packSr 6 19 d.val a.val b.val 0 ≠ 0 := by rw [ne_eq, sr_zero]; omega
  try simp only [pk8_hi, pk8_lo, pk16_hi, pk16_lo, pk8_flag, ofFlag_one, pk_loop_pre, pk_loop_stg, pk_loop_len, pk_spawn_nm, pk_spawn_core, pk_spawn_entry, pk_spawn_zero, pk_cvt_part, pk_cvt_ty, fin8_mod8, fin16_mod16] at f3_0 f21_16 f15_10 f9_4
  refine encoded_as _ (packSr 6 19 d.val a.val b.val 0) (32 + ofFlag nw * 8) rfl ?_
  generalize packSr 6 19 d.val a.val b.val 0 = w at *
  rw [decodeWord_class6 _ _ h0 f31_28]; unfold decVInt; rw [f27_22]
  simp (disch := omega) [decMaskOp, f3_0, f21_16, f15_10, f9_4, lend_hi, lend_lo, lend_nw, lend0_hi, lend0_lo, lend0_nw, lend1_hi, lend1_lo, lend1_nw, lend2_hi, lend2_lo, lend2_nw, pk_amo_lt, pk_amo_bit, pk_amo_ord, pk_cas_bit, pk_cas_ord, pk_cas_hi, pk_bit0, pk_bit_lt, pk_bit_le, pk_sl_lo, pk_sl_bit, pk_sl_lt, pk_seam_pred, pk_seam_sat, pk_seam_lt, pk_pred, pk_pred_ok, pk_qnt_md, pk_qnt_bit, pk_qnt_lt, ok_bind, Nat.div_eq_of_lt, Nat.mod_eq_of_lt, wf]

theorem vmask_andn (a b : Fin 8) (d : Fin 8) (nw : Bool) : RoundTrip.Statement (.vmask (.andn a b) d nw) := by
  intro wf; simp only [Instr.wf] at wf
  have := d.isLt
  have := a.isLt
  have := b.isLt
  have := ofFlag_lt nw
  have f31_28 := sr_class 6 19 d.val a.val b.val 0 (by omega) (by omega) (by omega) (by omega) (by omega) (by omega)
  have f27_22 := sr_minor 6 19 d.val a.val b.val 0 (by omega) (by omega) (by omega) (by omega) (by omega)
  have f3_0 := sr_low 6 19 d.val a.val b.val 0 (by omega)
  have f21_16 := sr_d 6 19 d.val a.val b.val 0 (by omega) (by omega) (by omega) (by omega)
  have f15_10 := sr_a 6 19 d.val a.val b.val 0 (by omega) (by omega) (by omega)
  have f9_4 := sr_b 6 19 d.val a.val b.val 0 (by omega) (by omega)
  have h0 : packSr 6 19 d.val a.val b.val 0 ≠ 0 := by rw [ne_eq, sr_zero]; omega
  try simp only [pk8_hi, pk8_lo, pk16_hi, pk16_lo, pk8_flag, ofFlag_one, pk_loop_pre, pk_loop_stg, pk_loop_len, pk_spawn_nm, pk_spawn_core, pk_spawn_entry, pk_spawn_zero, pk_cvt_part, pk_cvt_ty, fin8_mod8, fin16_mod16] at f3_0 f21_16 f15_10 f9_4
  refine encoded_as _ (packSr 6 19 d.val a.val b.val 0) (48 + ofFlag nw * 8) rfl ?_
  generalize packSr 6 19 d.val a.val b.val 0 = w at *
  rw [decodeWord_class6 _ _ h0 f31_28]; unfold decVInt; rw [f27_22]
  simp (disch := omega) [decMaskOp, f3_0, f21_16, f15_10, f9_4, lend_hi, lend_lo, lend_nw, lend0_hi, lend0_lo, lend0_nw, lend1_hi, lend1_lo, lend1_nw, lend2_hi, lend2_lo, lend2_nw, pk_amo_lt, pk_amo_bit, pk_amo_ord, pk_cas_bit, pk_cas_ord, pk_cas_hi, pk_bit0, pk_bit_lt, pk_bit_le, pk_sl_lo, pk_sl_bit, pk_sl_lt, pk_seam_pred, pk_seam_sat, pk_seam_lt, pk_pred, pk_pred_ok, pk_qnt_md, pk_qnt_bit, pk_qnt_lt, ok_bind, Nat.div_eq_of_lt, Nat.mod_eq_of_lt, wf]

theorem vmask_not (a : Fin 8) (d : Fin 8) (nw : Bool) : RoundTrip.Statement (.vmask (.not a) d nw) := by
  intro wf; simp only [Instr.wf] at wf
  have := d.isLt
  have := a.isLt
  have := ofFlag_lt nw
  have f31_28 := sr_class 6 19 d.val a.val 0 0 (by omega) (by omega) (by omega) (by omega) (by omega) (by omega)
  have f27_22 := sr_minor 6 19 d.val a.val 0 0 (by omega) (by omega) (by omega) (by omega) (by omega)
  have f3_0 := sr_low 6 19 d.val a.val 0 0 (by omega)
  have f21_16 := sr_d 6 19 d.val a.val 0 0 (by omega) (by omega) (by omega) (by omega)
  have f15_10 := sr_a 6 19 d.val a.val 0 0 (by omega) (by omega) (by omega)
  have f9_4 := sr_b 6 19 d.val a.val 0 0 (by omega) (by omega)
  have h0 : packSr 6 19 d.val a.val 0 0 ≠ 0 := by rw [ne_eq, sr_zero]; omega
  try simp only [pk8_hi, pk8_lo, pk16_hi, pk16_lo, pk8_flag, ofFlag_one, pk_loop_pre, pk_loop_stg, pk_loop_len, pk_spawn_nm, pk_spawn_core, pk_spawn_entry, pk_spawn_zero, pk_cvt_part, pk_cvt_ty, fin8_mod8, fin16_mod16] at f3_0 f21_16 f15_10 f9_4
  refine encoded_as _ (packSr 6 19 d.val a.val 0 0) (64 + ofFlag nw * 8) rfl ?_
  generalize packSr 6 19 d.val a.val 0 0 = w at *
  rw [decodeWord_class6 _ _ h0 f31_28]; unfold decVInt; rw [f27_22]
  simp (disch := omega) [decMaskOp, f3_0, f21_16, f15_10, f9_4, lend_hi, lend_lo, lend_nw, lend0_hi, lend0_lo, lend0_nw, lend1_hi, lend1_lo, lend1_nw, lend2_hi, lend2_lo, lend2_nw, pk_amo_lt, pk_amo_bit, pk_amo_ord, pk_cas_bit, pk_cas_ord, pk_cas_hi, pk_bit0, pk_bit_lt, pk_bit_le, pk_sl_lo, pk_sl_bit, pk_sl_lt, pk_seam_pred, pk_seam_sat, pk_seam_lt, pk_pred, pk_pred_ok, pk_qnt_md, pk_qnt_bit, pk_qnt_lt, ok_bind, Nat.div_eq_of_lt, Nat.mod_eq_of_lt, wf]

theorem vmask_first (a : SSrc) (d : Fin 8) (nw : Bool) : RoundTrip.Statement (.vmask (.first a) d nw) := by
  intro wf; simp only [Instr.wf] at wf
  have := a.code_lt
  have := d.isLt
  have := ofFlag_lt nw
  have f31_28 := sr_class 6 19 d.val a.code 0 0 (by omega) (by omega) (by omega) (by omega) (by omega) (by omega)
  have f27_22 := sr_minor 6 19 d.val a.code 0 0 (by omega) (by omega) (by omega) (by omega) (by omega)
  have f3_0 := sr_low 6 19 d.val a.code 0 0 (by omega)
  have f21_16 := sr_d 6 19 d.val a.code 0 0 (by omega) (by omega) (by omega) (by omega)
  have f15_10 := sr_a 6 19 d.val a.code 0 0 (by omega) (by omega) (by omega)
  have f9_4 := sr_b 6 19 d.val a.code 0 0 (by omega) (by omega)
  have h0 : packSr 6 19 d.val a.code 0 0 ≠ 0 := by rw [ne_eq, sr_zero]; omega
  try simp only [pk8_hi, pk8_lo, pk16_hi, pk16_lo, pk8_flag, ofFlag_one, pk_loop_pre, pk_loop_stg, pk_loop_len, pk_spawn_nm, pk_spawn_core, pk_spawn_entry, pk_spawn_zero, pk_cvt_part, pk_cvt_ty, fin8_mod8, fin16_mod16] at f3_0 f21_16 f15_10 f9_4
  refine encoded_as _ (packSr 6 19 d.val a.code 0 0) (80 + ofFlag nw * 8) rfl ?_
  generalize packSr 6 19 d.val a.code 0 0 = w at *
  rw [decodeWord_class6 _ _ h0 f31_28]; unfold decVInt; rw [f27_22]
  simp (disch := omega) [decMaskOp, f3_0, f21_16, f15_10, f9_4, lend_hi, lend_lo, lend_nw, lend0_hi, lend0_lo, lend0_nw, lend1_hi, lend1_lo, lend1_nw, lend2_hi, lend2_lo, lend2_nw, pk_amo_lt, pk_amo_bit, pk_amo_ord, pk_cas_bit, pk_cas_ord, pk_cas_hi, pk_bit0, pk_bit_lt, pk_bit_le, pk_sl_lo, pk_sl_bit, pk_sl_lt, pk_seam_pred, pk_seam_sat, pk_seam_lt, pk_pred, pk_pred_ok, pk_qnt_md, pk_qnt_bit, pk_qnt_lt, ok_bind, Nat.div_eq_of_lt, Nat.mod_eq_of_lt, wf]

theorem RoundTrip.vmask (op : MaskOp) (d : Fin 8) (nw : Bool) : RoundTrip.Statement (.vmask op d nw) := by
  cases op with
  | and a b => exact vmask_and a b d nw
  | or a b => exact vmask_or a b d nw
  | xor a b => exact vmask_xor a b d nw
  | andn a b => exact vmask_andn a b d nw
  | not a => exact vmask_not a d nw
  | first a => exact vmask_first a d nw

theorem RoundTrip.vmcnt (t : VTy) (d : Fin 32) (a : Fin 8) (nw : Bool) : RoundTrip.Statement (.vmcnt t d a nw) := by
  intro wf; simp only [Instr.wf, Bool.and_eq_true] at wf
  have := t.code_lt
  have := d.isLt
  have := a.isLt
  have := ofFlag_lt nw
  have f31_28 := sr_class 6 20 d.val a.val 0 t.code (by omega) (by omega) (by omega) (by omega) (by omega) (by omega)
  have f27_22 := sr_minor 6 20 d.val a.val 0 t.code (by omega) (by omega) (by omega) (by omega) (by omega)
  have f9_4 := sr_b 6 20 d.val a.val 0 t.code (by omega) (by omega)
  have f3_0 := sr_low 6 20 d.val a.val 0 t.code (by omega)
  have f21_16 := sr_d 6 20 d.val a.val 0 t.code (by omega) (by omega) (by omega) (by omega)
  have f15_10 := sr_a 6 20 d.val a.val 0 t.code (by omega) (by omega) (by omega)
  have h0 : packSr 6 20 d.val a.val 0 t.code ≠ 0 := by rw [ne_eq, sr_zero]; omega
  try simp only [pk8_hi, pk8_lo, pk16_hi, pk16_lo, pk8_flag, ofFlag_one, pk_loop_pre, pk_loop_stg, pk_loop_len, pk_spawn_nm, pk_spawn_core, pk_spawn_entry, pk_spawn_zero, pk_cvt_part, pk_cvt_ty, fin8_mod8, fin16_mod16] at f9_4 f3_0 f21_16 f15_10
  refine encoded_as _ (packSr 6 20 d.val a.val 0 t.code) (ofFlag nw * 8) rfl ?_
  generalize packSr 6 20 d.val a.val 0 t.code = w at *
  rw [decodeWord_class6 _ _ h0 f31_28]; unfold decVInt; rw [f27_22]
  simp (disch := omega) [f9_4, f3_0, f21_16, f15_10, lend_hi, lend_lo, lend_nw, lend0_hi, lend0_lo, lend0_nw, lend1_hi, lend1_lo, lend1_nw, lend2_hi, lend2_lo, lend2_nw, pk_amo_lt, pk_amo_bit, pk_amo_ord, pk_cas_bit, pk_cas_ord, pk_cas_hi, pk_bit0, pk_bit_lt, pk_bit_le, pk_sl_lo, pk_sl_bit, pk_sl_lt, pk_seam_pred, pk_seam_sat, pk_seam_lt, pk_pred, pk_pred_ok, pk_qnt_md, pk_qnt_bit, pk_qnt_lt, ok_bind, Nat.div_eq_of_lt, Nat.mod_eq_of_lt, wf]

theorem RoundTrip.vpop (d : Fin 32) (q : Fin 8) (nw : Bool) : RoundTrip.Statement (.vpop d q nw) := by
  intro wf; simp only [Instr.wf, Bool.and_eq_true] at wf
  have := d.isLt
  have := q.isLt
  have := ofFlag_lt nw
  have f31_28 := sr_class 6 21 d.val q.val 0 0 (by omega) (by omega) (by omega) (by omega) (by omega) (by omega)
  have f27_22 := sr_minor 6 21 d.val q.val 0 0 (by omega) (by omega) (by omega) (by omega) (by omega)
  have f9_0 := sr_90 6 21 d.val q.val 0 0 (by omega) (by omega)
  have f21_16 := sr_d 6 21 d.val q.val 0 0 (by omega) (by omega) (by omega) (by omega)
  have f15_10 := sr_a 6 21 d.val q.val 0 0 (by omega) (by omega) (by omega)
  have h0 : packSr 6 21 d.val q.val 0 0 ≠ 0 := by rw [ne_eq, sr_zero]; omega
  try simp only [pk8_hi, pk8_lo, pk16_hi, pk16_lo, pk8_flag, ofFlag_one, pk_loop_pre, pk_loop_stg, pk_loop_len, pk_spawn_nm, pk_spawn_core, pk_spawn_entry, pk_spawn_zero, pk_cvt_part, pk_cvt_ty, fin8_mod8, fin16_mod16] at f9_0 f21_16 f15_10
  refine encoded_as _ (packSr 6 21 d.val q.val 0 0) (ofFlag nw * 8) rfl ?_
  generalize packSr 6 21 d.val q.val 0 0 = w at *
  rw [decodeWord_class6 _ _ h0 f31_28]; unfold decVInt; rw [f27_22]
  simp (disch := omega) [f9_0, f21_16, f15_10, lend_hi, lend_lo, lend_nw, lend0_hi, lend0_lo, lend0_nw, lend1_hi, lend1_lo, lend1_nw, lend2_hi, lend2_lo, lend2_nw, pk_amo_lt, pk_amo_bit, pk_amo_ord, pk_cas_bit, pk_cas_ord, pk_cas_hi, pk_bit0, pk_bit_lt, pk_bit_le, pk_sl_lo, pk_sl_bit, pk_sl_lt, pk_seam_pred, pk_seam_sat, pk_seam_lt, pk_pred, pk_pred_ok, pk_qnt_md, pk_qnt_bit, pk_qnt_lt, ok_bind, Nat.div_eq_of_lt, Nat.mod_eq_of_lt, wf]

theorem RoundTrip.vwin (a : SSrc) : RoundTrip.Statement (.vwin a) := by
  intro wf; simp only [Instr.wf, Bool.and_eq_true] at wf
  have := a.code_lt
  have f31_28 := sr_class 6 22 0 a.code 0 0 (by omega) (by omega) (by omega) (by omega) (by omega) (by omega)
  have f27_22 := sr_minor 6 22 0 a.code 0 0 (by omega) (by omega) (by omega) (by omega) (by omega)
  have f21_16 := sr_d 6 22 0 a.code 0 0 (by omega) (by omega) (by omega) (by omega)
  have f9_0 := sr_90 6 22 0 a.code 0 0 (by omega) (by omega)
  have f15_10 := sr_a 6 22 0 a.code 0 0 (by omega) (by omega) (by omega)
  have h0 : packSr 6 22 0 a.code 0 0 ≠ 0 := by rw [ne_eq, sr_zero]; omega
  try simp only [pk8_hi, pk8_lo, pk16_hi, pk16_lo, pk8_flag, ofFlag_one, pk_loop_pre, pk_loop_stg, pk_loop_len, pk_spawn_nm, pk_spawn_core, pk_spawn_entry, pk_spawn_zero, pk_cvt_part, pk_cvt_ty, fin8_mod8, fin16_mod16] at f21_16 f9_0 f15_10
  refine encoded_as _ (packSr 6 22 0 a.code 0 0) (0) rfl ?_
  generalize packSr 6 22 0 a.code 0 0 = w at *
  rw [decodeWord_class6 _ _ h0 f31_28]; unfold decVInt; rw [f27_22]
  simp (disch := omega) [f21_16, f9_0, f15_10, ok_bind, Nat.div_eq_of_lt, Nat.mod_eq_of_lt, wf]

theorem RoundTrip.vmov (o : VUn) : RoundTrip.Statement (.vmov o) := by
  intro wf; simp only [Instr.wf, Bool.and_eq_true] at wf
  have := o.a.code_lt
  have := o.t.code_lt
  have := o.d.isLt
  have := o.m.isLt
  have := ofFlag_lt o.nw
  have f31_28 := sr_class 6 23 o.d.val o.a.code 0 o.t.code (by omega) (by omega) (by omega) (by omega) (by omega) (by omega)
  have f27_22 := sr_minor 6 23 o.d.val o.a.code 0 o.t.code (by omega) (by omega) (by omega) (by omega) (by omega)
  have f21_16 := sr_d 6 23 o.d.val o.a.code 0 o.t.code (by omega) (by omega) (by omega) (by omega)
  have f15_10 := sr_a 6 23 o.d.val o.a.code 0 o.t.code (by omega) (by omega) (by omega)
  have f9_4 := sr_b 6 23 o.d.val o.a.code 0 o.t.code (by omega) (by omega)
  have f3_0 := sr_low 6 23 o.d.val o.a.code 0 o.t.code (by omega)
  have h0 : packSr 6 23 o.d.val o.a.code 0 o.t.code ≠ 0 := by rw [ne_eq, sr_zero]; omega
  try simp only [pk8_hi, pk8_lo, pk16_hi, pk16_lo, pk8_flag, ofFlag_one, pk_loop_pre, pk_loop_stg, pk_loop_len, pk_spawn_nm, pk_spawn_core, pk_spawn_entry, pk_spawn_zero, pk_cvt_part, pk_cvt_ty, fin8_mod8, fin16_mod16] at f21_16 f15_10 f9_4 f3_0
  refine encoded_as _ (packSr 6 23 o.d.val o.a.code 0 o.t.code) (ofFlag o.nw * 8 + o.m.val) rfl ?_
  generalize packSr 6 23 o.d.val o.a.code 0 o.t.code = w at *
  rw [decodeWord_class6 _ _ h0 f31_28]; unfold decVInt; rw [f27_22]
  simp (disch := omega) [decVUn_of w o f21_16 f15_10 f9_4 f3_0, ok_bind, Nat.div_eq_of_lt, Nat.mod_eq_of_lt, wf]

theorem RoundTrip.vrcpA (o : VUn) : RoundTrip.Statement (.vrcpA o) := by
  intro wf; simp only [Instr.wf, Bool.and_eq_true] at wf
  have := o.a.code_lt
  have := o.t.code_lt
  have := o.d.isLt
  have := o.m.isLt
  have := ofFlag_lt o.nw
  have f31_28 := sr_class 7 0 o.d.val o.a.code 0 o.t.code (by omega) (by omega) (by omega) (by omega) (by omega) (by omega)
  have f27_22 := sr_minor 7 0 o.d.val o.a.code 0 o.t.code (by omega) (by omega) (by omega) (by omega) (by omega)
  have f21_16 := sr_d 7 0 o.d.val o.a.code 0 o.t.code (by omega) (by omega) (by omega) (by omega)
  have f15_10 := sr_a 7 0 o.d.val o.a.code 0 o.t.code (by omega) (by omega) (by omega)
  have f9_4 := sr_b 7 0 o.d.val o.a.code 0 o.t.code (by omega) (by omega)
  have f3_0 := sr_low 7 0 o.d.val o.a.code 0 o.t.code (by omega)
  have h0 : packSr 7 0 o.d.val o.a.code 0 o.t.code ≠ 0 := by rw [ne_eq, sr_zero]; omega
  try simp only [pk8_hi, pk8_lo, pk16_hi, pk16_lo, pk8_flag, ofFlag_one, pk_loop_pre, pk_loop_stg, pk_loop_len, pk_spawn_nm, pk_spawn_core, pk_spawn_entry, pk_spawn_zero, pk_cvt_part, pk_cvt_ty, fin8_mod8, fin16_mod16] at f21_16 f15_10 f9_4 f3_0
  refine encoded_as _ (packSr 7 0 o.d.val o.a.code 0 o.t.code) (ofFlag o.nw * 8 + o.m.val) rfl ?_
  generalize packSr 7 0 o.d.val o.a.code 0 o.t.code = w at *
  rw [decodeWord_class7 _ _ h0 f31_28]; unfold decVSpecial; rw [f27_22]
  simp (disch := omega) [decVUn_of w o f21_16 f15_10 f9_4 f3_0, ok_bind, Nat.div_eq_of_lt, Nat.mod_eq_of_lt, wf]

theorem RoundTrip.vrsqA (o : VUn) : RoundTrip.Statement (.vrsqA o) := by
  intro wf; simp only [Instr.wf, Bool.and_eq_true] at wf
  have := o.a.code_lt
  have := o.t.code_lt
  have := o.d.isLt
  have := o.m.isLt
  have := ofFlag_lt o.nw
  have f31_28 := sr_class 7 1 o.d.val o.a.code 0 o.t.code (by omega) (by omega) (by omega) (by omega) (by omega) (by omega)
  have f27_22 := sr_minor 7 1 o.d.val o.a.code 0 o.t.code (by omega) (by omega) (by omega) (by omega) (by omega)
  have f21_16 := sr_d 7 1 o.d.val o.a.code 0 o.t.code (by omega) (by omega) (by omega) (by omega)
  have f15_10 := sr_a 7 1 o.d.val o.a.code 0 o.t.code (by omega) (by omega) (by omega)
  have f9_4 := sr_b 7 1 o.d.val o.a.code 0 o.t.code (by omega) (by omega)
  have f3_0 := sr_low 7 1 o.d.val o.a.code 0 o.t.code (by omega)
  have h0 : packSr 7 1 o.d.val o.a.code 0 o.t.code ≠ 0 := by rw [ne_eq, sr_zero]; omega
  try simp only [pk8_hi, pk8_lo, pk16_hi, pk16_lo, pk8_flag, ofFlag_one, pk_loop_pre, pk_loop_stg, pk_loop_len, pk_spawn_nm, pk_spawn_core, pk_spawn_entry, pk_spawn_zero, pk_cvt_part, pk_cvt_ty, fin8_mod8, fin16_mod16] at f21_16 f15_10 f9_4 f3_0
  refine encoded_as _ (packSr 7 1 o.d.val o.a.code 0 o.t.code) (ofFlag o.nw * 8 + o.m.val) rfl ?_
  generalize packSr 7 1 o.d.val o.a.code 0 o.t.code = w at *
  rw [decodeWord_class7 _ _ h0 f31_28]; unfold decVSpecial; rw [f27_22]
  simp (disch := omega) [decVUn_of w o f21_16 f15_10 f9_4 f3_0, ok_bind, Nat.div_eq_of_lt, Nat.mod_eq_of_lt, wf]

theorem RoundTrip.vexp2A (o : VUn) : RoundTrip.Statement (.vexp2A o) := by
  intro wf; simp only [Instr.wf, Bool.and_eq_true] at wf
  have := o.a.code_lt
  have := o.t.code_lt
  have := o.d.isLt
  have := o.m.isLt
  have := ofFlag_lt o.nw
  have f31_28 := sr_class 7 2 o.d.val o.a.code 0 o.t.code (by omega) (by omega) (by omega) (by omega) (by omega) (by omega)
  have f27_22 := sr_minor 7 2 o.d.val o.a.code 0 o.t.code (by omega) (by omega) (by omega) (by omega) (by omega)
  have f21_16 := sr_d 7 2 o.d.val o.a.code 0 o.t.code (by omega) (by omega) (by omega) (by omega)
  have f15_10 := sr_a 7 2 o.d.val o.a.code 0 o.t.code (by omega) (by omega) (by omega)
  have f9_4 := sr_b 7 2 o.d.val o.a.code 0 o.t.code (by omega) (by omega)
  have f3_0 := sr_low 7 2 o.d.val o.a.code 0 o.t.code (by omega)
  have h0 : packSr 7 2 o.d.val o.a.code 0 o.t.code ≠ 0 := by rw [ne_eq, sr_zero]; omega
  try simp only [pk8_hi, pk8_lo, pk16_hi, pk16_lo, pk8_flag, ofFlag_one, pk_loop_pre, pk_loop_stg, pk_loop_len, pk_spawn_nm, pk_spawn_core, pk_spawn_entry, pk_spawn_zero, pk_cvt_part, pk_cvt_ty, fin8_mod8, fin16_mod16] at f21_16 f15_10 f9_4 f3_0
  refine encoded_as _ (packSr 7 2 o.d.val o.a.code 0 o.t.code) (ofFlag o.nw * 8 + o.m.val) rfl ?_
  generalize packSr 7 2 o.d.val o.a.code 0 o.t.code = w at *
  rw [decodeWord_class7 _ _ h0 f31_28]; unfold decVSpecial; rw [f27_22]
  simp (disch := omega) [decVUn_of w o f21_16 f15_10 f9_4 f3_0, ok_bind, Nat.div_eq_of_lt, Nat.mod_eq_of_lt, wf]

theorem RoundTrip.vlog2A (o : VUn) : RoundTrip.Statement (.vlog2A o) := by
  intro wf; simp only [Instr.wf, Bool.and_eq_true] at wf
  have := o.a.code_lt
  have := o.t.code_lt
  have := o.d.isLt
  have := o.m.isLt
  have := ofFlag_lt o.nw
  have f31_28 := sr_class 7 3 o.d.val o.a.code 0 o.t.code (by omega) (by omega) (by omega) (by omega) (by omega) (by omega)
  have f27_22 := sr_minor 7 3 o.d.val o.a.code 0 o.t.code (by omega) (by omega) (by omega) (by omega) (by omega)
  have f21_16 := sr_d 7 3 o.d.val o.a.code 0 o.t.code (by omega) (by omega) (by omega) (by omega)
  have f15_10 := sr_a 7 3 o.d.val o.a.code 0 o.t.code (by omega) (by omega) (by omega)
  have f9_4 := sr_b 7 3 o.d.val o.a.code 0 o.t.code (by omega) (by omega)
  have f3_0 := sr_low 7 3 o.d.val o.a.code 0 o.t.code (by omega)
  have h0 : packSr 7 3 o.d.val o.a.code 0 o.t.code ≠ 0 := by rw [ne_eq, sr_zero]; omega
  try simp only [pk8_hi, pk8_lo, pk16_hi, pk16_lo, pk8_flag, ofFlag_one, pk_loop_pre, pk_loop_stg, pk_loop_len, pk_spawn_nm, pk_spawn_core, pk_spawn_entry, pk_spawn_zero, pk_cvt_part, pk_cvt_ty, fin8_mod8, fin16_mod16] at f21_16 f15_10 f9_4 f3_0
  refine encoded_as _ (packSr 7 3 o.d.val o.a.code 0 o.t.code) (ofFlag o.nw * 8 + o.m.val) rfl ?_
  generalize packSr 7 3 o.d.val o.a.code 0 o.t.code = w at *
  rw [decodeWord_class7 _ _ h0 f31_28]; unfold decVSpecial; rw [f27_22]
  simp (disch := omega) [decVUn_of w o f21_16 f15_10 f9_4 f3_0, ok_bind, Nat.div_eq_of_lt, Nat.mod_eq_of_lt, wf]

theorem RoundTrip.vdiv (o : VBinR) : RoundTrip.Statement (.vdiv o) := by
  intro wf; simp only [Instr.wf, Bool.and_eq_true] at wf
  have := o.a.code_lt
  have := o.b.code_lt
  have := o.t.code_lt
  have := o.md.code_lt
  have := o.d.isLt
  have := o.m.isLt
  have := ofFlag_lt o.nw
  have f31_28 := sr_class 7 4 o.d.val o.a.code o.b.code o.t.code (by omega) (by omega) (by omega) (by omega) (by omega) (by omega)
  have f27_22 := sr_minor 7 4 o.d.val o.a.code o.b.code o.t.code (by omega) (by omega) (by omega) (by omega) (by omega)
  have f21_16 := sr_d 7 4 o.d.val o.a.code o.b.code o.t.code (by omega) (by omega) (by omega) (by omega)
  have f15_10 := sr_a 7 4 o.d.val o.a.code o.b.code o.t.code (by omega) (by omega) (by omega)
  have f9_4 := sr_b 7 4 o.d.val o.a.code o.b.code o.t.code (by omega) (by omega)
  have f3_0 := sr_low 7 4 o.d.val o.a.code o.b.code o.t.code (by omega)
  have h0 : packSr 7 4 o.d.val o.a.code o.b.code o.t.code ≠ 0 := by rw [ne_eq, sr_zero]; omega
  try simp only [pk8_hi, pk8_lo, pk16_hi, pk16_lo, pk8_flag, ofFlag_one, pk_loop_pre, pk_loop_stg, pk_loop_len, pk_spawn_nm, pk_spawn_core, pk_spawn_entry, pk_spawn_zero, pk_cvt_part, pk_cvt_ty, fin8_mod8, fin16_mod16] at f21_16 f15_10 f9_4 f3_0
  refine encoded_as _ (packSr 7 4 o.d.val o.a.code o.b.code o.t.code) (o.md.code * 16 + ofFlag o.nw * 8 + o.m.val) rfl ?_
  generalize packSr 7 4 o.d.val o.a.code o.b.code o.t.code = w at *
  rw [decodeWord_class7 _ _ h0 f31_28]; unfold decVSpecial; rw [f27_22]
  simp (disch := omega) [decVBinR_of w o f21_16 f15_10 f9_4 f3_0, ok_bind, Nat.div_eq_of_lt, Nat.mod_eq_of_lt, wf]

theorem RoundTrip.vsqrt (o : VUnR) : RoundTrip.Statement (.vsqrt o) := by
  intro wf; simp only [Instr.wf, Bool.and_eq_true] at wf
  have := o.a.code_lt
  have := o.t.code_lt
  have := o.md.code_lt
  have := o.d.isLt
  have := o.m.isLt
  have := ofFlag_lt o.nw
  have f31_28 := sr_class 7 5 o.d.val o.a.code 0 o.t.code (by omega) (by omega) (by omega) (by omega) (by omega) (by omega)
  have f27_22 := sr_minor 7 5 o.d.val o.a.code 0 o.t.code (by omega) (by omega) (by omega) (by omega) (by omega)
  have f21_16 := sr_d 7 5 o.d.val o.a.code 0 o.t.code (by omega) (by omega) (by omega) (by omega)
  have f15_10 := sr_a 7 5 o.d.val o.a.code 0 o.t.code (by omega) (by omega) (by omega)
  have f3_0 := sr_low 7 5 o.d.val o.a.code 0 o.t.code (by omega)
  have f9_4 := sr_b 7 5 o.d.val o.a.code 0 o.t.code (by omega) (by omega)
  have h0 : packSr 7 5 o.d.val o.a.code 0 o.t.code ≠ 0 := by rw [ne_eq, sr_zero]; omega
  try simp only [pk8_hi, pk8_lo, pk16_hi, pk16_lo, pk8_flag, ofFlag_one, pk_loop_pre, pk_loop_stg, pk_loop_len, pk_spawn_nm, pk_spawn_core, pk_spawn_entry, pk_spawn_zero, pk_cvt_part, pk_cvt_ty, fin8_mod8, fin16_mod16] at f21_16 f15_10 f3_0 f9_4
  refine encoded_as _ (packSr 7 5 o.d.val o.a.code 0 o.t.code) (o.md.code * 16 + ofFlag o.nw * 8 + o.m.val) rfl ?_
  generalize packSr 7 5 o.d.val o.a.code 0 o.t.code = w at *
  rw [decodeWord_class7 _ _ h0 f31_28]; unfold decVSpecial; rw [f27_22]
  simp (disch := omega) [decVUnR_of w o f21_16 f15_10 f3_0, f9_4, ok_bind, Nat.div_eq_of_lt, Nat.mod_eq_of_lt, wf]

theorem RoundTrip.vidiv (o : VBin) : RoundTrip.Statement (.vidiv o) := by
  intro wf; simp only [Instr.wf, Bool.and_eq_true] at wf
  have := o.a.code_lt
  have := o.b.code_lt
  have := o.t.code_lt
  have := o.d.isLt
  have := o.m.isLt
  have := ofFlag_lt o.nw
  have f31_28 := sr_class 7 6 o.d.val o.a.code o.b.code o.t.code (by omega) (by omega) (by omega) (by omega) (by omega) (by omega)
  have f27_22 := sr_minor 7 6 o.d.val o.a.code o.b.code o.t.code (by omega) (by omega) (by omega) (by omega) (by omega)
  have f21_16 := sr_d 7 6 o.d.val o.a.code o.b.code o.t.code (by omega) (by omega) (by omega) (by omega)
  have f15_10 := sr_a 7 6 o.d.val o.a.code o.b.code o.t.code (by omega) (by omega) (by omega)
  have f9_4 := sr_b 7 6 o.d.val o.a.code o.b.code o.t.code (by omega) (by omega)
  have f3_0 := sr_low 7 6 o.d.val o.a.code o.b.code o.t.code (by omega)
  have h0 : packSr 7 6 o.d.val o.a.code o.b.code o.t.code ≠ 0 := by rw [ne_eq, sr_zero]; omega
  try simp only [pk8_hi, pk8_lo, pk16_hi, pk16_lo, pk8_flag, ofFlag_one, pk_loop_pre, pk_loop_stg, pk_loop_len, pk_spawn_nm, pk_spawn_core, pk_spawn_entry, pk_spawn_zero, pk_cvt_part, pk_cvt_ty, fin8_mod8, fin16_mod16] at f21_16 f15_10 f9_4 f3_0
  refine encoded_as _ (packSr 7 6 o.d.val o.a.code o.b.code o.t.code) (ofFlag o.nw * 8 + o.m.val) rfl ?_
  generalize packSr 7 6 o.d.val o.a.code o.b.code o.t.code = w at *
  rw [decodeWord_class7 _ _ h0 f31_28]; unfold decVSpecial; rw [f27_22]
  simp (disch := omega) [decVBin_of w o f21_16 f15_10 f9_4 f3_0, ok_bind, Nat.div_eq_of_lt, Nat.mod_eq_of_lt, wf]

theorem RoundTrip.virem (o : VBin) : RoundTrip.Statement (.virem o) := by
  intro wf; simp only [Instr.wf, Bool.and_eq_true] at wf
  have := o.a.code_lt
  have := o.b.code_lt
  have := o.t.code_lt
  have := o.d.isLt
  have := o.m.isLt
  have := ofFlag_lt o.nw
  have f31_28 := sr_class 7 7 o.d.val o.a.code o.b.code o.t.code (by omega) (by omega) (by omega) (by omega) (by omega) (by omega)
  have f27_22 := sr_minor 7 7 o.d.val o.a.code o.b.code o.t.code (by omega) (by omega) (by omega) (by omega) (by omega)
  have f21_16 := sr_d 7 7 o.d.val o.a.code o.b.code o.t.code (by omega) (by omega) (by omega) (by omega)
  have f15_10 := sr_a 7 7 o.d.val o.a.code o.b.code o.t.code (by omega) (by omega) (by omega)
  have f9_4 := sr_b 7 7 o.d.val o.a.code o.b.code o.t.code (by omega) (by omega)
  have f3_0 := sr_low 7 7 o.d.val o.a.code o.b.code o.t.code (by omega)
  have h0 : packSr 7 7 o.d.val o.a.code o.b.code o.t.code ≠ 0 := by rw [ne_eq, sr_zero]; omega
  try simp only [pk8_hi, pk8_lo, pk16_hi, pk16_lo, pk8_flag, ofFlag_one, pk_loop_pre, pk_loop_stg, pk_loop_len, pk_spawn_nm, pk_spawn_core, pk_spawn_entry, pk_spawn_zero, pk_cvt_part, pk_cvt_ty, fin8_mod8, fin16_mod16] at f21_16 f15_10 f9_4 f3_0
  refine encoded_as _ (packSr 7 7 o.d.val o.a.code o.b.code o.t.code) (ofFlag o.nw * 8 + o.m.val) rfl ?_
  generalize packSr 7 7 o.d.val o.a.code o.b.code o.t.code = w at *
  rw [decodeWord_class7 _ _ h0 f31_28]; unfold decVSpecial; rw [f27_22]
  simp (disch := omega) [decVBin_of w o f21_16 f15_10 f9_4 f3_0, ok_bind, Nat.div_eq_of_lt, Nat.mod_eq_of_lt, wf]

theorem RoundTrip.vredsum (o : VUn) : RoundTrip.Statement (.vredsum o) := by
  intro wf; simp only [Instr.wf, Bool.and_eq_true] at wf
  have := o.a.code_lt
  have := o.t.code_lt
  have := o.d.isLt
  have := o.m.isLt
  have := ofFlag_lt o.nw
  have f31_28 := sr_class 7 8 o.d.val o.a.code 0 o.t.code (by omega) (by omega) (by omega) (by omega) (by omega) (by omega)
  have f27_22 := sr_minor 7 8 o.d.val o.a.code 0 o.t.code (by omega) (by omega) (by omega) (by omega) (by omega)
  have f21_16 := sr_d 7 8 o.d.val o.a.code 0 o.t.code (by omega) (by omega) (by omega) (by omega)
  have f15_10 := sr_a 7 8 o.d.val o.a.code 0 o.t.code (by omega) (by omega) (by omega)
  have f9_4 := sr_b 7 8 o.d.val o.a.code 0 o.t.code (by omega) (by omega)
  have f3_0 := sr_low 7 8 o.d.val o.a.code 0 o.t.code (by omega)
  have h0 : packSr 7 8 o.d.val o.a.code 0 o.t.code ≠ 0 := by rw [ne_eq, sr_zero]; omega
  try simp only [pk8_hi, pk8_lo, pk16_hi, pk16_lo, pk8_flag, ofFlag_one, pk_loop_pre, pk_loop_stg, pk_loop_len, pk_spawn_nm, pk_spawn_core, pk_spawn_entry, pk_spawn_zero, pk_cvt_part, pk_cvt_ty, fin8_mod8, fin16_mod16] at f21_16 f15_10 f9_4 f3_0
  refine encoded_as _ (packSr 7 8 o.d.val o.a.code 0 o.t.code) (ofFlag o.nw * 8 + o.m.val) rfl ?_
  generalize packSr 7 8 o.d.val o.a.code 0 o.t.code = w at *
  rw [decodeWord_class7 _ _ h0 f31_28]; unfold decVSpecial; rw [f27_22]
  simp (disch := omega) [decVUn_of w o f21_16 f15_10 f9_4 f3_0, ok_bind, Nat.div_eq_of_lt, Nat.mod_eq_of_lt, wf]

theorem RoundTrip.vredmax (o : VUn) : RoundTrip.Statement (.vredmax o) := by
  intro wf; simp only [Instr.wf, Bool.and_eq_true] at wf
  have := o.a.code_lt
  have := o.t.code_lt
  have := o.d.isLt
  have := o.m.isLt
  have := ofFlag_lt o.nw
  have f31_28 := sr_class 7 9 o.d.val o.a.code 0 o.t.code (by omega) (by omega) (by omega) (by omega) (by omega) (by omega)
  have f27_22 := sr_minor 7 9 o.d.val o.a.code 0 o.t.code (by omega) (by omega) (by omega) (by omega) (by omega)
  have f21_16 := sr_d 7 9 o.d.val o.a.code 0 o.t.code (by omega) (by omega) (by omega) (by omega)
  have f15_10 := sr_a 7 9 o.d.val o.a.code 0 o.t.code (by omega) (by omega) (by omega)
  have f9_4 := sr_b 7 9 o.d.val o.a.code 0 o.t.code (by omega) (by omega)
  have f3_0 := sr_low 7 9 o.d.val o.a.code 0 o.t.code (by omega)
  have h0 : packSr 7 9 o.d.val o.a.code 0 o.t.code ≠ 0 := by rw [ne_eq, sr_zero]; omega
  try simp only [pk8_hi, pk8_lo, pk16_hi, pk16_lo, pk8_flag, ofFlag_one, pk_loop_pre, pk_loop_stg, pk_loop_len, pk_spawn_nm, pk_spawn_core, pk_spawn_entry, pk_spawn_zero, pk_cvt_part, pk_cvt_ty, fin8_mod8, fin16_mod16] at f21_16 f15_10 f9_4 f3_0
  refine encoded_as _ (packSr 7 9 o.d.val o.a.code 0 o.t.code) (ofFlag o.nw * 8 + o.m.val) rfl ?_
  generalize packSr 7 9 o.d.val o.a.code 0 o.t.code = w at *
  rw [decodeWord_class7 _ _ h0 f31_28]; unfold decVSpecial; rw [f27_22]
  simp (disch := omega) [decVUn_of w o f21_16 f15_10 f9_4 f3_0, ok_bind, Nat.div_eq_of_lt, Nat.mod_eq_of_lt, wf]

theorem RoundTrip.vredmin (o : VUn) : RoundTrip.Statement (.vredmin o) := by
  intro wf; simp only [Instr.wf, Bool.and_eq_true] at wf
  have := o.a.code_lt
  have := o.t.code_lt
  have := o.d.isLt
  have := o.m.isLt
  have := ofFlag_lt o.nw
  have f31_28 := sr_class 7 10 o.d.val o.a.code 0 o.t.code (by omega) (by omega) (by omega) (by omega) (by omega) (by omega)
  have f27_22 := sr_minor 7 10 o.d.val o.a.code 0 o.t.code (by omega) (by omega) (by omega) (by omega) (by omega)
  have f21_16 := sr_d 7 10 o.d.val o.a.code 0 o.t.code (by omega) (by omega) (by omega) (by omega)
  have f15_10 := sr_a 7 10 o.d.val o.a.code 0 o.t.code (by omega) (by omega) (by omega)
  have f9_4 := sr_b 7 10 o.d.val o.a.code 0 o.t.code (by omega) (by omega)
  have f3_0 := sr_low 7 10 o.d.val o.a.code 0 o.t.code (by omega)
  have h0 : packSr 7 10 o.d.val o.a.code 0 o.t.code ≠ 0 := by rw [ne_eq, sr_zero]; omega
  try simp only [pk8_hi, pk8_lo, pk16_hi, pk16_lo, pk8_flag, ofFlag_one, pk_loop_pre, pk_loop_stg, pk_loop_len, pk_spawn_nm, pk_spawn_core, pk_spawn_entry, pk_spawn_zero, pk_cvt_part, pk_cvt_ty, fin8_mod8, fin16_mod16] at f21_16 f15_10 f9_4 f3_0
  refine encoded_as _ (packSr 7 10 o.d.val o.a.code 0 o.t.code) (ofFlag o.nw * 8 + o.m.val) rfl ?_
  generalize packSr 7 10 o.d.val o.a.code 0 o.t.code = w at *
  rw [decodeWord_class7 _ _ h0 f31_28]; unfold decVSpecial; rw [f27_22]
  simp (disch := omega) [decVUn_of w o f21_16 f15_10 f9_4 f3_0, ok_bind, Nat.div_eq_of_lt, Nat.mod_eq_of_lt, wf]

theorem RoundTrip.vdot (o : VBin) : RoundTrip.Statement (.vdot o) := by
  intro wf; simp only [Instr.wf, Bool.and_eq_true] at wf
  have := o.a.code_lt
  have := o.b.code_lt
  have := o.t.code_lt
  have := o.d.isLt
  have := o.m.isLt
  have := ofFlag_lt o.nw
  have f31_28 := sr_class 7 11 o.d.val o.a.code o.b.code o.t.code (by omega) (by omega) (by omega) (by omega) (by omega) (by omega)
  have f27_22 := sr_minor 7 11 o.d.val o.a.code o.b.code o.t.code (by omega) (by omega) (by omega) (by omega) (by omega)
  have f21_16 := sr_d 7 11 o.d.val o.a.code o.b.code o.t.code (by omega) (by omega) (by omega) (by omega)
  have f15_10 := sr_a 7 11 o.d.val o.a.code o.b.code o.t.code (by omega) (by omega) (by omega)
  have f9_4 := sr_b 7 11 o.d.val o.a.code o.b.code o.t.code (by omega) (by omega)
  have f3_0 := sr_low 7 11 o.d.val o.a.code o.b.code o.t.code (by omega)
  have h0 : packSr 7 11 o.d.val o.a.code o.b.code o.t.code ≠ 0 := by rw [ne_eq, sr_zero]; omega
  try simp only [pk8_hi, pk8_lo, pk16_hi, pk16_lo, pk8_flag, ofFlag_one, pk_loop_pre, pk_loop_stg, pk_loop_len, pk_spawn_nm, pk_spawn_core, pk_spawn_entry, pk_spawn_zero, pk_cvt_part, pk_cvt_ty, fin8_mod8, fin16_mod16] at f21_16 f15_10 f9_4 f3_0
  refine encoded_as _ (packSr 7 11 o.d.val o.a.code o.b.code o.t.code) (ofFlag o.nw * 8 + o.m.val) rfl ?_
  generalize packSr 7 11 o.d.val o.a.code o.b.code o.t.code = w at *
  rw [decodeWord_class7 _ _ h0 f31_28]; unfold decVSpecial; rw [f27_22]
  simp (disch := omega) [decVBin_of w o f21_16 f15_10 f9_4 f3_0, ok_bind, Nat.div_eq_of_lt, Nat.mod_eq_of_lt, wf]

theorem RoundTrip.mshape (f : EngFmt) (a : Fin 32) (b : SSrc) (c : SSrc) : RoundTrip.Statement (.mshape f a b c) := by
  intro wf; simp only [Instr.wf, Bool.and_eq_true] at wf
  have := b.code_lt
  have := c.code_lt
  have := f.code_lt
  have := a.isLt
  have f31_28 := sr_class 8 0 a.val b.code c.code f.code (by omega) (by omega) (by omega) (by omega) (by omega) (by omega)
  have f27_22 := sr_minor 8 0 a.val b.code c.code f.code (by omega) (by omega) (by omega) (by omega) (by omega)
  have f3_0 := sr_low 8 0 a.val b.code c.code f.code (by omega)
  have f21_16 := sr_d 8 0 a.val b.code c.code f.code (by omega) (by omega) (by omega) (by omega)
  have f15_10 := sr_a 8 0 a.val b.code c.code f.code (by omega) (by omega) (by omega)
  have f9_4 := sr_b 8 0 a.val b.code c.code f.code (by omega) (by omega)
  have h0 : packSr 8 0 a.val b.code c.code f.code ≠ 0 := by rw [ne_eq, sr_zero]; omega
  try simp only [pk8_hi, pk8_lo, pk16_hi, pk16_lo, pk8_flag, ofFlag_one, pk_loop_pre, pk_loop_stg, pk_loop_len, pk_spawn_nm, pk_spawn_core, pk_spawn_entry, pk_spawn_zero, pk_cvt_part, pk_cvt_ty, fin8_mod8, fin16_mod16] at f3_0 f21_16 f15_10 f9_4
  refine encoded_as _ (packSr 8 0 a.val b.code c.code f.code) (0) rfl ?_
  generalize packSr 8 0 a.val b.code c.code f.code = w at *
  rw [decodeWord_class8 _ _ h0 f31_28]; unfold decMatrix; rw [f27_22]
  simp (disch := omega) [f3_0, f21_16, f15_10, f9_4, ok_bind, Nat.div_eq_of_lt, Nat.mod_eq_of_lt, wf]

theorem RoundTrip.mcfg (l : Fin 8) (dr : Bool) (o : En3) : RoundTrip.Statement (.mcfg l dr o) := by
  intro wf; simp only [Instr.wf, Bool.and_eq_true] at wf
  have := o.a.code_lt
  have := o.b.code_lt
  have := o.c.code_lt
  have := l.isLt
  have := ofFlag_lt dr
  have f31_28 := sr_class 8 1 o.a.code o.b.code o.c.code (ofFlag dr * 8 + l.val) (by omega) (by omega) (by omega) (by omega) (by omega) (by omega)
  have f27_22 := sr_minor 8 1 o.a.code o.b.code o.c.code (ofFlag dr * 8 + l.val) (by omega) (by omega) (by omega) (by omega) (by omega)
  have f21_16 := sr_d 8 1 o.a.code o.b.code o.c.code (ofFlag dr * 8 + l.val) (by omega) (by omega) (by omega) (by omega)
  have f15_10 := sr_a 8 1 o.a.code o.b.code o.c.code (ofFlag dr * 8 + l.val) (by omega) (by omega) (by omega)
  have f9_4 := sr_b 8 1 o.a.code o.b.code o.c.code (ofFlag dr * 8 + l.val) (by omega) (by omega)
  have f2_0 := sr_low3 8 1 o.a.code o.b.code o.c.code (ofFlag dr * 8 + l.val)
  have f3 := sr_flag3 8 1 o.a.code o.b.code o.c.code (ofFlag dr * 8 + l.val) (by omega)
  have h0 : packSr 8 1 o.a.code o.b.code o.c.code (ofFlag dr * 8 + l.val) ≠ 0 := by rw [ne_eq, sr_zero]; omega
  try simp only [pk8_hi, pk8_lo, pk16_hi, pk16_lo, pk8_flag, ofFlag_one, pk_loop_pre, pk_loop_stg, pk_loop_len, pk_spawn_nm, pk_spawn_core, pk_spawn_entry, pk_spawn_zero, pk_cvt_part, pk_cvt_ty, fin8_mod8, fin16_mod16] at f21_16 f15_10 f9_4 f2_0 f3
  refine encoded_as _ (packSr 8 1 o.a.code o.b.code o.c.code (ofFlag dr * 8 + l.val)) (0) rfl ?_
  generalize packSr 8 1 o.a.code o.b.code o.c.code (ofFlag dr * 8 + l.val) = w at *
  rw [decodeWord_class8 _ _ h0 f31_28]; unfold decMatrix; rw [f27_22]
  simp (disch := omega) [decEn3_of w o f21_16 f15_10 f9_4, f2_0, f3, ok_bind, Nat.div_eq_of_lt, Nat.mod_eq_of_lt, wf]

theorem RoundTrip.mopnd (isB : Bool) (a : Fin 32) (b : SSrc) (h : Fin 16) : RoundTrip.Statement (.mopnd isB a b h) := by
  intro wf; simp only [Instr.wf, Bool.and_eq_true] at wf
  have := b.code_lt
  have := a.isLt
  have := h.isLt
  have := ofFlag_lt isB
  have f31_28 := sr_class 8 2 a.val b.code h.val (ofFlag isB) (by omega) (by omega) (by omega) (by omega) (by omega) (by omega)
  have f27_22 := sr_minor 8 2 a.val b.code h.val (ofFlag isB) (by omega) (by omega) (by omega) (by omega) (by omega)
  have f3_1 := sr_low1 8 2 a.val b.code h.val (ofFlag isB) (by omega)
  have f0 := sr_flag0 8 2 a.val b.code h.val (ofFlag isB)
  have f21_16 := sr_d 8 2 a.val b.code h.val (ofFlag isB) (by omega) (by omega) (by omega) (by omega)
  have f15_10 := sr_a 8 2 a.val b.code h.val (ofFlag isB) (by omega) (by omega) (by omega)
  have f9_4 := sr_b 8 2 a.val b.code h.val (ofFlag isB) (by omega) (by omega)
  have h0 : packSr 8 2 a.val b.code h.val (ofFlag isB) ≠ 0 := by rw [ne_eq, sr_zero]; omega
  try simp only [pk8_hi, pk8_lo, pk16_hi, pk16_lo, pk8_flag, ofFlag_one, pk_loop_pre, pk_loop_stg, pk_loop_len, pk_spawn_nm, pk_spawn_core, pk_spawn_entry, pk_spawn_zero, pk_cvt_part, pk_cvt_ty, fin8_mod8, fin16_mod16] at f3_1 f0 f21_16 f15_10 f9_4
  refine encoded_as _ (packSr 8 2 a.val b.code h.val (ofFlag isB)) (0) rfl ?_
  generalize packSr 8 2 a.val b.code h.val (ofFlag isB) = w at *
  rw [decodeWord_class8 _ _ h0 f31_28]; unfold decMatrix; rw [f27_22]
  simp (disch := omega) [f3_1, f0, f21_16, f15_10, f9_4, ok_bind, Nat.div_eq_of_lt, Nat.mod_eq_of_lt, wf]

theorem RoundTrip.mrot (o : En3) : RoundTrip.Statement (.mrot o) := by
  intro wf; simp only [Instr.wf, Bool.and_eq_true] at wf
  have := o.a.code_lt
  have := o.b.code_lt
  have := o.c.code_lt
  have f31_28 := sr_class 8 3 o.a.code o.b.code o.c.code 0 (by omega) (by omega) (by omega) (by omega) (by omega) (by omega)
  have f27_22 := sr_minor 8 3 o.a.code o.b.code o.c.code 0 (by omega) (by omega) (by omega) (by omega) (by omega)
  have f21_16 := sr_d 8 3 o.a.code o.b.code o.c.code 0 (by omega) (by omega) (by omega) (by omega)
  have f15_10 := sr_a 8 3 o.a.code o.b.code o.c.code 0 (by omega) (by omega) (by omega)
  have f9_4 := sr_b 8 3 o.a.code o.b.code o.c.code 0 (by omega) (by omega)
  have f3_0 := sr_low 8 3 o.a.code o.b.code o.c.code 0 (by omega)
  have h0 : packSr 8 3 o.a.code o.b.code o.c.code 0 ≠ 0 := by rw [ne_eq, sr_zero]; omega
  try simp only [pk8_hi, pk8_lo, pk16_hi, pk16_lo, pk8_flag, ofFlag_one, pk_loop_pre, pk_loop_stg, pk_loop_len, pk_spawn_nm, pk_spawn_core, pk_spawn_entry, pk_spawn_zero, pk_cvt_part, pk_cvt_ty, fin8_mod8, fin16_mod16] at f21_16 f15_10 f9_4 f3_0
  refine encoded_as _ (packSr 8 3 o.a.code o.b.code o.c.code 0) (0) rfl ?_
  generalize packSr 8 3 o.a.code o.b.code o.c.code 0 = w at *
  rw [decodeWord_class8 _ _ h0 f31_28]; unfold decMatrix; rw [f27_22]
  simp (disch := omega) [decEn3_of w o f21_16 f15_10 f9_4, f3_0, ok_bind, Nat.div_eq_of_lt, Nat.mod_eq_of_lt, wf]

theorem RoundTrip.mprof (p : BitVec 8) : RoundTrip.Statement (.mprof p) := by
  intro wf; simp only [Instr.wf, Bool.and_eq_true] at wf
  have := p.isLt
  have f31_28 := sr_class 8 4 0 0 0 0 (by omega) (by omega) (by omega) (by omega) (by omega) (by omega)
  have f27_22 := sr_minor 8 4 0 0 0 0 (by omega) (by omega) (by omega) (by omega) (by omega)
  have f21_0 := sr_210 8 4 0 0 0 0 (by omega) (by omega) (by omega) (by omega)
  have h0 : packSr 8 4 0 0 0 0 ≠ 0 := by rw [ne_eq, sr_zero]; omega
  try simp only [pk8_hi, pk8_lo, pk16_hi, pk16_lo, pk8_flag, ofFlag_one, pk_loop_pre, pk_loop_stg, pk_loop_len, pk_spawn_nm, pk_spawn_core, pk_spawn_entry, pk_spawn_zero, pk_cvt_part, pk_cvt_ty, fin8_mod8, fin16_mod16] at f21_0
  refine encoded_as _ (packSr 8 4 0 0 0 0) (p.toNat) rfl ?_
  generalize packSr 8 4 0 0 0 0 = w at *
  rw [decodeWord_class8 _ _ h0 f31_28]; unfold decMatrix; rw [f27_22]
  simp (disch := omega) [f21_0, ok_bind, Nat.div_eq_of_lt, Nat.mod_eq_of_lt, wf]

theorem RoundTrip.mdrain (a : Fin 32) (b : SSrc) (c : SSrc) : RoundTrip.Statement (.mdrain a b c) := by
  intro wf; simp only [Instr.wf, Bool.and_eq_true] at wf
  have := b.code_lt
  have := c.code_lt
  have := a.isLt
  have f31_28 := sr_class 8 5 a.val b.code c.code 0 (by omega) (by omega) (by omega) (by omega) (by omega) (by omega)
  have f27_22 := sr_minor 8 5 a.val b.code c.code 0 (by omega) (by omega) (by omega) (by omega) (by omega)
  have f3_0 := sr_low 8 5 a.val b.code c.code 0 (by omega)
  have f21_16 := sr_d 8 5 a.val b.code c.code 0 (by omega) (by omega) (by omega) (by omega)
  have f15_10 := sr_a 8 5 a.val b.code c.code 0 (by omega) (by omega) (by omega)
  have f9_4 := sr_b 8 5 a.val b.code c.code 0 (by omega) (by omega)
  have h0 : packSr 8 5 a.val b.code c.code 0 ≠ 0 := by rw [ne_eq, sr_zero]; omega
  try simp only [pk8_hi, pk8_lo, pk16_hi, pk16_lo, pk8_flag, ofFlag_one, pk_loop_pre, pk_loop_stg, pk_loop_len, pk_spawn_nm, pk_spawn_core, pk_spawn_entry, pk_spawn_zero, pk_cvt_part, pk_cvt_ty, fin8_mod8, fin16_mod16] at f3_0 f21_16 f15_10 f9_4
  refine encoded_as _ (packSr 8 5 a.val b.code c.code 0) (0) rfl ?_
  generalize packSr 8 5 a.val b.code c.code 0 = w at *
  rw [decodeWord_class8 _ _ h0 f31_28]; unfold decMatrix; rw [f27_22]
  simp (disch := omega) [f3_0, f21_16, f15_10, f9_4, ok_bind, Nat.div_eq_of_lt, Nat.mod_eq_of_lt, wf]

theorem RoundTrip.mgo : RoundTrip.Statement (.mgo) := by
  intro wf; simp only [Instr.wf, Bool.and_eq_true] at wf
  have f31_28 := sr_class 8 6 0 0 0 0 (by omega) (by omega) (by omega) (by omega) (by omega) (by omega)
  have f27_22 := sr_minor 8 6 0 0 0 0 (by omega) (by omega) (by omega) (by omega) (by omega)
  have f21_0 := sr_210 8 6 0 0 0 0 (by omega) (by omega) (by omega) (by omega)
  have h0 : packSr 8 6 0 0 0 0 ≠ 0 := by rw [ne_eq, sr_zero]; omega
  try simp only [pk8_hi, pk8_lo, pk16_hi, pk16_lo, pk8_flag, ofFlag_one, pk_loop_pre, pk_loop_stg, pk_loop_len, pk_spawn_nm, pk_spawn_core, pk_spawn_entry, pk_spawn_zero, pk_cvt_part, pk_cvt_ty, fin8_mod8, fin16_mod16] at f21_0
  refine encoded_as _ (packSr 8 6 0 0 0 0) (0) rfl ?_
  generalize packSr 8 6 0 0 0 0 = w at *
  rw [decodeWord_class8 _ _ h0 f31_28]; unfold decMatrix; rw [f27_22]
  simp (disch := omega) [f21_0, ok_bind, Nat.div_eq_of_lt, Nat.mod_eq_of_lt, wf]

theorem RoundTrip.mwait : RoundTrip.Statement (.mwait) := by
  intro wf; simp only [Instr.wf, Bool.and_eq_true] at wf
  have f31_28 := sr_class 8 7 0 0 0 0 (by omega) (by omega) (by omega) (by omega) (by omega) (by omega)
  have f27_22 := sr_minor 8 7 0 0 0 0 (by omega) (by omega) (by omega) (by omega) (by omega)
  have f21_0 := sr_210 8 7 0 0 0 0 (by omega) (by omega) (by omega) (by omega)
  have h0 : packSr 8 7 0 0 0 0 ≠ 0 := by rw [ne_eq, sr_zero]; omega
  try simp only [pk8_hi, pk8_lo, pk16_hi, pk16_lo, pk8_flag, ofFlag_one, pk_loop_pre, pk_loop_stg, pk_loop_len, pk_spawn_nm, pk_spawn_core, pk_spawn_entry, pk_spawn_zero, pk_cvt_part, pk_cvt_ty, fin8_mod8, fin16_mod16] at f21_0
  refine encoded_as _ (packSr 8 7 0 0 0 0) (0) rfl ?_
  generalize packSr 8 7 0 0 0 0 = w at *
  rw [decodeWord_class8 _ _ h0 f31_28]; unfold decMatrix; rw [f27_22]
  simp (disch := omega) [f21_0, ok_bind, Nat.div_eq_of_lt, Nat.mod_eq_of_lt, wf]

theorem RoundTrip.mstat (a : Fin 32) : RoundTrip.Statement (.mstat a) := by
  intro wf; simp only [Instr.wf, Bool.and_eq_true] at wf
  have := a.isLt
  have f31_28 := sr_class 8 8 a.val 0 0 0 (by omega) (by omega) (by omega) (by omega) (by omega) (by omega)
  have f27_22 := sr_minor 8 8 a.val 0 0 0 (by omega) (by omega) (by omega) (by omega) (by omega)
  have f15_0 := sr_150 8 8 a.val 0 0 0 (by omega) (by omega) (by omega)
  have f21_16 := sr_d 8 8 a.val 0 0 0 (by omega) (by omega) (by omega) (by omega)
  have h0 : packSr 8 8 a.val 0 0 0 ≠ 0 := by rw [ne_eq, sr_zero]; omega
  try simp only [pk8_hi, pk8_lo, pk16_hi, pk16_lo, pk8_flag, ofFlag_one, pk_loop_pre, pk_loop_stg, pk_loop_len, pk_spawn_nm, pk_spawn_core, pk_spawn_entry, pk_spawn_zero, pk_cvt_part, pk_cvt_ty, fin8_mod8, fin16_mod16] at f15_0 f21_16
  refine encoded_as _ (packSr 8 8 a.val 0 0 0) (0) rfl ?_
  generalize packSr 8 8 a.val 0 0 0 = w at *
  rw [decodeWord_class8 _ _ h0 f31_28]; unfold decMatrix; rw [f27_22]
  simp (disch := omega) [f15_0, f21_16, ok_bind, Nat.div_eq_of_lt, Nat.mod_eq_of_lt, wf]

theorem RoundTrip.mzero (b : SSrc) (c : SSrc) : RoundTrip.Statement (.mzero b c) := by
  intro wf; simp only [Instr.wf, Bool.and_eq_true] at wf
  have := b.code_lt
  have := c.code_lt
  have f31_28 := sr_class 8 9 0 b.code c.code 0 (by omega) (by omega) (by omega) (by omega) (by omega) (by omega)
  have f27_22 := sr_minor 8 9 0 b.code c.code 0 (by omega) (by omega) (by omega) (by omega) (by omega)
  have f21_16 := sr_d 8 9 0 b.code c.code 0 (by omega) (by omega) (by omega) (by omega)
  have f3_0 := sr_low 8 9 0 b.code c.code 0 (by omega)
  have f15_10 := sr_a 8 9 0 b.code c.code 0 (by omega) (by omega) (by omega)
  have f9_4 := sr_b 8 9 0 b.code c.code 0 (by omega) (by omega)
  have h0 : packSr 8 9 0 b.code c.code 0 ≠ 0 := by rw [ne_eq, sr_zero]; omega
  try simp only [pk8_hi, pk8_lo, pk16_hi, pk16_lo, pk8_flag, ofFlag_one, pk_loop_pre, pk_loop_stg, pk_loop_len, pk_spawn_nm, pk_spawn_core, pk_spawn_entry, pk_spawn_zero, pk_cvt_part, pk_cvt_ty, fin8_mod8, fin16_mod16] at f21_16 f3_0 f15_10 f9_4
  refine encoded_as _ (packSr 8 9 0 b.code c.code 0) (0) rfl ?_
  generalize packSr 8 9 0 b.code c.code 0 = w at *
  rw [decodeWord_class8 _ _ h0 f31_28]; unfold decMatrix; rw [f27_22]
  simp (disch := omega) [f21_16, f3_0, f15_10, f9_4, ok_bind, Nat.div_eq_of_lt, Nat.mod_eq_of_lt, wf]

theorem RoundTrip.rqbind (q : Fin 8) (b : SSrc) (bd : Bool) : RoundTrip.Statement (.rqbind q b bd) := by
  intro wf; simp only [Instr.wf, Bool.and_eq_true] at wf
  have := b.code_lt
  have := q.isLt
  have := ofFlag_lt bd
  have f31_28 := sr_class 8 10 q.val b.code 0 (ofFlag bd) (by omega) (by omega) (by omega) (by omega) (by omega) (by omega)
  have f27_22 := sr_minor 8 10 q.val b.code 0 (ofFlag bd) (by omega) (by omega) (by omega) (by omega) (by omega)
  have f9_1 := sr_91 8 10 q.val b.code 0 (ofFlag bd) (by omega) (by omega)
  have f21_16 := sr_d 8 10 q.val b.code 0 (ofFlag bd) (by omega) (by omega) (by omega) (by omega)
  have f15_10 := sr_a 8 10 q.val b.code 0 (ofFlag bd) (by omega) (by omega) (by omega)
  have f0 := sr_flag0 8 10 q.val b.code 0 (ofFlag bd)
  have h0 : packSr 8 10 q.val b.code 0 (ofFlag bd) ≠ 0 := by rw [ne_eq, sr_zero]; omega
  try simp only [pk8_hi, pk8_lo, pk16_hi, pk16_lo, pk8_flag, ofFlag_one, pk_loop_pre, pk_loop_stg, pk_loop_len, pk_spawn_nm, pk_spawn_core, pk_spawn_entry, pk_spawn_zero, pk_cvt_part, pk_cvt_ty, fin8_mod8, fin16_mod16] at f9_1 f21_16 f15_10 f0
  refine encoded_as _ (packSr 8 10 q.val b.code 0 (ofFlag bd)) (0) rfl ?_
  generalize packSr 8 10 q.val b.code 0 (ofFlag bd) = w at *
  rw [decodeWord_class8 _ _ h0 f31_28]; unfold decMatrix; rw [f27_22]
  simp (disch := omega) [f9_1, f21_16, f15_10, f0, ok_bind, Nat.div_eq_of_lt, Nat.mod_eq_of_lt, wf]

theorem RoundTrip.cpy (o : CpyOp) : RoundTrip.Statement (.cpy o) := by
  intro wf; simp only [Instr.wf, Bool.and_eq_true] at wf
  have := o.b.code_lt
  have := o.a.isLt
  have := o.hs.isLt
  have := o.hd.isLt
  have f31_28 := sr_class 9 0 o.a.val o.b.code o.hs.val o.hd.val (by omega) (by omega) (by omega) (by omega) (by omega) (by omega)
  have f27_22 := sr_minor 9 0 o.a.val o.b.code o.hs.val o.hd.val (by omega) (by omega) (by omega) (by omega) (by omega)
  have f21_16 := sr_d 9 0 o.a.val o.b.code o.hs.val o.hd.val (by omega) (by omega) (by omega) (by omega)
  have f15_10 := sr_a 9 0 o.a.val o.b.code o.hs.val o.hd.val (by omega) (by omega) (by omega)
  have f9_4 := sr_b 9 0 o.a.val o.b.code o.hs.val o.hd.val (by omega) (by omega)
  have f3_0 := sr_low 9 0 o.a.val o.b.code o.hs.val o.hd.val (by omega)
  have h0 : packSr 9 0 o.a.val o.b.code o.hs.val o.hd.val ≠ 0 := by rw [ne_eq, sr_zero]; omega
  try simp only [pk8_hi, pk8_lo, pk16_hi, pk16_lo, pk8_flag, ofFlag_one, pk_loop_pre, pk_loop_stg, pk_loop_len, pk_spawn_nm, pk_spawn_core, pk_spawn_entry, pk_spawn_zero, pk_cvt_part, pk_cvt_ty, fin8_mod8, fin16_mod16] at f21_16 f15_10 f9_4 f3_0
  refine encoded_as _ (packSr 9 0 o.a.val o.b.code o.hs.val o.hd.val) (0) rfl ?_
  generalize packSr 9 0 o.a.val o.b.code o.hs.val o.hd.val = w at *
  rw [decodeWord_class9 _ _ h0 f31_28]; unfold decCopy; rw [f27_22]
  simp (disch := omega) [decCpy_of w o f21_16 f15_10 f9_4 f3_0, ok_bind, Nat.div_eq_of_lt, Nat.mod_eq_of_lt, wf]

theorem RoundTrip.cpym (o : CpyOp) : RoundTrip.Statement (.cpym o) := by
  intro wf; simp only [Instr.wf, Bool.and_eq_true] at wf
  have := o.b.code_lt
  have := o.a.isLt
  have := o.hs.isLt
  have := o.hd.isLt
  have f31_28 := sr_class 9 1 o.a.val o.b.code o.hs.val o.hd.val (by omega) (by omega) (by omega) (by omega) (by omega) (by omega)
  have f27_22 := sr_minor 9 1 o.a.val o.b.code o.hs.val o.hd.val (by omega) (by omega) (by omega) (by omega) (by omega)
  have f21_16 := sr_d 9 1 o.a.val o.b.code o.hs.val o.hd.val (by omega) (by omega) (by omega) (by omega)
  have f15_10 := sr_a 9 1 o.a.val o.b.code o.hs.val o.hd.val (by omega) (by omega) (by omega)
  have f9_4 := sr_b 9 1 o.a.val o.b.code o.hs.val o.hd.val (by omega) (by omega)
  have f3_0 := sr_low 9 1 o.a.val o.b.code o.hs.val o.hd.val (by omega)
  have h0 : packSr 9 1 o.a.val o.b.code o.hs.val o.hd.val ≠ 0 := by rw [ne_eq, sr_zero]; omega
  try simp only [pk8_hi, pk8_lo, pk16_hi, pk16_lo, pk8_flag, ofFlag_one, pk_loop_pre, pk_loop_stg, pk_loop_len, pk_spawn_nm, pk_spawn_core, pk_spawn_entry, pk_spawn_zero, pk_cvt_part, pk_cvt_ty, fin8_mod8, fin16_mod16] at f21_16 f15_10 f9_4 f3_0
  refine encoded_as _ (packSr 9 1 o.a.val o.b.code o.hs.val o.hd.val) (0) rfl ?_
  generalize packSr 9 1 o.a.val o.b.code o.hs.val o.hd.val = w at *
  rw [decodeWord_class9 _ _ h0 f31_28]; unfold decCopy; rw [f27_22]
  simp (disch := omega) [decCpy_of w o f21_16 f15_10 f9_4 f3_0, ok_bind, Nat.div_eq_of_lt, Nat.mod_eq_of_lt, wf]

theorem RoundTrip.cpyc (o : CpyOp) : RoundTrip.Statement (.cpyc o) := by
  intro wf; simp only [Instr.wf, Bool.and_eq_true] at wf
  have := o.b.code_lt
  have := o.a.isLt
  have := o.hs.isLt
  have := o.hd.isLt
  have f31_28 := sr_class 9 2 o.a.val o.b.code o.hs.val o.hd.val (by omega) (by omega) (by omega) (by omega) (by omega) (by omega)
  have f27_22 := sr_minor 9 2 o.a.val o.b.code o.hs.val o.hd.val (by omega) (by omega) (by omega) (by omega) (by omega)
  have f21_16 := sr_d 9 2 o.a.val o.b.code o.hs.val o.hd.val (by omega) (by omega) (by omega) (by omega)
  have f15_10 := sr_a 9 2 o.a.val o.b.code o.hs.val o.hd.val (by omega) (by omega) (by omega)
  have f9_4 := sr_b 9 2 o.a.val o.b.code o.hs.val o.hd.val (by omega) (by omega)
  have f3_0 := sr_low 9 2 o.a.val o.b.code o.hs.val o.hd.val (by omega)
  have h0 : packSr 9 2 o.a.val o.b.code o.hs.val o.hd.val ≠ 0 := by rw [ne_eq, sr_zero]; omega
  try simp only [pk8_hi, pk8_lo, pk16_hi, pk16_lo, pk8_flag, ofFlag_one, pk_loop_pre, pk_loop_stg, pk_loop_len, pk_spawn_nm, pk_spawn_core, pk_spawn_entry, pk_spawn_zero, pk_cvt_part, pk_cvt_ty, fin8_mod8, fin16_mod16] at f21_16 f15_10 f9_4 f3_0
  refine encoded_as _ (packSr 9 2 o.a.val o.b.code o.hs.val o.hd.val) (0) rfl ?_
  generalize packSr 9 2 o.a.val o.b.code o.hs.val o.hd.val = w at *
  rw [decodeWord_class9 _ _ h0 f31_28]; unfold decCopy; rw [f27_22]
  simp (disch := omega) [decCpy_of w o f21_16 f15_10 f9_4 f3_0, ok_bind, Nat.div_eq_of_lt, Nat.mod_eq_of_lt, wf]

theorem RoundTrip.cpyr (a : Fin 32) (b : SSrc) (q : Fin 8) (hd : Fin 16) : RoundTrip.Statement (.cpyr a b q hd) := by
  intro wf; simp only [Instr.wf, Bool.and_eq_true] at wf
  have := b.code_lt
  have := a.isLt
  have := q.isLt
  have := hd.isLt
  have f31_28 := sr_class 9 3 a.val b.code q.val hd.val (by omega) (by omega) (by omega) (by omega) (by omega) (by omega)
  have f27_22 := sr_minor 9 3 a.val b.code q.val hd.val (by omega) (by omega) (by omega) (by omega) (by omega)
  have f21_16 := sr_d 9 3 a.val b.code q.val hd.val (by omega) (by omega) (by omega) (by omega)
  have f15_10 := sr_a 9 3 a.val b.code q.val hd.val (by omega) (by omega) (by omega)
  have f9_4 := sr_b 9 3 a.val b.code q.val hd.val (by omega) (by omega)
  have f3_0 := sr_low 9 3 a.val b.code q.val hd.val (by omega)
  have h0 : packSr 9 3 a.val b.code q.val hd.val ≠ 0 := by rw [ne_eq, sr_zero]; omega
  try simp only [pk8_hi, pk8_lo, pk16_hi, pk16_lo, pk8_flag, ofFlag_one, pk_loop_pre, pk_loop_stg, pk_loop_len, pk_spawn_nm, pk_spawn_core, pk_spawn_entry, pk_spawn_zero, pk_cvt_part, pk_cvt_ty, fin8_mod8, fin16_mod16] at f21_16 f15_10 f9_4 f3_0
  refine encoded_as _ (packSr 9 3 a.val b.code q.val hd.val) (0) rfl ?_
  generalize packSr 9 3 a.val b.code q.val hd.val = w at *
  rw [decodeWord_class9 _ _ h0 f31_28]; unfold decCopy; rw [f27_22]
  simp (disch := omega) [f21_16, f15_10, f9_4, f3_0, ok_bind, Nat.div_eq_of_lt, Nat.mod_eq_of_lt, wf]

theorem RoundTrip.cwait (a : Fin 32) (b : SSrc) : RoundTrip.Statement (.cwait a b) := by
  intro wf; simp only [Instr.wf, Bool.and_eq_true] at wf
  have := b.code_lt
  have := a.isLt
  have f31_28 := sr_class 9 4 a.val b.code 0 0 (by omega) (by omega) (by omega) (by omega) (by omega) (by omega)
  have f27_22 := sr_minor 9 4 a.val b.code 0 0 (by omega) (by omega) (by omega) (by omega) (by omega)
  have f9_0 := sr_90 9 4 a.val b.code 0 0 (by omega) (by omega)
  have f21_16 := sr_d 9 4 a.val b.code 0 0 (by omega) (by omega) (by omega) (by omega)
  have f15_10 := sr_a 9 4 a.val b.code 0 0 (by omega) (by omega) (by omega)
  have h0 : packSr 9 4 a.val b.code 0 0 ≠ 0 := by rw [ne_eq, sr_zero]; omega
  try simp only [pk8_hi, pk8_lo, pk16_hi, pk16_lo, pk8_flag, ofFlag_one, pk_loop_pre, pk_loop_stg, pk_loop_len, pk_spawn_nm, pk_spawn_core, pk_spawn_entry, pk_spawn_zero, pk_cvt_part, pk_cvt_ty, fin8_mod8, fin16_mod16] at f9_0 f21_16 f15_10
  refine encoded_as _ (packSr 9 4 a.val b.code 0 0) (0) rfl ?_
  generalize packSr 9 4 a.val b.code 0 0 = w at *
  rw [decodeWord_class9 _ _ h0 f31_28]; unfold decCopy; rw [f27_22]
  simp (disch := omega) [f9_0, f21_16, f15_10, ok_bind, Nat.div_eq_of_lt, Nat.mod_eq_of_lt, wf]

theorem RoundTrip.cstat (a : Fin 32) (b : SSrc) : RoundTrip.Statement (.cstat a b) := by
  intro wf; simp only [Instr.wf, Bool.and_eq_true] at wf
  have := b.code_lt
  have := a.isLt
  have f31_28 := sr_class 9 5 a.val b.code 0 0 (by omega) (by omega) (by omega) (by omega) (by omega) (by omega)
  have f27_22 := sr_minor 9 5 a.val b.code 0 0 (by omega) (by omega) (by omega) (by omega) (by omega)
  have f9_0 := sr_90 9 5 a.val b.code 0 0 (by omega) (by omega)
  have f21_16 := sr_d 9 5 a.val b.code 0 0 (by omega) (by omega) (by omega) (by omega)
  have f15_10 := sr_a 9 5 a.val b.code 0 0 (by omega) (by omega) (by omega)
  have h0 : packSr 9 5 a.val b.code 0 0 ≠ 0 := by rw [ne_eq, sr_zero]; omega
  try simp only [pk8_hi, pk8_lo, pk16_hi, pk16_lo, pk8_flag, ofFlag_one, pk_loop_pre, pk_loop_stg, pk_loop_len, pk_spawn_nm, pk_spawn_core, pk_spawn_entry, pk_spawn_zero, pk_cvt_part, pk_cvt_ty, fin8_mod8, fin16_mod16] at f9_0 f21_16 f15_10
  refine encoded_as _ (packSr 9 5 a.val b.code 0 0) (0) rfl ?_
  generalize packSr 9 5 a.val b.code 0 0 = w at *
  rw [decodeWord_class9 _ _ h0 f31_28]; unfold decCopy; rw [f27_22]
  simp (disch := omega) [f9_0, f21_16, f15_10, ok_bind, Nat.div_eq_of_lt, Nat.mod_eq_of_lt, wf]

theorem RoundTrip.qnt (o : CpyOp) (md : RMode) (esc : Bool) : RoundTrip.Statement (.qnt o md esc) := by
  intro wf; simp only [Instr.wf, Bool.and_eq_true] at wf
  have := o.b.code_lt
  have := md.code_lt
  have := o.a.isLt
  have := o.hs.isLt
  have := o.hd.isLt
  have := ofFlag_lt esc
  have f31_28 := sr_class 9 6 o.a.val o.b.code o.hs.val o.hd.val (by omega) (by omega) (by omega) (by omega) (by omega) (by omega)
  have f27_22 := sr_minor 9 6 o.a.val o.b.code o.hs.val o.hd.val (by omega) (by omega) (by omega) (by omega) (by omega)
  have f21_16 := sr_d 9 6 o.a.val o.b.code o.hs.val o.hd.val (by omega) (by omega) (by omega) (by omega)
  have f15_10 := sr_a 9 6 o.a.val o.b.code o.hs.val o.hd.val (by omega) (by omega) (by omega)
  have f9_4 := sr_b 9 6 o.a.val o.b.code o.hs.val o.hd.val (by omega) (by omega)
  have f3_0 := sr_low 9 6 o.a.val o.b.code o.hs.val o.hd.val (by omega)
  have h0 : packSr 9 6 o.a.val o.b.code o.hs.val o.hd.val ≠ 0 := by rw [ne_eq, sr_zero]; omega
  try simp only [pk8_hi, pk8_lo, pk16_hi, pk16_lo, pk8_flag, ofFlag_one, pk_loop_pre, pk_loop_stg, pk_loop_len, pk_spawn_nm, pk_spawn_core, pk_spawn_entry, pk_spawn_zero, pk_cvt_part, pk_cvt_ty, fin8_mod8, fin16_mod16] at f21_16 f15_10 f9_4 f3_0
  refine encoded_as _ (packSr 9 6 o.a.val o.b.code o.hs.val o.hd.val) (ofFlag esc * 8 + md.code) rfl ?_
  generalize packSr 9 6 o.a.val o.b.code o.hs.val o.hd.val = w at *
  rw [decodeWord_class9 _ _ h0 f31_28]; unfold decCopy; rw [f27_22]
  simp (disch := omega) [decCpy_of w o f21_16 f15_10 f9_4 f3_0, lend_hi, lend_lo, lend_nw, lend0_hi, lend0_lo, lend0_nw, lend1_hi, lend1_lo, lend1_nw, lend2_hi, lend2_lo, lend2_nw, pk_amo_lt, pk_amo_bit, pk_amo_ord, pk_cas_bit, pk_cas_ord, pk_cas_hi, pk_bit0, pk_bit_lt, pk_bit_le, pk_sl_lo, pk_sl_bit, pk_sl_lt, pk_seam_pred, pk_seam_sat, pk_seam_lt, pk_pred, pk_pred_ok, pk_qnt_md, pk_qnt_bit, pk_qnt_lt, ok_bind, Nat.div_eq_of_lt, Nat.mod_eq_of_lt, wf]

theorem RoundTrip.qscl (a : Fin 32) (b : SSrc) (hs : Fin 16) (f : QsclFmt) : RoundTrip.Statement (.qscl a b hs f) := by
  intro wf; simp only [Instr.wf, Bool.and_eq_true] at wf
  have := b.code_lt
  have := f.code_lt
  have := a.isLt
  have := hs.isLt
  have f31_28 := sr_class 9 7 a.val b.code hs.val 0 (by omega) (by omega) (by omega) (by omega) (by omega) (by omega)
  have f27_22 := sr_minor 9 7 a.val b.code hs.val 0 (by omega) (by omega) (by omega) (by omega) (by omega)
  have f3_0 := sr_low 9 7 a.val b.code hs.val 0 (by omega)
  have f21_16 := sr_d 9 7 a.val b.code hs.val 0 (by omega) (by omega) (by omega) (by omega)
  have f15_10 := sr_a 9 7 a.val b.code hs.val 0 (by omega) (by omega) (by omega)
  have f9_4 := sr_b 9 7 a.val b.code hs.val 0 (by omega) (by omega)
  have h0 : packSr 9 7 a.val b.code hs.val 0 ≠ 0 := by rw [ne_eq, sr_zero]; omega
  try simp only [pk8_hi, pk8_lo, pk16_hi, pk16_lo, pk8_flag, ofFlag_one, pk_loop_pre, pk_loop_stg, pk_loop_len, pk_spawn_nm, pk_spawn_core, pk_spawn_entry, pk_spawn_zero, pk_cvt_part, pk_cvt_ty, fin8_mod8, fin16_mod16] at f3_0 f21_16 f15_10 f9_4
  refine encoded_as _ (packSr 9 7 a.val b.code hs.val 0) (f.code) rfl ?_
  generalize packSr 9 7 a.val b.code hs.val 0 = w at *
  rw [decodeWord_class9 _ _ h0 f31_28]; unfold decCopy; rw [f27_22]
  simp (disch := omega) [f3_0, f21_16, f15_10, f9_4, lend_hi, lend_lo, lend_nw, lend0_hi, lend0_lo, lend0_nw, lend1_hi, lend1_lo, lend1_nw, lend2_hi, lend2_lo, lend2_nw, pk_amo_lt, pk_amo_bit, pk_amo_ord, pk_cas_bit, pk_cas_ord, pk_cas_hi, pk_bit0, pk_bit_lt, pk_bit_le, pk_sl_lo, pk_sl_bit, pk_sl_lt, pk_seam_pred, pk_seam_sat, pk_seam_lt, pk_pred, pk_pred_ok, pk_qnt_md, pk_qnt_bit, pk_qnt_lt, ok_bind, Nat.div_eq_of_lt, Nat.mod_eq_of_lt, wf]

theorem RoundTrip.dqnt (o : CpyOp) (md : RMode) : RoundTrip.Statement (.dqnt o md) := by
  intro wf; simp only [Instr.wf, Bool.and_eq_true] at wf
  have := o.b.code_lt
  have := md.code_lt
  have := o.a.isLt
  have := o.hs.isLt
  have := o.hd.isLt
  have f31_28 := sr_class 9 8 o.a.val o.b.code o.hs.val o.hd.val (by omega) (by omega) (by omega) (by omega) (by omega) (by omega)
  have f27_22 := sr_minor 9 8 o.a.val o.b.code o.hs.val o.hd.val (by omega) (by omega) (by omega) (by omega) (by omega)
  have f21_16 := sr_d 9 8 o.a.val o.b.code o.hs.val o.hd.val (by omega) (by omega) (by omega) (by omega)
  have f15_10 := sr_a 9 8 o.a.val o.b.code o.hs.val o.hd.val (by omega) (by omega) (by omega)
  have f9_4 := sr_b 9 8 o.a.val o.b.code o.hs.val o.hd.val (by omega) (by omega)
  have f3_0 := sr_low 9 8 o.a.val o.b.code o.hs.val o.hd.val (by omega)
  have h0 : packSr 9 8 o.a.val o.b.code o.hs.val o.hd.val ≠ 0 := by rw [ne_eq, sr_zero]; omega
  try simp only [pk8_hi, pk8_lo, pk16_hi, pk16_lo, pk8_flag, ofFlag_one, pk_loop_pre, pk_loop_stg, pk_loop_len, pk_spawn_nm, pk_spawn_core, pk_spawn_entry, pk_spawn_zero, pk_cvt_part, pk_cvt_ty, fin8_mod8, fin16_mod16] at f21_16 f15_10 f9_4 f3_0
  refine encoded_as _ (packSr 9 8 o.a.val o.b.code o.hs.val o.hd.val) (md.code) rfl ?_
  generalize packSr 9 8 o.a.val o.b.code o.hs.val o.hd.val = w at *
  rw [decodeWord_class9 _ _ h0 f31_28]; unfold decCopy; rw [f27_22]
  simp (disch := omega) [decCpy_of w o f21_16 f15_10 f9_4 f3_0, lend_hi, lend_lo, lend_nw, lend0_hi, lend0_lo, lend0_nw, lend1_hi, lend1_lo, lend1_nw, lend2_hi, lend2_lo, lend2_nw, pk_amo_lt, pk_amo_bit, pk_amo_ord, pk_cas_bit, pk_cas_ord, pk_cas_hi, pk_bit0, pk_bit_lt, pk_bit_le, pk_sl_lo, pk_sl_bit, pk_sl_lt, pk_seam_pred, pk_seam_sat, pk_seam_lt, pk_pred, pk_pred_ok, pk_qnt_md, pk_qnt_bit, pk_qnt_lt, ok_bind, Nat.div_eq_of_lt, Nat.mod_eq_of_lt, wf]

theorem RoundTrip.sld (a : SSrc) (b : SSrc) (c : SSrc) (z : Fin 4) (sg : Bool) : RoundTrip.Statement (.sld a b c z sg) := by
  intro wf; simp only [Instr.wf, Bool.and_eq_true] at wf
  have := a.code_lt
  have := b.code_lt
  have := c.code_lt
  have := z.isLt
  have := ofFlag_lt sg
  have f31_28 := sr_class 10 0 a.code b.code c.code 0 (by omega) (by omega) (by omega) (by omega) (by omega) (by omega)
  have f27_22 := sr_minor 10 0 a.code b.code c.code 0 (by omega) (by omega) (by omega) (by omega) (by omega)
  have f3_0 := sr_low 10 0 a.code b.code c.code 0 (by omega)
  have f21_16 := sr_d 10 0 a.code b.code c.code 0 (by omega) (by omega) (by omega) (by omega)
  have f15_10 := sr_a 10 0 a.code b.code c.code 0 (by omega) (by omega) (by omega)
  have f9_4 := sr_b 10 0 a.code b.code c.code 0 (by omega) (by omega)
  have h0 : packSr 10 0 a.code b.code c.code 0 ≠ 0 := by rw [ne_eq, sr_zero]; omega
  try simp only [pk8_hi, pk8_lo, pk16_hi, pk16_lo, pk8_flag, ofFlag_one, pk_loop_pre, pk_loop_stg, pk_loop_len, pk_spawn_nm, pk_spawn_core, pk_spawn_entry, pk_spawn_zero, pk_cvt_part, pk_cvt_ty, fin8_mod8, fin16_mod16] at f3_0 f21_16 f15_10 f9_4
  refine encoded_as _ (packSr 10 0 a.code b.code c.code 0) (ofFlag sg * 4 + z.val) rfl ?_
  generalize packSr 10 0 a.code b.code c.code 0 = w at *
  rw [decodeWord_class10 _ _ h0 f31_28]; unfold decSeamOp; rw [f27_22]
  simp (disch := omega) [f3_0, f21_16, f15_10, f9_4, lend_hi, lend_lo, lend_nw, lend0_hi, lend0_lo, lend0_nw, lend1_hi, lend1_lo, lend1_nw, lend2_hi, lend2_lo, lend2_nw, pk_amo_lt, pk_amo_bit, pk_amo_ord, pk_cas_bit, pk_cas_ord, pk_cas_hi, pk_bit0, pk_bit_lt, pk_bit_le, pk_sl_lo, pk_sl_bit, pk_sl_lt, pk_seam_pred, pk_seam_sat, pk_seam_lt, pk_pred, pk_pred_ok, pk_qnt_md, pk_qnt_bit, pk_qnt_lt, ok_bind, Nat.div_eq_of_lt, Nat.mod_eq_of_lt, wf]

theorem RoundTrip.sst (a : SSrc) (b : SSrc) (c : SSrc) (z : Fin 4) (sg : Bool) : RoundTrip.Statement (.sst a b c z sg) := by
  intro wf; simp only [Instr.wf, Bool.and_eq_true] at wf
  have := a.code_lt
  have := b.code_lt
  have := c.code_lt
  have := z.isLt
  have := ofFlag_lt sg
  have f31_28 := sr_class 10 1 a.code b.code c.code 0 (by omega) (by omega) (by omega) (by omega) (by omega) (by omega)
  have f27_22 := sr_minor 10 1 a.code b.code c.code 0 (by omega) (by omega) (by omega) (by omega) (by omega)
  have f3_0 := sr_low 10 1 a.code b.code c.code 0 (by omega)
  have f21_16 := sr_d 10 1 a.code b.code c.code 0 (by omega) (by omega) (by omega) (by omega)
  have f15_10 := sr_a 10 1 a.code b.code c.code 0 (by omega) (by omega) (by omega)
  have f9_4 := sr_b 10 1 a.code b.code c.code 0 (by omega) (by omega)
  have h0 : packSr 10 1 a.code b.code c.code 0 ≠ 0 := by rw [ne_eq, sr_zero]; omega
  try simp only [pk8_hi, pk8_lo, pk16_hi, pk16_lo, pk8_flag, ofFlag_one, pk_loop_pre, pk_loop_stg, pk_loop_len, pk_spawn_nm, pk_spawn_core, pk_spawn_entry, pk_spawn_zero, pk_cvt_part, pk_cvt_ty, fin8_mod8, fin16_mod16] at f3_0 f21_16 f15_10 f9_4
  refine encoded_as _ (packSr 10 1 a.code b.code c.code 0) (ofFlag sg * 4 + z.val) rfl ?_
  generalize packSr 10 1 a.code b.code c.code 0 = w at *
  rw [decodeWord_class10 _ _ h0 f31_28]; unfold decSeamOp; rw [f27_22]
  simp (disch := omega) [f3_0, f21_16, f15_10, f9_4, lend_hi, lend_lo, lend_nw, lend0_hi, lend0_lo, lend0_nw, lend1_hi, lend1_lo, lend1_nw, lend2_hi, lend2_lo, lend2_nw, pk_amo_lt, pk_amo_bit, pk_amo_ord, pk_cas_bit, pk_cas_ord, pk_cas_hi, pk_bit0, pk_bit_lt, pk_bit_le, pk_sl_lo, pk_sl_bit, pk_sl_lt, pk_seam_pred, pk_seam_sat, pk_seam_lt, pk_pred, pk_pred_ok, pk_qnt_md, pk_qnt_bit, pk_qnt_lt, ok_bind, Nat.div_eq_of_lt, Nat.mod_eq_of_lt, wf]

theorem RoundTrip.sadd (o : SeamOp) (sat : Bool) : RoundTrip.Statement (.sadd o sat) := by
  intro wf; simp only [Instr.wf, Bool.and_eq_true] at wf
  have := o.a.code_lt
  have := o.b.code_lt
  have := o.c.code_lt
  have := ofFlag_lt o.pred
  have := ofFlag_lt sat
  have f31_28 := sr_class 10 2 o.a.code o.b.code o.c.code 0 (by omega) (by omega) (by omega) (by omega) (by omega) (by omega)
  have f27_22 := sr_minor 10 2 o.a.code o.b.code o.c.code 0 (by omega) (by omega) (by omega) (by omega) (by omega)
  have f21_16 := sr_d 10 2 o.a.code o.b.code o.c.code 0 (by omega) (by omega) (by omega) (by omega)
  have f15_10 := sr_a 10 2 o.a.code o.b.code o.c.code 0 (by omega) (by omega) (by omega)
  have f9_4 := sr_b 10 2 o.a.code o.b.code o.c.code 0 (by omega) (by omega)
  have f3_0 := sr_low 10 2 o.a.code o.b.code o.c.code 0 (by omega)
  have h0 : packSr 10 2 o.a.code o.b.code o.c.code 0 ≠ 0 := by rw [ne_eq, sr_zero]; omega
  try simp only [pk8_hi, pk8_lo, pk16_hi, pk16_lo, pk8_flag, ofFlag_one, pk_loop_pre, pk_loop_stg, pk_loop_len, pk_spawn_nm, pk_spawn_core, pk_spawn_entry, pk_spawn_zero, pk_cvt_part, pk_cvt_ty, fin8_mod8, fin16_mod16] at f21_16 f15_10 f9_4 f3_0
  refine encoded_as _ (packSr 10 2 o.a.code o.b.code o.c.code 0) (ofFlag o.pred * 2 + ofFlag sat) rfl ?_
  generalize packSr 10 2 o.a.code o.b.code o.c.code 0 = w at *
  rw [decodeWord_class10 _ _ h0 f31_28]; unfold decSeamOp; rw [f27_22]
  simp (disch := omega) [decSeam_of w (ofFlag o.pred * 2 + ofFlag sat) o f21_16 f15_10 f9_4 (by simp [pk_pred, pk_seam_pred]), f3_0, lend_hi, lend_lo, lend_nw, lend0_hi, lend0_lo, lend0_nw, lend1_hi, lend1_lo, lend1_nw, lend2_hi, lend2_lo, lend2_nw, pk_amo_lt, pk_amo_bit, pk_amo_ord, pk_cas_bit, pk_cas_ord, pk_cas_hi, pk_bit0, pk_bit_lt, pk_bit_le, pk_sl_lo, pk_sl_bit, pk_sl_lt, pk_seam_pred, pk_seam_sat, pk_seam_lt, pk_pred, pk_pred_ok, pk_qnt_md, pk_qnt_bit, pk_qnt_lt, ok_bind, Nat.div_eq_of_lt, Nat.mod_eq_of_lt, wf]

theorem RoundTrip.ssub (o : SeamOp) (sat : Bool) : RoundTrip.Statement (.ssub o sat) := by
  intro wf; simp only [Instr.wf, Bool.and_eq_true] at wf
  have := o.a.code_lt
  have := o.b.code_lt
  have := o.c.code_lt
  have := ofFlag_lt o.pred
  have := ofFlag_lt sat
  have f31_28 := sr_class 10 3 o.a.code o.b.code o.c.code 0 (by omega) (by omega) (by omega) (by omega) (by omega) (by omega)
  have f27_22 := sr_minor 10 3 o.a.code o.b.code o.c.code 0 (by omega) (by omega) (by omega) (by omega) (by omega)
  have f21_16 := sr_d 10 3 o.a.code o.b.code o.c.code 0 (by omega) (by omega) (by omega) (by omega)
  have f15_10 := sr_a 10 3 o.a.code o.b.code o.c.code 0 (by omega) (by omega) (by omega)
  have f9_4 := sr_b 10 3 o.a.code o.b.code o.c.code 0 (by omega) (by omega)
  have f3_0 := sr_low 10 3 o.a.code o.b.code o.c.code 0 (by omega)
  have h0 : packSr 10 3 o.a.code o.b.code o.c.code 0 ≠ 0 := by rw [ne_eq, sr_zero]; omega
  try simp only [pk8_hi, pk8_lo, pk16_hi, pk16_lo, pk8_flag, ofFlag_one, pk_loop_pre, pk_loop_stg, pk_loop_len, pk_spawn_nm, pk_spawn_core, pk_spawn_entry, pk_spawn_zero, pk_cvt_part, pk_cvt_ty, fin8_mod8, fin16_mod16] at f21_16 f15_10 f9_4 f3_0
  refine encoded_as _ (packSr 10 3 o.a.code o.b.code o.c.code 0) (ofFlag o.pred * 2 + ofFlag sat) rfl ?_
  generalize packSr 10 3 o.a.code o.b.code o.c.code 0 = w at *
  rw [decodeWord_class10 _ _ h0 f31_28]; unfold decSeamOp; rw [f27_22]
  simp (disch := omega) [decSeam_of w (ofFlag o.pred * 2 + ofFlag sat) o f21_16 f15_10 f9_4 (by simp [pk_pred, pk_seam_pred]), f3_0, lend_hi, lend_lo, lend_nw, lend0_hi, lend0_lo, lend0_nw, lend1_hi, lend1_lo, lend1_nw, lend2_hi, lend2_lo, lend2_nw, pk_amo_lt, pk_amo_bit, pk_amo_ord, pk_cas_bit, pk_cas_ord, pk_cas_hi, pk_bit0, pk_bit_lt, pk_bit_le, pk_sl_lo, pk_sl_bit, pk_sl_lt, pk_seam_pred, pk_seam_sat, pk_seam_lt, pk_pred, pk_pred_ok, pk_qnt_md, pk_qnt_bit, pk_qnt_lt, ok_bind, Nat.div_eq_of_lt, Nat.mod_eq_of_lt, wf]

theorem RoundTrip.smul (o : SeamOp) : RoundTrip.Statement (.smul o) := by
  intro wf; simp only [Instr.wf, Bool.and_eq_true] at wf
  have := o.a.code_lt
  have := o.b.code_lt
  have := o.c.code_lt
  have := ofFlag_lt o.pred
  have f31_28 := sr_class 10 4 o.a.code o.b.code o.c.code 0 (by omega) (by omega) (by omega) (by omega) (by omega) (by omega)
  have f27_22 := sr_minor 10 4 o.a.code o.b.code o.c.code 0 (by omega) (by omega) (by omega) (by omega) (by omega)
  have f21_16 := sr_d 10 4 o.a.code o.b.code o.c.code 0 (by omega) (by omega) (by omega) (by omega)
  have f15_10 := sr_a 10 4 o.a.code o.b.code o.c.code 0 (by omega) (by omega) (by omega)
  have f9_4 := sr_b 10 4 o.a.code o.b.code o.c.code 0 (by omega) (by omega)
  have f3_0 := sr_low 10 4 o.a.code o.b.code o.c.code 0 (by omega)
  have h0 : packSr 10 4 o.a.code o.b.code o.c.code 0 ≠ 0 := by rw [ne_eq, sr_zero]; omega
  try simp only [pk8_hi, pk8_lo, pk16_hi, pk16_lo, pk8_flag, ofFlag_one, pk_loop_pre, pk_loop_stg, pk_loop_len, pk_spawn_nm, pk_spawn_core, pk_spawn_entry, pk_spawn_zero, pk_cvt_part, pk_cvt_ty, fin8_mod8, fin16_mod16] at f21_16 f15_10 f9_4 f3_0
  refine encoded_as _ (packSr 10 4 o.a.code o.b.code o.c.code 0) (ofFlag o.pred * 2) rfl ?_
  generalize packSr 10 4 o.a.code o.b.code o.c.code 0 = w at *
  rw [decodeWord_class10 _ _ h0 f31_28]; unfold decSeamOp; rw [f27_22]
  simp (disch := omega) [decSeam_of w (ofFlag o.pred * 2) o f21_16 f15_10 f9_4 (by simp [pk_pred, pk_seam_pred]), f3_0, lend_hi, lend_lo, lend_nw, lend0_hi, lend0_lo, lend0_nw, lend1_hi, lend1_lo, lend1_nw, lend2_hi, lend2_lo, lend2_nw, pk_amo_lt, pk_amo_bit, pk_amo_ord, pk_cas_bit, pk_cas_ord, pk_cas_hi, pk_bit0, pk_bit_lt, pk_bit_le, pk_sl_lo, pk_sl_bit, pk_sl_lt, pk_seam_pred, pk_seam_sat, pk_seam_lt, pk_pred, pk_pred_ok, pk_qnt_md, pk_qnt_bit, pk_qnt_lt, ok_bind, Nat.div_eq_of_lt, Nat.mod_eq_of_lt, wf]

theorem RoundTrip.scmp (c : SeamCond) (o : SeamOp) : RoundTrip.Statement (.scmp c o) := by
  intro wf; simp only [Instr.wf, Bool.and_eq_true] at wf
  have := o.a.code_lt
  have := o.b.code_lt
  have := o.c.code_lt
  have := c.code_lt
  have := ofFlag_lt o.pred
  have f31_28 := sr_class 10 5 o.a.code o.b.code o.c.code c.code (by omega) (by omega) (by omega) (by omega) (by omega) (by omega)
  have f27_22 := sr_minor 10 5 o.a.code o.b.code o.c.code c.code (by omega) (by omega) (by omega) (by omega) (by omega)
  have f21_16 := sr_d 10 5 o.a.code o.b.code o.c.code c.code (by omega) (by omega) (by omega) (by omega)
  have f15_10 := sr_a 10 5 o.a.code o.b.code o.c.code c.code (by omega) (by omega) (by omega)
  have f9_4 := sr_b 10 5 o.a.code o.b.code o.c.code c.code (by omega) (by omega)
  have f3_0 := sr_low 10 5 o.a.code o.b.code o.c.code c.code (by omega)
  have h0 : packSr 10 5 o.a.code o.b.code o.c.code c.code ≠ 0 := by rw [ne_eq, sr_zero]; omega
  try simp only [pk8_hi, pk8_lo, pk16_hi, pk16_lo, pk8_flag, ofFlag_one, pk_loop_pre, pk_loop_stg, pk_loop_len, pk_spawn_nm, pk_spawn_core, pk_spawn_entry, pk_spawn_zero, pk_cvt_part, pk_cvt_ty, fin8_mod8, fin16_mod16] at f21_16 f15_10 f9_4 f3_0
  refine encoded_as _ (packSr 10 5 o.a.code o.b.code o.c.code c.code) (ofFlag o.pred * 2) rfl ?_
  generalize packSr 10 5 o.a.code o.b.code o.c.code c.code = w at *
  rw [decodeWord_class10 _ _ h0 f31_28]; unfold decSeamOp; rw [f27_22]
  simp (disch := omega) [decSeam_of w (ofFlag o.pred * 2) o f21_16 f15_10 f9_4 (by simp [pk_pred, pk_seam_pred]), f3_0, lend_hi, lend_lo, lend_nw, lend0_hi, lend0_lo, lend0_nw, lend1_hi, lend1_lo, lend1_nw, lend2_hi, lend2_lo, lend2_nw, pk_amo_lt, pk_amo_bit, pk_amo_ord, pk_cas_bit, pk_cas_ord, pk_cas_hi, pk_bit0, pk_bit_lt, pk_bit_le, pk_sl_lo, pk_sl_bit, pk_sl_lt, pk_seam_pred, pk_seam_sat, pk_seam_lt, pk_pred, pk_pred_ok, pk_qnt_md, pk_qnt_bit, pk_qnt_lt, ok_bind, Nat.div_eq_of_lt, Nat.mod_eq_of_lt, wf]

theorem RoundTrip.ssel (a : SSrc) (b : SSrc) (c : SSrc) : RoundTrip.Statement (.ssel a b c) := by
  intro wf; simp only [Instr.wf, Bool.and_eq_true] at wf
  have := a.code_lt
  have := b.code_lt
  have := c.code_lt
  have f31_28 := sr_class 10 6 a.code b.code c.code 0 (by omega) (by omega) (by omega) (by omega) (by omega) (by omega)
  have f27_22 := sr_minor 10 6 a.code b.code c.code 0 (by omega) (by omega) (by omega) (by omega) (by omega)
  have f3_0 := sr_low 10 6 a.code b.code c.code 0 (by omega)
  have f21_16 := sr_d 10 6 a.code b.code c.code 0 (by omega) (by omega) (by omega) (by omega)
  have f15_10 := sr_a 10 6 a.code b.code c.code 0 (by omega) (by omega) (by omega)
  have f9_4 := sr_b 10 6 a.code b.code c.code 0 (by omega) (by omega)
  have h0 : packSr 10 6 a.code b.code c.code 0 ≠ 0 := by rw [ne_eq, sr_zero]; omega
  try simp only [pk8_hi, pk8_lo, pk16_hi, pk16_lo, pk8_flag, ofFlag_one, pk_loop_pre, pk_loop_stg, pk_loop_len, pk_spawn_nm, pk_spawn_core, pk_spawn_entry, pk_spawn_zero, pk_cvt_part, pk_cvt_ty, fin8_mod8, fin16_mod16] at f3_0 f21_16 f15_10 f9_4
  refine encoded_as _ (packSr 10 6 a.code b.code c.code 0) (0) rfl ?_
  generalize packSr 10 6 a.code b.code c.code 0 = w at *
  rw [decodeWord_class10 _ _ h0 f31_28]; unfold decSeamOp; rw [f27_22]
  simp (disch := omega) [f3_0, f21_16, f15_10, f9_4, ok_bind, Nat.div_eq_of_lt, Nat.mod_eq_of_lt, wf]

theorem RoundTrip.slog (op : SeamLog) (o : SeamOp) : RoundTrip.Statement (.slog op o) := by
  intro wf; simp only [Instr.wf, Bool.and_eq_true] at wf
  have := o.a.code_lt
  have := o.b.code_lt
  have := o.c.code_lt
  have := op.code_lt
  have := ofFlag_lt o.pred
  have f31_28 := sr_class 10 7 o.a.code o.b.code o.c.code op.code (by omega) (by omega) (by omega) (by omega) (by omega) (by omega)
  have f27_22 := sr_minor 10 7 o.a.code o.b.code o.c.code op.code (by omega) (by omega) (by omega) (by omega) (by omega)
  have f21_16 := sr_d 10 7 o.a.code o.b.code o.c.code op.code (by omega) (by omega) (by omega) (by omega)
  have f15_10 := sr_a 10 7 o.a.code o.b.code o.c.code op.code (by omega) (by omega) (by omega)
  have f9_4 := sr_b 10 7 o.a.code o.b.code o.c.code op.code (by omega) (by omega)
  have f3_0 := sr_low 10 7 o.a.code o.b.code o.c.code op.code (by omega)
  have h0 : packSr 10 7 o.a.code o.b.code o.c.code op.code ≠ 0 := by rw [ne_eq, sr_zero]; omega
  try simp only [pk8_hi, pk8_lo, pk16_hi, pk16_lo, pk8_flag, ofFlag_one, pk_loop_pre, pk_loop_stg, pk_loop_len, pk_spawn_nm, pk_spawn_core, pk_spawn_entry, pk_spawn_zero, pk_cvt_part, pk_cvt_ty, fin8_mod8, fin16_mod16] at f21_16 f15_10 f9_4 f3_0
  refine encoded_as _ (packSr 10 7 o.a.code o.b.code o.c.code op.code) (ofFlag o.pred * 2) rfl ?_
  generalize packSr 10 7 o.a.code o.b.code o.c.code op.code = w at *
  rw [decodeWord_class10 _ _ h0 f31_28]; unfold decSeamOp; rw [f27_22]
  simp (disch := omega) [decSeam_of w (ofFlag o.pred * 2) o f21_16 f15_10 f9_4 (by simp [pk_pred, pk_seam_pred]), f3_0, lend_hi, lend_lo, lend_nw, lend0_hi, lend0_lo, lend0_nw, lend1_hi, lend1_lo, lend1_nw, lend2_hi, lend2_lo, lend2_nw, pk_amo_lt, pk_amo_bit, pk_amo_ord, pk_cas_bit, pk_cas_ord, pk_cas_hi, pk_bit0, pk_bit_lt, pk_bit_le, pk_sl_lo, pk_sl_bit, pk_sl_lt, pk_seam_pred, pk_seam_sat, pk_seam_lt, pk_pred, pk_pred_ok, pk_qnt_md, pk_qnt_bit, pk_qnt_lt, ok_bind, Nat.div_eq_of_lt, Nat.mod_eq_of_lt, wf]

theorem RoundTrip.scp (a : SSrc) (b : SSrc) (p : Bool) : RoundTrip.Statement (.scp a b p) := by
  intro wf; simp only [Instr.wf, Bool.and_eq_true] at wf
  have := a.code_lt
  have := b.code_lt
  have := ofFlag_lt p
  have f31_28 := sr_class 10 8 a.code b.code 0 0 (by omega) (by omega) (by omega) (by omega) (by omega) (by omega)
  have f27_22 := sr_minor 10 8 a.code b.code 0 0 (by omega) (by omega) (by omega) (by omega) (by omega)
  have f9_0 := sr_90 10 8 a.code b.code 0 0 (by omega) (by omega)
  have f21_16 := sr_d 10 8 a.code b.code 0 0 (by omega) (by omega) (by omega) (by omega)
  have f15_10 := sr_a 10 8 a.code b.code 0 0 (by omega) (by omega) (by omega)
  have h0 : packSr 10 8 a.code b.code 0 0 ≠ 0 := by rw [ne_eq, sr_zero]; omega
  try simp only [pk8_hi, pk8_lo, pk16_hi, pk16_lo, pk8_flag, ofFlag_one, pk_loop_pre, pk_loop_stg, pk_loop_len, pk_spawn_nm, pk_spawn_core, pk_spawn_entry, pk_spawn_zero, pk_cvt_part, pk_cvt_ty, fin8_mod8, fin16_mod16] at f9_0 f21_16 f15_10
  refine encoded_as _ (packSr 10 8 a.code b.code 0 0) (ofFlag p * 2) rfl ?_
  generalize packSr 10 8 a.code b.code 0 0 = w at *
  rw [decodeWord_class10 _ _ h0 f31_28]; unfold decSeamOp; rw [f27_22]
  simp (disch := omega) [f9_0, f21_16, f15_10, lend_hi, lend_lo, lend_nw, lend0_hi, lend0_lo, lend0_nw, lend1_hi, lend1_lo, lend1_nw, lend2_hi, lend2_lo, lend2_nw, pk_amo_lt, pk_amo_bit, pk_amo_ord, pk_cas_bit, pk_cas_ord, pk_cas_hi, pk_bit0, pk_bit_lt, pk_bit_le, pk_sl_lo, pk_sl_bit, pk_sl_lt, pk_seam_pred, pk_seam_sat, pk_seam_lt, pk_pred, pk_pred_ok, pk_qnt_md, pk_qnt_bit, pk_qnt_lt, ok_bind, Nat.div_eq_of_lt, Nat.mod_eq_of_lt, wf]

theorem RoundTrip.spred (a : SSrc) (iv : Bool) : RoundTrip.Statement (.spred a iv) := by
  intro wf; simp only [Instr.wf, Bool.and_eq_true] at wf
  have := a.code_lt
  have := ofFlag_lt iv
  have f31_28 := sr_class 10 9 a.code 0 0 (ofFlag iv) (by omega) (by omega) (by omega) (by omega) (by omega) (by omega)
  have f27_22 := sr_minor 10 9 a.code 0 0 (ofFlag iv) (by omega) (by omega) (by omega) (by omega) (by omega)
  have f15_1 := sr_151 10 9 a.code 0 0 (ofFlag iv) (by omega) (by omega) (by omega)
  have f21_16 := sr_d 10 9 a.code 0 0 (ofFlag iv) (by omega) (by omega) (by omega) (by omega)
  have f0 := sr_flag0 10 9 a.code 0 0 (ofFlag iv)
  have h0 : packSr 10 9 a.code 0 0 (ofFlag iv) ≠ 0 := by rw [ne_eq, sr_zero]; omega
  try simp only [pk8_hi, pk8_lo, pk16_hi, pk16_lo, pk8_flag, ofFlag_one, pk_loop_pre, pk_loop_stg, pk_loop_len, pk_spawn_nm, pk_spawn_core, pk_spawn_entry, pk_spawn_zero, pk_cvt_part, pk_cvt_ty, fin8_mod8, fin16_mod16] at f15_1 f21_16 f0
  refine encoded_as _ (packSr 10 9 a.code 0 0 (ofFlag iv)) (0) rfl ?_
  generalize packSr 10 9 a.code 0 0 (ofFlag iv) = w at *
  rw [decodeWord_class10 _ _ h0 f31_28]; unfold decSeamOp; rw [f27_22]
  simp (disch := omega) [f15_1, f21_16, f0, ok_bind, Nat.div_eq_of_lt, Nat.mod_eq_of_lt, wf]

theorem RoundTrip.spop (a : Fin 32) (b : SSrc) : RoundTrip.Statement (.spop a b) := by
  intro wf; simp only [Instr.wf, Bool.and_eq_true] at wf
  have := b.code_lt
  have := a.isLt
  have f31_28 := sr_class 10 10 a.val b.code 0 0 (by omega) (by omega) (by omega) (by omega) (by omega) (by omega)
  have f27_22 := sr_minor 10 10 a.val b.code 0 0 (by omega) (by omega) (by omega) (by omega) (by omega)
  have f9_0 := sr_90 10 10 a.val b.code 0 0 (by omega) (by omega)
  have f21_16 := sr_d 10 10 a.val b.code 0 0 (by omega) (by omega) (by omega) (by omega)
  have f15_10 := sr_a 10 10 a.val b.code 0 0 (by omega) (by omega) (by omega)
  have h0 : packSr 10 10 a.val b.code 0 0 ≠ 0 := by rw [ne_eq, sr_zero]; omega
  try simp only [pk8_hi, pk8_lo, pk16_hi, pk16_lo, pk8_flag, ofFlag_one, pk_loop_pre, pk_loop_stg, pk_loop_len, pk_spawn_nm, pk_spawn_core, pk_spawn_entry, pk_spawn_zero, pk_cvt_part, pk_cvt_ty, fin8_mod8, fin16_mod16] at f9_0 f21_16 f15_10
  refine encoded_as _ (packSr 10 10 a.val b.code 0 0) (0) rfl ?_
  generalize packSr 10 10 a.val b.code 0 0 = w at *
  rw [decodeWord_class10 _ _ h0 f31_28]; unfold decSeamOp; rw [f27_22]
  simp (disch := omega) [f9_0, f21_16, f15_10, ok_bind, Nat.div_eq_of_lt, Nat.mod_eq_of_lt, wf]

theorem RoundTrip.srow (op : SeamRow) (o : SeamOp) : RoundTrip.Statement (.srow op o) := by
  intro wf; simp only [Instr.wf, Bool.and_eq_true] at wf
  have := o.a.code_lt
  have := o.b.code_lt
  have := o.c.code_lt
  have := op.code_lt
  have := ofFlag_lt o.pred
  have f31_28 := sr_class 10 11 o.a.code o.b.code o.c.code op.code (by omega) (by omega) (by omega) (by omega) (by omega) (by omega)
  have f27_22 := sr_minor 10 11 o.a.code o.b.code o.c.code op.code (by omega) (by omega) (by omega) (by omega) (by omega)
  have f21_16 := sr_d 10 11 o.a.code o.b.code o.c.code op.code (by omega) (by omega) (by omega) (by omega)
  have f15_10 := sr_a 10 11 o.a.code o.b.code o.c.code op.code (by omega) (by omega) (by omega)
  have f9_4 := sr_b 10 11 o.a.code o.b.code o.c.code op.code (by omega) (by omega)
  have f3_0 := sr_low 10 11 o.a.code o.b.code o.c.code op.code (by omega)
  have h0 : packSr 10 11 o.a.code o.b.code o.c.code op.code ≠ 0 := by rw [ne_eq, sr_zero]; omega
  try simp only [pk8_hi, pk8_lo, pk16_hi, pk16_lo, pk8_flag, ofFlag_one, pk_loop_pre, pk_loop_stg, pk_loop_len, pk_spawn_nm, pk_spawn_core, pk_spawn_entry, pk_spawn_zero, pk_cvt_part, pk_cvt_ty, fin8_mod8, fin16_mod16] at f21_16 f15_10 f9_4 f3_0
  refine encoded_as _ (packSr 10 11 o.a.code o.b.code o.c.code op.code) (ofFlag o.pred * 2) rfl ?_
  generalize packSr 10 11 o.a.code o.b.code o.c.code op.code = w at *
  rw [decodeWord_class10 _ _ h0 f31_28]; unfold decSeamOp; rw [f27_22]
  simp (disch := omega) [decSeam_of w (ofFlag o.pred * 2) o f21_16 f15_10 f9_4 (by simp [pk_pred, pk_seam_pred]), f3_0, lend_hi, lend_lo, lend_nw, lend0_hi, lend0_lo, lend0_nw, lend1_hi, lend1_lo, lend1_nw, lend2_hi, lend2_lo, lend2_nw, pk_amo_lt, pk_amo_bit, pk_amo_ord, pk_cas_bit, pk_cas_ord, pk_cas_hi, pk_bit0, pk_bit_lt, pk_bit_le, pk_sl_lo, pk_sl_bit, pk_sl_lt, pk_seam_pred, pk_seam_sat, pk_seam_lt, pk_pred, pk_pred_ok, pk_qnt_md, pk_qnt_bit, pk_qnt_lt, ok_bind, Nat.div_eq_of_lt, Nat.mod_eq_of_lt, wf]

theorem RoundTrip.swait (b : SSrc) : RoundTrip.Statement (.swait b) := by
  intro wf; simp only [Instr.wf, Bool.and_eq_true] at wf
  have := b.code_lt
  have f31_28 := sr_class 10 12 0 b.code 0 0 (by omega) (by omega) (by omega) (by omega) (by omega) (by omega)
  have f27_22 := sr_minor 10 12 0 b.code 0 0 (by omega) (by omega) (by omega) (by omega) (by omega)
  have f21_16 := sr_d 10 12 0 b.code 0 0 (by omega) (by omega) (by omega) (by omega)
  have f9_0 := sr_90 10 12 0 b.code 0 0 (by omega) (by omega)
  have f15_10 := sr_a 10 12 0 b.code 0 0 (by omega) (by omega) (by omega)
  have h0 : packSr 10 12 0 b.code 0 0 ≠ 0 := by rw [ne_eq, sr_zero]; omega
  try simp only [pk8_hi, pk8_lo, pk16_hi, pk16_lo, pk8_flag, ofFlag_one, pk_loop_pre, pk_loop_stg, pk_loop_len, pk_spawn_nm, pk_spawn_core, pk_spawn_entry, pk_spawn_zero, pk_cvt_part, pk_cvt_ty, fin8_mod8, fin16_mod16] at f21_16 f9_0 f15_10
  refine encoded_as _ (packSr 10 12 0 b.code 0 0) (0) rfl ?_
  generalize packSr 10 12 0 b.code 0 0 = w at *
  rw [decodeWord_class10 _ _ h0 f31_28]; unfold decSeamOp; rw [f27_22]
  simp (disch := omega) [f21_16, f9_0, f15_10, ok_bind, Nat.div_eq_of_lt, Nat.mod_eq_of_lt, wf]

theorem RoundTrip.rpost (a : Fin 32) (b : SSrc) (c : SSrc) (hs : Fin 16) (hd : Fin 16) : RoundTrip.Statement (.rpost a b c hs hd) := by
  intro wf; simp only [Instr.wf, Bool.and_eq_true] at wf
  have := b.code_lt
  have := c.code_lt
  have := a.isLt
  have := hs.isLt
  have := hd.isLt
  have f31_28 := sr_class 11 0 a.val b.code c.code hs.val (by omega) (by omega) (by omega) (by omega) (by omega) (by omega)
  have f27_22 := sr_minor 11 0 a.val b.code c.code hs.val (by omega) (by omega) (by omega) (by omega) (by omega)
  have f21_16 := sr_d 11 0 a.val b.code c.code hs.val (by omega) (by omega) (by omega) (by omega)
  have f15_10 := sr_a 11 0 a.val b.code c.code hs.val (by omega) (by omega) (by omega)
  have f9_4 := sr_b 11 0 a.val b.code c.code hs.val (by omega) (by omega)
  have f3_0 := sr_low 11 0 a.val b.code c.code hs.val (by omega)
  have h0 : packSr 11 0 a.val b.code c.code hs.val ≠ 0 := by rw [ne_eq, sr_zero]; omega
  try simp only [pk8_hi, pk8_lo, pk16_hi, pk16_lo, pk8_flag, ofFlag_one, pk_loop_pre, pk_loop_stg, pk_loop_len, pk_spawn_nm, pk_spawn_core, pk_spawn_entry, pk_spawn_zero, pk_cvt_part, pk_cvt_ty, fin8_mod8, fin16_mod16] at f21_16 f15_10 f9_4 f3_0
  refine encoded_as _ (packSr 11 0 a.val b.code c.code hs.val) (hd.val) rfl ?_
  generalize packSr 11 0 a.val b.code c.code hs.val = w at *
  rw [decodeWord_class11 _ _ h0 f31_28]; unfold decRelay; rw [f27_22]
  simp (disch := omega) [f21_16, f15_10, f9_4, f3_0, lend_hi, lend_lo, lend_nw, lend0_hi, lend0_lo, lend0_nw, lend1_hi, lend1_lo, lend1_nw, lend2_hi, lend2_lo, lend2_nw, pk_amo_lt, pk_amo_bit, pk_amo_ord, pk_cas_bit, pk_cas_ord, pk_cas_hi, pk_bit0, pk_bit_lt, pk_bit_le, pk_sl_lo, pk_sl_bit, pk_sl_lt, pk_seam_pred, pk_seam_sat, pk_seam_lt, pk_pred, pk_pred_ok, pk_qnt_md, pk_qnt_bit, pk_qnt_lt, ok_bind, Nat.div_eq_of_lt, Nat.mod_eq_of_lt, wf]

theorem RoundTrip.rarm (a : Fin 32) (b : SSrc) : RoundTrip.Statement (.rarm a b) := by
  intro wf; simp only [Instr.wf, Bool.and_eq_true] at wf
  have := b.code_lt
  have := a.isLt
  have f31_28 := sr_class 11 1 a.val b.code 0 0 (by omega) (by omega) (by omega) (by omega) (by omega) (by omega)
  have f27_22 := sr_minor 11 1 a.val b.code 0 0 (by omega) (by omega) (by omega) (by omega) (by omega)
  have f9_0 := sr_90 11 1 a.val b.code 0 0 (by omega) (by omega)
  have f21_16 := sr_d 11 1 a.val b.code 0 0 (by omega) (by omega) (by omega) (by omega)
  have f15_10 := sr_a 11 1 a.val b.code 0 0 (by omega) (by omega) (by omega)
  have h0 : packSr 11 1 a.val b.code 0 0 ≠ 0 := by rw [ne_eq, sr_zero]; omega
  try simp only [pk8_hi, pk8_lo, pk16_hi, pk16_lo, pk8_flag, ofFlag_one, pk_loop_pre, pk_loop_stg, pk_loop_len, pk_spawn_nm, pk_spawn_core, pk_spawn_entry, pk_spawn_zero, pk_cvt_part, pk_cvt_ty, fin8_mod8, fin16_mod16] at f9_0 f21_16 f15_10
  refine encoded_as _ (packSr 11 1 a.val b.code 0 0) (0) rfl ?_
  generalize packSr 11 1 a.val b.code 0 0 = w at *
  rw [decodeWord_class11 _ _ h0 f31_28]; unfold decRelay; rw [f27_22]
  simp (disch := omega) [f9_0, f21_16, f15_10, ok_bind, Nat.div_eq_of_lt, Nat.mod_eq_of_lt, wf]

theorem RoundTrip.rcancel (a : Fin 32) (b : SSrc) : RoundTrip.Statement (.rcancel a b) := by
  intro wf; simp only [Instr.wf, Bool.and_eq_true] at wf
  have := b.code_lt
  have := a.isLt
  have f31_28 := sr_class 11 2 a.val b.code 0 0 (by omega) (by omega) (by omega) (by omega) (by omega) (by omega)
  have f27_22 := sr_minor 11 2 a.val b.code 0 0 (by omega) (by omega) (by omega) (by omega) (by omega)
  have f9_0 := sr_90 11 2 a.val b.code 0 0 (by omega) (by omega)
  have f21_16 := sr_d 11 2 a.val b.code 0 0 (by omega) (by omega) (by omega) (by omega)
  have f15_10 := sr_a 11 2 a.val b.code 0 0 (by omega) (by omega) (by omega)
  have h0 : packSr 11 2 a.val b.code 0 0 ≠ 0 := by rw [ne_eq, sr_zero]; omega
  try simp only [pk8_hi, pk8_lo, pk16_hi, pk16_lo, pk8_flag, ofFlag_one, pk_loop_pre, pk_loop_stg, pk_loop_len, pk_spawn_nm, pk_spawn_core, pk_spawn_entry, pk_spawn_zero, pk_cvt_part, pk_cvt_ty, fin8_mod8, fin16_mod16] at f9_0 f21_16 f15_10
  refine encoded_as _ (packSr 11 2 a.val b.code 0 0) (0) rfl ?_
  generalize packSr 11 2 a.val b.code 0 0 = w at *
  rw [decodeWord_class11 _ _ h0 f31_28]; unfold decRelay; rw [f27_22]
  simp (disch := omega) [f9_0, f21_16, f15_10, ok_bind, Nat.div_eq_of_lt, Nat.mod_eq_of_lt, wf]

theorem RoundTrip.rstat (a : Fin 32) (b : SSrc) : RoundTrip.Statement (.rstat a b) := by
  intro wf; simp only [Instr.wf, Bool.and_eq_true] at wf
  have := b.code_lt
  have := a.isLt
  have f31_28 := sr_class 11 3 a.val b.code 0 0 (by omega) (by omega) (by omega) (by omega) (by omega) (by omega)
  have f27_22 := sr_minor 11 3 a.val b.code 0 0 (by omega) (by omega) (by omega) (by omega) (by omega)
  have f9_0 := sr_90 11 3 a.val b.code 0 0 (by omega) (by omega)
  have f21_16 := sr_d 11 3 a.val b.code 0 0 (by omega) (by omega) (by omega) (by omega)
  have f15_10 := sr_a 11 3 a.val b.code 0 0 (by omega) (by omega) (by omega)
  have h0 : packSr 11 3 a.val b.code 0 0 ≠ 0 := by rw [ne_eq, sr_zero]; omega
  try simp only [pk8_hi, pk8_lo, pk16_hi, pk16_lo, pk8_flag, ofFlag_one, pk_loop_pre, pk_loop_stg, pk_loop_len, pk_spawn_nm, pk_spawn_core, pk_spawn_entry, pk_spawn_zero, pk_cvt_part, pk_cvt_ty, fin8_mod8, fin16_mod16] at f9_0 f21_16 f15_10
  refine encoded_as _ (packSr 11 3 a.val b.code 0 0) (0) rfl ?_
  generalize packSr 11 3 a.val b.code 0 0 = w at *
  rw [decodeWord_class11 _ _ h0 f31_28]; unfold decRelay; rw [f27_22]
  simp (disch := omega) [f9_0, f21_16, f15_10, ok_bind, Nat.div_eq_of_lt, Nat.mod_eq_of_lt, wf]

theorem RoundTrip.stend (a : Fin 32) (b : SSrc) (h : Fin 16) : RoundTrip.Statement (.stend a b h) := by
  intro wf; simp only [Instr.wf, Bool.and_eq_true] at wf
  have := b.code_lt
  have := a.isLt
  have := h.isLt
  have f31_28 := sr_class 11 4 a.val b.code 0 h.val (by omega) (by omega) (by omega) (by omega) (by omega) (by omega)
  have f27_22 := sr_minor 11 4 a.val b.code 0 h.val (by omega) (by omega) (by omega) (by omega) (by omega)
  have f9_4 := sr_b 11 4 a.val b.code 0 h.val (by omega) (by omega)
  have f21_16 := sr_d 11 4 a.val b.code 0 h.val (by omega) (by omega) (by omega) (by omega)
  have f15_10 := sr_a 11 4 a.val b.code 0 h.val (by omega) (by omega) (by omega)
  have f3_0 := sr_low 11 4 a.val b.code 0 h.val (by omega)
  have h0 : packSr 11 4 a.val b.code 0 h.val ≠ 0 := by rw [ne_eq, sr_zero]; omega
  try simp only [pk8_hi, pk8_lo, pk16_hi, pk16_lo, pk8_flag, ofFlag_one, pk_loop_pre, pk_loop_stg, pk_loop_len, pk_spawn_nm, pk_spawn_core, pk_spawn_entry, pk_spawn_zero, pk_cvt_part, pk_cvt_ty, fin8_mod8, fin16_mod16] at f9_4 f21_16 f15_10 f3_0
  refine encoded_as _ (packSr 11 4 a.val b.code 0 h.val) (0) rfl ?_
  generalize packSr 11 4 a.val b.code 0 h.val = w at *
  rw [decodeWord_class11 _ _ h0 f31_28]; unfold decRelay; rw [f27_22]
  simp (disch := omega) [f9_4, f21_16, f15_10, f3_0, ok_bind, Nat.div_eq_of_lt, Nat.mod_eq_of_lt, wf]

theorem RoundTrip.sfold (a : Fin 32) (b : SSrc) (h : Fin 16) : RoundTrip.Statement (.sfold a b h) := by
  intro wf; simp only [Instr.wf, Bool.and_eq_true] at wf
  have := b.code_lt
  have := a.isLt
  have := h.isLt
  have f31_28 := sr_class 11 5 a.val b.code 0 h.val (by omega) (by omega) (by omega) (by omega) (by omega) (by omega)
  have f27_22 := sr_minor 11 5 a.val b.code 0 h.val (by omega) (by omega) (by omega) (by omega) (by omega)
  have f9_4 := sr_b 11 5 a.val b.code 0 h.val (by omega) (by omega)
  have f21_16 := sr_d 11 5 a.val b.code 0 h.val (by omega) (by omega) (by omega) (by omega)
  have f15_10 := sr_a 11 5 a.val b.code 0 h.val (by omega) (by omega) (by omega)
  have f3_0 := sr_low 11 5 a.val b.code 0 h.val (by omega)
  have h0 : packSr 11 5 a.val b.code 0 h.val ≠ 0 := by rw [ne_eq, sr_zero]; omega
  try simp only [pk8_hi, pk8_lo, pk16_hi, pk16_lo, pk8_flag, ofFlag_one, pk_loop_pre, pk_loop_stg, pk_loop_len, pk_spawn_nm, pk_spawn_core, pk_spawn_entry, pk_spawn_zero, pk_cvt_part, pk_cvt_ty, fin8_mod8, fin16_mod16] at f9_4 f21_16 f15_10 f3_0
  refine encoded_as _ (packSr 11 5 a.val b.code 0 h.val) (0) rfl ?_
  generalize packSr 11 5 a.val b.code 0 h.val = w at *
  rw [decodeWord_class11 _ _ h0 f31_28]; unfold decRelay; rw [f27_22]
  simp (disch := omega) [f9_4, f21_16, f15_10, f3_0, ok_bind, Nat.div_eq_of_lt, Nat.mod_eq_of_lt, wf]

theorem RoundTrip.sflush (a : Fin 32) (b : SSrc) (h : Fin 16) : RoundTrip.Statement (.sflush a b h) := by
  intro wf; simp only [Instr.wf, Bool.and_eq_true] at wf
  have := b.code_lt
  have := a.isLt
  have := h.isLt
  have f31_28 := sr_class 11 6 a.val b.code 0 h.val (by omega) (by omega) (by omega) (by omega) (by omega) (by omega)
  have f27_22 := sr_minor 11 6 a.val b.code 0 h.val (by omega) (by omega) (by omega) (by omega) (by omega)
  have f9_4 := sr_b 11 6 a.val b.code 0 h.val (by omega) (by omega)
  have f21_16 := sr_d 11 6 a.val b.code 0 h.val (by omega) (by omega) (by omega) (by omega)
  have f15_10 := sr_a 11 6 a.val b.code 0 h.val (by omega) (by omega) (by omega)
  have f3_0 := sr_low 11 6 a.val b.code 0 h.val (by omega)
  have h0 : packSr 11 6 a.val b.code 0 h.val ≠ 0 := by rw [ne_eq, sr_zero]; omega
  try simp only [pk8_hi, pk8_lo, pk16_hi, pk16_lo, pk8_flag, ofFlag_one, pk_loop_pre, pk_loop_stg, pk_loop_len, pk_spawn_nm, pk_spawn_core, pk_spawn_entry, pk_spawn_zero, pk_cvt_part, pk_cvt_ty, fin8_mod8, fin16_mod16] at f9_4 f21_16 f15_10 f3_0
  refine encoded_as _ (packSr 11 6 a.val b.code 0 h.val) (0) rfl ?_
  generalize packSr 11 6 a.val b.code 0 h.val = w at *
  rw [decodeWord_class11 _ _ h0 f31_28]; unfold decRelay; rw [f27_22]
  simp (disch := omega) [f9_4, f21_16, f15_10, f3_0, ok_bind, Nat.div_eq_of_lt, Nat.mod_eq_of_lt, wf]

theorem RoundTrip.mfsr (d : Fin 32) (n : Fin 1024) : RoundTrip.Statement (.mfsr d n) := by
  intro wf; simp only [Instr.wf, Bool.and_eq_true] at wf
  have := d.isLt
  have := n.isLt
  have f31_28 := si_31_28 12 0 d.val 0 n.val (by omega) (by omega) (by omega) (by omega) (by omega)
  have f27_22 := si_27_22 12 0 d.val 0 n.val (by omega) (by omega) (by omega) (by omega)
  have f15_10 := si_15_10 12 0 d.val 0 n.val (by omega) (by omega)
  have f9_0 := si_9_0 12 0 d.val 0 n.val (by omega)
  have f21_16 := si_21_16 12 0 d.val 0 n.val (by omega) (by omega) (by omega)
  have h0 : packSi 12 0 d.val 0 n.val ≠ 0 := by rw [ne_eq, si_zero]; omega
  try simp only [pk8_hi, pk8_lo, pk16_hi, pk16_lo, pk8_flag, ofFlag_one, pk_loop_pre, pk_loop_stg, pk_loop_len, pk_spawn_nm, pk_spawn_core, pk_spawn_entry, pk_spawn_zero, pk_cvt_part, pk_cvt_ty, fin8_mod8, fin16_mod16] at f15_10 f9_0 f21_16
  refine encoded_as _ (packSi 12 0 d.val 0 n.val) (0) rfl ?_
  generalize packSi 12 0 d.val 0 n.val = w at *
  rw [decodeWord_class12 _ _ h0 f31_28]; unfold decSystem; rw [f27_22]
  simp (disch := omega) [f15_10, f9_0, f21_16, ok_bind, Nat.div_eq_of_lt, Nat.mod_eq_of_lt, wf]

theorem RoundTrip.mtsr (n : Fin 1024) (a : SSrc) : RoundTrip.Statement (.mtsr n a) := by
  intro wf; simp only [Instr.wf, Bool.and_eq_true] at wf
  have := a.code_lt
  have := n.isLt
  have f31_28 := si_31_28 12 1 0 a.code n.val (by omega) (by omega) (by omega) (by omega) (by omega)
  have f27_22 := si_27_22 12 1 0 a.code n.val (by omega) (by omega) (by omega) (by omega)
  have f21_16 := si_21_16 12 1 0 a.code n.val (by omega) (by omega) (by omega)
  have f9_0 := si_9_0 12 1 0 a.code n.val (by omega)
  have f15_10 := si_15_10 12 1 0 a.code n.val (by omega) (by omega)
  have h0 : packSi 12 1 0 a.code n.val ≠ 0 := by rw [ne_eq, si_zero]; omega
  try simp only [pk8_hi, pk8_lo, pk16_hi, pk16_lo, pk8_flag, ofFlag_one, pk_loop_pre, pk_loop_stg, pk_loop_len, pk_spawn_nm, pk_spawn_core, pk_spawn_entry, pk_spawn_zero, pk_cvt_part, pk_cvt_ty, fin8_mod8, fin16_mod16] at f21_16 f9_0 f15_10
  refine encoded_as _ (packSi 12 1 0 a.code n.val) (0) rfl ?_
  generalize packSi 12 1 0 a.code n.val = w at *
  rw [decodeWord_class12 _ _ h0 f31_28]; unfold decSystem; rw [f27_22]
  simp (disch := omega) [f21_16, f9_0, f15_10, ok_bind, Nat.div_eq_of_lt, Nat.mod_eq_of_lt, wf]

theorem RoundTrip.trap (n : BitVec 18) : RoundTrip.Statement (.trap n) := by
  intro wf; simp only [Instr.wf, Bool.and_eq_true] at wf
  have := n.isLt
  have f31_28 := si_31_28 12 2 0 0 (n.toNat % 1024) (by omega) (by omega) (by omega) (by omega) (by omega)
  have f27_22 := si_27_22 12 2 0 0 (n.toNat % 1024) (by omega) (by omega) (by omega) (by omega)
  have f21_10 := si_21_10 12 2 0 0 (n.toNat % 1024) (by omega) (by omega) (by omega)
  have f9_0 := si_9_0 12 2 0 0 (n.toNat % 1024) (by omega)
  have h0 : packSi 12 2 0 0 (n.toNat % 1024) ≠ 0 := by rw [ne_eq, si_zero]; omega
  try simp only [pk8_hi, pk8_lo, pk16_hi, pk16_lo, pk8_flag, ofFlag_one, pk_loop_pre, pk_loop_stg, pk_loop_len, pk_spawn_nm, pk_spawn_core, pk_spawn_entry, pk_spawn_zero, pk_cvt_part, pk_cvt_ty, fin8_mod8, fin16_mod16] at f21_10 f9_0
  refine encoded_as _ (packSi 12 2 0 0 (n.toNat % 1024)) (n.toNat / 1024) rfl ?_
  generalize packSi 12 2 0 0 (n.toNat % 1024) = w at *
  rw [decodeWord_class12 _ _ h0 f31_28]; unfold decSystem; rw [f27_22]
  simp (disch := omega) [imm18_of w _ f9_0, f21_10, ok_bind, Nat.div_eq_of_lt, Nat.mod_eq_of_lt, wf]

theorem RoundTrip.resume (k : Bool) : RoundTrip.Statement (.resume k) := by
  intro wf; simp only [Instr.wf, Bool.and_eq_true] at wf
  have := ofFlag_lt k
  have f31_28 := si_31_28 12 3 0 0 (ofFlag k) (by omega) (by omega) (by omega) (by omega) (by omega)
  have f27_22 := si_27_22 12 3 0 0 (ofFlag k) (by omega) (by omega) (by omega) (by omega)
  have f21_1 := si_21_1 12 3 0 0 (ofFlag k) (by omega) (by omega) (by omega)
  have f0 := si_flag0 12 3 0 0 (ofFlag k)
  have h0 : packSi 12 3 0 0 (ofFlag k) ≠ 0 := by rw [ne_eq, si_zero]; omega
  try simp only [pk8_hi, pk8_lo, pk16_hi, pk16_lo, pk8_flag, ofFlag_one, pk_loop_pre, pk_loop_stg, pk_loop_len, pk_spawn_nm, pk_spawn_core, pk_spawn_entry, pk_spawn_zero, pk_cvt_part, pk_cvt_ty, fin8_mod8, fin16_mod16] at f21_1 f0
  refine encoded_as _ (packSi 12 3 0 0 (ofFlag k)) (0) rfl ?_
  generalize packSi 12 3 0 0 (ofFlag k) = w at *
  rw [decodeWord_class12 _ _ h0 f31_28]; unfold decSystem; rw [f27_22]
  simp (disch := omega) [f21_1, f0, ok_bind, Nat.div_eq_of_lt, Nat.mod_eq_of_lt, wf]

theorem RoundTrip.abort (a : SSrc) : RoundTrip.Statement (.abort a) := by
  intro wf; simp only [Instr.wf, Bool.and_eq_true] at wf
  have := a.code_lt
  have f31_28 := si_31_28 12 4 0 a.code 0 (by omega) (by omega) (by omega) (by omega) (by omega)
  have f27_22 := si_27_22 12 4 0 a.code 0 (by omega) (by omega) (by omega) (by omega)
  have f21_16 := si_21_16 12 4 0 a.code 0 (by omega) (by omega) (by omega)
  have f9_0 := si_9_0 12 4 0 a.code 0 (by omega)
  have f15_10 := si_15_10 12 4 0 a.code 0 (by omega) (by omega)
  have h0 : packSi 12 4 0 a.code 0 ≠ 0 := by rw [ne_eq, si_zero]; omega
  try simp only [pk8_hi, pk8_lo, pk16_hi, pk16_lo, pk8_flag, ofFlag_one, pk_loop_pre, pk_loop_stg, pk_loop_len, pk_spawn_nm, pk_spawn_core, pk_spawn_entry, pk_spawn_zero, pk_cvt_part, pk_cvt_ty, fin8_mod8, fin16_mod16] at f21_16 f9_0 f15_10
  refine encoded_as _ (packSi 12 4 0 a.code 0) (0) rfl ?_
  generalize packSi 12 4 0 a.code 0 = w at *
  rw [decodeWord_class12 _ _ h0 f31_28]; unfold decSystem; rw [f27_22]
  simp (disch := omega) [f21_16, f9_0, f15_10, ok_bind, Nat.div_eq_of_lt, Nat.mod_eq_of_lt, wf]

theorem RoundTrip.time (d : Fin 32) : RoundTrip.Statement (.time d) := by
  intro wf; simp only [Instr.wf, Bool.and_eq_true] at wf
  have := d.isLt
  have f31_28 := si_31_28 12 5 d.val 0 0 (by omega) (by omega) (by omega) (by omega) (by omega)
  have f27_22 := si_27_22 12 5 d.val 0 0 (by omega) (by omega) (by omega) (by omega)
  have f9_2 := si_9_2 12 5 d.val 0 0 (by omega)
  have f1_0 := si_1_0 12 5 d.val 0 0
  have f15_10 := si_15_10 12 5 d.val 0 0 (by omega) (by omega)
  have f21_16 := si_21_16 12 5 d.val 0 0 (by omega) (by omega) (by omega)
  have h0 : packSi 12 5 d.val 0 0 ≠ 0 := by rw [ne_eq, si_zero]; omega
  try simp only [pk8_hi, pk8_lo, pk16_hi, pk16_lo, pk8_flag, ofFlag_one, pk_loop_pre, pk_loop_stg, pk_loop_len, pk_spawn_nm, pk_spawn_core, pk_spawn_entry, pk_spawn_zero, pk_cvt_part, pk_cvt_ty, fin8_mod8, fin16_mod16] at f9_2 f1_0 f15_10 f21_16
  refine encoded_as _ (packSi 12 5 d.val 0 0) (0) rfl ?_
  generalize packSi 12 5 d.val 0 0 = w at *
  rw [decodeWord_class12 _ _ h0 f31_28]; unfold decSystem; rw [f27_22]
  simp (disch := omega) [f9_2, f1_0, f15_10, f21_16, ok_bind, Nat.div_eq_of_lt, Nat.mod_eq_of_lt, wf]

theorem RoundTrip.timeUnc (d : Fin 32) : RoundTrip.Statement (.timeUnc d) := by
  intro wf; simp only [Instr.wf, Bool.and_eq_true] at wf
  have := d.isLt
  have f31_28 := si_31_28 12 5 d.val 0 1 (by omega) (by omega) (by omega) (by omega) (by omega)
  have f27_22 := si_27_22 12 5 d.val 0 1 (by omega) (by omega) (by omega) (by omega)
  have f9_2 := si_9_2 12 5 d.val 0 1 (by omega)
  have f1_0 := si_1_0 12 5 d.val 0 1
  have f15_10 := si_15_10 12 5 d.val 0 1 (by omega) (by omega)
  have f21_16 := si_21_16 12 5 d.val 0 1 (by omega) (by omega) (by omega)
  have h0 : packSi 12 5 d.val 0 1 ≠ 0 := by rw [ne_eq, si_zero]; omega
  try simp only [pk8_hi, pk8_lo, pk16_hi, pk16_lo, pk8_flag, ofFlag_one, pk_loop_pre, pk_loop_stg, pk_loop_len, pk_spawn_nm, pk_spawn_core, pk_spawn_entry, pk_spawn_zero, pk_cvt_part, pk_cvt_ty, fin8_mod8, fin16_mod16] at f9_2 f1_0 f15_10 f21_16
  refine encoded_as _ (packSi 12 5 d.val 0 1) (0) rfl ?_
  generalize packSi 12 5 d.val 0 1 = w at *
  rw [decodeWord_class12 _ _ h0 f31_28]; unfold decSystem; rw [f27_22]
  simp (disch := omega) [f9_2, f1_0, f15_10, f21_16, ok_bind, Nat.div_eq_of_lt, Nat.mod_eq_of_lt, wf]

theorem RoundTrip.timeUntil (a : SSrc) : RoundTrip.Statement (.timeUntil a) := by
  intro wf; simp only [Instr.wf, Bool.and_eq_true] at wf
  have := a.code_lt
  have f31_28 := si_31_28 12 5 0 a.code 2 (by omega) (by omega) (by omega) (by omega) (by omega)
  have f27_22 := si_27_22 12 5 0 a.code 2 (by omega) (by omega) (by omega) (by omega)
  have f9_2 := si_9_2 12 5 0 a.code 2 (by omega)
  have f1_0 := si_1_0 12 5 0 a.code 2
  have f15_10 := si_15_10 12 5 0 a.code 2 (by omega) (by omega)
  have f21_16 := si_21_16 12 5 0 a.code 2 (by omega) (by omega) (by omega)
  have h0 : packSi 12 5 0 a.code 2 ≠ 0 := by rw [ne_eq, si_zero]; omega
  try simp only [pk8_hi, pk8_lo, pk16_hi, pk16_lo, pk8_flag, ofFlag_one, pk_loop_pre, pk_loop_stg, pk_loop_len, pk_spawn_nm, pk_spawn_core, pk_spawn_entry, pk_spawn_zero, pk_cvt_part, pk_cvt_ty, fin8_mod8, fin16_mod16] at f9_2 f1_0 f15_10 f21_16
  refine encoded_as _ (packSi 12 5 0 a.code 2) (0) rfl ?_
  generalize packSi 12 5 0 a.code 2 = w at *
  rw [decodeWord_class12 _ _ h0 f31_28]; unfold decSystem; rw [f27_22]
  simp (disch := omega) [f9_2, f1_0, f15_10, f21_16, ok_bind, Nat.div_eq_of_lt, Nat.mod_eq_of_lt, wf]

theorem RoundTrip.cwtld (d : Fin 32) (a : SSrc) (f : Fin 512) : RoundTrip.Statement (.cwtld d a f) := by
  intro wf; simp only [Instr.wf, Bool.and_eq_true] at wf
  have := a.code_lt
  have := d.isLt
  have := f.isLt
  have f31_28 := si_31_28 12 6 d.val a.code f.val (by omega) (by omega) (by omega) (by omega) (by omega)
  have f27_22 := si_27_22 12 6 d.val a.code f.val (by omega) (by omega) (by omega) (by omega)
  have f21_16 := si_21_16 12 6 d.val a.code f.val (by omega) (by omega) (by omega)
  have f15_10 := si_15_10 12 6 d.val a.code f.val (by omega) (by omega)
  have f9_0 := si_9_0 12 6 d.val a.code f.val (by omega)
  have h0 : packSi 12 6 d.val a.code f.val ≠ 0 := by rw [ne_eq, si_zero]; omega
  try simp only [pk8_hi, pk8_lo, pk16_hi, pk16_lo, pk8_flag, ofFlag_one, pk_loop_pre, pk_loop_stg, pk_loop_len, pk_spawn_nm, pk_spawn_core, pk_spawn_entry, pk_spawn_zero, pk_cvt_part, pk_cvt_ty, fin8_mod8, fin16_mod16] at f21_16 f15_10 f9_0
  refine encoded_as _ (packSi 12 6 d.val a.code f.val) (0) rfl ?_
  generalize packSi 12 6 d.val a.code f.val = w at *
  rw [decodeWord_class12 _ _ h0 f31_28]; unfold decSystem; rw [f27_22]
  simp (disch := omega) [f21_16, f15_10, f9_0, ok_bind, Nat.div_eq_of_lt, Nat.mod_eq_of_lt, wf]

theorem RoundTrip.cw (x y : ShortForm) : RoundTrip.Statement (.cw x y) := by
  intro _
  have := x.index.isLt
  have := x.ofs.isLt
  have := y.index.isLt
  have := y.ofs.isLt
  refine encoded_as _ (14 * 2 ^ 28 + x.index.val * 2 ^ 19 + x.ofs.val * 2 ^ 14 + y.index.val * 2 ^ 5 + y.ofs.val) 0 rfl ?_
  obtain ⟨w, hw⟩ : ∃ w, w = 14 * 2 ^ 28 + x.index.val * 2 ^ 19 + x.ofs.val * 2 ^ 14 + y.index.val * 2 ^ 5 + y.ofs.val := ⟨_, rfl⟩
  rw [← hw]
  have f1 : field w 31 28 = 14 := by simp only [field]; omega
  have f2 : field w 27 19 = x.index.val := by simp only [field]; omega
  have f3 : field w 18 14 = x.ofs.val := by simp only [field]; omega
  have f4 : field w 13 5 = y.index.val := by simp only [field]; omega
  have f5 : field w 4 0 = y.ofs.val := by simp only [field]; omega
  rw [decodeWord_class14 _ _ (by omega) f1]; unfold decShort
  simp [f2, f3, f4, f5, ok_bind]

theorem RoundTrip.divideComplete (d : Nat) (c : Nat) : RoundTrip.Statement (.divideComplete d c) := nofun

theorem RoundTrip.phaseComplete (d : Nat) (c : Nat) : RoundTrip.Statement (.phaseComplete d c) := nofun

theorem RoundTrip.vectorDivideComplete (d : Nat) (c : Nat) (port : Nat) (int : Bool) : RoundTrip.Statement (.vectorDivideComplete d c port int) := nofun

theorem RoundTrip.matrixJobStart (d : Nat) (c : Nat) : RoundTrip.Statement (.matrixJobStart d c) := nofun

theorem RoundTrip.matrixStep (d : Nat) (c : Nat) : RoundTrip.Statement (.matrixStep d c) := nofun

theorem RoundTrip.atbankChunkReturn (d : Nat) (c : Nat) (chunk : Nat) : RoundTrip.Statement (.atbankChunkReturn d c chunk) := nofun

theorem RoundTrip.copyStart (t : Nat) (ticket : Nat) : RoundTrip.Statement (.copyStart t ticket) := nofun

theorem RoundTrip.copyChunk (t : Nat) (ticket : Nat) (chunk : Nat) : RoundTrip.Statement (.copyChunk t ticket chunk) := nofun

theorem RoundTrip.copyChunkAck (t : Nat) (ticket : Nat) (chunk : Nat) : RoundTrip.Statement (.copyChunkAck t ticket chunk) := nofun

theorem RoundTrip.seamMacroExecute (d : Nat) (c : Nat) (bank : Nat) : RoundTrip.Statement (.seamMacroExecute d c bank) := nofun

theorem RoundTrip.relayTimeFire (d : Nat) (c : Nat) (entry : Nat) : RoundTrip.Statement (.relayTimeFire d c entry) := nofun

theorem RoundTrip.relayDelivery (d : Nat) (c : Nat) (entry : Nat) : RoundTrip.Statement (.relayDelivery d c entry) := nofun

theorem RoundTrip.flushCommand (d : Nat) : RoundTrip.Statement (.flushCommand d) := nofun

theorem RoundTrip.stackCommandRelease (d : Nat) : RoundTrip.Statement (.stackCommandRelease d) := nofun

theorem RoundTrip.tendBlock (cmd : Nat) : RoundTrip.Statement (.tendBlock cmd) := nofun

theorem RoundTrip.foldContribution (n : Nat) : RoundTrip.Statement (.foldContribution n) := nofun

theorem RoundTrip.foldStagingTake (n : Nat) : RoundTrip.Statement (.foldStagingTake n) := nofun

theorem RoundTrip.asyncEventTake (d : Nat) (c : Nat) : RoundTrip.Statement (.asyncEventTake d c) := nofun

theorem RoundTrip.stallPark (d : Nat) (c : Nat) : RoundTrip.Statement (.stallPark d c) := nofun

theorem RoundTrip.yieldLimit (d : Nat) (c : Nat) : RoundTrip.Statement (.yieldLimit d c) := nofun

theorem RoundTrip.coreParityError (d : Nat) (c : Nat) (e : SoftErr) : RoundTrip.Statement (.coreParityError d c e) := nofun

theorem RoundTrip.timeUntilReached (t : Nat) : RoundTrip.Statement (.timeUntilReached t) := nofun

theorem RoundTrip.assayScanComplete (t : Nat) : RoundTrip.Statement (.assayScanComplete t) := nofun

theorem RoundTrip.taskAdmission (d : Nat) (c : Nat) (t : Nat) : RoundTrip.Statement (.taskAdmission d c t) := nofun

theorem RoundTrip.taskSwitch (d : Nat) (c : Nat) : RoundTrip.Statement (.taskSwitch d c) := nofun

theorem RoundTrip.balancingExchange (d : Nat) : RoundTrip.Statement (.balancingExchange d) := nofun

theorem RoundTrip.shiftBoundary (d : Nat) (launch : Nat) : RoundTrip.Statement (.shiftBoundary d launch) := nofun

theorem RoundTrip.groupSwapOut (d : Nat) (launch : Nat) (group : Nat) : RoundTrip.Statement (.groupSwapOut d launch group) := nofun

theorem RoundTrip.groupSwapIn (d : Nat) (launch : Nat) (group : Nat) : RoundTrip.Statement (.groupSwapIn d launch group) := nofun

theorem RoundTrip.crewDeadlock (launch : Nat) (crew : Nat) : RoundTrip.Statement (.crewDeadlock launch crew) := nofun

theorem RoundTrip.epochDeadlock (n : Nat) : RoundTrip.Statement (.epochDeadlock n) := nofun

theorem RoundTrip.claimSelfDetect (t : Nat) : RoundTrip.Statement (.claimSelfDetect t) := nofun

theorem RoundTrip.storePerform (n : Nat) : RoundTrip.Statement (.storePerform n) := nofun

theorem RoundTrip.loadServe (n : Nat) : RoundTrip.Statement (.loadServe n) := nofun

theorem RoundTrip.atomicPerform (n : Nat) : RoundTrip.Statement (.atomicPerform n) := nofun

theorem RoundTrip.famoHold (n : Nat) : RoundTrip.Statement (.famoHold n) := nofun

theorem RoundTrip.famoAccept (n : Nat) : RoundTrip.Statement (.famoAccept n) := nofun

theorem RoundTrip.epochApply (n : Nat) : RoundTrip.Statement (.epochApply n) := nofun

theorem RoundTrip.claimFirstTouch (n : Nat) : RoundTrip.Statement (.claimFirstTouch n) := nofun

theorem RoundTrip.claimWaiterAdd (n : Nat) : RoundTrip.Statement (.claimWaiterAdd n) := nofun

theorem RoundTrip.claimTimeout (t : Nat) : RoundTrip.Statement (.claimTimeout t) := nofun

theorem RoundTrip.walkComplete (n : Nat) : RoundTrip.Statement (.walkComplete n) := nofun

theorem RoundTrip.pageFaultResolve (n : Nat) (entry : Word) : RoundTrip.Statement (.pageFaultResolve n entry) := nofun

theorem RoundTrip.handleRevoke (d : Nat) (c : Nat) (frame : Nat) : RoundTrip.Statement (.handleRevoke d c frame) := nofun

theorem RoundTrip.migrateFrame (leaf : Nat) (dst : Nat) : RoundTrip.Statement (.migrateFrame leaf dst) := nofun

theorem RoundTrip.migrationCopy (n : Nat) (dst2 : List Nat) : RoundTrip.Statement (.migrationCopy n dst2) := nofun

theorem RoundTrip.recordTake : RoundTrip.Statement (.recordTake) := nofun

theorem RoundTrip.launchStart (launch : Nat) : RoundTrip.Statement (.launchStart launch) := nofun

theorem RoundTrip.launchCompletion (launch : Nat) : RoundTrip.Statement (.launchCompletion launch) := nofun

theorem RoundTrip.qtailWrite (q : Nat) (v : Word) : RoundTrip.Statement (.qtailWrite q v) := nofun

theorem RoundTrip.qstatClear (q : Nat) (v : Word) : RoundTrip.Statement (.qstatClear q v) := nofun

theorem RoundTrip.cheadWrite (q : Nat) (v : Word) : RoundTrip.Statement (.cheadWrite q v) := nofun

theorem RoundTrip.peeridWrite (n : Nat) (v : Word) : RoundTrip.Statement (.peeridWrite n v) := nofun

theorem RoundTrip.stagingConfigWrite (d : Nat) (s : Nat) (isLen : Bool) (v : Word) : RoundTrip.Statement (.stagingConfigWrite d s isLen v) := nofun

theorem RoundTrip.claimAreaWrite (d : Nat) (isLen : Bool) (v : Word) : RoundTrip.Statement (.claimAreaWrite d isLen v) := nofun

theorem RoundTrip.registerWrite (off : Nat) (v : Word) : RoundTrip.Statement (.registerWrite off v) := nofun

theorem RoundTrip.bar2Read (off : Nat) (len : Nat) : RoundTrip.Statement (.bar2Read off len) := nofun

theorem RoundTrip.bar2Write (off : Nat) (bytes : List Byte) (requester : Nat) : RoundTrip.Statement (.bar2Write off bytes requester) := nofun

theorem RoundTrip.certify (base : Word) (len : Word) (list : Word) (count : Word) : RoundTrip.Statement (.certify base len list count) := nofun

theorem RoundTrip.unstamp (idx : Word) : RoundTrip.Statement (.unstamp idx) := nofun

theorem RoundTrip.unstampComplete (idx : Nat) : RoundTrip.Statement (.unstampComplete idx) := nofun

theorem RoundTrip.retire (die : Word) (launch : Word) : RoundTrip.Statement (.retire die launch) := nofun

theorem RoundTrip.mbUnstake (addr : Word) : RoundTrip.Statement (.mbUnstake addr) := nofun

theorem RoundTrip.attest (report : Word) (nonceAddr : Word) (salt : BitVec 256) : RoundTrip.Statement (.attest report nonceAddr salt) := nofun

theorem RoundTrip.getcert (addr : Word) (len : Word) : RoundTrip.Statement (.getcert addr len) := nofun

theorem RoundTrip.fwupdate (addr : Word) (len : Word) : RoundTrip.Statement (.fwupdate addr len) := nofun

theorem RoundTrip.coldReset : RoundTrip.Statement (.coldReset) := nofun

theorem RoundTrip.warmReset : RoundTrip.Statement (.warmReset) := nofun

theorem RoundTrip.firmwareBoot (d : Nat) (rwl : List (Nat × Word)) : RoundTrip.Statement (.firmwareBoot d rwl) := nofun

theorem RoundTrip.timeSyncMessage (d : Nat) (ppm : Int) (unc : Word) : RoundTrip.Statement (.timeSyncMessage d ppm unc) := nofun

theorem RoundTrip.flitCrcError (link : Nat) (again : Bool) : RoundTrip.Statement (.flitCrcError link again) := nofun

theorem RoundTrip.linkRetrain (link : Nat) : RoundTrip.Statement (.linkRetrain link) := nofun

theorem RoundTrip.linkRetrainComplete (link : Nat) : RoundTrip.Statement (.linkRetrainComplete link) := nofun

theorem RoundTrip.ready (gang : Nat) (member : Nat) (unc : Word) (digest : BitVec 256) : RoundTrip.Statement (.ready gang member unc digest) := nofun

theorem RoundTrip.arm (gang : Nat) (die : Nat) : RoundTrip.Statement (.arm gang die) := nofun

theorem RoundTrip.gangReserveComplete (gang : Nat) (die : Nat) : RoundTrip.Statement (.gangReserveComplete gang die) := nofun

theorem RoundTrip.ack (gang : Nat) (member : Nat) : RoundTrip.Statement (.ack gang member) := nofun

theorem RoundTrip.gangGuardExpiry (gang : Nat) : RoundTrip.Statement (.gangGuardExpiry gang) := nofun

theorem RoundTrip.commit (gang : Nat) (die : Nat) : RoundTrip.Statement (.commit gang die) := nofun

theorem RoundTrip.cancel (gang : Nat) (die : Nat) (cause : Nat) (origin : Nat) : RoundTrip.Statement (.cancel gang die cause origin) := nofun

theorem RoundTrip.gangStart (gang : Nat) (die : Nat) : RoundTrip.Statement (.gangStart gang die) := nofun

theorem RoundTrip.gangLateExpiry (gang : Nat) (die : Nat) : RoundTrip.Statement (.gangLateExpiry gang die) := nofun

theorem RoundTrip.started (gang : Nat) (member : Nat) : RoundTrip.Statement (.started gang member) := nofun

theorem RoundTrip.confirm (gang : Nat) (die : Nat) : RoundTrip.Statement (.confirm gang die) := nofun

theorem RoundTrip.gangAbort (gang : Nat) (cause : Nat) (key : Nat) (origin : Nat) : RoundTrip.Statement (.gangAbort gang cause key origin) := nofun

theorem RoundTrip.freeze (gang : Nat) (die : Nat) : RoundTrip.Statement (.freeze gang die) := nofun

theorem RoundTrip.freezeReply (gang : Nat) (member : Nat) (step : Word) : RoundTrip.Statement (.freezeReply gang member step) := nofun

theorem RoundTrip.token (gang : Nat) (die : Nat) (step : Word) (cause : Nat) (origin : Nat) : RoundTrip.Statement (.token gang die step cause origin) := nofun

theorem RoundTrip.patrolScrub (line : Nat) (f : ScrubFinding) : RoundTrip.Statement (.patrolScrub line f) := nofun

theorem RoundTrip.hbmRefresh (stack : Nat) (channel : Nat) : RoundTrip.Statement (.hbmRefresh stack channel) := nofun

theorem RoundTrip.dieContainment (d : Nat) (structure_ : Nat) : RoundTrip.Statement (.dieContainment d structure_) := nofun

theorem RoundTrip.watchdogFailure (d : Nat) : RoundTrip.Statement (.watchdogFailure d) := nofun

theorem RoundTrip.thermalSample (d : Nat) (tj : Nat) (t0 : Nat) (t1 : Nat) (mw : Nat) : RoundTrip.Statement (.thermalSample d tj t0 t1 mw) := nofun

theorem RoundTrip.coolantFlowLost : RoundTrip.Statement (.coolantFlowLost) := nofun

theorem RoundTrip.hostLinkLoss : RoundTrip.Statement (.hostLinkLoss) := nofun

theorem RoundTrip.queueConfigWrite (q : Nat) (isSize : Bool) (v : Word) : RoundTrip.Statement (.queueConfigWrite q isSize v) := nofun

theorem RoundTrip.pageOut (leaf : Nat) (save : Nat) : RoundTrip.Statement (.pageOut leaf save) := nofun

end Sys2Proof.Laws
end

