-- ==== Sys2Proof/Tests/Slice0.lean ====
section
/-! SUPPORT. Tests: words that the spec writes out, ill-formed terms, single steps with results worked out by hand from the spec, and for each
statement a state and operands that meet its hypotheses. -/

set_option Elab.async false

namespace Sys2Proof.Tests

open Sys2Proof Sys2Proof.Machine Sys2Proof.Stated

/-! ### Words of the spec's own listings -/

/-- Chapters 8 and 15: scalar words. -/
theorem test_words_scalar :
    decodeWord 0x00041036 0 = .ok (.add { d := 4, a := .reg 4, b := .reg 3, nw := false, g := 6 })
    ∧ decodeWord 0x00830825 0 = .ok (.mul { d := 3, a := .reg 2, b := .reg 2, nw := false, g := 5 })
    ∧ decodeWord 0x00020854 0 = .ok (.add { d := 2, a := .reg 2, b := .reg 5, nw := false, g := 4 })
    ∧ decodeWord 0x040130B0 0 = .ok (.cmp .eq 1 (.reg 12) (.reg 11) false 0)
    ∧ decodeWord 0x04473470 1 = .ok (.sel { d := 7, a := .reg 13, b := .reg 7, nw := false, g := 0 } 1)
    ∧ decodeWord 0x12010278 0 = .ok (.movi 1 0x278)
    ∧ decodeWord 0x124107D2 0x97 = .ok (.movhi { d := 1, a := .reg 1, imm := 0x25FD2 }) := by decide

/-- Chapters 8 and 15: control words. -/
theorem test_words_control :
    decodeWord 0x2204800C 0 = .ok (.loop (.reg 4) true 0 12) ∧ decodeWord 0x2201B003 0 = .ok (.loop (.reg 1) true 3 3) := by decide

/-- Chapters 7, 9, 15 and 16: words of loads and stores. -/
theorem test_words_memory :
    decodeWord 0x30208750 0 = .ok (.ld { sz := 2, hint := .none, d := 4, h := 3, x := 5, imm := 16 })
    ∧ decodeWord 0x3030A2C0 8 = .ok (.ld { sz := 3, hint := .none, d := 5, h := 1, x := 3, imm := 512 })
    ∧ decodeWord 0x3061247E 0xFF = .ok (.st { sz := 2, hint := .none, d := 9, h := 2, x := 1, imm := 0x3FFE })
    ∧ decodeWord 0x30A02A00 0 = .ok (.ldv { sz := 2, hint := .none, d := 1, h := 5, x := 0, imm := 0 }) := by decide

/-- Chapters 9, 14, 15 and 16: words of class 0x4. -/
theorem test_words_sync :
    decodeWord 0x4008503D 0 = .ok (.amo .or false .rlx .die 15 { h := 1, a := 16 })
    ∧ decodeWord 0x4080881D 0 = .ok (.famo .add .f32 .die { h := 2, a := 8 } (.reg 7))
    ∧ decodeWord 0x41018020 0 = .ok (.stake { h := 6, a := 0 } 8) ∧ decodeWord 0x41418040 0 = .ok (.settle { h := 6, a := 0 } 16)
    ∧ decodeWord 0x42800000 1 = .ok (.crewSync 0 true) ∧ decodeWord 0x42C04E00 0 = .ok (.cbArm 1 (.reg 14))
    ∧ decodeWord 0x43014002 0 = .ok (.cbWait 5 .mod) := by decide

/-- Chapters 7, 10 and 15: vector words. -/
theorem test_words_vector :
    decodeWord 0x50020010 1 = .ok (.vadd { t := .f32, md := .rne, d := 2, a := .reg 0, b := .reg 1, m := 1, nw := false })
    ∧ decodeWord 0x50848470 0 = .ok (.vmul { t := .f32, md := .rne, d := 4, a := .lv0, b := .reg 7, m := 0, nw := false })
    ∧ decodeWord 0x52821570 0 = .ok (.vcmp .eq .f32 2 (.reg 5) (.reg 23) 0 false)
    ∧ decodeWord 0x62030D46 0 = .ok (.vshr { t := .n32, d := 3, a := .reg 3, b := .reg 20, m := 0, nw := false })
    ∧ decodeWord 0x70461400 0 = .ok (.vrsqA { t := .f32, d := 6, a := .reg 5, m := 0, nw := false })
    ∧ decodeWord 0x720A2C00 3 = .ok (.vredsum { t := .f32, d := 10, a := .reg 11, m := 3, nw := false }) := by decide

/-- Chapters 11, 14 and 16: words of the matrix engine and of copies. -/
theorem test_words_engines :
    decodeWord 0x80040803 0 = .ok (.mshape .bf16 4 (.reg 2) (.reg 0)) ∧ decodeWord 0x80871411 0 = .ok (.mopnd true 7 (.reg 5) 1)
    ∧ decodeWord 0x81000000 4 = .ok (.mprof 4) ∧ decodeWord 0x80402406 0 = .ok (.mcfg 6 false { a := .reg 0, b := .reg 9, c := .reg 0 })
    ∧ decodeWord 0x81800000 0 = .ok .mgo ∧ decodeWord 0x90090C12 0 = .ok (.cpy { a := 9, b := .reg 3, hs := 1, hd := 2 })
    ∧ decodeWord 0x91C51010 0 = .ok (.qscl 5 (.reg 4) 1 .e4m3) ∧ decodeWord 0x910A2400 0 = .ok (.cwait 10 (.reg 9)) := by decide

/-- Chapters 12, 14 and 16: seam and stack words. -/
theorem test_words_seam :
    decodeWord 0xA08A2CC0 1 = .ok (.sadd { a := .reg 10, b := .reg 11, c := .reg 12, pred := false } true)
    ∧ decodeWord 0xA0100030 4 = .ok (.sld (.reg 16) (.reg 0) (.reg 3) 0 true)
    ∧ decodeWord 0xA2975400 0 = .ok (.spop 23 (.reg 21)) ∧ decodeWord 0xB10D0C03 0 = .ok (.stend 13 (.reg 3) 3) := by decide

/-- Chapter 13: system words. -/
theorem test_words_system :
    decodeWord 0xC005000D 0 = .ok (.mfsr 5 13) ∧ decodeWord 0xC0401C01 0 = .ok (.mtsr 1 (.reg 7))
    ∧ decodeWord 0xC0800234 4 = .ok (.trap 0x1234) ∧ decodeWord 0xC0C00001 0 = .ok (.resume true)
    ∧ decodeWord 0xC1820410 0 = .ok (.cwtld 2 (.reg 1) 16) := by decide

/-- R175, R178, R198: the empty slot, class 0xD, an unassigned minor opcode, a specifier of 38 and a lend with no use are no instructions. -/
theorem test_words_refused :
    decodeWord 0 0 = .error .emptySlot ∧ (decodeWord 0xD0000000 0).toOption = none ∧ (decodeWord 0x2FC00000 0).toOption = none
    ∧ (decodeWord 0x00009800 0).toOption = none ∧ (decodeWord 0x00041036 1).toOption = none := by decide

/-- Chapter 7: the header of the example bundle marks a checkpoint and lends 1 to slot 2. -/
theorem test_bundle_header :
    let b := decodeBundle (0xF8000100 + 0x30208750 * 2 ^ 32 + 0x50020010 * 2 ^ 64 + 0x50830C70 * 2 ^ 96)
    b.ckpt = true ∧ b.yieldPt = false ∧ b.slots.map (·.num) = [1, 2, 3] ∧ b.slots.map (·.lend) = [0, 1, 0] := by decide

/-! ### Ill-formed terms, one for each check of WellFormed -/

/-- Each of these terms has no word. -/
theorem test_ill_formed :
    ([.add { d := 0, a := .reg 0, b := .reg 0, nw := false, g := 0 }, .call 0 0, .loop (.reg 1) false 5 3, .loop (.reg 1) false 1 0,
      .spawn 27 false 0 0, .ldv { sz := 3, hint := .none, d := 1, h := 0, x := 0, imm := 0 },
      .stv { sz := 3, hint := .none, d := 1, h := 0, x := 0, imm := 0 }, .phase 5, .stake { h := 0, a := 0 } 26, .settle { h := 0, a := 0 } 25,
      .atmClose false .die, .vadd { t := .i32, md := .rne, d := 1, a := .reg 1, b := .reg 2, m := 0, nw := false },
      .vmin { t := .i32, d := 1, a := .reg 1, b := .reg 2, m := 0, nw := false }, .vabs { t := .n8, d := 1, a := .reg 1, m := 0, nw := false },
      .vcmp .eq .i8 1 (.reg 1) (.reg 2) 0 false, .vround { t := .e4m3, md := .rne, d := 1, a := .reg 1, m := 0, nw := false },
      .viadd { t := .f32, sat := false, d := 1, a := .reg 1, b := .reg 2, m := 0, nw := false },
      .vimul { t := .bf16, d := 1, a := .reg 1, b := .reg 2, m := 0, nw := false }, .vicmp .eq .f16 1 (.reg 1) (.reg 2) 0 false,
      .vcvt { t := .f32, md := .rne, d := 1, a := .reg 1, m := 0, nw := false } .f32 1, .vrcpA { t := .f16, d := 1, a := .reg 1, m := 0, nw := false },
      .vredsum { t := .e4m3, d := 1, a := .reg 1, m := 0, nw := false }, .vdot { t := .i32, d := 1, a := .reg 1, b := .reg 2, m := 0, nw := false },
      .mcfg 6 true { a := .reg 0, b := .reg 0, c := .reg 0 }, .mcfg 7 false { a := .reg 0, b := .reg 0, c := .reg 0 }, .rqbind 0 (.reg 1) false,
      .slog .not { a := .reg 1, b := .reg 2, c := .reg 3, pred := false }, .mfsr 1 14, .mtsr 0 (.reg 1), .recordTake] : List Instr).all
        (fun i => !i.wf) = true := by decide

/-- Terms beside them at the ends of the same ranges have words. -/
theorem test_well_formed :
    ([.add { d := 1, a := .reg 0, b := .reg 0, nw := false, g := 0 }, .loop (.reg 1) false 4 1, .spawn 26 false 0 0,
      .ldv { sz := 2, hint := .none, d := 1, h := 0, x := 0, imm := 0 }, .phase 4, .stake { h := 0, a := 0 } 25, .settle { h := 0, a := 0 } 24,
      .mcfg 6 false { a := .reg 0, b := .reg 0, c := .reg 0 }, .mfsr 1 13, .mtsr 1 (.reg 1)] : List Instr).all
        (fun i => i.wf && decide (decodeWord (encode i).1 (encode i).2 = .ok i)) = true := by decide

/-! ### Small states -/

/-- A register file with values in S1 to S7, P1 set and two masks. -/
def regs : Regs :=
  { s := #v[0, 5, 7, 0x8000000000000000, 0xFFFFFFFFFFFFFFFF, 64, 1, 0, 0, 0, 0, 0, 0, 0, 0, 0, 0, 0, 0, 0, 0, 0, 0, 0, 0, 0, 0, 0, 0, 0, 0, 0]
    p := 0b11 }

/-- A launch with one static task. -/
def launch0 : Launch :=
  { codeBase := 0x10000, codeLen := 256, dies := 1, elig := 3, maxCarve := 2, accepted := true, started := true
    segs := [{ valid := true, read := true, write := true, pinned := true, len64k := 1, base := 0x20000 },
             { valid := true, read := true, write := true, len64k := 4, base := 0x30000 }]
    entries := [{ code := 0, rows64 := 1, spad4k := 1, banks := 1, cwt := none, rd := [], wr := [] }] }

/-- Its task, resident on core 0 of die 0. -/
def task0 : Task := { status := .issuing, started := true, rowCount := 64, spadSize := 4096, bankCount := 1, live := regs, dup := regs }

/-- A state with task 0 in issue, its task, its launch and its core changed as given. -/
def st (f : Task → Task) (g : Launch → Launch) (h : Core → Core) : State :=
  State.present { State.reset with
    tasks := [(0, f task0)], launches := [(0, g launch0)], cores := [(0, h { issuing := some 0 })] } 0 0 0

/-- The plain one. -/
def s0 : State := st id id id

/-- A state whose task has other registers. -/
def sr (f : Regs → Regs) : State := st (fun t => { t with live := f t.live, latches := {} }) id id

/-- A handle for the task's scratchpad, and one for HBM of die 0. -/
def hSpad : Handle := { valid := true, read := true, write := true, seg := 63, va := 0x1F8000000000000, pa := winAddr 0 0 0, last := 4095 }
def hHbm : Handle := { valid := true, read := true, write := true, pa := 0x20000, last := 0xFFFF, pinned := true }
def hClaim : Handle := { hHbm with claim := true }

/-- A state whose task holds these handles in H0, H1 and H2. -/
def sh : State := sr fun r => { r with h := ((r.h.set 0 hSpad).set 1 hHbm).set 2 hClaim }

/-! ### Witnesses: class 0x0 and class 0x1 -/

/-- Operands of two sources and one. -/
def o2 : SrOp := { d := 8, a := .reg 1, b := .reg 2, nw := false, g := 1 }
def o1 : SrOne := { d := 8, a := .reg 1, nw := false, g := 1 }

theorem witness_scalar : s0.srcS o2.a = .ok 5 ∧ s0.srcS o2.b = .ok 7 ∧ s0.srcS o1.a = .ok 5 ∧ s0.srcS (.reg 3) = .ok 0x8000000000000000
    ∧ s0.guardOn o2.g = true ∧ s0.guardOn o1.g = true ∧ s0.guardOn 2 = false ∧ s0.myCore.divider.task = none := by decide

theorem witness_divider_busy : (st id id fun c => { c with divider := { task := some 0, doneAt := 9 } }).myCore.divider.task ≠ none := by decide

/-- A state in which every latch is lost. -/
def slost : State := st (fun t => { t with latches := {} }) id id

theorem witness_lost_latch : LatchLost slost .ls 32 ∧ LatchLost slost .lm 35 ∧ LatchLost slost .lc0 36 ∧ LatchLost slost .lc1 37
    ∧ slost.srcS o2.a = .ok 5 ∧ slost.srcS o2.b = .ok 7 := by
  unfold LatchLost; decide

/-- R211 and R214 at the edges of their ranges. -/
theorem test_edges : condOf .ltI 0x8000000000000000 1 = true ∧ condOf .ltN 0x8000000000000000 1 = false
    ∧ quotRem true 0x8000000000000000 0xFFFFFFFFFFFFFFFF = (-2 ^ 63, 0) ∧ quotRem false 5 0 = (2 ^ 64 - 1, 5) ∧ divClocks true 5 0 = 4 := by decide

/-- What the S registers of the issuing task read after a step. -/
def outS (r : Host.Outcome State Fault Refusal) (k : Fin 32) : Option Word :=
  match r with
  | .next t => some (t.me.live.rdS k)
  | .fault _ | .refused _ => none

/-- R214: 7 mod 5, by the divider. -/
theorem test_remainder : outS (exec (.remN { o2 with a := .reg 2, b := .reg 1 }) s0) 8 = some 2 := by decide

/-- R216, chapter 8: the second bundle of the MIX64 constant gives 0x09E3_779B. -/
theorem test_movhi : outS (exec (.movhi { d := 1, a := .reg 1, imm := 0x3779B }) (sr fun r => r.wrS 1 0x278)) 1 = some 0x09E3779B := by decide

/-- R199: a write of S0 is discarded. -/
theorem test_s0 : outS (exec (.movi 0 5) s0) 0 = some 0 := by decide

/-! ### Witnesses: class 0x2 -/

theorem witness_transfers :
    (transfers s0 (.reg 5) 0 false 1 64).map (·.2) = [(true, 16), (true, 16), (false, 16), (true, 16), (true, 64), (true, 80)]
    ∧ s0.srcS (.reg 5) = .ok 64 ∧ s0.myLaunch.codeLen = 256 ∧ displaced s0 15 = 240 := by decide

theorem witness_transfer_traps :
    (transfers s0 (.reg 1) 0 false 16 5).map (·.2) = [(true, 256), (true, 256), (false, 256), (true, 256), (true, 5), (true, 261)] := by decide

/-- A level of a loop, and a state in one or two of them. -/
def lv : LoopRec := { body := 0, last := 48, t := 3, n := 3, j := 0, stages := 0, sEff := 1, pre := false, left := 0 }
def sl (l : List LoopRec) : State := sr fun r => { r with loops := l }

theorem witness_loops :
    (sl []).me.live.loops.length < 4 ∧ s0.srcS (.reg 1) = .ok 5 ∧ s0.srcS (.reg 0) = .ok 0
    ∧ (∀ e ∈ (sl [lv]).me.live.loops.find? (fun e => decide (e.body ≤ (sl [lv]).iss.pc) && decide ((sl [lv]).iss.pc ≤ e.last)), (sl [lv]).iss.pc + 16 * 3 ≤ e.last)
    ∧ (∀ e ∈ (sl [lv]).me.live.loops, e.stages < 2) ∧ ((sl [lv]).me.live.loops.head?.map (·.last)) = some 48
    ∧ (sl [lv]).regP 1 = true ∧ (sl [lv]).regP 2 = false ∧ (sl [lv, lv, lv, lv]).me.live.loops.length = 4 := by decide

theorem witness_boundary :
    (lv.j + 1 < lv.n + lv.sEff - 1 ∧ lv.pre = false ∧ lv.left = 0) ∧ ¬ (2 + 1 < lv.n + lv.sEff - 1)
    ∧ ({ lv with sEff := 3, stages := 3 } : LoopRec).sEff ≠ 1 := by decide

theorem witness_spawn :
    keyDepth s0.me.key.toNat ≠ 5 ∧ s0.me.live.callCount ≠ 255 ∧ s0.myLaunch.entries.length = 1 ∧ (s0.me.die, 1) ∈ s0.myLaunch.eligible
    ∧ (s0.me.die, 5) ∉ s0.myLaunch.eligible ∧ s0.spawnWaiting 0 = 0
    ∧ s0.childFits { code := 0, rows64 := 1, spad4k := 1, banks := 1, cwt := none, rd := [], wr := [] } 5 = true
    ∧ s0.childFits { code := 0, rows64 := 1, spad4k := 1, banks := 1, cwt := none, rd := [], wr := [{ base := 64, len64 := 1, stride := 0 }] } 5 = false
    ∧ (sr fun r => { r with callCount := 255 }).me.live.callCount = 255 := by decide

/-- A state whose die has a spawn area full of pending children. -/
def sfull : State := { s0 with tasks := s0.tasks ++ List.replicate 4096 (1, { task0 with status := .pending, parent := some 0 }) }

theorem witness_spawn_waits : 4096 ≤ sfull.spawnWaiting sfull.me.die ∧ keyDepth sfull.me.key.toNat ≠ 5 ∧ sfull.me.live.callCount ≠ 255
    ∧ sfull.childFits { code := 0, rows64 := 1, spad4k := 1, banks := 1, cwt := none, rd := [], wr := [] } 5 = true := by decide +kernel

/-- The launch's cores on die 0 are 0 and 1; balancing has moved a parent to core 3 or to core 0. -/
theorem witness_spawn_place :
    ((s0.myLaunch.eligOn s0.me.die).map (·.2))[0]? = some s0.me.core ∧ (s0.myLaunch.eligOn s0.me.die).map (·.2) = [0, 1]
    ∧ 3 ∉ (s0.myLaunch.eligOn s0.me.die).map (·.2) := by decide

theorem witness_done : s0.me.job.pend = none ∧ s0.me.job.state = .done
    ∧ (st (fun t => { t with job := { state := .running } }) id id).me.job.state = .running
    ∧ (st (fun t => { t with job := { state := .running } }) id id).iss.newJob = false
    ∧ ({ st (fun t => { t with job := { state := .queued } }) id id with iss := { s0.iss with newJob := true } } : State).iss.newJob = true
    ∧ (st (fun t => { t with job := { pend := some { code := 0x13 } } }) id id).me.job.pend = some { code := 0x13 } := by decide

/-- A task that ends, with what is given still in flight. -/
def send (f : Task → Task) (l : List Store) (x : List Cmd) : State :=
  { st (fun t => f { t with ending := some none }) (fun g => { g with crews := [{ die := 0, members := [0, 1], arrived := [] }] }) id with stores := l, cmds := x }

theorem witness_done_steps :
    let s := send id [] []
    (s.tasks.map (·.1)).Pairwise (· < ·) ∧ s.tasks = [(0, s.task 0)] ∧ (s.task 0).status ≠ .ended ∧ (s.task 0).opened = none
    ∧ (s.task 0).ending = some none ∧ (s.launch (s.task 0).launch).retired = false ∧ (s.task 0).job.state = .done ∧ s.hasCommands 0 = false
    ∧ (∀ x ∈ s.stores, x.task ≠ 0) ∧ ((send (fun t => { t with job := { state := .running } }) [] []).task 0).job.state ≠ .done
    ∧ (∃ x ∈ (send id [{ pa := 0x20000, len := 8, data := 1, task := 0 }] []).stores, x.task = 0) ∧ (s.task 0).evalCell = none := by decide

theorem witness_done_evaluator :
    let s : State := { send (fun t => { t with evalCell := some 0x20000 }) [] [] with
      tags := [(0x20000, .working)], dies := [(0, { claims := [{ cell := 0x20000, evaluator := 0 }] })] }
    (s.task 0).evalCell = some 0x20000 ∧ (s.claimEntry 0x20000).map ClaimEntry.evaluator = some 0 ∧ s.tag 0x20000 = .working := by decide

/-! ### Witnesses: class 0x3 -/

theorem witness_load : sh.memWf = true ∧ (sh.regH 0).claim = false ∧ Passes sh hSpad 8 8 8 false ∧ LoadReady sh hSpad .none (paOf hSpad 8) 8
    ∧ Passes sh hHbm 64 64 64 false ∧ LoadReady sh hHbm .none (paOf hHbm 64) 64 ∧ RowFree sh 0 := by
  unfold Passes LoadReady RowFree InBounds Permitted InFootprint; decide +kernel

theorem witness_store : Passes sh hSpad 4088 8 8 true ∧ sh.issueStalls (paOf hSpad 4088) 8 true = false ∧ Passes sh hHbm 0 256 64 true
    ∧ sh.issueStalls (paOf hHbm 0) 256 true = false ∧ sh.poisoned (sh.vaddr (sh.vrow 0)) 256 = false := by
  unfold Passes InBounds Permitted InFootprint; decide

/-- An operation of 8 bytes at offset 64 of a handle. -/
def mo (h : Fin 16) : MmOp := { sz := 3, hint := .none, d := 8, h := h, x := 0, imm := 8 }

theorem witness_access_traps : ¬ InBounds sh hSpad 4089 8 ∧ InBounds sh hSpad 4088 8 ∧ ¬ Permitted { hSpad with write := false } false true
    ∧ vaOf hSpad 4 % 2 ^ 51 % 8 ≠ 0 ∧ vaOf hSpad 32 % 2 ^ 51 % 64 ≠ 0 ∧ ¬ InFootprint sh { hHbm with checked := true } 0 8 true
    ∧ ¬ InBounds sh hSpad 4032 128 ∧ RowFree sh 8 ∧ (sh.regH (mo 0).h).valid = true ∧ mmOffset sh (mo 0).x (mo 0).imm 8 = 64 := by
  unfold InBounds Permitted InFootprint RowFree; decide +kernel

/-- The state of the handles with a poisoned unit at 64 bytes into H1. -/
def shp : State := { sh with poison := [0x20040] }

theorem witness_access_poison : (shp.regH 1).claim = false ∧ Passes shp hHbm 64 8 8 false ∧ Passes shp hHbm 64 64 64 false
    ∧ covered shp.me.withheld (paOf hHbm 64) 8 = false ∧ shp.me.reply = none
    ∧ shp.loadStands shp.iss.die shp.iss.core (paOf hHbm 64) 64 .none hHbm.cache = false
    ∧ copySeen shp hHbm .none (lineOf (paOf hHbm 64 + 0)) = none ∧ shp.poisoned (paOf hHbm 64 + 0) 1 = true := by
  unfold Passes InBounds Permitted InFootprint; decide +kernel

/-- H4 is empty, H5 pending and H6 revoked. -/
def shn : State := sr fun r => { r with h := (r.h.set 5 { pending := true, seg := 1, va := 0x8000000010000 }).set 6 { revoked := true, seg := 1, va := 0x8000000010000 } }

theorem witness_handle_unusable : shn.regH 4 = {} ∧ (shn.regH 5).valid = false ∧ (shn.regH 5).pending = true ∧ (shn.regH 6).valid = false
    ∧ (shn.regH 6).revoked = true ∧ RowFree shn 8 := by
  unfold RowFree; decide +kernel

/-- The state with a tag on the cell of H2. -/
def sct (g : Tag) : State := { sh with tags := [(0x20000, g)] }

theorem witness_claim_access : Passes sh hClaim 0 8 8 false ∧ sh.scoreboardHolds 0 0 (paOf hClaim 0) 8 false = false
    ∧ sh.atomicWaits 0 0 0 (paOf hClaim 0) 8 none false = false ∧ sh.tag (paOf hClaim 0) = .value ∧ sh.poisoned (paOf hClaim 0) 8 = false
    ∧ Passes (sct .failed) hClaim 0 8 8 false ∧ (sct .failed).atomicWaits 0 0 0 (paOf hClaim 0) 8 none false = false
    ∧ (sct .failed).tag (paOf hClaim 0) = .failed
    ∧ Passes (sct .staked) hClaim 0 8 8 true ∧ (sct .staked).issueStalls (paOf hClaim 0) 8 true = false
    ∧ (sct .staked).sameHomeStore (paOf hClaim 0) = false ∧ (sct .staked).atomicWaits 0 0 0 (paOf hClaim 0) 8 = false
    ∧ sh.issueStalls (paOf hClaim 0) 8 true = false ∧ sh.sameHomeStore (paOf hClaim 0) = false
    ∧ sh.atomicWaits 0 0 0 (paOf hClaim 0) 8 = false := by
  unfold Passes InBounds Permitted InFootprint; decide +kernel

/-- A poisoned cell, and a cell that another task's evaluator works on, with tags as given. -/
def scp0 (g : Tag) : State := { sct g with poison := [0x20000] }

theorem witness_claim_traps :
    (∀ g ∈ [Tag.value, .staked], Passes (scp0 g) hClaim 0 8 8 false ∧ (scp0 g).scoreboardHolds 0 0 (paOf hClaim 0) 8 false = false
      ∧ (scp0 g).atomicWaits 0 0 0 (paOf hClaim 0) 8 none false = false ∧ (scp0 g).tag (paOf hClaim 0) = g ∧ (scp0 g).poisoned (paOf hClaim 0) 8 = true)
    ∧ (∀ g ∈ [Tag.staked, .working], Passes (sct g) hClaim 0 8 8 false ∧ (sct g).scoreboardHolds 0 0 (paOf hClaim 0) 8 false = false
      ∧ (sct g).atomicWaits 0 0 0 (paOf hClaim 0) 8 none false = false ∧ (sct g).tag (paOf hClaim 0) = g
      ∧ (sct g).poisoned (paOf hClaim 0) 8 = false ∧ (sct g).me.ancestry.contains (lineOf (paOf hClaim 0)) = false ∧ (sct g).claimReqs = []) := by
  unfold Passes InBounds Permitted InFootprint; decide +kernel

theorem witness_claim_rows :
    Passes sh hClaim 0 128 64 false ∧ Passes sh hClaim 0 128 64 true ∧ RowUsable sh 8
    ∧ (∀ j < 2, sh.scoreboardHolds sh.iss.die sh.iss.core (paOf hClaim 0 + 64 * j) 64 false = false
        ∧ sh.atomicWaits sh.me.launch sh.iss.die sh.iss.core (paOf hClaim 0 + 64 * j) 64 none false = false
        ∧ sh.tag (paOf hClaim 0 + 64 * j) = .value ∧ sh.poisoned (paOf hClaim 0 + 64 * j) 64 = false
        ∧ sh.issueStalls (paOf hClaim 0 + 64 * j) 64 true = false ∧ sh.sameHomeStore (paOf hClaim 0 + 64 * j) = false
        ∧ sh.atomicWaits sh.me.launch sh.iss.die sh.iss.core (paOf hClaim 0 + 64 * j) 64 = false)
    ∧ ({ sh with tags := [(0x20040, Tag.failed)] } : State).tag (paOf hClaim 0) = .value
    ∧ ({ sh with tags := [(0x20040, Tag.failed)] } : State).tag (paOf hClaim 0 + 64) ≠ .value := by
  unfold Passes InBounds Permitted InFootprint RowUsable RowFree; decide +kernel

theorem witness_claim_self :
    let s := (sct .working).modMe fun t => { t with ancestry := [0x20000] }
    s.me.ancestry.contains (lineOf (paOf hClaim 0)) = true ∧ s.tag (paOf hClaim 0) = .working ∧ Passes s hClaim 0 8 8 false
      ∧ s.scoreboardHolds 0 0 (paOf hClaim 0) 8 false = false ∧ s.atomicWaits 0 0 0 (paOf hClaim 0) 8 none false = false := by
  unfold Passes InBounds Permitted InFootprint; decide +kernel

/-- Addresses for xlat: segments 0 and 1, and the three local parts and what lies between them. -/
theorem witness_translate :
    (s0.myLaunch.seg 0).pinned = true ∧ (s0.myLaunch.seg 0).valid = true ∧ 65535 < (s0.myLaunch.seg 0).len64k * 65536
    ∧ paModule (s0.myLaunch.seg 0).base < (s0.die 0).domSize ∧ (s0.myLaunch.seg 0).homeMod < (s0.die s0.me.die).domSize
    ∧ (s0.myLaunch.seg 2).valid = false ∧ (s0.myLaunch.seg 1).pinned = false
    ∧ s0.tlbFind 0 0 1 65536 = none ∧ s0.walks = [] ∧ (4095 : Nat) < s0.me.spadSize ∧ s0.me.spadSize ≤ 0xC00000 ∧ s0.me.bankCount ≤ 32
    ∧ 0xC1FFFF < 0xC00000 + s0.me.bankCount * 0x20000 ∧ 0x1003FFF < 0x1000000 + s0.me.rowCount * 256
    ∧ ¬ (0xC00000 ≤ 0xC20000 ∧ 0xC20000 < 0xC00000 + s0.me.bankCount * 0x20000) ∧ s0.me.spadSize ≤ 4096
    ∧ ¬ (0x1000000 ≤ 0x1004000 ∧ 0x1004000 < 0x1000000 + s0.me.rowCount * 256) := by decide

/-- The translation cache holds a page of segment 1, with a frame in module 0 or in module 1. -/
def shit (w : Nat) (f : Seg → Seg) (g : Task → Task) : State :=
  { st g (fun l => { l with segs := l.segs.set 1 (f (l.seg 1)) }) id with dies := [(0, { tlb := [(0, 1, 65536, false, w)] })] }

theorem witness_translate_hit :
    let s := shit 0x30000 id id
    s.tlbFind 0 0 1 65600 = some (false, 0x30000) ∧ paModule 0x30000 < (s.die 0).domSize ∧ (s.myLaunch.seg 1).pinned = false
    ∧ (s.myLaunch.seg 1).valid = true ∧ 65600 < (s.myLaunch.seg 1).len64k * 65536 ∧ (s.myLaunch.seg 1).homeMod < (s.die 0).domSize
    ∧ (s.die 0).domSize ≤ paModule (2 ^ 46)
    ∧ (shit 0x30000 (fun g => { g with tiled := true, tileLog := 12 }) fun t => { t with tiles := [(1, 16, 0x50000)] }).boundTile 0 1 65600 = some 0x50000 := by
  decide

theorem witness_phase : s0.myLaunch.maxCarve = 2 ∧ s0.myCore.drain = none
    ∧ (st id id fun c => { c with drain := some (0, 1, 9) }).myCore.drain ≠ none := by decide

/-! ### Witnesses: class 0x4 -/

theorem witness_atomics : AtomicReady sh hHbm 0 8 ∧ AtomicReady sh hHbm 4 4 ∧ sh.releaseWaits 0 = false ∧ isHbm (paOf hHbm 0) = true
    ∧ memRead sh.mem (paOf hHbm 0) 8 = (sh.regS 0).toNat ∧ memRead sh.mem (paOf hHbm 0) 8 ≠ (sh.regS 1).toNat := by
  unfold AtomicReady AtomicPasses InBounds Permitted; decide +kernel

/-- The handles in a launch in deterministic mode, with a claim area at die 0. -/
def shd : State := { sh with launches := [(0, { launch0 with det := true })], dies := [(0, { clBase := 0x100000, clLen := 65536 })] }

theorem witness_famo : s0.myLaunch.det = false ∧ shd.myLaunch.det = true ∧ AtomicPasses shd hHbm 0 4 ∧ shd.releaseWaits 0 = false
    ∧ (st (fun t => { t with reply := some (0, 0, 0) }) (fun l => { l with det := true }) id).me.reply ≠ none := by
  unfold AtomicPasses InBounds Permitted; decide +kernel

/-- A store on its way makes a release wait. -/
def sw : State := { s0 with stores := [{ pa := 0x20000, len := 8, data := 1 }] }

theorem witness_fence : s0.releaseWaits 0 = false ∧ sw.releaseWaits 0 = true := by decide

theorem witness_claims : ClaimReady shd hClaim 0 1 ∧ paOf hClaim 0 % 64 = 0 ∧ keyDepth shd.me.key.toNat ≠ 5 ∧ shd.me.live.callCount ≠ 255
    ∧ (shd.regS 7).toNat % 256 < shd.myLaunch.entries.length ∧ shd.tag (paOf hClaim 0) = .value ∧ shd.claimRoom (paDie (paOf hClaim 0)) = true := by
  unfold ClaimReady InBounds Permitted; decide +kernel

theorem witness_ctag : hClaim.valid = true ∧ InBounds sh hClaim 63 1 ∧ Permitted hClaim true false
    ∧ sh.atomicWaits 0 0 0 (paOf hClaim 63) 1 none false = false := by
  unfold InBounds Permitted; decide +kernel

theorem witness_settle :
    let s : State := { sct .working with dies := [(0, { claims := [{ cell := 0x20000, evaluator := 0 }] })] }
    ClaimReady s hClaim 0 64 ∧ s.tag (paOf hClaim 0) = .working ∧ (s.claimEntry (paOf hClaim 0)).map (fun e => (s.task e.evaluator).key) = some s.me.key
    ∧ s.releaseWaits 0 = false ∧ s.poisoned (paOf hClaim 0) 64 = false
    ∧ ClaimReady (sct .staked) hClaim 0 64 ∧ (sct .staked).tag (paOf hClaim 0) = .staked
    ∧ memRead (sct .staked).mem (paOf hClaim 0 + 56) 8 = (sct .staked).me.key.toNat := by
  unfold ClaimReady InBounds Permitted; decide +kernel

/-- A launch with a crew, and task 0 in it or not. -/
def sc (m a : List Nat) (f : Task → Task) : State := st f (fun l => { l with crews := [{ die := 0, members := m, arrived := a }] }) id

theorem witness_crews :
    (sc [1] [] id).myLaunch.crews.length = 1 ∧ ((sc [1] [] id).myLaunch.crew 0).die = (sc [1] [] id).iss.die
    ∧ ((sc [1] [] id).myLaunch.crew 0).all.contains 0 = false ∧ (sc [1] [] id).myLaunch.crewsOf 0 < 4
    ∧ (sc [1] [] id).groupFits ((sc [1] [] id).joinGroup 0 0) = true ∧ (sc [1] [1] id).groupFits ((sc [1] [1] id).joinGroup 0 0) = true
    ∧ ((sc [0, 1] [] id).myLaunch.crew 0).members.contains 0 = true
    ∧ (sc [0, 1] [] id).me.arrival = none ∧ (sc [0, 1] [] id).releaseWaits 0 = false ∧ (∃ j ∈ ((sc [0, 1] [] id).myLaunch.crew 0).members, j ≠ 0)
    ∧ ((sc [0, 1] [] id).myLaunch.crew 0).arrived = []
    ∧ (∀ j ∈ ((sc [0, 1] [1] id).myLaunch.crew 0).members, j = 0 ∨ ((sc [0, 1] [1] id).myLaunch.crew 0).arrived.contains j = true) := by decide

/-- R163: a leave of the last task that has not arrived completes the round, and who joined during it becomes a member. -/
theorem test_crew_left :
    let c : Crew := { die := 0, members := [0, 1], arrived := [1], joining := [2], rounds := 6 }
    (crewLeft 0 c).members = [1, 2] ∧ (crewLeft 0 c).rounds = 7 ∧ (crewLeft 0 c).arrived = []
    ∧ (crewLeft 0 { c with members := [0, 1, 3] }).members = [1, 3] ∧ (crewLeft 0 { c with members := [0, 1, 3] }).rounds = 6
    ∧ (crewLeft 0 { c with members := [0, 1, 3] }).joining = [2] := by decide

/-- Task 0 has arrived in round 3 of the crew, which is over, in deterministic mode or not. -/
def sca (det : Bool) (closed : Nat) : State :=
  st (fun t => { t with arrival := some (0, 3), closedTo := closed }) (fun l => { l with det := det, crews := [{ die := 0, members := [0, 1], rounds := 4 }] }) id

theorem witness_crew_round : (sca false 0).me.arrival = some (0, 3) ∧ ((sca false 0).myLaunch.crew 0).rounds ≠ 3
    ∧ ((sca false 0).myLaunch.crew 0).members.contains 0 = true ∧ (sca false 0).myLaunch.det = false ∧ (sca true 0).myLaunch.det = true
    ∧ (sca true 0).epochDone 0 0 = false ∧ (sca true 1).epochDone 0 0 = true := by decide

/-- A core with barrier 5. -/
def sb (b : CB) : State := st id id fun c => { c with cbs := [(5, b)] }

theorem witness_barriers : MayUse (sb {}) 5 ∧ MayUse (sb { owner := some 0 }) 5 ∧ ¬ MayUse (sb { owner := some 1 }) 5
    ∧ ((sb { armed := true }).myCore.cb 5).met ≠ some 0 ∧ ((sb { armed := true }).myCore.cb 5).ovf = false
    ∧ ((sb { armed := true }).myCore.cb 5).armed = true ∧ ((sb { armed := true }).myCore.cb 5).count = 0
    ∧ ((sb { armed := true, count := 3 }).myCore.cb 5).count = 3 ∧ ((sb {}).myCore.cb 5).armed = false
    ∧ ((sb { armed := true, count := -1 }).myCore.cb 5).count < 0 ∧ ((sb { ovf := true }).myCore.cb 5).ovf = true
    ∧ ((sb { owner := some 0, met := some 0 }).myCore.cb 5).met = some (sb { owner := some 0, met := some 0 }).iss.task ∧ s0.releaseWaits 0 = false := by
  unfold MayUse; decide

theorem witness_barrier_change : ((s0.modCore 0 1 id).core 0 1).relays = [] ∧ ((s0.modCore 0 1 id).core 0 1).issuing = none := by decide

/-- R109: 2^39 − 1 is the last count; one more sets OVF. -/
theorem test_barrier_range : (countChanged { count := 2 ^ 39 - 2 } 1).ovf = false ∧ (countChanged { count := 2 ^ 39 - 1 } 1).ovf = true
    ∧ (countChanged { count := -2 ^ 39 } (-1)).ovf = true := by decide

theorem witness_epoch : s0.myLaunch.det = false ∧ (st id (fun l => { l with det := true }) id).epochDone 0 0 = false
    ∧ ((st id (fun l => { l with det := true }) id).modMe fun t => { t with closedTo := 1 }).epochDone 0 0 = true := by decide

/-! ### Witnesses: classes 0x5 to 0x7 -/

theorem witness_vector : RowUsable s0 0 ∧ RowUsable s0 31 ∧ (s0.srcV (.reg 1)).toOption = some 0 ∧ (s0.srcV (.reg 31)).toOption = some 0
    ∧ s0.srcS (.reg 5) = .ok 64 ∧ (0 : Fin 4).val < cvtParts .f32 .bf16 ∧ (1 : Fin 4).val < cvtParts .bf16 .f32
    ∧ (smGet {} s0.myCore.fdiv s0.iss.vPort).task = none ∧ (smGet {} s0.myCore.idiv s0.iss.vPort).task = none := by
  unfold RowUsable RowFree; decide +kernel

theorem witness_vector_divider_busy :
    (smGet {} (st id id fun c => { c with fdiv := [(0, { task := some 0, doneAt := 9 })] }).myCore.fdiv s0.iss.vPort).task ≠ none := by decide

theorem witness_window : (0 : Word).toNat % 32 = 0 ∧ (0 : Word).toNat + 32 ≤ s0.me.rowCount ∧ (32 : Word).toNat % 32 = 0
    ∧ (32 : Word).toNat + 32 ≤ s0.me.rowCount ∧ (33 : Word).toNat % 32 ≠ 0 ∧ s0.me.rowCount < (64 : Word).toNat + 32 := by decide

/-- What a vector row of the issuing task reads after a step. -/
def outV (r : Host.Outcome State Fault Refusal) (j : Fin 32) : Option Nat :=
  match r with
  | .next t => some (t.bytes (t.vaddr (t.vrow j)) 256)
  | .fault _ | .refused _ => none

/-- R257: 1.0 + 1.0 is 2.0 in every active lane. -/
theorem test_vadd : (outV (exec (.vadd { t := .f32, md := .rne, d := 2, a := .reg 0, b := .reg 0, m := 0, nw := false })
    { s0 with mem := memWrite s0.mem (s0.vaddr 0) 4 0x3F800000 }) 2) = some 0x40000000 := by decide +kernel

/-- R261, R264: lane 3 of four. -/
theorem test_vins : outV (exec (.vins .i32 1 (.reg 1) (.reg 6) false) s0) 1 = some (5 * 2 ^ 32) := by decide +kernel

/-- R45, R54, R55: halfway cases go to even, and a pair tree adds neighbours first. -/
theorem test_rounding : roundF .rne 0 .bf16 (decodeF .f32 0x3F808000) = 0x3F80 ∧ roundF .rne 0 .bf16 (decodeF .f32 0x3F818000) = 0x3F82
    ∧ roundF .rtz 0 .bf16 (decodeF .f32 0x3F81FFFF) = 0x3F81 ∧ roundF .rne 0 .f32 (addF .rne (decodeF .f32 0x3F800000) (decodeF .f32 0xBF800000)) = 0
    ∧ roundF .rne 0 .e4m3 (decodeF .f32 0x43E00000) = 0x7E := by decide +kernel

/-! ### Witnesses: classes 0x8 and 0x9 -/

/-- A grant of one 48-by-64 tile of BF16, and a descriptor of its operands. -/
def grant0 : Grant := { fmt := .bf16, m := 48, n := 64, k := 16, cb := 0 }
def op0 : Operand := { desc := BitVec.ofNat 512 (2 <<< 368), h := hSpad }

/-- The task with a shadow set that holds the grant and both operands, and with its job in a given state. -/
def sm (j : JState) : State := sr id |>.modMe fun t =>
  { t with shadowSet := { t.shadowSet with grant := some grant0, opA := some op0, opB := some op0, prof := 4 }, job := { t.job with state := j } }

theorem witness_matrix_setup : (sm .done).me.shadowSet.grant ≠ none ∧ s0.me.shadowSet.grant = none ∧ s0.srcS (.reg 0) = .ok 0
    ∧ drainRefused 0 = false ∧ (∃ y < 64, drainRefused y = true) ∧ (1 : BitVec 8).toNat ∈ [1, 2, 3, 4, 0x11] ∧ (5 : BitVec 8).toNat ∉ [1, 2, 3, 4, 0x11] := by
  decide

/-- A task in the same place with its handles and a grant. -/
def smh : State := sh.modMe fun t => { t with shadowSet := { t.shadowSet with grant := some grant0 } }

theorem witness_operand : smh.me.shadowSet.grant ≠ none ∧ Passes smh hSpad (hSpad.toSeg 0) 64 64 false ∧ hSpad.claim = false
    ∧ LoadReady smh hSpad .none (paOf hSpad (hSpad.toSeg 0)) 64 ∧ smh.memWf = true := by
  unfold Passes InBounds Permitted InFootprint LoadReady; decide +kernel

theorem witness_jobs : (sm .done).me.job.pend = none ∧ (sm .done).me.shadowSet.grant = some grant0 ∧ (sm .done).me.shadowSet.opA = some op0
    ∧ (sm .done).me.shadowSet.opB = some op0 ∧ (sm .done).me.job.state = .done ∧ (sm .done).me.shadowSet.badNumerics grant0 op0 op0 = false
    ∧ (sm .done).me.shadowSet.tilesFit grant0 = true ∧ (sm .done).me.shadowSet.drain.getLsbD 15 = false ∧ (sm .done).releaseWaits 0 = false
    ∧ smh.me.shadowSet.grant = some grant0 ∧ smh.me.shadowSet.opA = none
    ∧ (sm .running).me.job.state = .running ∧ (sm .running).iss.newJob = false ∧ (0 : Nat) + 64 ≤ s0.me.rowCount ∧ s0.me.rowCount < 1 + 64
    ∧ s0.stores = [] ∧ s0.me.outRows = none := by decide +kernel

/-- The same task with a job that drains to result queue 2, which belongs to nobody, its launch or another, and has the rows given. -/
def smq (o : Option Nat) (n : Nat) (j : Job) : State :=
  (sm .done |>.modMe fun t => { t with job := j, active := { t.active with grant := some grant0, drain := 0x28000 }, shadowSet := { t.shadowSet with drain := 0x28000 } }).setCore 0 0
    { (sm .done).myCore with rqs := [(2, { owner := o, rows := List.replicate n { row := 0 } })] }

theorem witness_queue_jobs :
    (smq none 0 {}).me.shadowSet.drain.getLsbD 15 = true ∧ (smq none 0 {}).me.shadowSet.drain.toNat / 2 ^ 16 % 8 = 2
    ∧ ((smq none 0 {}).myCore.rq 2).owner = none ∧ ((smq (some 0) 0 {}).myCore.rq 2).owner = some (smq (some 0) 0 {}).me.launch
    ∧ ((smq (some 1) 0 {}).myCore.rq 2).owner ≠ none ∧ ((smq (some 1) 0 {}).myCore.rq 2).owner ≠ some 0
    ∧ (smq none 0 {}).me.shadowSet.badNumerics grant0 op0 op0 = false ∧ (smq none 0 {}).me.shadowSet.tilesFit grant0 = true
    ∧ (smq none 0 {}).releaseWaits 0 = false ∧ ({ smq none 0 {} with stores := sw.stores } : State).releaseWaits 0 = true
    ∧ (let s := smq (some 0) 96 { state := .parked, rqFull := true }
       s.me.job.state = .parked ∧ s.me.job.rqFull = true ∧ (s.myCore.rq (s.me.active.drain.toNat / 2 ^ 16 % 8)).bound = none
        ∧ 96 < (s.myCore.rq (s.me.active.drain.toNat / 2 ^ 16 % 8)).rows.length + 48 ∧ s.iss.newJob = false)
    ∧ (smq none 0 { pend := some { code := 0x13 } }).me.job.pend = some { code := 0x13 } := by decide +kernel

theorem witness_job_traps :
    ({ (sm .done).me.shadowSet with prof := 1 } : MSet).badNumerics grant0 op0 op0 = true
    ∧ (sm .done).me.shadowSet.tilesFit { grant0 with m := 0 } = false
    ∧ (smq none 0 { state := .running }).me.outRows = some (0, 48) := by decide +kernel

/-- R69, R273: the copy has SYS.SEED for a key that the shadow set does not give, and the bits that say so. -/
theorem test_activated :
    let m : MSet := { rk := 7, qk := 8, dk := 9, rot := 0x100000, orgB := 3 }
    (activated m 5).rk = 7 ∧ (activated m 5).qk = 5 ∧ (activated m 5).dk = 5 ∧ (activated m 5).rot = 0x300000 ∧ (activated m 5).drain = 0x100010 := by decide

/-- A core with result queue 2. -/
def sq (r : RQ) : State := st id id fun c => { c with rqs := [(2, r)] }

theorem witness_queues :
    ((sq {}).myCore.rq 2).owner = none ∧ ((sq { owner := some 0 }).myCore.rq 2).owner = some s0.me.launch ∧ RowFree (sq {}) 1
    ∧ (sq {}).reserved 0 0 2 = 0 ∧ ((sq {}).myCore.rq 2).rows = [] ∧ (sq {}).me.drainsTo 2 = false
    ∧ ((sq { bound := some 3 }).myCore.rq 2).bound ≠ none ∧ RowFree (sq { bound := some 3 }) 1
    ∧ ((sq { rows := [{ row := 0 }] }).myCore.rq 2).rows = [{ row := 0 }] ∧ (sq { rows := [{ row := 0 }] }).reserved 0 0 2 = 0
    ∧ RowFree (sq { rows := [{ row := 0 }] }) 1 ∧ ({ row := 0 } : QRow).takenBy = none ∧ ({ row := 0 } : QRow).poison = false
    ∧ s0.srcS (.reg 2) = .ok 7 ∧ (7 : Word).toNat < 64 := by
  unfold RowFree; decide +kernel

/-- Cards of zeros lie in the scratchpad; a strict card with a time. -/
theorem witness_cards : CardAt sh 0 64 0 ∧ CardAt sh 0 128 0 ∧ CardAt sh 4032 64 0 ∧ Settled hHbm ∧ Settled {} ∧ sh.scoreboardUsed 0 0 < 16
    ∧ (copyCard 0).strict = false := by
  unfold CardAt Settled; decide +kernel

def strictCard : CopyCard := copyCard (packCodes 1 (List.replicate 423 0 ++ [1]) + 5 * packCodes 1 (List.replicate 448 0 ++ [1]))

/-- The state of the handles with a card at the start of the scratchpad. -/
def scard (n d : Nat) : State := { sh with mem := memWrite sh.mem (winAddr 0 0 0) n d, dies := [(0, { time := 5 })] }

def strict0 : Nat := packCodes 1 (List.replicate 423 0 ++ [1]) + 5 * packCodes 1 (List.replicate 448 0 ++ [1])

theorem witness_strict_card : CardAt (scard 64 strict0) 0 64 strict0 ∧ (copyCard strict0).strict = true ∧ (copyCard strict0).notBefore = 5
    ∧ (scard 64 strict0).passed 5 = true := by
  unfold CardAt; decide +kernel

/-- A task that drains to queue 2. -/
theorem witness_queue_copy :
    let s := st (fun t => { t with job := { t.job with state := .queued }, active := { t.active with drain := 2 ^ 15 + 2 * 2 ^ 16, levels := t.active.levels.set 0 { drain := true } } }) id id
    (s.myCore.rq 2).bound = none ∧ s.me.drainsTo 2 = true := by decide

/-- A descriptor of one row of 32 BF16 values. -/
def desc0 : Nat := 2 <<< 368 + 32 <<< 344 + 1 <<< 320

theorem witness_scan :
    smFind (st (fun t => { t with cReply := [(0, 5)] }) id id).me.cReply s0.iss.cPort = some 5
    ∧ CardAt (scard 64 desc0) 0 64 desc0 ∧ smFind (scard 64 desc0).me.cReply (scard 64 desc0).iss.cPort = none ∧ Settled hSpad
    ∧ (viewOf desc0).assayBad = false ∧ (viewOf desc0).isFloat = true ∧ (scard 64 desc0).assayStatus (viewOf desc0) hSpad none = 0
    ∧ (scard 64 desc0).assayStatus (viewOf desc0) {} none ≠ 0 := by
  unfold CardAt Settled; decide +kernel

/-- A task with one ticket open or failed. -/
def stk (f : Task → Task) : State := st (fun t => f { t with live := { t.live with ticket := 1 }, dup := { t.live with ticket := 1 } }) id id

theorem witness_tickets : s0.ticketsDone 0 = true ∧ s0.me.failures = [] ∧ (stk fun t => { t with openTickets := [1] }).ticketsDone 1 = false
    ∧ (stk fun t => { t with failures := [{ ticket := 1, code := 3 }] }).ticketsDone 1 = true
    ∧ (stk fun t => { t with failures := [{ ticket := 1, code := 3 }] }).me.failures = [{ ticket := 1, code := 3 }]
    ∧ (1 : Nat) ≤ (1 : Word).toNat ∧ (3 : Nat) < 256 := by decide

/-! ### Witnesses: classes 0xA to 0xC -/

/-- A state whose task holds two operand words in S8 and S9: W = 1 and W = 64 of bank 0, and one of bank 1 in S10. -/
def ss : State := sr fun r => ((r.wrS 8 0).wrS 9 (63 * 2 ^ 15)).wrS 10 (1 * 2 ^ 10)

theorem witness_seam : SeamFits ss 0 true ∧ SeamFits ss (63 * 2 ^ 15) false ∧ seamW 0 = 1 ∧ seamW (63 * 2 ^ 15) = 64 ∧ SeamFits ss 1023 true
    ∧ ¬ SeamFits ss (1 * 2 ^ 10) true ∧ ¬ SeamFits ss (63 * 2 ^ 15 + 961) true ∧ BankReady ss (seamBank ss 0) ∧ ss.srcS (.reg 8) = .ok 0
    ∧ ss.srcS (.reg 10) = .ok (1 * 2 ^ 10) := by
  unfold SeamFits BankReady; decide

theorem witness_seam_transfer : (0 : Word).toNat + (1024 : Word).toNat * 4 ≤ ss.me.spadSize ∧ ss.scoreboardUsed 0 0 < 16 ∧ (2 : Word).toNat % 4 ≠ 0
    ∧ (ss.me.spadSize < (4 : Word).toNat + (1024 : Word).toNat * 4) := by decide

theorem witness_seam_scalars : smFind ss.me.cReply ss.iss.cPort = none ∧ (ss.myCore.bank 0).queue = [] ∧ (5 : Word).getLsbD 0 = true
    ∧ (∀ k < 32, ((ss.myCore.bank (ss.me.bankBase + k)).queue.filter fun m => m.task = ss.iss.task).length ≤ ss.iss.fresh.count (ss.me.bankBase + k)) := by
  decide

/-- A bank whose queue holds one sum of plane 0 and plane 1 into plane 2. -/
def macro0 : Macro := { task := 0, port := 0, instr := .sadd { a := .reg 8, b := .reg 9, c := .reg 10, pred := false } false, a := 2, b := 0, c := 1 }
def sbank : State := st id id fun c => { c with banks := [(0, { queue := [macro0] })] }

theorem witness_seam_arithmetic : sbank.memWf = true ∧ ((sbank.core 0 0).bank 0).queue = [macro0] ∧ sbank.cmds = []
    ∧ macro0.a.toNat % 2 ^ 10 + seamW macro0.a ≤ 1024 ∧ seamK macro0.b ≤ seamW macro0.b ∧ seamK macro0.c ≤ seamW macro0.c := by decide

/-- R319: in a bank of zeros the sum is zero, and the macro leaves its queue. -/
theorem test_sadd : (match exec (.seamMacroExecute 0 0 0) sbank with
    | .next t => ((t.core 0 0).bank 0).queue.length
    | .fault _ | .refused _ => 9) = 0 := by decide +kernel

/-- A core with relay entry 63 in a given state. -/
def srl (r : Relay) : State := { sh with cores := [(0, { (sh.core 0 0) with relays := [(63, r)] })] }

theorem witness_relays : CardAt (srl {}) 0 64 0 ∧ Settled hHbm ∧ ¬ NotMine (srl {}) ((srl {}).myCore.relay 63)
    ∧ NotMine (srl { owner := some 1 }) ((srl { owner := some 1 }).myCore.relay 63) ∧ ((srl { state := .posted }).myCore.relay 63).state = .posted
    ∧ (srl { state := .posted }).releaseWaits 0 = false ∧ (63 : Word).toNat < 64 ∧ 64 ≤ (64 : Word).toNat := by
  unfold CardAt Settled NotMine; decide +kernel

/-- R326: a posted strict entry whose time is past. -/
def slate : State := { srl { state := .posted, card := BitVec.ofNat 512 (1 <<< 394 + 5 <<< 448) } with dies := [(0, { time := 5 })] }

theorem witness_relay_late : (slate.myCore.relay 63).card.getLsbD 394 = true ∧ (slate.myCore.relay 63).notBefore = 5 ∧ slate.myDie.time = 5 := by decide +kernel

theorem witness_stack : CardAt sh 0 64 0 ∧ Settled hHbm ∧ tendCode sh (2 ^ 63) hHbm ≠ 0 ∧ foldCode sh true (2 ^ 120) hHbm ≠ 0 := by
  unfold CardAt Settled; decide +kernel

theorem witness_system : s0.me.reply = none ∧ (0 : Word).toNat ≤ s0.myDie.time ∧ s0.myDie.time < (0x8000000000000000 : Word).toNat
    ∧ (st (fun t => { t with reply := some (0, 0, 0) }) id id).me.reply ≠ none ∧ s0.srcS (.reg 1) = .ok 5 := by decide

theorem witness_resume : s0.iss.snap.hnd = false ∧ (sr fun r => { r with hnd := true }).iss.snap.hnd = true
    ∧ (sr fun r => { r with hnd := true, hse := true }).iss.snap.hse = true ∧ ((sr fun r => r.wrS 25 240).regS 25).toNat % 16 = 0
    ∧ ((sr fun r => r.wrS 25 240).regS 25).toNat < s0.myLaunch.codeLen ∧ ((sr fun r => r.wrS 25 256).regS 25).toNat = s0.myLaunch.codeLen
    ∧ ((sr fun r => r.wrS 25 1).regS 25).toNat % 16 ≠ 0 := by decide

theorem witness_control_words : (0 : Word).toNat % 32 = 0 ∧ 511 + (1 : Word).toNat ≤ 512 ∧ 512 < 511 + (2 : Word).toNat
    ∧ (0 : Word).toNat + 32 * (1 : Word).toNat ≤ s0.me.spadSize ∧ s0.releaseWaits 0 = false
    ∧ s0.scoreboardHolds 0 0 (winAddr 0 0 0) 32 false = false ∧ s0.poisoned (winAddr 0 0 0) 32 = false := by decide

/-- Chapter 7: entry 17 of the example, and its slot word. -/
def entry17 : Nat := 0x80C <<< 244 + 0x50C02100 <<< 204

theorem test_short_forms : decodeShort entry17 3 = .ok (.vfma { t := .f32, md := .rne, d := 3, a := .reg 11, b := .reg 16, m := 0, nw := false })
    ∧ decodeWord 0xE088C224 0 = .ok (.cw { index := 17, ofs := 3 } { index := 17, ofs := 4 }) ∧ (decodeShort 0 1).toOption = none := by decide +kernel

/-- A state whose table holds an and of V0 and V1 into V2 in entry 1. -/
def scw : State := st (fun t => { t with cwt := [(1, 0x8 <<< 252 + (encode (.vand { t := .n32, d := 2, a := .reg 0, b := .reg 1, m := 0, nw := false })).1 <<< 204)] }) id id

theorem witness_short_pairs : scw.iss.half = 0 ∧ scw.me.rowCount ≠ 0 ∧ RowUsable scw 2 ∧ (scw.srcV (.reg 0)).toOption = some 0
    ∧ decodeShort (smGet 0 scw.iss.snapCwt 1) 0 = .ok (.vand { t := .n32, d := 2, a := .reg 0, b := .reg 1, m := 0, nw := false })
    ∧ (actOf (.vand { t := .n32, d := 2, a := .reg 0, b := .reg 1, m := 0, nw := false }) scw).toOption.isSome = true
    ∧ (decodeShort (smGet 0 scw.iss.snapCwt 2) 0).toOption = none := by
  unfold RowUsable RowFree; decide +kernel

/-- A fold card and a tend card that are accepted: 16 F32 values of one rank; one block whose arrays lie in one stack's window. -/
def foldCard : Nat := 16 <<< 96 + 4 <<< 120 + 1 <<< 144
def tendCard : Nat := 1 <<< 320 + 4 <<< 344 + 32 <<< 64 + 64 <<< 128 + 96 <<< 192 + 128 <<< 256

def stend : State :=
  { sh with dies := [(0, { stackRegs := [(0, { twBase := [(0, 0x20000)], twLen := [(0, 1)] }), (1, { twBase := [(0, 0x20000)], twLen := [(0, 1)] })] })] }

theorem witness_stack_accepts : foldCode sh true foldCard hHbm = 0 ∧ foldCode sh false foldCard hHbm = 0 ∧ tendCode stend tendCard hHbm = 0 := by
  decide +kernel


/-! ### Witnesses: events of a core and its engines -/

/-- A core whose units finish now. -/
def su : State := st id id fun c => { c with divider := { task := some 0, doneAt := 0 }, fdiv := [(0, { task := some 0, doneAt := 0 })]
                                             idiv := [(1, { task := some 0, doneAt := 0 })], drain := some (0, 1, 0) }

theorem witness_units : (su.core 0 0).divider.task ≠ none ∧ (su.core 0 0).divider.doneAt ≤ su.clock
    ∧ smFind (su.core 0 0).fdiv 0 = some { task := some 0, doneAt := 0 } ∧ smFind (su.core 0 0).idiv 1 = some { task := some 0, doneAt := 0 }
    ∧ (su.core 0 0).drain = some (0, 1, 0) := by decide

theorem witness_between : Between s0 0 0 0 ∧ Between (st (fun t => { t with softErr := some 1 }) id id) 0 0 0
    ∧ Between (st (fun t => { t with abortTok := some (3, 0) }) id id) 0 0 0 ∧ Between (st (fun t => { t with stepMis := some (3, 0) }) id id) 0 0 0
    ∧ Between (st (fun t => { t with live := { t.live with yieldCount := 16385 } }) id id) 0 0 0 ∧ (s0.die 0).yieldLimit < 16385
    ∧ s0.me.yieldDue = none ∧ Between (st (fun t => { t with yieldDue := some 16385 }) id id) 0 0 0
    ∧ s0.me.lateErr = [] ∧ s0.me.softErr = none ∧ s0.me.live.hnd = false ∧ s0.me.abortTok = none ∧ s0.me.stepMis = none := by
  unfold Between; decide

/-- A bundle that has waited 512 clocks. -/
def slong : State := { st (fun t => { t with stallSince := some 0, stallWhy := .stall .job }) id id with clock := 512 }

theorem witness_stalled : (slong.task 0).stallSince = some 0 ∧ 0 + 512 ≤ slong.clock ∧ Between slong 0 0 0
    ∧ Between (st (fun t => { t with lateErr := [.live] }) id id) 0 0 0 := by
  unfold Between; decide

def scan0 : Scan := { port := 0, desc := desc0, h := hSpad, fmt := .e4m3 }
def swt : State := st (fun t => { t with scans := [scan0] }) id id

theorem witness_waits : ((st (fun t => { t with stallWhy := .timeUntil 0, stallSince := some 0 }) id id).task 0).stallWhy = .timeUntil 0
    ∧ (0 : Nat) ≤ s0.time 0 ∧ (swt.task 0).scans = [scan0]
    ∧ (∀ r ∈ (viewOf desc0).arrays.map hSpad.span2, swt.chunkWaits 0 r.1 r.2 false = false ∧ swt.outputOn 0 0 r.1 r.2 = false)
    ∧ swt.stackBlocked swt.issued scan0.order false scan0.ranges [] = false ∧ swt.rectBad (viewOf desc0) hSpad 32 0 0 1 32 = none := by decide +kernel

/-- The task with a job of two steps in the active set, in a given state. -/
def sj (f : Job → Job) (m : MSet → MSet) : State := st (fun t =>
  { t with active := m { t.active with grant := some grant0, opA := some op0, opB := some op0, prof := 4, levels := t.active.levels.set 0 { a := 2 } }, job := f {} })
  id fun c => { c with engine := [0] }

theorem witness_job_start : (sj (fun j => { j with state := .queued }) id).runningJob 0 0 = none
    ∧ (∀ j ∈ (sj (fun j => { j with state := .queued }) id).residents 0 0, ((sj (fun j => { j with state := .queued }) id).task j).job.state ≠ .parked)
    ∧ ((sj (fun j => { j with state := .queued }) id).core 0 0).engine = [0] := by decide

theorem witness_job_stops : (sj (fun j => { j with state := .running, halt := true }) id).runningJob 0 0 = some 0
    ∧ (sj (fun j => { j with state := .running }) fun m => { m with opA := some { op0 with h := {} } }).runningJob 0 0 = some 0
    ∧ ((sj (fun j => { j with state := .running }) fun m => { m with opA := some { op0 with h := {} } }).task 0).active.usable = none := by decide

/-- The tile at the origin. -/
def tile0 : Tile := { cm := 0, cn := 0, rows := [] }
def sj1 : State := sj (fun j => { j with state := .running, tile := some tile0 }) id
def sj4 : State := sj (fun j => { j with state := .running, released := true }) fun m => { m with grant := some { grant0 with fmt := .ab4 } }

theorem witness_job_step :
    sj1.runningJob 0 0 = some 0 ∧ (sj1.task 0).active.usable = some (op0, op0)
    ∧ drainsAt (sj1.task 0).active.levels.toList (sj1.task 0).job.idx = false ∧ (tile0.cm, tile0.cn) = (sj1.task 0).active.cTile (sj1.task 0).job.idx
    ∧ nextPoint (sj1.task 0).active.levels.toList (sj1.task 0).job.idx = some [1, 0, 0, 0, 0, 0]
    ∧ sj1.stepBad (sj1.task 0).active grant0 ((sj1.task 0).active.path grant0 op0 op0 false op0.h) ((sj1.task 0).active.path grant0 op0 op0 true op0.h)
        (sj1.task 0).job.idx = none
    ∧ sj4.runningJob 0 0 = some 0 ∧ (sj4.task 0).job.released = true ∧ (sj4.task 0).job.chunk = none := by decide +kernel

/-- A job at a point that drains: to its tile, or to result queue 2 with n rows; its next step is its last, or there is another. -/
def sjd (queue : Bool) (n : Nat) (trips : Nat) : State :=
  (sj (fun j => { j with state := .running, tile := some tile0 }) fun m =>
      { m with drain := if queue then 0x28010 else 0x10, levels := (m.levels.set 0 { a := 1, drain := true }).set 1 { a := BitVec.ofNat 64 trips } }) |>.modCore 0 0 fun x =>
    { x with rqs := [(2, { owner := some 0, rows := List.replicate n { row := 0 } })] }

theorem witness_job_drains :
    (∀ s ∈ [sjd false 0 1, sjd true 0 2, sjd true 49 2], s.runningJob 0 0 = some 0 ∧ (s.task 0).active.grant = some grant0
      ∧ (s.task 0).active.usable = some (op0, op0) ∧ (s.task 0).job.halt = false ∧ (s.core 0 0).relays = [] ∧ s.cmds = []
      ∧ s.stepBad (s.task 0).active grant0 ((s.task 0).active.path grant0 op0 op0 false op0.h) ((s.task 0).active.path grant0 op0 op0 true op0.h)
        (s.task 0).job.idx = none
      ∧ drainsAt (s.task 0).active.levels.toList (s.task 0).job.idx = true)
    ∧ (sjd true 0 2 |>.task 0).active.drain.getLsbD 15 = true ∧ (sjd true 0 2 |>.task 0).active.drain.toNat / 2 ^ 16 % 8 = 2
    ∧ 96 < ((sjd true 49 2 |>.core 0 0).rq 2).rows.length + 48 ∧ ¬ 96 < ((sjd true 0 2 |>.core 0 0).rq 2).rows.length + 48
    ∧ nextPoint (sjd false 0 1 |>.task 0).active.levels.toList (sjd false 0 1 |>.task 0).job.idx = none
    ∧ (nextPoint (sjd true 0 2 |>.task 0).active.levels.toList (sjd true 0 2 |>.task 0).job.idx).isSome = true
    ∧ (∀ k < 48, (sjd false 0 1).poisoned ((sjd false 0 1).tileRowAddr ((sjd false 0 1).task 0) grant0 0 0 k) 256 = false) := by decide +kernel

/-- A relay entry that writes 16 bytes from scratchpad to HBM. -/
def relay0 : Relay := { card := BitVec.ofNat 512 (16 <<< 256), hs := hSpad, hd := hHbm, owner := some 0 }
def srel (r : Relay) : State := st id id fun c => { c with relays := [(63, r)], cbs := [(0, { armed := true })] }

theorem witness_relay_fire : (srel { relay0 with state := .armed }).memWf = true ∧ (srel { relay0 with state := .armed }).relayReady 0 0 63 = true
    ∧ relay0.kind = 0 ∧ relay0.hs.lo.toNat ≤ relay0.soff ∧ relay0.soff + relay0.len ≤ relay0.hs.last.toNat + 1
    ∧ (srel { relay0 with state := .firing }).chunkWaits 0 (relay0.hs.at relay0.soff) relay0.len false = false
    ∧ (srel { relay0 with state := .firing }).claimMet (relay0.hs.at relay0.soff) relay0.len = false
    ∧ (srel { relay0 with state := .firing }).poisoned (relay0.hs.at relay0.soff) relay0.len = false := by decide +kernel

def srel1 : State := srel { relay0 with state := .firing, loaded := true, data := 5, dataLen := 16 }

theorem witness_relay_write : isHbm (relay0.hd.at (relay0.dst + 0)) = true ∧ srel1.chunkWaits 0 (relay0.hd.at relay0.dst) 16 true = false
    ∧ srel1.gangHolds 0 0 (relay0.hd.at relay0.dst) = false
    ∧ srel1.gangDrops 0 0 (relay0.hd.at relay0.dst) = false ∧ srel1.claimBars (relay0.hd.at relay0.dst) false = false
    ∧ relay0.card.getLsbD 393 = false ∧ relay0.card.getLsbD 395 = false := by decide +kernel

/-- An entry that folds its 16 bytes as four F32 values of one rank, and one that writes them to the scratchpad of core 1 and counts on its barrier 5. -/
def relayF : Relay := { relay0 with card := BitVec.ofNat 512 (16 <<< 256 + 1 <<< 391 + 4 <<< 387 + 1 <<< 288), state := .firing, loaded := true, data := 5, dataLen := 16 }
def relayB : Relay := { relayF with card := BitVec.ofNat 512 (16 <<< 256 + 1 <<< 395 + 5 <<< 396), hd := { hSpad with pa := winAddr 0 0 1 } }
def srelB : State := { srel relayB with
  tasks := [(0, task0), (1, { task0 with core := 1, status := .ready })], cores := [(0, { issuing := some 0, relays := [(63, relayB)] })] }

theorem witness_relay_fold : relayF.kind = 1 ∧ relayF.hd.valid = true ∧ (srel relayF).holdRoom 0 0 (relayF.hd.at relayF.dst) ((relayF.len + 63) / 64) = true
    ∧ (srel relayF).gangDrops 0 0 (relayF.hd.at relayF.dst) = false := by decide +kernel

theorem witness_relay_barrier :
    let pa := relayB.hd.at relayB.dst
    isWindow pa = true ∧ srelB.onDie (paDie pa) pa = true ∧ srelB.holder pa ≠ none ∧ relayB.card.getLsbD 395 = true ∧ relayB.kind ≠ 1
    ∧ paDie pa = 0 ∧ paCore pa = 1 ∧ coreKey 0 1 ≠ coreKey 0 0 ∧ (srelB.core 0 1).relays = [] ∧ (srelB.core 0 1).issuing = none
    ∧ relayB.card.toNat / 2 ^ 396 % 2 ^ 6 = 5 ∧ ((srelB.core 0 1).cb 5).owner = none ∧ relayB.card.getLsbD 393 = false
    ∧ relayB.hd.lo.toNat ≤ relayB.dst ∧ relayB.dst + relayB.dataLen ≤ relayB.hd.last.toNat + 1
    ∧ srelB.gangHolds 0 0 pa = false ∧ srelB.chunkWaits 0 pa 16 true = false ∧ srelB.gangDrops 0 0 pa = false ∧ srelB.claimBars pa false = false := by
  decide +kernel

/-! ### Witnesses: commands -/

/-- A copy of 16 bytes from scratchpad to HBM. -/
def copy0 : Cmd := { id := 7, task := 0, ticket := 1, kind := .cpy, die := 0, core := 0, launch := 0, card := 16 <<< 304 + 1 <<< 320 + 1 <<< 336,
                     hs := hSpad, hd := hHbm, seed := 0 }
def scp (f : Cmd → Cmd) : State := { s0 with cmds := [f copy0] }
def scp1 : State := scp fun x => { x with started := true }

theorem witness_copy :
    (scp id).cmdOf 0 1 = some copy0 ∧ (copyCard copy0.card).notBefore ≤ (scp id).time 0 ∧ copy0.count = 16 ∧ copy0.lines = 1
    ∧ scp1.stackReady { copy0 with started := true } = true ∧ scp1.cmdDone { copy0 with started := true } = false
    ∧ scp1.linePieces copy0 0 0 ≠ [] ∧ (∀ p ∈ scp1.linePieces copy0 0 0, copy0.present p = true) ∧ (∀ p ∈ scp1.linePieces copy0 0 0, p.row = none)
    ∧ (∀ r ∈ copy0.srcPa (scp1.linePieces copy0 0 0), scp1.cmdWaits copy0 r.1 r.2 false = false)
    ∧ scp1.firstBad copy0.hs ((scp1.linePieces copy0 0 0).flatMap (·.reads)) = none ∧ copy0.places 0 = [copy0.base] ∧ isHbm copy0.base = true
    ∧ scp1.cmdWaits copy0 copy0.base 64 true = false ∧ scp1.claimBars copy0.base false = false
    ∧ scp1.gangHolds 0 0 copy0.base = false ∧ scp1.gangDrops 0 0 copy0.base = false := by decide +kernel

/-- An acknowledgement on its way, of a copy that counts on barrier 5 or on none; nothing issues on the core. -/
def ack0 : Ack := { line := 0, pa := 64, no := 3 }
def copyA : Cmd := { copy0 with card := copy0.card + 1 <<< 422 + 5 <<< 416, unacked := [ack0] }

theorem witness_copy_ack : copyA.unacked.find? (fun y => y.line = 0) = some ack0 ∧ ({ scp id with cmds := [copyA], cores := [] } : State).cmdOf 0 1 = some copyA
    ∧ ({ scp id with cmds := [copyA], cores := [] } : State).responseWaits 0 64 3 = false ∧ copyA.barrier = some 5 ∧ copy0.barrier = none
    ∧ ({ scp id with cmds := [copyA], cores := [] } : State).cores = [] ∧ (({} : Core).cb 5).owner = none := by decide +kernel

/-- A fold command that reads and writes one line. -/
def fold0 : Cmd := { copy0 with kind := .sfold, card := foldCard, started := true, reads := [(0x20000, 64)], writes := [(0x20000, 64)] }

theorem witness_flush :
    ({ s0 with cmds := [fold0] } : State).flushBusy 0 = false ∧ ({ s0 with cmds := [fold0] } : State).flushQueue 0 = [(fold0.order, Sum.inl fold0.id)]
    ∧ (∀ y ∈ [fold0], y.id = fold0.id → y = fold0) ∧ (∃ r ∈ fold0.reads ++ fold0.writes, paDie r.1 = 0) := by decide +kernel

/-- A tend of one block. -/
def tend0 : Cmd := { copy0 with kind := .stend, card := tendCard, started := true, flushed := true, released := true, reads := [(0x20000, 256)]
                                writes := [(0x20000, 32), (0x20020, 1), (0x20040, 32), (0x20060, 1)] }
def std : State := { s0 with cmds := [tend0] }

theorem witness_tend : std.cmds[0]? = some tend0 ∧ std.stackReady tend0 = true ∧ tend0.answer = none ∧ std.gangDrops tend0.launch tend0.die tend0.target = false
    ∧ std.firstBad hHbm [(0, 32), (32, 1), (64, 32), (96, 1), (128, 128)] = none := by decide +kernel

/-- A contribution to a row of one F32 value of two ranks. -/
def msg0 : FoldMsg := { id := { addr := 0x20000, len := 1, bf16 := false, nrank := 2 }, launch := 0, det := true
                        part := { rank := 0, data := [], task := 0, ticket := 1 }, src := 0x8000 }
def other0 : Contribution := { rank := 1, data := [0x3F800000], task := 0, ticket := 2 }

/-- The state with that message, its value 1.0 at its source, a staging area, and rounds as given. -/
def sf (m : FoldMsg) (r : List FoldRound) : State :=
  { s0 with dies := [(0, { stackRegs := [(0, { fstBase := 0x100000, fstLen := 1 })] })], foldMsgs := [m], rounds := r
            mem := memWrite [] 0x8000 4 0x3F800000 }

theorem witness_fold_plain : (sf { msg0 with det := false } []).mayArrive { msg0 with det := false } 0 = true
    ∧ (sf { msg0 with det := false } []).gangDrops 0 ((sf { msg0 with det := false } []).msgDie msg0) 0x20000 = false
    ∧ (sf { msg0 with det := false } []).runHeld msg0.id = false ∧ (sf { msg0 with det := false } []).poisoned 0x8000 4 = false
    ∧ (sf { msg0 with det := false } []).foldBad msg0.id false = none
    ∧ (sf { msg0 with det := false, isFlush := true } []).mayArrive { msg0 with det := false, isFlush := true } 0 = true := by decide +kernel

theorem witness_fold_open : (sf msg0 []).mayArrive msg0 0 = true ∧ msg0.id.nrank ≠ 1 ∧ msg0.waiting = false
    ∧ (sf msg0 []).stagingUsed (stackOf 0x20000) + 1 * 2 * 4 ≤ (sf msg0 []).stagingBytes (stackOf 0x20000).1 (stackOf 0x20000).2
    ∧ (sf { msg0 with waiting := true } []).runHeld msg0.id = false
    ∧ (sf { msg0 with waiting := true } []).stagingUsed (stackOf 0x20000) + 1 * 2 * 4
        ≤ (sf { msg0 with waiting := true } []).stagingBytes (stackOf 0x20000).1 (stackOf 0x20000).2 := by decide +kernel

def round0 : FoldRound := { id := msg0.id, reserved := 8, parts := [other0] }

theorem witness_fold_last : (sf msg0 [round0]).mayArrive msg0 0 = true ∧ (sf msg0 [round0]).runHeld msg0.id = false ∧ (∀ p ∈ round0.parts, p.rank ≠ msg0.part.rank)
    ∧ round0.id = msg0.id ∧ round0.parts.length + 1 = msg0.id.nrank ∧ (sf msg0 [round0]).foldBad msg0.id false = none
    ∧ (sf { msg0 with isFlush := true } [round0]).mayArrive { msg0 with isFlush := true } 0 = true
    ∧ (sf { msg0 with isFlush := true } [round0]).gangDrops 0 0 0x20000 = false
    ∧ (sf { msg0 with isFlush := true } [round0]).foldBad msg0.id false = none := by decide +kernel

/-- R66: 1.0 + 1.0 = 2.0 in the row, which was zero. -/
theorem test_fold : (match exec (.foldContribution 0) (sf msg0 [round0]) with
    | .next t => memRead t.mem 0x20000 4
    | .fault _ | .refused _ => 9) = 0x40000000 := by decide +kernel

/-! ### Witnesses: homes -/

def store0 : Store := { pa := 0x20000, len := 8, data := 1 }
def load0 : LoadReq := { task := 0, die := 0, core := 0, pa := 0x20000, len := 8, hint := .none, cache := false, claimSeg := false }
def atom0 : AtomReq := { task := 0, die := 0, pa := 0x20000, kind := .amo .add false 3 }

theorem witness_homes : s0.memWf = true ∧ ({ s0 with stores := [store0] } : State).storeReady 0 store0 = true
    ∧ ({ s0 with stores := [store0] } : State).gangDrops 0 0 0x20000 = false
    ∧ ({ s0 with loads := [load0] } : State).loadStands 0 0 0x20000 8 .none false (some load0.no) = false
    ∧ ({ s0 with loads := [load0] } : State).meetsPoison 0 0 0x20000 8 .none false = false
    ∧ ({ s0 with loads := [load0], poison := [0x20000] } : State).meetsPoison 0 0 0x20000 8 .none false = true
    ∧ ({ s0 with loads := [load0], poison := [0x20000] } : State).loadStands 0 0 0x20000 8 .none false (some load0.no) = false
    ∧ s0.poisoned 0x20000 8 = false ∧ ({ s0 with atomics := [atom0] } : State).atomicWaits 0 0 0 0x20000 atom0.kind.bytes (some atom0.no) = false
    ∧ ({ s0 with atomics := [atom0], poison := [0x20000] } : State).atomicWaits 0 0 0 0x20000 atom0.kind.bytes (some atom0.no) = false
    ∧ ({ s0 with atomics := [atom0], poison := [0x20000] } : State).poisoned 0x20000 atom0.kind.bytes = true ∧ s0.tag 0x20000 = .value := by decide +kernel

/-- A store of an aborted gang to another die, which is dropped. -/
def sdrop : State :=
  { st id (fun l => { l with gang := some 0 }) id with
    stores := [{ store0 with pa := 2 ^ 39 }], gangs := [{ launch := 0, desc := 0x8000, leadMod := 0, leadDie := 0, t := 0, w := 0, guard := 0, digest := 0, members := [], dropped := [0] }] }

theorem witness_drop : sdrop.storeReady 0 { store0 with pa := 2 ^ 39 } = true ∧ sdrop.gangDrops 0 0 (2 ^ 39) = true := by decide +kernel

/-- A deterministic update on its way, of a task that has closed its epoch. -/
def update0 : Update := { domain := 0, ep := 0, key := 0, seq := 0, pa := 0x20000, op := .add, ty := .f32, v := 0x3F800000, launch := 0 }
def sup (f : State → State) : State := f { st (fun t => { t with closedTo := 1, live := { t.live with ep := 1 } }) (fun l => { l with det := true }) id with famoSent := [update0] }

theorem witness_updates : (sup id).famoSent[0]? = some update0 ∧ (sup id).atomicWaits 0 0 0 0x20000 4 (some update0.no) = false
    ∧ (sup id).poisoned 0x20000 4 = false ∧ (sup fun s => { s with poison := [0x20000] }).poisoned 0x20000 4 = true
    ∧ (sup fun s => { s with poison := [0x20000] }).atomicWaits 0 0 0 0x20000 4 (some update0.no) = false ∧ (sup id).famoRoom 0x20000 0 = true
    ∧ (sup fun s => { s with updates := List.replicate 16 update0 }).famoRoom 0x20000 0 = false
    ∧ (sup fun s => { s with updates := List.replicate 16 update0 }).atomicWaits 0 0 0 0x20000 4 (some update0.no) = false
    ∧ (sup fun s => { s with famoSent := [], famoWait := [update0] }).famoRoom 0x20000 0 = true
    ∧ (sup fun s => { s with famoSent := [], famoWait := [update0] }).replyWaits 0 0x20000 = false
    ∧ (sup fun s => { s with famoSent := [], famoWait := [update0], poison := [0x20000] }).famoRefused update0 = true
    ∧ (sup fun s => { s with famoSent := [], updates := [update0] }).dueEpochs = [(0, 0)]
    ∧ (sup fun s => { s with famoSent := [], updates := [update0] }).updates.filter (fun u => decide (u.domain = 0) && decide (u.ep = 0)) = [update0]
    ∧ (sup fun s => { s with famoSent := [], updates := [{ update0 with claim := true }], tags := [(0x20000, .staked)] }).tag update0.pa ≠ .value := by decide +kernel

/-- R242: the epoch adds 1.0 to zero. -/
theorem test_epoch : (match exec (.epochApply 0) (sup fun s => { s with famoSent := [], updates := [update0] }) with
    | .next t => memRead t.mem 0x20000 4
    | .fault _ | .refused _ => 9) = 0x3F800000 := by decide +kernel


/-- R119, log 90: an update whose cell has been staked since changes nothing. -/
theorem test_epoch_staked : (match exec (.epochApply 0) (sup fun s => { s with famoSent := [], updates := [{ update0 with claim := true }], tags := [(0x20000, .staked)] }) with
    | .next t => memRead t.mem 0x20000 4
    | .fault _ | .refused _ => 9) = 0 := by decide +kernel
/-! ### Witnesses: claims -/

def req0 : ClaimReq := { task := 0, cell := 0x20000 }

/-- The state with a request for the cell of H2, which has this tag, and a claim table. -/
def scl (g : Tag) (anc : List Nat) (e : List ClaimEntry) : State :=
  { st (fun t => { t with ancestry := anc }) id id with
    claimReqs := [req0], tags := [(0x20000, g)], dies := [(0, { clBase := 0x100000, clLen := 65536, time := 10, claims := e, stakes := [{ cell := 0x20000, launch := 0, ancestry := [] }] })] }

def entry0 : ClaimEntry := { cell := 0x20000, evaluator := 5 }
def wait0 : Waiter := { task := 0, since := 0, timeout := 9 }

theorem witness_claim_touch : (scl .staked [] []).claimHeld req0 = false ∧ (scl .staked [] []).tag 0x20000 = .staked ∧ (scl .staked [] []).poisoned 0x20000 64 = false
    ∧ ((scl .staked [] []).die (paDie 0x20000)).claims.length < 1024
    ∧ ((scl .staked [] []).die (paDie 0x20000)).stakes.find? (fun x => x.cell = 0x20000) = some { cell := 0x20000, launch := 0, ancestry := [] } := by decide +kernel

theorem witness_claim_wait : (scl .working [] [entry0]).claimEntry 0x20000 = some entry0 ∧ (scl .working [] [entry0]).waiterRoom entry0 = true
    ∧ (0x20000 ∉ ((scl .working [] [entry0]).task 0).ancestry) ∧ (0x20000 ∈ ((scl .working [0x20000] [entry0]).task 0).ancestry)
    ∧ (scl .working [0x20000] [entry0]).claimHeld req0 = false := by decide +kernel

/-- Task 0 waits for the cell, and its footprint holds back a task of the tree of the evaluator, task 5. -/
def slp : State :=
  let r : Range := { base := 0, len64 := 1, stride := 0 }
  let e : Entry := { code := 0, rows64 := 1, spad4k := 1, banks := 1, cwt := none, rd := [], wr := [r] }
  { scl .working [] [{ entry0 with waiters := [wait0] }] with
    launches := [(0, { launch0 with entries := [e] })], tasks := [(0, task0), (5, { task0 with key := 1, evalCell := some 0x20000 }), (6, { task0 with key := 2, parent := some 5, status := .queued })] }

theorem witness_claim_timeout : slp.waitOf 0 = some (0x20000, wait0) ∧ wait0.timeout ≠ 0 ∧ wait0.since + wait0.timeout < slp.time 0 := by decide +kernel

theorem witness_claim_behind : slp.claimEntry 0x20000 = some { entry0 with waiters := [wait0] } ∧ slp.inTree 5 6 = true
    ∧ (∃ u ∈ slp.tasks, u.1 = 6) ∧ slp.keepsBack 0 6 = true := by decide +kernel

/-! ### Witnesses: the scheduler -/

/-- A task queued on an idle core, and one that is ready there. -/
def sqd : State := { State.reset with tasks := [(0, { task0 with status := .queued, started := false })], launches := [(0, launch0)] }
def srd : State := { State.reset with tasks := [(0, { task0 with status := .ready })], launches := [(0, launch0)] }

theorem witness_admission : sqd.nextAdmitted 0 0 = some 0 ∧ sqd.placeOn 0 0 0 (sqd.entryOf 0) = some (0, 0, 0)
    ∧ (srd.core 0 0).issuing = none ∧ (srd.markLeaving 0).nextTask 0 0 = some 0 := by decide +kernel

theorem witness_exchange : let s : State := { sqd with clock := 256, dies := [(0, { balancing := true })] }
    (s.die 0).balancing = true ∧ (s.die 0).lastExchange + 256 ≤ s.clock := by decide +kernel

/-- Two tasks of a launch, each with all rows of core 0: one resident and ready, the other queued; the swap area has room. -/
def ssh (x y : TStatus) (sh : List Shift) : State :=
  let e : Entry := { code := 0, rows64 := 512, spad4k := 1, banks := 1, cwt := none, rd := [], wr := [] }
  let t : Task := { task0 with rowCount := 32768 }
  { State.reset with
    tasks := [(0, { t with status := x }), (1, { t with key := 1, status := y, started := false, spadBase := 4096, bankBase := 1, swapFrame := some 0x200000 })]
    launches := [(0, { launch0 with entries := [e], swapBase := 0x200000, swapLen := 1024 })]
    dies := [(0, { time := 200000, shifts := sh })] }

theorem witness_shift :
    let s := ssh .issuing .queued []
    smGet 0 (s.die 0).lastShift 0 + (s.die 0).shiftLen ≤ (s.die 0).time ∧ s.openShifts 0 = [] ∧ (s.noteShift 0 0).rotationOf 0 0 = some ([0], [1])
      ∧ (sqd.noteShift 0 0).rotationOf 0 0 = none ∧ s.allGroups 0 = [[0], [1]]
      ∧ (s.die 0).shifts = [] ∧ s.gangs = [] ∧ (∀ e ∈ s.tasks, e.2.leaving = false)
      ∧ (ssh .issuing .queued [{ launch := 0, out := some 0, into := 1 }]).groupGoes 0 [1] = false
      ∧ (∀ g ∈ s.allGroups 0, s.groupGoes 0 g = true → 1 ∉ g)
      ∧ (ssh .issuing .queued [{ launch := 0, out := some 0, into := 1 }]).groupGoes 0 [0] = true
      ∧ (∃ y ∈ (ssh .issuing .queued [{ launch := 0, out := some 0, into := 1 }]).openShifts 0, y.launch = 0) := by decide +kernel

theorem witness_swap_out :
    let s := ssh .ready .queued [{ launch := 0, out := some 0, into := 1 }]
    s.openShifts 0 = [{ launch := 0, out := some 0, into := 1 }] ∧ s.group 0 = [0] ∧ s.groupGoes 0 [0] = true ∧ s.groupLeaves [0] = true
      ∧ s.groupStopped [0] = true ∧ (s.placeFrames [0]).isSome = true := by decide +kernel

theorem witness_swap_in : (ssh .ended .swapped []).outside ((ssh .ended .swapped []).group 1) ≠ [] ∧ ((ssh .ended .swapped []).openShifts 0) = []
    ∧ ((ssh .ended .swapped []).bringIn [1]).isSome = true := by decide +kernel

/-- Two tasks whose footprints meet: the first waits in a crew of both, or for its epoch, and the second is held behind it. -/
def sdl : State :=
  let r : Range := { base := 0, len64 := 1, stride := 0 }
  let e : Entry := { code := 0, rows64 := 1, spad4k := 1, banks := 1, cwt := none, rd := [], wr := [r] }
  { State.reset with
    tasks := [(0, { task0 with status := .parked, parkedOn := .epoch 0 0, arrival := some (0, 0) }), (1, { task0 with key := 1, status := .queued })]
    launches := [(0, { launch0 with entries := [e], det := true, crews := [{ die := 0, members := [0, 1], arrived := [0] }] })] }

theorem witness_deadlock : 0 ∈ ((sdl.launch 0).crew 0).arrived ∧ 1 ∈ ((sdl.launch 0).crew 0).members ∧ (sdl.task 1).status = .queued
    ∧ (sdl.task 0).key.ult (sdl.task 1).key = true ∧ (sdl.task 0).evalCell = none ∧ (sdl.task 1).evalCell = none ∧ sdl.heldBehind 1 0 = true ∧ sdl.openEpoch 0 = some 0 := by decide +kernel

theorem witness_epoch_stuck : (ssh .parked .ended []).openEpoch 0 = some 0
    ∧ ((ssh .parked .ended []).modTask 0 fun t => { t with parkedOn := .epoch 0 0 }).epochStuck 0 0 = true := by decide +kernel

/-! ### Witnesses: translation -/

/-- A radix table whose first leaf maps the frame at 0x60000. -/
def swk (leaf : Nat) (w : List Walk) : State :=
  { s0 with walks := w, mem := memWrite (memWrite (memWrite (memWrite [] 0x30000 8 0x40002) 0x40000 8 0x41002) 0x41000 8 0x42002) 0x42000 8 leaf }
def walk0 : Walk := { die := 0, launch := 0, seg := 1, off := 0 }

theorem witness_walk : (swk 0x60004 [walk0]).memWf = true ∧ (swk 0x60004 [walk0]).walks[0]? = some walk0 ∧ (swk 0x60004 [walk0]).walkPlace 0 walk0 < 32
    ∧ walk0.faulted = false ∧ walk0.dead = false
    ∧ ((swk 0x60004 [walk0]).walk 0 1 0).1 = .leaf 0x42000 0 0x60004 ∧ ((swk 0 [walk0]).walk 0 1 0).1 = .fault 0x42000 0 0
    ∧ entryKind 0 = 0 ∧ entryKind (BitVec.toNat (0x60004 : Word)) = 2 ∧ ({ walk0 with faulted := true } : Walk).faulted = true := by decide +kernel

theorem witness_migrate :
    let s := swk 0x60004 []
    entryKind (memRead s.mem 0x42000 8) = 2 ∧ flag (memRead s.mem 0x42000 8) 5 = false ∧ flag (memRead s.mem 0x42000 8) 4 = false
    ∧ leafFrame (memRead s.mem 0x42000 8) = 0x60000 ∧ s.frameTakes 0x60000 (2 ^ 16) 0x70000 = true
    ∧ s.frameFixed 0x60000 (2 ^ 16) = false := by decide +kernel

def mig0 : Migration := { leaf := 0x42000, src := 0x60000, dst := 0x70000, size := 2 ^ 16, waitCores := [(0, 0)] }
def smg : State := { swk 0x60024 [] with migrations := [mig0] }

theorem witness_revoke : smg.revoking 0 0 0x60000 = some mig0 ∧ (smg.core 0 0).issuing = some 0 ∧ smg.engaged 0 = false ∧ (smg.task 0).withheld = []
    ∧ smg.cmds = []
    ∧ (smg.revokeCore 0 0 0x60000 (2 ^ 16)).frameBusy 0 0 0x60000 (2 ^ 16) = false ∧ (smg.cmds = [])
    ∧ 0x42000 + 8 ≤ mig0.dst := by decide +kernel

def spo : State := { swk 0x60004 [] with cores := [], launches := [(0, { launch0 with swapBase := 0x200000, swapLen := 16 })] }

theorem witness_page_out :
    let w := memRead spo.mem 0x42000 8
    spo.memWf = true ∧ (spo.launch 0).alive = true ∧ entryKind w = 2 ∧ flag w 5 = false ∧ flag w 4 = false ∧ leafFrame w = 0x60000
    ∧ spo.frameFixed 0x60000 (2 ^ 16) = false ∧ spo.swapFree 0 0x280000 (2 ^ 16) = true ∧ 0x280000 % 65536 = 0
    ∧ (∀ k ∈ allCores, (spo.core k.1 k.2).issuing = none) ∧ spo.stores = [] ∧ spo.cmds = [] ∧ 0x42000 + 8 ≤ 0x280000 := by decide +kernel

/-- Once the cores have given up their handles, nothing is on its way to the page. -/
theorem witness_page_quiet : (allCores.all fun k => !(allCores.foldl (fun s k => s.revokeCore k.1 k.2 0x60000 (2 ^ 16)) spo).frameBusy k.1 k.2 0x60000 (2 ^ 16)) = true := by
  decide +kernel
/-! ### Witnesses: host -/

/-- The state with launch queue 3 as given. -/
def shq (x : Queue) : State := { s0 with host := { s0.host with queues := [(3, x)] } }

theorem witness_queue_registers : ((16 : Word).toNat + 2 ^ 32 - ((shq {}).queue 3).qhead) % 2 ^ 32 ≤ ringOf ((shq {}).queue 3).qsize
    ∧ ringOf ((shq {}).queue 3).qsize < ((17 : Word).toNat + 2 ^ 32 - ((shq {}).queue 3).qhead) % 2 ^ 32 ∧ ringOf 17 = 2 ^ 16
    ∧ (1 : Word).getLsbD 0 = true ∧ (2 : Word).getLsbD 0 = false ∧ ((shq {}).queue 3).waiting = [] ∧ ((shq {}).queue 3).qhead = ((shq {}).queue 3).qtail
    ∧ ((shq { qtail := 1 }).queue 3).qhead ≠ ((shq { qtail := 1 }).queue 3).qtail
    ∧ (16 : Word).toNat ≠ ((shq { qtail := 1 }).queue 3).qsize := by decide +kernel

theorem witness_registers : (sf msg0 []).stagingUsed (0, 0) = 0 ∧ (sf msg0 [round0]).stagingUsed (0, 0) ≠ 0 ∧ s0.claimAreaUsed 0 = 0
    ∧ s0.host.mailbox.busy = false ∧ s0.bootLocked = false ∧ ({ s0 with bootLocked := true } : State).bootLocked = true := by decide +kernel

theorem witness_windows : s0.host.reaches 0x20000 8 = true ∧ (s0.host.win2Base.toNat + 0x20000) % 64 + 8 ≤ 64
    ∧ s0.commandHolds (s0.linear 0x20000) 8 true = false ∧ s0.commandHolds (s0.linear 0x20000) 8 false = false ∧ s0.host.bar2 = []
    ∧ s0.linkWaits 0 (s0.linear 0x20000) = false ∧ s0.overtakes 0 (s0.linear 0x20000) s0.sent = false ∧ s0.replyWaits 0 (s0.linear 0x20000) = false
    ∧ s0.poisoned (s0.linear 0x20000) 8 = false ∧ s0.tag (s0.linear 0x20000) = .value ∧ s0.stamped (s0.linear 0x20000) 8 = false
    ∧ ({ s0.host with win2Base := 64 } : HostIf).reaches 0 8 = false
    ∧ ({ s0 with cmds := [{ fold0 with flushed := true, released := true }] } : State).commandHolds (s0.linear 0x20000) 8 false = true
    ∧ ({ s0 with cmds := [{ fold0 with flushed := true, released := true }] } : State).commandHolds (s0.linear 0x20000) 8 true = true := by
  decide +kernel

/-- A record of one task of one entry without extents, with the stamp that its image needs; memory holds the record alone, so that every table is of zeros. -/
def record0 : Nat := 1 <<< 888 + 1 <<< 856 + 1 <<< 896 + 1 <<< 802 + 1 <<< 793 + 1 <<< 768 + 0x20000 <<< 576 + 0x2000 <<< 384 + 0x1000 <<< 320
  + 0x10000 <<< 256 + 1 <<< 128
def srec (r : Nat) : State :=
  { State.reset with
    mem := memWrite [] 0x4000 256 r
    host := { State.reset.host with queues := [(0, { qbase := 0x4000, qtail := 1 })], stamps := [(0, { valid := true, base := 0x10000, len := 64, entries := [0] })] } }

theorem witness_record_accepted : (srec record0).moduleDown = false ∧ (srec record0).host.bar2 = [] ∧ (srec record0).host.scan < 8 ∧ ((srec record0).queue 0).offers = true
    ∧ (srec record0).poisoned ((srec record0).recordAddr 0) 256 = false ∧ memRead (srec record0).mem ((srec record0).recordAddr 0) 256 = record0
    ∧ ((srec record0).submit record0 0).toOption.isSome = true ∧ (srec record0).dieFull (record0 / 2 ^ 856 % 2 ^ 8) = false := by decide +kernel

theorem witness_record_refused : (match (srec 0).submit 0 0 with | .error st => decide (st = .record) | .ok _ => false) = true
    ∧ ((srec 0).queue 0).offers = true ∧ ((srec 0).queue 0).waiting = [] ∧ ((srec 0).queue 0).unread < ringOf ((srec 0).queue 0).csize := by decide +kernel

/-- A launch alone, not started, or with nothing under way, or with a stake. -/
def sla (l : Launch) (st : List Stake) : State := { State.reset with launches := [(0, l)], dies := [(0, { stakes := st })] }

theorem witness_launch :
    let started := sla launch0 []
    let fresh := sla { launch0 with started := false } []
    let staked := sla launch0 [{ cell := 0x20000, launch := 0, ancestry := [] }]
    (fresh.launch 0).accepted = true ∧ (fresh.launch 0).ended = false ∧ (fresh.launch 0).started = false ∧ (fresh.launch 0).gangFail = false ∧ (fresh.launch 0).after = []
    ∧ started.gangSettled (started.launch 0) = true ∧ started.quiet 0 false = true ∧ started.quiet 0 true = true ∧ started.stakesOf 0 = []
    ∧ staked.gangSettled (staked.launch 0) = true ∧ staked.quiet 0 false = true ∧ staked.stakesOf 0 ≠ []
    ∧ (staked.launch 0).held = false ∧ (∀ d ∈ diesOf (staked.launch 0).dies, staked.heldOn d < 64) := by decide +kernel

/-- The mailbox with a command and its arguments. -/
def smb (cmd : Word) (a : Vector Word 4) (f : HostIf → HostIf) : State := { s0 with host := f { s0.host with mailbox := { cmd := cmd, arg := a, busy := true } } }

/-- An image of one bundle, a done; one of no instruction. -/
def sce (w : Nat) : State := { smb 1 #v[0x10000, 16, 0x8000, 1] id with mem := memWrite [] 0x10000 4 w }

theorem witness_certify : Asked (sce (encode .done).1) 1 [0x10000, 16, 0x8000, 1] ∧ (sce (encode .done).1).certFault 0x10000 16 [0] 16384 = none
    ∧ (sce (encode .done).1).host.freeStamp = some 0 ∧ ((sce 0xD0000000).certFault 0x10000 16 [0] 16384).isSome = true := by
  unfold Asked; decide +kernel

theorem witness_unstamp : Asked (smb 2 #v[0, 0, 0, 0] id) 2 [0]
    ∧ (smGet {} (smb 2 #v[0, 0, 0, 0] id).host.stamps 0 : Stamp).valid = false
    ∧ (smGet {} (smb 2 #v[0, 0, 0, 0] fun h => { h with stamps := [(0, { valid := true })] }).host.stamps 0 : Stamp).valid = true
    ∧ ({ srec 0 with launches := [] } : State).stampCount 0 = 0 := by
  unfold Asked; decide +kernel

theorem witness_retire : Asked (smb 3 #v[0, 0, 0, 0] id) 3 [0, 0] ∧ (s0.die 0).contained = false ∧ (smb 3 #v[0, 0, 0, 0] id).launchNamed 0 0 = some 0
    ∧ (smb 3 #v[0, 5, 0, 0] id).launchNamed 0 5 = none := by
  unfold Asked; decide +kernel

/-- The command UNSTAKE for a cell with this tag, in a launch whose first segment is claim-enabled. -/
def sun (g : Tag) : State :=
  { smb 4 #v[0x20000, 0, 0, 0] id with
    launches := [(0, { launch0 with segs := [{ valid := true, claim := true, pinned := true, len64k := 1, base := 0x20000 }] })]
    tags := [(0x20000, g)] }

theorem witness_unstake : Asked (sun .failed) 4 [0x20000] ∧ (sun .failed).inClaimSeg 0x20000 = true ∧ (sun .failed).tag 0x20000 = .failed
    ∧ lineOf (globalOf ((sun .failed).modId 0) 0x20000) = 0x20000 ∧ Asked (sun .working) 4 [0x20000] ∧ (sun .working).tag 0x20000 = .working
    ∧ Asked (smb 4 #v[0x20000, 0, 0, 0] id) 4 [0x20000] ∧ (smb 4 #v[0x20000, 0, 0, 0] id).inClaimSeg 0x20000 = false := by
  unfold Asked; decide +kernel

theorem witness_identity : Asked (smb 5 #v[64, 0, 0, 0] id) 5 [64, 0] ∧ Asked (smb 6 #v[0, 0xFFFFFFFFFFFFFFFF, 0, 0] id) 6 [0, 0xFFFFFFFFFFFFFFFF]
    ∧ Asked (smb 7 #v[0x10000, 16, 0, 0] id) 7 [0x10000, 16] ∧ s0.poisoned 0x10000 16 = false := by
  unfold Asked; decide +kernel

/-! ### Witnesses: resets, links, failures -/

theorem witness_boot : (State.reset.die 7).booted = false ∧ State.reset.bootLocked = false ∧ State.reset.moduleDown = false := by decide

theorem witness_links : (s0.link 1).retraining = false ∧ (s0.link 1).down = false ∧ 16 ≤ ({ fails := 16 } : Link).fails
    ∧ (({ retrains := [0, 0] } : Link).retrains.filter fun x => decide (s0.time (linkEnds 1).1 < x + 1000000000)).length = 2
    ∧ isHbm (lineOf 0x20000) = true ∧ paModule (lineOf 0x20000) = s0.modId (paDie (lineOf 0x20000)) ∧ lineOf 0x20000 ∉ s0.dirty
    ∧ lineOf 0x20000 ∉ s0.poison := by decide +kernel

/-- A task after a warm reset, and a die whose power is over its cap. -/
theorem witness_power : smFind s0.tasks 0 = some (s0.task 0) ∧ (s0.die 0).powerCap < 540001 ∧ (500 : Nat) < 680 ∧ (700 : Nat) < 760 := by decide +kernel

theorem witness_containment : (0, launch0) ∈ s0.launches ∧ launch0.alive = true ∧ (∃ u ∈ s0.tasks, u.2.launch = 0 ∧ u.2.die = 0) := by decide +kernel

/-! ### Witnesses: gangs -/

def member0 : Member := { mod := 0, die := 0 }
def member1 : Member := { mod := 5, die := 0 }
def gang0 : Gang := { launch := 0, desc := 0x20000, leadMod := 0, leadDie := 0, t := 100, w := 100, guard := 1000, digest := 0, members := [member0, member1] }

/-- The state with one gang, led here or by another module, in which die 0 has this phase. -/
def sg (p : GPhase) (f : Gang → Gang) : State :=
  { st id (fun l => { l with gang := some 0 }) id with gangs := [f { gang0 with phases := [(0, p)] }], dies := [(0, { time := 150 })] }
def away (x : Gang) : Gang := { x with leadMod := 9 }

theorem witness_gang_ready : (sg .ready id).gangs[0]? = some { gang0 with phases := [(0, .ready)] } ∧ Hears (sg .ready id) gang0 ∧ member0.readyIn = false
    ∧ (sg .ready id).upWaits gang0 0 0 = false ∧ (sg .ready id).downWaits gang0 0 = false
    ∧ (sg .ready id).upWaits gang0 5 0 = false ∧ (sg .ready away).downWaits (away gang0) 0 = false
    ∧ ({ gang0 with phases := [(0, .ready)] } : Gang).phase 0 = .ready ∧ (sg .ready id).isLocal member0 = true ∧ (sg .ready id).isLocal member1 = false
    ∧ (sg .ready away).leads (away gang0) = false ∧ ({ gang0 with armSent := true } : Gang).armSent = true := by
  unfold Hears; decide +kernel

theorem witness_gang_reserved : ({ gang0 with phases := [(0, .reserving)] } : Gang).phase 0 = .reserving ∧ (sg .reserving id).reservable gang0 0 = true
    ∧ (sg .reserving id).upWaits gang0 0 0 = false ∧ (sg .acked id).time gang0.leadDie + gang0.guard < ({ gang0 with t := 5000 } : Gang).t
    ∧ gang0.t ≤ (sg .acked id).time gang0.leadDie + gang0.guard ∧ gang0.commitSent = false
    ∧ gang0.members.find? (fun m => !(m.readyIn && m.ackIn)) = some member0 ∧ member0.mod < 2 ^ 10 ∧ member0.die < 8 := by
  decide +kernel

theorem witness_gang_start :
    let s : State := { sg .committed id with tasks := [(0, { task0 with status := .admitted })] }
    ({ gang0 with phases := [(0, .committed)] } : Gang).phase 0 = .committed ∧ s.reserved_ gang0 0 = true ∧ gang0.t ≤ s.time 0
    ∧ s.upWaits gang0 0 0 = false ∧ s.downWaits gang0 0 = false ∧ s.gangBehind gang0 0 = false ∧ gang0.mailLate 0 .started = false
    ∧ s.time 0 ≤ gang0.t + gang0.w ∧ ({ gang0 with t := 40 } : Gang).t + 100 < s.time 0
    ∧ ({ gang0 with commitSent := true, phases := [(0, .started)] } : Gang).phase member0.die = .started
    ∧ 0 ∉ ({ gang0 with phases := [(0, .started)] } : Gang).dropped ∧ s.isLocal member0 = true := by decide +kernel

theorem witness_gang_abort : (1, 0, 5) ∈ ({ gang0 with requests := [(1, 0, 5)] } : Gang).requests ∧ gang0.round = none ∧ member0.frozen = none
    ∧ (sg .started id).upWaits gang0 0 0 = false ∧ (sg .started id).upWaits gang0 5 0 = false ∧ (sg .started id).downWaits gang0 0 = false
    ∧ (sg .started id).gangBehind gang0 0 = false ∧ (sg .started away).gangBehind (away gang0) 0 = false
    ∧ (sg .started away).upWaits (away gang0) 0 0 = false ∧ (sg .started away).downWaits (away gang0) 0 = false
    ∧ gang0.unheard 0 = false ∧ gang0.mailLate 0 (.request 1 0 5) = false
    ∧ ({ gang0 with round := some (1, 0, 5) } : Gang).round ≠ none ∧ member1.reply = none
    ∧ (0, (sg .started away).task 0) ∈ (sg .started away).tasks ∧ ((sg .started away).task 0).status ≠ .ended := by decide +kernel

/-! ### Witnesses: the machine -/

/-- Reset with a word where the next step fetches. -/
def sfw (w : Nat) : State := State.reset.withFetchWord 32 w

theorem witness_step :
    let u : State := { sfw 0x12010278 with agenda := [] }
    let p := u.present 0 0 0
    let b := decodeBundle p.fetchBundle
    (sfw 0x12010278).agenda = [.bundle 0 0] ∧ (sfw 0x12010278).poweredOff = false ∧ AboutToIssue u 0 0 0 ∧ p.pastImage = false
      ∧ p.poisoned (p.myLaunch.codeBase + p.iss.pc) 16 = false ∧ b.lateHeader = none ∧ b.badHeader = none
      ∧ (b.slots.map fun x => x.instr.toOption) = [some (.movi 1 0x278)] ∧ (commits p.iss.snap.rdH (.movi 1 0x278) || b.ckpt || b.yieldPt) = false := by
  unfold AboutToIssue; decide +kernel

/-- The same bundle passes the checks of R198, and its operations run. -/
theorem witness_bundle_runs :
    let u : State := { sfw 0x12010278 with agenda := [] }
    let p := u.present 0 0 0
    let b := decodeBundle p.fetchBundle
    let l := b.slots.flatMap (expandSlot p.iss.snapCwt)
    let r := opened u 0 0 0 (goodOps l) false
    checkBundle b l (decide ((u.task 0).rowCount ≠ 0)) (u.task 0).latches = none ∧ (runOps r (goodOps l) r none).toOption.isSome = true := by
  decide +kernel

/-- R216 by way of the fetch: S1 is 0x278 after the step, and the next bundle stands at 16. -/
theorem test_step : (match step (sfw 0x12010278) with
    | .next t => ((t.task 0).live.rdS 1, (t.task 0).live.pc)
    | .fault _ | .refused _ => (0, 0)) = (0x278, 16) := by decide +kernel

theorem witness_faults : ({ State.reset with poweredOff := true } : State).poweredOff = true ∧ isEvent .nop = false ∧ isEvent .warmReset = true := by decide

/-- R342: an illegal word goes to the handler at bundle 2, with its code in S24 and its pc in S25; without a handler the task ends. -/
theorem test_trap : (match step (let s := sfw 0xD0000000
      { s with launches := [(0, { fetchLaunch State.reset with handler := some 32 })] }) with
    | .next t => ((t.task 0).live.pc, (t.task 0).live.hnd, (t.task 0).live.rdS 24, (t.task 0).live.rdS 25, (t.task 0).live.rdS 28)
    | .fault _ | .refused _ => (0, false, 0, 0, 0)) = (32, true, 1, 0, 0xD0000000) := by decide +kernel

theorem witness_trap_entry : (st id (fun l => { l with handler := some 32 }) id).myLaunch.handler = some 32 ∧ s0.myLaunch.handler = none
    ∧ (1 : Nat) < 2 ^ 8 ∧ (0x14 : Nat) < 2 ^ 8 ∧ (sr fun r => { r with hnd := true }).me.live.hnd = true := by decide

/-- R196, R197: two adds exceed port S; two vector operations to one row write it twice; a NW form does not. -/
theorem test_limits :
    let a : Instr := .add { d := 1, a := .reg 0, b := .reg 0, nw := false, g := 0 }
    let v := fun (nw : Bool) => Instr.vand { t := .n32, d := 2, a := .reg 0, b := .reg 1, m := 0, nw := nw }
    let op := fun (k : Nat) (i : Instr) => ({ slot := k, half := 0, word := 0, instr := i } : Op)
    (checkPorts [] [op 0 a, op 1 a]).isSome = true ∧ (checkPorts [] [op 0 (v false), op 1 (v false)]).isSome = true
      ∧ checkPorts [] [op 0 (v false), op 1 (v true), op 2 a] = none := by decide

theorem witness_bundle : (decodeBundle (bundleOf 1 .nop)).lateHeader = none ∧ (decodeBundle (bundleOf 1 .nop)).badHeader = none
    ∧ checkIllegal true ((decodeBundle (bundleOf 1 .nop)).slots.flatMap (expandSlot [])) = none := by decide +kernel

theorem witness_memory : s0.memWf = true ∧ (∃ t, step (sfw 0x12010278) = .next t) ∧ (sfw 0x12010278).memWf = true := ⟨by decide, ⟨_, rfl⟩, by decide +kernel⟩

/-- R196, R197: bundles that meet each clause: two adds in slots 1 and 2; one add; an add and a vector operation with NW = 1. -/
theorem witness_limits :
    let a : Instr := .add { d := 1, a := .reg 0, b := .reg 0, nw := false, g := 0 }
    let n : Instr := .add { d := 1, a := .reg 0, b := .reg 0, nw := true, g := 0 }
    let v : Instr := .vand { t := .n32, d := 2, a := .reg 0, b := .reg 1, m := 0, nw := true }
    let b := decodeBundle ((encode a).1 * 2 ^ 32 + (encode a).1 * 2 ^ 64)
    (b.lateHeader = none ∧ b.badHeader = none ∧ checkIllegal true (b.slots.flatMap (expandSlot [])) = none ∧ uses .s (opsOf [] b) = 2)
      ∧ uses .s (opsOf [] (decodeBundle (bundleOf 1 a))) = 1
      ∧ (classOf n = 0 ∧ (encode n).1 / 2 ^ 3 % 2 = 1 ∧ destOf n = none)
      ∧ (classOf v = 6 ∧ (encode v).2 / 2 ^ 3 % 2 = 1 ∧ destOf v = none) := by decide +kernel

/-- R177: the header 0xFC00_00DD marks a checkpoint and a yield point and lends 0xDD to slot 1; a class-0xF word in slot 2, and a header with a reserved bit. -/
theorem test_header :
    let b := decodeBundle (0x1241079B * 2 ^ 32 + 0xFC0000DD)
    let late := decodeBundle (0xF0000000 * 2 ^ 64)
    let bad := decodeBundle 0xF1000000
    (b.ckpt = true ∧ b.yieldPt = true ∧ b.slots.map (·.lend) = [0xDD]) ∧ (decodeBundle (0x1241079B * 2 ^ 32)).slots.map (·.lend) = [0]
      ∧ (checkBundle late (late.slots.flatMap (expandSlot [])) true {}).map (·.record.code) = some 2
      ∧ (checkBundle bad (bad.slots.flatMap (expandSlot [])) true {}).map (·.record.code) = some 1 := by decide +kernel

/-- A bundle with `done` in slot 1 under a header, with CKPT and without. -/
theorem witness_header :
    let w := (encode .done).1 * 2 ^ 32 + 0xF8000000
    let v := (encode .done).1 * 2 ^ 32 + 0xF0000000
    slotClass w 0 = 15 ∧ w / 2 ^ 24 % 4 = 0 ∧ w % 2 ^ 27 = v % 2 ^ 27 ∧ w / 2 ^ 28 = v / 2 ^ 28
      ∧ ((opsOf s0.iss.snapCwt (decodeBundle w)).any fun o => commits s0.iss.snap.rdH o.instr) = true
      ∧ slotClass (0xF0000000 * 2 ^ 64) 2 = 15 ∧ slotClass 0xF1000000 0 = 15 ∧ 0xF1000000 / 2 ^ 24 % 4 ≠ 0
      ∧ slotClass (0x1241079B * 2 ^ 32) 0 ≠ 15 := by decide +kernel

end Sys2Proof.Tests
end

section
/-! SUPPORT. Every step keeps both memories canonical (R7, R25): what the shared operations, the effects of instructions and the events do
to State.memWf, each said once. An operation that writes no memory leaves memWf as it is, an equation; one that writes keeps it. The
lemmas are a simp set, with which a proof walks from the last operation of a definition to the first. -/

set_option Elab.async false

namespace Sys2Proof.Machine

/-! ### What a computation answers -/

/-- Every value that a computation answers has the property p; a trap, a wait or a park answers none. -/
def Answers {ε α : Type} (p : α → Prop) (x : Except ε α) : Prop := ∀ a, x = .ok a → p a

@[simp] theorem answers_ok {ε α : Type} (p : α → Prop) (a : α) : Answers p (.ok a : Except ε α) ↔ p a := by
  simp [Answers]

@[simp] theorem answers_pure {ε α : Type} (p : α → Prop) (a : α) : Answers p (pure a : Except ε α) ↔ p a := answers_ok p a

@[simp] theorem answers_error {ε α : Type} (p : α → Prop) (e : ε) : Answers p (.error e : Except ε α) := by
  simp [Answers]

@[simp] theorem answers_true {ε α : Type} (x : Except ε α) : Answers (fun _ => True) x := fun _ _ => trivial

@[simp] theorem answers_bind {ε α β : Type} (p : β → Prop) (x : Except ε α) (f : α → Except ε β) :
    Answers p (x >>= f) ↔ Answers (fun a => Answers p (f a)) x := by
  cases x <;> simp [Answers, bind, Except.bind]

@[simp] theorem answers_ite {ε α : Type} (p : α → Prop) (c : Prop) [Decidable c] (x y : Except ε α) :
    Answers p (if c then x else y) ↔ if c then Answers p x else Answers p y := by
  split <;> rfl

theorem Answers.of_forall {ε α : Type} {p : α → Prop} {x : Except ε α} (h : ∀ a, p a) : Answers p x := fun a _ => h a

theorem Answers.imp {ε α : Type} {p q : α → Prop} {x : Except ε α} (hx : Answers p x) (h : ∀ a, p a → q a) : Answers q x :=
  fun a ha => h a (hx a ha)

theorem Answers.bind {ε α β : Type} {q : α → Prop} {p : β → Prop} {x : Except ε α} {f : α → Except ε β} (hx : Answers q x)
    (hf : ∀ a, q a → Answers p (f a)) : Answers p (x >>= f) :=
  (answers_bind p x f).2 (hx.imp hf)

/-- A property that every turn of a loop keeps holds of what the loop answers. -/
theorem answers_foldlM {ε α β : Type} {p : β → Prop} (f : β → α → Except ε β) (h : ∀ b a, p b → Answers p (f b a)) (l : List α)
    (b : β) (hb : p b) : Answers p (l.foldlM f b) := by
  induction l generalizing b with
  | nil => exact (answers_pure p b).2 hb
  | cons a l ih => exact (h b a hb).bind ih

section Stops

variable {α : Type} (p : α → Prop)

@[simp] theorem answers_raise (t : Trap) : Answers p (raise t : Except Stop α) := answers_error _ _
@[simp] theorem answers_raiseAt (t : Trap) (a : Nat) (w : Bool) : Answers p (raiseAt t a w : Except Stop α) := answers_error _ _
@[simp] theorem answers_raiseInfo (t : Trap) (a b : Nat) : Answers p (raiseInfo t a b : Except Stop α) := answers_error _ _
@[simp] theorem answers_waits (c : Stall) (sd : Side) : Answers p (waits c sd : Except Stop α) := answers_error _ _
@[simp] theorem answers_waitsOn (sd : Side) (w : Why) : Answers p (waitsOn sd w : Except Stop α) := answers_error _ _
@[simp] theorem answers_parkRefill (s : State) (h : Handle) (reg acc : Nat) (w : Bool) :
    Answers p (s.parkRefill h reg acc w : Except Stop α) := answers_error _ _
@[simp] theorem answers_claimRaise (t : Trap) (a : Nat) : Answers p (claimRaise t a : Except Stop α) := answers_error _ _
@[simp] theorem answers_crewTrap (n : Nat) : Answers p (crewTrap n : Except Stop α) := answers_error _ _
@[simp] theorem answers_cbTrap (b : CB) (n : Nat) : Answers p (cbTrap b n : Except Stop α) := answers_error _ _
@[simp] theorem answers_rqTrap (q : Nat) : Answers p (rqTrap q : Except Stop α) := answers_error _ _
@[simp] theorem answers_seamTrap (s : State) : Answers p (s.seamTrap : Except Stop α) := answers_error _ _

end Stops

/-- What a computation ends with has the property p where it stops, and q where it answers. -/
def Ends {ε α : Type} (p : ε → Prop) (q : α → Prop) : Except ε α → Prop
  | .error e => p e
  | .ok a => q a

/-- The next state, where an outcome is one, has both memories canonical. -/
def NextWf (r : Host.Outcome State Fault Refusal) : Prop := ∀ t, r = .next t → t.memWf = true

@[simp] theorem nextWf_next (t : State) : NextWf (.next t) ↔ t.memWf = true := by simp [NextWf]
@[simp] theorem nextWf_fault (f : Fault) : NextWf (.fault f) := by simp [NextWf]
@[simp] theorem nextWf_refused (x : Refusal) : NextWf (.refused x) := by simp [NextWf]

/-! ### Record updates, writes, branches and loops -/

theorem memWf_iff (s : State) : s.memWf = true ↔ Mem.wf s.mem = true ∧ Mem.wf s.host.mem = true :=
  Bool.and_eq_true _ _ ▸ Iff.rfl

/-- The canonical form looks at two fields of a state. With memWf_fold, an update of other fields leaves it as it is. -/
@[simp] theorem memWf_mk : (State.mk agenda clock elapsed tasks launches cores dies mem poison tags dirty nodes badFrames saved stores
    loads atomics updates famoWait famoSent claimReqs walks migrations cmds issued sent foldMsgs foldRounds heldChunks host log links gangs
    bootLocked moduleDown poweredOff flashImage firmware freeCount iss).memWf = (Mem.wf mem && Mem.wf (HostIf.mem host)) := rfl

@[simp] theorem memWf_fold (s : State) : (Mem.wf s.mem && Mem.wf s.host.mem) = s.memWf := rfl

/-- A state whose device memory is written, and whose host memory is not. -/
theorem memWf_memWrite (s t : State) {a n v : Nat} (hm : t.mem = memWrite s.mem a n v) (hh : t.host.mem = s.host.mem)
    (hw : s.memWf = true) : t.memWf = true := by
  obtain ⟨hd, ho⟩ := (memWf_iff s).1 hw
  exact (memWf_iff t).2 ⟨hm ▸ wf_memWrite _ _ _ _ hd, hh ▸ ho⟩

/-- A state whose host memory is written, and whose device memory is not. -/
theorem memWf_hostWrite (s t : State) {a n v : Nat} (hm : t.mem = s.mem) (hh : t.host.mem = memWrite s.host.mem a n v)
    (hw : s.memWf = true) : t.memWf = true := by
  obtain ⟨hd, ho⟩ := (memWf_iff s).1 hw
  exact (memWf_iff t).2 ⟨hm ▸ hd, hh ▸ wf_memWrite _ _ _ _ ho⟩

@[simp] theorem memWf_ite (c : Prop) [Decidable c] (s t : State) : (if c then s else t).memWf = if c then s.memWf else t.memWf := by
  split <;> rfl

@[simp] theorem memWf_foldl {α : Type} (f : State → α → State) (h : ∀ s a, (f s a).memWf = s.memWf) (l : List α) (s : State) :
    (l.foldl f s).memWf = s.memWf := by
  induction l generalizing s with
  | nil => rfl
  | cons a l ih => rw [List.foldl_cons, ih, h]

theorem memWf_foldl_of {α : Type} (f : State → α → State) (h : ∀ s a, s.memWf = true → (f s a).memWf = true) (l : List α)
    (s : State) (hw : s.memWf = true) : (l.foldl f s).memWf = true := by
  induction l generalizing s with
  | nil => exact hw
  | cons a l ih => exact ih _ (h s a hw)

theorem memWf_getD (o : Option State) (s : State) (h : ∀ t ∈ o, t.memWf = s.memWf) : (o.getD s).memWf = s.memWf := by
  cases o with
  | none => rfl
  | some t => exact h t rfl

theorem memWf_getD_of {o : Option State} {s : State} (hw : s.memWf = true) (h : ∀ t ∈ o, t.memWf = true) : (o.getD s).memWf = true := by
  cases o with
  | none => exact hw
  | some t => exact h t rfl

theorem memWf_of_fst {α : Type} {p : State × α} {t : State} {a : α} (h : p = (t, a)) (hp : p.1.memWf = true) : t.memWf = true := by
  rw [h] at hp
  exact hp

/-! ### Operations on the state -/

@[simp] theorem memWf_setTask (s : State) (i : Nat) (t : Machine.Task) : (s.setTask i t).memWf = s.memWf := by
  simp [State.setTask]

@[simp] theorem memWf_modTask (s : State) (i : Nat) (f : Machine.Task → Machine.Task) : (s.modTask i f).memWf = s.memWf := by
  simp [State.modTask]

@[simp] theorem memWf_setCore (s : State) (d c : Nat) (x : Core) : (s.setCore d c x).memWf = s.memWf := by
  simp [State.setCore]

@[simp] theorem memWf_modCore (s : State) (d c : Nat) (f : Core → Core) : (s.modCore d c f).memWf = s.memWf := by
  simp [State.modCore]

@[simp] theorem memWf_setDie (s : State) (d : Nat) (x : Die) : (s.setDie d x).memWf = s.memWf := by
  simp [State.setDie]

@[simp] theorem memWf_modDie (s : State) (d : Nat) (f : Die → Die) : (s.modDie d f).memWf = s.memWf := by
  simp [State.modDie]

@[simp] theorem memWf_setLaunch (s : State) (n : Nat) (x : Launch) : (s.setLaunch n x).memWf = s.memWf := by
  simp [State.setLaunch]

@[simp] theorem memWf_modLaunch (s : State) (n : Nat) (f : Launch → Launch) : (s.modLaunch n f).memWf = s.memWf := by
  simp [State.modLaunch]

@[simp] theorem memWf_modMe (s : State) (f : Machine.Task → Machine.Task) : (s.modMe f).memWf = s.memWf := by
  simp [State.modMe]

@[simp] theorem memWf_modLive (s : State) (f : Regs → Regs) : (s.modLive f).memWf = s.memWf := by
  simp [State.modLive]

@[simp] theorem memWf_modMyCore (s : State) (f : Core → Core) : (s.modMyCore f).memWf = s.memWf := by
  simp [State.modMyCore]

@[simp] theorem memWf_setTag (s : State) (pa : Nat) (t : Tag) : (s.setTag pa t).memWf = s.memWf := by
  simp [State.setTag]

@[simp] theorem memWf_putBytes (s : State) (pa n v : Nat) (hw : s.memWf = true) : (s.putBytes pa n v).memWf = true :=
  memWf_memWrite s _ rfl rfl hw

@[simp] theorem memWf_putOutside (s : State) (pa n v : Nat) (hw : s.memWf = true) : (s.putOutside pa n v).memWf = true := by
  simp [State.putOutside, hw]

@[simp] theorem memWf_dropCarve (s : State) (d c : Nat) : (s.dropCarve d c).memWf = s.memWf := by
  simp [State.dropCarve]

@[simp] theorem memWf_dropRdc (s : State) (d : Nat) : (s.dropRdc d).memWf = s.memWf := by
  simp [State.dropRdc]

@[simp] theorem memWf_acquire (s : State) (sc : Scope) (d c : Nat) : (s.acquire sc d c).memWf = s.memWf := by
  unfold State.acquire
  split <;> simp

@[simp] theorem memWf_storeLeaves (s : State) (st : Store) : (s.storeLeaves st).memWf = s.memWf := by
  simp [State.storeLeaves]

@[simp] theorem memWf_commit (s : State) (i : Nat) : (s.commit i).memWf = s.memWf := by
  simp [State.commit]

@[simp] theorem memWf_rollback (s : State) (i : Nat) (hw : s.memWf = true) : (s.rollback i).memWf = true := by
  simp only [State.rollback, memWf_modTask, memWf_modCore, memWf_mk, memWf_fold]
  refine memWf_foldl_of _ (fun s e h => ?_) _ _ hw
  exact memWf_memWrite s _ rfl rfl h

@[simp] theorem memWf_endTask (s : State) (i status : Nat) (isFatal : Bool) : (s.endTask i status isFatal).memWf = s.memWf := by
  simp [State.endTask]

@[simp] theorem memWf_takeTrap (s : State) (i : Nat) (r : TrapRec) (slot half fpc : Nat) (hw : s.memWf = true) :
    (s.takeTrap i r slot half fpc).memWf = true := by
  simp only [State.takeTrap]
  split <;> simp [hw]

@[simp] theorem memWf_resumeFrom (s : State) (i : Nat) (keep : Bool) (target : Nat) : (s.resumeFrom i keep target).memWf = s.memWf := by
  simp [State.resumeFrom]

@[simp] theorem memWf_closePart (s : State) (i : Nat) : (s.closePart i).memWf = s.memWf := by
  simp [State.closePart]

@[simp] theorem memWf_modCrew (s : State) (l n : Nat) (f : Crew → Crew) : (s.modCrew l n f).memWf = s.memWf := by
  simp [State.modCrew]

@[simp] theorem memWf_applySide (s : State) (sd : Side) : (s.applySide sd).memWf = s.memWf := by
  unfold State.applySide
  split <;> simp

@[simp] theorem memWf_noteWait (s : State) : s.noteWait.memWf = s.memWf := by
  simp [State.noteWait]

@[simp] theorem memWf_stall (s : State) (w : Why) : (s.stall w).memWf = s.memWf := by
  simp [State.stall]

@[simp] theorem memWf_park (s : State) (i : Nat) (w : Why) (hw : s.memWf = true) : (s.park i w).memWf = true := by
  simp [State.park, hw]

/-- An instruction whose effect, if it has one, keeps the canonical form keeps it also when it traps, waits or parks. -/
theorem nextWf_resolve (s : State) (a : Act) (hw : s.memWf = true) (ha : Answers (·.memWf = true) a) : NextWf (resolve s a) := by
  unfold resolve
  split
  next t => simpa using ha
  all_goals simp [hw]

/-! ### Operands and window rows -/

@[simp] theorem memWf_putS (s : State) (d : Fin 32) (v : Word) : (s.putS d v).memWf = s.memWf := by
  simp [State.putS]

@[simp] theorem memWf_putLs (s : State) (v : Word) : (s.putLs v).memWf = s.memWf := by
  simp [State.putLs]

@[simp] theorem memWf_resS (s : State) (d : Fin 32) (v : Word) (nw : Bool) : (s.resS d v nw).memWf = s.memWf := by
  simp [State.resS]

@[simp] theorem memWf_resM (s : State) (a : Fin 32) (v : Word) : (s.resM a v).memWf = s.memWf := by
  simp [State.resM]

@[simp] theorem memWf_putLc (s : State) (v : Word) : (s.putLc v).memWf = s.memWf := by
  simp [State.putLc]

@[simp] theorem memWf_resC (s : State) (a : Fin 32) (v : Word) : (s.resC a v).memWf = s.memWf := by
  simp [State.resC]

@[simp] theorem memWf_putLv (s : State) (v : Row) : (s.putLv v).memWf = s.memWf := by
  simp [State.putLv]

@[simp] theorem memWf_keepRow (s : State) (n : Nat) : (s.keepRow n).memWf = s.memWf := by
  simp [State.keepRow]

@[simp] theorem memWf_putRowBytes (s : State) (r n : Nat) (v : Row) (hw : s.memWf = true) : (s.putRowBytes r n v).memWf = true := by
  simp [State.putRowBytes, hw]

@[simp] theorem memWf_putRow (s : State) (r : Nat) (v : Row) (hw : s.memWf = true) : (s.putRow r v).memWf = true := by
  simp [State.putRow, hw]

@[simp] theorem memWf_resV (s : State) (d : Fin 32) (v : Row) (nw : Bool) (hw : s.memWf = true) : (s.resV d v nw).memWf = true := by
  simp [State.resV, hw]

@[simp] theorem memWf_resMask (s : State) (d : Fin 8) (v : Mask) (nw : Bool) : (s.resMask d v nw).memWf = s.memWf := by
  simp [State.resMask]

@[simp] theorem memWf_resVS (s : State) (d : Fin 32) (v : Word) (nw : Bool) : (s.resVS d v nw).memWf = s.memWf := by
  simp [State.resVS]

/-! ### Flags -/

@[simp] theorem memWf_resP (s : State) (p : Fin 8) (b nw : Bool) : (s.resP p b nw).memWf = s.memWf := by
  simp [State.resP]

/-! ### Scalar instructions -/

@[simp] theorem memWf_sr2 (o : SrOp) (f : Word → Word → Word) (s : State) (hw : s.memWf = true) : Answers (·.memWf = true) (sr2 o f s) := by
  simp [sr2, hw]

@[simp] theorem memWf_sr1 (o : SrOne) (f : Word → Word) (s : State) (hw : s.memWf = true) : Answers (·.memWf = true) (sr1 o f s) := by
  simp [sr1, hw]

@[simp] theorem memWf_si1 (o : SiOp) (f : Word → Word → Word) (s : State) (hw : s.memWf = true) : Answers (·.memWf = true) (si1 o f s) := by
  simp [si1, hw]

@[simp] theorem memWf_siShift (d : Fin 32) (a : SSrc) (n : Fin 64) (f : Word → Nat → Word) (s : State) (hw : s.memWf = true) :
    Answers (·.memWf = true) (siShift d a n f s) := by
  simp [siShift, hw]

@[simp] theorem memWf_divOp (o : SrOp) (signed rem : Bool) (s : State) (hw : s.memWf = true) :
    Answers (·.memWf = true) (divOp o signed rem s) := by
  simp [divOp, hw]

@[simp] theorem memWf_actCmp (c : SCond) (p : Fin 8) (a b : SSrc) (nw : Bool) (g : Fin 8) (s : State) (hw : s.memWf = true) :
    Answers (·.memWf = true) (actCmp c p a b nw g s) := by
  simp [actCmp, hw]

@[simp] theorem memWf_actBfi (o : SrOp) (e : SSrc) (s : State) (hw : s.memWf = true) : Answers (·.memWf = true) (actBfi o e s) := by
  simp [actBfi, hw]

@[simp] theorem memWf_actCmpi (c : SCond) (p : Fin 8) (a : SSrc) (imm : BitVec 18) (s : State) (hw : s.memWf = true) :
    Answers (·.memWf = true) (actCmpi c p a imm s) := by
  simp [actCmpi, hw]

@[simp] theorem memWf_actMovhi (o : SiOp) (s : State) (hw : s.memWf = true) : Answers (·.memWf = true) (actMovhi o s) := by
  simp [actMovhi, hw]

@[simp] theorem memWf_actVaddr (d : Fin 32) (a : SSrc) (g : Fin 64) (s : State) (hw : s.memWf = true) :
    Answers (·.memWf = true) (actVaddr d a g s) := by
  simp [actVaddr, hw]

@[simp] theorem nextWf_execDivideComplete (d c : Nat) (s : State) (hw : s.memWf = true) : NextWf (execDivideComplete d c s) := by
  unfold execDivideComplete
  split <;> simp [hw]

/-! ### Tasks, crews and claims -/

@[simp] theorem memWf_relevel (s : State) (e : ClaimEntry) : (s.relevel e).memWf = s.memWf := by
  simp [State.relevel]

@[simp] theorem memWf_freeClaim (s : State) (cell : Nat) : (s.freeClaim cell).memWf = s.memWf := by
  unfold State.freeClaim
  split <;> simp

@[simp] theorem memWf_pendTrap (s : State) (i : Nat) (r : TrapRec) : (s.pendTrap i r).memWf = s.memWf := by
  simp [State.pendTrap]

@[simp] theorem memWf_failClaim (s : State) (cell : Nat) : (s.failClaim cell).memWf = s.memWf := by
  simp [State.failClaim]

@[simp] theorem memWf_stopAtYield (s : State) (i : Nat) : (s.stopAtYield i).memWf = s.memWf := by
  simp [State.stopAtYield]

@[simp] theorem memWf_fillTable (s : State) (d n : Nat) : (s.fillTable d n).memWf = s.memWf := by
  induction n generalizing s with
  | zero => rfl
  | succ n ih =>
    unfold State.fillTable
    (repeat' split) <;> simp [ih]

@[simp] theorem memWf_addTask (s : State) (t : Machine.Task) : (s.addTask t).memWf = s.memWf := by
  simp [State.addTask]

@[simp] theorem memWf_dropVersions (s : State) (n : Nat) : (s.dropVersions n).memWf = s.memWf := by
  simp [State.dropVersions]

@[simp] theorem memWf_finishTask (s : State) (i : Nat) (status : Option (Nat × Bool)) : (s.finishTask i status).memWf = s.memWf := by
  simp only [State.finishTask]
  (repeat' split) <;> simp

/-! ### Accesses to memory -/

@[simp] theorem memWf_clearTags (s : State) (pa n : Nat) : (s.clearTags pa n).memWf = s.memWf := by
  simp [State.clearTags]

@[simp] theorem memWf_performStore (s : State) (x : Store) (hw : s.memWf = true) : (s.performStore x).memWf = true := by
  simp [State.performStore, hw]

@[simp] theorem memWf_fetchLine (s : State) (d c line : Nat) (hint : Hint) (cache : Bool) (v : Nat) :
    (s.fetchLine d c line hint cache v).memWf = s.memWf := by
  simp [State.fetchLine]

@[simp] theorem memWf_fetch (s : State) (d c pa n : Nat) (hint : Hint) (cache : Bool) :
    (s.fetch d c pa n hint cache).1.memWf = s.memWf := by
  simp [State.fetch, -Nat.reducePow]

@[simp] theorem memWf_loadPlain (s : State) (h : Handle) (pa n : Nat) (hint : Hint) (va : Nat) (hw : s.memWf = true) :
    Answers (·.1.memWf = true) (s.loadPlain h pa n hint va) := by
  simp only [State.loadPlain]
  split
  · simp [hw]
  · split <;> simp [hw]

@[simp] theorem memWf_claimLoad (s : State) (pa n va : Nat) (hw : s.memWf = true) :
    Answers (·.1.memWf = true) (s.claimLoad pa n va) := by
  unfold State.claimLoad
  cases s.tag pa <;> simp [hw]

@[simp] theorem memWf_withhold (s : State) (pa n v : Nat) (hint : Hint) : (s.withhold pa n v hint).memWf = s.memWf := by
  simp [State.withhold]

@[simp] theorem memWf_putOwn (s : State) (pa n v : Nat) (hw : s.memWf = true) : (s.putOwn pa n v).memWf = true := by
  simp [State.putOwn, hw]

@[simp] theorem memWf_storeClaim (s : State) (pa n v va : Nat) (hw : s.memWf = true) :
    Answers (·.memWf = true) (s.storeClaim pa n v va) := by
  simp [State.storeClaim, hw]

@[simp] theorem memWf_dropOwnCopies (s : State) (d c pa : Nat) : (s.dropOwnCopies d c pa).memWf = s.memWf := by
  simp [State.dropOwnCopies]

/-! ### Loads, stores and handles -/

@[simp] theorem memWf_loadBytes (s : State) (h : Handle) (pa n va : Nat) (hint : Hint) (hw : s.memWf = true) :
    Answers (·.1.memWf = true) (s.loadBytes h pa n va hint) := by
  unfold State.loadBytes
  split
  · exact answers_foldlM _ (fun p k hp => by simp [hp]) _ _ hw
  · simp [hw]

@[simp] theorem memWf_storeBytes (s : State) (h : Handle) (pa n k va v : Nat) (hint : Hint) (hw : s.memWf = true) :
    Answers (·.memWf = true) (s.storeBytes h pa n k va v hint) := by
  unfold State.storeBytes
  split
  · exact answers_foldlM _ (fun s j h => memWf_storeClaim _ _ _ _ _ h) _ _ hw
  · simp [hw]

@[simp] theorem memWf_actLd (o : MmOp) (s : State) (hw : s.memWf = true) : Answers (·.memWf = true) (actLd o s) := by
  simp [actLd, hw]

@[simp] theorem memWf_actSt (o : MmOp) (s : State) (hw : s.memWf = true) : Answers (·.memWf = true) (actSt o s) := by
  simp [actSt, hw]

@[simp] theorem memWf_actLdv (o : MmOp) (s : State) (hw : s.memWf = true) : Answers (·.memWf = true) (actLdv o s) := by
  simp only [actLdv, answers_bind]
  refine .of_forall fun q => .of_forall fun a => ?_
  exact (memWf_loadBytes _ _ _ _ _ _ hw).imp fun p hp => by simp [hp]

@[simp] theorem memWf_actStv (o : MmOp) (s : State) (hw : s.memWf = true) : Answers (·.memWf = true) (actStv o s) := by
  simp [actStv, hw]

@[simp] theorem memWf_actXlat (ro : Bool) (d : Fin 32) (h : Fin 16) (x : Fin 8) (imm : BitVec 14) (s : State) (hw : s.memWf = true) :
    Answers (·.memWf = true) (actXlat ro d h x imm s) := by
  simp only [actXlat, answers_bind, answers_ok]
  refine .of_forall fun p => ?_
  split <;> simp [hw]

@[simp] theorem memWf_actHchk (sel : HchkSel) (d : Fin 32) (h : Fin 16) (s : State) (hw : s.memWf = true) :
    Answers (·.memWf = true) (actHchk sel d h s) := by
  simp [actHchk, hw]

@[simp] theorem memWf_actHmov (hd hs : Fin 16) (s : State) (hw : s.memWf = true) : Answers (·.memWf = true) (actHmov hd hs s) := by
  simp [actHmov, hw]

@[simp] theorem memWf_prefetchLine (s : State) (h : Handle) (va : Nat) (hint : Hint) : (s.prefetchLine h va hint).memWf = s.memWf := by
  simp [State.prefetchLine]

@[simp] theorem memWf_actPf (sz : Fin 4) (hint : Hint) (h : Fin 16) (x : Fin 8) (imm : BitVec 14) (s : State) (hw : s.memWf = true) :
    Answers (·.memWf = true) (actPf sz hint h x imm s) := by
  simp [actPf, hw]

@[simp] theorem memWf_actPhase (n : Fin 8) (s : State) (hw : s.memWf = true) : Answers (·.memWf = true) (actPhase n s) := by
  simp [actPhase, hw]

/-! ### Barriers, chunks and relay deliveries -/

@[simp] theorem memWf_landBytes (s : State) (pa n v : Nat) (claimSeg : Bool) (hw : s.memWf = true) :
    (s.landBytes pa n v claimSeg).memWf = true := by
  simp [State.landBytes, hw]

@[simp] theorem memWf_startWalk (s : State) (i : Nat) (h : Handle) : (s.startWalk i h).memWf = s.memWf := by
  simp [State.startWalk]

@[simp] theorem memWf_modRelay (s : State) (d c e : Nat) (f : Relay → Relay) : (s.modRelay d c e f).memWf = s.memWf := by
  simp [State.modRelay]

@[simp] theorem memWf_relayDone (s : State) (d c e : Nat) (st : Status) : (s.relayDone d c e st).memWf = s.memWf := by
  simp [State.relayDone]

@[simp] theorem memWf_relayLoad (s : State) (d c e : Nat) : (s.relayLoad d c e).memWf = s.memWf := by
  simp only [State.relayLoad]
  (repeat' split) <;> simp

@[simp] theorem memWf_relayFire (s : State) (d c e : Nat) : (s.relayFire d c e).memWf = s.memWf := by
  simp only [State.relayFire]
  (repeat' split) <;> simp

@[simp] theorem memWf_relayTest (s : State) (d c : Nat) : (s.relayTest d c).memWf = s.memWf := by
  simp [State.relayTest]

@[simp] theorem memWf_completeWait (s : State) (d c n : Nat) : (s.completeWait d c n).memWf = s.memWf := by
  unfold State.completeWait
  split <;> simp

@[simp] theorem memWf_cbChange (s : State) (d c n : Nat) (f : CB → CB) : (s.cbChange d c n f).memWf = s.memWf := by
  simp [State.cbChange]

@[simp] theorem memWf_countArrival (s : State) (d c n launch len : Nat) :
    (s.countArrival d c n launch len).1.memWf = s.memWf := by
  unfold State.countArrival
  split <;> simp

@[simp] theorem memWf_relayDelivered (s : State) (d c e : Nat) (st : Status) : (s.relayDelivered d c e st).memWf = s.memWf := by
  simp [State.relayDelivered]

@[simp] theorem memWf_dropHeld (s : State) (d c e : Nat) : (s.dropHeld d c e).memWf = s.memWf := by
  simp [State.dropHeld]

@[simp] theorem memWf_relayPart (s : State) (d c e pa n v : Nat) (first claim : Bool) (hw : s.memWf = true) :
    (s.relayPart d c e pa n v first claim).1.memWf = true := by
  simp only [State.relayPart]
  (repeat' split) <;> simp [hw]

@[simp] theorem memWf_relaySettle (s : State) (d c e : Nat) : (s.relaySettle d c e).memWf = s.memWf := by
  simp [State.relaySettle]

@[simp] theorem memWf_relayChunk (s : State) (d c e : Nat) (hw : s.memWf = true) : (s.relayChunk d c e).memWf = true := by
  simp only [State.relayChunk]
  split
  · simp [hw]
  · have part (pa n v : Nat) (first claim : Bool) (h : Handle) :=
      memWf_relayPart (s.modRelay d c e fun r => { r with hd := h }) d c e pa n v first claim (by simpa using hw)
    (repeat' split) <;> simp [hw]
    next hp => exact memWf_of_fst hp (part _ _ _ _ _ _)
    next hp => exact memWf_of_fst hp (part _ _ _ _ _ _)

@[simp] theorem memWf_landPart (s : State) (x : HeldChunk) (e : Nat) (hw : s.memWf = true) : (s.landPart x e).memWf = true := by
  simp only [State.landPart]
  split
  · simp [hw]
  · split
    next hp => simp [memWf_of_fst hp, hw]
    next hp => simp [memWf_of_fst hp, hw]

@[simp] theorem memWf_relayFold (s : State) (d c e : Nat) : (s.relayFold d c e).memWf = s.memWf := by
  simp only [State.relayFold]
  split <;> simp

/-! ### Transfers, loops, spawn and done -/

@[simp] theorem memWf_transfer (s : State) (target : Nat) (isCall : Bool) (hw : s.memWf = true) :
    Answers (·.memWf = true) (s.transfer target isCall) := by
  simp [State.transfer, hw]

@[simp] theorem memWf_branchIf (s : State) (c : Bool) (d : BitVec 24) (hw : s.memWf = true) :
    Answers (·.memWf = true) (s.branchIf c d) := by
  simp [State.branchIf, hw]

@[simp] theorem memWf_boundary (s : State) (n k : Nat) : (s.boundary n k).memWf = s.memWf := by
  induction n generalizing s k with
  | zero => rfl
  | succ n ih =>
    unfold State.boundary
    cases s.me.live.loops.drop k with
    | nil => rfl
    | cons lv ls => cases ls <;> simp [ih]

theorem memWf_boundaryAt (s : State) (last : Nat) : ∀ t ∈ s.boundaryAt last, t.memWf = s.memWf := by
  simp [State.boundaryAt]

@[simp] theorem memWf_leaveBody (s : State) (last : Nat) : (s.leaveBody last).memWf = s.memWf := by
  simp [State.leaveBody, memWf_getD _ _ (memWf_boundaryAt _ _)]

@[simp] theorem memWf_actBrz (a : SSrc) (d : BitVec 24) (s : State) (hw : s.memWf = true) : Answers (·.memWf = true) (actBrz a d s) := by
  simp [actBrz, hw]

@[simp] theorem memWf_actBrnz (a : SSrc) (d : BitVec 24) (s : State) (hw : s.memWf = true) : Answers (·.memWf = true) (actBrnz a d s) := by
  simp [actBrnz, hw]

@[simp] theorem memWf_actRet (a : SSrc) (s : State) (hw : s.memWf = true) : Answers (·.memWf = true) (actRet a s) := by
  simp [actRet, hw]

@[simp] theorem memWf_actJmpr (a : SSrc) (n : BitVec 24) (s : State) (hw : s.memWf = true) : Answers (·.memWf = true) (actJmpr a n s) := by
  simp [actJmpr, hw]

@[simp] theorem memWf_actLoop (a : SSrc) (pre : Bool) (stages : Fin 8) (len : Fin 4096) (s : State) (hw : s.memWf = true) :
    Answers (·.memWf = true) (actLoop a pre stages len s) := by
  simp [actLoop, hw]

@[simp] theorem memWf_actLbreak (p : Fin 8) (s : State) (hw : s.memWf = true) : Answers (·.memWf = true) (actLbreak p s) := by
  unfold actLbreak
  split <;> simp [hw]

@[simp] theorem memWf_actSpawn (a : Fin 32) (named : Bool) (core : Fin 16) (entry : Fin 256) (s : State) (hw : s.memWf = true) :
    Answers (·.memWf = true) (actSpawn a named core entry s) := by
  simp only [actSpawn]
  split <;> simp [hw]

@[simp] theorem memWf_actDone (s : State) (hw : s.memWf = true) : Answers (·.memWf = true) (actDone s) := by
  simp [actDone, hw]

/-! ### Atomics, claims, crews and epochs -/

@[simp] theorem memWf_performAtomic (s : State) (d c pa : Nat) (k : AtomKind) (hw : s.memWf = true) :
    (s.performAtomic d c pa k).1.memWf = true := by
  simp only [State.performAtomic]
  split <;> simp [hw]

@[simp] theorem memWf_atHome (s : State) (h : Handle) (pa va : Nat) (k : AtomKind) (hw : s.memWf = true) :
    Answers (·.1.memWf = true) (s.atHome h pa va k) := by
  simp [State.atHome, hw]

@[simp] theorem memWf_takeReply (s : State) : s.takeReply.memWf = s.memWf := by
  simp [State.takeReply]

@[simp] theorem memWf_atomicOp (k : AtomKind) (ord : Ord) (sc : Scope) (d : Fin 32) (m : SyAddr) (s : State) (hw : s.memWf = true) :
    Answers (·.memWf = true) (atomicOp k ord sc d m s) := by
  simp only [atomicOp]
  split <;> simp [hw]

@[simp] theorem memWf_actFamo (op : FamoOp) (ty : FamoTy) (sc : Scope) (m : SyAddr) (d : SSrc) (s : State) (hw : s.memWf = true) :
    Answers (·.memWf = true) (actFamo op ty sc m d s) := by
  simp only [actFamo]
  split <;> simp [hw]

@[simp] theorem memWf_actFence (mode : FenceMode) (sc : Scope) (s : State) (hw : s.memWf = true) :
    Answers (·.memWf = true) (actFence mode sc s) := by
  simp [actFence, hw]

@[simp] theorem memWf_actStake (m : SyAddr) (d : Fin 32) (s : State) (hw : s.memWf = true) : Answers (·.memWf = true) (actStake m d s) := by
  simp [actStake, hw]

@[simp] theorem memWf_actSettle (m : SyAddr) (d : Fin 32) (s : State) (hw : s.memWf = true) :
    Answers (·.memWf = true) (actSettle m d s) := by
  simp [actSettle, hw]

@[simp] theorem memWf_actCtag (d : Fin 32) (m : SyAddr) (s : State) (hw : s.memWf = true) : Answers (·.memWf = true) (actCtag d m s) := by
  simp [actCtag, hw]

@[simp] theorem memWf_unstakeCell (s : State) (cell : Nat) (hw : s.memWf = true) : (s.unstakeCell cell).memWf = true := by
  simp [State.unstakeCell, hw]

@[simp] theorem memWf_actUnstake (m : SyAddr) (s : State) (hw : s.memWf = true) : Answers (·.memWf = true) (actUnstake m s) := by
  simp [actUnstake, hw]

@[simp] theorem memWf_actCrewJoin (n : Fin 256) (s : State) (hw : s.memWf = true) : Answers (·.memWf = true) (actCrewJoin n s) := by
  simp [actCrewJoin, hw]

@[simp] theorem memWf_actCrewLeave (n : Fin 256) (s : State) (hw : s.memWf = true) : Answers (·.memWf = true) (actCrewLeave n s) := by
  simp [actCrewLeave, hw]

@[simp] theorem memWf_crewDepart (s : State) (close : Bool) : (s.crewDepart close).memWf = s.memWf := by
  simp [State.crewDepart]

@[simp] theorem memWf_actCrewSync (n : Fin 256) (close : Bool) (s : State) (hw : s.memWf = true) :
    Answers (·.memWf = true) (actCrewSync n close s) := by
  simp [actCrewSync, hw]

@[simp] theorem memWf_actCbArm (n : Fin 64) (a : SSrc) (s : State) (hw : s.memWf = true) : Answers (·.memWf = true) (actCbArm n a s) := by
  simp [actCbArm, hw]

@[simp] theorem memWf_actCbWait (n : Fin 64) (sc : Scope) (s : State) (hw : s.memWf = true) :
    Answers (·.memWf = true) (actCbWait n sc s) := by
  simp [actCbWait, hw]

@[simp] theorem memWf_actCbAdd (n : Fin 64) (a : SSrc) (s : State) (hw : s.memWf = true) : Answers (·.memWf = true) (actCbAdd n a s) := by
  simp [actCbAdd, hw]

@[simp] theorem memWf_actCbRead (d : Fin 32) (n : Fin 64) (s : State) (hw : s.memWf = true) :
    Answers (·.memWf = true) (actCbRead d n s) := by
  simp [actCbRead, hw]

@[simp] theorem memWf_actStepCommit (a : SSrc) (s : State) (hw : s.memWf = true) : Answers (·.memWf = true) (actStepCommit a s) := by
  simp [actStepCommit, hw]

@[simp] theorem memWf_actAtmClose (wait : Bool) (sc : Scope) (s : State) (hw : s.memWf = true) :
    Answers (·.memWf = true) (actAtmClose wait sc s) := by
  simp [actAtmClose, hw]

/-! ### Parameters and start of a matrix job -/

@[simp] theorem memWf_modShadow (s : State) (f : MSet → MSet) : (s.modShadow f).memWf = s.memWf := by
  simp [State.modShadow]

@[simp] theorem memWf_actMshape (fmt : EngFmt) (a : Fin 32) (b c : SSrc) (s : State) (hw : s.memWf = true) :
    Answers (·.memWf = true) (actMshape fmt a b c s) := by
  simp [actMshape, hw]

@[simp] theorem memWf_actMcfg (level : Fin 8) (drain : Bool) (o : En3) (s : State) (hw : s.memWf = true) :
    Answers (·.memWf = true) (actMcfg level drain o s) := by
  unfold actMcfg
  split <;> simp [hw]

@[simp] theorem memWf_actMopnd (isB : Bool) (a : Fin 32) (b : SSrc) (h : Fin 16) (s : State) (hw : s.memWf = true) :
    Answers (·.memWf = true) (actMopnd isB a b h s) := by
  simp [actMopnd, hw]

@[simp] theorem memWf_actMrot (o : En3) (s : State) (hw : s.memWf = true) : Answers (·.memWf = true) (actMrot o s) := by
  simp [actMrot, hw]

@[simp] theorem memWf_actMprof (p : BitVec 8) (s : State) (hw : s.memWf = true) : Answers (·.memWf = true) (actMprof p s) := by
  simp [actMprof, hw]

@[simp] theorem memWf_actMdrain (a : Fin 32) (b c : SSrc) (s : State) (hw : s.memWf = true) :
    Answers (·.memWf = true) (actMdrain a b c s) := by
  simp [actMdrain, hw]

@[simp] theorem memWf_takeRq (s : State) (q : Nat) : (s.takeRq q).memWf = s.memWf := by
  simp [State.takeRq]

@[simp] theorem memWf_actMgo (s : State) (hw : s.memWf = true) : Answers (·.memWf = true) (actMgo s) := by
  simp only [actMgo]
  split <;> simp [hw]

@[simp] theorem memWf_actMwait (s : State) (hw : s.memWf = true) : Answers (·.memWf = true) (actMwait s) := by
  simp [actMwait, hw]

@[simp] theorem memWf_actMstat (a : Fin 32) (s : State) (hw : s.memWf = true) : Answers (·.memWf = true) (actMstat a s) := by
  simp [actMstat, hw]

@[simp] theorem memWf_actMzero (b c : SSrc) (s : State) (hw : s.memWf = true) : Answers (·.memWf = true) (actMzero b c s) := by
  simp [actMzero, hw]

@[simp] theorem memWf_actRqbind (q : Fin 8) (b : SSrc) (bind : Bool) (s : State) (hw : s.memWf = true) :
    Answers (·.memWf = true) (actRqbind q b bind s) := by
  simp [actRqbind, hw]

@[simp] theorem memWf_actVpop (d : Fin 32) (q : Fin 8) (nw : Bool) (s : State) (hw : s.memWf = true) :
    Answers (·.memWf = true) (actVpop d q nw s) := by
  simp only [actVpop]
  split <;> simp [hw]

/-! ### The matrix engine -/

@[simp] theorem memWf_storeTile (s : State) (t : Machine.Task) (g : Grant) (x : Tile) (hw : s.memWf = true) :
    (s.storeTile t g x).memWf = true :=
  memWf_foldl_of _ (fun s a h => by simp [h]) _ _ hw

@[simp] theorem memWf_writeBackTile (s : State) (i : Nat) (hw : s.memWf = true) : (s.writeBackTile i).memWf = true := by
  simp only [State.writeBackTile]
  split <;> simp [hw]

theorem memWf_rqTake (s : State) (d c q : Nat) (p : Cmd → Bool) (r : QRow) : ∀ t ∈ s.rqTake d c q p r, t.memWf = s.memWf := by
  unfold State.rqTake
  split <;> simp

@[simp] theorem memWf_rqServeN (s : State) (d c q : Nat) (p : Cmd → Bool) (n : Nat) : (s.rqServeN d c q p n).memWf = s.memWf := by
  induction n generalizing s with
  | zero => rfl
  | succ n ih =>
    simp only [State.rqServeN]
    split
    · rfl
    · split
      · rfl
      next t ht => simp [ih, memWf_rqTake _ _ _ _ _ _ t ht]

@[simp] theorem memWf_rqServe (s : State) (d c q : Nat) : (s.rqServe d c q).memWf = s.memWf := by
  simp [State.rqServe]

@[simp] theorem memWf_rqStart (s : State) (id d c q : Nat) : (s.rqStart id d c q).memWf = s.memWf := by
  simp [State.rqStart]

@[simp] theorem memWf_drainTile (s : State) (i : Nat) (g : Grant) (x : Tile) : (s.drainTile i g x).memWf = s.memWf := by
  simp [State.drainTile, -Nat.reducePow]

@[simp] theorem memWf_modJob (s : State) (i : Nat) (f : Job → Job) : (s.modJob i f).memWf = s.memWf := by
  simp [State.modJob]

@[simp] theorem memWf_jobLeaves (s : State) (i : Nat) (st : JState) (hw : s.memWf = true) : (s.jobLeaves i st).memWf = true := by
  simp [State.jobLeaves, hw]

@[simp] theorem memWf_jobQueues (s : State) (i : Nat) : (s.jobQueues i).memWf = s.memWf := by
  simp [State.jobQueues]

@[simp] theorem memWf_jobFault (s : State) (i code addr : Nat) (hw : s.memWf = true) : (s.jobFault i code addr).memWf = true := by
  simp [State.jobFault, hw]

@[simp] theorem memWf_jobBad (s : State) (i : Nat) (h : Handle) (b : Bad) (hw : s.memWf = true) : (s.jobBad i h b).memWf = true := by
  unfold State.jobBad
  split <;> simp [hw]

@[simp] theorem memWf_jobStep (s : State) (i : Nat) (g : Grant) (a b : Operand) (hw : s.memWf = true) :
    (s.jobStep i g a b).memWf = true := by
  simp only [State.jobStep]
  (repeat' split) <;> simp [hw]

@[simp] theorem memWf_jobWalks (s : State) (i : Nat) (hw : s.memWf = true) : (s.jobWalks i).memWf = true := by
  simp only [State.jobWalks]
  split <;> simp [hw]

@[simp] theorem nextWf_execMatrixStep (d c : Nat) (s : State) (hw : s.memWf = true) : NextWf (execMatrixStep d c s) := by
  simp only [execMatrixStep]
  (repeat' split) <;> simp [hw]

@[simp] theorem memWf_jobWake (s : State) (i : Nat) : (s.jobWake i).memWf = s.memWf := by
  simp [State.jobWake]

@[simp] theorem nextWf_execMatrixJobStart (d c : Nat) (s : State) (hw : s.memWf = true) : NextWf (execMatrixJobStart d c s) := by
  simp only [execMatrixJobStart]
  split <;> simp [hw]

@[simp] theorem nextWf_execAtbankChunkReturn (d c chunk : Nat) (s : State) (hw : s.memWf = true) :
    NextWf (execAtbankChunkReturn d c chunk s) := by
  simp only [execAtbankChunkReturn]
  (repeat' split) <;> simp [hw]

/-! ### Engine commands -/

@[simp] theorem memWf_issueCmd (s : State) (a : Fin 32) (c : Cmd) (status : Status) : (s.issueCmd a c status).memWf = s.memWf := by
  simp [State.issueCmd]

@[simp] theorem memWf_modCmd (s : State) (id : Nat) (f : Cmd → Cmd) : (s.modCmd id f).memWf = s.memWf := by
  simp [State.modCmd]

@[simp] theorem memWf_endCmd (s : State) (c : Cmd) (status : Status) : (s.endCmd c status).memWf = s.memWf := by
  simp [State.endCmd]

@[simp] theorem memWf_dropRfold (s : State) (d c e : Nat) : (s.dropRfold d c e).memWf = s.memWf := by
  simp [State.dropRfold]

@[simp] theorem memWf_finishCmd (s : State) (c : Cmd) (status : Status) : (s.finishCmd c status).memWf = s.memWf := by
  simp [State.finishCmd]

@[simp] theorem memWf_answerCmd (s : State) (c : Cmd) (status : Status) : (s.answerCmd c status).memWf = s.memWf := by
  simp [State.answerCmd]

@[simp] theorem memWf_answerStep (s : State) (id : Nat) : (s.answerStep id).memWf = s.memWf := by
  unfold State.answerStep
  (repeat' split) <;> simp

@[simp] theorem memWf_flushRanges (s : State) (l : List (Nat × Nat)) : (s.flushRanges l).memWf = s.memWf := by
  simp [State.flushRanges]

@[simp] theorem nextWf_execFlushCommand (d : Nat) (s : State) (hw : s.memWf = true) : NextWf (execFlushCommand d s) := by
  unfold execFlushCommand
  (repeat' split) <;> simp [hw]

@[simp] theorem nextWf_execStackCommandRelease (d : Nat) (s : State) (hw : s.memWf = true) : NextWf (execStackCommandRelease d s) := by
  simp [execStackCommandRelease, hw]

/-! ### Copies and assay commands -/

@[simp] theorem memWf_settleCmd (s : State) (id : Nat) : (s.settleCmd id).memWf = s.memWf := by
  unfold State.settleCmd
  split <;> simp

@[simp] theorem memWf_stopCmd (s : State) (x : Cmd) (st : Status) : (s.stopCmd x st).memWf = s.memWf := by
  simp [State.stopCmd]

@[simp] theorem memWf_landChunk (s : State) (x : Cmd) (place : Nat) (runs : List (Nat × Nat × Nat)) (len : Nat) (hw : s.memWf = true) :
    (s.landChunk x place runs len).memWf = true := by
  have landed : (runs.foldl (fun s r => s.landBytes (place + r.1) r.2.1 r.2.2 x.hd.claim) s).memWf = true :=
    memWf_foldl_of _ (fun s r h => by simp [h]) _ _ hw
  simp only [State.landChunk]
  (repeat' split) <;> simp [hw, landed]

@[simp] theorem memWf_sendChunk (s : State) (x : Cmd) (line place : Nat) (runs : List (Nat × Nat × Nat)) (len : Nat) (hw : s.memWf =
    true) :
    (s.sendChunk x line place runs len).memWf = true := by
  simp [State.sendChunk, hw]

@[simp] theorem memWf_holdChunk (s : State) (x : Cmd) (line place : Nat) (runs : List (Nat × Nat × Nat)) (len : Nat) :
    (s.holdChunk x line place runs len).memWf = s.memWf := by
  simp [State.holdChunk]

@[simp] theorem memWf_moveChunk (s : State) (x : Cmd) (line k0 : Nat) (hw : s.memWf = true) : (s.moveChunk x line k0).memWf = true := by
  have sent (l : List Nat) (runs : List (Nat × Nat × Nat)) (n : Nat) :
      (l.foldl (fun s p => s.sendChunk x line p runs n) s).memWf = true := memWf_foldl_of _ (fun s p h => by simp [h]) _ _ hw
  simp only [State.moveChunk]
  (repeat' split) <;> simp [hw, sent]

@[simp] theorem memWf_landLine (s : State) (h : HeldChunk) (x : Cmd) (hw : s.memWf = true) : (s.landLine h x).memWf = true := by
  simp [State.landLine, hw]

@[simp] theorem memWf_landStep (s : State) (no : Nat) (hw : s.memWf = true) : (s.landStep no).memWf = true := by
  unfold State.landStep
  (repeat' split) <;> simp [hw]

@[simp] theorem nextWf_execCopyStart (t ticket : Nat) (s : State) (hw : s.memWf = true) : NextWf (execCopyStart t ticket s) := by
  unfold execCopyStart
  split <;> simp [hw]

@[simp] theorem nextWf_execCopyChunk (t ticket chunk : Nat) (s : State) (hw : s.memWf = true) :
    NextWf (execCopyChunk t ticket chunk s) := by
  unfold execCopyChunk
  split <;> simp [hw]

@[simp] theorem nextWf_execCopyChunkAck (t ticket chunk : Nat) (s : State) (hw : s.memWf = true) :
    NextWf (execCopyChunkAck t ticket chunk s) := by
  unfold execCopyChunkAck
  (repeat' split) <;> simp [hw]

@[simp] theorem memWf_startCopy (s : State) (kind : CmdKind) (a : Fin 32) (d : Nat) (hs hd : Handle) (ks kd : Nat) (hw : s.memWf = true) :
    Answers (·.memWf = true) (s.startCopy kind a d hs hd ks kd) := by
  simp [State.startCopy, hw]

@[simp] theorem memWf_copyOp (kind : CmdKind) (o : CpyOp) (s : State) (hw : s.memWf = true) : Answers (·.memWf = true) (copyOp kind o s) := by
  simp [copyOp, hw]

@[simp] theorem memWf_actCpyr (a : Fin 32) (b : SSrc) (q : Fin 8) (hd : Fin 16) (s : State) (hw : s.memWf = true) :
    Answers (·.memWf = true) (actCpyr a b q hd s) := by
  simp [actCpyr, hw]

@[simp] theorem memWf_actCwait (a : Fin 32) (b : SSrc) (s : State) (hw : s.memWf = true) : Answers (·.memWf = true) (actCwait a b s) := by
  simp [actCwait, hw]

@[simp] theorem memWf_actCstat (a : Fin 32) (b : SSrc) (s : State) (hw : s.memWf = true) : Answers (·.memWf = true) (actCstat a b s) := by
  simp [actCstat, hw]

@[simp] theorem memWf_assayOp (kind : CmdKind) (bad : View → View → Bool) (o : CpyOp) (s : State) (hw : s.memWf = true) :
    Answers (·.memWf = true) (assayOp kind bad o s) := by
  simp [assayOp, hw, -Nat.reducePow]

@[simp] theorem memWf_actQscl (a : Fin 32) (b : SSrc) (hs : Fin 16) (fmt : QsclFmt) (s : State) (hw : s.memWf = true) :
    Answers (·.memWf = true) (actQscl a b hs fmt s) := by
  simp only [actQscl]
  split <;> simp [hw]

@[simp] theorem nextWf_execAssayScanComplete (t : Nat) (s : State) (hw : s.memWf = true) : NextWf (execAssayScanComplete t s) := by
  unfold execAssayScanComplete
  split <;> simp [hw]

/-! ### Seam macros -/

@[simp] theorem memWf_pushMacro (s : State) (n : Nat) (m : Machine.Macro) : (s.pushMacro n m).memWf = s.memWf := by
  simp [State.pushMacro]

@[simp] theorem memWf_seamOp (i : Instr) (a b c : Word) (srcs : List SVec) (extra : Bool) (s : State) (hw : s.memWf = true) :
    Answers (·.memWf = true) (seamOp i a b c srcs extra s) := by
  simp [seamOp, hw]

@[simp] theorem memWf_seam3 (i : Instr) (o : SeamOp) (wide1 : Bool) (s : State) (hw : s.memWf = true) :
    Answers (·.memWf = true) (seam3 i o wide1 s) := by
  simp [seam3, hw]

@[simp] theorem memWf_actSlog (op : SeamLog) (o : SeamOp) (s : State) (hw : s.memWf = true) :
    Answers (·.memWf = true) (actSlog op o s) := by
  simp [actSlog, hw]

@[simp] theorem memWf_actScp (a b : SSrc) (pred : Bool) (s : State) (hw : s.memWf = true) :
    Answers (·.memWf = true) (actScp a b pred s) := by
  simp [actScp, hw]

@[simp] theorem memWf_actSpred (a : SSrc) (inv : Bool) (s : State) (hw : s.memWf = true) : Answers (·.memWf = true) (actSpred a inv s) := by
  simp [actSpred, hw]

@[simp] theorem memWf_actSrow (op : SeamRow) (o : SeamOp) (s : State) (hw : s.memWf = true) :
    Answers (·.memWf = true) (actSrow op o s) := by
  simp [actSrow, hw]

@[simp] theorem memWf_actSpop (a : Fin 32) (b : SSrc) (s : State) (hw : s.memWf = true) : Answers (·.memWf = true) (actSpop a b s) := by
  simp only [actSpop]
  split <;> simp [hw]

@[simp] theorem memWf_seamMem (i : Instr) (a b c : SSrc) (esz : Nat) (isLoad : Bool) (s : State) (hw : s.memWf = true) :
    Answers (·.memWf = true) (seamMem i a b c esz isLoad s) := by
  simp [seamMem, hw]

@[simp] theorem memWf_actSwait (b : SSrc) (s : State) (hw : s.memWf = true) : Answers (·.memWf = true) (actSwait b s) := by
  simp [actSwait, hw]

@[simp] theorem memWf_putPlanes (s : State) (d c bank : Nat) (v : SVec) (mask : Nat) (f : Nat → Nat) (bad : Nat → Bool)
    (hw : s.memWf = true) : (s.putPlanes d c bank v mask f bad).memWf = true := by
  refine memWf_foldl_of _ (fun s e h => ?_) _ _ hw
  exact memWf_memWrite s _ rfl rfl h

@[simp] theorem memWf_seam2 (s : State) (d c bank : Nat) (m : Machine.Macro) (pred : Bool) (f : Int → Int → Nat) (hw : s.memWf =
    true) :
    (s.seam2 d c bank m pred f).memWf = true := by
  simp [State.seam2, hw]

@[simp] theorem memWf_seam1 (s : State) (d c bank : Nat) (m : Machine.Macro) (pred : Bool) (f : Int → Nat) (hw : s.memWf = true) :
    (s.seam1 d c bank m pred f).memWf = true := by
  simp [State.seam1, hw]

@[simp] theorem memWf_seamStore (s : State) (d c bank : Nat) (m : Machine.Macro) (e : Nat) (signed : Bool) (hw : s.memWf = true) :
    (s.seamStore d c bank m e signed).memWf = true :=
  memWf_foldl_of _ (fun s a h => by simp [h]) _ _ hw

@[simp] theorem memWf_seamRun (s : State) (d c bank : Nat) (m : Machine.Macro) (hw : s.memWf = true) :
    (s.seamRun d c bank m).memWf = true := by
  unfold State.seamRun
  split <;> simp [hw]

@[simp] theorem nextWf_execSeamMacroExecute (d c bank : Nat) (s : State) (hw : s.memWf = true) :
    NextWf (execSeamMacroExecute d c bank s) := by
  unfold execSeamMacroExecute
  split <;> simp [hw]

/-! ### Relay instructions -/

@[simp] theorem memWf_actRpost (a : Fin 32) (b c : SSrc) (hs hd : Fin 16) (s : State) (hw : s.memWf = true) :
    Answers (·.memWf = true) (actRpost a b c hs hd s) := by
  simp [actRpost, hw]

@[simp] theorem memWf_actRarm (a : Fin 32) (b : SSrc) (s : State) (hw : s.memWf = true) : Answers (·.memWf = true) (actRarm a b s) := by
  simp [actRarm, hw]

@[simp] theorem memWf_actRcancel (a : Fin 32) (b : SSrc) (s : State) (hw : s.memWf = true) :
    Answers (·.memWf = true) (actRcancel a b s) := by
  simp [actRcancel, hw]

@[simp] theorem memWf_actRstat (a : Fin 32) (b : SSrc) (s : State) (hw : s.memWf = true) : Answers (·.memWf = true) (actRstat a b s) := by
  simp [actRstat, hw]

@[simp] theorem nextWf_execRelayTimeFire (d c entry : Nat) (s : State) (hw : s.memWf = true) : NextWf (execRelayTimeFire d c entry s) := by
  simp [execRelayTimeFire, hw]

@[simp] theorem nextWf_execRelayDelivery (d c entry : Nat) (s : State) (hw : s.memWf = true) : NextWf (execRelayDelivery d c entry s) := by
  simp [execRelayDelivery, hw]

/-! ### Stack commands -/

@[simp] theorem memWf_stackPut (s : State) (pa n v : Nat) (hw : s.memWf = true) : (s.stackPut pa n v).memWf = true :=
  memWf_memWrite s _ rfl rfl hw

@[simp] theorem memWf_actStend (a : Fin 32) (b : SSrc) (h : Fin 16) (s : State) (hw : s.memWf = true) :
    Answers (·.memWf = true) (actStend a b h s) := by
  simp [actStend, hw]

@[simp] theorem memWf_tendStep (s : State) (c : Cmd) (hw : s.memWf = true) : (s.tendStep c).memWf = true := by
  simp only [State.tendStep]
  split
  · simp [hw]
  · simp [hw]
  · split
    all_goals
      simp only [memWf_modCmd, memWf_answerCmd]
      iterate 4 refine memWf_stackPut _ _ _ _ ?_
      exact hw

@[simp] theorem nextWf_execTendBlock (cmd : Nat) (s : State) (hw : s.memWf = true) : NextWf (execTendBlock cmd s) := by
  unfold execTendBlock
  split <;> simp [hw]

@[simp] theorem memWf_foldOp (flush : Bool) (a : Fin 32) (b : SSrc) (h : Fin 16) (s : State) (hw : s.memWf = true) :
    Answers (·.memWf = true) (foldOp flush a b h s) := by
  simp [foldOp, hw]

@[simp] theorem memWf_endPart (s : State) (p : Contribution) (st : Status) : (s.endPart p st).memWf = s.memWf := by
  unfold State.endPart
  cases s.partCmd p <;> simp

@[simp] theorem memWf_dropPart (s : State) (p : Contribution) (st : Status) : (s.dropPart p st).memWf = s.memWf := by
  unfold State.dropPart
  cases s.partCmd p <;> simp

@[simp] theorem memWf_endParts (s : State) (l : List Contribution) (st : Status) : (s.endParts l st).memWf = s.memWf := by
  simp [State.endParts]

@[simp] theorem memWf_addToRow (s : State) (x : FoldId) (i : Nat) (v : FVal) (hw : s.memWf = true) : (s.addToRow x i v).memWf = true := by
  simp [State.addToRow, hw]

@[simp] theorem memWf_addRun (s : State) (x : FoldId) (v : Nat → FVal) (hw : s.memWf = true) : (s.addRun x v).memWf = true :=
  memWf_foldl_of _ (fun s a h => by simp [h]) _ _ hw

@[simp] theorem memWf_applyRound (s : State) (x : FoldRound) (claim : Bool) (hw : s.memWf = true) :
    (s.applyRound x claim).memWf = true := by
  simp only [State.applyRound]
  split <;> simp [hw]

@[simp] theorem memWf_applyFull (s : State) (x : FoldId) (n : Nat) (hw : s.memWf = true) : (s.applyFull x n).memWf = true := by
  induction n generalizing s with
  | zero => exact hw
  | succ n ih =>
    unfold State.applyFull
    (repeat' split) <;> simp [ih, hw]

@[simp] theorem memWf_dropMsg (s : State) (m : FoldMsg) : (s.dropMsg m).memWf = s.memWf := by
  simp [State.dropMsg]

@[simp] theorem memWf_stageFold (s : State) (m : FoldMsg) (hw : s.memWf = true) : (s.stageFold m).memWf = true := by
  simp only [State.stageFold]
  split <;> simp [hw]

@[simp] theorem nextWf_execFoldContribution (n : Nat) (s : State) (hw : s.memWf = true) : NextWf (execFoldContribution n s) := by
  simp only [execFoldContribution]
  (repeat' split) <;> simp [hw]

@[simp] theorem nextWf_execFoldStagingTake (n : Nat) (s : State) (hw : s.memWf = true) : NextWf (execFoldStagingTake n s) := by
  unfold execFoldStagingTake
  split <;> simp [hw]

/-! ### System registers and traps by program -/

@[simp] theorem memWf_actMfsr (d : Fin 32) (n : Fin 1024) (s : State) (hw : s.memWf = true) : Answers (·.memWf = true) (actMfsr d n s) := by
  unfold actMfsr
  split <;> simp [hw]

@[simp] theorem memWf_actMtsr (n : Fin 1024) (a : SSrc) (s : State) (hw : s.memWf = true) : Answers (·.memWf = true) (actMtsr n a s) := by
  unfold actMtsr
  split <;> simp [hw]

@[simp] theorem memWf_actResume (keep : Bool) (s : State) (hw : s.memWf = true) : Answers (·.memWf = true) (actResume keep s) := by
  simp [actResume, hw]

@[simp] theorem memWf_actAbort (a : SSrc) (s : State) (hw : s.memWf = true) : Answers (·.memWf = true) (actAbort a s) := by
  simp [actAbort, hw]

@[simp] theorem memWf_actTimeUntil (a : SSrc) (s : State) (hw : s.memWf = true) : Answers (·.memWf = true) (actTimeUntil a s) := by
  simp [actTimeUntil, hw]

@[simp] theorem nextWf_execTimeUntilReached (t : Nat) (s : State) (hw : s.memWf = true) : NextWf (execTimeUntilReached t s) := by
  simp only [execTimeUntilReached]
  split <;> simp [hw]

@[simp] theorem memWf_actCwtld (d : Fin 32) (a : SSrc) (first : Fin 512) (s : State) (hw : s.memWf = true) :
    Answers (·.memWf = true) (actCwtld d a first s) := by
  simp [actCwtld, hw]

/-! ### Vector instructions -/

@[simp] theorem memWf_lane2 (t : VTy) (d : Fin 32) (a b : VSrc) (m : Fin 8) (nw usesD : Bool) (f : State → Nat → Nat → Nat → Nat → Nat
    → Nat) (s : State) (hw : s.memWf = true) :
    Answers (·.memWf = true) (lane2 t d a b m nw usesD f s) := by
  simp [lane2, hw]

@[simp] theorem memWf_lane1 (t : VTy) (d : Fin 32) (a : VSrc) (m : Fin 8) (nw : Bool) (f : State → Nat → Nat → Nat → Nat) (s : State)
    (hw : s.memWf = true) :
    Answers (·.memWf = true) (lane1 t d a m nw f s) := by
  simp [lane1, hw]

@[simp] theorem memWf_float2 (o : VBinR) (usesD : Bool) (f : RMode → FVal → FVal → FVal → FVal) (s : State) (hw : s.memWf = true) :
    Answers (·.memWf = true) (float2 o usesD f s) := by
  simp [float2, hw]

@[simp] theorem memWf_int2 (o : VBin) (f : Int → Int → Int) (s : State) (hw : s.memWf = true) : Answers (·.memWf = true) (int2 o f s) := by
  simp [int2, hw]

@[simp] theorem memWf_bits2 (o : VBin) (f : Nat → Nat → Nat) (s : State) (hw : s.memWf = true) :
    Answers (·.memWf = true) (bits2 o f s) := by
  simp [bits2, hw]

@[simp] theorem memWf_maskOp2 (t : VTy) (k : Fin 8) (a b : VSrc) (m : Fin 8) (nw : Bool) (f : Nat → Nat → Bool) (s : State) (hw :
    s.memWf = true) :
    Answers (·.memWf = true) (maskOp2 t k a b m nw f s) := by
  simp [maskOp2, hw]

@[simp] theorem memWf_takeFdiv (s : State) (clocks : Nat) (hw : s.memWf = true) : Answers (·.memWf = true) (s.takeFdiv clocks) := by
  simp [State.takeFdiv, hw]

@[simp] theorem memWf_takeIdiv (s : State) (clocks : Nat) (hw : s.memWf = true) : Answers (·.memWf = true) (s.takeIdiv clocks) := by
  simp [State.takeIdiv, hw]

@[simp] theorem memWf_vdivOp (o : VBin) (rem : Bool) (s : State) (hw : s.memWf = true) : Answers (·.memWf = true) (vdivOp o rem s) := by
  simp only [vdivOp, answers_bind]
  exact .of_forall fun x => .of_forall fun y => (memWf_lane2 _ _ _ _ _ _ _ _ _ hw).imp fun _ ht => memWf_takeIdiv _ _ ht

@[simp] theorem memWf_reduce (o : VUn) (n : Nat) (f : List Nat → Nat) (s : State) (hw : s.memWf = true) :
    Answers (·.memWf = true) (reduce o n f s) := by
  simp [reduce, hw]

@[simp] theorem memWf_actVsel (o : VBin) (s : State) (hw : s.memWf = true) : Answers (·.memWf = true) (actVsel o s) := by
  simp [actVsel, hw]

@[simp] theorem memWf_actVscale (o : VBinR) (s : State) (hw : s.memWf = true) : Answers (·.memWf = true) (actVscale o s) := by
  simp [actVscale, hw]

@[simp] theorem memWf_actVround (o : VUnR) (s : State) (hw : s.memWf = true) : Answers (·.memWf = true) (actVround o s) := by
  simp [actVround, hw]

@[simp] theorem memWf_actViadd (o : VBinS) (s : State) (hw : s.memWf = true) : Answers (·.memWf = true) (actViadd o s) := by
  simp [actViadd, hw]

@[simp] theorem memWf_actVisub (o : VBinS) (s : State) (hw : s.memWf = true) : Answers (·.memWf = true) (actVisub o s) := by
  simp [actVisub, hw]

@[simp] theorem memWf_actVcvt (o : VUnR) (ts : VTy) (p : Fin 4) (s : State) (hw : s.memWf = true) :
    Answers (·.memWf = true) (actVcvt o ts p s) := by
  simp [actVcvt, hw]

@[simp] theorem memWf_actVbcast (t : VTy) (d : Fin 32) (a : SSrc) (m : Fin 8) (nw : Bool) (s : State) (hw : s.memWf = true) :
    Answers (·.memWf = true) (actVbcast t d a m nw s) := by
  simp [actVbcast, hw]

@[simp] theorem memWf_actVperm (o : VBin) (s : State) (hw : s.memWf = true) : Answers (·.memWf = true) (actVperm o s) := by
  simp [actVperm, hw]

@[simp] theorem memWf_actVlrot (t : VTy) (d : Fin 32) (a : VSrc) (b : SSrc) (m : Fin 8) (nw : Bool) (s : State) (hw : s.memWf = true)
    :
    Answers (·.memWf = true) (actVlrot t d a b m nw s) := by
  simp [actVlrot, hw]

@[simp] theorem memWf_actVext (t : VTy) (d : Fin 32) (a : VSrc) (b : SSrc) (nw : Bool) (s : State) (hw : s.memWf = true) :
    Answers (·.memWf = true) (actVext t d a b nw s) := by
  simp [actVext, hw]

@[simp] theorem memWf_actVins (t : VTy) (d : Fin 32) (a b : SSrc) (nw : Bool) (s : State) (hw : s.memWf = true) :
    Answers (·.memWf = true) (actVins t d a b nw s) := by
  simp [actVins, hw]

@[simp] theorem memWf_actVmask (op : MaskOp) (d : Fin 8) (nw : Bool) (s : State) (hw : s.memWf = true) :
    Answers (·.memWf = true) (actVmask op d nw s) := by
  unfold actVmask
  split <;> simp [hw]

@[simp] theorem memWf_actVwin (a : SSrc) (s : State) (hw : s.memWf = true) : Answers (·.memWf = true) (actVwin a s) := by
  simp [actVwin, hw]

@[simp] theorem memWf_actVdiv (o : VBinR) (s : State) (hw : s.memWf = true) : Answers (·.memWf = true) (actVdiv o s) :=
  (memWf_float2 _ _ _ _ hw).bind fun _ ht => memWf_takeFdiv _ _ ht

@[simp] theorem memWf_actVsqrt (o : VUnR) (s : State) (hw : s.memWf = true) : Answers (·.memWf = true) (actVsqrt o s) :=
  (memWf_lane1 _ _ _ _ _ _ _ hw).bind fun _ ht => memWf_takeFdiv _ _ ht

@[simp] theorem memWf_actVdot (o : VBin) (s : State) (hw : s.memWf = true) : Answers (·.memWf = true) (actVdot o s) := by
  simp [actVdot, hw]

@[simp] theorem nextWf_execVectorDivideComplete (d c port : Nat) (int : Bool) (s : State) (hw : s.memWf = true) :
    NextWf (execVectorDivideComplete d c port int s) := by
  simp [execVectorDivideComplete, hw]

/-! ### The effect of every encoded instruction -/

/-- The effect of an encoded instruction keeps the canonical form: the lemma of its form or of its own, past the effects that are one line. -/
theorem memWf_actOf (i : Instr) (s : State) (hw : s.memWf = true) : Answers (·.memWf = true) (actOf i s) := by
  cases i
  all_goals
    simp [actOf, hw, actAdd, actSub, actMul, actMulhI, actMulhN, actAnd, actOr, actXor, actAndn, actShl, actShr, actSra, actMinI, actMaxI,
      actMinN, actMaxN, actBfx, actSel, actClz, actCtz, actPopc, actMov, actDivI, actDivN, actRemI, actRemN, actAddi, actAndi,
      actOri, actXori, actShli, actShri, actSrai, actMovi, actHdrop, actNop, actBr, actBrc, actCall, actAmo, actCas, actCpy,
      actCpym, actCpyc, actQnt, actDqnt, actSadd, actSsub, actSmul, actScmp, actSsel, actSld, actSst, actSfold, actSflush,
      actTrap, actTime, actTimeUnc, actVadd, actVsub, actVmul, actVfma, actVfms, actVfnma, actVmin, actVmax, actVabs, actVneg,
      actVcmp, actVclass, actVimul, actVimulh, actVand, actVor, actVxor, actVshl, actVshr, actVsra, actVimin, actVimax,
      actVicmp, actVmcnt, actVmov, actVrcpA, actVrsqA, actVexp2A, actVlog2A, actVidiv, actVirem, actVredsum, actVredmax,
      actVredmin]

/-! ### The error log -/

@[simp] theorem memWf_signal (s : State) (v : Nat) : (s.signal v).memWf = s.memWf := by
  simp [State.signal]

@[simp] theorem memWf_countEvent (s : State) (code d : Nat) : (s.countEvent code d).memWf = s.memWf := by
  simp [State.countEvent]

@[simp] theorem memWf_ringEntry (s : State) (w : BitVec 512) : (s.ringEntry w).memWf = s.memWf := by
  simp [State.ringEntry]

@[simp] theorem memWf_writeEntry (s : State) (e : LogEvent) : (s.writeEntry e).memWf = s.memWf := by
  simp [State.writeEntry]

@[simp] theorem memWf_logEvent (s : State) (e : LogEvent) : (s.logEvent e).memWf = s.memWf := by
  simp [State.logEvent]

@[simp] theorem memWf_ignoredWrite (s : State) (d off : Nat) : (s.ignoredWrite d off).memWf = s.memWf := by
  simp [State.ignoredWrite]

/-! ### Bundles -/

@[simp] theorem memWf_at (s : State) (o : Op) : (s.at o).memWf = s.memWf := by
  simp [State.at]

@[simp] theorem memWf_used (s : State) (o : Op) : (s.used o).memWf = s.memWf := by
  unfold State.used
  split <;> simp

theorem memWf_firstStop (a : Option (State × Stop)) (b : State × Stop) (ha : ∀ x ∈ a, x.1.memWf = true) (hb : b.1.memWf = true) :
    (firstStop a b).1.memWf = true := by
  unfold firstStop
  split
  next x => split <;> simp_all
  · exact hb

@[simp] theorem memWf_accepted (s : State) (o : Op) (sd : Side) : (s.accepted o sd).memWf = s.memWf := by
  simp [State.accepted]

/-- Both the state after the operations and the one in which they stop keep the canonical form. -/
theorem memWf_runOps (s0 : State) (l : List Op) (s : State) (stop : Option (State × Stop)) (hw0 : s0.memWf = true) (hw : s.memWf = true)
    (hs : ∀ x ∈ stop, x.1.memWf = true) : Ends (·.1.memWf = true) (·.memWf = true) (runOps s0 l s stop) := by
  induction l generalizing s stop with
  | nil =>
    cases stop with
    | none => exact hw
    | some x => exact hs x rfl
  | cons o l ih =>
    unfold runOps
    split
    next t ht => exact ih _ _ ((memWf_used _ _).trans (memWf_actOf _ _ (by simpa using hw) t ht)) hs
    · exact ih _ _ (by simpa using hw) hs
    · split
      · simpa [Ends] using hw0
      · refine ih _ _ (by simpa using hw) fun x hx => ?_
        cases hx
        exact memWf_firstStop _ _ hs (by simpa using hw0)

theorem memWf_perform (s : State) (ops : List Op) (hw : s.memWf = true) : Ends (·.1.memWf = true) (·.memWf = true) (s.perform ops) := by
  have room : (if s.needsRoom ops then s.commit s.iss.task else s).memWf = true := by simp [hw]
  exact memWf_runOps _ _ _ _ room room (by simp)

@[simp] theorem memWf_advance (s : State) : s.advance.memWf = s.memWf := by
  unfold State.advance
  split
  · rfl
  · cases h : s.boundaryAt s.iss.pc with
    | none => simp
    | some t => exact memWf_boundaryAt _ _ t h

@[simp] theorem memWf_countBundle (s : State) (yieldPt : Bool) : (s.countBundle yieldPt).memWf = s.memWf := by
  simp [State.countBundle]

@[simp] theorem memWf_noteStart (s : State) (i : Nat) : (s.noteStart i).memWf = s.memWf := by
  simp [State.noteStart]

@[simp] theorem memWf_finish (s : State) (committing yieldPt : Bool) (hw : s.memWf = true) :
    (s.finish committing yieldPt).memWf = true := by
  simp only [State.finish]
  split <;> simp [hw]

@[simp] theorem memWf_holdOpen (s : State) (committing yieldPt : Bool) : (s.holdOpen committing yieldPt).memWf = s.memWf := by
  simp [State.holdOpen]

@[simp] theorem memWf_performed (s : State) (committing yieldPt : Bool) (hw : s.memWf = true) :
    (s.performed committing yieldPt).memWf = true := by
  simp [State.performed, hw]

theorem nextWf_settleBundle (r : Except (State × Stop) State) (committing yieldPt : Bool)
    (hr : Ends (·.1.memWf = true) (·.memWf = true) r) : NextWf (State.settleBundle r committing yieldPt) := by
  cases r with
  | ok s => exact (nextWf_next _).2 (memWf_performed _ _ _ hr)
  | error x => exact nextWf_resolve _ _ hr (answers_error _ _)

@[simp] theorem memWf_answered (s : State) (o : Later) (hw : s.memWf = true) : (s.answered o).memWf = true := by
  unfold State.answered
  split
  next t ht => exact memWf_actOf _ _ (by simpa using hw) t ht
  · exact hw

@[simp] theorem memWf_closeBundle (s : State) (i : Nat) (x : Issue) (hw : s.memWf = true) : (s.closeBundle i x).memWf = true := by
  unfold State.closeBundle
  split
  · exact memWf_finish _ _ _ (memWf_foldl_of _ (fun s o h => memWf_answered s o h) _ _ (by simpa using hw))
  · exact hw

@[simp] theorem memWf_present (s : State) (i d c : Nat) : (s.present i d c).memWf = s.memWf := by
  simp [State.present]

theorem memWf_openBundle (s : State) (w : Nat) (hw : s.memWf = true) : Ends (·.memWf = true) (·.1.memWf = true) (s.openBundle w) := by
  simp only [State.openBundle]
  (repeat' split) <;> simp [Ends, hw]

theorem nextWf_issueBundle (s : State) (w : Nat) (hw : s.memWf = true) : NextWf (s.issueBundle w) := by
  have opened := memWf_openBundle s w hw
  unfold State.issueBundle
  split
  next t ht =>
    rw [ht] at opened
    exact (nextWf_next t).2 opened
  next u ops committing yieldPt hu =>
    rw [hu] at opened
    exact nextWf_settleBundle _ _ _ (memWf_perform u ops opened)

theorem memWf_runWaiting (s : State) (i : Nat) (hw : s.memWf = true) : Answers (·.memWf = true) (s.runWaiting i) := by
  simp only [State.runWaiting]
  have opened := memWf_openBundle (s.present i (s.task i).die (s.task i).core) (s.present i (s.task i).die (s.task i).core).fetchBundle
    (by simpa using hw)
  split
  · simp
  next u ops committing yieldPt hu =>
    rw [hu] at opened
    have done := memWf_perform u ops opened
    split
    next t ht =>
      rw [ht] at done
      simpa using memWf_performed t _ _ done
    · simp

@[simp] theorem memWf_asyncTrap (s : State) (i : Nat) (t : Trap) (info info2 : Nat) (hw : s.memWf = true) :
    (s.asyncTrap i t info info2).memWf = true := by
  simp [State.asyncTrap, hw]

@[simp] theorem memWf_damage (s : State) (i : Nat) (e : SoftErr) : (s.damage i e).memWf = s.memWf := by
  unfold State.damage
  split <;> simp

@[simp] theorem memWf_parityError (s : State) (i : Nat) (e : SoftErr) (hw : s.memWf = true) : (s.parityError i e).memWf = true := by
  unfold State.parityError
  split <;> simp [hw]

@[simp] theorem memWf_noteYield (s : State) (i : Nat) : (s.noteYield i).memWf = s.memWf := by
  simp [State.noteYield]

theorem memWf_takeYield (s : State) (i : Nat) (hw : s.memWf = true) : ∀ t ∈ s.takeYield i, t.memWf = true := by
  unfold State.takeYield
  cases (s.task i).yieldDue <;> simp [hw]

theorem memWf_takeAsync (s : State) (i : Nat) (hw : s.memWf = true) : ∀ t ∈ s.takeAsync i, t.memWf = true := by
  have late := memWf_takeYield (s.noteYield i) i (by simpa using hw)
  simp only [State.takeAsync]
  (repeat' split) <;> simp_all

@[simp] theorem memWf_rollbackPreempt (s : State) (i : Nat) (hw : s.memWf = true) : (s.rollbackPreempt i).memWf = true := by
  simp [State.rollbackPreempt, hw]

@[simp] theorem memWf_restartJob (s : State) (i : Nat) : (s.restartJob i).memWf = s.memWf := by
  simp [State.restartJob]

@[simp] theorem memWf_retireTask (s : State) (i : Nat) : (s.retireTask i).memWf = s.memWf := by
  simp [State.retireTask]

@[simp] theorem memWf_finishTasks (s : State) (d c : Nat) : (s.finishTasks d c).memWf = s.memWf := by
  refine memWf_foldl _ (fun s i => ?_) _ _
  simp only []
  split <;> simp

/-! ### Events of a core -/

@[simp] theorem nextWf_execPhaseComplete (d c : Nat) (s : State) (hw : s.memWf = true) : NextWf (execPhaseComplete d c s) := by
  unfold execPhaseComplete
  split <;> simp [hw]

@[simp] theorem nextWf_execAsyncEventTake (d c : Nat) (s : State) (hw : s.memWf = true) : NextWf (execAsyncEventTake d c s) := by
  simp only [execAsyncEventTake, nextWf_next]
  split
  · exact hw
  next i _ =>
    split
    next t ht => exact memWf_takeAsync s i hw t ht
    · split <;> simp [hw]

@[simp] theorem nextWf_execStallPark (d c : Nat) (s : State) (hw : s.memWf = true) : NextWf (execStallPark d c s) := by
  unfold execStallPark
  (repeat' split) <;> simp [hw]

@[simp] theorem nextWf_execYieldLimit (d c : Nat) (s : State) (hw : s.memWf = true) : NextWf (execYieldLimit d c s) := by
  simp only [execYieldLimit, nextWf_next]
  split
  · exact hw
  next i _ =>
    have hn : (s.noteYield i).memWf = true := by simpa using hw
    split
    · exact memWf_getD_of hn (memWf_takeYield _ i hn)
    · exact hn

@[simp] theorem nextWf_execCoreParityError (d c : Nat) (e : SoftErr) (s : State) (hw : s.memWf = true) :
    NextWf (execCoreParityError d c e s) := by
  unfold execCoreParityError
  split <;> simp [hw]

/-! ### Frames, extents and revocation -/

@[simp] theorem memWf_moveBytes (s : State) (src dst n : Nat) (hw : s.memWf = true) : (s.moveBytes src dst n).memWf = true := by
  simp [State.moveBytes, hw]

theorem memWf_placeFrames (s : State) (l : List Nat) : ∀ t ∈ s.placeFrames l, t.memWf = s.memWf := by
  induction l generalizing s with
  | nil => simp [State.placeFrames]
  | cons i l ih =>
    unfold State.placeFrames
    split
    · exact fun t ht => (ih _ t ht).trans (memWf_modTask _ _ _)
    · simp

@[simp] theorem memWf_moveExtents (s : State) (out : Bool) (l : List (Nat × Nat)) (f : Nat) (hw : s.memWf = true) :
    (s.moveExtents out l f).memWf = true := by
  induction l generalizing s f with
  | nil => exact hw
  | cons e l ih =>
    unfold State.moveExtents
    exact ih _ _ (by simp [hw])

@[simp] theorem memWf_writeSwap (s : State) (i : Nat) (hw : s.memWf = true) : (s.writeSwap i).memWf = true := by
  simp only [State.writeSwap]
  split
  · exact hw
  · refine memWf_moveExtents _ _ _ _ ?_
    simp [hw]

@[simp] theorem memWf_setPreds (s : State) (t : Machine.Task) (v : List (BitVec 1024)) : (s.setPreds t v).memWf = s.memWf := by
  simp [State.setPreds]

@[simp] theorem memWf_lostFrame (s : State) (i : Nat) (hw : s.memWf = true) : (s.lostFrame i).memWf = true := by
  simp [State.lostFrame, hw]

@[simp] theorem memWf_readSwap (s : State) (i : Nat) (hw : s.memWf = true) : (s.readSwap i).memWf = true := by
  unfold State.readSwap
  split <;> simp [hw]

/-! ### Homes -/

@[simp] theorem nextWf_execStorePerform (n : Nat) (s : State) (hw : s.memWf = true) : NextWf (execStorePerform n s) := by
  unfold execStorePerform
  split <;> simp [hw]

@[simp] theorem memWf_replyTo (s : State) (i pa n v : Nat) : (s.replyTo i pa n v).memWf = s.memWf := by
  simp [State.replyTo]

@[simp] theorem nextWf_execLoadServe (n : Nat) (s : State) (hw : s.memWf = true) : NextWf (execLoadServe n s) := by
  unfold execLoadServe
  split <;> simp [hw]

@[simp] theorem memWf_withBundle (s s0 s' : State) (i : Nat) (hw : s.memWf = true) (hw0 : s0.memWf = true) (hw' : s'.memWf = true) :
    (s.withBundle s0 s' i).memWf = true := by
  unfold State.withBundle
  split
  next t ht => exact memWf_runWaiting _ _ hw' t ht
  · split <;> assumption
  · exact hw0

@[simp] theorem nextWf_execAtomicPerform (n : Nat) (s : State) (hw : s.memWf = true) : NextWf (execAtomicPerform n s) := by
  unfold execAtomicPerform
  split <;> simp [hw]

@[simp] theorem memWf_writeRecord (s : State) (launch k : Nat) (hw : s.memWf = true) : (s.writeRecord launch k).memWf = true := by
  simp [State.writeRecord, hw]

@[simp] theorem memWf_acceptFamo (s : State) (u : Update) (hw : s.memWf = true) : (s.acceptFamo u).memWf = true := by
  simp [State.acceptFamo, hw]

@[simp] theorem memWf_takeFamo (s s0 : State) (u : Update) (hw : s.memWf = true) (hw0 : s0.memWf = true) :
    (s.takeFamo s0 u).memWf = true := by
  simp [State.takeFamo, hw, hw0]

@[simp] theorem nextWf_execFamoHold (n : Nat) (s : State) (hw : s.memWf = true) : NextWf (execFamoHold n s) := by
  unfold execFamoHold
  split <;> simp [hw]

@[simp] theorem nextWf_execFamoAccept (n : Nat) (s : State) (hw : s.memWf = true) : NextWf (execFamoAccept n s) := by
  unfold execFamoAccept
  split <;> simp [hw]

@[simp] theorem memWf_applyUpdate (s : State) (u : Update) (hw : s.memWf = true) : (s.applyUpdate u).memWf = true := by
  simp [State.applyUpdate, hw]

@[simp] theorem memWf_applyEpoch (s : State) (dom e : Nat) (hw : s.memWf = true) : (s.applyEpoch dom e).memWf = true :=
  memWf_foldl_of _ (fun s a h => by simp [h]) _ _ hw

@[simp] theorem nextWf_execEpochApply (n : Nat) (s : State) (hw : s.memWf = true) : NextWf (execEpochApply n s) := by
  unfold execEpochApply
  split <;> simp [hw]

@[simp] theorem memWf_dropClaim (s : State) (n : Nat) : (s.dropClaim n).memWf = s.memWf := by
  simp [State.dropClaim]

@[simp] theorem memWf_stickClaim (s : State) (n : Nat) : (s.stickClaim n).memWf = s.memWf := by
  simp [State.stickClaim]

@[simp] theorem nextWf_execClaimFirstTouch (n : Nat) (s : State) (hw : s.memWf = true) : NextWf (execClaimFirstTouch n s) := by
  simp only [execClaimFirstTouch]
  (repeat' split) <;> simp [hw]

@[simp] theorem memWf_modClaim (s : State) (cell : Nat) (f : ClaimEntry → ClaimEntry) : (s.modClaim cell f).memWf = s.memWf := by
  simp [State.modClaim]

@[simp] theorem memWf_setWaiters (s : State) (cell : Nat) (f : List Waiter → List Waiter) : (s.setWaiters cell f).memWf = s.memWf := by
  simp only [State.setWaiters]
  split <;> simp

@[simp] theorem nextWf_execClaimWaiterAdd (n : Nat) (s : State) (hw : s.memWf = true) : NextWf (execClaimWaiterAdd n s) := by
  unfold execClaimWaiterAdd
  (repeat' split) <;> simp [hw]

@[simp] theorem memWf_endWait (s : State) (i cell : Nat) (t : Trap) : (s.endWait i cell t).memWf = s.memWf := by
  simp [State.endWait]

@[simp] theorem nextWf_execClaimTimeout (t : Nat) (s : State) (hw : s.memWf = true) : NextWf (execClaimTimeout t s) := by
  unfold execClaimTimeout
  split <;> simp [hw]

@[simp] theorem nextWf_execClaimSelfDetect (t : Nat) (s : State) (hw : s.memWf = true) : NextWf (execClaimSelfDetect t s) := by
  unfold execClaimSelfDetect
  (repeat' split) <;> simp [hw]

/-! ### The scheduler -/

@[simp] theorem memWf_bindTile (s : State) (i : Nat) (tile : Nat × Nat) (hw : s.memWf = true) : (s.bindTile i tile).memWf = true := by
  simp only [State.bindTile]
  (repeat' split) <;> simp [hw]

@[simp] theorem memWf_placeTask (s : State) (i : Nat) (p : Nat × Nat × Nat) (hw : s.memWf = true) : (s.placeTask i p).memWf = true :=
  memWf_foldl_of _ (fun s a h => by simp [h]) _ _ hw

@[simp] theorem memWf_chosen (s : State) (i : Nat) : (s.chosen i).memWf = s.memWf := by
  simp [State.chosen]

@[simp] theorem memWf_moveTask (s : State) (i c : Nat) : (s.moveTask i c).memWf = s.memWf := by
  simp [State.moveTask]

@[simp] theorem memWf_exchange (s : State) (d a b : Nat) : (s.exchange d a b).memWf = s.memWf := by
  simp [State.exchange]

@[simp] theorem nextWf_execBalancingExchange (d : Nat) (s : State) (hw : s.memWf = true) : NextWf (execBalancingExchange d s) := by
  simp [execBalancingExchange, hw]

theorem memWf_bringIn (s : State) (l : List Nat) (hw : s.memWf = true) : ∀ t ∈ s.bringIn l, t.memWf = true := by
  induction l generalizing s with
  | nil => simpa [State.bringIn] using hw
  | cons i l ih =>
    simp only [State.bringIn]
    split
    · simp
    · refine ih _ ?_
      simp [hw]

@[simp] theorem memWf_markLeaving (s : State) (d : Nat) : (s.markLeaving d).memWf = s.memWf := by
  simp [State.markLeaving]

@[simp] theorem nextWf_execTaskAdmission (d c t : Nat) (s : State) (hw : s.memWf = true) : NextWf (execTaskAdmission d c t s) := by
  unfold execTaskAdmission
  (repeat' split) <;> simp [hw]

@[simp] theorem nextWf_execTaskSwitch (d c : Nat) (s : State) (hw : s.memWf = true) : NextWf (execTaskSwitch d c s) := by
  simp only [execTaskSwitch]
  (repeat' split) <;> simp [hw]

@[simp] theorem memWf_beginShift (s : State) (d launch : Nat) : (s.beginShift d launch).memWf = s.memWf := by
  simp only [State.beginShift]
  split <;> simp

@[simp] theorem memWf_noteShift (s : State) (d launch : Nat) : (s.noteShift d launch).memWf = s.memWf := by
  simp [State.noteShift]

@[simp] theorem nextWf_execShiftBoundary (d launch : Nat) (s : State) (hw : s.memWf = true) : NextWf (execShiftBoundary d launch s) := by
  simp [execShiftBoundary, hw]

@[simp] theorem memWf_sendOut (s : State) (i : Nat) (hw : s.memWf = true) : (s.sendOut i).memWf = true := by
  simp [State.sendOut, hw]

@[simp] theorem nextWf_execGroupSwapOut (d launch group : Nat) (s : State) (hw : s.memWf = true) :
    NextWf (execGroupSwapOut d launch group s) := by
  simp only [execGroupSwapOut, nextWf_next]
  (repeat' split) <;> try simp [hw]
  next t ht =>
    exact memWf_foldl_of _ (fun s i h => memWf_sendOut s i h) _ _ ((memWf_placeFrames s _ t ht).trans hw)

@[simp] theorem nextWf_execGroupSwapIn (d launch group : Nat) (s : State) (hw : s.memWf = true) :
    NextWf (execGroupSwapIn d launch group s) := by
  simp only [execGroupSwapIn, nextWf_next]
  split
  · exact hw
  · split
    next t ht => exact (memWf_markLeaving t d).trans (memWf_bringIn s _ hw t ht)
    · exact hw

@[simp] theorem nextWf_execCrewDeadlock (launch crew : Nat) (s : State) (hw : s.memWf = true) :
    NextWf (execCrewDeadlock launch crew s) := by
  simp [execCrewDeadlock, hw]

@[simp] theorem memWf_breakBarrier (s : State) (l : List Nat) : (s.breakBarrier l).memWf = s.memWf := by
  simp [State.breakBarrier]

@[simp] theorem nextWf_execEpochDeadlock (n : Nat) (s : State) (hw : s.memWf = true) : NextWf (execEpochDeadlock n s) := by
  unfold execEpochDeadlock
  (repeat' split) <;> simp [hw]

/-! ### Walks, page faults and migration -/

@[simp] theorem memWf_fillAll (s : State) (die launch seg off level w : Nat) :
    (s.fillAll die launch seg off level w).memWf = s.memWf := by
  simp [State.fillAll]

@[simp] theorem memWf_cacheLeaf (s : State) (die launch seg off level w : Nat) :
    (s.cacheLeaf die launch seg off level w).memWf = s.memWf := by
  simp [State.cacheLeaf]

@[simp] theorem memWf_faultJobs (s : State) (w : Walk) (code : Nat) (hw : s.memWf = true) : (s.faultJobs w code).memWf = true :=
  memWf_foldl_of _ (fun s a h => by simp [h]) _ _ hw

@[simp] theorem memWf_poisonParked (s : State) (i : Nat) (w : Walk) : (s.poisonParked i w).memWf = s.memWf := by
  unfold State.poisonParked
  split <;> simp

@[simp] theorem memWf_poisonWaiters (s : State) (w : Walk) (hw : s.memWf = true) : (s.poisonWaiters w).memWf = true := by
  simp [State.poisonWaiters, hw]

@[simp] theorem nextWf_execWalkComplete (n : Nat) (s : State) (hw : s.memWf = true) : NextWf (execWalkComplete n s) := by
  simp only [execWalkComplete]
  (repeat' split) <;> simp [hw]

@[simp] theorem memWf_moveRanges (s : State) (src dst size : Nat) : (s.moveRanges src dst size).memWf = s.memWf := by
  simp [State.moveRanges]

@[simp] theorem memWf_noteArea (s : State) (d o : Nat) (bad : Bool) : (s.noteArea d o bad).memWf = s.memWf := by
  simp [State.noteArea]

@[simp] theorem memWf_noteLost (s t : State) (d : Nat) : (s.noteLost t d).memWf = t.memWf := by
  simp [State.noteLost]

@[simp] theorem memWf_noteAreas (s t : State) : (s.noteAreas t).memWf = t.memWf := by
  simp [State.noteAreas]

@[simp] theorem memWf_restore (s : State) (src dst n : Nat) (hw : s.memWf = true) : (s.restore src dst n).memWf = true := by
  simp [State.restore, hw]

@[simp] theorem nextWf_execPageFaultResolve (n : Nat) (entry : Word) (s : State) (hw : s.memWf = true) :
    NextWf (execPageFaultResolve n entry s) := by
  unfold execPageFaultResolve
  (repeat' split) <;> simp [hw]

@[simp] theorem memWf_revokeTask (s : State) (i frame size : Nat) (hw : s.memWf = true) : (s.revokeTask i frame size).memWf = true := by
  simp [State.revokeTask, hw]

@[simp] theorem memWf_revokeCore (s : State) (d c frame size : Nat) (hw : s.memWf = true) : (s.revokeCore d c frame size).memWf = true :=
  memWf_foldl_of _ (fun s a h => by simp [h]) _ _ hw

@[simp] theorem nextWf_execHandleRevoke (d c frame : Nat) (s : State) (hw : s.memWf = true) : NextWf (execHandleRevoke d c frame s) := by
  unfold execHandleRevoke
  split <;> simp [hw]

@[simp] theorem nextWf_execMigrateFrame (leaf dst : Nat) (s : State) (hw : s.memWf = true) : NextWf (execMigrateFrame leaf dst s) := by
  simp [execMigrateFrame, hw]

@[simp] theorem memWf_moveClaims (s : State) (f : Nat → Nat) : (s.moveClaims f).memWf = s.memWf := by
  simp [State.moveClaims]

@[simp] theorem memWf_moveHeld (s : State) (src dst size : Nat) : (s.moveHeld src dst size).memWf = s.memWf := by
  simp [State.moveHeld]

@[simp] theorem memWf_dropLines (s : State) (frame size : Nat) : (s.dropLines frame size).memWf = s.memWf := by
  simp [State.dropLines]

@[simp] theorem memWf_copyFrame (s : State) (src dst size : Nat) (hw : s.memWf = true) : (s.copyFrame src dst size).memWf = true :=
  memWf_memWrite s _ rfl rfl hw

@[simp] theorem memWf_endMigration (s : State) (m : Migration) (frame : Nat) (poison : Bool) (hw : s.memWf = true) :
    (s.endMigration m frame poison).memWf = true := by
  simp [State.endMigration, hw]

@[simp] theorem memWf_failFrame (size : Nat) (s : State) (f : Nat) : (State.failFrame size s f).memWf = s.memWf := by
  simp [State.failFrame]

@[simp] theorem memWf_abortMigration (s : State) (m : Migration) (line : Nat) (hw : s.memWf = true) :
    (s.abortMigration m line).memWf = true := by
  simp [State.abortMigration, hw]

@[simp] theorem nextWf_execMigrationCopy (n : Nat) (more : List Nat) (s : State) (hw : s.memWf = true) :
    NextWf (execMigrationCopy n more s) := by
  have failed (size : Nat) (l : List Nat) (t : State) : (l.foldl (State.failFrame size) t).memWf = t.memWf :=
    memWf_foldl _ (fun t a => memWf_failFrame size t a) l t
  simp only [execMigrationCopy, nextWf_next]
  (repeat' split) <;> simp [failed, hw]

@[simp] theorem nextWf_execPageOut (leaf save : Nat) (s : State) (hw : s.memWf = true) : NextWf (execPageOut leaf save s) := by
  have revoked (src size : Nat) : (allCores.foldl (fun s k => s.revokeCore k.1 k.2 src size) s).memWf = true :=
    memWf_foldl_of _ (fun s k h => memWf_revokeCore _ _ _ _ _ h) _ _ hw
  simp only [execPageOut, nextWf_next]
  (repeat' split) <;> simp [revoked, hw]

/-! ### The host link -/

@[simp] theorem memWf_modQueue (s : State) (q : Nat) (f : Queue → Queue) : (s.modQueue q f).memWf = s.memWf := by
  simp [State.modQueue]

@[simp] theorem memWf_queueError (s : State) (q : Nat) : (s.queueError q).memWf = s.memWf := by
  simp [State.queueError]

@[simp] theorem memWf_ringWrite (s : State) (q : Nat) (c : BitVec 512) (hw : s.memWf = true) : (s.ringWrite q c).memWf = true := by
  simp only [State.ringWrite, memWf_signal, memWf_modQueue]
  exact memWf_hostWrite s _ rfl rfl hw

@[simp] theorem memWf_flushRing (s : State) (q n : Nat) (hw : s.memWf = true) : (s.flushRing q n).memWf = true := by
  induction n generalizing s with
  | zero => exact hw
  | succ n ih =>
    simp only [State.flushRing]
    (repeat' split) <;> simp [ih, hw]

@[simp] theorem memWf_postCompletion (s : State) (q : Nat) (c : BitVec 512) (hw : s.memWf = true) :
    (s.postCompletion q c).memWf = true := by
  simp [State.postCompletion, hw]

@[simp] theorem memWf_writeQtail (s : State) (q : Nat) (v : Word) : (s.writeQtail q v).memWf = s.memWf := by
  simp [State.writeQtail]

@[simp] theorem memWf_writeQueueConfig (s : State) (q : Nat) (isSize : Bool) (v : Word) :
    (s.writeQueueConfig q isSize v).memWf = s.memWf := by
  simp [State.writeQueueConfig]

@[simp] theorem memWf_writeQstat (s : State) (q : Nat) (v : Word) : (s.writeQstat q v).memWf = s.memWf := by
  simp [State.writeQstat]

@[simp] theorem memWf_writeChead (s : State) (q : Nat) (v : Word) (hw : s.memWf = true) : (s.writeChead q v).memWf = true := by
  simp [State.writeChead, hw]

@[simp] theorem memWf_writeRing (s : State) (q : Nat) (isSize : Bool) (v : Word) : (s.writeRing q isSize v).memWf = s.memWf := by
  simp [State.writeRing]

@[simp] theorem memWf_writeQueue (s : State) (q o : Nat) (v : Word) (hw : s.memWf = true) : (s.writeQueue q o v).memWf = true := by
  unfold State.writeQueue
  split <;> simp [hw]

@[simp] theorem memWf_mbDone (s : State) (st : MStat) (result : Nat) : (s.mbDone st result).memWf = s.memWf := by
  simp [State.mbDone]

@[simp] theorem memWf_writeMbcmd (s : State) (v : Word) : (s.writeMbcmd v).memWf = s.memWf := by
  simp [State.writeMbcmd]

@[simp] theorem memWf_writeMbarg (s : State) (k : Fin 4) (v : Word) : (s.writeMbarg k v).memWf = s.memWf := by
  simp [State.writeMbarg]

@[simp] theorem memWf_writeMailbox (s : State) (o : Nat) (v : Word) : (s.writeMailbox o v).memWf = s.memWf := by
  unfold State.writeMailbox
  split <;> simp

@[simp] theorem memWf_writePeer (s : State) (n : Nat) (v : Word) : (s.writePeer n v).memWf = s.memWf := by
  simp [State.writePeer]

@[simp] theorem memWf_countPeer (s : State) (requester n : Nat) : (s.countPeer requester n).memWf = s.memWf := by
  simp [State.countPeer]

@[simp] theorem memWf_modStack (s : State) (d st : Nat) (f : StackRegs → StackRegs) : (s.modStack d st f).memWf = s.memWf := by
  simp [State.modStack]

@[simp] theorem memWf_writeStaging (s : State) (d st : Nat) (isLen : Bool) (v : Word) :
    (s.writeStaging d st isLen v).memWf = s.memWf := by
  simp [State.writeStaging]

@[simp] theorem memWf_writeClaimArea (s : State) (d : Nat) (isLen : Bool) (v : Word) : (s.writeClaimArea d isLen v).memWf = s.memWf := by
  simp [State.writeClaimArea]

@[simp] theorem memWf_writeWindow (s : State) (d st w : Nat) (isLen : Bool) (v : Word) :
    (s.writeWindow d st w isLen v).memWf = s.memWf := by
  simp [State.writeWindow]

@[simp] theorem memWf_writeLocked (s : State) (d o : Nat) (f : Die → Die) : (s.writeLocked d o f).memWf = s.memWf := by
  simp [State.writeLocked]

@[simp] theorem memWf_writeDie (s : State) (d o : Nat) (v : Word) : (s.writeDie d o v).memWf = s.memWf := by
  unfold State.writeDie
  (repeat' split) <;> simp

@[simp] theorem memWf_writeLog (s : State) (o : Nat) (v : Word) : (s.writeLog o v).memWf = s.memWf := by
  unfold State.writeLog
  split <;> simp

@[simp] theorem memWf_writeBar0 (s : State) (off : Nat) (v : Word) (hw : s.memWf = true) : (s.writeBar0 off v).memWf = true := by
  simp [State.writeBar0, hw]

@[simp] theorem memWf_dropBar2 (s : State) (off : Nat) : (s.dropBar2 off).memWf = s.memWf := by
  simp [State.dropBar2]

@[simp] theorem memWf_bar2Put (s : State) (off pa n v requester : Nat) (hw : s.memWf = true) :
    (s.bar2Put off pa n v requester).memWf = true := by
  simp [State.bar2Put, hw]

@[simp] theorem memWf_bar2Do (s : State) (x : Bar2Op) (hw : s.memWf = true) : (s.bar2Do x).memWf = true := by
  simp only [State.bar2Do]
  split
  · exact (memWf_noteAreas _ _).trans (memWf_foldl_of _ (fun s p h => by simp [h]) _ _ hw)
  · split <;> simp [hw]

@[simp] theorem memWf_bar2Take (s : State) (x : Bar2Op) (hw : s.memWf = true) : (s.bar2Take x).memWf = true := by
  simp [State.bar2Take, hw]

@[simp] theorem nextWf_execBar2Read (off len : Nat) (s : State) (hw : s.memWf = true) : NextWf (execBar2Read off len s) := by
  simp [execBar2Read, hw]

@[simp] theorem nextWf_execBar2Write (off : Nat) (bytes : List Byte) (requester : Nat) (s : State) (hw : s.memWf = true) :
    NextWf (execBar2Write off bytes requester s) := by
  simp [execBar2Write, hw]

@[simp] theorem memWf_bar2Step (s : State) (n : Nat) (hw : s.memWf = true) : (s.bar2Step n).memWf = true := by
  unfold State.bar2Step
  split <;> simp [hw]

@[simp] theorem nextWf_execQtailWrite (q : Nat) (v : Word) (s : State) (hw : s.memWf = true) : NextWf (execQtailWrite q v s) := by
  simp [execQtailWrite, hw]

@[simp] theorem nextWf_execQstatClear (q : Nat) (v : Word) (s : State) (hw : s.memWf = true) : NextWf (execQstatClear q v s) := by
  simp [execQstatClear, hw]

@[simp] theorem nextWf_execCheadWrite (q : Nat) (v : Word) (s : State) (hw : s.memWf = true) : NextWf (execCheadWrite q v s) := by
  simp [execCheadWrite, hw]

@[simp] theorem nextWf_execQueueConfigWrite (q : Nat) (isSize : Bool) (v : Word) (s : State) (hw : s.memWf = true) :
    NextWf (execQueueConfigWrite q isSize v s) := by
  simp [execQueueConfigWrite, hw]

@[simp] theorem nextWf_execPeeridWrite (n : Nat) (v : Word) (s : State) (hw : s.memWf = true) : NextWf (execPeeridWrite n v s) := by
  simp [execPeeridWrite, hw]

@[simp] theorem nextWf_execStagingConfigWrite (d st : Nat) (isLen : Bool) (v : Word) (s : State) (hw : s.memWf = true) :
    NextWf (execStagingConfigWrite d st isLen v s) := by
  simp [execStagingConfigWrite, hw]

@[simp] theorem nextWf_execClaimAreaWrite (d : Nat) (isLen : Bool) (v : Word) (s : State) (hw : s.memWf = true) :
    NextWf (execClaimAreaWrite d isLen v s) := by
  simp [execClaimAreaWrite, hw]

@[simp] theorem nextWf_execRegisterWrite (off : Nat) (v : Word) (s : State) (hw : s.memWf = true) : NextWf (execRegisterWrite off v s) := by
  simp [execRegisterWrite, hw]

/-! ### Submission -/

@[simp] theorem memWf_acceptLaunch (s : State) (r q : Nat) : (s.acceptLaunch r q).memWf = s.memWf := by
  simp [State.acceptLaunch]

theorem memWf_submit (s : State) (r q : Nat) : Answers (·.memWf = s.memWf) (s.submit r q) := by
  simp [State.submit]

theorem memWf_takeFrom (s : State) (q : Nat) (hw : s.memWf = true) : ∀ t ∈ s.takeFrom q, t.memWf = true := by
  unfold State.takeFrom
  extract_lets a bad r take
  have taken (u : State) : (take u).memWf = u.memWf := by simp [take]
  have sub := memWf_submit s r q
  clear_value take r
  split
  next t ht =>
    have ht : t.memWf = true := (sub t ht).trans hw
    split <;> simp [taken, ht]
  · simp [taken, hw]

@[simp] theorem memWf_scanQueues (s : State) (q n : Nat) (hw : s.memWf = true) : (s.scanQueues q n).memWf = true := by
  induction n generalizing q with
  | zero => exact hw
  | succ n ih =>
    unfold State.scanQueues
    split
    next t ht =>
      split at ht
      · exact memWf_takeFrom s q hw t ht
      · cases ht
    · exact ih _

@[simp] theorem nextWf_execRecordTake (s : State) (hw : s.memWf = true) : NextWf (execRecordTake s) := by
  simp [execRecordTake, hw]

/-! ### Start, end and retirement of launches -/

@[simp] theorem memWf_invalidateDie (s : State) (d : Nat) : (s.invalidateDie d).memWf = s.memWf := by
  simp [State.invalidateDie]

@[simp] theorem memWf_fillDie (s : State) (d : Nat) : (s.fillDie d).memWf = s.memWf := by
  simp [State.fillDie]

@[simp] theorem memWf_gangReady (s : State) (l : Launch) : (s.gangReady l).memWf = s.memWf := by
  unfold State.gangReady
  split <;> simp

@[simp] theorem nextWf_execLaunchStart (launch : Nat) (s : State) (hw : s.memWf = true) : NextWf (execLaunchStart launch s) := by
  simp [execLaunchStart, hw]

@[simp] theorem memWf_retireStake (s : State) (cell : Nat) (hw : s.memWf = true) : (s.retireStake cell).memWf = true := by
  simp [State.retireStake, hw]

@[simp] theorem memWf_retireStakes (s : State) (n : Nat) (hw : s.memWf = true) : (s.retireStakes n).memWf = true :=
  memWf_foldl_of _ (fun s a h => by simp [h]) _ _ hw

@[simp] theorem memWf_mergeTile (s : State) (launch seg tile frame : Nat) (hw : s.memWf = true) :
    (s.mergeTile launch seg tile frame).memWf = true := by
  refine memWf_foldl_of _ (fun s k h => ?_) _ _ hw
  split <;> simp [h]

@[simp] theorem memWf_mergeTiles (s : State) (n : Nat) (hw : s.memWf = true) : (s.mergeTiles n).memWf = true :=
  memWf_foldl_of _ (fun s a h => by simp [h]) _ _ hw

@[simp] theorem memWf_complete (s : State) (n kind : Nat) (hw : s.memWf = true) : (s.complete n kind).memWf = true := by
  simp [State.complete, hw]

@[simp] theorem memWf_endLaunch (s : State) (n kind : Nat) (hw : s.memWf = true) : (s.endLaunch n kind).memWf = true := by
  simp [State.endLaunch, hw]

@[simp] theorem memWf_retireLaunch (s : State) (n : Nat) (hw : s.memWf = true) : (s.retireLaunch n).memWf = true := by
  have ended (l : List Nat) (f : State → Nat → State) (h : ∀ s i, s.memWf = true → (f s i).memWf = true) (u : State)
    (hu : u.memWf = true) : (l.foldl f u).memWf = true := memWf_foldl_of f h l u hu
  simp only [State.retireLaunch]
  split
  · refine memWf_retireStakes _ _ (memWf_foldl_of _ (fun s i h => ?_) _ _ (by simpa using hw))
    (repeat' split) <;> simp [h]
  · refine memWf_foldl_of _ (fun s i h => ?_) _ _ (by simpa using hw)
    (repeat' split) <;> simp [h]

@[simp] theorem nextWf_execLaunchCompletion (launch : Nat) (s : State) (hw : s.memWf = true) : NextWf (execLaunchCompletion launch s) := by
  simp [execLaunchCompletion, hw]

@[simp] theorem nextWf_execRetire (die launch : Word) (s : State) (hw : s.memWf = true) : NextWf (execRetire die launch s) := by
  unfold execRetire
  (repeat' split) <;> simp [hw]

@[simp] theorem nextWf_execMbUnstake (addr : Word) (s : State) (hw : s.memWf = true) : NextWf (execMbUnstake addr s) := by
  simp [execMbUnstake, hw]

@[simp] theorem nextWf_execUnstamp (idx : Word) (s : State) (hw : s.memWf = true) : NextWf (execUnstamp idx s) := by
  simp [execUnstamp, hw]

@[simp] theorem nextWf_execUnstampComplete (idx : Nat) (s : State) (hw : s.memWf = true) : NextWf (execUnstampComplete idx s) := by
  simp [execUnstampComplete, hw]

/-! ### Resets, links, failures and heat -/

@[simp] theorem memWf_coldReset (s : State) (hw : s.memWf = true) : s.coldReset.memWf = true :=
  (memWf_iff _).2 ⟨rfl, ((memWf_iff s).1 hw).2⟩

@[simp] theorem nextWf_execColdReset (s : State) (hw : s.memWf = true) : NextWf (execColdReset s) := by
  simp [execColdReset, hw]

@[simp] theorem nextWf_execWarmReset (s : State) (hw : s.memWf = true) : NextWf (execWarmReset s) := by
  simp [execWarmReset, hw]

@[simp] theorem memWf_copyFlash (s : State) : s.copyFlash.memWf = s.memWf :=
  memWf_foldl State.ringEntry memWf_ringEntry _ _

@[simp] theorem nextWf_execFirmwareBoot (d : Nat) (rwl : List (Nat × Word)) (s : State) (hw : s.memWf = true) :
    NextWf (execFirmwareBoot d rwl s) := by
  simp [execFirmwareBoot, hw]

@[simp] theorem nextWf_execTimeSyncMessage (d : Nat) (ppm : Int) (unc : Word) (s : State) (hw : s.memWf = true) :
    NextWf (execTimeSyncMessage d ppm unc s) := by
  simp [execTimeSyncMessage, hw]

@[simp] theorem memWf_modLink (s : State) (k : Nat) (f : Link → Link) : (s.modLink k f).memWf = s.memWf := by
  simp [State.modLink]

@[simp] theorem memWf_closeSecond (s : State) (k : Nat) : (s.closeSecond k).memWf = s.memWf := by
  simp [State.closeSecond]

@[simp] theorem memWf_closeSeconds (s : State) : s.closeSeconds.memWf = s.memWf := by
  simp [State.closeSeconds]

@[simp] theorem nextWf_execFlitCrcError (link : Nat) (again : Bool) (s : State) (hw : s.memWf = true) :
    NextWf (execFlitCrcError link again s) := by
  simp [execFlitCrcError, hw]

@[simp] theorem memWf_retireDie (s : State) (d : Nat) (hw : s.memWf = true) : (s.retireDie d).memWf = true :=
  memWf_foldl_of _ (fun s a h => by simp [h]) _ _ hw

@[simp] theorem nextWf_execLinkRetrain (link : Nat) (s : State) (hw : s.memWf = true) : NextWf (execLinkRetrain link s) := by
  simp only [execLinkRetrain, nextWf_next]
  split
  · exact hw
  · split
    · simp [hw]
    · exact memWf_foldl_of _ (fun s d h => memWf_retireDie s d h) _ _ (by simp [hw])

@[simp] theorem nextWf_execLinkRetrainComplete (link : Nat) (s : State) (hw : s.memWf = true) :
    NextWf (execLinkRetrainComplete link s) := by
  simp [execLinkRetrainComplete, hw]

@[simp] theorem nextWf_execPatrolScrub (line : Nat) (f : ScrubFinding) (s : State) (hw : s.memWf = true) :
    NextWf (execPatrolScrub line f s) := by
  unfold execPatrolScrub
  split <;> simp [hw]

@[simp] theorem memWf_spoil (s : State) (code unit info pa : Nat) : (s.spoil code unit info pa).memWf = s.memWf := by
  simp [State.spoil]

@[simp] theorem memWf_upset (s : State) (unit : Upset) (pa : Nat) (fixed : Bool) : (s.upset unit pa fixed).memWf = s.memWf := by
  unfold State.upset
  (repeat' split) <;> simp

@[simp] theorem nextWf_execHbmRefresh (_stack _channel : Nat) (s : State) (hw : s.memWf = true) :
    NextWf (execHbmRefresh _stack _channel s) := by
  simp [execHbmRefresh, hw]

@[simp] theorem nextWf_execDieContainment (d structure_ : Nat) (s : State) (hw : s.memWf = true) :
    NextWf (execDieContainment d structure_ s) := by
  simp [execDieContainment, hw]

@[simp] theorem memWf_stopModule (s : State) (d : Nat) : (s.stopModule d).memWf = s.memWf := by
  simp [State.stopModule]

@[simp] theorem nextWf_execWatchdogFailure (d : Nat) (s : State) (hw : s.memWf = true) : NextWf (execWatchdogFailure d s) := by
  simp [execWatchdogFailure, hw]

@[simp] theorem memWf_moduleFault (s : State) (d : Nat) : (s.moduleFault d).memWf = s.memWf := by
  simp [State.moduleFault]

@[simp] theorem nextWf_execHostLinkLoss (s : State) (hw : s.memWf = true) : NextWf (execHostLinkLoss s) := by
  simp [execHostLinkLoss, hw]

@[simp] theorem memWf_powerOff (s : State) (d : Nat) (hw : s.memWf = true) : (s.powerOff d).memWf = true := by
  unfold State.powerOff
  rw [memWf_mk]
  exact memWf_coldReset _ ((memWf_logEvent s _).trans hw)

@[simp] theorem nextWf_execCoolantFlowLost (s : State) (hw : s.memWf = true) : NextWf (execCoolantFlowLost s) := by
  simp [execCoolantFlowLost, hw]

@[simp] theorem nextWf_execThermalSample (d tj t0 t1 mw : Nat) (s : State) (hw : s.memWf = true) :
    NextWf (execThermalSample d tj t0 t1 mw s) := by
  simp [execThermalSample, hw]

@[simp] theorem memWf_setPowerCap (s : State) (d mw : Nat) : (s.setPowerCap d mw).memWf = s.memWf := by
  simp [State.setPowerCap]

/-! ### Gangs -/

@[simp] theorem memWf_modGang (s : State) (g : Nat) (f : Gang → Gang) : (s.modGang g f).memWf = s.memWf := by
  simp [State.modGang]

@[simp] theorem memWf_setPhase (s : State) (g d : Nat) (p : GPhase) : (s.setPhase g d p).memWf = s.memWf := by
  simp [State.setPhase]

@[simp] theorem memWf_noteGang (s : State) (g : Nat) (f : Gang → Gang) (hw : s.memWf = true) : (s.noteGang g f).memWf = true := by
  simp only [State.noteGang]
  split <;> simp [hw]

@[simp] theorem memWf_releaseGang (s : State) (x : Gang) (d : Nat) : (s.releaseGang x d).memWf = s.memWf := by
  simp [State.releaseGang]

@[simp] theorem memWf_failGang (s : State) (x : Gang) : (s.failGang x).memWf = s.memWf := by
  simp [State.failGang]

@[simp] theorem memWf_sendCancel (s : State) (g cause origin : Nat) : (s.sendCancel g cause origin).memWf = s.memWf := by
  simp [State.sendCancel]

@[simp] theorem memWf_cancelOpen (s : State) (g cause : Nat) : (s.cancelOpen g cause).memWf = s.memWf := by
  simp [State.cancelOpen]

@[simp] theorem memWf_checkReady (s : State) (g : Nat) (x : Gang) : (s.checkReady g x).memWf = s.memWf := by
  simp [State.checkReady]

@[simp] theorem nextWf_execReady (gang member : Nat) (unc : Word) (digest : BitVec 256) (s : State) (hw : s.memWf = true) :
    NextWf (execReady gang member unc digest s) := by
  simp only [execReady]
  (repeat' split) <;> simp [hw]

@[simp] theorem nextWf_execArm (gang die : Nat) (s : State) (hw : s.memWf = true) : NextWf (execArm gang die s) := by
  unfold execArm
  split <;> simp [hw]

@[simp] theorem nextWf_execGangReserveComplete (gang die : Nat) (s : State) (hw : s.memWf = true) :
    NextWf (execGangReserveComplete gang die s) := by
  unfold execGangReserveComplete
  split <;> simp [hw]

@[simp] theorem nextWf_execAck (gang member : Nat) (s : State) (hw : s.memWf = true) : NextWf (execAck gang member s) := by
  unfold execAck
  (repeat' split) <;> simp [hw]

@[simp] theorem nextWf_execGangGuardExpiry (gang : Nat) (s : State) (hw : s.memWf = true) : NextWf (execGangGuardExpiry gang s) := by
  unfold execGangGuardExpiry
  (repeat' split) <;> simp [hw]

@[simp] theorem nextWf_execCommit (gang die : Nat) (s : State) (hw : s.memWf = true) : NextWf (execCommit gang die s) := by
  unfold execCommit
  split <;> simp [hw]

@[simp] theorem nextWf_execCancel (gang die cause origin : Nat) (s : State) (hw : s.memWf = true) :
    NextWf (execCancel gang die cause origin s) := by
  simp only [execCancel]
  (repeat' split) <;> simp [hw]

@[simp] theorem memWf_startGang (s : State) (g d t : Nat) (hw : s.memWf = true) : (s.startGang g d t).memWf = true := by
  simp [State.startGang, hw]

@[simp] theorem nextWf_execGangStart (gang die : Nat) (s : State) (hw : s.memWf = true) : NextWf (execGangStart gang die s) := by
  unfold execGangStart
  split <;> simp [hw]

@[simp] theorem memWf_startDue (s0 s : State) (hw : s.memWf = true) : (s0.startDue s).memWf = true := by
  refine memWf_foldl_of _ (fun s g h => memWf_foldl_of _ (fun s d h => ?_) _ _ h) _ _ hw
  split <;> simp [h]

@[simp] theorem nextWf_execGangLateExpiry (gang die : Nat) (s : State) (hw : s.memWf = true) : NextWf (execGangLateExpiry gang die s) := by
  unfold execGangLateExpiry
  split <;> simp [hw]

@[simp] theorem nextWf_execStarted (gang member : Nat) (s : State) (hw : s.memWf = true) : NextWf (execStarted gang member s) := by
  simp only [execStarted]
  (repeat' split) <;> simp [hw]

@[simp] theorem nextWf_execConfirm (gang die : Nat) (s : State) (hw : s.memWf = true) : NextWf (execConfirm gang die s) := by
  unfold execConfirm
  split <;> simp [hw]

@[simp] theorem nextWf_execGangAbort (gang cause key origin : Nat) (s : State) (hw : s.memWf = true) :
    NextWf (execGangAbort gang cause key origin s) := by
  unfold execGangAbort
  split <;> simp [hw]

@[simp] theorem nextWf_execFreeze (gang die : Nat) (s : State) (hw : s.memWf = true) : NextWf (execFreeze gang die s) := by
  unfold execFreeze
  split <;> simp [hw]

@[simp] theorem nextWf_execFreezeReply (gang member : Nat) (step : Word) (s : State) (hw : s.memWf = true) :
    NextWf (execFreezeReply gang member step s) := by
  simp only [execFreezeReply]
  (repeat' split) <;> simp [hw]

@[simp] theorem memWf_takeToken (s : State) (g d step cause origin : Nat) (x : Gang) (hw : s.memWf = true) :
    (s.takeToken g d step cause origin x).memWf = true := by
  simp [State.takeToken, hw]

@[simp] theorem nextWf_execToken (gang die : Nat) (step : Word) (cause origin : Nat) (s : State) (hw : s.memWf = true) :
    NextWf (execToken gang die step cause origin s) := by
  unfold execToken
  (repeat' split) <;> simp [hw]

/-! ### The loader -/

@[simp] theorem nextWf_execCertify (base len list count : Word) (s : State) (hw : s.memWf = true) :
    NextWf (execCertify base len list count s) := by
  simp only [execCertify]
  (repeat' split) <;> simp [hw]

@[simp] theorem memWf_hostPut (s : State) (a : Nat) (l : List Byte) (hw : s.memWf = true) : (s.hostPut a l).memWf = true :=
  memWf_hostWrite s _ rfl rfl hw

@[simp] theorem nextWf_execAttest (report nonceAddr : Word) (salt : BitVec 256) (s : State) (hw : s.memWf = true) :
    NextWf (execAttest report nonceAddr salt s) := by
  simp [execAttest, hw]

@[simp] theorem nextWf_execGetcert (addr len : Word) (s : State) (hw : s.memWf = true) : NextWf (execGetcert addr len s) := by
  simp [execGetcert, hw]

@[simp] theorem nextWf_execFwupdate (addr len : Word) (s : State) (hw : s.memWf = true) : NextWf (execFwupdate addr len s) := by
  simp [execFwupdate, hw]

/-! ### Moves -/

@[simp] theorem memWf_elapse (s : State) (n : Nat) : (s.elapse n).memWf = s.memWf := by
  simp [State.elapse]

@[simp] theorem memWf_ticks (s : State) (n : Nat) : (s.ticks n).memWf = s.memWf := by
  simp [State.ticks]

@[simp] theorem memWf_message (s : State) (m : Move) (hw : s.memWf = true) : (s.message m).memWf = true := by
  unfold State.message
  split <;> simp [hw]

@[simp] theorem memWf_passTime (s : State) (n : Nat) (hw : s.memWf = true) : (s.passTime n).memWf = true := by
  simp [State.passTime, hw]

/-! ### Steps -/

theorem nextWf_execCw (x y : ShortForm) (s : State) (hw : s.memWf = true) : NextWf (execCw x y s) := by
  unfold execCw
  extract_lets l
  have run := memWf_runOps s (goodOps l) s none hw hw (by simp)
  split
  · simp [hw]
  · split
    next ht => rw [ht] at run; exact (nextWf_next _).2 run
    next ht => rw [ht] at run; exact nextWf_resolve _ _ run (answers_error _ _)

/-- An encoded instruction other than a short pair is its effect, resolved (R338). -/
theorem exec_eq_resolve (i : Instr) (s : State) (he : isEvent i = false) (hc : ∀ x y, i ≠ .cw x y) :
    exec i s = resolve s (actOf i s) := by
  cases i <;> cases he
  case cw x y => exact absurd rfl (hc x y)
  all_goals rfl

/-- Every event keeps the canonical form. -/
theorem nextWf_event (i : Instr) (s : State) (he : isEvent i = true) (hw : s.memWf = true) : NextWf (exec i s) := by
  cases i <;> cases he
  all_goals simp [exec, hw]

theorem nextWf_exec (i : Instr) (s : State) (hw : s.memWf = true) : NextWf (exec i s) := by
  cases he : isEvent i with
  | true => exact nextWf_event i s he hw
  | false =>
    by_cases hc : ∃ x y, i = .cw x y
    · obtain ⟨x, y, rfl⟩ := hc
      exact nextWf_execCw x y s hw
    · rw [exec_eq_resolve i s he fun x y h => hc ⟨x, y, h⟩]
      exact nextWf_resolve s _ hw (memWf_actOf i s hw)

theorem nextWf_coreMove (s : State) (d c : Nat) (hw : s.memWf = true) : NextWf (s.coreMove d c) := by
  unfold State.coreMove
  extract_lets u
  have hu : u.memWf = true := (memWf_finishTasks s d c).trans hw
  clear_value u
  split
  · exact (nextWf_next u).2 hu
  next i _ =>
    extract_lets t v
    have hv : v.memWf = true := (memWf_noteYield u i).trans hu
    clear_value v
    split
    · simp [hu]
    · split
      · exact (nextWf_next u).2 hu
      · split
        · simp [hv]
        · split
          next w h => exact (nextWf_next w).2 (memWf_takeAsync v i hv w h)
          · split
            · simp [hv]
            · split
              · exact (nextWf_next v).2 hv
              · exact nextWf_issueBundle ((v.restartJob i).present i d c) _ (by simpa using hv)

theorem nextWf_andStart (r : Host.Outcome State Fault Refusal) (hr : NextWf r) : NextWf (andStart r) := by
  cases r with
  | next t => simpa [andStart] using memWf_startDue t t ((nextWf_next t).1 hr)
  | fault f => exact nextWf_fault f
  | refused x => exact nextWf_refused x

theorem nextWf_move (s : State) (m : Move) (hw : s.memWf = true) : NextWf (s.move m) := by
  unfold State.move
  split
  · exact nextWf_coreMove s _ _ hw
  · split
    · exact nextWf_andStart _ (nextWf_exec _ s hw)
    · exact nextWf_fault _
  all_goals simp [hw]

theorem nextWf_moveNext (s : State) (hw : s.memWf = true) : NextWf s.moveNext := by
  unfold State.moveNext
  split
  · split
    · exact nextWf_fault _
    · exact nextWf_move s _ hw
  · split
    · exact nextWf_fault _
    · exact nextWf_move _ _ hw

/-- Settles O54: every byte that a step stores goes through a write that keeps the canonical form. -/
theorem stepKeepsMemoryCanonical : Obligations.StepKeepsMemoryCanonical :=
  fun s t hw ht => nextWf_moveNext s hw t ht

end Sys2Proof.Machine
end

section
/-! SUPPORT. Memory read byte by byte (R7), and what a write of bytes at their home leaves (R422). -/

set_option Elab.async false

namespace Sys2Proof.Machine

/-- The cell of an address is the only one that counts for its byte. -/
theorem sum_cells_at (m : Mem) (a : Nat) (hm : m.Pairwise fun c d => c.1 < d.1) :
    (m.map fun c => if c.1 = a then c.2.toNat else 0).sum = (memByte m a).toNat := by
  induction m with
  | nil => rfl
  | cons c m ih =>
    obtain ⟨k, v⟩ := c
    obtain ⟨hlt, hm⟩ := List.pairwise_cons.1 hm
    by_cases hk : k = a
    · have apart : ∀ x ∈ m.map (fun c => if c.1 = a then c.2.toNat else 0), x = 0 := by
        intro x hx
        obtain ⟨c, hc, rfl⟩ := List.mem_map.1 hx
        exact if_neg (hk ▸ (hlt c hc).ne')
      simp [memByte, hk, List.sum_eq_zero apart]
    · simp [memByte, hk, ih hm]

/-- A number read is its lowest byte and what follows (R7). -/
theorem memRead_succ (m : Mem) (a k : Nat) (hm : Mem.wf m = true) :
    memRead m a (k + 1) = (memByte m a).toNat + 2 ^ 8 * memRead m (a + 1) k := by
  have cell (c : Host.Cell) : (if a ≤ c.1 ∧ c.1 < a + (k + 1) then c.2.toNat * 2 ^ (8 * (c.1 - a)) else 0)
      = (if c.1 = a then c.2.toNat else 0)
        + 2 ^ 8 * (if a + 1 ≤ c.1 ∧ c.1 < a + 1 + k then c.2.toNat * 2 ^ (8 * (c.1 - (a + 1))) else 0) := by
    by_cases h0 : c.1 = a
    · simp [h0]
    · by_cases h1 : a + 1 ≤ c.1 ∧ c.1 < a + 1 + k
      · have e : 8 * (c.1 - a) = 8 + 8 * (c.1 - (a + 1)) := by omega
        rw [if_pos (by omega), if_neg h0, if_pos h1, e, pow_add]
        ring
      · rw [if_neg (by omega), if_neg h0, if_neg h1]
        rfl
  rw [memRead_sum, memRead_sum, ← sum_cells_at m a ((wf_iff m).1 hm).1, ← List.sum_map_mul_left, ← List.sum_map_add]
  exact congrArg List.sum (List.map_congr_left fun c _ => cell c)

/-- The poison that a write leaves: the units that it does not write whole (R422). -/
theorem mem_poison_putBytes (s : State) (pa n v u : Nat) :
    u ∈ (s.putBytes pa n v).poison ↔ u ∈ s.poison ∧ coversUnit pa n u = false := by
  simp [State.putBytes]

/-- Settles O55, with the laws of byte memory: a write is read back, bytes apart from it stand, and a read is made of its bytes. -/
theorem writeThenRead : Obligations.WriteThenRead := by
  intro s pa n v hw
  exact ⟨memRead_memWrite_same _ _ _ _, memWf_putBytes s pa n v hw, memByte_memWrite _ _ _ _,
    fun a k => memRead_memWrite_apart _ _ _ _ _ _, mem_poison_putBytes s pa n v, fun a k => memRead_succ _ _ _ ((memWf_iff s).1 hw).1⟩

end Sys2Proof.Machine
end

section
/-! SUPPORT. What an entry of the error log leaves alone (R427 to R429), and reads of the host's queues, links and dies after their updates. -/

set_option Elab.async false

namespace Sys2Proof.Machine

/-! ### Tables -/

theorem smGet_map {α β : Type} (f : α → β) (d : α) (m : SMap α) (k : Nat) :
    smGet (f d) (m.map fun e => (e.1, f e.2)) k = f (smGet d m k) := by
  induction m with
  | nil => rfl
  | cons e m ih =>
    obtain ⟨k', v⟩ := e
    simp only [List.map_cons, smGet, ih]
    split <;> rfl

theorem mem_setInsert (l : List Nat) (k u : Nat) : u ∈ setInsert l k ↔ u = k ∨ u ∈ l := by
  induction l with
  | nil => simp [setInsert]
  | cons x l ih =>
    simp only [setInsert]
    split
    · simp
    · split
      next h => simp [h]
      · simp [ih, or_left_comm]

@[simp] theorem State.queue_modQueue_same (s : State) (q : Nat) (f : Queue → Queue) : (s.modQueue q f).queue q = f (s.queue q) :=
  smGet_smPut_same _ _ _ _

@[simp] theorem State.queue_signal (s : State) (v q : Nat) : (s.signal v).queue q = s.queue q := rfl

@[simp] theorem State.link_modLink_same (s : State) (k : Nat) (f : Link → Link) : (s.modLink k f).link k = f (s.link k) :=
  smGet_smPut_same _ _ _ _

theorem State.die_modDie (s : State) (d k : Nat) (f : Die → Die) : (s.modDie d f).die k = if k = d then f (s.die k) else s.die k := by
  split
  next h => subst h; exact State.die_modDie_same s k f
  next h => exact State.die_setDie_other s d k _ h

@[simp] theorem State.stack_modStack_same (s : State) (d st : Nat) (f : StackRegs → StackRegs) :
    ((s.modStack d st f).die d).stack st = f ((s.die d).stack st) := by
  rw [State.modStack, State.die_modDie_same]
  exact smGet_smPut_same _ _ _ _

/-! ### Entries -/

/-- A state with another log and another list of vectors. -/
def State.withLog (s : State) (l : ErrLog) (v : List Nat) : State := { s with log := l, host := { s.host with msix := v } }

@[simp] theorem State.die_withLog (s : State) (l : ErrLog) (v : List Nat) (d : Nat) : (s.withLog l v).die d = s.die d := rfl

/-- An entry of the ring changes the log and the list of vectors. -/
theorem State.ringEntry_eq (s : State) (w : BitVec 512) : ∃ l v, s.ringEntry w = s.withLog l v := by
  simp only [State.ringEntry, State.signal]
  split
  · exact ⟨_, _, rfl⟩
  · split <;> exact ⟨_, _, rfl⟩

/-- An entry changes the log, the list of vectors, and the count of entries of its die. -/
theorem State.writeEntry_eq (s : State) (e : LogEvent) :
    ∃ l v, s.writeEntry e = (s.modDie e.die fun x => { x with seqNo := x.seqNo + 1 }).withLog l v := by
  unfold State.writeEntry
  extract_lets w u _ t
  obtain ⟨l, v, h⟩ := t.ringEntry_eq w
  refine ⟨l, v, h.trans ?_⟩
  simp only [t]
  split <;> rfl

/-- So does an event that is counted and entered. -/
theorem State.logEvent_eq (s : State) (e : LogEvent) :
    ∃ l v, s.logEvent e = (s.modDie e.die fun x => { x with seqNo := x.seqNo + 1 }).withLog l v := by
  obtain ⟨l, v, h⟩ := State.writeEntry_eq (s.countEvent e.code e.die) e
  exact ⟨l, v, h⟩

section Entry

variable (s : State) (e : LogEvent)

@[simp] theorem State.logEvent_mem : (s.logEvent e).mem = s.mem := by obtain ⟨l, v, h⟩ := s.logEvent_eq e; rw [h]; rfl
@[simp] theorem State.logEvent_tasks : (s.logEvent e).tasks = s.tasks := by obtain ⟨l, v, h⟩ := s.logEvent_eq e; rw [h]; rfl
@[simp] theorem State.logEvent_launches : (s.logEvent e).launches = s.launches := by obtain ⟨l, v, h⟩ := s.logEvent_eq e; rw [h]; rfl
@[simp] theorem State.logEvent_links : (s.logEvent e).links = s.links := by obtain ⟨l, v, h⟩ := s.logEvent_eq e; rw [h]; rfl
@[simp] theorem State.logEvent_poison : (s.logEvent e).poison = s.poison := by obtain ⟨l, v, h⟩ := s.logEvent_eq e; rw [h]; rfl
@[simp] theorem State.logEvent_moduleDown : (s.logEvent e).moduleDown = s.moduleDown := by obtain ⟨l, v, h⟩ := s.logEvent_eq e; rw [h]; rfl
@[simp] theorem State.logEvent_queue (q : Nat) : (s.logEvent e).queue q = s.queue q := by obtain ⟨l, v, h⟩ := s.logEvent_eq e; rw [h]; rfl
@[simp] theorem State.logEvent_link (k : Nat) : (s.logEvent e).link k = s.link k := by obtain ⟨l, v, h⟩ := s.logEvent_eq e; rw [h]; rfl
@[simp] theorem State.writeEntry_mem : (s.writeEntry e).mem = s.mem := by obtain ⟨l, v, h⟩ := s.writeEntry_eq e; rw [h]; rfl
@[simp] theorem State.writeEntry_tasks : (s.writeEntry e).tasks = s.tasks := by obtain ⟨l, v, h⟩ := s.writeEntry_eq e; rw [h]; rfl
@[simp] theorem State.writeEntry_moduleDown : (s.writeEntry e).moduleDown = s.moduleDown := by obtain ⟨l, v, h⟩ := s.writeEntry_eq e; rw [h]; rfl

/-- Of a die, an entry changes the count of its entries alone. -/
theorem State.die_logEvent (d : Nat) : ∃ n, (s.logEvent e).die d = { s.die d with seqNo := n } := by
  obtain ⟨l, v, h⟩ := s.logEvent_eq e
  rw [h, State.die_withLog, State.die_modDie]
  split
  · exact ⟨_, rfl⟩
  · exact ⟨(s.die d).seqNo, rfl⟩

@[simp] theorem State.logEvent_stack (d st : Nat) : ((s.logEvent e).die d).stack st = (s.die d).stack st := by
  obtain ⟨n, h⟩ := s.die_logEvent e d; rw [h]; rfl
@[simp] theorem State.logEvent_clBase (d : Nat) : ((s.logEvent e).die d).clBase = (s.die d).clBase := by
  obtain ⟨n, h⟩ := s.die_logEvent e d; rw [h]
@[simp] theorem State.logEvent_clLen (d : Nat) : ((s.logEvent e).die d).clLen = (s.die d).clLen := by
  obtain ⟨n, h⟩ := s.die_logEvent e d; rw [h]
@[simp] theorem State.logEvent_gate (d : Nat) : ((s.logEvent e).die d).gate = (s.die d).gate := by
  obtain ⟨n, h⟩ := s.die_logEvent e d; rw [h]
@[simp] theorem State.logEvent_booted (d : Nat) : ((s.logEvent e).die d).booted = (s.die d).booted := by
  obtain ⟨n, h⟩ := s.die_logEvent e d; rw [h]

end Entry

end Sys2Proof.Machine
end

section
/-! SUPPORT. Registers of the host interface and of the dies, and accesses through BAR2 (R8, R365 to R368, R398, R401, R409). -/

set_option Elab.async false

namespace Sys2Proof.Machine

/-! ### Bytes of numbers -/

theorem byteAt_zero_of_low (b : Byte) (x : Nat) : byteAt (b.toNat + 2 ^ 8 * x) 0 = b := by
  apply BitVec.eq_of_toNat_eq
  simp [byteAt, Nat.add_mul_mod_self_left, Nat.mod_eq_of_lt b.isLt]

theorem byteAt_succ_of_low (b : Byte) (x k : Nat) : byteAt (b.toNat + 2 ^ 8 * x) (k + 1) = byteAt x k := by
  have e : (b.toNat + 2 ^ 8 * x) / 2 ^ (8 * (k + 1)) = x / 2 ^ (8 * k) := by
    rw [show 8 * (k + 1) = 8 + 8 * k by ring, pow_add, ← Nat.div_div_eq_div_mul, Nat.add_mul_div_left _ _ (by positivity),
      Nat.div_eq_of_lt b.isLt, Nat.zero_add]
  simp only [byteAt, e]

/-- Byte k of n bytes read is the byte at its address (R7). -/
theorem byteAt_memRead (m : Mem) (hm : Mem.wf m = true) (a n k : Nat) (hk : k < n) : byteAt (memRead m a n) k = memByte m (a + k) := by
  induction n generalizing a k with
  | zero => omega
  | succ n ih =>
    rw [memRead_succ m a n hm]
    cases k with
    | zero => exact byteAt_zero_of_low _ _
    | succ k => rw [byteAt_succ_of_low, ih (a + 1) k (by omega), Nat.add_right_comm, Nat.add_assoc]

/-- Byte k of the number that a list of bytes makes, lowest first. -/
theorem byteAt_ofLanes (l : List Byte) (k : Nat) : byteAt (ofLanes 8 (l.map (·.toNat))) k = l.getD k 0 := by
  induction l generalizing k with
  | nil => simp [ofLanes, byteAt]
  | cons b l ih =>
    have e : ofLanes 8 ((b :: l).map (·.toNat)) = b.toNat + 2 ^ 8 * ofLanes 8 (l.map (·.toNat)) := by
      rw [List.map_cons, ofLanes, List.foldr_cons, Nat.mod_eq_of_lt b.isLt, Nat.add_comm, Nat.mul_comm]
      rfl
    rw [e]
    cases k with
    | zero => exact byteAt_zero_of_low _ _
    | succ k => exact (byteAt_succ_of_low _ _ _).trans (ih k)

/-! ### Offsets of BAR0 (R365) -/

theorem writeBar0_queue (s : State) (q o : Nat) (v : Word) (hq : q < 8) (ho : o < 0x100) :
    s.writeBar0 (queueOff q o) v = s.writeQueue q o v := by
  have e : (queueOff q o - 0x10000) / 0x100 = q ∧ (queueOff q o - 0x10000) % 0x100 = o := by unfold queueOff; omega
  unfold State.writeBar0
  rw [if_neg (by unfold queueOff; omega), if_neg (by unfold queueOff; omega), if_pos (by unfold queueOff; omega), e.1, e.2]

theorem writeBar0_mailbox (s : State) (o : Nat) (v : Word) (ho : o < 0x40) : s.writeBar0 (0x20000 + o) v = s.writeMailbox o v := by
  unfold State.writeBar0
  rw [if_neg (by omega), if_neg (by omega), if_neg (by omega), if_pos (by omega), Nat.add_sub_cancel_left]

theorem writeBar0_die (s : State) (d o : Nat) (v : Word) (hd : d < 8) (ho : o < 0x60000) :
    s.writeBar0 (dieOff d o) v = s.writeDie d o v := by
  have e : (dieOff d o - 0x100000) / 0x60000 = d ∧ (dieOff d o - 0x100000) % 0x60000 = o := by unfold dieOff; omega
  unfold State.writeBar0
  rw [if_neg (by unfold dieOff; omega), if_neg (by unfold dieOff; omega), if_neg (by unfold dieOff; omega), if_neg (by unfold dieOff; omega),
    if_neg (by unfold dieOff; omega), if_neg (by unfold dieOff; omega), if_neg (by unfold dieOff; omega), if_pos (by unfold dieOff; omega), e.1, e.2]

/-- No register is listed between the device's own and the queues: the write is counted and ignored (R365). -/
theorem writeBar0_unlisted (s : State) (off : Nat) (v : Word) (h0 : 0x48 ≤ off) (h1 : off < 0x10000) :
    s.writeBar0 off v = s.ignoredWrite 0 off := by
  unfold State.writeBar0
  rw [if_neg (by omega), if_neg (by omega), if_neg (by omega), if_neg (by omega), if_neg (by omega), if_neg (by omega), if_neg (by omega),
    if_neg (by omega)]

/-! ### Launch queues (R368) -/

theorem queueError_qerr (s : State) (q : Nat) : ((s.queueError q).queue q).qerr = true := by
  unfold State.queueError
  split
  next h => exact h
  · simp

theorem queueError_keeps {α : Type} (f : Queue → α) (hf : ∀ x, f { x with qerr := true } = f x) (s : State) (q : Nat) :
    f ((s.queueError q).queue q) = f (s.queue q) := by
  unfold State.queueError
  split
  · rfl
  · simp [hf]

/-- A tail that leaves no more records than the ring holds is taken (R368). -/
theorem writeQtail_fits (s : State) (q : Nat) (v : Word) (hv : v.toNat < 2 ^ 32)
    (hn : (v.toNat + 2 ^ 32 - (s.queue q).qhead) % 2 ^ 32 ≤ ringRecords (s.queue q).qsize) :
    s.writeQtail q v = s.modQueue q fun x => { x with qtail := v.toNat } := by
  simp only [State.writeQtail, Nat.mod_eq_of_lt hv, State.queue_modQueue_same]
  exact if_neg (Nat.not_lt.2 hn)

/-- A tail that leaves more sets QERR (R368). -/
theorem writeQtail_over (s : State) (q : Nat) (v : Word) (hv : v.toNat < 2 ^ 32)
    (hn : ringRecords (s.queue q).qsize < (v.toNat + 2 ^ 32 - (s.queue q).qhead) % 2 ^ 32) :
    s.writeQtail q v = (s.modQueue q fun x => { x with qtail := v.toNat }).queueError q := by
  simp only [State.writeQtail, Nat.mod_eq_of_lt hv, State.queue_modQueue_same]
  exact if_pos hn

theorem writeQueueConfig_taken (s : State) (q : Nat) (isSize : Bool) (v : Word) (h : (s.queue q).qhead = (s.queue q).qtail) :
    s.writeQueueConfig q isSize v = s.modQueue q fun x => if isSize then { x with qsize := v.toNat } else { x with qbase := v } := by
  simp only [State.writeQueueConfig]
  exact if_neg fun hc => hc.1 h

theorem writeQueueConfig_untaken (s : State) (q : Nat) (v : Word) (h : (s.queue q).qhead ≠ (s.queue q).qtail)
    (hv : v.toNat ≠ (s.queue q).qsize) :
    s.writeQueueConfig q true v = (s.modQueue q fun _ => { s.queue q with qsize := v.toNat }).queueError q := by
  simp only [State.writeQueueConfig, if_true]
  exact if_pos ⟨h, .inl hv⟩

/-- With no completion waiting, the host's CHEAD is all that changes (R378). -/
theorem writeChead_idle (s : State) (q : Nat) (v : Word) (hv : v.toNat < 2 ^ 32) (h : (s.queue q).waiting = []) :
    s.writeChead q v = s.modQueue q fun x => { x with chead := v.toNat } := by
  simp only [State.writeChead, Nat.mod_eq_of_lt hv, State.queue_modQueue_same, h]
  rfl

theorem queueRegisters : Stated.QueueRegisters := by
  intro s q v hq
  have hq8 : q % 8 = q := Nat.mod_eq_of_lt hq
  refine ⟨fun hn hv => ?_, fun hn hv => ?_, fun hb => ?_, fun hb => ?_, fun hw hv => ?_, fun h => ⟨?_, ?_⟩, fun h hv => ?_, ?_, ?_⟩
  · show Host.Outcome.next (s.writeQtail (q % 8) v) = _
    rw [hq8, writeQtail_fits s q v hv hn]
  · refine ⟨_, rfl, ?_⟩
    rw [hq8, writeQtail_over s q v hv hn]
    exact ⟨queueError_qerr _ q, by rw [queueError_keeps (·.qtail) (fun _ => rfl), State.queue_modQueue_same]⟩
  · show Host.Outcome.next (s.writeQstat (q % 8) v) = _
    rw [hq8, State.writeQstat, if_pos hb]
  · show Host.Outcome.next (s.writeQstat (q % 8) v) = _
    rw [hq8, State.writeQstat, if_neg (hb ▸ Bool.false_ne_true)]
  · show Host.Outcome.next (s.writeChead (q % 8) v) = _
    rw [hq8, writeChead_idle s q v hv hw]
  · show Host.Outcome.next (s.writeQueueConfig (q % 8) false v) = _
    rw [hq8, writeQueueConfig_taken s q false v h]
    rfl
  · show Host.Outcome.next (s.writeQueueConfig (q % 8) true v) = _
    rw [hq8, writeQueueConfig_taken s q true v h]
    rfl
  · refine ⟨_, rfl, ?_⟩
    rw [hq8, writeQueueConfig_untaken s q v h hv]
    exact ⟨queueError_qerr _ q, by rw [queueError_keeps (·.qsize) (fun _ => rfl), State.queue_modQueue_same]⟩
  · exact congrArg Host.Outcome.next (writeBar0_queue s q 0x28 v hq (by omega))
  · exact congrArg Host.Outcome.next (writeBar0_queue s q 0x30 v hq (by omega))

/-! ### Other registers -/

theorem flag_toNat (v : Word) (n : Nat) : flag v.toNat n = v.getLsbD n := by
  rw [flag, BitVec.getLsbD, Nat.testBit_eq_decide_div_mod_eq]
  rfl

theorem noteArea_cases (s : State) (d o : Nat) (bad : Bool) : s.noteArea d o bad = s ∨ ∃ e, s.noteArea d o bad = s.logEvent e := by
  unfold State.noteArea
  split
  · exact .inr ⟨_, rfl⟩
  · exact .inl rfl

/-- Recording a misplaced area changes no area. -/
theorem noteArea_keeps {α : Type} (f : State → α) (hf : ∀ s e, f (State.logEvent s e) = f s) (s : State) (d o : Nat) (bad : Bool) :
    f (s.noteArea d o bad) = f s := by
  rcases noteArea_cases s d o bad with h | ⟨e, h⟩ <;> rw [h]
  exact hf s e

theorem writeStaging_free (s : State) (d st : Nat) (isLen : Bool) (v : Word) (h : s.stagingUsed (d, st) = 0) :
    ((s.writeStaging d st isLen v).die d).stack st
      = if isLen then { (s.die d).stack st with fstLen := v.toNat % 2 ^ 32 } else { (s.die d).stack st with fstBase := v } := by
  have hu : s.stagingUnits (d, st) = 0 := by simp [State.stagingUnits, h]
  simp only [State.writeStaging, hu, ne_eq, not_true, if_false]
  rw [noteArea_keeps (fun s => (s.die d).stack st) (fun s e => s.logEvent_stack e d st), State.stack_modStack_same]

theorem writeStaging_used (s : State) (d st : Nat) (isLen : Bool) (v : Word) (h : s.stagingUsed (d, st) ≠ 0) :
    s.writeStaging d st isLen v = s.ignoredWrite d (dieOff d (if isLen then 0x40008 + st * 0x1000 else 0x40000 + st * 0x1000)) := by
  have hu : s.stagingUnits (d, st) ≠ 0 := by simp only [State.stagingUnits]; omega
  simp only [State.writeStaging]
  exact if_pos hu

theorem writeClaimArea_free (s : State) (d : Nat) (isLen : Bool) (v : Word) (h : s.claimAreaUsed d = 0) :
    ((s.writeClaimArea d isLen v).die d).clBase = (if isLen then (s.die d).clBase else v)
      ∧ ((s.writeClaimArea d isLen v).die d).clLen = (if isLen then v.toNat else (s.die d).clLen) := by
  simp only [State.writeClaimArea, h, ne_eq, not_true, if_false]
  rw [noteArea_keeps (fun s => (s.die d).clBase) (fun s e => s.logEvent_clBase e d),
    noteArea_keeps (fun s => (s.die d).clLen) (fun s e => s.logEvent_clLen e d), State.die_modDie_same]
  cases isLen <;> exact ⟨rfl, rfl⟩

theorem writeDie_moduleId (s : State) (d : Nat) (v : Word) :
    s.writeDie d 0x43000 v = s.writeLocked d 0x43000 fun x => { x with moduleId := v.toNat % 2 ^ 10 } := by
  simp [State.writeDie, windowReg]

theorem otherRegisters : Stated.OtherRegisters := by
  intro s d n off v hd hn
  have hd8 : d % 8 = d := Nat.mod_eq_of_lt hd
  refine ⟨?_, fun st hst hu => ?_, fun st hst hu b => ?_, fun hu => ?_, rfl, rfl, fun h0 h1 => ?_, fun k => ?_, fun hb h0 h1 => ?_,
    fun hl => ?_, fun hl => ?_⟩
  · show Host.Outcome.next (s.writePeer (n % 16) v) = _
    rw [Nat.mod_eq_of_lt hn, State.writePeer, flag_toNat]
  · have h (isLen : Bool) := writeStaging_free s d st isLen v hu
    refine ⟨⟨s.writeStaging d st false v, ?_, by rw [h]; rfl, by rw [h]; rfl⟩, ⟨s.writeStaging d st true v, ?_, by rw [h]; rfl, by rw [h]; rfl⟩⟩
    all_goals
      show Host.Outcome.next (s.writeStaging (d % 8) (st % 2) _ v) = _
      rw [hd8, Nat.mod_eq_of_lt hst]
  · show Host.Outcome.next (s.writeStaging (d % 8) (st % 2) b v) = _
    rw [hd8, Nat.mod_eq_of_lt hst, writeStaging_used s d st b v hu, dieOff]
    cases b <;> simp only [if_true, if_false, Bool.false_eq_true, Nat.add_assoc]
  · have h (isLen : Bool) := writeClaimArea_free s d isLen v hu
    refine ⟨⟨s.writeClaimArea d false v, ?_, (h false).1, (h false).2⟩, ⟨s.writeClaimArea d true v, ?_, (h true).2, (h true).1⟩⟩
    all_goals
      show Host.Outcome.next (s.writeClaimArea (d % 8) _ v) = _
      rw [hd8]
  · exact congrArg Host.Outcome.next (writeBar0_unlisted s off v h0 h1)
  · refine congrArg Host.Outcome.next ?_
    rw [show 0x20008 + 8 * k.val = 0x20000 + (8 + 8 * k.val) by omega, writeBar0_mailbox s _ v (by omega)]
    fin_cases k <;> rfl
  · refine congrArg Host.Outcome.next ?_
    rw [show (0x20000 : Nat) = 0x20000 + 0 from rfl, writeBar0_mailbox s 0 v (by omega)]
    simp [State.writeMailbox, State.writeMbcmd, hb, mbAssigned, h0, h1]
  · refine congrArg Host.Outcome.next ((writeBar0_die s d 0x43000 v hd (by omega)).trans ?_)
    rw [writeDie_moduleId, State.writeLocked, if_neg (hl ▸ Bool.false_ne_true)]
  · refine congrArg Host.Outcome.next ((writeBar0_die s d 0x43000 v hd (by omega)).trans ?_)
    rw [writeDie_moduleId, State.writeLocked, if_pos hl, dieOff]

/-! ### Accesses through BAR2 (R113, R366, R367) -/

/-- An access that stays within a line is one piece. -/
theorem bar2Lines_one (s : State) (x : Bar2Op) (h : x.lin % 64 + x.len ≤ 64) (h0 : x.len ≠ 0) :
    s.bar2Lines x = [(s.linear x.lin, x.len)] := by
  have hk : min x.len (64 - x.lin % 64) = x.len := by omega
  simp [State.bar2Lines, lineSplit, h0, hk]

/-- What makes an access within a line wait. -/
theorem bar2Waits_one (s : State) (before : List Bar2Op) (x : Bar2Op) (h : x.lin % 64 + x.len ≤ 64) (h0 : x.len ≠ 0) :
    s.bar2Waits before x = (s.commandHolds (s.linear x.lin) x.len x.isWrite || s.bar2Meets before (s.linear x.lin) x.len
      || s.linkWaits 0 (s.linear x.lin) || s.overtakes 0 (s.linear x.lin) x.no
      || (!x.isWrite && s.replyWaits 0 (s.linear x.lin))) := by
  simp [State.bar2Waits, bar2Lines_one s x h h0]

/-- A line that a stack command holds makes the access wait (R113). -/
theorem bar2Take_held (s : State) (x : Bar2Op) (h : x.lin % 64 + x.len ≤ 64) (h0 : x.len ≠ 0)
    (hc : s.commandHolds (s.linear x.lin) x.len x.isWrite = true) :
    s.bar2Take x = { s with sent := s.sent + 1, host := { s.host with bar2 := s.host.bar2 ++ [{ x with no := s.sent }] } } := by
  refine if_pos ?_
  rw [bar2Waits_one s _ { x with no := s.sent } h h0]
  simp [hc]

/-- An access that nothing holds or precedes is performed at once. -/
theorem bar2Take_free (s : State) (x : Bar2Op) (h : x.lin % 64 + x.len ≤ 64) (h0 : x.len ≠ 0)
    (hc : s.commandHolds (s.linear x.lin) x.len x.isWrite = false) (hb : s.host.bar2 = []) (hl : s.linkWaits 0 (s.linear x.lin) = false)
    (ho : s.overtakes 0 (s.linear x.lin) s.sent = false) (hr : x.isWrite = true ∨ s.replyWaits 0 (s.linear x.lin) = false) :
    s.bar2Take x = s.bar2Do { x with no := s.sent } := by
  refine if_neg ?_
  rw [bar2Waits_one s _ { x with no := s.sent } h h0]
  simp only [hc, hb, hl, ho, State.bar2Meets, List.any_nil, Bool.false_or]
  rcases hr with hr | hr <;> simp [hr]

/-- A read of one sound line that holds a value completes with its bytes (R366). -/
theorem bar2Do_read (s : State) (x : Bar2Op) (h : x.lin % 64 + x.len ≤ 64) (h0 : x.len ≠ 0) (hw : x.isWrite = false)
    (hp : s.poisoned (s.linear x.lin) x.len = false) (ht : s.tag (s.linear x.lin) = .value) :
    s.bar2Do x = { s with host := { s.host with readData := bytesOf (s.bytes (s.linear x.lin) x.len) x.len, readStatus := 0 } } := by
  simp [State.bar2Do, bar2Lines_one s x h h0, hw, hp, State.bar2Line, ht]

theorem noteAreas_mem (s t : State) : (s.noteAreas t).mem = t.mem := by
  have lost (u : State) (d : Nat) : (s.noteLost u d).mem = u.mem := by
    simp only [State.noteLost]
    rw [noteArea_keeps (·.mem) State.logEvent_mem, noteArea_keeps (·.mem) State.logEvent_mem, noteArea_keeps (·.mem) State.logEvent_mem]
  unfold State.noteAreas
  induction List.range 8 generalizing t with
  | nil => rfl
  | cons d l ih => rw [List.foldl_cons, ih, lost]

theorem putOutside_mem (s : State) (pa n v : Nat) : (s.putOutside pa n v).mem = memWrite s.mem pa n v := by
  unfold State.putOutside
  extract_lets t
  split <;> rfl

theorem countPeer_mem (s : State) (rq n : Nat) : (s.countPeer rq n).mem = s.mem := rfl

/-- A write of one sound line that holds a value, outside the code images, is performed (R366). -/
theorem bar2Do_write (s : State) (x : Bar2Op) (h : x.lin % 64 + x.len ≤ 64) (h0 : x.bytes ≠ []) (hn : x.len = x.bytes.length)
    (hw : x.isWrite = true) (hi : s.stamped (s.linear x.lin) x.len = false) (hp : s.poisoned (s.linear x.lin) x.len = false)
    (ht : s.tag (s.linear x.lin) = .value) :
    (s.bar2Do x).mem = memWrite s.mem (s.linear x.lin) x.len (ofLanes 8 (x.bytes.map (·.toNat))) := by
  have hl : x.len ≠ 0 := by simpa [hn] using h0
  have ha : x.bytes.take x.len = x.bytes := by rw [hn, List.take_length]
  simp only [State.bar2Do, bar2Lines_one s x h hl, hw, if_true, noteAreas_mem, List.zipIdx_cons, List.zipIdx_nil, List.foldl_cons, List.foldl_nil,
    List.take_zero, List.map_nil, List.sum_nil, List.drop_zero, ha]
  rw [State.bar2Put, if_neg (by simp [hi, hp, ht]), countPeer_mem, putOutside_mem]

/-- An access whose place the window reaches is taken up. -/
theorem exec_bar2Read (s : State) (off len : Nat) (h : s.host.reaches off len = true) :
    exec (.bar2Read off len) s = .next (s.bar2Take { lin := s.host.win2Base.toNat + off, off := off, len := len }) :=
  congrArg Host.Outcome.next (if_neg (by simp [h]))

theorem exec_bar2Write (s : State) (off : Nat) (bytes : List Byte) (rq : Nat) (h : s.host.reaches off bytes.length = true) :
    exec (.bar2Write off bytes rq) s = .next (s.bar2Take { lin := s.host.win2Base.toNat + off, off := off, len := bytes.length
                                                           isWrite := true, bytes := bytes, requester := rq }) :=
  congrArg Host.Outcome.next (if_neg (by simp [h]))

theorem windowAccesses : Stated.WindowAccesses := by
  intro s off len rq bytes hw l pa held
  have hm := ((memWf_iff s).1 hw).1
  refine ⟨fun hr h h0 => ?_, fun hr => ?_, fun hr h h0 => ?_, fun hr => ?_⟩
  · rw [exec_bar2Read s off len hr]
    refine ⟨fun hc => congrArg _ (bar2Take_held s _ h h0 hc), fun hc hb hl ho hy hp ht => ?_⟩
    let x : Bar2Op := { lin := l, off := off, len := len }
    have done := (bar2Take_free s x h h0 hc hb hl ho (.inr hy)).trans (bar2Do_read s { x with no := s.sent } h h0 rfl hp ht)
    refine ⟨_, congrArg _ done, rfl, rfl, List.map_congr_left fun k hk => ?_⟩
    exact byteAt_memRead s.mem hm pa len k (List.mem_range.1 hk)
  · exact ⟨_, congrArg Host.Outcome.next (if_pos (by simp [hr])), rfl, rfl, rfl⟩
  · have hl0 : bytes.length ≠ 0 := by simpa using h0
    rw [exec_bar2Write s off bytes rq hr]
    refine ⟨fun hc => congrArg _ (bar2Take_held s _ h hl0 hc), fun hc hb hl ho hi ht hp => ⟨_, rfl, fun a => ?_⟩⟩
    let x : Bar2Op := { lin := l, off := off, len := bytes.length, isWrite := true, bytes := bytes, requester := rq }
    have done := bar2Do_write s { x with no := s.sent } h h0 rfl rfl hi hp ht
    rw [← bar2Take_free s x h hl0 hc hb hl ho (.inl rfl)] at done
    rw [done, memByte_memWrite, byteAt_ofLanes]
  · exact ⟨_, congrArg Host.Outcome.next (if_pos (by simp [hr])), State.logEvent_mem _ _⟩

/-- Settles O40, register by register and, for BAR2, line by line. -/
theorem registerEvents : Obligations.RegisterEvents := ⟨queueRegisters, otherRegisters, windowAccesses⟩

end Sys2Proof.Machine
end

section
/-! SUPPORT. Resets, boot, links, scrub, containment, failures and heat (R9, R36, R384, R410, R411, R423 to R426, R430, R432). -/

set_option Elab.async false

namespace Sys2Proof.Machine

/-! ### What a retirement leaves alone (R158, R404) -/

/-- The links, the table of launches and the containment of every die are the same in both states. -/
def SameFleet (s t : State) : Prop := t.links = s.links ∧ t.launches = s.launches ∧ ∀ d, (t.die d).contained = (s.die d).contained

theorem SameFleet.refl (s : State) : SameFleet s s := ⟨rfl, rfl, fun _ => rfl⟩

theorem SameFleet.trans {s t u : State} (h : SameFleet s t) (k : SameFleet t u) : SameFleet s u :=
  ⟨k.1.trans h.1, k.2.1.trans h.2.1, fun d => (k.2.2 d).trans (h.2.2 d)⟩

theorem sameFleet_foldl {α : Type} (f : State → α → State) (h : ∀ s a, SameFleet s (f s a)) (l : List α) (s : State) :
    SameFleet s (l.foldl f s) := by
  induction l generalizing s with
  | nil => exact .refl s
  | cons a l ih => exact (h s a).trans (ih _)

theorem sameFleet_modTask (s : State) (i : Nat) (f : Task → Task) : SameFleet s (s.modTask i f) := ⟨rfl, rfl, fun _ => rfl⟩

theorem sameFleet_modDie (s : State) (d : Nat) (f : Die → Die) (hf : ∀ x, (f x).contained = x.contained) : SameFleet s (s.modDie d f) := by
  refine ⟨rfl, rfl, fun k => ?_⟩
  rw [State.die_modDie]
  split
  · exact hf _
  · rfl

theorem sameFleet_putBytes (s : State) (pa n v : Nat) : SameFleet s (s.putBytes pa n v) := ⟨rfl, rfl, fun _ => rfl⟩

theorem sameFleet_putOutside (s : State) (pa n v : Nat) : SameFleet s (s.putOutside pa n v) := by
  unfold State.putOutside
  extract_lets t
  split <;> exact ⟨rfl, rfl, fun _ => rfl⟩

theorem sameFleet_freeClaim (s : State) (cell : Nat) : SameFleet s (s.freeClaim cell) := by
  unfold State.freeClaim
  extract_lets t
  have ht : SameFleet s t := by
    simp only [t]
    split
    · exact sameFleet_modTask _ _ _
    · exact .refl s
  exact ht.trans (sameFleet_modDie t _ _ fun _ => rfl)

theorem sameFleet_setTag (s : State) (pa : Nat) (t : Tag) : SameFleet s (s.setTag pa t) := ⟨rfl, rfl, fun _ => rfl⟩

theorem sameFleet_failClaim (s : State) (cell : Nat) : SameFleet s (s.failClaim cell) := by
  refine .trans (.trans ?_ (sameFleet_freeClaim _ cell)) (sameFleet_setTag _ cell .failed)
  exact sameFleet_foldl _ (fun s w => sameFleet_modTask s _ _) _ s

theorem sameFleet_retireStake (s : State) (cell : Nat) : SameFleet s (s.retireStake cell) := by
  unfold State.retireStake
  split
  · exact ((sameFleet_putOutside s cell 64 0).trans (sameFleet_freeClaim _ cell)).trans (sameFleet_setTag _ cell .value)
  · split
    · exact sameFleet_failClaim s cell
    · exact sameFleet_freeClaim s cell

theorem sameFleet_jobLeaves (s : State) (i : Nat) (st : JState) : SameFleet s (s.jobLeaves i st) := by
  refine .trans ?_ (sameFleet_modTask _ i _)
  simp only [State.writeBackTile]
  split
  · exact (sameFleet_foldl _ (fun s e => sameFleet_putBytes s _ _ _) _ s).trans (sameFleet_modTask _ i _)
  · exact .refl s

/-- A retirement marks its launch, and leaves the links, the other launches and the containment of the dies alone. -/
theorem sameFleet_retireLaunch (s : State) (n : Nat) :
    SameFleet (s.modLaunch n fun l => { l with retired := true, heldFull := false }) (s.retireLaunch n) := by
  unfold State.retireLaunch
  extract_lets held u l t
  have ht : SameFleet u t := by
    refine sameFleet_foldl _ (fun s i => ?_) _ _
    extract_lets k v w
    have hv : SameFleet s v := by
      simp only [v]
      split
      · exact .refl s
      · exact sameFleet_jobLeaves s i .done
    have hw : SameFleet s w := hv.trans ⟨rfl, rfl, fun _ => rfl⟩
    split
    · exact hw.trans (sameFleet_modTask w i _)
    · exact hw
  split
  · exact ht.trans (sameFleet_foldl _ sameFleet_retireStake _ t)
  · exact ht

theorem retireLaunch_links (s : State) (n : Nat) : (s.retireLaunch n).links = s.links := (sameFleet_retireLaunch s n).1

theorem retireLaunch_contained (s : State) (n d : Nat) : ((s.retireLaunch n).die d).contained = (s.die d).contained :=
  (sameFleet_retireLaunch s n).2.2 d

theorem launch_retireLaunch (s : State) (n k : Nat) :
    (s.retireLaunch n).launch k = if k = n then { s.launch n with retired := true, heldFull := false } else s.launch k := by
  have h : (s.retireLaunch n).launch k = (s.modLaunch n fun l => { l with retired := true, heldFull := false }).launch k :=
    congrArg (smGet ({} : Launch) · k) (sameFleet_retireLaunch s n).2.1
  rw [h]
  split
  next e => rw [e, State.launch_modLaunch_same]
  next e => exact State.launch_setLaunch_other s n k _ e

/-- What a property of a fleet that retirements keep says after several. -/
theorem retireAll_keeps {α : Type} (p : State → Prop) (f : α → Nat) (h : ∀ s n, p s → p (State.retireLaunch s n)) (l : List α) (s : State)
    (hs : p s) : p (l.foldl (fun s a => s.retireLaunch (f a)) s) := by
  induction l generalizing s with
  | nil => exact hs
  | cons a l ih => exact ih _ (h s _ hs)

/-- Every launch of a list is retired after all of them have been. -/
theorem retireAll_retired {α : Type} (f : α → Nat) (l : List α) (a : α) (ha : a ∈ l) (s : State) :
    ((l.foldl (fun s a => s.retireLaunch (f a)) s).launch (f a)).retired = true := by
  induction l generalizing s with
  | nil => cases ha
  | cons b l ih =>
    rcases List.mem_cons.1 ha with rfl | ha
    · refine retireAll_keeps (fun s => (s.launch (f a)).retired = true) f (fun s n h => ?_) l _ ?_
      · show ((s.retireLaunch n).launch (f a)).retired = true
        rw [launch_retireLaunch]
        split
        · rfl
        · exact h
      · rw [launch_retireLaunch, if_pos rfl]
    · exact ih ha _

theorem retireDie_links (s : State) (d : Nat) : (s.retireDie d).links = s.links :=
  retireAll_keeps (fun t => t.links = s.links) (fun l : Nat × Launch => l.1) (fun t n h => (retireLaunch_links t n).trans h) _ s rfl

theorem retireDie_contained (s : State) (d k : Nat) : ((s.retireDie d).die k).contained = (s.die k).contained :=
  retireAll_keeps (fun t => (t.die k).contained = (s.die k).contained) (fun l : Nat × Launch => l.1)
    (fun t n h => (retireLaunch_contained t n k).trans h) _ s rfl

/-- Every live launch with a task on a die that goes out of use is retired (R425, R426). -/
theorem retireDie_retired (s : State) (d n : Nat) (l : Launch) (hl : (n, l) ∈ s.launches) (ha : l.alive = true)
    (ht : ∃ u ∈ s.tasks, u.2.launch = n ∧ u.2.die = d) : ((s.retireDie d).launch n).retired = true := by
  obtain ⟨u, hu, hn, hd⟩ := ht
  refine retireAll_retired (fun l : Nat × Launch => l.1) _ (n, l) (List.mem_filter.2 ⟨hl, ?_⟩) s
  simpa [ha] using ⟨u.1, u.2, hu, hn, hd⟩

/-! ### Resets and boot (R9, R36, R430) -/

/-- Boot values change neither whether other dies have booted nor the boot mark. -/
theorem copyFlash_keeps {α : Type} (f : State → α) (hf : ∀ s l v, f (State.withLog s l v) = f s) (s : State) : f s.copyFlash = f s := by
  have ring (l : List (BitVec 512)) (t : State) : f (l.foldl State.ringEntry t) = f t := by
    induction l generalizing t with
    | nil => rfl
    | cons w l ih =>
      obtain ⟨log, v, h⟩ := t.ringEntry_eq w
      rw [List.foldl_cons, ih, h, hf]
  rw [State.copyFlash, ring]
  exact hf s { s.log with fresh := 0 } s.host.msix

theorem smFind_map {α β : Type} (f : α → β) (m : SMap α) (k : Nat) :
    smFind (m.map fun e => (e.1, f e.2)) k = (smFind m k).map f := by
  simp [smFind, List.find?_map, Function.comp_def]

/-- A core after a warm reset: without carve-out (R9, R95). -/
def Core.warm (x : Core) : Core := { x with carve := 0, drain := none, cache := [] }

/-- What warm reset leaves of memory, the launches, the dies, the cores and the tasks (R9). -/
theorem warmReset_keeps (s : State) : ∃ t, exec .warmReset s = .next t ∧ t.mem = s.mem ∧ t.launches = s.launches ∧ t.links = []
    ∧ (∀ k, t.die k = (s.die k).warm) ∧ t.host.stamps = s.host.stamps ∧ t.rounds = s.rounds.map (fun r => { r with reserved := 0 })
    ∧ t.foldMsgs = s.foldMsgs.map (fun m => { m with waiting := false })
    ∧ (∀ d c, t.core d c = (s.core d c).warm)
    ∧ ∀ i, smFind t.tasks i = (smFind s.tasks i).map s.warmTask :=
  ⟨_, rfl, rfl, rfl, rfl, fun k => smGet_map Die.warm {} s.dies k, rfl, rfl, rfl,
    fun d c => smGet_map Core.warm {} s.cores (coreKey d c),
    fun i => smFind_map s.warmTask s.tasks i⟩

theorem bootsFrom_iff (d : Nat) (img : List Byte) :
    bootsFrom d img = true ↔ Config.bootVerifies d img = true ∧ Config.fusedVersion.toNat ≤ (Config.imageVersion img).toNat := by
  simp [bootsFrom]

/-- A die whose chain verifies boots, and the boot lock is set with the last (R430). -/
theorem firmwareBoot_good (s : State) (d : Nat) (rwl : List (Nat × Word)) (hd : d < 8) (hb : (s.die d).booted = false)
    (hl : s.bootLocked = false) (hm : s.moduleDown = false) (hg : bootsFrom d (s.firmware.getD []) = true) :
    ∃ t, exec (.firmwareBoot d rwl) s = .next t ∧ (t.die d).booted = true
      ∧ ((∀ k < 8, k ≠ d → (s.die k).booted = true) → t.bootLocked = true) ∧ t.mem = s.mem := by
  let u := s.modDie d fun x => { rwl.foldl Die.setRwl x with booted := true }
  let v := if d = 0 then u.copyFlash else u
  have keep {α : Type} (f : State → α) (hf : ∀ s l v, f (State.withLog s l v) = f s) : f v = f u := by
    simp only [v]
    split
    · exact copyFlash_keeps f hf u
    · rfl
  have he : exec (.firmwareBoot d rwl) s = .next (if v.allBooted then { v with bootLocked := true } else v) := by
    have h0 : ¬ ((s.die d).booted = true ∨ s.bootLocked = true ∨ s.moduleDown = true ∨ 8 ≤ d) := by simp [hb, hl, hm, hd]
    exact congrArg Host.Outcome.next ((if_neg h0).trans (if_pos hg))
  have die (k : Nat) : v.die k = u.die k := keep (·.die k) fun _ _ _ => rfl
  have booted : (v.die d).booted = true := by rw [die, State.die_modDie_same]
  have mem : v.mem = s.mem := keep (·.mem) fun _ _ _ => rfl
  refine ⟨_, he, ?_, fun hk => ?_, ?_⟩
  · split <;> exact booted
  · have all : v.allBooted = true := by
      simp only [State.allBooted, List.all_eq_true, List.mem_range]
      intro k hk8
      by_cases hkd : k = d
      · exact hkd ▸ booted
      · rw [die, State.die_modDie, if_neg hkd]
        exact hk k hk8 hkd
    rw [if_pos all]
  · split <;> exact mem

/-- The module after the boot of die d fails, with its entry (R424, R430). -/
def bootFailed (s : State) (d : Nat) : State :=
  State.logEvent { s with freeCount := s.freeCount + 1, moduleDown := true }
    { code := 0x10, die := d, sev := 3, unit := 32, info := (Config.freeWord s.freeCount).toNat }

theorem firmwareBoot_bad (s : State) (d : Nat) (rwl : List (Nat × Word)) (hd : d < 8) (hb : (s.die d).booted = false)
    (hl : s.bootLocked = false) (hm : s.moduleDown = false) (hg : bootsFrom d (s.firmware.getD []) = false) :
    ∃ t, exec (.firmwareBoot d rwl) s = .next t ∧ t.moduleDown = true ∧ (t.die d).booted = false := by
  have h0 : ¬ ((s.die d).booted = true ∨ s.bootLocked = true ∨ s.moduleDown = true ∨ 8 ≤ d) := by simp [hb, hl, hm, hd]
  have he : execFirmwareBoot d rwl s = .next (bootFailed s d) := by
    rw [execFirmwareBoot, if_neg h0, hg, if_neg Bool.false_ne_true, bootFailed]
  refine ⟨bootFailed s d, he, ?_, ?_⟩
  · rw [bootFailed, State.logEvent_moduleDown]
  · rw [bootFailed, State.logEvent_booted]
    exact hb

theorem resetEvents : Stated.ResetEvents := by
  intro s d rwl
  refine ⟨⟨s.coldReset, rfl, rfl, rfl, rfl, rfl, rfl, rfl, rfl, rfl, rfl, rfl, rfl, rfl⟩, ?_, fun hd hb hl hm => ⟨fun hg => ?_, fun hg => ?_⟩⟩
  · obtain ⟨t, he, hmem, hla, hli, hdie, hst, hro, hfo, hco, hta⟩ := warmReset_keeps s
    refine ⟨t, he, hmem, hla, hli, fun k => by rw [hdie]; exact ⟨rfl, rfl⟩, hst, fun r hr => ?_, fun m hm => ?_, fun d c => ?_, fun i x hx => ?_⟩
    · obtain ⟨r, -, rfl⟩ := List.mem_map.1 (hro ▸ hr)
      rfl
    · obtain ⟨m, -, rfl⟩ := List.mem_map.1 (hfo ▸ hm)
      rfl
    · rw [hco]
      exact ⟨rfl, rfl⟩
    · refine ⟨s.warmTask x, by rw [hta, hx]; rfl, rfl, fun k => ?_, rfl, rfl, rfl, rfl, rfl, rfl, rfl, rfl⟩
      exact Vector.getElem_replicate _
  · exact firmwareBoot_good s d rwl hd hb hl hm ((bootsFrom_iff _ _).2 hg)
  · exact firmwareBoot_bad s d rwl hd hb hl hm (Bool.eq_false_iff.2 fun h => hg ((bootsFrom_iff _ _).1 h))

/-! ### Links and the scrub (R384, R410, R423, R426) -/

theorem flitCrcError_fails (s : State) (k : Nat) (again : Bool) (hr : (s.link k).retraining = false) (hd : (s.link k).down = false) :
    ∃ t, exec (.flitCrcError k again) s = .next t ∧ t.mem = s.mem ∧ (t.link k).fails = (if again then (s.link k).fails + 1 else 1) := by
  refine ⟨_, congrArg Host.Outcome.next (if_neg (by simp [hr, hd])), rfl, ?_⟩
  rw [State.link_modLink_same]

/-- The retrainings of a link in the last second, this one among them. -/
def retrainsNow (s : State) (k : Nat) : List Nat := lastSecond (s.time (linkEnds k).1) (s.link k).retrains ++ [s.time (linkEnds k).1]

/-- A link that begins to retrain, with its entry (R426). -/
def linkRetraining (s : State) (k : Nat) : State :=
  (s.modLink k fun l => { l with fails := 0, retraining := true, retrains := retrainsNow s k }).logEvent
    { code := 0x08, die := (linkEnds k).1, sev := 1, unit := (linkEnds k).2.1, info := (retrainsNow s k).length }

/-- A link that the third retraining within a second takes down, with its entry (R426). -/
def linkDown (s : State) (k : Nat) : State :=
  ((linkRetraining s k).modLink k fun l => { l with retraining := false, down := true }).logEvent
    { code := 0x09, die := (linkEnds k).1, sev := 2, unit := (linkEnds k).2.1 }

theorem exec_linkRetrain (s : State) (k : Nat) (hr : (s.link k).retraining = false) (hd : (s.link k).down = false)
    (hf : 16 ≤ (s.link k).fails) : exec (.linkRetrain k) s = .next (if (retrainsNow s k).length < 3 then linkRetraining s k
      else (linkEnds k).2.2.foldl State.retireDie (linkDown s k)) :=
  congrArg Host.Outcome.next (if_neg (by simp [hr, hd]; omega))

theorem retireDies_links (l : List Nat) (s : State) : (l.foldl State.retireDie s).links = s.links := by
  induction l generalizing s with
  | nil => rfl
  | cons d l ih => rw [List.foldl_cons, ih, retireDie_links]

theorem linkRetrain_outcomes (s : State) (k : Nat) (hr : (s.link k).retraining = false) (hd : (s.link k).down = false)
    (hf : 16 ≤ (s.link k).fails) :
    let old := ((s.link k).retrains.filter fun x => decide (s.time (linkEnds k).1 < x + 1000000000)).length
    (old < 2 → ∃ t, exec (.linkRetrain k) s = .next t ∧ (t.link k).retraining = true ∧ (t.link k).down = false ∧ (t.link k).fails = 0)
      ∧ (2 ≤ old → ∃ t, exec (.linkRetrain k) s = .next t ∧ (t.link k).down = true) := by
  intro old
  have hn : (retrainsNow s k).length = old + 1 := by simp [retrainsNow, lastSecond, old]
  rw [exec_linkRetrain s k hr hd hf, hn]
  refine ⟨fun ho => ⟨_, congrArg _ (if_pos (by omega)), ?_⟩, fun ho => ⟨_, congrArg _ (if_neg (by omega)), ?_⟩⟩
  · rw [linkRetraining, State.logEvent_link, State.link_modLink_same]
    exact ⟨rfl, hd, rfl⟩
  · have h : ((linkEnds k).2.2.foldl State.retireDie (linkDown s k)).link k = (linkDown s k).link k :=
      congrArg (smGet ({} : Link) · k) (retireDies_links _ _)
    rw [h, linkDown, State.logEvent_link, State.link_modLink_same]

theorem exec_patrolScrub (s : State) (line : Nat) (f : ScrubFinding) (hh : isHbm (lineOf line) = true)
    (hm : paModule (lineOf line) = s.modId (paDie (lineOf line))) (hd : lineOf line ∉ s.dirty) :
    exec (.patrolScrub line f) s = .next (match f with
      | .clean => s
      | .corrected => s.countEvent 0x01 (paDie (lineOf line))
      | .uncorrectable =>
        if s.poison.contains (lineOf line) then s
        else State.logEvent { s with poison := setInsert s.poison (lineOf line) }
          { code := 0x02, die := paDie (lineOf line), sev := 1, unit := 18 + paStack (lineOf line), addr := lineOf line % 2 ^ 42, info := 2 }) := by
  refine congrArg Host.Outcome.next ((if_neg (by simp [hh, hm, hd])).trans ?_)
  rfl

theorem linkAndScrubEvents : Stated.LinkAndScrubEvents := by
  intro s d k ppm unc again line hd
  refine ⟨?_, flitCrcError_fails s k again, linkRetrain_outcomes s k, fun hr => ?_, fun hh hm hdirty => ⟨?_, ?_, fun hp => ?_⟩, rfl⟩
  · show Host.Outcome.next (s.modDie (d % 8) _) = _
    rw [Nat.mod_eq_of_lt hd]
  · exact congrArg Host.Outcome.next (if_pos hr)
  · exact exec_patrolScrub s line .clean hh hm hdirty
  · exact ⟨_, exec_patrolScrub s line .corrected hh hm hdirty, rfl⟩
  · refine ⟨_, (exec_patrolScrub s line .uncorrectable hh hm hdirty).trans (congrArg _ (if_neg (by simpa using hp))), ?_, fun u => ?_⟩
    · rw [State.logEvent_mem]
    · rw [State.logEvent_poison]
      exact mem_setInsert _ _ _

/-! ### Failures and heat (R424, R425, R432) -/

theorem stopModule_leaves (s : State) (d : Nat) :
    (s.stopModule d).moduleDown = true ∧ (s.stopModule d).tasks = s.tasks ∧ (s.stopModule d).mem = s.mem := by
  simp [State.stopModule]

theorem dieContainment_retires (s : State) (d n x : Nat) (hd : d < 8) :
    ∃ t, exec (.dieContainment d x) s = .next t ∧ (t.die d).contained = true
      ∧ ∀ l, (n, l) ∈ s.launches → l.alive = true → (∃ u ∈ s.tasks, u.2.launch = n ∧ u.2.die = d) → (t.launch n).retired = true := by
  refine ⟨_, rfl, ?_, fun l hl ha ht => ?_⟩
  · rw [Nat.mod_eq_of_lt hd, retireDie_contained, State.die_modDie_same]
  · rw [Nat.mod_eq_of_lt hd]
    refine retireDie_retired _ d n l ?_ ha ?_
    · rw [State.modDie_launches, State.logEvent_launches]
      exact hl
    · rw [State.modDie_tasks, State.logEvent_tasks]
      exact ht

/-- Past the second limit a sample switches the module off; else it sets the gate level of the die, and may make an entry (R432). -/
theorem thermalSample_off (s : State) (d tj t0 t1 mw : Nat) (h : 880 ≤ tj) :
    exec (.thermalSample d tj t0 t1 mw) s = .next (s.powerOff (d % 8)) :=
  congrArg Host.Outcome.next (if_pos h)

/-- The gate level that a sample leaves in a die (R432). -/
def sampleGate (s : State) (d tj t0 t1 mw : Nat) : Nat :=
  nextGate (s.die d).gate tj (max t0 t1) mw (s.die d).powerCap (Config.freeWord s.freeCount).toNat

/-- The state after a sample below the second limit, before its entry (R432). -/
def sampled (s : State) (d tj t0 t1 mw : Nat) : State :=
  State.modDie { s with freeCount := s.freeCount + 1 } d fun x =>
    { x with
      gate := sampleGate s d tj t0 t1 mw
      telemetry := [s.time d, tj, t0, t1, mw, sampleGate s d tj t0 t1 mw].zipIdx.map fun p => (p.2, BitVec.ofNat 64 p.1) }

theorem thermalSample_below (s : State) (d tj t0 t1 mw : Nat) (hd : d < 8) (h : tj < 880) :
    ∃ t, exec (.thermalSample d tj t0 t1 mw) s = .next t
      ∧ (t = sampled s d tj t0 t1 mw ∨ ∃ e, t = (sampled s d tj t0 t1 mw).logEvent e) := by
  refine ⟨_, congrArg Host.Outcome.next (if_neg (Nat.not_le.2 h)), ?_⟩
  rw [Nat.mod_eq_of_lt hd]
  split
  · exact .inr ⟨_, rfl⟩
  · extract_lets
    split
    · exact .inr ⟨_, rfl⟩
    · exact .inl rfl

theorem thermalSample_gate (s : State) (d tj t0 t1 mw : Nat) (hd : d < 8) (h : tj < 880) :
    ∃ t, exec (.thermalSample d tj t0 t1 mw) s = .next t ∧ t.mem = s.mem ∧ (t.die d).gate = sampleGate s d tj t0 t1 mw := by
  have gate : ((sampled s d tj t0 t1 mw).die d).gate = sampleGate s d tj t0 t1 mw := by rw [sampled, State.die_modDie_same]
  obtain ⟨t, he, rfl | ⟨e, rfl⟩⟩ := thermalSample_below s d tj t0 t1 mw hd h
  · exact ⟨_, he, rfl, gate⟩
  · exact ⟨_, he, State.logEvent_mem _ e, (State.logEvent_gate _ e d).trans gate⟩

theorem failureEvents : Stated.FailureEvents := by
  intro s d n tj t0 t1 mw x hd
  refine ⟨dieContainment_retires s d n x hd, ⟨_, rfl, stopModule_leaves s (d % 8)⟩, ⟨_, rfl, stopModule_leaves s 0⟩,
    ⟨_, rfl, rfl, rfl, rfl⟩, fun h => ⟨_, thermalSample_off s d tj t0 t1 mw h, rfl, rfl⟩, fun h hot => ?_, fun h hot warm => ?_⟩
  · obtain ⟨t, he, hmem, hg⟩ := thermalSample_gate s d tj t0 t1 mw hd h
    exact ⟨t, he, hg.trans (if_pos hot), hmem⟩
  · obtain ⟨t, he, hmem, hg⟩ := thermalSample_gate s d tj t0 t1 mw hd (by omega)
    exact ⟨t, he, hg.trans ((if_neg (by omega)).trans (if_pos warm)), hmem⟩

/-- Settles O43: resets and boot, links and scrub, failures and heat. -/
theorem fleetEvents : Obligations.FleetEvents := ⟨resetEvents, linkAndScrubEvents, failureEvents⟩

end Sys2Proof.Machine
end

section
/-! SUPPORT. A step of a core that is about to issue a bundle of one instruction (R15, R174, R198, R336, R338, R362). -/

set_option Elab.async false

namespace Sys2Proof.Machine

/-! ### What a loop and a commit leave alone -/

/-- What every turn of a loop leaves alone, the loop does. -/
theorem foldl_keeps {σ α β : Type} (p : σ → β) (f : σ → α → σ) (h : ∀ s a, p (f s a) = p s) (l : List α) (s : σ) :
    p (l.foldl f s) = p s := by
  induction l generalizing s with
  | nil => rfl
  | cons a l ih => exact (ih (f s a)).trans (h s a)

@[simp] theorem State.commit_iss (s : State) (i : Nat) : (s.commit i).iss = s.iss :=
  foldl_keeps State.iss State.storeLeaves (fun _ _ => rfl) (s.task i).withheld s

/-- A commit changes the committing task's saved registers and empties what was withheld for it (R335). -/
theorem State.commit_task_same (s : State) (i : Nat) :
    (s.commit i).task i = { s.task i with dup := (s.task i).live, withheld := [], shadow := [], shadowBad := [] } := by
  have same : ((s.task i).withheld.foldl State.storeLeaves s).task i = s.task i :=
    foldl_keeps (fun s : State => s.task i) State.storeLeaves (fun _ _ => rfl) _ s
  refine (State.task_modTask_same _ _ _).trans ?_
  exact congrArg (fun t : Task => { t with dup := t.live, withheld := [], shadow := [], shadowBad := [] }) same

/-! ### A bundle of one instruction -/

/-- The operation of an instruction other than a short pair, in its slot (R190). -/
def opIn (sl : Slot) (ins : Instr) : Op := { slot := sl.num, half := 0, word := sl.word, instr := ins }

/-- A bundle holds one instruction that is no short pair, and no header that is misplaced or has a reserved bit. -/
structure HoldsOne (b : Bundle) (sl : Slot) (ins : Instr) : Prop where
  late : b.lateHeader = none
  bad : b.badHeader = none
  slots : b.slots = [sl]
  instr : sl.instr = .ok ins
  single : ∀ x y, ins ≠ .cw x y

/-- Such a bundle stands for the operation of its instruction (R190). -/
theorem HoldsOne.expand {b : Bundle} {sl : Slot} {ins : Instr} (h : HoldsOne b sl ins) (cwt : SMap Nat) :
    b.slots.flatMap (expandSlot cwt) = [.ok (opIn sl ins)] := by
  have slot : expandSlot cwt sl = [.ok (opIn sl ins)] := by
    unfold expandSlot
    split
    next he => rw [h.instr] at he; cases he
    next x y he => rw [h.instr] at he; cases he; exact absurd rfl (h.single x y)
    next he => rw [h.instr] at he; cases he; rfl
  rw [h.slots, List.flatMap_singleton, slot]

/-- The first operation of a bundle exceeds no limit of a port and repeats no write-back (R196, R197). -/
theorem clashes_nil (o : Op) : clashes [] o = false := by
  unfold clashes
  cases destOf o.instr with
  | none => cases portOf o.instr <;> rfl
  | some d => cases portOf o.instr <;> simp

/-- The checks of R198 for such a bundle: what they ask of its operation. -/
theorem HoldsOne.passes {b : Bundle} {sl : Slot} {ins : Instr} (h : HoldsOne b sl ins) (rows : Bool) (l : Latches)
    (hv : namesV ins = true → rows = true) (hl : ∀ k ∈ specsOf ins, l.has k = true) :
    checkBundle b [.ok (opIn sl ins)] rows l = none := by
  have ports : checkPorts [] [opIn sl ins] = none := by simp [checkPorts, clashes_nil]
  have latches : checkLatches l [opIn sl ins] = none := by simpa [checkLatches, opIn] using hl
  have legal : checkIllegal rows [.ok (opIn sl ins)] = none := by
    cases hn : namesV ins with
    | false => simp [checkIllegal, opIn, hn]
    | true => simp [checkIllegal, hv hn]
  simp [checkBundle, h.late, h.bad, legal, goodOps, Except.toOption, ports, latches]

/-- Such a bundle, past the checks of R198, is opened to its operation, in a state that is committed first where ck says so (R336). -/
theorem openBundle_one (s : State) (word : Nat) (sl : Slot) (ins : Instr) (ck : Bool) (h : HoldsOne (decodeBundle word) sl ins)
    (hck : (commits s.iss.snap.rdH ins || (decodeBundle word).ckpt || (decodeBundle word).yieldPt) = ck) (hpast : s.pastImage = false)
    (hpois : s.poisoned (s.myLaunch.codeBase + s.iss.pc) 16 = false) (hv : namesV ins = true → s.me.rowCount ≠ 0)
    (hl : ∀ k ∈ specsOf ins, s.iss.snapL.has k = true) (hroom : ck = true → s.holdFull s.iss.task s.iss.die = false) :
    s.openBundle word
      = .ok (if ck then s.commit s.iss.task else s, [opIn sl ins], commits s.iss.snap.rdH ins, (decodeBundle word).yieldPt) := by
  have rows : (s.commit s.iss.task).me.rowCount = s.me.rowCount := by
    rw [State.me, State.commit_iss, State.commit_task_same]; rfl
  have committing : (goodOps [(.ok (opIn sl ins) : Except Ill Op)]).any (fun o => commits s.iss.snap.rdH o.instr)
      = commits s.iss.snap.rdH ins := Bool.or_false _
  unfold State.openBundle
  simp only [hpast, hpois, h.expand, committing, hck, Bool.false_eq_true, if_false]
  cases ck with
  | false =>
    rw [Bool.false_and, if_neg Bool.false_ne_true, if_neg Bool.false_ne_true, h.passes _ _ (fun e => decide_eq_true (hv e)) hl]
    rfl
  | true =>
    have latches : ∀ k ∈ specsOf ins, (s.commit s.iss.task).iss.snapL.has k = true := by rwa [State.commit_iss]
    rw [hroom rfl, Bool.and_false, if_neg Bool.false_ne_true, if_pos rfl,
      h.passes _ _ (fun e => decide_eq_true (rows ▸ hv e)) latches]
    rfl

/-! ### The run of one operation (R176, R338, R362) -/

section RunOne

variable (r : State) (o : Op)

theorem runOps_one_ok (t : State) (h : actOf o.instr (r.at o) = .ok t) : runOps r [o] r none = .ok (t.used o) := by
  simp [runOps, h]

/-- An operation that its engine accepts now has run. -/
theorem runOps_one_accepted (sd : Side) (h : actOf o.instr (r.at o) = .error (.wait .engine sd)) :
    runOps r [o] r none = .ok (((r.at o).accepted o sd).used o) := by
  simp [runOps, h]

/-- Any other stop is what the bundle stops with. -/
theorem runOps_one_stops (e : Stop) (h : actOf o.instr (r.at o) = .error e) (he : ∀ sd, e ≠ .wait .engine sd) :
    runOps r [o] r none = .error (r.at o, e) := by
  simp only [runOps, h]
  split <;> rfl

/-- What the step makes of the run of one operation: its bundle ends, is held open for its engine, or stops (R176, R338, R362). -/
theorem settleBundle_one (cm yp : Bool) :
    (∀ t, actOf o.instr (r.at o) = .ok t → State.settleBundle (runOps r [o] r none) cm yp = .next (State.performed (t.used o) cm yp))
    ∧ (∀ sd, actOf o.instr (r.at o) = .error (.wait .engine sd) →
        State.settleBundle (runOps r [o] r none) cm yp = .next (State.performed (((r.at o).accepted o sd).used o) cm yp))
    ∧ ∀ e, actOf o.instr (r.at o) = .error e → (∀ sd, e ≠ .wait .engine sd) →
        State.settleBundle (runOps r [o] r none) cm yp = resolve (r.at o) (actOf o.instr (r.at o)) := by
  refine ⟨fun t h => ?_, fun sd h => ?_, fun e h he => ?_⟩
  · rw [runOps_one_ok r o t h]; rfl
  · rw [runOps_one_accepted r o sd h]; rfl
  · rw [runOps_one_stops r o e h he, h]; rfl

end RunOne

/-! ### A core that is about to issue -/

theorem State.restartJob_idle (s : State) (i : Nat) (hs : (s.task i).job.state ≠ .stopped) (hh : (s.task i).job.halt = false) :
    s.restartJob i = s := by
  simp [State.restartJob, hs, hh]

/-- A core that is about to issue presents the bundle at the program counter of its task (R15, R344). -/
theorem coreMove_issues (u : State) (d c i : Nat) (h : Stated.AboutToIssue u d c i) :
    u.coreMove d c = (u.present i d c).issueBundle (u.present i d c).fetchBundle := by
  obtain ⟨hfin, hiss, hsw, hat, hend, hop, hpend, hyield, hasync, hstall, hjob, hhalt⟩ := h
  have noPre : ((u.task i).stallSince.isSome && u.preemptWanted i) = false := by
    rcases hstall with h | h <;> simp [h]
  simp [State.coreMove, hfin, hiss, hop, hend, Nat.not_lt.2 hsw, hyield, hpend, hasync, noPre, hat, State.restartJob_idle u i hjob hhalt]

/-- A core's move at the head of the agenda is what the step makes (R176). -/
theorem step_bundle (s : State) (d c : Nat) (rest : List Move) (ha : s.agenda = .bundle d c :: rest) (hp : s.poweredOff = false) :
    step s = State.coreMove { s with agenda := rest } d c := by
  unfold step State.moveNext
  rw [ha, hp]
  rfl

/-- A step of a core that is about to issue, where the bundle is opened to a state and its operations (R336). -/
theorem step_of_opened (s : State) (d c i : Nat) (rest : List Move) (ha : s.agenda = .bundle d c :: rest) (hp : s.poweredOff = false)
    (hi : Stated.AboutToIssue { s with agenda := rest } d c i) (q : State) (ops : List Op) (cm yp : Bool) :
    let p := State.present { s with agenda := rest } i d c
    p.openBundle p.fetchBundle = .ok (q, ops, cm, yp) → step s = State.settleBundle (q.perform ops) cm yp := by
  intro p hopen
  rw [step_bundle s d c rest ha hp, coreMove_issues _ d c i hi, State.issueBundle, hopen]

/-- The issued state is the opened one, with the place of the operation. -/
theorem issued_eq_at (s : State) (d c i : Nat) (o : Op) (ck : Bool) :
    Stated.issued s d c i o ck = (Stated.opened s d c i [o] ck).at o := rfl

/-- Settles O50: the one operation of the bundle runs in the issued state, and what it answers there is what the step goes on with. -/
theorem stepRunsDecoded : Obligations.StepRunsDecoded := by
  intro s d c i rest sl ins ha hp u p b cm ck o q hi hpast hpois hlate hbad hslots hins hev hc hv hl hroom
  have hx : exec ins q = resolve q (actOf ins q) := exec_eq_resolve ins q hev hc
  have hopen : p.openBundle p.fetchBundle = .ok (if ck then p.commit i else p, [o], cm, b.yieldPt) :=
    openBundle_one p p.fetchBundle sl ins ck ⟨hlate, hbad, hslots, hins, hc⟩ rfl hpast hpois hv hl hroom
  let r := Stated.opened u d c i [o] ck
  have hroomTask : (if ck then p.commit i else p).iss.task = i := by
    split
    · rw [State.commit_iss]; rfl
    · rfl
  have hperf : State.perform (if ck then p.commit i else p) [o] = runOps r [o] r none := by
    rw [State.perform, hroomTask]; rfl
  have hstep : step s = State.settleBundle (runOps r [o] r none) cm b.yieldPt :=
    (step_of_opened s d c i rest ha hp hi _ _ _ _ hopen).trans (by rw [hperf])
  have hq : r.at o = q := (issued_eq_at u d c i o ck).symm
  obtain ⟨hok, hengine, hstop⟩ := settleBundle_one r o cm b.yieldPt
  rw [← hstep, hq] at hok hengine hstop
  exact ⟨hx, hok, hengine, fun e h he => (hstop e h he).trans hx.symm⟩

end Sys2Proof.Machine
end

section
/-! SUPPORT. The scheduler of a die: admission, switches, exchanges, shifts, swaps and deadlocks (R16, R31, R132, R151, R156 to R165, R251,
R359, R361). -/

set_option Elab.async false

namespace Sys2Proof.Machine

/-! ### Tables -/

theorem smGet_eq_smFind {α : Type} (d : α) (m : SMap α) (k : Nat) : smGet d m k = (smFind m k).getD d := by
  induction m with
  | nil => rfl
  | cons e m ih =>
    obtain ⟨k', v⟩ := e
    by_cases h : k' = k
    · simp [smGet, smFind, h]
    · simpa [smGet, smFind, h] using ih

/-- A table whose values change by their keys, read at a key. -/
theorem smFind_mapKey {α : Type} (f : Nat → α → α) (m : SMap α) (k : Nat) :
    smFind (m.map fun e => (e.1, f e.1 e.2)) k = (smFind m k).map (f k) := by
  induction m with
  | nil => rfl
  | cons e m ih =>
    obtain ⟨k', v⟩ := e
    by_cases h : k' = k
    · simp [smFind, h]
    · simpa [smFind, h] using ih

/-- What every change of a value leaves alone is read alike before and after it. -/
theorem smGet_mapKey_keeps {α β : Type} (p : α → β) (f : Nat → α → α) (h : ∀ k v, p (f k v) = p v) (d : α) (m : SMap α) (k : Nat) :
    p (smGet d (m.map fun e => (e.1, f e.1 e.2)) k) = p (smGet d m k) := by
  rw [smGet_eq_smFind, smGet_eq_smFind, smFind_mapKey]
  cases smFind m k with
  | none => rfl
  | some v => exact h k v

theorem mem_smPut {α : Type} (m : SMap α) (k : Nat) (v : α) (e : Nat × α) (h : e ∈ smPut m k v) : e = (k, v) ∨ e ∈ m := by
  induction m with
  | nil => exact .inl (List.mem_singleton.1 h)
  | cons x m ih =>
    obtain ⟨k', v'⟩ := x
    simp only [smPut] at h
    split at h
    · exact List.mem_cons.1 h
    · split at h
      · exact (List.mem_cons.1 h).imp_right (List.mem_cons_of_mem _)
      · rcases List.mem_cons.1 h with rfl | h
        · exact .inr (.head _)
        · exact (ih h).imp_right (List.mem_cons_of_mem _)

theorem task_of_smFind {s : State} {i : Nat} {t : Task} (h : smFind s.tasks i = some t) : s.task i = t := by
  rw [State.task, smGet_eq_smFind, h]; rfl

/-! ### Groups on their way out (R158, R164) -/

/-- The shifts of die d have gone on (R164). -/
def State.shiftsOn (s : State) (d : Nat) : State := s.modDie d fun x => { x with shifts := s.openShifts d }

/-- Task i is of a group of die d that is on its way out. -/
def State.goesOut (s : State) (d i : Nat) : Bool := ((s.allGroups d).filter (s.groupGoes d)).any fun g => g.contains i

/-- A task of die d with the mark of its group; a task of another die as it is. -/
def Task.marked (d : Nat) (goes : Bool) (t : Task) : Task :=
  if t.die = d then { t with leaving := goes, preempt := t.preempt || (goes && decide (t.status = .issuing)) } else t

theorem goesOut_iff (s : State) (d i : Nat) : s.goesOut d i = true ↔ ∃ g ∈ s.allGroups d, s.groupGoes d g = true ∧ i ∈ g := by
  simp [State.goesOut]

/-- There is nothing to mark: die d has no shift and the module no gang, and no task has the mark. -/
def State.markIdle (s : State) (d : Nat) : Bool := (s.die d).shifts.isEmpty && s.gangs.isEmpty && !s.tasks.any fun e => e.2.leaving

theorem markIdle_iff (s : State) (d : Nat) :
    s.markIdle d = true ↔ (s.die d).shifts = [] ∧ s.gangs = [] ∧ ∀ e ∈ s.tasks, e.2.leaving = false := by
  simp [State.markIdle, and_assoc]

theorem markLeaving_idle (s : State) (d : Nat) (h : s.markIdle d = true) : s.markLeaving d = s := if_pos h

theorem markLeaving_busy (s : State) (d : Nat) (h : s.markIdle d = false) :
    s.markLeaving d = { s.shiftsOn d with tasks := s.tasks.map fun e => (e.1, e.2.marked d ((s.shiftsOn d).goesOut d e.1)) } := by
  refine (if_neg (Bool.eq_false_iff.1 h)).trans ?_
  refine congrArg (fun l => { s.shiftsOn d with tasks := l }) (List.map_congr_left fun e _ => ?_)
  unfold Task.marked
  split <;> rfl

theorem markLeaving_cases (s : State) (d : Nat) : s.markLeaving d = s ∨
    s.markLeaving d = { s.shiftsOn d with tasks := s.tasks.map fun e => (e.1, e.2.marked d ((s.shiftsOn d).goesOut d e.1)) } := by
  cases h : s.markIdle d with
  | true => exact .inl (markLeaving_idle s d h)
  | false => exact .inr (markLeaving_busy s d h)

/-- The marks are all that changes of a task. -/
theorem markLeaving_task_keeps {α : Type} (p : Task → α) (hp : ∀ t b c, p { t with leaving := b, preempt := c } = p t) (s : State)
    (d i : Nat) : p ((s.markLeaving d).task i) = p (s.task i) := by
  rcases markLeaving_cases s d with h | h
  · rw [h]
  · rw [h]
    refine smGet_mapKey_keeps p (fun k t => t.marked d ((s.shiftsOn d).goesOut d k)) (fun k t => ?_) _ _ _
    unfold Task.marked
    split
    · exact hp t _ _
    · rfl

@[simp] theorem markLeaving_clock (s : State) (d : Nat) : (s.markLeaving d).clock = s.clock := by
  rcases markLeaving_cases s d with h | h
  · rw [h]
  · rw [h]; rfl

/-- A task of the table after the marks, where there may be something to mark. -/
theorem markLeaving_task_busy (s : State) (d i : Nat) (t : Task) (ht : smFind s.tasks i = some t) (h : s.markIdle d = false) :
    (s.markLeaving d).task i = t.marked d ((s.shiftsOn d).goesOut d i) := by
  apply task_of_smFind
  rw [markLeaving_busy s d h]
  exact (smFind_mapKey (fun k t => t.marked d ((s.shiftsOn d).goesOut d k)) _ _).trans (congrArg _ ht)

theorem markLeaving_task_elsewhere (s : State) (d i : Nat) (t : Task) (ht : smFind s.tasks i = some t) (hd : t.die ≠ d) :
    (s.markLeaving d).task i = t := by
  cases h : s.markIdle d with
  | true => rw [markLeaving_idle s d h, task_of_smFind ht]
  | false => rw [markLeaving_task_busy s d i t ht h, Task.marked, if_neg hd]

theorem markLeaving_task_goes (s : State) (d i : Nat) (t : Task) (ht : smFind s.tasks i = some t) (h : s.markIdle d = false)
    (hd : t.die = d) (hg : (s.shiftsOn d).goesOut d i = true) :
    (s.markLeaving d).task i = { t with leaving := true, preempt := t.preempt || decide (t.status = .issuing) } := by
  rw [markLeaving_task_busy s d i t ht h, Task.marked, if_pos hd, hg, Bool.true_and]

theorem markLeaving_task_stays (s : State) (d i : Nat) (t : Task) (ht : smFind s.tasks i = some t) (h : s.markIdle d = false)
    (hd : t.die = d) (hg : (s.shiftsOn d).goesOut d i = false) : (s.markLeaving d).task i = { t with leaving := false } := by
  rw [markLeaving_task_busy s d i t ht h, Task.marked, if_pos hd, hg, Bool.false_and, Bool.or_false]

/-! ### Admission and switches (R151, R157, R359) -/

/-- A core admits its next task with the extents of its entry (R151, R359). -/
theorem taskAdmission_places (s : State) (d c i : Nat) (p : Nat × Nat × Nat) (hn : s.nextAdmitted d c = some i)
    (hp : s.placeOn d c (s.task i).launch (s.entryOf i) = some p) : exec (.taskAdmission d c i) s = .next (s.placeTask i p) := by
  show execTaskAdmission d c i s = _
  rw [execTaskAdmission, if_pos hn, hp]

/-- Task i as it is placed: with a slot and the extents of its entry e (R151, R359). -/
def Task.placed (e : Entry) (p : Nat × Nat × Nat) (since : Nat) (cwt : SMap Nat) (t : Task) : Task :=
  { t with
    status := .admitted, resSince := since, spadBase := p.1, spadSize := e.spad4k * 4096, bankBase := p.2.1, bankCount := e.banks
    rowBase := p.2.2, rowCount := e.rows64 * 64, cwt := cwt, cwtDirty := false }

theorem placeTask_task (s : State) (i : Nat) (p : Nat × Nat × Nat) :
    ∃ t since cwt, (s.placeTask i p).task i = Task.placed (s.entryOf i) p since cwt t :=
  ⟨_, _, _, State.task_modTask_same _ _ _⟩

@[simp] theorem acquire_clock (s : State) (sc : Scope) (d c : Nat) : (s.acquire sc d c).clock = s.clock := by
  cases sc <;> rfl

@[simp] theorem acquire_task (s : State) (sc : Scope) (d c i : Nat) : (s.acquire sc d c).task i = s.task i := by
  cases sc <;> rfl

/-- A task as its core switches to it (R157, R161). -/
def Task.switchedTo (t : Task) : Task :=
  { t with status := .issuing, started := true, parkedOn := .none, latches := {}, stallSince := none }

theorem chosen_task (s : State) (i : Nat) : (s.chosen i).task i = (s.task i).switchedTo := by
  have start : State.task (if (s.task i).started then s else s.acquire (s.startScope i) (s.task i).die (s.task i).core) i = s.task i := by
    split
    · rfl
    · exact acquire_task s _ _ _ i
  exact (State.task_modTask_same _ i Task.switchedTo).trans (congrArg Task.switchedTo start)

/-- Its core issues it past the clocks of a switch (R16). -/
theorem chosen_core (s : State) (i : Nat) : ((s.chosen i).core (s.task i).die (s.task i).core).issuing = some i
    ∧ ((s.chosen i).core (s.task i).die (s.task i).core).switchDone = s.clock + 64 := by
  unfold State.chosen
  extract_lets t u v w
  have hc : w.clock = s.clock := by
    show State.clock (if t.started then s else _) = s.clock
    split
    · rfl
    · exact acquire_clock _ _ _ _
  rw [State.core_modCore_same, hc]
  exact ⟨rfl, rfl⟩

theorem taskSwitch_chooses (s : State) (d c i : Nat) (hi : (s.core d c).issuing = none) (hn : (s.markLeaving d).nextTask d c = some i) :
    exec (.taskSwitch d c) s = .next ((s.markLeaving d).chosen i) := by
  show execTaskSwitch d c s = _
  unfold execTaskSwitch
  rw [hi, Option.isSome_none, if_neg Bool.false_ne_true]
  simp only [hn]

theorem tasksComeIn : Stated.TasksComeIn := by
  intro s d c i
  refine ⟨fun p hn hp => ⟨_, taskAdmission_places s d c i p hn hp, ?_⟩, fun hi hn => ⟨_, taskSwitch_chooses s d c i hi hn, ?_⟩⟩
  · obtain ⟨t0, since, cwt, h⟩ := placeTask_task s i p
    rw [h]
    exact ⟨rfl, rfl, rfl, rfl, rfl, rfl, rfl, rfl⟩
  · have die : ((s.markLeaving d).task i).die = (s.task i).die := markLeaving_task_keeps Task.die (fun _ _ _ => rfl) s d i
    have core : ((s.markLeaving d).task i).core = (s.task i).core := markLeaving_task_keeps Task.core (fun _ _ _ => rfl) s d i
    have live : ((s.markLeaving d).task i).live = (s.task i).live := markLeaving_task_keeps Task.live (fun _ _ _ => rfl) s d i
    obtain ⟨issuing, switchDone⟩ := chosen_core (s.markLeaving d) i
    rw [die, core] at issuing switchDone
    rw [chosen_task]
    exact ⟨issuing, switchDone.trans (by rw [markLeaving_clock]), rfl, rfl, rfl, live⟩

/-! ### Exchanges (R156) -/

/-- The tasks listed under number i are none that balancing may move. -/
def State.fixed (s : State) (i : Nat) : Prop := ∀ x ∈ s.tasks, x.1 = i → s.movable x.2 = false

/-- What exchanges leave of a state: its clock, dies, launches and memory, of each task the key and the die, and all of a task that
balancing may not move. -/
def Exchanged (s t : State) : Prop :=
  t.clock = s.clock ∧ t.dies = s.dies ∧ t.launches = s.launches ∧ t.mem = s.mem
    ∧ ∀ i, (t.task i).key = (s.task i).key ∧ (t.task i).die = (s.task i).die ∧ (s.fixed i → t.fixed i ∧ t.task i = s.task i)

theorem Exchanged.refl (s : State) : Exchanged s s := ⟨rfl, rfl, rfl, rfl, fun _ => ⟨rfl, rfl, fun h => ⟨h, rfl⟩⟩⟩

theorem Exchanged.trans {s t u : State} (h : Exchanged s t) (k : Exchanged t u) : Exchanged s u := by
  obtain ⟨hc, hd, hl, hm, ht⟩ := h
  obtain ⟨kc, kd, kl, km, kt⟩ := k
  refine ⟨kc.trans hc, kd.trans hd, kl.trans hl, km.trans hm, fun i => ?_⟩
  obtain ⟨hkey, hdie, hfix⟩ := ht i
  obtain ⟨kkey, kdie, kfix⟩ := kt i
  refine ⟨kkey.trans hkey, kdie.trans hdie, fun f => ?_⟩
  obtain ⟨f', e⟩ := hfix f
  obtain ⟨f'', e'⟩ := kfix f'
  exact ⟨f'', e'.trans e⟩

/-- A task that balancing may move goes to another core. -/
theorem Exchanged.moveTask {s t : State} (h : Exchanged s t) (i c : Nat) (hi : ¬ s.fixed i) : Exchanged s (t.moveTask i c) := by
  obtain ⟨hc, hd, hl, hm, ht⟩ := h
  refine ⟨hc, hd, hl, hm, fun j => ?_⟩
  obtain ⟨hkey, hdie, hfix⟩ := ht j
  by_cases hj : j = i
  · subst hj
    rw [State.moveTask, State.task_modTask_same]
    exact ⟨hkey, hdie, fun f => absurd f hi⟩
  · rw [State.moveTask, State.task_modTask_other _ _ _ _ hj]
    refine ⟨hkey, hdie, fun f => ?_⟩
    obtain ⟨f', e⟩ := hfix f
    refine ⟨fun x hx hxj => ?_, e⟩
    rcases mem_smPut _ _ _ _ hx with rfl | hx
    · exact absurd hxj.symm hj
    · exact f' x hx hxj

theorem exchanged_moves {s : State} (l : List Nat) (c : Nat) (hl : ∀ i ∈ l, ¬ s.fixed i) {t : State} (h : Exchanged s t) :
    Exchanged s (l.foldl (fun s i => s.moveTask i c) t) := by
  induction l generalizing t with
  | nil => exact h
  | cons i l ih => exact ih (fun j hj => hl j (.tail _ hj)) (h.moveTask i c (hl i (.head _)))

/-- A list that is sorted by the insertion of one element after the other has no element more. -/
theorem mem_of_mem_inserted {α : Type} (p : α → α → Bool) (l : List α) (i : α)
    (h : i ∈ l.foldr (fun k acc => acc.takeWhile (p k) ++ [k] ++ acc.dropWhile (p k)) []) : i ∈ l := by
  induction l with
  | nil => exact h
  | cons k l ih =>
    rcases List.mem_append.1 h with h | h
    · rcases List.mem_append.1 h with h | h
      · exact .tail _ (ih ((List.takeWhile_sublist _).subset h))
      · exact List.mem_singleton.1 h ▸ .head _
    · exact .tail _ (ih ((List.dropWhile_sublist _).subset h))

theorem not_fixed_of_mem_movables (s : State) (d c i : Nat) (h : i ∈ s.movables d c) : ¬ s.fixed i := by
  obtain ⟨x, hx, rfl⟩ := List.mem_map.1 (mem_of_mem_inserted _ _ i h)
  obtain ⟨hx, hm⟩ := List.mem_filter.1 hx
  have movable : s.movable x.2 = true := (Bool.and_eq_true_iff.1 hm).2
  exact fun f => Bool.false_ne_true ((f x hx rfl).symm.trans movable)

theorem exchanged_exchange (s : State) (d a b : Nat) : Exchanged s (s.exchange d a b) := by
  refine exchanged_moves _ a (fun i hi => ?_) (exchanged_moves _ b (fun i hi => ?_) (.refl s))
  · exact not_fixed_of_mem_movables s d b i (List.mem_of_mem_take hi)
  · exact not_fixed_of_mem_movables s d a i (List.mem_of_mem_take hi)

theorem exchanged_pairs (s : State) (d : Nat) (f g : Nat → Nat) (l : List Nat) :
    Exchanged s (l.foldl (fun s j => s.exchange d (f j) (g j)) s) := by
  induction l generalizing s with
  | nil => exact .refl s
  | cons j l ih => exact (exchanged_exchange s d (f j) (g j)).trans (ih _)

theorem balancingExchange_exchanges (s : State) (d : Nat) (hb : (s.die d).balancing = true) (hc : (s.die d).lastExchange + 256 ≤ s.clock) :
    ∃ u, Exchanged s u ∧ exec (.balancingExchange d) s
      = .next (u.modDie d fun x => { x with lastExchange := u.clock, parity := !x.parity }) := by
  have h0 : ¬ ((!(s.die d).balancing) = true ∨ s.clock < (s.die d).lastExchange + exchangeClocks) := by
    rw [hb, exchangeClocks]; simp; omega
  exact ⟨_, exchanged_pairs s d _ _ (List.range 8), congrArg Host.Outcome.next (if_neg h0)⟩

/-! ### Shift boundaries (R164, R165) -/

/-- The boundary at which a shift of a launch ends is noted, and the shifts of its die go on. -/
def State.boundaryNoted (s : State) (d launch : Nat) : State :=
  (s.noteShift d launch).modDie d fun x => { x with lastShift := smPut x.lastShift launch x.time, shifts := s.openShifts d }

theorem shiftBoundary_open (s : State) (d launch : Nat) (h : smGet 0 (s.die d).lastShift launch + (s.die d).shiftLen ≤ (s.die d).time)
    (ho : ∃ y ∈ s.openShifts d, y.launch = launch) :
    exec (.shiftBoundary d launch) s = .next ((s.boundaryNoted d launch).markLeaving d) := by
  have any : ((s.openShifts d).any fun y => y.launch = launch) = true := by simpa using ho
  show execShiftBoundary d launch s = _
  unfold execShiftBoundary
  simp only [if_neg (Nat.not_lt.2 h), if_pos any]
  rfl

theorem shiftBoundary_begins (s : State) (d launch : Nat) (h : smGet 0 (s.die d).lastShift launch + (s.die d).shiftLen ≤ (s.die d).time)
    (ho : ∀ y ∈ s.openShifts d, y.launch ≠ launch) :
    exec (.shiftBoundary d launch) s = .next (((s.boundaryNoted d launch).beginShift d launch).markLeaving d) := by
  have any : ¬ ((s.openShifts d).any fun y => y.launch = launch) = true := by simpa using ho
  show execShiftBoundary d launch s = _
  unfold execShiftBoundary
  simp only [if_neg (Nat.not_lt.2 h), if_neg any]
  rfl

theorem beginShift_none (s : State) (d launch : Nat) (h : s.rotationOf d launch = none) :
    s.beginShift d launch = s.modDie d fun x => { x with rotation := smErase x.rotation launch } := by
  simp only [State.beginShift, h]

theorem beginShift_some (s : State) (d launch : Nat) (g w : List Nat) (h : s.rotationOf d launch = some (g, w)) :
    s.beginShift d launch = (s.modDie d fun x => { x with rotation := smErase x.rotation launch }).modDie d fun x =>
      { x with shifts := x.shifts ++ [{ launch := launch, out := g.head?, into := w.headD 0 }] } := by
  simp only [State.beginShift, h]

theorem exchangesAndShifts : Stated.ExchangesAndShifts := by
  intro s d launch
  refine ⟨fun hb hc => ?_, fun h => ⟨shiftBoundary_open s d launch h, fun ho => ⟨fun hr => ?_, fun g w hr => ?_⟩⟩, fun i t ht => ?_⟩
  · obtain ⟨u, ⟨clock, dies, _, mem, tasks⟩, he⟩ := balancingExchange_exchanges s d hb hc
    refine ⟨_, he, ?_, ?_, mem, fun i => ?_⟩
    · rw [State.die_modDie_same, clock]
    · rw [State.die_modDie_same, State.die, dies]; rfl
    · obtain ⟨key, die, fix⟩ := tasks i
      exact ⟨key, die, fun f => (fix f).2⟩
  · rw [shiftBoundary_begins s d launch h ho, beginShift_none (s.boundaryNoted d launch) d launch hr]; rfl
  · rw [shiftBoundary_begins s d launch h ho, beginShift_some (s.boundaryNoted d launch) d launch g w hr]; rfl
  · have busy (h : ¬ ((s.die d).shifts = [] ∧ s.gangs = [] ∧ ∀ e ∈ s.tasks, e.2.leaving = false)) : s.markIdle d = false :=
      Bool.eq_false_iff.2 fun e => h ((markIdle_iff s d).1 e)
    refine ⟨fun h => markLeaving_idle s d ((markIdle_iff s d).2 h), markLeaving_task_elsewhere s d i t ht,
      fun h hd hg => markLeaving_task_goes s d i t ht (busy h) hd ((goesOut_iff _ d i).2 hg),
      fun h hd hg => markLeaving_task_stays s d i t ht (busy h) hd (Bool.eq_false_iff.2 fun e => ?_)⟩
    obtain ⟨g, hgs, hgo, hi⟩ := (goesOut_iff _ d i).1 e
    exact hg g hgs hgo hi

/-! ### Groups swapped out and in (R31, R164) -/

/-- The status of a task and its swap frame. -/
def Task.place (t : Task) : TStatus × Option Nat := (t.status, t.swapFrame)

/-- Every task of which p holds has the same place in both states. -/
def Stay (p : Nat → Prop) (s t : State) : Prop := ∀ j, p j → (t.task j).place = (s.task j).place

section Stay

variable {p : Nat → Prop} {s t u : State}

theorem Stay.refl (s : State) : Stay p s s := fun _ _ => rfl

theorem Stay.trans (h : Stay p s t) (k : Stay p t u) : Stay p s u := fun j hj => (k j hj).trans (h j hj)

theorem Stay.of_tasks (h : t.tasks = s.tasks) : Stay p s t := fun j _ => by rw [State.task, h]; rfl

theorem stay_foldl {α : Type} (f : State → α → State) (h : ∀ s a, Stay p s (f s a)) (l : List α) (s : State) :
    Stay p s (l.foldl f s) := by
  induction l generalizing s with
  | nil => exact .refl s
  | cons a l ih => exact (h s a).trans (ih _)

/-- An update of a task that keeps its place. -/
theorem stay_modTask (s : State) (i : Nat) (f : Task → Task) (hf : ∀ t, (f t).status = t.status ∧ (f t).swapFrame = t.swapFrame) :
    Stay p s (s.modTask i f) := by
  intro j _
  by_cases h : j = i
  · obtain ⟨hstatus, hframe⟩ := hf (s.task i)
    rw [h, State.task_modTask_same, Task.place, hstatus, hframe, Task.place]
  · rw [State.task_modTask_other _ _ _ _ h]

/-- Another task replaced. -/
theorem stay_setTask (s : State) (i : Nat) (x : Task) : Stay (· ≠ i) s (s.setTask i x) := fun j hj => by
  rw [State.task_setTask_other _ _ _ _ hj]

theorem stay_putOutside (s : State) (pa n v : Nat) : Stay p s (s.putOutside pa n v) := by
  unfold State.putOutside
  extract_lets u
  split
  · exact fun j _ => smGet_mapKey_keeps Task.place (fun _ t => shadowPut t u pa n v) (fun _ _ => rfl) _ _ _
  · exact .of_tasks rfl

theorem stay_moveExtents (out : Bool) (l : List (Nat × Nat)) (f : Nat) (s : State) : Stay p s (s.moveExtents out l f) := by
  induction l generalizing s f with
  | nil => exact .refl s
  | cons e l ih =>
    obtain ⟨a, n⟩ := e
    have move (src dst : Nat) : Stay p s (s.moveBytes src dst n) := (stay_putOutside s dst n _).trans (.of_tasks rfl)
    refine .trans ?_ (ih _ _)
    split
    · exact move a f
    · exact move f a

theorem stay_writeBackTile (s : State) (i : Nat) : Stay p s (s.writeBackTile i) := by
  unfold State.writeBackTile
  extract_lets t
  split
  next g x _ _ =>
    have stored : Stay p s (s.storeTile t g x) := stay_foldl _ (fun _ _ => .of_tasks (by rfl)) _ s
    exact stored.trans (stay_modTask _ i _ fun _ => ⟨by rfl, by rfl⟩)
  · exact .refl s

theorem stay_writeSwap (s : State) (i : Nat) : Stay p s (s.writeSwap i) := by
  unfold State.writeSwap
  split
  · exact .refl s
  next f _ =>
    extract_lets u v w
    have hv : Stay p s v := by
      refine (stay_putOutside s f 2048 (s.packFrame i)).trans ?_
      simp only [v]
      split
      · exact stay_putOutside u _ _ _
      · exact .refl u
    have hw : Stay p v w := stay_modTask v i _ fun _ => ⟨by rfl, by rfl⟩
    exact (hv.trans hw).trans (stay_moveExtents true _ _ w)

theorem stay_jobLeaves (s : State) (i : Nat) (st : JState) : Stay p s (s.jobLeaves i st) :=
  (stay_writeBackTile s i).trans (stay_modTask _ i _ fun _ => ⟨by rfl, by rfl⟩)

theorem stay_startWalk (s : State) (i : Nat) (h : Handle) : Stay p s (s.startWalk i h) := by
  refine .of_tasks ?_
  unfold State.startWalk State.applySide
  dsimp only
  split <;> rfl

theorem stay_jobWalks (s : State) (i : Nat) : Stay p s (s.jobWalks i) := by
  unfold State.jobWalks
  extract_lets m handles
  split
  · exact (stay_jobLeaves s i .done).trans (stay_modTask _ i _ fun _ => ⟨by rfl, by rfl⟩)
  · exact stay_foldl _ (fun s h => stay_startWalk s i h) _ s

theorem stay_markLeaving (s : State) (d : Nat) : Stay p s (s.markLeaving d) :=
  fun j _ => markLeaving_task_keeps Task.place (fun _ _ _ => rfl) s d j

theorem stay_damage_restore (s : State) (i : Nat) : Stay p s (s.damage i .restore) := by
  refine (stay_modTask s i (fun t =>
    { t with dup := { t.dup with s := Vector.ofFn fun k : Fin 32 => Config.freeWord (s.freeCount + k.val) } }) fun _ => ⟨rfl, rfl⟩).trans ?_
  exact .of_tasks rfl

theorem stay_restoreError (s : State) (i : Nat) : Stay p s (s.parityError i .restore) := by
  unfold State.parityError
  extract_lets t
  dsimp only
  refine (stay_damage_restore s i).trans ?_
  exact (Stay.of_tasks (State.logEvent_tasks _ _)).trans (stay_modTask _ i _ fun _ => ⟨by rfl, by rfl⟩)

theorem stay_lostFrame (s : State) (i : Nat) : Stay p s (s.lostFrame i) :=
  (stay_restoreError s i).trans (stay_modTask _ i _ fun _ => ⟨by rfl, by rfl⟩)

theorem stay_setPreds (s : State) (x : Task) (v : List (BitVec 1024)) : Stay p s (s.setPreds x v) := .of_tasks rfl

/-- A task restored from its frame leaves the others where they are. -/
theorem stay_readSwap (s : State) (i : Nat) : Stay (· ≠ i) s (s.readSwap i) := by
  unfold State.readSwap
  split
  · exact .refl s
  next f _ =>
    extract_lets u old lost _ t cwt x v
    have hu : Stay (· ≠ i) s u := stay_moveExtents false _ _ s
    have hv : Stay (· ≠ i) s v := hu.trans ((stay_setTask u i _).trans (stay_setPreds _ _ _))
    clear_value v
    split
    · exact hv.trans (stay_lostFrame v i)
    · exact hv

end Stay

/-- A member that is written out is swapped, its frame where it was; the others stay where they are (R164). -/
theorem sendOut_place (s : State) (i j : Nat) :
    ((s.sendOut i).task j).place = if j = i then (.swapped, (s.task j).swapFrame) else (s.task j).place := by
  have out : Stay (fun _ => True) s ((s.writeBackTile i).writeSwap i) := (stay_writeBackTile s i).trans (stay_writeSwap _ i)
  unfold State.sendOut
  extract_lets u t v
  split
  next h =>
    rw [h, State.task_modTask_same]
    exact congrArg (fun x : TStatus × Option Nat => (TStatus.swapped, x.2)) (out i trivial)
  next h =>
    rw [State.task_modTask_other _ _ _ _ h]
    exact out j trivial

theorem sendOut_swapFrame (s : State) (i j : Nat) : ((s.sendOut i).task j).swapFrame = (s.task j).swapFrame := by
  have h := congrArg Prod.snd (sendOut_place s i j)
  split at h <;> exact h

theorem sendAllOut_place (l : List Nat) (s : State) (j : Nat) :
    ((l.foldl State.sendOut s).task j).place = if j ∈ l then (.swapped, (s.task j).swapFrame) else (s.task j).place := by
  induction l generalizing s with
  | nil => rfl
  | cons i l ih =>
    rw [List.foldl_cons, ih, sendOut_swapFrame, sendOut_place]
    by_cases h : j ∈ l
    · rw [if_pos h, if_pos (.tail _ h)]
    · simp [h]

theorem groupSwapOut_sends (s u : State) (d launch group : Nat) (hd : (s.task group).die = d) (hl : (s.task group).launch = launch)
    (hg : s.groupGoes d (s.group group) = true) (hleave : s.groupLeaves (s.group group) = true)
    (hstop : s.groupStopped (s.group group) = true) (hp : s.placeFrames (s.group group) = some u) :
    exec (.groupSwapOut d launch group) s = .next (((s.group group).foldl State.sendOut u).markLeaving d) := by
  show execGroupSwapOut d launch group s = _
  simp [execGroupSwapOut, hd, hl, hg, hleave, hstop, hp]

/-- A swapped member of a group comes back to its extents and a slot (R31, R164). -/
def State.comeBack (s : State) (i : Nat) : State :=
  let since := s.sinceNow i
  let s := (s.readSwap i).modTask i fun t =>
    { t with status := if t.swapParked then .parked else .ready, swapParked := false, resSince := since }
  let t := s.task i
  if t.job.state = .queued then s.modCore t.die t.core fun x => { x with engine := x.engine ++ [i] }
  else if t.job.state = .parked ∧ t.job.onHandle then s.jobWalks i
  else s

theorem bringIn_cons (s : State) (i : Nat) (l : List Nat) :
    s.bringIn (i :: l) = if !s.returns i then none else (s.comeBack i).bringIn l := rfl

/-- Task i has come back: parked or ready. -/
def State.isBack (s : State) (i : Nat) : Prop := (s.task i).status = .parked ∨ (s.task i).status = .ready

theorem Stay.isBack {p : Nat → Prop} {s t : State} (h : Stay p s t) {j : Nat} (hj : p j) (hb : s.isBack j) : t.isBack j := by
  have e : (t.task j).status = (s.task j).status := congrArg Prod.fst (h j hj)
  unfold State.isBack
  rwa [e]

theorem comeBack_isBack (s : State) (i j : Nat) (h : j = i ∨ s.isBack j) : (s.comeBack i).isBack j := by
  unfold State.comeBack
  extract_lets since u t
  have back : u.isBack j := by
    by_cases hj : j = i
    · subst hj
      simp only [State.isBack, u, State.task_modTask_same]
      split
      · exact .inl rfl
      · exact .inr rfl
    · have restored : Stay (· ≠ i) s u := (stay_readSwap s i).trans (stay_setTask _ i _)
      exact restored.isBack hj (h.resolve_left hj)
  split
  · exact back
  · split
    · exact (stay_jobWalks (p := fun _ => True) u i).isBack trivial back
    · exact back

/-- Every member that comes in is back, and those that were back before are still. -/
theorem bringIn_isBack (l : List Nat) (s u : State) (h : s.bringIn l = some u) (j : Nat) (hj : j ∈ l ∨ s.isBack j) : u.isBack j := by
  induction l generalizing s with
  | nil =>
    cases h
    exact hj.resolve_left (List.not_mem_nil)
  | cons i l ih =>
    rw [bringIn_cons] at h
    split at h
    · cases h
    · refine ih _ h ?_
      rcases hj with hj | hj
      · rcases List.mem_cons.1 hj with rfl | hj
        · exact .inr (comeBack_isBack s j j (.inl rfl))
        · exact .inl hj
      · exact .inr (comeBack_isBack s i j (.inr hj))

theorem groupSwapIn_brings (s u : State) (d launch group : Nat) (hd : (s.task group).die = d) (hl : (s.task group).launch = launch)
    (hout : s.outside (s.group group) ≠ []) (hother : ∀ x ∈ s.openShifts d, x.launch = launch → x.into ∈ s.group group)
    (hb : s.bringIn (s.outside (s.group group)) = some u) : exec (.groupSwapIn d launch group) s = .next (u.markLeaving d) := by
  have other : ((s.openShifts d).any fun x => decide (x.launch = launch) && !(s.group group).contains x.into) = false := by
    simpa using hother
  show execGroupSwapIn d launch group s = _
  unfold execGroupSwapIn
  extract_lets g o
  have h0 : ¬ ((s.task group).die ≠ d ∨ (s.task group).launch ≠ launch ∨ (s.outside g).isEmpty = true ∨ o = true) := by
    simp [hd, hl, g, hout, o, other]
  rw [if_neg h0, hb]

theorem groupSwaps : Stated.GroupSwaps := by
  intro s d launch group hd hl
  refine ⟨fun u hg hleave hstop hp => ⟨_, groupSwapOut_sends s u d launch group hd hl hg hleave hstop hp, fun i hi => ?_⟩,
    fun u hout hother hb => ⟨groupSwapIn_brings s u d launch group hd hl hout hother hb, fun i hi => ?_⟩⟩
  · have place := (stay_markLeaving (p := fun _ => True) _ d i trivial).trans ((sendAllOut_place (s.group group) u i).trans (if_pos hi))
    exact ⟨congrArg Prod.fst place, congrArg Prod.snd place⟩
  · exact bringIn_isBack _ s u hb i (.inl hi)

/-! ### Deadlocks (R132, R251, R361) -/

/-- A loop that changes the task of each of its turns, and no other, by a change that comes to the same when it is made again. -/
theorem foldl_task (f : State → Nat → State) (g : Task → Task) (hsame : ∀ s i, (f s i).task i = g (s.task i))
    (hother : ∀ s i j, j ≠ i → (f s i).task j = s.task j) (hg : ∀ t, g (g t) = g t) (l : List Nat) (s : State) (j : Nat) :
    (l.foldl f s).task j = if j ∈ l then g (s.task j) else s.task j := by
  induction l generalizing s with
  | nil => rfl
  | cons i l ih =>
    rw [List.foldl_cons, ih]
    by_cases hi : j = i
    · subst hi
      simp [hsame, hg]
    · simp [hother s i j hi, hi]

/-- A task with a trap pending, where none is yet. -/
def Task.pendingTrap (r : TrapRec) (t : Task) : Task := { t with pendTrap := some (t.pendTrap.getD r) }

theorem pendTrap_all (r : TrapRec) (l : List Nat) (s : State) (j : Nat) :
    ((l.foldl (fun s i => s.pendTrap i r) s).task j) = if j ∈ l then (s.task j).pendingTrap r else s.task j :=
  foldl_task _ (Task.pendingTrap r) (fun _ _ => State.task_modTask_same _ _ _) (fun s i j h => State.task_modTask_other s i j _ h)
    (fun _ => rfl) l s j

/-- The tasks that have arrived at a crew's round that can never end: their arrival is gone and a trap is pending (R132). -/
def State.roundBroken (s : State) (r : TrapRec) (l : List Nat) : State :=
  l.foldl (fun s a => (s.modTask a fun t => { t with arrival := none }).pendTrap a r) s

theorem roundBroken_task (s : State) (r : TrapRec) (l : List Nat) (j : Nat) :
    (s.roundBroken r l).task j = if j ∈ l then { s.task j with arrival := none, pendTrap := some ((s.task j).pendTrap.getD r) } else s.task j := by
  refine foldl_task _ (fun t => { t with arrival := none, pendTrap := some (t.pendTrap.getD r) }) (fun s i => ?_) (fun s i k h => ?_)
    (fun _ => rfl) l s j
  · rw [State.pendTrap, State.task_modTask_same, State.task_modTask_same]
  · rw [State.pendTrap, State.task_modTask_other _ _ _ _ h, State.task_modTask_other _ _ _ _ h]

/-- No arrival is left at a crew whose arrivals are cleared. -/
theorem crew_modCrew_arrived (s : State) (l n : Nat) (f : Crew → Crew) (hf : ∀ c, (f c).arrived = []) :
    (((s.modCrew l n f).launch l).crew n).arrived = [] := by
  rw [State.modCrew, State.launch_modLaunch_same]
  simp only [Launch.crew, List.getD_eq_getElem?_getD, List.getElem?_modify]
  cases (s.launch l).crews[n]? with
  | none => rfl
  | some c => simpa using hf c

theorem crewDeadlock_breaks (s : State) (launch crew m a : Nat) (ha : a ∈ ((s.launch launch).crew crew).arrived)
    (hm : m ∈ ((s.launch launch).crew crew).members) (hea : (s.task a).evalCell = none) (hem : (s.task m).evalCell = none)
    (hs : (s.task m).status = .queued ∨ (s.task m).status = .pending) (hk : (s.task a).key.ult (s.task m).key = true)
    (hh : s.heldBehind m a = true) :
    exec (.crewDeadlock launch crew) s = .next
      ((s.roundBroken { code := 0x15, info := crew } ((s.launch launch).crew crew).arrived).modCrew launch crew
        fun c => { c with arrived := [], members := c.members ++ c.joining, joining := [] }) := by
  show execCrewDeadlock launch crew s = _
  unfold execCrewDeadlock
  extract_lets c held
  have waits : (c.arrived.any fun a => (s.task a).evalCell.isNone && (s.task a).key.ult (s.task m).key && s.heldBehind m a) = true :=
    List.any_eq_true.2 ⟨a, ha, by simp [hea, hk, hh]⟩
  have hheld : held m = true := by simp [held, hs, hem, waits]
  have h0 : ¬ (c.arrived.isEmpty = true ∨ (!c.members.any held) = true) := by
    have arrivals : c.arrived ≠ [] := List.ne_nil_of_mem ha
    have someHeld : c.members.any held = true := List.any_eq_true.2 ⟨m, hm, hheld⟩
    simp [arrivals, someHeld]
  rw [if_neg h0]
  rfl

theorem epochDeadlock_breaks (s : State) (n e : Nat) (ho : s.openEpoch n = some e) (hs : s.epochStuck n e = true) :
    exec (.epochDeadlock n) s = .next (s.breakBarrier (s.openParts n e ++ s.epochWaiters n e).eraseDups) := by
  show execEpochDeadlock n s = _
  rw [execEpochDeadlock, ho, Option.filter_some, if_pos hs]

theorem deadlocks : Stated.Deadlocks := by
  intro s launch crew n e m a
  refine ⟨fun ha hm hea hem hs hk hh => ⟨_, crewDeadlock_breaks s launch crew m a ha hm hea hem hs hk hh,
    crew_modCrew_arrived _ _ _ _ fun _ => rfl, fun i hi => ?_⟩, fun ho hs => ⟨_, epochDeadlock_breaks s n e ho hs, fun i hi => ?_⟩⟩
  · have broken := (roundBroken_task s { code := 0x15, info := crew } ((s.launch launch).crew crew).arrived i).trans (if_pos hi)
    exact ⟨congrArg Task.arrival broken, congrArg Task.pendTrap broken⟩
  · have pending := (pendTrap_all { code := 0x16 } _ s i).trans (if_pos (List.mem_eraseDups.2 hi))
    exact congrArg Task.pendTrap pending

/-- Settles O38: admission and switches, exchanges and shifts, swaps, and deadlocks. -/
theorem schedulerEvents : Obligations.SchedulerEvents := ⟨tasksComeIn, exchangesAndShifts, groupSwaps, deadlocks⟩

end Sys2Proof.Machine
end

section
/-! SUPPORT. Lanes of rows, rows written by a vector instruction, and the lane-wise forms with readable operands (R98, R99, R192, R194,
R252, R253, R255, R422). -/

set_option Elab.async false

namespace Sys2Proof.Machine

open Stated

/-! ### Lanes (R98, R253) -/

theorem ofLanes_cons (w x : Nat) (l : List Nat) : ofLanes w (x :: l) = ofLanes w l * 2 ^ w + x % 2 ^ w := rfl

theorem ofLanes_lt (w : Nat) (l : List Nat) : ofLanes w l < 2 ^ (w * l.length) := by
  induction l with
  | nil => simp [ofLanes]
  | cons x l ih =>
    calc ofLanes w (x :: l) < (ofLanes w l + 1) * 2 ^ w := by
          rw [ofLanes_cons, Nat.succ_mul]
          exact Nat.add_lt_add_left (Nat.mod_lt _ (by positivity)) _
      _ ≤ 2 ^ (w * l.length) * 2 ^ w := Nat.mul_le_mul_right _ ih
      _ = 2 ^ (w * (x :: l).length) := by rw [← pow_add, List.length_cons, Nat.mul_succ]

/-- Lane i of a number made of lanes is the one given. -/
theorem laneOf_ofLanes (w : Nat) (l : List Nat) (i : Nat) (hi : i < l.length) : laneOf w (ofLanes w l) i = l[i] % 2 ^ w := by
  induction l generalizing i with
  | nil => simp at hi
  | cons x l ih =>
    cases i with
    | zero => simp [laneOf, ofLanes_cons]
    | succ i =>
      rw [List.getElem_cons_succ, ← ih i (Nat.lt_of_succ_lt_succ hi), laneOf, laneOf, Nat.mul_succ, Nat.add_comm, pow_add,
        ← Nat.div_div_eq_div_mul, ofLanes_cons, Nat.mul_comm, Nat.mul_add_div (by positivity), Nat.div_eq_of_lt (Nat.mod_lt _ (by positivity)),
        Nat.add_zero]

theorem laneOf_rowOfLanes (w : Nat) (l : List Nat) (i : Nat) (hl : w * l.length ≤ 2048) (hi : i < l.length) :
    laneOf w (rowOfLanes w l).toNat i = l[i] % 2 ^ w := by
  have fits : ofLanes w l < 2 ^ 2048 := (ofLanes_lt w l).trans_le (Nat.pow_le_pow_right Nat.two_pos hl)
  rw [rowOfLanes, BitVec.toNat_ofNat, Nat.mod_eq_of_lt fits, laneOf_ofLanes w l i hi]

theorem laneOf_mod (w r i : Nat) : laneOf w r i % 2 ^ w = laneOf w r i := Nat.mod_mod _ _

/-- The lanes of a type fill a row (R185). -/
theorem VTy.width_mul_lanes (t : VTy) : t.width * t.lanes = 2048 := by cases t <;> rfl

/-- A row computed lane by lane holds the result in its active lanes, and the old lane elsewhere (R253). -/
theorem laneOf_lanesOf (t : VTy) (m : Mask) (old : Row) (f : Nat → Nat) (i : Nat) (hi : i < t.lanes) :
    laneOf t.width (lanesOf t m old f).toNat i = if m.getLsbD i then f i % 2 ^ t.width else laneOf t.width old.toNat i := by
  have len : ((laneIdx t).map fun i => if active m i then f i else laneOf t.width old.toNat i).length = t.lanes := by simp [laneIdx]
  rw [lanesOf, laneOf_rowOfLanes _ _ _ (by rw [len, VTy.width_mul_lanes]) (by rwa [len])]
  simp only [laneIdx, List.getElem_map, List.getElem_range, active]
  split
  · rfl
  · exact laneOf_mod _ _ _

/-! ### Tables -/

theorem smFind_smPut {α : Type} (m : SMap α) (k j : Nat) (v : α) : smFind (smPut m k v) j = if j = k then some v else smFind m j := by
  induction m with
  | nil => by_cases h : k = j <;> simp [smPut, smFind, h, eq_comm]
  | cons e m ih =>
    obtain ⟨k', v'⟩ := e
    have head (l : SMap α) (a : Nat) (x : α) : smFind ((a, x) :: l) j = if a = j then some x else smFind l j := by
      by_cases h : a = j <;> simp [smFind, h]
    simp only [smPut]
    split
    · simp only [head, eq_comm]
    · split
      next h => subst h; simp only [head, eq_comm]; split <;> rfl
      next h =>
        simp only [head, ih]
        by_cases hj : k' = j
        · subst hj; simp [Ne.symm h]
        · simp [hj]

theorem mem_foldl_setInsert (l m : List Nat) (u : Nat) : u ∈ m.foldl setInsert l ↔ u ∈ l ∨ u ∈ m := by
  induction m generalizing l with
  | nil => simp
  | cons x m ih => simp only [List.foldl_cons, ih, mem_setInsert, List.mem_cons]; tauto

/-! ### Rows written (R99, R192, R194, R255, R422) -/

/-- The record of the issuing task after a write of the first n bytes of its row r: the row is saved for a rollback the first time, and a
withheld store to those bytes is gone. -/
def State.rowSaved (s : State) (r n : Nat) (t : Task) : Task :=
  let a := s.vaddr r
  let kept := (smFind t.shadow r).isSome
  { t with
    shadow := if kept then t.shadow else smPut t.shadow r (BitVec.ofNat 2048 (s.bytes a 256))
    shadowBad := if kept then t.shadowBad else (s.poison.filter fun u => overlaps u 64 a 256).foldl setInsert t.shadowBad
    withheld := t.withheld.filter fun x => !inside x.pa x.len a n }

/-- A write of row bytes is one update of the task's record, and one write of bytes. -/
theorem State.putRowBytes_eq (s : State) (r n : Nat) (v : Row) :
    s.putRowBytes r n v = ((s.keepRow r).modMe (s.rowSaved r n)).putBytes (s.vaddr r) n v.toNat := by
  simp only [State.putRowBytes, State.modMe_modMe]
  congr 2
  funext t
  simp only [State.rowSaved]
  split <;> rfl

/-- An operation that replaces the latches of its task and then writes the first n bytes of a row. -/
theorem rowBytesWritten_putRowBytes (s u : State) (l : Latches) (r n : Nat) (v : Row) (hu : OnlyMe s u)
    (hl : u.me = { s.me with latches := l }) : RowBytesWritten s (u.putRowBytes r n v) r n v.toNat l := by
  rw [State.putRowBytes_eq]
  have iss : u.iss = s.iss := by rw [hu]; rfl
  have va : u.vaddr r = s.vaddr r := by rw [State.vaddr, State.vaddr, hl, iss, hu]; rfl
  have mem : u.mem = s.mem := by rw [hu]; rfl
  have poison : u.poison = s.poison := by rw [hu]; rfl
  generalize ht : ((u.keepRow r).modMe (u.rowSaved r n)).putBytes (u.vaddr r) n v.toNat = t
  have me : t.me = u.rowSaved r n u.me := by subst ht; exact State.me_modMe (u.keepRow r) _
  have tasks : t.tasks = smPut s.tasks s.iss.task t.me := by
    rw [me]; subst ht
    have before : u.tasks = smPut s.tasks s.iss.task u.me := congrArg State.tasks hu
    calc smPut u.tasks u.iss.task (u.rowSaved r n u.me)
        = smPut (smPut s.tasks s.iss.task u.me) s.iss.task (u.rowSaved r n u.me) := by rw [iss, ← before]
      _ = _ := smPut_smPut _ _ _ _
  refine ⟨?_, fun a => ?_, fun x => ?_, ?_, ?_, fun x => ?_, fun x => ?_, fun m => ?_⟩
  · calc t = { u with tasks := t.tasks, iss := t.iss, mem := t.mem, poison := t.poison, dirty := t.dirty } := by subst ht; rfl
      _ = { s.setTask s.iss.task t.me with iss := t.iss, mem := t.mem, poison := t.poison, dirty := t.dirty } := by rw [tasks, hu]; rfl
  · subst ht; rw [← va, ← mem]; exact memByte_memWrite _ _ _ _ _
  · subst ht; rw [← va, ← poison]; exact mem_poison_putBytes _ _ _ _ _
  · subst ht; rw [← iss]; rfl
  · rw [me, hl]; rfl
  · simp [me, hl, State.rowSaved, va]
  · rw [me, hl]
    simp only [State.rowSaved, va, poison]
    cases smFind s.me.shadow r <;> simp [mem_foldl_setInsert]
  · rw [me, hl]
    simp only [State.rowSaved, State.bytes, va, mem]
    cases smFind s.me.shadow r <;> simp [smFind_smPut]

/-- What writes a latch of a V port, as one update of the issuing task. -/
theorem onlyMe_putLv (s : State) (v : Row) : OnlyMe s (s.putLv v) ∧ (s.putLv v).me = { s.me with latches := vLatch s v } :=
  ⟨State.modMe_eq s _, State.me_modMe s _⟩

/-- A row result is the latch of its V port and, unless NW = 1, the row (R192, R194). -/
theorem resultV_resV (s : State) (d : Fin 32) (v : Row) (nw : Bool) : ResultV s (s.resV d v nw) d v nw := by
  obtain ⟨only, me⟩ := onlyMe_putLv s v
  cases nw with
  | true => exact ⟨fun _ => ⟨only, me⟩, fun h => absurd h (by decide)⟩
  | false => exact ⟨fun h => absurd h (by decide), fun _ => rowBytesWritten_putRowBytes s _ _ _ _ v only me⟩

/-! ### The operands of a row result (R176, R253, R422) -/

/-- A register that may be read and written passes its checks, whether the operation reads it or not. -/
theorem dstRow_ok (s : State) (d : Fin 32) (keeps : Bool) (h : RowUsable s d) : s.dstRow d keeps = .ok (s.rowBefore (s.vrow d)) := by
  obtain ⟨⟨rows, out, stalls⟩, poison⟩ := h
  cases keeps <;>
    simp [State.dstRow, State.destV, State.regV, State.checkV, require, bind, Except.bind, rows, out, stalls, poison]

/-- A lane-wise instruction with two sources, where all its rows can be read (R253). -/
theorem lane2_ok (t : VTy) (d : Fin 32) (a b : VSrc) (m : Fin 8) (nw usesD : Bool) (f : State → Nat → Nat → Nat → Nat → Nat → Nat)
    (s : State) (x y : Row) (ha : s.srcV a = .ok x) (hb : s.srcV b = .ok y) (hd : RowUsable s d) :
    ∃ u, lane2 t d a b m nw usesD f s = .ok u ∧ (∃ v, u = s.resV d v nw) ∧ LaneResult s u t d m nw fun i =>
      f s (s.vrow d) i (lane t x i) (lane t y i) (lane t (s.rowBefore (s.vrow d)) i) := by
  refine ⟨_, ?_, ⟨_, rfl⟩, _, resultV_resV s d _ nw, fun i hi => laneOf_lanesOf t (s.regM m) _ _ i hi⟩
  simp [lane2, ha, hb, dstRow_ok s d _ hd, bind, Except.bind, lane]

/-- A lane-wise instruction with one source, where all its rows can be read (R253). -/
theorem lane1_ok (t : VTy) (d : Fin 32) (a : VSrc) (m : Fin 8) (nw : Bool) (f : State → Nat → Nat → Nat → Nat) (s : State)
    (x : Row) (ha : s.srcV a = .ok x) (hd : RowUsable s d) :
    ∃ u, lane1 t d a m nw f s = .ok u ∧ (∃ v, u = s.resV d v nw) ∧ LaneResult s u t d m nw fun i => f s (s.vrow d) i (lane t x i) := by
  refine ⟨_, ?_, ⟨_, rfl⟩, _, resultV_resV s d _ nw, fun i hi => laneOf_lanesOf t (s.regM m) _ _ i hi⟩
  simp [lane1, ha, dstRow_ok s d _ hd, bind, Except.bind, lane]

end Sys2Proof.Machine
end

section
/-! SUPPORT. Vector divides, square roots and remainders, and reductions (R55, R256, R269 to R272). -/

set_option Elab.async false

namespace Sys2Proof.Machine

open Stated

/-! ### The dividers of the V ports (R256, R270) -/

/-- The state with a divider of the issuing V port taken, floating or integer, until a clock. -/
def State.dividing (s u : State) (int : Bool) (clocks : Nat) : State :=
  u.modMyCore fun c =>
    let x : Divider := { task := some s.iss.task, doneAt := s.clock + clocks }
    if int then { c with idiv := smPut c.idiv s.iss.vPort x } else { c with fdiv := smPut c.fdiv s.iss.vPort x }

@[simp] theorem resV_myCore (s : State) (d : Fin 32) (v : Row) (nw : Bool) : (s.resV d v nw).myCore = s.myCore := by cases nw <;> rfl
@[simp] theorem resV_clock (s : State) (d : Fin 32) (v : Row) (nw : Bool) : (s.resV d v nw).clock = s.clock := by cases nw <;> rfl
@[simp] theorem resV_iss_task (s : State) (d : Fin 32) (v : Row) (nw : Bool) : (s.resV d v nw).iss.task = s.iss.task := by cases nw <;> rfl
@[simp] theorem resV_iss_vPort (s : State) (d : Fin 32) (v : Row) (nw : Bool) : (s.resV d v nw).iss.vPort = s.iss.vPort := by cases nw <;> rfl

/-- After a row result, a free floating divider is taken, and a busy one makes the bundle wait. -/
theorem takeFdiv_resV (s : State) (d : Fin 32) (v : Row) (nw : Bool) (clocks : Nat) :
    (s.resV d v nw).takeFdiv clocks = if (smGet {} s.myCore.fdiv s.iss.vPort).task = none then .ok (s.dividing (s.resV d v nw) false clocks)
      else waits (.fdiv s.iss.vPort) := by
  cases h : (smGet {} s.myCore.fdiv s.iss.vPort : Divider).task <;> simp [State.takeFdiv, State.dividing, h]

/-- After a row result, a free integer divider is taken. -/
theorem takeIdiv_resV (s : State) (d : Fin 32) (v : Row) (nw : Bool) (clocks : Nat) (h : (smGet {} s.myCore.idiv s.iss.vPort : Divider).task = none) :
    (s.resV d v nw).takeIdiv clocks = .ok (s.dividing (s.resV d v nw) true clocks) := by
  simp [State.takeIdiv, State.dividing, h]

/-- Significant bits of the longest quotient of the active lanes, which fixes the time of `vidiv` and `virem` (R270). -/
def longestQuot (t : VTy) (m : Mask) (x y : Row) : Nat :=
  (laneIdx t).foldl (fun acc i =>
    if active m i then max acc (quotBits (divide t.width (vsigned t) (lane t x i) (lane t y i)).1) else acc) 0

/-- `vidiv` and `virem` on a free divider: the quotients or remainders, which take it (R270). -/
theorem vdivOp_free (s : State) (o : VBin) (rem : Bool) (x y : Row) (ha : s.srcV o.a = .ok x) (hb : s.srcV o.b = .ok y) (hd : RowUsable s o.d)
    (h : (smGet {} s.myCore.idiv s.iss.vPort : Divider).task = none) :
    ∃ u, vdivOp o rem s = .ok (s.dividing u true (4 + (longestQuot o.t (s.regM o.m) x y + 1) / 2)) ∧ LaneResult s u o.t o.d o.m o.nw fun i =>
      let z := divide o.t.width (vsigned o.t) (lane o.t x i) (lane o.t y i)
      wrapInt o.t.width (if rem then z.2 else z.1) := by
  obtain ⟨u, run, ⟨v, rfl⟩, lanes⟩ := lane2_ok o.t o.d o.a o.b o.m o.nw false (fun _ _ _ x y _ =>
    let r := divide o.t.width (vsigned o.t) x y
    wrapInt o.t.width (if rem then r.2 else r.1)) s x y ha hb hd
  refine ⟨_, ?_, lanes⟩
  simp only [vdivOp, ha, hb, run, bind, Except.bind]
  exact takeIdiv_resV s o.d v o.nw _ h

theorem vectorDivideResults : Stated.VectorDivideResults := by
  intro s o q r x y hoa hob hod hqa hqd hra hrb hrd
  obtain ⟨u, urun, ⟨v, rfl⟩, ulanes⟩ := lane2_ok o.t o.d o.a o.b o.m o.nw false (fun s q i x y z =>
    roundF o.md (s.laneDraw o.md q i) (vfmt o.t) (divF (decodeF (vfmt o.t) x) (decodeF (vfmt o.t) y))) s x y hoa hob hod
  obtain ⟨w, wrun, ⟨z, rfl⟩, wlanes⟩ := lane1_ok q.t q.d q.a q.m q.nw (fun s k i x =>
    roundF q.md (s.laneDraw q.md k i) (vfmt q.t) (sqrtF (decodeF (vfmt q.t) x))) s x hqa hqd
  have div : actVdiv o s = (s.resV o.d v o.nw).takeFdiv (fdivClocks o.t) := by
    simp only [actVdiv, float2, urun, bind, Except.bind]
  have sqrt : actVsqrt q s = (s.resV q.d z q.nw).takeFdiv (fdivClocks q.t) := by
    simp only [actVsqrt, wrun, bind, Except.bind]
  rw [takeFdiv_resV] at div sqrt
  refine ⟨fun free => ?_, fun busy => ?_, fun free p hp => ?_⟩
  · rw [if_pos free] at div sqrt
    exact ⟨⟨_, congrArg (resolve s) div, ulanes⟩, _, congrArg (resolve s) sqrt, wlanes⟩
  · rw [if_neg busy] at div sqrt
    exact ⟨congrArg (resolve s) div, congrArg (resolve s) sqrt⟩
  · obtain ⟨u, run, lanes⟩ := vdivOp_free s r p.2 x y hra hrb hrd free
    refine ⟨u, (longestQuot r.t (s.regM r.m) x y + 1) / 2, ?_, lanes⟩
    simp only [List.mem_cons, List.not_mem_nil, or_false] at hp
    obtain rfl | rfl := hp
    all_goals
      refine (congrArg (resolve s) run).trans ?_
      simp only [State.dividing, Nat.add_assoc]
      rfl

/-! ### Reductions (R271, R272) -/

/-- A reduction whose row can be read replaces its low bytes (R271). -/
theorem reduce_ok (s : State) (o : VUn) (n : Nat) (f : List Nat → Nat) (x : Row) (ha : s.srcV o.a = .ok x) (hd : RowUsable s o.d) :
    ∃ t, resolve s (reduce o n f s) = .next t
      ∧ ResultV s t o.d (lowBytes (s.rowBefore (s.vrow o.d)) n (f (selected o.t (s.regM o.m) x))) o.nw := by
  refine ⟨_, ?_, resultV_resV s _ _ _⟩
  simp only [reduce, ha, dstRow_ok s o.d true hd, bind, Except.bind]
  rfl

/-- The sum of R271: no lanes give 0, floating lanes their tree, integers their sum modulo 2^32. -/
theorem redSum_eq (t : VTy) (l : List Nat) : redSum t l = if l = [] then 0
    else if t.isF8 then roundF .rne 0 .f32 (pairTree (l.map (decodeF (vfmt t))))
    else (((l.map fun z => if vsigned t then sextNat t.width z else (z : Int)).sum) % 2 ^ 32).toNat := by
  rw [redSum, ← List.sum_eq_foldl]
  simp only [List.isEmpty_iff]
  rfl

/-- The value of R272: with no lane selected the accumulator stays. -/
theorem dotVal_eq (t : VTy) (m : Mask) (x y : Row) (c : Nat) : dotVal t m x y c =
    let ps := ((List.range t.lanes).filter fun i => m.getLsbD i).map fun i => mulF (flane t x i) (flane t y i)
    if ps = [] then c else roundF .rne 0 .f32 (addF .rne (decodeF .f32 c) (pairTree ps)) := by
  simp only [dotVal, List.isEmpty_iff]
  rfl

theorem reductionResults : Stated.ReductionResults := by
  intro s o r x y hoa hod hra hrb hrd
  refine ⟨?_, reduce_ok s o _ (redPick o.t true) x hoa hod, reduce_ok s o _ (redPick o.t false) x hoa hod, ?_⟩
  · rw [← redSum_eq]
    exact reduce_ok s o 4 (redSum o.t) x hoa hod
  · rw [← dotVal_eq]
    refine ⟨_, ?_, resultV_resV s _ _ _⟩
    show resolve s (actVdot r s) = _
    simp only [actVdot, hra, hrb, dstRow_ok s r.d true hrd, bind, Except.bind]
    rfl

/-- Settles O25: the dividers' instructions and the reductions, each from its operands' rows. -/
theorem vectorDivideReduce : Obligations.VectorDivideReduce := ⟨vectorDivideResults, reductionResults⟩

end Sys2Proof.Machine
end

section
/-! SUPPORT. Flushes, tends and folds at a stack (R66, R112 to R114, R332 to R334, R397, R399). -/

set_option Elab.async false

namespace Sys2Proof.Machine

/-! ### What the end of a command leaves alone (R307, R330, R406) -/

/-- What the stacks hold: the bytes of memory and the open fold rounds. -/
def State.held (s : State) : Mem × List FoldRound := (s.mem, s.rounds)

theorem State.mem_eq_of_held {s t : State} (h : t.held = s.held) : t.mem = s.mem := congrArg Prod.fst h

theorem State.rounds_eq_of_held {s t : State} (h : t.held = s.held) : t.rounds = s.rounds := congrArg Prod.snd h

@[simp] theorem held_startWalk (s : State) (i : Nat) (h : Handle) : (s.startWalk i h).held = s.held := by
  simp only [State.startWalk, State.applySide]
  split <;> rfl

@[simp] theorem held_modRelay (s : State) (d c e : Nat) (f : Relay → Relay) : (s.modRelay d c e f).held = s.held := rfl

@[simp] theorem held_relayDone (s : State) (d c e : Nat) (st : Status) : (s.relayDone d c e st).held = s.held := rfl

theorem held_relayLoad (s : State) (d c e : Nat) : (s.relayLoad d c e).held = s.held := by
  simp only [State.relayLoad]
  (repeat' split) <;> simp

theorem held_relayFire (s : State) (d c e : Nat) : (s.relayFire d c e).held = s.held := by
  simp only [State.relayFire]
  split
  · split
    · rfl
    · split <;> rfl
  · exact held_relayLoad _ d c e

theorem held_relayTest (s : State) (d c : Nat) : (s.relayTest d c).held = s.held :=
  foldl_keeps State.held _ (fun s e => by split; exacts [held_relayFire s d c e.1, rfl]) _ s

theorem held_relayDelivered (s : State) (d c e : Nat) (st : Status) : (s.relayDelivered d c e st).held = s.held := by
  simp only [State.relayDelivered]
  split
  · split
    · exact held_relayTest _ d c
    · rfl
  · rfl

theorem held_finishCmd (s : State) (c : Cmd) (st : Status) : (s.finishCmd c st).held = s.held := by
  unfold State.finishCmd
  split
  · exact held_relayDelivered _ _ _ _ _
  · rfl

/-- The answer of a stack to a command changes no byte of memory and no round. -/
theorem held_answerCmd (s : State) (c : Cmd) (st : Status) : (s.answerCmd c st).held = s.held := by
  unfold State.answerCmd
  split
  · exact held_finishCmd s c st
  · rfl

theorem held_endPart (s : State) (p : Contribution) (st : Status) : (s.endPart p st).held = s.held := by
  unfold State.endPart
  cases s.partCmd p with
  | none => rfl
  | some c => exact held_answerCmd s c st

theorem held_endParts (s : State) (l : List Contribution) (st : Status) : (s.endParts l st).held = s.held :=
  foldl_keeps State.held _ (fun s p => held_endPart s p st) l s

/-! ### The flush engine (R113, R397) -/

/-- The one command that waits at an idle flush engine is flushed for. -/
theorem exec_flushCommand_one (s : State) (d : Nat) (x : Cmd) (hid : ∀ y ∈ s.cmds, y.id = x.id → y = x) (hx : x ∈ s.cmds)
    (hb : s.flushBusy d = false) (hq : s.flushQueue d = [(x.order, Sum.inl x.id)]) :
    exec (.flushCommand d) s = .next ((s.flushRanges (x.reads ++ x.writes)).modCmd x.id fun c => { c with flushed := true }) := by
  have found : s.cmds.find? (fun c => decide (c.id = x.id)) = some x := by
    cases h : s.cmds.find? (fun c => decide (c.id = x.id)) with
    | none => simpa using List.find?_eq_none.1 h x hx
    | some y => rw [hid y (List.mem_of_find?_eq_some h) (by simpa using List.find?_some h)]
  show execFlushCommand d s = _
  simp [execFlushCommand, hb, hq, found]

theorem flushEvents : Stated.FlushEvents := by
  intro s d x hid hx
  refine ⟨exec_flushCommand_one s d x hid hx, fun hf hd => ⟨_, rfl, rfl, fun y hy hyx => ?_⟩⟩
  obtain ⟨z, hz, rfl⟩ := List.mem_map.1 hy
  have hzx : z = x := by
    refine hid z hz ?_
    rw [← hyx]
    split <;> rfl
  have on : z.flushed = true ∧ (z.reads ++ z.writes).any (fun r => decide (paDie r.1 = d)) = true := by
    obtain ⟨r, hr, hrd⟩ := hd
    exact ⟨hzx ▸ hf, List.any_eq_true.2 ⟨r, hzx ▸ hr, decide_eq_true hrd⟩⟩
  simp [on]

/-! ### Tend (R332) -/

theorem mem_stackPut (s : State) (pa n v : Nat) : (s.stackPut pa n v).mem = memWrite s.mem pa n v := rfl

theorem exec_tendBlock_runs (s : State) (n : Nat) (x : Cmd) (hx : s.cmds[n]? = some x) (hk : x.kind = .stend) (ha : x.answer = none)
    (hr : s.stackReady x = true) (hg : s.gangDrops x.launch x.die x.target = false) : exec (.tendBlock n) s = .next (s.tendStep x) := by
  show execTendBlock n s = _
  simp [execTendBlock, hx, hk, ha, hr, hg]

theorem tendEvent : Stated.TendEvent := by
  intro s n x hx hk ha hr hg k b h u mo ms ro rs uo hbad upd new at_
  refine ⟨_, exec_tendBlock_runs s n x hx hk ha hr hg, ?_⟩
  simp only [State.tendStep, decide_eq_true_eq]
  split
  next h => cases hbad.symm.trans h
  next h => cases hbad.symm.trans h
  · split
    · rfl
    · exact State.mem_eq_of_held (held_answerCmd _ x 0)

/-! ### Rows and rounds (R66, R333, R399) -/

/-- What a row receives depends on the bytes of memory alone. -/
theorem mem_addRun_congr {s t : State} (h : s.mem = t.mem) (x : FoldId) (v : Nat → FVal) : (s.addRun x v).mem = (t.addRun x v).mem := by
  suffices run : ∀ (l : List Nat) (s t : State), s.mem = t.mem →
      (l.foldl (fun s i => s.addToRow x i (v i)) s).mem = (l.foldl (fun s i => s.addToRow x i (v i)) t).mem from run _ s t h
  intro l
  induction l with
  | nil => exact fun s t h => h
  | cons i l ih =>
    refine fun s t h => ih _ _ ?_
    simp only [State.addToRow, mem_stackPut, State.bytes, h]

theorem rounds_addRun (s : State) (x : FoldId) (v : Nat → FVal) : (s.addRun x v).rounds = s.rounds :=
  foldl_keeps State.rounds (fun s i => s.addToRow x i (v i)) (fun _ _ => rfl) _ s

/-- The sum of a list of contributions, element by element, a rank that is missing being −0 (R54, R66, R334). -/
def foldSum (x : FoldId) (l : List Contribution) (i : Nat) : FVal := pairTree ((List.range x.nrank).map fun r => leafOf l r i)

/-- A round whose row nothing stops leaves the stack, and its row receives the sum (R66). -/
theorem applyRound_clean (s : State) (x : FoldRound) (claim : Bool) (h : s.foldBad x.id (claim || x.parts.any (·.claim)) = none) :
    (s.applyRound x claim).held = ((s.addRun x.id (foldSum x.id x.parts)).mem, s.rounds.erase x) := by
  have clean : ({ s with rounds := s.rounds.erase x } : State).foldBad x.id (claim || x.parts.any (·.claim)) = none := h
  simp only [State.applyRound, clean]
  exact (held_endParts _ _ _).trans (congrArg₂ Prod.mk (mem_addRun_congr (by rfl) _ _) (rounds_addRun _ _ _))

/-- Where the oldest round of an identity is not full, none of it is applied. -/
theorem applyFull_open (s : State) (x : FoldId) (n : Nat) (h : ∀ r, s.firstRound x = some r → r.parts.length ≠ x.nrank) :
    s.applyFull x n = s := by
  cases n with
  | zero => rfl
  | succ n =>
    unfold State.applyFull
    split
    next r hr => rw [if_neg (h r hr)]
    · rfl

/-- A contribution that finds no round of its identity, and room, opens one (R333, R399; log 43). -/
theorem stageFold_opens (s : State) (m : FoldMsg) (hid : ∀ r ∈ s.rounds, r.id ≠ m.id) (hn : m.id.nrank ≠ 1)
    (room : s.stagingUsed (stackOf m.id.addr) + m.id.len * m.id.nrank * 4 ≤ s.stagingBytes (stackOf m.id.addr).1 (stackOf m.id.addr).2)
    (hw : m.waiting = true ∨ ∀ y ∈ s.foldMsgs, y.waiting = false) :
    s.stageFold m = { s.dropMsg m with
      rounds := s.rounds ++ [{ id := m.id, reserved := m.id.len * m.id.nrank * 4, parts := [m.part] }] } := by
  have absent : s.rounds.find? (fun r => decide (r.id = m.id ∧ (!r.parts.any fun p => decide (p.rank = m.part.rank)) = true)) = none :=
    List.find?_eq_none.2 fun r hr => by simp [hid r hr]
  have queue : (!m.waiting && s.foldMsgs.any fun y => y.waiting && decide (stackOf y.id.addr = stackOf m.id.addr)) = false := by
    obtain h | h := hw
    · simp [h]
    · simp +contextual [h]
  simp only [State.stageFold, absent, queue, if_neg (Nat.not_lt.2 room),
    if_neg (Nat.not_lt.2 ((Nat.le_add_left _ _).trans room)), Bool.or_false, decide_eq_true_eq]
  refine applyFull_open _ _ _ fun r hr => ?_
  have new : r = { id := m.id, reserved := m.id.len * m.id.nrank * 4, parts := [m.part] } := by
    have fresh : s.rounds.find? (fun r => decide (r.id = m.id)) = none := List.find?_eq_none.2 fun r hr => by simp [hid r hr]
    simp only [State.firstRound, List.find?_append, fresh] at hr
    simpa using hr.symm
  rw [new]
  exact hn.symm

/-- The last contribution of the one open round applies it (R66, R333). -/
theorem stageFold_last (s : State) (m : FoldMsg) (r : FoldRound) (hr : s.rounds = [r]) (hid : r.id = m.id)
    (hrank : ∀ p ∈ r.parts, p.rank ≠ m.part.rank) (hlen : r.parts.length + 1 = m.id.nrank)
    (hb : s.foldBad m.id ((r.parts ++ [m.part]).any (·.claim)) = none) :
    (s.stageFold m).held = ((s.addRun m.id (foldSum m.id (r.parts ++ [m.part]))).mem, []) := by
  let full : FoldRound := { r with parts := r.parts ++ [m.part] }
  have found : s.rounds.find? (fun r => decide (r.id = m.id ∧ (!r.parts.any fun p => decide (p.rank = m.part.rank)) = true)) = some r := by
    simpa [hr, hid] using hrank
  have applied : s.stageFold m = State.applyRound { s.dropMsg m with rounds := [full] } full := by
    simp only [State.stageFold, found]
    simp [hr, State.applyFull, State.firstRound, hid, hlen, full]
  have clean : ({ s.dropMsg m with rounds := [full] } : State).foldBad full.id (false || full.parts.any (·.claim)) = none := hid ▸ hb
  rw [applied, applyRound_clean _ full false clean, ← hid]
  exact congrArg₂ Prod.mk (mem_addRun_congr (by rfl) _ _) (List.erase_cons_head ..)

/-- An `sflush` applies the one open round, which leaves none to apply after it (R334). -/
theorem held_closeRound (s : State) (r : FoldRound) (p : Contribution) (st : Status) (n : Nat) (hr : s.rounds = [r])
    (hb : s.foldBad r.id (p.claim || r.parts.any (·.claim)) = none) :
    (((s.applyRound r p.claim).endPart p st).applyFull r.id n).held = ((s.addRun r.id (foldSum r.id r.parts)).mem, []) := by
  have closed := (held_endPart (s.applyRound r p.claim) p st).trans (applyRound_clean s r p.claim hb)
  rw [hr, List.erase_cons_head] at closed
  have rounds : ((s.applyRound r p.claim).endPart p st).rounds = [] := congrArg Prod.snd closed
  rw [applyFull_open _ _ _ fun x hx => by simp [State.firstRound, rounds] at hx, closed]

/-! ### Messages that arrive (R333, R334; log 42) -/

/-- A contribution with the values that it carries, or that its source holds as it arrives. -/
theorem foldData_eq (s : State) (m : FoldMsg) (hf : m.isFlush = false) : s.foldData m = { m with part := { m.part with
    data := if m.part.relay = none ∧ m.part.data = [] then words32 (s.outerBytes m.src (4 * m.id.len)) (4 * m.id.len) else m.part.data } } := by
  have unread : m.unread = true ↔ m.part.relay = none ∧ m.part.data = [] := by simp [FoldMsg.unread, hf]
  simp only [State.foldData, unread]
  split <;> rfl

/-- The state in which message n has its values. -/
def State.dataRead (s : State) (n : Nat) (m : FoldMsg) : State := { s with foldMsgs := s.foldMsgs.set n (s.foldData m) }

/-- No poison stops the reading of a contribution's values. -/
theorem unread_clean (s : State) (m : FoldMsg) (hp : m.part.relay = none → m.part.data = [] → s.poisoned m.src (4 * m.id.len) = false) :
    (m.unread && s.poisoned m.src (4 * m.id.len)) = false := by
  cases hu : m.unread with
  | false => rfl
  | true =>
    simp only [FoldMsg.unread, Bool.and_eq_true, Option.isNone_iff_eq_none, List.isEmpty_iff] at hu
    obtain ⟨⟨relay, -⟩, data⟩ := hu
    exact hp relay data

section Arrival
variable (s : State) (n : Nat) (m : FoldMsg) (hm : s.foldMsgs[n]? = some m) (hw : m.waiting = false) (ha : s.mayArrive m n = true)
  (hg : s.gangDrops m.launch (s.msgDie m) m.id.addr = false)
include hm hw ha hg

/-- An `sflush` in deterministic mode closes the oldest round of its row (R334). -/
theorem exec_foldContribution_closes (hf : m.isFlush = true) (hd : m.det = true) (r : FoldRound) (hr : s.firstRound m.id = some r) :
    exec (.foldContribution n) s = .next ((((s.dropMsg m).applyRound r m.part.claim).endPart m.part
      ((s.dropMsg m).roundStatus r m.part.claim)).applyFull m.id (s.dropMsg m).rounds.length) := by
  have first : (s.dropMsg m).firstRound m.id = some r := hr
  show execFoldContribution n s = _
  simp [execFoldContribution, hm, hw, ha, hg, hf, hd, first]

/-- An `sflush` with no round to close only completes (R334). -/
theorem exec_foldContribution_idle (hf : m.isFlush = true) (h : m.det = false ∨ s.firstRound m.id = none) :
    exec (.foldContribution n) s = .next ((s.dropMsg m).endPart m.part 0) := by
  have first : (if m.det then (s.dropMsg m).firstRound m.id else none) = none := by
    obtain h | h := h
    · simp [h]
    · exact ite_eq_right_iff.2 fun _ => h
  show execFoldContribution n s = _
  simp [execFoldContribution, hm, hw, ha, hg, hf, first]

variable (hf : m.isFlush = false)
  (hp : m.part.relay = none → m.part.data = [] → s.poisoned m.src (4 * m.id.len) = false) (hh : s.runHeld m.id = false)
include hf hp hh

/-- A contribution in deterministic mode goes to its round, with its values (R333). -/
theorem exec_foldContribution_stages (hd : m.det = true) : exec (.foldContribution n) s
    = .next ((s.dataRead n m).stageFold (s.foldData m)) := by
  show execFoldContribution n s = _
  simp [execFoldContribution, hm, hw, ha, hg, hf, hd, hh, unread_clean s m hp, State.dataRead]

/-- A contribution outside deterministic mode is added to its row, with its values (R333). -/
theorem exec_foldContribution_adds (hd : m.det = false) (hb : s.foldBad m.id m.part.claim = none) : exec (.foldContribution n) s
    = .next ((((s.dataRead n m).dropMsg (s.foldData m)).addRun m.id fun i => f32 ((s.foldData m).part.data.getD i 0)).endPart m.part 0) := by
  have clean : ((s.dataRead n m).dropMsg (s.foldData m)).foldBad m.id m.part.claim = none := hb
  show execFoldContribution n s = _
  simp only [State.dataRead] at clean ⊢
  simp [execFoldContribution, hm, hw, ha, hg, hf, hd, hh, unread_clean s m hp, clean]

end Arrival

theorem foldEvents : Stated.FoldEvents := by
  intro s n m hm need st sum
  refine ⟨fun hw ha hg => ⟨?_, fun hf => ⟨fun hd r hr hid hb => ?_, fun h => ?_⟩⟩, fun hw hh hq hid hn room => ?_⟩
  · intro hf hp hh data part
    have carried : s.foldData m = { m with part := part } := foldData_eq s m hf
    refine ⟨fun hd hb => ?_, fun hd hid hn room hq => ?_, fun hd r hr hid hrank hlen hb => ?_⟩
    · refine ⟨_, exec_foldContribution_adds s n m hm hw ha hg hf hp hh hd hb, ?_⟩
      rw [State.mem_eq_of_held (held_endPart _ _ _), carried]
      exact mem_addRun_congr (by rfl) _ _
    · have idle : ∀ y ∈ (s.dataRead n m).foldMsgs, y.waiting = false := fun y hy => by
        obtain h | rfl := List.mem_or_eq_of_mem_set hy
        exacts [hq y h, carried ▸ hw]
      have opened := stageFold_opens (s.dataRead n m) { m with part := part } hid hn room (.inr idle)
      refine ⟨_, exec_foldContribution_stages s n m hm hw ha hg hf hp hh hd, ?_⟩
      rw [carried, opened]
      exact ⟨rfl, rfl⟩
    · have applied := stageFold_last (s.dataRead n m) { m with part := part } r hr hid hrank hlen hb
      refine ⟨_, exec_foldContribution_stages s n m hm hw ha hg hf hp hh hd, ?_⟩
      rw [carried]
      exact ⟨congrArg Prod.snd applied, (congrArg Prod.fst applied).trans (mem_addRun_congr (t := s) (by rfl) _ _)⟩
  · have first : s.firstRound m.id = some r := by simp [State.firstRound, hr, hid]
    have closed := held_closeRound (s.dropMsg m) r m.part ((s.dropMsg m).roundStatus r m.part.claim) (s.dropMsg m).rounds.length hr
      (hid ▸ hb)
    refine ⟨_, hid ▸ exec_foldContribution_closes s n m hm hw ha hg hf hd r first, congrArg Prod.snd closed, ?_⟩
    exact (congrArg Prod.fst closed).trans (hid ▸ mem_addRun_congr (t := s) (by rfl) _ _)
  · refine ⟨_, exec_foldContribution_idle s n m hm hw ha hg hf (h.imp_right fun h => ?_), ?_⟩
    · exact List.find?_eq_none.2 fun r hr => by simpa using h r hr
    · have same := held_endPart (s.dropMsg m) m.part 0
      exact ⟨State.rounds_eq_of_held same, State.mem_eq_of_held same⟩
  · refine ⟨_, ?_, congrArg State.rounds (stageFold_opens s m hid hn room (.inl hw))⟩
    show execFoldStagingTake n s = _
    simp +contextual [execFoldStagingTake, hm, hw, hh, hq]

/-- Settles O35: the flush engine, the blocks of a tend, and the rounds of folds. -/
theorem stackEvents : Obligations.StackEvents := ⟨flushEvents, tendEvent, foldEvents⟩

end Sys2Proof.Machine
end

section
/-! SUPPORT. What cold reset leaves in the tables of the machine (R8, R368, R398, R409 to R411, R427). -/

set_option Elab.async false

namespace Sys2Proof.Machine

/-! ### The tables are empty, so that every entry reads as it was made -/

@[simp] theorem core_reset (d c : Nat) : State.reset.core d c = {} := rfl
@[simp] theorem queue_reset (q : Nat) : State.reset.queue q = {} := rfl
theorem tag_reset (pa : Nat) : State.reset.tag pa = .value := rfl
@[simp] theorem cb_new (k : Nat) : ({} : Core).cb k = {} := rfl
@[simp] theorem relay_new (k : Nat) : ({} : Core).relay k = {} := rfl
@[simp] theorem rq_new (k : Nat) : ({} : Core).rq k = {} := rfl

/-- No round is open, so that none of the staging area is reserved. -/
theorem stagingUsed_reset (st : Nat × Nat) : State.reset.stagingUsed st = 0 := rfl

/-- The tend windows of a die with no register written: the first has the length that R398 gives, the others none. -/
theorem twLen_reset (d st w : Nat) : State.reset.twLen d st w = if w = 0 then 786432 else 0 := rfl

/-- A new register file reads zero in every S register. -/
theorem rdS_new (r : Fin 32) : ({} : Regs).rdS r = 0 := by
  unfold Regs.rdS
  split
  · rfl
  · exact Vector.getElem_replicate r.isLt

/-- Settles O53: each table is empty after reset, and a record that no table holds is as it was made. -/
theorem resetState : Obligations.ResetState := by
  refine ⟨rfl, rfl, rfl, rfl, rfl, rfl, rfl, tag_reset, fun d => ?dies, fun d c k => ?cores, fun q => ?queues, rfl, rfl, rfl, rfl, rfl, rfl,
    rfl, rfl, rfl, rdS_new⟩
  case dies => exact ⟨rfl, rfl, rfl, rfl, rfl, rfl, rfl, rfl, fun st => ⟨rfl, rfl, stagingUsed_reset _, twLen_reset d st⟩⟩
  case cores => simp
  case queues => simp

end Sys2Proof.Machine
end

section
/-! SUPPORT. The results of ports as the statements say them (R192, R194), the acquire of a scope (R138), and the steps of an effect that
pass or stop it (R338). -/

set_option Elab.async false

namespace Sys2Proof.Machine

open Stated

/-! ### Steps of an effect -/

@[simp] theorem except_ok_bind {ε α β : Type} (a : α) (f : α → Except ε β) : (Except.ok a >>= f) = f a := rfl
@[simp] theorem except_error_bind {ε α β : Type} (e : ε) (f : α → Except ε β) : (Except.error e >>= f) = .error e := rfl
@[simp] theorem require_true (e : Except Stop Unit) : require true e = .ok () := rfl
@[simp] theorem require_false (e : Except Stop Unit) : require false e = e := rfl

theorem release_ok (s : State) (h : s.releaseWaits s.iss.task = false) : s.release = .ok () := by
  simp [State.release, h]

theorem release_waits (s : State) (h : s.releaseWaits s.iss.task = true) : s.release = waits .release := by
  simp [State.release, h]

/-! ### Updates of the issuing task -/

theorem onlyMe_modMe (s : State) (f : Task → Task) : OnlyMe s (s.modMe f) := State.modMe_eq s f

@[simp] theorem State.task_modTask_iss (s : State) (f : Task → Task) : (s.modMe f).iss = s.iss := rfl

/-! ### Results of ports (R192, R194) -/

/-- What an update of the S registers and the latches of the issuing task writes. -/
theorem writesS_modMe (s : State) (d : Fin 32) (v : Word) (l : Latches) :
    WritesS s (s.modMe fun t => { t with latches := l, live := t.live.wrS d v }) d v l := by
  refine ⟨onlyMe_modMe s _, ?_, fun r => ?_⟩
  · rw [State.me_modMe]
    dsimp only
    rw [← Regs.wrS_eq]
  · rw [State.me_modMe]
    exact Regs.rdS_wrS _ _ _ _

theorem modMe_congr (s : State) (f g : Task → Task) (h : f s.me = g s.me) : s.modMe f = s.modMe g :=
  congrArg (s.setTask s.iss.task) h

/-- A result of port S. -/
theorem resultS_resS (s : State) (d : Fin 32) (v : Word) (nw : Bool) : ResultS s (s.resS d v nw) d v nw := by
  have h := writesS_modMe s (if nw then 0 else d) v { s.me.latches with ls := some v }
  rw [State.resS_eq, ResultS]
  convert h using 1
  cases nw <;> rfl

/-- A result of port M. -/
theorem resultM_resM (s : State) (a : Fin 32) (v : Word) : ResultM s (s.resM a v) a v := by
  rw [State.resM_eq]
  exact writesS_modMe s a v { s.me.latches with lm := some v }

/-- A result of a C port. -/
theorem resultC_resC (s : State) (a : Fin 32) (v : Word) : ResultC s (s.resC a v) a v := by
  rw [State.resC_eq]
  exact writesS_modMe s a v (if s.iss.cPort = 0 then { s.me.latches with lc0 := some v } else { s.me.latches with lc1 := some v })

/-- A scalar result of a V port (R252). -/
theorem writesS_resVS (s : State) (d : Fin 32) (v : Word) (nw : Bool) :
    WritesS s (s.resVS d v nw) (if nw then 0 else d) v (vLatch s (v.zeroExtend 2048)) := by
  have h := writesS_modMe s (if nw then 0 else d) v (vLatch s (v.zeroExtend 2048))
  convert h using 1
  cases nw
  · exact State.modMe_modMe s (fun t => { t with latches := if s.iss.vPort = 0 then { t.latches with lv0 := some (v.zeroExtend 2048) }
        else { t.latches with lv1 := some (v.zeroExtend 2048) } }) fun t => { t with live := t.live.wrS d v }
  · rfl

/-! ### Acquires (R138) -/

/-- The acquire of a scope by the issuing task. -/
theorem acquire_eq (s : State) (sc : Scope) : s.acquire sc s.iss.die s.iss.core = acquired s sc := by
  cases sc <;> rfl

end Sys2Proof.Machine
end

section
/-! SUPPORT. Count barriers, steps and epochs (R108 to R110, R249 to R251). -/

set_option Elab.async false

namespace Sys2Proof.Machine

open Stated

/-! ### Counts and words of a barrier (R109, R249) -/

/-- The change that the statements write out is the model's. -/
theorem changeBy_eq (b : CB) (v : Int) : b.changeBy v = countChanged b v := by
  simp only [CB.changeBy, CB.change, countChanged]
  by_cases h : -2 ^ 39 ≤ v ∧ v < 2 ^ 39
  · simp only [h, true_and, if_true]
  · rw [if_neg h, if_neg (by tauto)]

theorem wrapInt_lt (w : Nat) (x : Int) : wrapInt w x < 2 ^ w := by
  have h : x % (2 ^ w : Int) < 2 ^ w := Int.emod_lt_of_pos x (by positivity)
  have : ((wrapInt w x : Nat) : Int) < ((2 ^ w : Nat) : Int) := by
    rw [wrapInt, Int.toNat_of_nonneg (Int.emod_nonneg x (by positivity))]
    exact_mod_cast h
  exact_mod_cast this

theorem wrapInt_cast (w : Nat) (x : Int) : ((wrapInt w x : Nat) : Int) = x % 2 ^ w :=
  Int.toNat_of_nonneg (Int.emod_nonneg x (by positivity))

/-- The word of cb.read: COUNT in its low 40 bits, ARMED in bit 48, OVF in bit 49. -/
theorem cbWord_fields (b : CB) :
    ((BitVec.ofNat 64 b.word).toNat % 2 ^ 40 : Int) = b.count % 2 ^ 40 ∧ (BitVec.ofNat 64 b.word).getLsbD 48 = b.armed
      ∧ (BitVec.ofNat 64 b.word).getLsbD 49 = b.ovf := by
  have count := wrapInt_cast 40 b.count
  have bound := wrapInt_lt 40 b.count
  have word : (BitVec.ofNat 64 b.word).toNat = b.word := by
    rw [BitVec.toNat_ofNat, Nat.mod_eq_of_lt]
    have := ofFlag_lt b.armed
    have := ofFlag_lt b.ovf
    simp only [CB.word]
    omega
  refine ⟨?_, ?_, ?_⟩
  · rw [word, ← count]
    simp only [CB.word]
    omega
  · rw [BitVec.getLsbD, word, CB.word, Nat.testBit_eq_decide_div_mod_eq]
    cases b.armed <;> cases b.ovf <;> simp [ofFlag] <;> omega
  · rw [BitVec.getLsbD, word, CB.word, Nat.testBit_eq_decide_div_mod_eq]
    cases b.armed <;> cases b.ovf <;> simp [ofFlag] <;> omega

/-! ### The use of a barrier (R110) -/

theorem useCb_ok (s : State) (n : Fin 64) (h : MayUse s n) : s.useCb n = .ok (s.myCore.cb n.val) := by
  rcases h with h | h <;> simp [State.useCb, foreign, h]

theorem useCb_trap (s : State) (n : Fin 64) (h : ¬ MayUse s n) : s.useCb n = cbTrap (s.myCore.cb n.val) n.val := by
  obtain ⟨none, other⟩ := not_or.1 h
  simp [State.useCb, foreign, Option.isSome_iff_ne_none, none, other]

/-- Who may use a barrier is its owner after the use. -/
theorem owner_of_mayUse (s : State) (n : Fin 64) (h : MayUse s n) :
    some ((s.myCore.cb n.val).owner.getD s.me.launch) = some s.me.launch := by
  rcases h with h | h <;> simp [h]

/-! ### The wait (R109, R249) -/

section Wait

variable (s : State) (n : Fin 64) (sc : Scope) (may : MayUse s n)
include may

/-- A wait that its barrier has met completes. -/
theorem actCbWait_met (met : (s.myCore.cb n.val).met = some s.iss.task) : actCbWait n sc s =
    .ok (acquired (acquired (s.modMyCore fun x => { x with cbs := smPut x.cbs n.val { s.myCore.cb n.val with met := none } }) .die) sc) := by
  simp only [actCbWait, useCb_ok s n may, except_ok_bind, met, if_true, ← acquire_eq]
  rfl

variable (met : (s.myCore.cb n.val).met ≠ some s.iss.task)
include met

/-- A wait on an armed barrier at zero completes and disarms it. -/
theorem actCbWait_zero (ovf : (s.myCore.cb n.val).ovf = false) (armed : (s.myCore.cb n.val).armed = true)
    (zero : (s.myCore.cb n.val).count = 0) : actCbWait n sc s =
    .ok (acquired (acquired (s.modMyCore fun x => { x with cbs := smPut x.cbs n.val { s.myCore.cb n.val with armed := false } }) .die) sc) := by
  simp only [actCbWait, useCb_ok s n may, except_ok_bind, met, ovf, armed, zero, ← acquire_eq]
  rfl

/-- A wait on a barrier that is not armed, or stands above zero, takes it and waits. -/
theorem actCbWait_waits (ovf : (s.myCore.cb n.val).ovf = false)
    (above : (s.myCore.cb n.val).armed = false ∨ 0 < (s.myCore.cb n.val).count) :
    actCbWait n sc s = .error (.wait (.barrier n.val) (.own n.val)) := by
  have low : ¬ ((s.myCore.cb n.val).armed = true ∧ (s.myCore.cb n.val).count < 0) := by
    rintro ⟨h, k⟩; rcases above with a | a
    · rw [h] at a; exact absurd a (by decide)
    · omega
  have zero : ¬ ((s.myCore.cb n.val).armed = true ∧ (s.myCore.cb n.val).count = 0) := by
    rintro ⟨h, k⟩; rcases above with a | a
    · rw [h] at a; exact absurd a (by decide)
    · omega
  simp [actCbWait, useCb_ok s n may, met, ovf, low, zero]

/-- A wait on a barrier that has overflowed, or is armed below zero, traps. -/
theorem actCbWait_traps (low : (s.myCore.cb n.val).ovf = true ∨ ((s.myCore.cb n.val).armed = true ∧ (s.myCore.cb n.val).count < 0)) :
    actCbWait n sc s = cbTrap (s.myCore.cb n.val) n.val := by
  simp only [actCbWait, useCb_ok s n may, except_ok_bind, met, if_false]
  by_cases ovf : (s.myCore.cb n.val).ovf = true
  · simp [ovf]
  · obtain ⟨armed, neg⟩ := low.resolve_left ovf
    simp [ovf, armed, neg]

end Wait

theorem barrierResults : Stated.BarrierResults := by
  intro s n a v d sc ha b
  refine ⟨fun may => ⟨?arm, fun rel => ?add, ?read, fun met => ?met, fun met => ⟨fun ovf armed zero => ?zero, fun ovf above => ?waits, fun low => ?low⟩⟩,
    fun not => ?foreign⟩
  case arm =>
    show resolve s (actCbArm n a s) = _
    simp only [actCbArm, ha, useCb_ok s n may, except_ok_bind, changeBy_eq, resolve_ok]
  case add =>
    show resolve s (actCbAdd n a s) = _
    simp only [actCbAdd, ha, useCb_ok s n may, release_ok s rel, except_ok_bind, changeBy_eq, resolve_ok]
  case read =>
    refine ⟨_, _, ?_, resultS_resS _ _ _ _, cbWord_fields b⟩
    show resolve s (actCbRead d n s) = _
    simp only [actCbRead, useCb_ok s n may, except_ok_bind, resolve_ok]
    rfl
  case met => exact congrArg (resolve s) (actCbWait_met s n sc may met)
  case zero => exact congrArg (resolve s) (actCbWait_zero s n sc may met ovf armed zero)
  case waits =>
    refine (congrArg (resolve s) (actCbWait_waits s n sc may met ovf above)).trans ?_
    simp only [resolve_wait, State.applySide]
    have own (x : Core) (hx : x = s.myCore) :
        ({ x.cb n.val with owner := some ((x.cb n.val).owner.getD s.me.launch) } : CB)
        = { b with owner := some s.me.launch } := by rw [hx, owner_of_mayUse s n may]
    exact congrArg (fun y => Host.Outcome.next ((s.setCore s.iss.die s.iss.core { s.myCore with cbs := smPut s.myCore.cbs n.val y }).stall
      (.barrier n.val))) (own _ rfl)
  case low => exact ⟨_, rfl, rfl, congrArg (resolve s) (actCbWait_traps s n sc may met low)⟩
  case foreign =>
    have use := useCb_trap s n not
    have arm : actCbArm n a s = cbTrap b n.val := by simp [actCbArm, ha, use]; rfl
    have add : actCbAdd n a s = cbTrap b n.val := by simp [actCbAdd, ha, use]; rfl
    have read : actCbRead d n s = cbTrap b n.val := by simp [actCbRead, use]; rfl
    have wait : actCbWait n sc s = cbTrap b n.val := by simp [actCbWait, use]; rfl
    exact ⟨_, rfl, rfl, congrArg (resolve s) arm, congrArg (resolve s) add, congrArg (resolve s) read, congrArg (resolve s) wait⟩

/-! ### Changes of a barrier with nothing to test (R109, R326) -/

theorem barrierChange : Stated.BarrierChange := by
  intro s d c n f relays issuing
  let u := s.modCore d c fun x => { x with cbs := smPut x.cbs n (f (x.cb n)) }
  have hu : u.core d c = { s.core d c with cbs := smPut (s.core d c).cbs n (f ((s.core d c).cb n)) } := State.core_modCore_same s d c _
  have test : u.relayTest d c = u := by rw [State.relayTest, hu]; simp [relays]
  have run : s.cbChange d c n f = u := by
    show (u.relayTest d c).completeWait d c n = u
    rw [test, State.completeWait, hu]
    simp [issuing]
  intro t
  have ht : t = u := run
  rw [ht, hu]
  exact ⟨smGet_smPut_same _ _ _ _, fun k hk => smGet_smPut_other _ _ _ _ _ hk, rfl⟩

/-! ### Steps and epochs (R242, R250, R251) -/

theorem stepAndEpoch : Stated.StepAndEpoch := by
  intro s a v sc ha
  refine ⟨?step, fun det w => ?outside, fun det => ⟨?close, fun done => ?applied, fun done => ?parks⟩⟩
  case step =>
    show resolve s (actStepCommit a s) = _
    simp only [actStepCommit, ha, except_ok_bind, resolve_ok]
  case outside =>
    have run : actAtmClose w sc s = .ok s := by simp [actAtmClose, det]
    exact congrArg (resolve s) run
  case close =>
    show resolve s (actAtmClose false sc s) = _
    simp only [actAtmClose, det]
    rfl
  case applied =>
    have applied : (s.applySide .closeEpoch).epochDone s.me.domain s.me.live.ep = true := done
    show resolve s (actAtmClose true sc s) = _
    simp only [actAtmClose, det, applied, ← acquire_eq]
    rfl
  case parks =>
    have parks : (s.applySide .closeEpoch).epochDone s.me.domain s.me.live.ep = false := done
    show resolve s (actAtmClose true sc s) = _
    simp only [actAtmClose, det, parks]
    rfl

/-- Settles O58: the uses of a barrier, a change of one alone, and the ends of a step and an epoch. -/
theorem barriersAndEpochs : Obligations.BarriersAndEpochs := ⟨barrierResults, barrierChange, stepAndEpoch⟩

end Sys2Proof.Machine
end

section
/-! SUPPORT. Vector comparisons, masks, counts, and moves of lanes (R99, R259, R262, R264, R265, R267). -/

set_option Elab.async false

namespace Sys2Proof.Machine

open Stated

/-! ### Conditions (R259, R262) -/

/-- At most one of two values lies below the other. -/
theorem ltF_asymm (a b : FVal) (h : ltF false a b = true) : ltF false b a = false := by
  cases a with
  | nan => simp [ltF] at h
  | inf x => cases b <;> simp_all [ltF]
  | fin n m e =>
    cases b with
    | nan => simp [ltF] at h
    | inf y => simp_all [ltF]
    | fin n' m' e' =>
      simp only [ltF, Bool.false_and, Bool.or_false, decide_eq_true_eq, decide_eq_false_iff_not, min_comm e' e] at h ⊢
      exact h.le.not_gt

/-- Where neither is a NaN, not above is below or equal. -/
theorem not_ltF (a b : FVal) (ha : isNan a = false) (hb : isNan b = false) : (!ltF false b a) = (ltF false a b || eqF a b) := by
  have eq : eqF a b = (!ltF false a b && !ltF false b a) := by
    cases a <;> cases b <;> simp_all [isNan, eqF]
  rw [eq]
  cases h : ltF false a b
  · rfl
  · rw [ltF_asymm a b h]; rfl

/-- A NaN is neither below nor equal to anything. -/
theorem ltF_eqF_nan (a b : FVal) (h : isNan a = true ∨ isNan b = true) : ltF false a b = false ∧ eqF a b = false := by
  cases a <;> cases b <;> simp_all [isNan, ltF, eqF]

/-- The conditions that the statements write out are the model's. -/
theorem fcondHolds_eq (c : FCond) (a b : FVal) : fcondHolds c a b = fcond c a b := by
  by_cases nan : isNan a = true ∨ isNan b = true
  · have un : (isNan a || isNan b) = true := by simpa using nan
    obtain ⟨lt, eq⟩ := ltF_eqF_nan a b nan
    obtain ⟨gt, -⟩ := ltF_eqF_nan b a nan.symm
    cases c <;> simp [fcondHolds, fcond, un, lt, eq, gt]
  · obtain ⟨ha, hb⟩ : isNan a = false ∧ isNan b = false := by simpa using nan
    have le := not_ltF a b ha hb
    have ge := not_ltF b a hb ha
    have sym : eqF b a = eqF a b := by cases a <;> cases b <;> simp [eqF, Bool.and_comm]
    cases c <;> simp [fcondHolds, fcond, ha, hb, le, ge, sym]

/-- So are the conditions on integers, each lane in its type's signedness. -/
theorem icondHolds_eq (c : ICond) (t : VTy) (x y : Nat) : icondHolds c t.width (vsigned t) x y =
    match c with
    | .eq => decide (x = y)
    | .ne => decide (x ≠ y)
    | .lt => decide (vint t x < vint t y)
    | .ge => decide (vint t y ≤ vint t x)
    | .tst => decide (x &&& y ≠ 0)
    | .ntst => decide (x &&& y = 0) := by
  have lt : (if vsigned t then decide (sextNat t.width x < sextNat t.width y) else decide (x < y)) = decide (vint t x < vint t y) := by
    unfold vint
    cases vsigned t <;> simp
  cases c with
  | lt => exact lt
  | ge =>
    simp only [icondHolds, lt]
    rw [← decide_not]
    exact decide_eq_decide.2 not_lt
  | eq => rfl
  | ne => exact (decide_not (p := x = y)).symm
  | tst => exact (decide_not (p := x &&& y = 0)).symm
  | ntst => rfl

/-! ### Masks (R252, R259, R265) -/

/-- A bit of a mask made from its bits. -/
theorem maskLanes_maskOf (m old : Mask) (n : Nat) (f : Nat → Bool) : MaskLanes m old (maskOf m old n f) n f := by
  intro i hi
  have lane := laneOf_ofLanes 1 ((List.range 256).map fun i => ofFlag (if i < n ∧ active m i then f i else old.getLsbD i)) i (by simpa using hi)
  simp only [laneOf, Nat.one_mul, List.getElem_map, List.getElem_range, pow_one] at lane
  have bit : ∀ b, decide (ofFlag b % 2 = 1) = b := by decide
  rw [maskOf, BitVec.getLsbD_ofNat, Nat.testBit_eq_decide_div_mod_eq, lane, bit]
  simp [active, hi]

/-- The mask of the first lanes. -/
theorem getLsbD_first (n i : Nat) (hi : i < 256) : (BitVec.ofNat 256 (2 ^ min n 256 - 1)).getLsbD i = decide (i < n) := by
  rw [BitVec.getLsbD_ofNat, Nat.testBit_two_pow_sub_one]
  simp [hi]

theorem Regs.rdM_wrM (r : Regs) (d k : Fin 8) (v : Mask) : (r.wrM d v).rdM k = if k = d ∧ d ≠ 0 then v else r.rdM k := by
  by_cases h : k = d
  · subst h
    by_cases h0 : k = 0
    · subst h0; simp
    · simp [h0, Regs.rdM_wrM_same]
  · simp [h, Regs.rdM_wrM_other]

theorem Regs.wrM_eq (r : Regs) (d : Fin 8) (v : Mask) : r.wrM d v = { r with m := (r.wrM d v).m } := by
  simp only [Regs.wrM]; split <;> rfl

/-- A mask result. -/
theorem resultMask_resMask (s : State) (k : Fin 8) (v : Mask) (nw : Bool) : ResultMask s (s.resMask k v nw) k v nw := by
  have run : s.resMask k v nw = s.modMe fun t =>
      { t with latches := vLatch s (v.zeroExtend 2048), live := if nw then t.live else t.live.wrM k v } := by
    cases nw
    · exact State.modMe_modMe s (fun t => { t with latches := if s.iss.vPort = 0 then { t.latches with lv0 := some (v.zeroExtend 2048) }
        else { t.latches with lv1 := some (v.zeroExtend 2048) } }) fun t => { t with live := t.live.wrM k v }
    · rfl
  rw [run]
  refine ⟨onlyMe_modMe s _, ?_, fun q => ?_⟩ <;> rw [State.me_modMe] <;> cases nw
  · simp only [Bool.false_eq_true, if_false]
    rw [← Regs.wrM_eq]
  · rfl
  · simp [Regs.rdM_wrM]
  · simp

/-! ### Counts (R265) -/

theorem popCount_eq (n x : Nat) : popCount n x = ((List.range n).filter fun i => x.testBit i).length := by
  induction n generalizing x with
  | zero => rfl
  | succ n ih =>
    have rest : ((List.range n).filter fun i => (x / 2).testBit i).length
        = (((List.range n).map Nat.succ).filter fun i => x.testBit i).length := by
      rw [List.filter_map, List.length_map]
      simp [Function.comp_def, Nat.testBit_succ]
    rw [popCount, ih, rest, List.range_succ_eq_map, List.filter_cons, Nat.testBit_zero]
    rcases Nat.mod_two_eq_zero_or_one x with h | h <;> simp [h, Nat.add_comm]

theorem popCount_le (n x : Nat) : popCount n x ≤ n := by
  rw [popCount_eq]
  exact (List.length_filter_le _ _).trans_eq List.length_range

theorem VTy.lanes_le (t : VTy) : t.lanes ≤ 256 := by cases t <;> decide

theorem maskOp2_ok (t : VTy) (k : Fin 8) (a b : VSrc) (m : Fin 8) (nw : Bool) (f : Nat → Nat → Bool) (s : State) (x y : Row)
    (ha : s.srcV a = .ok x) (hb : s.srcV b = .ok y) : ∃ u v, resolve s (maskOp2 t k a b m nw f s) = .next u ∧ ResultMask s u k v nw
      ∧ MaskLanes (s.regM m) (s.regM k) v t.lanes fun i => f (lane t x i) (lane t y i) := by
  refine ⟨_, _, ?_, resultMask_resMask s k _ nw, maskLanes_maskOf _ _ _ _⟩
  simp only [maskOp2, ha, hb, except_ok_bind, resolve_ok]
  rfl

theorem maskResults : Stated.MaskResults := by
  intro s c ic ty k m a b va vb nw x y d e n ha hb he
  refine ⟨?cmp, ?icmp, ?mask, ?first, ?count⟩
  case cmp =>
    obtain ⟨t, v, run, result, lanes⟩ := maskOp2_ok ty k va vb m nw (fun x y => fcondHolds c (decodeF (vfmt ty) x) (decodeF (vfmt ty) y)) s x y ha hb
    exact ⟨t, v, run, result, fun i hi => (lanes i hi).trans (by simp only [fcondHolds_eq]; rfl)⟩
  case icmp =>
    obtain ⟨t, v, run, result, lanes⟩ := maskOp2_ok ty k va vb m nw (icondHolds ic ty.width (vsigned ty)) s x y ha hb
    exact ⟨t, v, run, result, fun i hi => (lanes i hi).trans (by simp only [icondHolds_eq]; cases ic <;> rfl)⟩
  case mask =>
    intro p hp
    have run : actVmask p.1 k nw s = .ok (s.resMask k p.2 nw) := by
      simp only [List.mem_cons, List.not_mem_nil, or_false] at hp
      rcases hp with rfl | rfl | rfl | rfl | rfl <;> rfl
    exact ⟨_, congrArg (resolve s) run, resultMask_resMask s k _ nw⟩
  case first =>
    refine ⟨_, _, ?_, resultMask_resMask s k _ nw, fun i hi => getLsbD_first n.toNat i hi⟩
    show resolve s (actVmask (.first e) k nw s) = _
    simp only [actVmask, he, except_ok_bind, resolve_ok]
  case count =>
    refine ⟨_, _, rfl, ?_, writesS_resVS s d _ nw⟩
    have := popCount_le ty.lanes (s.regM a).toNat
    have := VTy.lanes_le ty
    rw [BitVec.toNat_ofNat, Nat.mod_eq_of_lt (by omega), popCount_eq]
    rfl

/-! ### Moves of lanes (R99, R264, R267) -/

/-- An extracted lane, in its type's signedness. -/
theorem extracted (t : VTy) (v : Nat) :
    (if vsigned t then BitVec.ofInt 64 (sextNat t.width v) else BitVec.ofNat 64 v).toInt % 2 ^ 64 = vint t v % 2 ^ 64 := by
  unfold vint
  split
  · rw [BitVec.toInt_ofInt]; exact Int.bmod_emod
  · rw [BitVec.toInt_ofNat']; exact Int.bmod_emod

/-- A row with one lane replaced. -/
def insertedRow (t : VTy) (k v : Nat) (old : Row) : Row :=
  rowOfLanes t.width ((laneIdx t).map fun i => if i = k then v % 2 ^ t.width else laneOf t.width old.toNat i)

theorem lane_insertedRow (t : VTy) (k v : Nat) (old : Row) (i : Nat) (hi : i < t.lanes) :
    lane t (insertedRow t k v old) i = if i = k then v % 2 ^ t.width else lane t old i := by
  rw [lane, insertedRow, laneOf_rowOfLanes _ _ _ (by simp [laneIdx, VTy.width_mul_lanes]) (by simpa [laneIdx] using hi)]
  simp only [laneIdx, List.getElem_map, List.getElem_range]
  split
  · exact Nat.mod_mod _ _
  · exact laneOf_mod _ _ _

theorem actVwin_eq (a : SSrc) (s : State) (v : Word) (ha : s.srcS a = .ok v) : actVwin a s =
    if v.toNat % 32 = 0 ∧ v.toNat + 32 ≤ s.me.rowCount then .ok (s.modLive fun r => { r with winBase := v.toNat })
    else raiseInfo .handleBounds v.toNat := by
  simp only [actVwin, ha, except_ok_bind]
  by_cases h : v.toNat % 32 = 0 ∧ v.toNat + 32 ≤ s.me.rowCount
  · simp [h]
  · rw [if_neg h, ← Bool.decide_and, decide_eq_false h]
    rfl

theorem vectorMoveResults : Stated.VectorMoveResults := by
  intro s ty d a b e m nw x k v ha hb he
  refine ⟨fun hd => ⟨?bcast, ?rot, ?ins⟩, ?ext, fun align fits => ?win, fun bad => ?winTrap⟩
  case bcast =>
    refine ⟨_, ?_, _, resultV_resV s d _ nw, fun i hi => (laneOf_lanesOf ty (s.regM m) _ _ i hi).trans (by rw [Nat.mod_mod])⟩
    show resolve s (actVbcast ty d e m nw s) = _
    simp only [actVbcast, he, dstRow_ok s d _ hd, except_ok_bind, resolve_ok]
  case rot =>
    obtain ⟨u, run, -, lanes⟩ := lane1_ok ty d a m nw (fun _ _ i _ => laneOf ty.width x.toNat ((i + k.toNat) % ty.lanes)) s x ha hd
    refine ⟨u, ?_, lanes⟩
    show resolve s (actVlrot ty d a b m nw s) = _
    simp only [actVlrot, ha, hb, except_ok_bind, run, resolve_ok]
  case ins =>
    refine ⟨_, insertedRow ty (k.toNat % ty.lanes) v.toNat (s.rowBefore (s.vrow d)), ?_, resultV_resV s d _ nw, lane_insertedRow ty _ _ _⟩
    show resolve s (actVins ty d e b nw s) = _
    simp only [actVins, he, hb, dstRow_ok s d _ hd, except_ok_bind, resolve_ok]
    rfl
  case ext =>
    refine ⟨_, _, ?_, extracted ty _, writesS_resVS s d _ nw⟩
    show resolve s (actVext ty d a b nw s) = _
    simp only [actVext, ha, hb, except_ok_bind, resolve_ok]
    rfl
  case win =>
    have run := actVwin_eq b s k hb
    rw [if_pos ⟨align, fits⟩] at run
    exact congrArg (resolve s) run
  case winTrap =>
    have run := actVwin_eq b s k hb
    rw [if_neg (by omega)] at run
    exact congrArg (resolve s) run

/-- Settles O24: comparisons and masks, and the moves of lanes, each from its operands. -/
theorem vectorMasksAndMoves : Obligations.VectorMasksAndMoves := ⟨maskResults, vectorMoveResults⟩

end Sys2Proof.Machine
end

section
/-! SUPPORT. The tests of an access, each said once (R28, R90, R92, R129, R229), the lookups of a load (R29, R107), and the traps of loads and
stores. -/

set_option Elab.async false

namespace Sys2Proof.Machine

open Stated

/-! ### Addresses (R90, R229) -/

/-- The byte offset of an access is the statements' sum modulo 2^64. -/
theorem mmOff_eq (s : State) (x : Fin 8) (imm : BitVec 14) (u : Nat) : s.mmOff x imm u = mmOffset s x imm u := by
  have sum (b : Word) : imm.signExtend 64 * BitVec.ofNat 64 u + b = BitVec.ofInt 64 (imm.toInt * u + b.toNat) := by
    rw [BitVec.ofInt_add, BitVec.ofInt_mul, BitVec.ofInt_natCast, BitVec.ofInt_natCast, BitVec.ofNat_toNat, BitVec.setWidth_eq]
    rfl
  rw [State.mmOff, sum, BitVec.toNat_ofInt]
  rfl

theorem vaAt_eq (h : Handle) (off : Nat) : h.vaAt off = vaOf h off := rfl

/-! ### The handle test (R28, R90) -/

section HandleTest

variable (s : State) (h : Handle) (off n reg : Nat) (rd wr : Bool)

theorem denied_iff : ((wr && !h.write) || (rd && !h.read)) = true ↔ ¬ Permitted h rd wr := by
  unfold Permitted
  cases wr <;> cases rd <;> cases h.write <;> cases h.read <;> decide

/-- The tests of a valid or empty handle: segment and bounds, carved ranges, permission. -/
theorem accessCheck_eq (usable : (!h.valid && (h.pending || h.revoked)) = false) : s.accessCheck h off n rd wr reg =
    if vaOf h off / 2 ^ 51 = h.va.toNat / 2 ^ 51 then
      if vaOf h off % 2 ^ 51 < h.lo.toNat ∨ h.last.toNat < vaOf h off % 2 ^ 51 + n - 1 then
        .error (.trap { code := 0x04, addr := vaOf h off, write := wr })
      else if h.valid && s.reachesCarve h.span.1 h.span.2 then .error (.trap { code := 0x04, addr := vaOf h off, write := wr })
      else if (wr && !h.write) || (rd && !h.read) then .error (.trap { code := 0x05, addr := vaOf h off, write := wr })
      else .ok (paOf h off)
    else .error (.trap { code := 0x04, addr := vaOf h off, write := wr }) := by
  by_cases seg : vaOf h off / 2 ^ 51 = h.va.toNat / 2 ^ 51
  · have stays : h.offset off = some (vaOf h off % 2 ^ 51) := if_pos seg
    rw [if_pos seg]
    simp only [State.accessCheck, usable, stays]
    rfl
  · have leaves : h.offset off = none := if_neg seg
    rw [if_neg seg]
    simp only [State.accessCheck, usable, leaves]
    rfl

section Valid

variable (valid : h.valid = true)
include valid

theorem accessCheck_passes (bounds : InBounds s h off n) (perm : Permitted h rd wr) :
    s.accessCheck h off n rd wr reg = .ok (paOf h off) := by
  obtain ⟨seg, lo, last, carve⟩ := bounds
  rw [accessCheck_eq s h off n reg rd wr (by simp [valid]), if_pos seg, if_neg (by omega), carve, Bool.and_false, if_neg (by decide),
    if_neg (by rwa [denied_iff, not_not])]

theorem accessCheck_permission (bounds : InBounds s h off n) (perm : ¬ Permitted h rd wr) :
    s.accessCheck h off n rd wr reg = .error (.trap { code := 0x05, addr := vaOf h off, write := wr }) := by
  obtain ⟨seg, lo, last, carve⟩ := bounds
  rw [accessCheck_eq s h off n reg rd wr (by simp [valid]), if_pos seg, if_neg (by omega), carve, Bool.and_false, if_neg (by decide),
    if_pos ((denied_iff h rd wr).2 perm)]

theorem accessCheck_bounds (bounds : ¬ InBounds s h off n) :
    s.accessCheck h off n rd wr reg = .error (.trap { code := 0x04, addr := vaOf h off, write := wr }) := by
  rw [accessCheck_eq s h off n reg rd wr (by simp [valid])]
  by_cases seg : vaOf h off / 2 ^ 51 = h.va.toNat / 2 ^ 51
  · rw [if_pos seg]
    by_cases out : vaOf h off % 2 ^ 51 < h.lo.toNat ∨ h.last.toNat < vaOf h off % 2 ^ 51 + n - 1
    · rw [if_pos out]
    · have carve : s.reachesCarve h.span.1 h.span.2 = true := by
        by_contra carve
        exact bounds ⟨seg, by omega, by omega, by simpa using carve⟩
      rw [if_neg out, valid, carve, if_pos (by decide)]
  · rw [if_neg seg]

end Valid

/-- An unusable handle that the walker can refill parks the task (R92). -/
theorem accessCheck_parks (valid : h.valid = false) (wait : h.pending = true ∨ h.revoked = true) :
    s.accessCheck h off n rd wr reg = s.parkRefill h reg (vaOf h off) wr := by
  simp [State.accessCheck, valid, wait, vaAt_eq]

/-- An empty handle permits nothing, and one byte at offset 0 is all that its bounds let through. -/
theorem accessCheck_empty (hn : 0 < n) (need : (wr || rd) = true) : s.accessCheck {} off n rd wr reg
    = .error (.trap { code := if vaOf {} off = 0 ∧ n = 1 then 0x05 else 0x04, addr := vaOf {} off, write := wr }) := by
  have denied : ((wr && !({} : Handle).write) || (rd && !({} : Handle).read)) = true := by simpa using need
  have seg0 : ({} : Handle).va.toNat / 2 ^ 51 = 0 := rfl
  have bound0 : ({} : Handle).lo.toNat = 0 := rfl
  rw [accessCheck_eq s {} off n reg rd wr rfl, seg0, bound0, denied, if_pos rfl]
  by_cases first : vaOf {} off = 0 ∧ n = 1
  · obtain ⟨va, rfl⟩ := first
    rw [va]
    rfl
  · rw [if_neg first]
    by_cases seg : vaOf {} off / 2 ^ 51 = 0
    · rw [if_pos seg, if_pos (by omega)]
    · rw [if_neg seg]

end HandleTest

theorem accessTest : Stated.AccessTest := fun s h off n reg rd wr valid =>
  ⟨accessCheck_passes s h off n reg rd wr valid, accessCheck_permission s h off n reg rd wr valid,
    accessCheck_bounds s h off n reg rd wr valid⟩

/-! ### The tests of a load or store (R229) -/

theorem footprintCheck_eq (s : State) (h : Handle) (off n : Nat) (st : Bool) [Decidable (InFootprint s h off n st)] :
    s.footprintCheck h off n st = if InFootprint s h off n st then .ok ()
      else .error (.trap { code := 0x09, addr := vaOf h off, write := st }) := by
  have stops : (h.checked && !(h.claim && !st) && !(if st then conforms (vaOf h off) n (s.writeRanges s.iss.task)
      else conforms (vaOf h off) n (s.readRanges s.iss.task) || conforms (vaOf h off) n (s.writeRanges s.iss.task))) = true
      ↔ ¬ InFootprint s h off n st := by
    unfold InFootprint
    cases st <;> cases h.checked <;> cases h.claim <;> simp [and_comm, or_comm]
  by_cases foot : InFootprint s h off n st
  · rw [if_pos foot]
    exact if_neg fun h => stops.1 h foot
  · rw [if_neg foot]
    exact if_pos (stops.2 foot)

section Tests

variable (s : State) (o : MmOp) (u n al : Nat) (st : Bool)

/-- A stop of the handle test is one of the access. -/
theorem mmCheck_of_handle (e : Stop)
    (h : s.accessCheck (s.regH o.h) (mmOffset s o.x o.imm u) n (!st) st o.h.val = .error e) : s.mmCheck o u n al st = .error e := by
  simp only [State.mmCheck, mmOff_eq, h, except_error_bind]

variable (valid : (s.regH o.h).valid = true) (bounds : InBounds s (s.regH o.h) (mmOffset s o.x o.imm u) n)
  (perm : Permitted (s.regH o.h) (!st) st)
include valid bounds perm

theorem mmCheck_misaligned (h : vaOf (s.regH o.h) (mmOffset s o.x o.imm u) % 2 ^ 51 % al ≠ 0) : s.mmCheck o u n al st
    = .error (.trap { code := 0x08, addr := vaOf (s.regH o.h) (mmOffset s o.x o.imm u), write := st }) := by
  simp only [State.mmCheck, mmOff_eq, accessCheck_passes s _ _ n _ _ _ valid bounds perm, except_ok_bind, aligned, vaAt_eq, if_neg h]
  rfl

variable (align : vaOf (s.regH o.h) (mmOffset s o.x o.imm u) % 2 ^ 51 % al = 0)
include align

theorem mmCheck_footprint (h : ¬ InFootprint s (s.regH o.h) (mmOffset s o.x o.imm u) n st) : s.mmCheck o u n al st
    = .error (.trap { code := 0x09, addr := vaOf (s.regH o.h) (mmOffset s o.x o.imm u), write := st }) := by
  classical
  simp only [State.mmCheck, mmOff_eq, accessCheck_passes s _ _ n _ _ _ valid bounds perm, except_ok_bind, aligned, vaAt_eq, if_pos align,
    footprintCheck_eq, if_neg h, except_error_bind]

end Tests

theorem mmCheck_passes (s : State) (o : MmOp) (u n al : Nat) (st : Bool)
    (h : Passes s (s.regH o.h) (mmOffset s o.x o.imm u) n al st) : s.mmCheck o u n al st
    = .ok (s.regH o.h, paOf (s.regH o.h) (mmOffset s o.x o.imm u), vaOf (s.regH o.h) (mmOffset s o.x o.imm u)) := by
  classical
  obtain ⟨valid, bounds, perm, align, foot⟩ := h
  simp only [State.mmCheck, mmOff_eq, accessCheck_passes s _ _ n _ _ _ valid bounds perm, except_ok_bind, aligned, vaAt_eq, if_pos align,
    footprintCheck_eq, if_pos foot]

/-- A register that may be named passes the checks of a destination (R99, R100). -/
theorem destV_ok (s : State) (j : Fin 32) (h : RowFree s j) : s.destV j = .ok (s.vrow j) := by
  obtain ⟨rows, out, stalls⟩ := h
  simp [State.destV, rows, out, stalls]

/-- A stop of the tests of an access is one of the instruction. -/
theorem accessForms_stop (s : State) (o : MmOp) (f : Instr × Bool × Nat × Nat × Nat × Bool) (hf : f ∈ accessForms o)
    (row : f.2.2.2.2.2 = true → RowFree s o.d) (e : Stop) (h : s.mmCheck o f.2.2.1 f.2.2.2.1 f.2.2.2.2.1 f.2.1 = .error e) :
    exec f.1 s = resolve s (.error e) := by
  simp only [accessForms, List.mem_cons, List.not_mem_nil, or_false] at hf
  obtain rfl | rfl | rfl | rfl := hf
  case inl =>
    show resolve s (actLd o s) = _
    simp only [actLd, h, except_error_bind]
  case inr.inl =>
    show resolve s (actSt o s) = _
    simp only [actSt, h, except_error_bind]
  case inr.inr.inl =>
    have h' : s.mmCheck o 64 (64 * 2 ^ o.sz.val) 64 false = .error e := h
    show resolve s (actLdv o s) = _
    simp only [actLdv, destV_ok s o.d (row rfl), except_ok_bind, h', except_error_bind]
  case inr.inr.inr =>
    have h' : s.mmCheck o 64 (64 * 2 ^ o.sz.val) 64 true = .error e := h
    show resolve s (actStv o s) = _
    simp only [actStv, destV_ok s o.d (row rfl), except_ok_bind, h', except_error_bind]

/-- A stop of a load past its tests is one of the instruction. -/
theorem accessForms_loadStop (s : State) (o : MmOp) (f : Instr × Bool × Nat × Nat × Nat × Bool) (hf : f ∈ accessForms o)
    (row : f.2.2.2.2.2 = true → RowFree s o.d) (load : f.2.1 = false) (e : Stop) (h : Handle) (pa va : Nat)
    (tests : s.mmCheck o f.2.2.1 f.2.2.2.1 f.2.2.2.2.1 f.2.1 = .ok (h, pa, va))
    (stop : s.loadBytes h pa f.2.2.2.1 va o.hint = .error e) : exec f.1 s = resolve s (.error e) := by
  simp only [accessForms, List.mem_cons, List.not_mem_nil, or_false] at hf
  obtain rfl | rfl | rfl | rfl := hf
  case inl =>
    show resolve s (actLd o s) = _
    simp only [actLd, tests, except_ok_bind, stop, except_error_bind]
  case inr.inl => exact absurd load Bool.noConfusion
  case inr.inr.inl =>
    have tests' : s.mmCheck o 64 (64 * 2 ^ o.sz.val) 64 false = .ok (h, pa, va) := tests
    show resolve s (actLdv o s) = _
    simp only [actLdv, destV_ok s o.d (row rfl), except_ok_bind, tests', stop, except_error_bind]
  case inr.inr.inr => exact absurd load Bool.noConfusion

/-! ### Poison (R105, R422) -/

/-- An interval is poisoned when one of its bytes is. -/
theorem poisoned_iff (s : State) (a n : Nat) : s.poisoned a n = true ↔ ∃ k < n, s.poisoned (a + k) 1 = true := by
  have share (u len : Nat) : overlaps u len a n = true ↔ ∃ k < n, overlaps u len (a + k) 1 = true := by
    simp only [overlaps, Bool.and_eq_true, decide_eq_true_eq]
    exact ⟨fun h => ⟨max u a - a, by omega, by omega⟩, fun ⟨k, hk, h⟩ => by omega⟩
  simp only [State.poisoned, List.any_eq_true, share]
  exact ⟨fun ⟨u, hu, k, hk, h⟩ => ⟨k, hk, u, hu, h⟩, fun ⟨k, hk, u, hu, h⟩ => ⟨u, hu, k, hk, h⟩⟩

theorem mem_linesOf (pa n l : Nat) : l ∈ linesOf pa n ↔ ∃ j, j < (pa + n + 63) / 64 - pa / 64 ∧ l = lineOf pa + 64 * j := by
  simp [linesOf, eq_comm]

/-- A load meets poison when one of its bytes is poisoned in a line of which no copy serves it. -/
theorem meetsPoison_iff (s : State) (d c pa n : Nat) (hint : Hint) (cache : Bool) : s.meetsPoison d c pa n hint cache = true ↔
    ∃ k < n, s.copyFor d c (lineOf (pa + k)) hint cache = none ∧ s.poisoned (pa + k) 1 = true := by
  simp only [State.meetsPoison, List.any_eq_true, Bool.and_eq_true, Option.isNone_iff_eq_none, mem_linesOf]
  constructor
  · rintro ⟨l, ⟨j, hj, rfl⟩, copy, bad⟩
    obtain ⟨k, hk, bad⟩ := (poisoned_iff _ _ _).1 bad
    obtain ⟨i, hi⟩ : ∃ i, max (lineOf pa + 64 * j) pa + k = pa + i := ⟨max (lineOf pa + 64 * j) pa + k - pa, by omega⟩
    have line : lineOf (pa + i) = lineOf pa + 64 * j := by unfold lineOf at *; omega
    exact ⟨i, by omega, by rwa [line], by rwa [← hi]⟩
  · rintro ⟨k, hk, copy, bad⟩
    refine ⟨lineOf (pa + k), ⟨(pa + k) / 64 - pa / 64, by omega, by unfold lineOf; omega⟩, copy, ?_⟩
    refine (poisoned_iff _ _ _).2 ⟨pa + k - max (lineOf (pa + k)) pa, by unfold lineOf; omega, ?_⟩
    rwa [show max (lineOf (pa + k)) pa + (pa + k - max (lineOf (pa + k)) pa) = pa + k by unfold lineOf; omega]

/-- The copy that serves a lookup of the issuing core is the statements', a line of 512 bits. -/
theorem copyFor_mine (s : State) (h : Handle) (hint : Hint) (line : Nat) :
    s.copyFor s.iss.die s.iss.core line hint (h.cache && !h.claim) = (copySeen s h hint line).map (· % 2 ^ 512) := by
  simp only [State.copyFor, copySeen, State.cachedPath]
  by_cases path : h.cache = true ∧ h.claim = false ∧ isHbm line = true ∧ paModule line = s.modId s.iss.die ∧ hint ≠ .bypass
  · obtain ⟨cache, claim, hbm, module, hint⟩ := path
    simp only [cache, claim, hbm, module, hint, ne_eq, not_false_eq_true, decide_true, Bool.and_true, Bool.not_true, Bool.not_false,
      Bool.false_eq_true, if_false, and_self, if_true]
    show ((if s.myCore.drain.isNone then smFind s.myCore.cache line else none).or _).map _ = _
    simp only [Option.isNone_iff_eq_none]
    cases (if s.myCore.drain = none then smFind s.myCore.cache line else none) <;> rfl
  · rw [if_neg path]
    refine if_pos ?_
    simp only [Bool.not_eq_true', Bool.and_eq_false_iff, decide_eq_false_iff_not, Bool.not_eq_false']
    by_contra none
    exact path (by simpa [and_assoc] using none)

theorem loadPlain_poisoned (s : State) (h : Handle) (pa n : Nat) (hint : Hint) (va : Nat) (away : covered s.me.withheld pa n = false)
    (reply : s.me.reply = none) (stands : s.loadStands s.iss.die s.iss.core pa n hint (h.cache && !h.claim) = false)
    (bad : ∃ k < n, copySeen s h hint (lineOf (pa + k)) = none ∧ s.poisoned (pa + k) 1 = true) :
    s.loadPlain h pa n hint va = .error (.trap { code := 0x13, addr := va }) := by
  have meets : s.meetsPoison s.iss.die s.iss.core pa n hint (h.cache && !h.claim) = true := by
    obtain ⟨k, hk, copy, bad⟩ := bad
    exact (meetsPoison_iff _ _ _ _ _ _ _).2 ⟨k, hk, by rw [copyFor_mine, copy]; rfl, bad⟩
  simp [State.loadPlain, away, reply, stands, meets, raiseAt, Trap.code]

theorem accessTrapsInOrder : Stated.AccessTraps := by
  intro s o valid h f hf row i wr off n al
  have stop (e : Stop) (he : s.mmCheck o f.2.2.1 n al wr = .error e) := accessForms_stop s o f hf row e he
  refine ⟨fun bounds => ?_, fun bounds perm => ?_, fun bounds perm align => ?_, fun bounds perm align foot => ?_, ?poison⟩
  · exact stop _ (mmCheck_of_handle s o _ n al wr _ (accessCheck_bounds s h off n _ _ _ valid bounds))
  · exact stop _ (mmCheck_of_handle s o _ n al wr _ (accessCheck_permission s h off n _ _ _ valid bounds perm))
  · exact stop _ (mmCheck_misaligned s o _ n al wr valid bounds perm align)
  · exact stop _ (mmCheck_footprint s o _ n al wr valid bounds perm align foot)
  case poison =>
    intro load plain passes away reply stands bad
    have tests := mmCheck_passes s o f.2.2.1 n al wr (by rw [load]; exact passes)
    refine accessForms_loadStop s o f hf row load (.trap { code := 0x13, addr := vaOf h off }) h _ _ tests ?_
    have plain' : (s.regH o.h).claim = false := plain
    rw [State.loadBytes, plain', if_neg (by decide)]
    exact loadPlain_poisoned s h _ n o.hint _ away reply (by rw [plain]; simpa using stands) bad

/-! ### Unusable handles (R92) -/

theorem rollback_walks (s : State) (i : Nat) : (s.rollback i).walks = s.walks := by
  have rows := foldl_keeps State.walks (fun (u : State) (e : Nat × Row) =>
    { u with mem := memWrite u.mem (rowAddr (s.modId (s.task i).die) (s.task i).die (s.task i).core ((s.task i).rowBase + e.1)) 256 e.2.toNat })
    (fun _ _ => rfl) (s.task i).shadow s
  exact rows

theorem park_walks (s : State) (i : Nat) (w : Why) : (s.park i w).walks = s.walks := rollback_walks s i

/-- A task that has parked, with what it waits for (R160). -/
theorem park_task (s : State) (i : Nat) (w : Why) : ((s.park i w).task i).status = .parked ∧ ((s.park i w).task i).parkedOn = w := by
  simp only [State.park, State.task_modCore, State.task_setTask_same, and_self]

/-- A walk for the page is under way once one has been asked for. -/
theorem walk_under_way (s : State) (w : Walk) : ∃ x ∈ (s.applySide (.walk w)).walks,
    x.die = w.die ∧ x.launch = w.launch ∧ x.seg = w.seg ∧ x.off = w.off := by
  simp only [State.applySide]
  split
  next h => simpa [and_assoc] using h
  next => exact ⟨w, by simp, rfl, rfl, rfl, rfl⟩

theorem handleUnusable : Stated.HandleUnusable := by
  intro s o h f hf row i wr off n
  have stop (e : Stop) (he : s.mmCheck o f.2.2.1 n f.2.2.2.2.1 wr = .error e) := accessForms_stop s o f hf row e he
  refine ⟨fun empty => ?_, fun invalid wait => ?_⟩
  · have hn : 0 < n := by
      simp only [accessForms, List.mem_cons, List.not_mem_nil, or_false] at hf
      obtain rfl | rfl | rfl | rfl := hf <;> simp [n]
    refine stop (.trap { code := if vaOf h off = 0 ∧ n = 1 then 0x05 else 0x04, addr := vaOf h off, write := wr })
      (mmCheck_of_handle s o _ n _ wr _ ?_)
    rw [show s.regH o.h = {} from empty, empty]
    exact accessCheck_empty s off n _ _ wr hn (by cases wr <;> rfl)
  · have parks := stop _ (mmCheck_of_handle s o _ n _ wr _ (accessCheck_parks s h off n _ _ _ invalid wait))
    obtain ⟨status, parkedOn⟩ := park_task (State.noteWait (s.applySide _)) s.iss.task _
    exact ⟨_, parks, status, parkedOn, by rw [park_walks]; exact walk_under_way s _⟩

/-- Settles O18: the handle test, the traps of an access in the order of its tests, and handles that are not usable. -/
theorem accessTraps : Obligations.AccessTraps := ⟨accessTest, accessTrapsInOrder, handleUnusable⟩

end Sys2Proof.Machine
end

section
/-! SUPPORT. Cards and handles of commands (R92, R300), and the instructions on relay entries (R110, R325, R326, R329). -/

set_option Elab.async false

namespace Sys2Proof.Machine

open Stated

/-! ### Cards and handles (R92, R300, R306) -/

/-- A card that can be read is what memory holds there. -/
theorem readCard_ok (s : State) (off : Word) (n d : Nat) (h : CardAt s off n d) : s.readCard off n = .ok d := by
  obtain ⟨align, fits, release, board, clean, rfl⟩ := h
  simp [State.readCard, align, fits, release_ok s release, board, clean, State.bytes]

theorem needHandle_settled (s : State) (h : Handle) (reg : Nat) (settled : Settled h) : s.needHandle h reg = .ok false := by
  rcases settled with valid | ⟨pending, revoked⟩
  · simp [State.needHandle, valid]
  · simp [State.needHandle, pending, revoked]

/-- Settled handles park no task, and end no command. -/
theorem needHandles_settled (s : State) (l : List (Handle × Nat)) (h : ∀ x ∈ l, Settled x.1) : s.needHandles l = .ok false := by
  induction l with
  | nil => rfl
  | cons x l ih =>
    obtain ⟨settled, rest⟩ := List.forall_mem_cons.1 h
    simp [State.needHandles, needHandle_settled s x.1 x.2 settled, ih rest]

/-! ### Bits -/

/-- The bits of a card. -/
theorem flag_bits {w : Nat} (x : BitVec w) (k : Nat) : flag x.toNat k = x.getLsbD k := by
  rw [BitVec.getLsbD, Nat.testBit_eq_decide_div_mod_eq]
  rfl

/-! ### Entries (R110, R325) -/

theorem entryNo_ok (s : State) (v : Word) (h : v.toNat < 64) : s.entryNo v = .ok v.toNat := if_pos h

theorem entryNo_trap (s : State) (v : Word) (h : 64 ≤ v.toNat) : s.entryNo v = .error (.trap { code := 0x01, info := s.iss.word }) :=
  if_neg h.not_gt

theorem foreign_iff (s : State) (r : Relay) : foreign r.owner s.me.launch = true ↔ NotMine s r := by
  cases h : r.owner <;> simp [foreign, NotMine, h]

theorem not_foreign (s : State) (r : Relay) (h : ¬ NotMine s r) : foreign r.owner s.me.launch = false :=
  Bool.eq_false_iff.2 fun f => h ((foreign_iff s r).1 f)

/-- An entry that is posted, armed or firing, or that another launch owns, is refused. -/
theorem rpostStatus_busy (s : State) (r old : Relay) (h : old.state = .posted ∨ old.state = .armed ∨ old.state = .firing ∨ NotMine s old) :
    s.rpostStatus r old ≠ 0 := by
  have busy : (foreign old.owner s.me.launch || decide (old.state = .posted) || decide (old.state = .armed) || decide (old.state = .firing)) = true := by
    simp only [Bool.or_eq_true, decide_eq_true_eq, foreign_iff]
    tauto
  unfold State.rpostStatus
  simp only [busy, if_true]
  split
  · decide
  split
  · decide
  split
  · decide
  split <;> decide

/-- The word of rstat (R329). -/
theorem relayWord_fields (r : Relay) : (BitVec.ofNat 64 r.word).toNat % 2 ^ 8 = r.state.code
    ∧ (BitVec.ofNat 64 r.word).toNat / 2 ^ 8 % 2 ^ 8 = r.status % 2 ^ 8 ∧ (BitVec.ofNat 64 r.word).getLsbD 16 = r.late
    ∧ (BitVec.ofNat 64 r.word).toNat / 2 ^ 24 = r.doneRows % 2 ^ 16 := by
  have code : r.state.code < 256 := by cases r.state <;> decide
  have late := ofFlag_lt r.late
  have word : (BitVec.ofNat 64 r.word).toNat = r.word := by
    rw [BitVec.toNat_ofNat, Nat.mod_eq_of_lt]
    simp only [Relay.word]
    omega
  have bit : (r.word / 2 ^ 16 % 2 == 1) = (ofFlag r.late % 2 == 1) := by
    congr 1
    simp only [Relay.word]
    omega
  refine ⟨?_, ?_, ?_, ?_⟩
  · rw [word, Relay.word]; omega
  · rw [word, Relay.word]; omega
  · rw [← flag_bits, word, flag, bit, ofFlag_one]
  · rw [word, Relay.word]; omega

/-! ### rpost (R325) -/

theorem modRelay_congr (s : State) (e : Nat) (f g : Relay → Relay) (same : f (s.myCore.relay e) = g (s.myCore.relay e)) :
    s.modRelay s.iss.die s.iss.core e f = relaySet s e g := by
  show s.setCore _ _ { s.myCore with relays := smPut _ e (f (s.myCore.relay e)) } = _
  rw [same]
  rfl

/-- Posting the entry that a card gives: its handles, its status, and the entry. -/
def postEntry (s : State) (a : Fin 32) (hs hd : Fin 16) (e : Nat) (r : Relay) : Act := do
  let bad ← s.needHandles (if r.kind = 2 then [(r.hd, hd.val)] else [(r.hs, hs.val), (r.hd, hd.val)])
  let st := if bad then CStat.poison.code else s.rpostStatus r (s.myCore.relay e)
  let s := if st = 0 then s.modRelay s.iss.die s.iss.core e fun _ => r else s
  .ok (s.resC a (BitVec.ofNat 64 st))

theorem actRpost_eq (s : State) (a : Fin 32) (b c : SSrc) (hs hd : Fin 16) (x y : Word) (d : Nat) (hb : s.srcS b = .ok x)
    (hc : s.srcS c = .ok y) (hy : y.toNat < 64) (card : CardAt s x 64 d) :
    actRpost a b c hs hd s = postEntry s a hs hd y.toNat
      { state := .posted, card := BitVec.ofNat 512 d, hs := s.regH hs, hd := s.regH hd, status := (s.myCore.relay y.toNat).status,
        owner := some s.me.launch, task := s.iss.task } := by
  simp only [actRpost, hb, hc, entryNo_ok s y hy, readCard_ok s x 64 d card, except_ok_bind]
  rfl

theorem postEntry_settled (s : State) (a : Fin 32) (hs hd : Fin 16) (e : Nat) (r : Relay) (source : r.kind ≠ 2 → Settled r.hs)
    (dest : Settled r.hd) : postEntry s a hs hd e r
      = .ok ((if s.rpostStatus r (s.myCore.relay e) = 0 then relaySet s e fun _ => r else s).resC a
          (BitVec.ofNat 64 (s.rpostStatus r (s.myCore.relay e)))) := by
  have handles : s.needHandles (if r.kind = 2 then [(r.hd, hd.val)] else [(r.hs, hs.val), (r.hd, hd.val)]) = .ok false := by
    apply needHandles_settled
    split
    next => simpa using dest
    next h => simpa using ⟨source h, dest⟩
  simp only [postEntry, handles, except_ok_bind, Bool.false_eq_true, if_false, modRelay_congr s e (fun _ => r) (fun _ => r) rfl]

/-! ### rarm (R326) -/

theorem actRarm_refused (s : State) (a : Fin 32) (c : SSrc) (y : Word) (hc : s.srcS c = .ok y) (hy : y.toNat < 64)
    (h : NotMine s (s.myCore.relay y.toNat) ∨ (s.myCore.relay y.toNat).state ≠ .posted) : actRarm a c s = .ok (s.resC a 9) := by
  have refused : (foreign (s.myCore.relay y.toNat).owner s.me.launch || decide ((s.myCore.relay y.toNat).state ≠ .posted)) = true := by
    simpa only [Bool.or_eq_true, decide_eq_true_eq, foreign_iff] using h
  simp only [actRarm, hc, entryNo_ok s y hy, except_ok_bind, refused, if_true]
  rfl

/-- Arming an entry of the launch that is posted: the test of its time, and then the entry armed and the core's entries tested. -/
theorem actRarm_mine (s : State) (a : Fin 32) (c : SSrc) (y : Word) (hc : s.srcS c = .ok y) (hy : y.toNat < 64)
    (mine : ¬ NotMine s (s.myCore.relay y.toNat)) (posted : (s.myCore.relay y.toNat).state = .posted)
    (release : s.releaseWaits s.iss.task = false) :
    let r := s.myCore.relay y.toNat
    let late := decide (r.notBefore ≠ 0 ∧ r.notBefore ≤ s.myDie.time)
    actRarm a c s = if r.card.getLsbD 394 = true ∧ late = true then .error (.trap { code := 0x1D, info := r.notBefore })
      else .ok (((relaySet s y.toNat fun r => { r with state := .armed, late := late }).relayTest s.iss.die s.iss.core).resC a 0) := by
  intro r late
  have passed : s.passed r.notBefore = late := (Bool.decide_and _ _).symm
  have open_ : (foreign r.owner s.me.launch || decide (r.state ≠ .posted)) = false := by
    rw [not_foreign s r mine]
    simpa using posted
  simp only [actRarm, hc, entryNo_ok s y hy, except_ok_bind]
  rw [if_neg (by rw [open_]; decide)]
  change (s.expired r.notBefore (flag r.card.toNat 394) >>= fun _ => _) = _
  rw [State.expired, flag_bits, passed]
  by_cases expired : r.card.getLsbD 394 = true ∧ late = true
  · rw [if_pos expired, expired.1, expired.2]
    rfl
  · have on : (!(r.card.getLsbD 394 && late)) = true := by
      rw [Bool.not_eq_true', ← Bool.not_eq_true, Bool.and_eq_true]
      exact expired
    rw [if_neg expired, on, require_true, except_ok_bind, release_ok s release, except_ok_bind]
    exact congrArg (fun u : State => Except.ok ((u.relayTest s.iss.die s.iss.core).resC a 0)) (modRelay_congr s _ _ _ (by rw [← passed]))

theorem relayResults : Stated.RelayResults := by
  intro s a b c hs hd x y d hb hc hy e r posted
  refine ⟨fun card source dest => ?post, fun h => ?refused, fun mine hp release => ?arm, fun other => ?other, fun mine => ?cancel, ?stat⟩
  case post =>
    refine ⟨if s.rpostStatus posted r = 0 then relaySet s e fun _ => posted else s, _, s.rpostStatus posted r, ?_, resultC_resC _ _ _, rfl,
      fun h => if_neg h, fun h => if_pos h, rpostStatus_busy s posted r⟩
    exact congrArg (resolve s) ((actRpost_eq s a b c hs hd x y d hb hc hy card).trans (postEntry_settled s a hs hd e posted source dest))
  case refused => exact ⟨_, congrArg (resolve s) (actRarm_refused s a c y hc hy h), resultC_resC s a 9⟩
  case arm =>
    have run := actRarm_mine s a c y hc hy mine hp release
    intro late
    refine ⟨fun h => congrArg (resolve s) (run.trans (if_pos h)), fun h => congrArg (resolve s) (run.trans (if_neg h))⟩
  case other =>
    refine ⟨_, ?_, resultC_resC s a 0xF⟩
    show resolve s (actRcancel a c s) = _
    simp only [actRcancel, hc, entryNo_ok s y hy, except_ok_bind]
    rw [if_pos ((foreign_iff s _).2 other)]
    rfl
  case cancel =>
    refine ⟨_, _, ?_, resultC_resC _ a _, rfl⟩
    show resolve s (actRcancel a c s) = _
    simp only [actRcancel, hc, entryNo_ok s y hy, except_ok_bind]
    rw [if_neg (by rw [not_foreign s _ mine]; decide)]
    rfl
  case stat =>
    refine ⟨_, _, ?_, resultC_resC s a _, relayWord_fields r⟩
    show resolve s (actRstat a c s) = _
    simp only [actRstat, hc, entryNo_ok s y hy, except_ok_bind]
    rfl

theorem relayEntryTraps : Stated.RelayEntryTraps := by
  intro s a b c hs hd x y hb hc hy i hi
  have trap := entryNo_trap s y hy
  simp only [List.mem_cons, List.not_mem_nil, or_false] at hi
  obtain rfl | rfl | rfl | rfl := hi
  · show resolve s (actRpost a b c hs hd s) = _
    simp only [actRpost, hb, hc, trap, except_ok_bind, except_error_bind, resolve_trap]
  · show resolve s (actRarm a c s) = _
    simp only [actRarm, hc, trap, except_ok_bind, except_error_bind, resolve_trap]
  · show resolve s (actRcancel a c s) = _
    simp only [actRcancel, hc, trap, except_ok_bind, except_error_bind, resolve_trap]
  · show resolve s (actRstat a c s) = _
    simp only [actRstat, hc, trap, except_ok_bind, except_error_bind, resolve_trap]

/-- Settles O30: the four instructions on an entry of the core, and the numbers that name none. -/
theorem relays : Obligations.Relays := ⟨relayResults, relayEntryTraps⟩

end Sys2Proof.Machine
end

section
/-! SUPPORT. The start of a matrix job, waiting for it, its word, and clearing rows (R110, R273, R287, R291, R295 to R297). -/

set_option Elab.async false

namespace Sys2Proof.Machine

open Stated

/-! ### Owners and pending traps (R110, R291) -/

theorem foreign_owner_iff (o : Option Nat) (l : Nat) : foreign o l = true ↔ ¬ (o = none ∨ o = some l) := by
  cases o <;> simp [foreign]

theorem jobTrapCheck_ok (s : State) (h : s.me.job.pend = none) : s.jobTrapCheck = .ok () := by
  simp [State.jobTrapCheck, h]

theorem jobTrapCheck_trap (s : State) (f : TrapRec) (h : s.me.job.pend = some f) : s.jobTrapCheck = .error (.jobTrap f) := by
  simp [State.jobTrapCheck, h]

theorem granted_ok (s : State) (g : Grant) (h : s.me.shadowSet.grant = some g) : s.granted = .ok g := by
  simp [State.granted, h]

theorem granted_none (s : State) (h : s.me.shadowSet.grant = none) : s.granted = raise .shapeUngranted := by
  simp [State.granted, h]

theorem State.setCore_setCore (s : State) (d c : Nat) (x y : Core) : (s.setCore d c x).setCore d c y = s.setCore d c y := by
  simp only [State.setCore, smPut_smPut]

/-! ### mgo (R287) -/

/-- The read ranges of a job: B's arrays, for weights at the bank. -/
def bankRanges (g : Grant) (y : Operand) : List (Nat × Nat) :=
  if g.fmt = .ab4 then y.view.arrays.map fun r => ((y.h.phys r).1.toNat, (y.h.phys r).2) else []

/-- The core of a task whose job goes to the end of the engine queue, with the result queue of its drain taken. -/
def engineJoined (s : State) (m : MSet) : Core :=
  let c := if m.toQueue then { s.myCore with rqs := smPut s.myCore.rqs m.queue { s.myCore.rq m.queue with owner := some s.me.launch } } else s.myCore
  { c with engine := s.myCore.engine ++ [s.iss.task] }

/-- Copies of the task that wait for rows which no job brings go on with those they have (R310). -/
def shortened (s : State) : List Cmd := s.cmds.map fun x => { x with short := x.short || (decide (x.task = s.iss.task) && !s.fillable x) }

/-- The task with its job queued (R273, R287). -/
def jobQueued (s : State) (m : MSet) (ranges : List (Nat × Nat)) (no : Nat) : Task :=
  { s.me with active := activated m s.iss.snap.seed
              job := { state := .queued, ranges := ranges, order := s.issued, no := no, faultCode := s.me.job.faultCode } }

/-- The state after mgo. -/
def jobStarted (s : State) (m : MSet) (ranges : List (Nat × Nat)) : State :=
  let no := if ranges.isEmpty then s.sent else s.sent + 1
  { (s.setTask s.iss.task (jobQueued s m ranges no)).setCore s.iss.die s.iss.core (engineJoined s m) with
    issued := s.issued + 1, sent := no, iss := { s.iss with newJob := true }, cmds := shortened s }

theorem activate_eq (m : MSet) (seed : Word) : m.activate seed = activated m seed := by
  simp only [MSet.activate, activated, flag_bits]

/-- The model's start of a job, in its own steps. -/
def mgoSteps (s : State) (m : MSet) (ranges : List (Nat × Nat)) : State :=
  let s := if m.toQueue then s.takeRq m.queue else s
  let i := s.iss.task
  let n := s.issued
  let s := { s with
    issued := n + 1
    sent := if ranges.isEmpty then s.sent else s.sent + 1
    iss := { s.iss with newJob := true }
    cmds := s.cmds.map fun (x : Cmd) => if x.task = i ∧ !s.fillable x then { x with short := true } else x }
  let s := s.modMe fun t => { t with
    active := m.activate s.iss.snap.seed
    job := { state := .queued, ranges := ranges, order := n, no := s.sent, faultCode := t.job.faultCode } }
  s.modMyCore fun x => { x with engine := x.engine ++ [i] }

theorem shortened_eq (s : State) :
    (s.cmds.map fun (x : Cmd) => if x.task = s.iss.task ∧ !s.fillable x then { x with short := true } else x) = shortened s := by
  refine List.map_congr_left fun x _ => ?_
  by_cases h : x.task = s.iss.task ∧ (!s.fillable x) = true
  · rw [if_pos h, h.2, decide_eq_true h.1, Bool.and_self, Bool.or_true]
  · have keeps : (decide (x.task = s.iss.task) && !s.fillable x) = false := by
      rw [← Bool.not_eq_true, Bool.and_eq_true, decide_eq_true_eq]
      exact h
    rw [if_neg h, keeps, Bool.or_false]

theorem mgoSteps_eq (s : State) (m : MSet) (ranges : List (Nat × Nat)) : mgoSteps s m ranges = jobStarted s m ranges := by
  have cmds := shortened_eq s
  have active := activate_eq m s.iss.snap.seed
  cases taken : m.toQueue
  · simp only [jobStarted, jobQueued, engineJoined, taken, ← cmds, ← active]
    simp only [mgoSteps, taken]
    rfl
  · have core : (s.takeRq m.queue).myCore = { s.myCore with rqs := smPut s.myCore.rqs m.queue { s.myCore.rq m.queue with owner := some s.me.launch } } :=
      State.core_modCore_same _ _ _ _
    have joined : (s.takeRq m.queue).setCore s.iss.die s.iss.core { (s.takeRq m.queue).myCore with engine := s.myCore.engine ++ [s.iss.task] }
        = s.setCore s.iss.die s.iss.core (engineJoined s m) := by
      rw [core, engineJoined, taken]
      exact State.setCore_setCore _ _ _ _ _
    calc mgoSteps s m ranges = { ((s.takeRq m.queue).setCore s.iss.die s.iss.core { (s.takeRq m.queue).myCore with engine := s.myCore.engine ++ [s.iss.task] }).setTask
            s.iss.task (jobQueued s m ranges (if ranges.isEmpty then s.sent else s.sent + 1)) with
            issued := s.issued + 1, sent := (if ranges.isEmpty then s.sent else s.sent + 1), iss := { s.iss with newJob := true }, cmds := shortened s } := by
          simp only [jobQueued, ← cmds, ← active]
          simp only [mgoSteps, taken, if_true]
          have engine : s.myCore.engine = (s.takeRq m.queue).myCore.engine := by rw [core]
          rw [engine]
          rfl
      _ = _ := by rw [joined]; rfl

theorem engineJoined_rq (s : State) (m : MSet) (k : Nat) : (engineJoined s m).rq k
    = if m.toQueue = true ∧ k = m.queue then { s.myCore.rq k with owner := some s.me.launch } else s.myCore.rq k := by
  simp only [engineJoined, Core.rq]
  cases m.toQueue
  · simp
  · by_cases at_ : k = m.queue
    · subst at_; simp [smGet_smPut_same]
    · simp [at_, smGet_smPut_other]

theorem engineJoined_eq (s : State) (m : MSet) :
    engineJoined s m = { s.myCore with engine := s.myCore.engine ++ [s.iss.task], rqs := (engineJoined s m).rqs } := by
  unfold engineJoined
  cases m.toQueue <;> rfl

theorem actMgo_eq (s : State) (g : Grant) (x y : Operand) (pend : s.me.job.pend = none) (grant : s.me.shadowSet.grant = some g)
    (opA : s.me.shadowSet.opA = some x) (opB : s.me.shadowSet.opB = some y) : actMgo s = (do
      require (decide (s.me.job.state = .done)) (waits .job)
      require (!s.me.shadowSet.badNumerics g x y) (raiseInfo .numericsProfile s.me.shadowSet.prof.toNat)
      require (s.me.shadowSet.tilesFit g) (raise .handleBounds)
      require (!(s.me.shadowSet.toQueue && s.rqForeign s.me.shadowSet.queue)) (raiseInfo .rqOverflow s.me.shadowSet.queue)
      s.release
      .ok (jobStarted s s.me.shadowSet (bankRanges g y))) := by
  simp only [actMgo, jobTrapCheck_ok s pend, granted_ok s g grant, opA, opB, except_ok_bind, ← mgoSteps_eq]
  rfl

theorem rqForeign_iff (s : State) (q : Nat) :
    s.rqForeign q = true ↔ ¬ ((s.myCore.rq q).owner = none ∨ (s.myCore.rq q).owner = some s.me.launch) := foreign_owner_iff _ _

theorem jobStarts : Stated.JobStarts := by
  intro s g x y pend m queue toQueue ranges hg hx hy
  have run := actMgo_eq s g x y pend hg hx hy
  have drains : s.me.shadowSet.toQueue = toQueue := flag_bits _ _
  have names : s.me.shadowSet.queue = queue := rfl
  refine ⟨fun busy => ?_, fun done => ?_⟩
  · change resolve s (actMgo s) = _
    rw [run, decide_eq_false busy]
    rfl
  rw [decide_eq_true done, require_true, except_ok_bind] at run
  refine ⟨fun bad => ?_, fun good unfit => ?_, fun good fit => ?_⟩
  · change resolve s (actMgo s) = _
    rw [run, bad]
    rfl
  · change resolve s (actMgo s) = _
    rw [run, good, unfit]
    rfl
  intro mine
  rw [good, fit, Bool.not_false, require_true, require_true, except_ok_bind, except_ok_bind, drains, names] at run
  have passes (h : toQueue = true → mine) : (!(toQueue && s.rqForeign queue)) = true := by
    cases toQ : toQueue
    · rfl
    · rw [Bool.true_and, Bool.not_eq_true', ← Bool.not_eq_true, rqForeign_iff, not_not]
      exact h toQ
  refine ⟨fun toQ other => ?_, fun h wait => ?_, fun h go => ?_⟩
  · change resolve s (actMgo s) = _
    rw [run, toQ, (rqForeign_iff s queue).2 other]
    rfl
  · change resolve s (actMgo s) = _
    rw [run, passes h, release_waits s wait]
    rfl
  · have started : exec .mgo s = .next (jobStarted s m ranges) := by
      change resolve s (actMgo s) = _
      rw [run, passes h, release_ok s go]
      rfl
    have core : (jobStarted s m ranges).myCore = engineJoined s m := State.core_setCore_same _ _ _ _
    have me : (jobStarted s m ranges).me = jobQueued s m ranges (if ranges.isEmpty then s.sent else s.sent + 1) := State.task_setTask_same _ _ _
    refine ⟨_, started, ?_, ?_, ?_, fun k => ?_, rfl, me⟩
    · rw [core, me]
      rfl
    · show (if ranges.isEmpty then _ else _) = _
      simp only [List.isEmpty_iff]
    · rw [core]
      exact engineJoined_eq s m
    · rw [core, ← drains]
      exact engineJoined_rq s m k

/-! ### mwait and mstat (R295, R296) -/

theorem jobWait_ok (s : State) (pend : s.me.job.pend = none) (h : s.me.job.state = .done ∨ s.iss.newJob = true) : s.jobWait = .ok () := by
  rw [State.jobWait, jobTrapCheck_ok s pend, except_ok_bind]
  exact if_pos h

theorem jobWait_running (s : State) (pend : s.me.job.pend = none) (running : s.me.job.state = .running) (old : s.iss.newJob = false) :
    s.jobWait = waits .job := by
  rw [State.jobWait, jobTrapCheck_ok s pend, except_ok_bind]
  simp [running, old]

theorem jobWait_overflow (s : State) (pend : s.me.job.pend = none) (parked : s.me.job.state = .parked) (full : s.me.job.rqFull = true)
    (unbound : (s.myCore.rq s.me.active.queue).bound = none) (rows : 96 < (s.myCore.rq s.me.active.queue).rows.length + 48)
    (old : s.iss.newJob = false) : s.jobWait = raiseInfo .rqOverflow s.me.active.queue := by
  rw [State.jobWait, jobTrapCheck_ok s pend, except_ok_bind]
  simp [parked, full, unbound, old, rows]

theorem jobWait_trap (s : State) (f : TrapRec) (pend : s.me.job.pend = some f) : s.jobWait = .error (.jobTrap f) := by
  rw [State.jobWait, jobTrapCheck_trap s f pend, except_error_bind]

/-- The word of mstat (R296). -/
theorem jobWord_fields (j : Job) : (BitVec.ofNat 64 j.word).getLsbD 0 = decide (j.state ≠ .done)
    ∧ (BitVec.ofNat 64 j.word).toNat / 2 ^ 32 = j.steps % 2 ^ 32
    ∧ (BitVec.ofNat 64 j.word).toNat / 2 ^ 8 % 2 ^ 8 = j.faultCode % 2 ^ 8 := by
  have rot := ofFlag_lt j.rotNone
  have full := ofFlag_lt (decide (j.state = .parked) && j.rqFull)
  have stopped := ofFlag_lt (decide (j.state = .stopped))
  have held := ofFlag_lt (decide (j.state = .parked) && j.onHandle)
  have busy := ofFlag_lt (decide (j.state ≠ .done))
  have word : (BitVec.ofNat 64 j.word).toNat = j.word := by
    rw [BitVec.toNat_ofNat, Nat.mod_eq_of_lt]
    simp only [Job.word]
    omega
  have bit : (j.word / 2 ^ 0 % 2 == 1) = (ofFlag (decide (j.state ≠ .done)) % 2 == 1) := by
    congr 1
    simp only [Job.word]
    omega
  refine ⟨?_, ?_, ?_⟩
  · rw [← flag_bits, word, flag, bit, ofFlag_one]
  · rw [word, Job.word]; omega
  · rw [word, Job.word]; omega

theorem actMgo_ungranted (s : State) (pend : s.me.job.pend = none)
    (h : s.me.shadowSet.grant = none ∨ s.me.shadowSet.opA = none ∨ s.me.shadowSet.opB = none) : actMgo s = raise .shapeUngranted := by
  cases grant : s.me.shadowSet.grant with
  | none =>
    rw [actMgo, jobTrapCheck_ok s pend, except_ok_bind, granted_none s grant]
    rfl
  | some g =>
    have operands : s.me.shadowSet.opA = none ∨ s.me.shadowSet.opB = none := h.resolve_left (by simp [grant])
    simp only [actMgo, jobTrapCheck_ok s pend, granted_ok s g grant, except_ok_bind]
    split
    next opA opB => simp [opA, opB] at operands
    next => rfl

theorem jobControl : Stated.JobControl := by
  intro s a j
  refine ⟨fun pend => ⟨fun h => ?_, fun h => ?_, fun running old => ?_, ?_, ?_⟩, fun f pend i hi => ?_⟩
  · exact congrArg (resolve s) (actMgo_ungranted s pend h)
  · change resolve s (actMwait s) = _
    rw [actMwait, jobWait_ok s pend h, except_ok_bind, acquire_eq, resolve_ok]
  · change resolve s (actMwait s) = _
    rw [actMwait, jobWait_running s pend running old]
    rfl
  · intro q parked full unbound rows old
    change resolve s (actMwait s) = _
    rw [actMwait, jobWait_overflow s pend parked full unbound rows old]
    rfl
  · refine ⟨_, _, ?_, resultM_resM s a _, jobWord_fields j⟩
    change resolve s (actMstat a s) = _
    rw [actMstat, jobTrapCheck_ok s pend]
    rfl
  · have trap := jobTrapCheck_trap s f pend
    simp only [List.mem_cons, List.not_mem_nil, or_false] at hi
    obtain rfl | rfl | rfl := hi
    · change resolve s (actMgo s) = _
      rw [actMgo, trap]
      rfl
    · change resolve s (actMwait s) = _
      rw [actMwait, jobWait_trap s f pend]
      rfl
    · change resolve s (actMstat a s) = _
      rw [actMstat, trap]
      rfl

/-! ### mzero (R297) -/

theorem overlaps_iff (a n b m : Nat) : overlaps a n b m = true ↔ a < b + m ∧ b < a + n ∧ 0 < n ∧ 0 < m := by
  simp [overlaps, and_assoc]

/-- Rows kept for the bundle's reads change nothing else. -/
theorem keepRows_eq (s : State) (l : List Nat) :
    ∃ o, l.foldl (fun s k => s.keepRow k) s = { s with iss := { s.iss with oldRows := o } } := by
  induction l generalizing s with
  | nil => exact ⟨_, rfl⟩
  | cons k l ih =>
    obtain ⟨o, h⟩ := ih (s.keepRow k)
    exact ⟨o, h⟩

theorem rowsZeroed : Stated.RowsZeroed := by
  intro s b c r n hb hc
  have run : exec (.mzero b c) s = resolve s (if n.toNat = 0 then .ok s else do
      require (decide (r.toNat + n.toNat ≤ s.me.rowCount)) (raise .handleBounds)
      require (!(match s.me.outRows with
        | some (o, k) => overlaps r.toNat n.toNat o k
        | none => false)) (raiseInfo .aliasHazard (max r.toNat ((s.me.outRows.map (·.1)).getD 0)))
      require (!s.stores.any fun w => decide (w.task = s.iss.task) && overlaps w.pa w.len (s.vaddr r.toNat) (n.toNat * 256))
        (waits (.rows (s.vaddr r.toNat) (n.toNat * 256)))
      .ok (((List.range n.toNat).foldl (fun s k => s.keepRow (r.toNat + k)) s).putBytes (s.vaddr r.toNat) (n.toNat * 256) 0)) := by
    change resolve s (actMzero b c s) = _
    simp only [actMzero, hb, hc, except_ok_bind] <;> rfl
  have nonzero (h : n ≠ 0) : n.toNat ≠ 0 := fun e => h (BitVec.eq_of_toNat_eq e)
  refine ⟨fun h => ?_, fun h out => ?_, fun o k h fits rows some_ below above => ?_, fun h fits apart free => ?_⟩
  · subst h
    rw [run]
    rfl
  · rw [Traps, run, if_neg (nonzero h), decide_eq_false (by omega)]
    rfl
  · have hit : overlaps r.toNat n.toNat o k = true := (overlaps_iff ..).2 ⟨above, below, Nat.pos_of_ne_zero (nonzero h), some_⟩
    rw [Traps, run, if_neg (nonzero h), decide_eq_true fits, rows]
    dsimp only
    rw [hit]
    rfl
  · have clear : (match s.me.outRows with
        | some (o, k) => overlaps r.toNat n.toNat o k
        | none => false) = false := by
      cases rows : s.me.outRows with
      | none => rfl
      | some ok =>
        rw [← Bool.not_eq_true, overlaps_iff]
        have := apart ok.1 ok.2 rows
        tauto
    obtain ⟨old, kept⟩ := keepRows_eq s ((List.range n.toNat).map (r.toNat + ·))
    rw [List.foldl_map] at kept
    rw [run, if_neg (nonzero h), decide_eq_true fits, clear, free, kept]
    refine ⟨_, rfl, rfl, fun q => ?_⟩
    have zero (k : Nat) : byteAt 0 k = 0 := by simp [byteAt]
    exact (memByte_memWrite _ _ _ _ _).trans (by rw [zero])

/-- Settles O4: the queued job by the state after mgo; what it lets pass, what waits and what traps. -/
theorem matrixJobs : Obligations.MatrixJobs := ⟨jobStarts, jobControl, rowsZeroed⟩

end Sys2Proof.Machine
end

section
/-! SUPPORT. The issue of seam operations (R103, R144, R317, R318, R320 to R322). -/

set_option Elab.async false

namespace Sys2Proof.Machine

open Stated

/-! ### Operand words (R317, R318) -/

theorem svec_w (x : Word) : (svec x).w = seamW x := rfl

theorem svec_one (x : Word) (h : seamW x = 1) : decide ((svec x).w = 1) = true := decide_eq_true h

theorem svec_bank (x : Word) : (svec x).bank = seamBankField x := rfl

theorem svec_k (x : Word) : (svec x).k = seamK x := rfl

/-- The checks of R318 on one operand word. -/
theorem svec_ok_iff (s : State) (x : Word) (dst : Bool) : (svec x).ok s.me.bankCount dst = true ↔ SeamFits s x dst := by
  have precision : seamK x = if (svec x).kraw = 0 then seamW x else (svec x).kraw := rfl
  have row : (svec x).row = x.toNat % 2 ^ 10 := by simp [svec, field]
  simp only [SVec.ok, Bool.and_eq_true, Bool.not_eq_true', Bool.and_eq_false_iff, decide_eq_true_eq, decide_eq_false_iff_not]
  simp only [SeamFits, precision, svec_w, svec_bank, row]
  by_cases plain : (svec x).kraw = 0
  · rw [if_pos plain]
    simp only [plain, ne_eq, not_true_eq_false, not_false_eq_true, or_true, true_or, and_true, le_refl, implies_true, zero_le]
  · rw [if_neg plain]
    cases dst <;> simp only [Bool.true_eq_false, Bool.false_eq_true, false_or, true_or, true_implies, false_implies, and_true] <;> tauto

theorem svec_ok (s : State) (x : Word) (dst : Bool) (h : SeamFits s x dst) : (svec x).ok s.me.bankCount dst = true := (svec_ok_iff s x dst).2 h

theorem svec_unfit (s : State) (x : Word) (dst : Bool) (h : ¬ SeamFits s x dst) : (svec x).ok s.me.bankCount dst = false :=
  Bool.eq_false_iff.2 fun ok => h ((svec_ok_iff s x dst).1 ok)

/-! ### Queues of banks (R103, R104, R144) -/

theorem bankRoom_ok (s : State) (n : Nat) (ready : BankReady s n) : s.bankRoom n = .ok () := by
  obtain ⟨performed, room⟩ := ready
  rw [State.bankRoom, release_ok s performed, decide_eq_true room]
  rfl

/-- A seam operation that has entered the queue of its bank, with the commands before it that touch the bank (R104). -/
theorem queues_pushed (i : Instr) (s : State) (n : Nat) (x y z : Word) (iv : Nat × Nat) (wr : Bool)
    (run : exec i s = .next (s.pushMacro n { s.macroOf n i x y z with iv := iv, isWrite := wr })) : Queues i s n x y z iv wr := by
  refine ⟨_, run, rfl, rfl, rfl, rfl, rfl, rfl, rfl, fun id before => ?_⟩
  obtain ⟨c, c_mem, rfl⟩ := List.mem_map.1 before
  obtain ⟨cmd, here⟩ := List.mem_filter.1 c_mem
  simp only [Bool.and_eq_true, decide_eq_true_eq] at here
  exact ⟨c, cmd, rfl, here.1.1, here.1.2⟩

/-- A seam operation whose operands fit is queued. -/
theorem seamOp_queues (i : Instr) (s : State) (a b c : Word) (srcs : List SVec) (extra : Bool) (h : exec i s = resolve s (seamOp i a b c srcs extra s))
    (dst : SeamFits s a true) (fits : ∀ v ∈ srcs, v.ok s.me.bankCount false = true ∧ v.bank = seamBankField a) (rule : extra = true)
    (ready : BankReady s (seamBank s a)) : Queues i s (seamBank s a) a b c (0, 0) false := by
  have sources : (srcs.all fun v => v.ok s.me.bankCount false && decide (v.bank = (svec a).bank)) = true :=
    List.all_eq_true.2 fun v hv => Bool.and_eq_true_iff.2 ⟨(fits v hv).1, decide_eq_true (fits v hv).2⟩
  have room : s.bankRoom (s.bankNo (svec a)) = .ok () := bankRoom_ok s _ ready
  refine queues_pushed i s _ a b c (0, 0) false (h.trans ?_)
  rw [seamOp, svec_ok s a true dst, sources, rule, room]
  rfl

/-- A seam operation whose destination does not fit, or whose own rule fails, raises SEAM_OPERAND. -/
theorem seamOp_traps (i : Instr) (s : State) (a b c : Word) (srcs : List SVec) (extra : Bool) (h : exec i s = resolve s (seamOp i a b c srcs extra s))
    (unfit : ¬ SeamFits s a true ∨ extra = false) : Traps i s { code := 0x11, info := s.iss.word } := by
  have refused : ((svec a).ok s.me.bankCount true && srcs.all (fun v => v.ok s.me.bankCount false && decide (v.bank = (svec a).bank)) && extra) = false := by
    obtain dst | rule := unfit
    · rw [svec_unfit s a true dst]
      rfl
    · rw [rule, Bool.and_false]
  refine h.trans ?_
  rw [seamOp, refused]
  rfl

/-- The form over three operand words. -/
theorem seam3_eq (i : Instr) (o : SeamOp) (one : Bool) (s : State) (x y z : Word) (ha : s.srcS o.a = .ok x) (hb : s.srcS o.b = .ok y)
    (hc : s.srcS o.c = .ok z) : seam3 i o one s = seamOp i x y z [svec y, svec z] (!one || decide (seamW x = 1)) s := by
  rw [seam3, ha, except_ok_bind, hb, except_ok_bind, hc, except_ok_bind, svec_w]

/-- How each form over operand words issues. -/
def WordForm (s : State) (i : Instr) (a b c : Word) (srcs : List SVec) (extra : Bool) : Prop :=
  exec i s = resolve s (seamOp i a b c srcs extra s)

section
variable (s : State) (o : SeamOp) (x y z : Word) (ha : s.srcS o.a = .ok x) (hb : s.srcS o.b = .ok y) (hc : s.srcS o.c = .ok z)
include ha hb

theorem wordForm_scp (pred : Bool) : WordForm s (.scp o.a o.b pred) x y 0 [svec y] true := by
  show resolve s (actScp o.a o.b pred s) = _
  rw [actScp, ha, except_ok_bind, hb, except_ok_bind]

theorem wordForm_not : WordForm s (.slog .not o) x y 0 [svec y] true := by
  show resolve s (actSlog .not o s) = _
  rw [actSlog, ha, except_ok_bind, hb, except_ok_bind, if_pos rfl]

include hc

theorem wordForm_exact (sat : Bool) (i : Instr) (hi : i ∈ [Instr.sadd o sat, .ssub o sat, .smul o, .ssel o.a o.b o.c]) :
    WordForm s i x y z [svec y, svec z] true := by
  simp only [List.mem_cons, List.not_mem_nil, or_false] at hi
  obtain rfl | rfl | rfl | rfl := hi
  · exact congrArg (resolve s) (seam3_eq _ o false s x y z ha hb hc)
  · exact congrArg (resolve s) (seam3_eq _ o false s x y z ha hb hc)
  · exact congrArg (resolve s) (seam3_eq _ o false s x y z ha hb hc)
  · exact congrArg (resolve s) (seam3_eq _ { o with pred := false } false s x y z ha hb hc)

theorem wordForm_slog (op : SeamLog) (two : op ≠ .not) : WordForm s (.slog op o) x y z [svec y, svec z] true := by
  show resolve s (actSlog op o s) = _
  rw [actSlog, ha, except_ok_bind, hb, except_ok_bind, if_neg two]
  exact congrArg (resolve s) (seam3_eq _ o false s x y z ha hb hc)

theorem wordForm_scmp (cond : SeamCond) : WordForm s (.scmp cond o) x y z [svec y, svec z] (decide (seamW x = 1)) :=
  congrArg (resolve s) (seam3_eq _ o true s x y z ha hb hc)

theorem wordForm_srow (op : SeamRow) : WordForm s (.srow op o) x y z [svec y, svec z]
    (decide (seamW x = 1) && decide (seamW y = 1) && decide (seamW z = 1)) := by
  show resolve s (actSrow op o s) = _
  rw [actSrow, ha, except_ok_bind, hb, except_ok_bind, hc, except_ok_bind]
  rfl

end

theorem seamMacros : Stated.SeamIssue := by
  intro s o sat pred cond lop rop x y ha hb
  refine ⟨fun dst fy by_ ready => ?_, fun unfit z hc i hi => ?_⟩
  · have source (v : Word) (fits : SeamFits s v false) (bank : seamBankField v = seamBankField x) :
        (svec v).ok s.me.bankCount false = true ∧ (svec v).bank = seamBankField x := ⟨svec_ok s v false fits, bank⟩
    have one : ∀ v ∈ [svec y], v.ok s.me.bankCount false = true ∧ v.bank = seamBankField x := by
      simpa using source y fy by_
    refine ⟨seamOp_queues _ s x y 0 _ _ (wordForm_scp s o x y ha hb pred) dst one rfl ready,
      seamOp_queues _ s x y 0 _ _ (wordForm_not s o x y ha hb) dst one rfl ready, fun z hc fz bz => ?_⟩
    have two : ∀ v ∈ [svec y, svec z], v.ok s.me.bankCount false = true ∧ v.bank = seamBankField x := by
      simpa using ⟨source y fy by_, source z fz bz⟩
    refine ⟨fun i hi => ?_, fun h => ?_, fun w => ?_, fun w => ?_, fun wx wy wz => ?_⟩
    · exact seamOp_queues i s x y z _ _ (wordForm_exact s o x y z ha hb hc sat i hi) dst two rfl ready
    · exact seamOp_queues _ s x y z _ _ (wordForm_slog s o x y z ha hb hc lop h) dst two rfl ready
    · exact seamOp_queues _ s x y z _ _ (wordForm_scmp s o x y z ha hb hc cond) dst two (decide_eq_true w) ready
    · exact seamOp_traps _ s x y z _ _ (wordForm_scmp s o x y z ha hb hc cond) (.inr (decide_eq_false w))
    · exact seamOp_queues _ s x y z _ _ (wordForm_srow s o x y z ha hb hc rop) dst two (by simp [wx, wy, wz]) ready
  · have exact_ := wordForm_exact s o x y z ha hb hc sat
    simp only [List.mem_cons, List.not_mem_nil, or_false] at hi exact_
    obtain hi | hi | hi | hi | rfl | rfl | rfl | rfl := hi
    · exact seamOp_traps i s x y z _ _ (exact_ i (.inl hi)) (.inl unfit)
    · exact seamOp_traps i s x y z _ _ (exact_ i (.inr (.inl hi))) (.inl unfit)
    · exact seamOp_traps i s x y z _ _ (exact_ i (.inr (.inr (.inl hi)))) (.inl unfit)
    · exact seamOp_traps i s x y z _ _ (exact_ i (.inr (.inr (.inr hi)))) (.inl unfit)
    · by_cases h : lop = .not
      · subst h
        exact seamOp_traps _ s x y 0 _ _ (wordForm_not s o x y ha hb) (.inl unfit)
      · exact seamOp_traps _ s x y z _ _ (wordForm_slog s o x y z ha hb hc lop h) (.inl unfit)
    · exact seamOp_traps _ s x y z _ _ (wordForm_scmp s o x y z ha hb hc cond) (.inl unfit)
    · exact seamOp_traps _ s x y z _ _ (wordForm_srow s o x y z ha hb hc rop) (.inl unfit)
    · exact seamOp_traps _ s x y 0 _ _ (wordForm_scp s o x y ha hb pred) (.inl unfit)

/-! ### spred, spop and swait (R320, R322, R362) -/

/-- A seam operation that the task queued before the bundle is what swait waits for. -/
theorem macrosLeft_none (s : State) (n : Nat)
    (h : ((s.myCore.bank n).queue.filter fun m => m.task = s.iss.task).length ≤ s.iss.fresh.count n) : s.macrosLeft n = false := by
  rw [List.count_eq_length_filter] at h
  exact decide_eq_false (not_lt.2 h)

/-- The bits of a mask of 32 banks. -/
theorem flag_low (x : Word) (k : Nat) (h : k < 32) : flag (x.toNat % 2 ^ 32) k = x.getLsbD k := by
  calc flag (x.toNat % 2 ^ 32) k = (x.toNat % 2 ^ 32).testBit k := by rw [Nat.testBit_eq_decide_div_mod_eq]; rfl
    _ = x.getLsbD k := by rw [Nat.testBit_mod_two_pow, decide_eq_true h, Bool.true_and, BitVec.getLsbD]

theorem seamScalars : Stated.SeamScalars := by
  intro s a inv r x ha
  refine ⟨fun fits one ready => ⟨?_, fun none => ?_⟩, fun v reply => ?_, fun none => ?_⟩
  · have room : s.bankRoom (s.bankNo (svec x)) = .ok () := bankRoom_ok s _ ready
    refine queues_pushed _ s _ x 0 0 (0, 0) false ?_
    show resolve s (actSpred a inv s) = _
    rw [actSpred, ha, except_ok_bind, svec_ok s x false fits, svec_one x one, room]
    rfl
  · have room : s.bankRoom (s.bankNo (svec x)) = .ok () := bankRoom_ok s _ ready
    refine ⟨s.macroOf (seamBank s x) (.spop r a) 0 x 0, ?_, rfl, rfl, rfl, rfl⟩
    show resolve s (actSpop r a s) = _
    simp only [actSpop, none, ha, except_ok_bind, svec_ok s x false fits, svec_one x one, room]
    rfl
  · refine ⟨_, ?_, resultC_resC _ r _⟩
    show resolve s (actSpop r a s) = _
    simp only [actSpop, reply]
    rfl
  · have all : ((List.range 32).all fun k => !((decide (x.toNat % 2 ^ 32 = 0) || flag (x.toNat % 2 ^ 32) k) && s.macrosLeft (s.me.bankBase + k))) = true := by
      refine List.all_eq_true.2 fun k hk => ?_
      have k_lt := List.mem_range.1 hk
      rw [flag_low x k k_lt, Bool.not_eq_true', Bool.and_eq_false_iff]
      by_cases named : x.toNat % 2 ^ 32 = 0 ∨ x.getLsbD k = true
      · exact .inr (macrosLeft_none s _ (none k k_lt named))
      · left
        simpa using named
    show resolve s (actSwait a s) = _
    rw [actSwait, ha, except_ok_bind]
    simp only [all]
    rfl

/-! ### sld and sst (R321) -/

section
variable (i : Instr) (s : State) (a b c : SSrc) (esz : Nat) (isLoad : Bool) (x o l : Word) (run : exec i s = resolve s (seamMem i a b c esz isLoad s))
  (ha : s.srcS a = .ok x) (hb : s.srcS b = .ok o) (hc : s.srcS c = .ok l)
include run ha hb hc

theorem seamMem_unfit (unfit : ¬ SeamFits s x isLoad) : Traps i s { code := 0x11, info := s.iss.word } := by
  refine run.trans ?_
  simp only [seamMem, ha, hb, hc, except_ok_bind, svec_unfit s x isLoad unfit]
  rfl

theorem seamMem_misaligned (fits : SeamFits s x isLoad) (off : o.toNat % 2 ^ esz ≠ 0) :
    Traps i s { code := 0x08, addr := 63 * 2 ^ 51 + o.toNat, write := !isLoad } := by
  refine run.trans ?_
  simp only [seamMem, ha, hb, hc, except_ok_bind, svec_ok s x isLoad fits, require_true, decide_eq_false off]
  rfl

theorem seamMem_outside (fits : SeamFits s x isLoad) (on : o.toNat % 2 ^ esz = 0)
    (out : (l ≠ 0 ∧ s.me.spadSize < o.toNat + l.toNat * 2 ^ esz) ∨ 1024 < l.toNat) : Traps i s { code := 0x11, info := s.iss.word } := by
  have refused : ((decide (l = 0) || decide (o.toNat + l.toNat * 2 ^ esz ≤ s.me.spadSize)) && decide (l.toNat ≤ 1024)) = false := by
    simp only [Bool.and_eq_false_iff, Bool.or_eq_false_iff, decide_eq_false_iff_not, not_le]
    exact out
  refine run.trans ?_
  simp only [seamMem, ha, hb, hc, except_ok_bind, svec_ok s x isLoad fits, require_true, decide_eq_true on, refused]
  rfl

theorem seamMem_queues (fits : SeamFits s x isLoad) (on : o.toNat % 2 ^ esz = 0) (inside : l = 0 ∨ o.toNat + l.toNat * 2 ^ esz ≤ s.me.spadSize)
    (count : l.toNat ≤ 1024) (ready : BankReady s (seamBank s x)) (entry : s.scoreboardUsed s.iss.die s.iss.core < 16) :
    Queues i s (seamBank s x) x o l (winAddr (s.modId s.iss.die) s.iss.die s.iss.core + s.me.spadBase + o.toNat, l.toNat * 2 ^ esz) (!isLoad) := by
  have accepted : ((decide (l = 0) || decide (o.toNat + l.toNat * 2 ^ esz ≤ s.me.spadSize)) && decide (l.toNat ≤ 1024)) = true := by
    simp only [Bool.and_eq_true, Bool.or_eq_true, decide_eq_true_eq]
    exact ⟨inside, count⟩
  have room : s.bankRoom (s.bankNo (svec x)) = .ok () := bankRoom_ok s _ ready
  refine queues_pushed i s _ x o l _ _ (run.trans ?_)
  simp only [seamMem, ha, hb, hc, except_ok_bind, svec_ok s x isLoad fits, require_true, decide_eq_true on, accepted, room, decide_eq_true entry]
  rfl

end

theorem seamTransfers : Stated.SeamTransfers := by
  intro s a b c esz sg x o l ha hb hc p hp e
  have run : exec p.1 s = resolve s (seamMem p.1 a b c esz.val p.2 s) := by
    simp only [List.mem_cons, List.not_mem_nil, or_false] at hp
    obtain rfl | rfl := hp <;> rfl
  exact ⟨fun fits on inside count ready entry => seamMem_queues p.1 s a b c esz.val p.2 x o l run ha hb hc fits on inside count ready entry,
    seamMem_unfit p.1 s a b c esz.val p.2 x o l run ha hb hc, seamMem_misaligned p.1 s a b c esz.val p.2 x o l run ha hb hc,
    seamMem_outside p.1 s a b c esz.val p.2 x o l run ha hb hc⟩

/-- Settles O29: one rule for a seam operation over operand words, one for the transfers, and the scalar forms. -/
theorem seamIssue : Obligations.SeamIssue := ⟨seamMacros, seamTransfers, seamScalars⟩

end Sys2Proof.Machine
end

section
/-! SUPPORT. Events of a core: units that complete, asynchronous traps, parks and waits that end (R96, R159, R160, R214, R256, R270, R316, R339,
R341, R344, R352). -/

set_option Elab.async false

namespace Sys2Proof.Machine

open Stated

/-! ### Units (R96, R214, R256, R270) -/

theorem unitsComplete : Stated.UnitsComplete := by
  intro s d c port v o n k busy past
  obtain ⟨i, task⟩ := Option.ne_none_iff_exists'.1 busy
  have done : (v.task.isSome && decide (v.doneAt ≤ s.clock)) = true := by rw [task, decide_eq_true past]; rfl
  refine ⟨fun h => ?_, fun h => ?_, fun h => ?_, fun h due => ?_⟩
  · refine congrArg Host.Outcome.next ?_
    rw [h, task]
    exact if_pos past
  · refine congrArg Host.Outcome.next ?_
    have held : smGet {} (s.core d c).fdiv port = v := by rw [smGet_eq_smFind, h]; rfl
    simp only [Bool.false_eq_true, if_false, held, done, if_true]
  · refine congrArg Host.Outcome.next ?_
    have held : smGet {} (s.core d c).idiv port = v := by rw [smGet_eq_smFind, h]; rfl
    simp only [if_true, held, done]
  · refine congrArg Host.Outcome.next ?_
    rw [h]
    exact if_pos due

/-! ### Events between bundles (R159, R160, R339, R341, R344) -/

theorem takesEvents_between (s : State) (d c i : Nat) (h : Between s d c i) : s.takesEvents d c = some i := by
  obtain ⟨issues, living, switched, free⟩ := h
  simp [State.takesEvents, issues, living, switched, free]

/-- The count of bundles at which a YIELD_LIMIT is pending (R159, log 87). -/
def yieldPending (s : State) (i : Nat) : Option Nat :=
  if (s.task i).yieldDue = none ∧ (s.die (s.task i).die).yieldLimit < (s.task i).live.yieldCount then some (s.task i).live.yieldCount
  else (s.task i).yieldDue

/-- The state in which that count is noted. -/
def yieldNoted (s : State) (i : Nat) : State :=
  if yieldPending s i = (s.task i).yieldDue then s else s.modTask i fun t => { t with yieldDue := yieldPending s i }

theorem noteYield_eq (s : State) (i : Nat) : s.noteYield i = yieldNoted s i := by
  unfold State.noteYield yieldNoted yieldPending
  by_cases past : (s.task i).yieldDue = none ∧ (s.die (s.task i).die).yieldLimit < (s.task i).live.yieldCount
  · simp only [past.1, past.2, Option.isNone_none, decide_true, Bool.and_self, if_true, and_self, reduceCtorEq, if_false]
    rfl
  · rw [if_neg past, if_pos rfl, if_neg]
    rwa [Bool.and_eq_true, decide_eq_true_eq, Option.isNone_iff_eq_none]

theorem task_yieldNoted (s : State) (i : Nat) : (yieldNoted s i).task i = { s.task i with yieldDue := yieldPending s i } := by
  unfold yieldNoted
  split
  next same => rw [same]
  next => exact State.task_setTask_same _ _ _

/-- What a task between bundles takes, highest first (R344, R362). -/
theorem takeAsync_eq (s : State) (i : Nat) : s.takeAsync i =
    match (s.task i).lateErr, (s.task i).softErr with
    | e :: l, _ => some (((yieldNoted s i).modTask i fun t => { t with lateErr := l }).parityError i e)
    | [], some n => some (eventTrap ((yieldNoted s i).modTask i fun t => { t with softErr := none }) i 0x19 n 0)
    | [], none =>
      if (s.task i).live.hnd then none
      else
        match (s.task i).abortTok with
        | some (step, org) => some (eventTrap ((yieldNoted s i).modTask i fun t => { t with abortTok := none }) i 0x18 step org)
        | none =>
          match (s.task i).stepMis with
          | some (step, org) => some (eventTrap ((yieldNoted s i).modTask i fun t => { t with stepMis := none }) i 0x1B step org)
          | none => (yieldPending s i).map fun n => eventTrap ((yieldNoted s i).modTask i fun t => { t with yieldDue := none }) i 0x17 n 0 := by
  unfold State.takeAsync State.takeYield
  simp only [noteYield_eq, task_yieldNoted] <;> rfl

theorem asyncEventTake_eq (s u : State) (d c i : Nat) (between : Between s d c i) (h : s.takeAsync i = some u) :
    exec (.asyncEventTake d c) s = .next u := by
  refine congrArg Host.Outcome.next ?_
  rw [takesEvents_between s d c i between]
  dsimp only
  rw [h]

theorem yieldLimit_eq (s : State) (d c i n : Nat) (between : Between s d c i) (soft : (s.task i).softErr = none) (late : (s.task i).lateErr = [])
    (handler : (s.task i).live.hnd = false) (abort : (s.task i).abortTok = none) (step : (s.task i).stepMis = none) (due : yieldPending s i = some n) :
    exec (.yieldLimit d c) s = .next (eventTrap ((yieldNoted s i).modTask i fun t => { t with yieldDue := none }) i 0x17 n 0) := by
  refine congrArg Host.Outcome.next ?_
  rw [takesEvents_between s d c i between]
  simp only [noteYield_eq, State.takeYield, task_yieldNoted, soft, late, handler, abort, step, due]
  rfl

theorem rollback_log (s : State) (i : Nat) : (s.rollback i).log = s.log :=
  foldl_keeps State.log (fun (u : State) (e : Nat × Row) =>
    { u with mem := memWrite u.mem (rowAddr (s.modId (s.task i).die) (s.task i).die (s.task i).core ((s.task i).rowBase + e.1)) 256 e.2.toNat })
    (fun _ _ => rfl) (s.task i).shadow s

theorem coreParityError_eq (s : State) (d c i : Nat) (e : SoftErr) (between : Between s d c i) :
    exec (.coreParityError d c e) s = .next (s.parityError i e) := by
  obtain ⟨issues, living, switched, free⟩ := between
  have taken : ((s.core d c).issuing.filter fun i => (s.task i).ending.isNone && decide ((s.core d c).switchDone ≤ s.clock)) = some i := by
    rw [issues]
    exact Option.filter_eq_some_iff.2 ⟨rfl, by simp [living, switched]⟩
  refine congrArg Host.Outcome.next ?_
  rw [taken]
  dsimp only
  rw [free, if_neg (by decide)]

theorem damage_mem (s : State) (i : Nat) (e : SoftErr) : (s.damage i e).mem = s.mem := by
  cases e <;> rfl

/-- The entry of an unrecovered error in the log (R341, R427). -/
def softErrorEntry (s : State) (i : Nat) (e : SoftErr) : LogEvent :=
  { code := 0x06, die := (s.task i).die, sev := 1, unit := (s.task i).core, launch := ((s.damage i e).launch (s.task i).launch).number,
    info := (s.task i).key.toNat }

theorem parityError_eq (s : State) (i : Nat) (e : SoftErr) (h : e ≠ .live) :
    s.parityError i e = ((s.damage i e).logEvent (softErrorEntry s i e)).modTask i fun t => { t with softErr := some (softCode e) } := by
  cases e
  case live => exact absurd rfl h
  all_goals rfl

/-- An error that the committed state cannot mend is kept for the task, with its number (R341, R346). -/
theorem parityError_unrecovered (s : State) (i : Nat) (e : SoftErr) (h : e ≠ .live) :
    ((s.parityError i e).task i).softErr = some (softCode e) ∧ (s.parityError i e).mem = s.mem := by
  rw [parityError_eq s i e h, State.task_modTask_same, State.modTask_mem, State.logEvent_mem, damage_mem]
  exact ⟨rfl, rfl⟩

theorem coreEventsTaken : Stated.CoreEventsTaken := by
  intro s d c i between t due v
  have take (u : State) := asyncEventTake_eq s u d c i between
  refine ⟨fun e l late => ?_, fun n late soft => ?_, fun late soft handler => ⟨fun x abort => ?_, fun x abort step => ?_, fun n abort step pending => ?_⟩,
    fun k since past => ?_, ?_, fun p hp => ?_⟩
  · exact take _ (by rw [takeAsync_eq, late]; rfl)
  · exact take _ (by rw [takeAsync_eq, late, soft]; rfl)
  · exact take _ (by rw [takeAsync_eq, late, soft, handler, abort]; rfl)
  · exact take _ (by rw [takeAsync_eq, late, soft, handler, abort, step]; rfl)
  · have noted : yieldPending s i = some n := pending
    exact ⟨take _ (by rw [takeAsync_eq, late, soft, handler, abort, step, noted]; rfl), yieldLimit_eq s d c i n between soft late handler abort step noted⟩
  · refine congrArg Host.Outcome.next ?_
    rw [takesEvents_between s d c i between]
    dsimp only
    rw [since]
    exact if_pos past
  · have counter : smGet 0 ((s.rollback i).countEvent 0x05 t.die).log.counters (64 * t.die + 4)
        = min (2 ^ 64 - 1) (smGet 0 s.log.counters (64 * t.die + 4) + 1) := by
      rw [← rollback_log s i]
      exact smGet_smPut_same _ _ _ _
    exact ⟨_, coreParityError_eq s d c i .live between, rfl, counter⟩
  · simp only [List.mem_cons, List.not_mem_nil, or_false] at hp
    obtain rfl | rfl | rfl | rfl := hp
    · exact ⟨_, coreParityError_eq s d c i _ between, parityError_unrecovered s i .duplicate (by decide)⟩
    · exact ⟨_, coreParityError_eq s d c i _ between, parityError_unrecovered s i .shadow (by decide)⟩
    · exact ⟨_, coreParityError_eq s d c i _ between, parityError_unrecovered s i .withheld (by decide)⟩
    · exact ⟨_, coreParityError_eq s d c i _ between, parityError_unrecovered s i .restore (by decide)⟩

/-! ### Waits that end (R316, R352, R362) -/

theorem waitsEnd : Stated.WaitsEnd := by
  intro s i
  refine ⟨fun x why issuing stalled reply reached => ?_, fun x rest scans free unblocked sound => ?_⟩
  · refine congrArg Host.Outcome.next ?_
    rw [why]
    exact if_pos ⟨issuing, Option.isSome_iff_ne_none.2 stalled, reply, reached⟩
  · have idle : (((viewOf x.desc).arrays.map x.h.span2).any fun r =>
        s.chunkWaits (s.task i).die r.1 r.2 false || s.outputOn (s.task i).die (s.task i).core r.1 r.2) = false := by
      rw [List.any_eq_false]
      intro r hr
      rw [(free r hr).1, (free r hr).2]
      decide
    refine congrArg Host.Outcome.next ?_
    simp only [scans, idle, unblocked, sound, Bool.or_false, Bool.false_eq_true, if_false]

end Sys2Proof.Machine

namespace Sys2Proof

/-- Settles O32: units, events between bundles in their order, and the waits that end. -/
theorem coreEvents : Obligations.CoreEvents := ⟨Machine.unitsComplete, Machine.coreEventsTaken, Machine.waitsEnd⟩

end Sys2Proof
end

section
/-! SUPPORT. Caches of a core and its die (R95, R97, R106), the translation of handles (R24, R87, R88, R91, R387 to R390), reads of handles,
prefetches and carve-out changes (R233 to R237). -/

set_option Elab.async false

namespace Sys2Proof.Machine

open Stated

/-! ### Changes of caches alone -/

theorem onlyCaches_refl (s : State) : OnlyCaches s s := ⟨rfl, fun _ _ => rfl, fun _ _ _ _ _ _ => rfl, fun _ => rfl⟩

theorem onlyCaches_iss {s t : State} (h : OnlyCaches s t) : t.iss = s.iss := by rw [h.1]

theorem onlyCaches_trans {s t u : State} (h : OnlyCaches s t) (k : OnlyCaches t u) : OnlyCaches s u := by
  have iss := onlyCaches_iss h
  obtain ⟨state, cores, others, dies⟩ := h
  obtain ⟨state', cores', others', dies'⟩ := k
  refine ⟨?_, fun d c => ?_, fun d c away dLt cLt me => ?_, fun d => ?_⟩
  · rw [state'.trans (by rw [state])]
  · exact (cores' d c).trans (by rw [cores d c])
  · exact (others' d c (iss ▸ away) dLt cLt (iss ▸ me)).trans (others d c away dLt cLt me)
  · exact (dies' d).trans (by rw [dies d])

/-- The core in issue keeps other lines in its carve-out. -/
theorem onlyCaches_carveOut (s : State) (f : Core → List (Nat × Nat)) :
    OnlyCaches s (s.modMyCore fun x => { x with cache := f x }) := by
  refine ⟨rfl, fun d c => ?_, fun d c away dLt cLt me => ?_, fun _ => rfl⟩
  · by_cases same : coreKey d c = coreKey s.iss.die s.iss.core
    · simp only [State.modMyCore, State.modCore, State.core, State.setCore, same, smGet_smPut_same]
    · rw [State.modMyCore, State.modCore, State.core_setCore_other _ _ _ _ _ _ same]
  · refine State.core_setCore_other _ _ _ _ _ _ ?_
    unfold coreKey
    omega

/-- The die in issue keeps other remote lines. -/
theorem onlyCaches_remote (s : State) (d : Nat) (f : Die → List (Nat × Nat)) : OnlyCaches s (s.modDie d fun x => { x with rdc := f x }) := by
  refine ⟨rfl, fun _ _ => rfl, fun _ _ _ _ _ _ => rfl, fun d' => ?_⟩
  by_cases same : d' = d
  · subst same
    rw [State.modDie, State.die_setDie_same]
  · rw [State.modDie, State.die_setDie_other _ _ _ _ same]

theorem onlyCaches_fetchLine (s : State) (line : Nat) (hint : Hint) (cache : Bool) (v : Nat) :
    OnlyCaches s (s.fetchLine s.iss.die s.iss.core line hint cache v) := by
  unfold State.fetchLine
  split
  next => exact onlyCaches_refl s
  extract_lets pick co fill far t u full
  have remote : OnlyCaches s t := by
    show OnlyCaches s (if far then _ else s)
    split
    next => exact onlyCaches_remote s _ fun x => cacheIn rdcLines pick x.rdc line v
    next => exact onlyCaches_refl s
  have near : OnlyCaches t u := by
    show OnlyCaches t (if fill then _ else t)
    split
    next =>
      rw [← onlyCaches_iss remote]
      exact onlyCaches_carveOut t fun x => cacheIn (carveLines co.carve) pick x.cache line v
    next => exact onlyCaches_refl t
  split
  next => exact onlyCaches_trans (onlyCaches_trans remote near) ⟨rfl, fun _ _ => rfl, fun _ _ _ _ _ _ => rfl, fun _ => rfl⟩
  next => exact onlyCaches_trans remote near

/-- Steps that change caches alone, one after the other. -/
theorem onlyCaches_foldl {α : Type} (f : State → α → State) (step : ∀ s x, OnlyCaches s (f s x)) (l : List α) (s : State) :
    OnlyCaches s (l.foldl f s) := by
  induction l generalizing s with
  | nil => exact onlyCaches_refl s
  | cons x l ih => exact onlyCaches_trans (step s x) (ih (f s x))

/-! ### Prefetches and carve-out changes (R95, R96, R236, R237) -/

theorem onlyCaches_prefetchLine (s : State) (h : Handle) (va : Nat) (hint : Hint) : OnlyCaches s (s.prefetchLine h va hint) := by
  simp only [State.prefetchLine]
  split
  next => exact onlyCaches_fetchLine s _ hint h.cache _
  next => exact onlyCaches_refl s

theorem prefetchAndPhase : Stated.PrefetchAndPhase := by
  intro s sz hint h x imm n
  refine ⟨⟨_, rfl, onlyCaches_foldl _ (fun s k => onlyCaches_prefetchLine s _ _ hint) _ s⟩, fun n4 fits idle => ?_, fun n4 fits busy => ?_, fun above => ?_⟩
  · refine ⟨if n.val < s.myCore.carve then s.myCore.cache.take (carveLines n.val) else s.myCore.cache, ?_⟩
    show resolve s (actPhase n s) = _
    rw [actPhase, decide_eq_true n4, decide_eq_true fits]
    simp only [Bool.and_self, require_true, except_ok_bind, idle, Option.isSome_none, Bool.false_eq_true, if_false, resolve_ok]
    rfl
  · show resolve s (actPhase n s) = _
    rw [actPhase, decide_eq_true n4, decide_eq_true fits]
    simp only [Bool.and_self, require_true, except_ok_bind, Option.isSome_iff_ne_none.2 busy, if_true]
    rfl
  · show resolve s (actPhase n s) = _
    rw [actPhase, decide_eq_false above.not_ge, Bool.and_false]
    rfl

/-! ### Reads and copies of handles (R234, R235) -/

/-- The status word of a handle, bit by bit (R234). -/
theorem handleWord_bits (h : Handle) : h.word = Nat.bit h.valid (Nat.bit h.pending (Nat.bit h.revoked (Nat.bit h.read (Nat.bit h.write
    (Nat.bit h.cache (Nat.bit h.checked (Nat.bit h.claim (Nat.bit h.tiled (Nat.bit h.pinned (Nat.bit h.pg2m h.seg.toNat)))))))))) := by
  have flag_ (b : Bool) : ofFlag b = b.toNat := by cases b <;> rfl
  simp only [Handle.word, Nat.bit_val, flag_]
  omega

theorem handleWord_lt (h : Handle) : h.word < 2 ^ 64 := by
  have seg := h.seg.isLt
  simp only [handleWord_bits, Nat.bit_val]
  have one (b : Bool) := Bool.toNat_le b
  have := one h.valid; have := one h.pending; have := one h.revoked; have := one h.read; have := one h.write; have := one h.cache
  have := one h.checked; have := one h.claim; have := one h.tiled; have := one h.pinned; have := one h.pg2m
  omega

theorem rdH_wrH (r : Regs) (n k : Fin 16) (v : Handle) : (r.wrH n v).rdH k = if k = n then v else r.rdH k := by
  by_cases same : k = n
  · rw [if_pos same, same, Regs.rdH_wrH_same]
  · rw [if_neg same, Regs.rdH_wrH_other _ _ _ _ same]

theorem handleResults : Stated.HandleResults := by
  intro s d h hd hs
  have word (n : Nat) (b : BitVec n) (lt : n ≤ 64) : BitVec.ofNat 64 b.toNat = b.zeroExtend 64 := by
    apply BitVec.eq_of_toNat_eq
    rw [BitVec.toNat_ofNat, BitVec.toNat_setWidth]
  refine ⟨⟨_, rfl, ?_⟩, ⟨_, rfl, ?_⟩, ⟨_, rfl, ?_⟩, ⟨_, BitVec.ofNat 64 (s.regH h).word, rfl, resultS_resS s d _ false, ?_⟩,
    ⟨_, rfl, onlyMe_modMe s _, ?_, fun k => ?_⟩, ⟨_, rfl, onlyMe_modMe s _, ?_, fun k => ?_⟩⟩
  · rw [← word 57 _ (by decide)]
    exact resultS_resS s d _ false
  · rw [← word 51 _ (by decide)]
    exact resultS_resS s d _ false
  · rw [← word 51 _ (by decide)]
    exact resultS_resS s d _ false
  · have bit (k : Nat) (lt : k < 64) : (BitVec.ofNat 64 (s.regH h).word).getLsbD k = (s.regH h).word.testBit k := by
      rw [BitVec.getLsbD_ofNat, decide_eq_true lt, Bool.true_and]
    have seg : (BitVec.ofNat 64 (s.regH h).word).toNat / 2 ^ 11 = (s.regH h).seg.toNat := by
      rw [BitVec.toNat_ofNat, Nat.mod_eq_of_lt (handleWord_lt _), ← Nat.shiftRight_eq_div_pow, handleWord_bits]
      simp only [Nat.shiftRight_succ, Nat.shiftRight_zero, Nat.bit_div_two]
    rw [seg]
    simp (disch := decide) only [bit]
    simp only [handleWord_bits, Nat.testBit_bit_zero, Nat.testBit_bit_succ, and_self]
  · rw [State.me_modLive]
    rfl
  · rw [State.me_modLive]
    exact rdH_wrH _ _ _ _
  · rw [State.me_modLive]
    rfl
  · rw [State.me_modLive]
    exact rdH_wrH _ _ _ _

/-! ### Translation (R24, R88, R91, R233, R387 to R390) -/

theorem vaSeg_eq (va : Nat) (h : va < 2 ^ 57) : vaSeg va = va / 2 ^ 51 := by
  simp only [vaSeg, field]
  omega

/-- The address that xlat translates (R233). -/
theorem xlatAddress (s : State) (d : Fin 32) (x : Fin 8) (imm : BitVec 14) :
    (s.regS d + s.regS (x.castLE (by omega)) + imm.signExtend 64).toNat
      = (((s.regS d).toNat + (s.regS (x.castLE (by decide))).toNat + imm.toInt) % 2 ^ 64).toNat := by
  have sum (a b : Word) : a + b + imm.signExtend 64 = BitVec.ofInt 64 (a.toNat + b.toNat + imm.toInt) := by
    rw [BitVec.ofInt_add, BitVec.ofInt_add, BitVec.ofInt_natCast, BitVec.ofInt_natCast, BitVec.ofNat_toNat, BitVec.setWidth_eq, BitVec.ofNat_toNat,
      BitVec.setWidth_eq]
    rfl
  rw [sum, BitVec.toNat_ofInt]
  rfl

section
variable (s : State) (ro : Bool) (d : Fin 32) (h : Fin 16) (x : Fin 8) (imm : BitVec 14) (va : Nat)
  (address : va = (((s.regS d).toNat + (s.regS (x.castLE (by decide))).toNat + imm.toInt) % 2 ^ 64).toNat)
include address

theorem exec_xlat : exec (.xlat ro d h x imm) s = resolve s (do
    let (hd, w) ← s.translate s.iss.task va ro
    .ok (match w with
      | some w => (s.modLive fun r => r.wrH h hd).applySide (.walk w)
      | none => s.modLive fun r => r.wrH h hd)) := by
  subst address
  rw [← xlatAddress s d x imm]
  rfl

theorem xlat_fills (hd : Handle) (run : s.translate s.iss.task va ro = .ok (hd, none)) :
    exec (.xlat ro d h x imm) s = .next (s.modLive fun r => r.wrH h hd) := by
  rw [exec_xlat s ro d h x imm va address, run]
  rfl

theorem xlat_traps (run : s.translate s.iss.task va ro = raiseAt .segmentViolation va) :
    Traps (.xlat ro d h x imm) s { code := 0x07, addr := va } := by
  rw [Traps, exec_xlat s ro d h x imm va address, run]
  rfl

end

theorem translate_above (s : State) (va : Nat) (ro : Bool) (above : 2 ^ 57 ≤ va) :
    s.translate s.iss.task va ro = raiseAt .segmentViolation va := if_pos above

/-- The local segment: the part that the offset lies in, if any (R88). -/
theorem translate_local (s : State) (va : Nat) (ro : Bool) (below : va < 2 ^ 57) (seg : va / 2 ^ 51 = 63) : s.translate s.iss.task va ro =
    match s.localPart s.iss.task (va % 2 ^ 51) with
    | none => raiseAt .segmentViolation va
    | some (lo, n, base) => .ok ((Seg.attrs { read := true, write := true, pinned := true } va ro).place (va % 2 ^ 51) base lo n, none) := by
  simp only [State.translate, vaSeg_eq va below, seg, below.not_ge, if_false, if_true] <;> rfl

/-- Translation through a segment g of the table: its own tests, and then its base or its pages (R86, R91, R387). -/
def segmentTranslation (s : State) (g : Seg) (va : Nat) (ro : Bool) : Except Stop (Handle × Option Walk) :=
  if !g.valid || decide (g.len64k * 65536 ≤ va % 2 ^ 51) then raiseAt .segmentViolation va
  else if (s.die s.me.die).domSize ≤ g.homeMod then raiseAt .segmentViolation va
  else if g.pinned then
    if s.inDomain s.me.die g.base then .ok ((g.attrs va ro).place (va % 2 ^ 51) g.base 0 (g.len64k * 65536), none)
    else raiseAt .segmentViolation va
  else
    match s.tlbFind s.me.die s.me.launch (va / 2 ^ 51) (va % 2 ^ 51) with
    | some (big, w) =>
      if s.inDomain s.me.die w then .ok (s.fillHandle s.iss.task (g.attrs va ro) (leafFrame w) big (flag w 3), none)
      else raiseAt .segmentViolation va
    | none => .ok ({ g.attrs va ro with pending := true },
        some { die := s.me.die, launch := s.me.launch, seg := va / 2 ^ 51, off := va % 2 ^ 51 / 65536 * 65536 })

theorem translate_segment (s : State) (va : Nat) (ro : Bool) (seg : va / 2 ^ 51 < 63) :
    s.translate s.iss.task va ro = segmentTranslation s (s.myLaunch.seg (va / 2 ^ 51)) va ro := by
  have below : va < 2 ^ 57 := by omega
  simp only [State.translate, vaSeg_eq va below, below.not_ge, seg.ne, if_false]
  rfl

section
variable (s : State) (g : Seg) (va : Nat) (ro : Bool)

theorem segmentTranslation_refused
    (h : g.valid = false ∨ g.len64k * 65536 ≤ va % 2 ^ 51 ∨ (s.die s.me.die).domSize ≤ g.homeMod
      ∨ (g.pinned = true ∧ (s.die s.me.die).domSize ≤ paModule g.base)) : segmentTranslation s g va ro = raiseAt .segmentViolation va := by
  unfold segmentTranslation
  split
  next => rfl
  next inside =>
    split
    next => rfl
    next home =>
      simp only [Bool.or_eq_true, Bool.not_eq_true', decide_eq_true_eq] at inside
      obtain ⟨pinned, far⟩ : g.pinned = true ∧ (s.die s.me.die).domSize ≤ paModule g.base := by tauto
      rw [if_pos pinned, State.inDomain, decide_eq_false far.not_gt]
      rfl

variable (valid : g.valid = true) (inside : va % 2 ^ 51 < g.len64k * 65536) (home : g.homeMod < (s.die s.me.die).domSize)
include valid inside home

theorem segmentTranslation_pinned (pinned : g.pinned = true) (near : paModule g.base < (s.die s.me.die).domSize) :
    segmentTranslation s g va ro = .ok ((g.attrs va ro).place (va % 2 ^ 51) g.base 0 (g.len64k * 65536), none) := by
  simp only [segmentTranslation, valid, decide_eq_false inside.not_ge, home.not_ge, pinned, State.inDomain, decide_eq_true near]
  rfl

variable (pageable : g.pinned = false)
include pageable

theorem segmentTranslation_hit (big : Bool) (w : Nat) (hit : s.tlbFind s.me.die s.me.launch (va / 2 ^ 51) (va % 2 ^ 51) = some (big, w)) :
    segmentTranslation s g va ro = if paModule w < (s.die s.me.die).domSize
      then .ok (s.fillHandle s.iss.task (g.attrs va ro) (leafFrame w) big (flag w 3), none) else raiseAt .segmentViolation va := by
  simp only [segmentTranslation, valid, decide_eq_false inside.not_ge, home.not_ge, pageable, hit, State.inDomain, decide_eq_true_eq]
  rfl

theorem segmentTranslation_miss (miss : s.tlbFind s.me.die s.me.launch (va / 2 ^ 51) (va % 2 ^ 51) = none) :
    segmentTranslation s g va ro = .ok ({ g.attrs va ro with pending := true },
      some { die := s.me.die, launch := s.me.launch, seg := va / 2 ^ 51, off := va % 2 ^ 51 / 65536 * 65536 }) := by
  simp only [segmentTranslation, valid, decide_eq_false inside.not_ge, home.not_ge, pageable, miss]
  rfl

end

/-- The parts of the local segment: first offset, length and place in the window (R88). -/
def localParts (t : Task) : List (Nat × Nat × Nat) :=
  [(0, t.spadSize, t.spadBase), (0xC00000, t.bankCount * 0x20000, 0xC00000 + t.bankBase * 0x20000),
    (0x1000000, t.rowCount * 256, 0x1000000 + t.rowBase * 256)]

theorem localPart_scratchpad (s : State) (off : Nat) (h : off < s.me.spadSize) : s.localPart s.iss.task off
    = some (0, s.me.spadSize, winAddr (s.modId s.me.die) s.me.die s.me.core + s.me.spadBase) := if_pos h

/-- Parts that do not meet: the one that holds an offset is its part. -/
theorem localPart_some (s : State) (off : Nat) (spad : s.me.spadSize ≤ 0xC00000) (banks : s.me.bankCount ≤ 32) (p : Nat × Nat × Nat)
    (hp : p ∈ localParts s.me) (from_ : p.1 ≤ off) (to_ : off < p.1 + p.2.1) :
    s.localPart s.iss.task off = some (p.1, p.2.1, winAddr (s.modId s.me.die) s.me.die s.me.core + p.2.2) := by
  simp only [localParts, List.mem_cons, List.not_mem_nil, or_false] at hp
  obtain rfl | rfl | rfl := hp
  · exact localPart_scratchpad s off (by simpa using to_)
  · refine (if_neg (not_lt.2 (spad.trans from_))).trans ((if_pos ⟨from_, to_⟩).trans ?_)
    rw [Nat.add_assoc]
    rfl
  · have above : ¬ (off < s.me.spadSize) := by omega
    have past : ¬ (0xC00000 ≤ off ∧ off < 0xC00000 + s.me.bankCount * 0x20000) := by omega
    refine (if_neg above).trans ((if_neg past).trans ((if_pos ⟨from_, to_⟩).trans ?_))
    rw [Nat.add_assoc]
    rfl

theorem localPart_none (s : State) (off : Nat) (h : ∀ p ∈ localParts s.me, ¬ (p.1 ≤ off ∧ off < p.1 + p.2.1)) : s.localPart s.iss.task off = none := by
  simp only [localParts, List.forall_mem_cons, List.not_mem_nil, false_implies, implies_true, and_true, Nat.zero_le, true_and, Nat.zero_add] at h
  obtain ⟨spad, banks, rows⟩ := h
  exact (if_neg spad).trans ((if_neg banks).trans (if_neg rows))

/-- The handle of a part of the local segment (R24, R88). -/
theorem localHandle (s : State) (va : Nat) (ro : Bool) (below : va < 2 ^ 57) (seg : va / 2 ^ 51 = 63) (lo n base : Nat)
    (part : s.localPart s.iss.task (va % 2 ^ 51) = some (lo, n, base)) :
    ∃ hd : Handle, s.translate s.iss.task va ro = .ok (hd, none) ∧ hd.valid = true ∧ hd.va.toNat = va ∧ hd.read = true ∧ hd.write = (!ro)
      ∧ hd.claim = false ∧ hd.checked = false ∧ hd.pa = BitVec.ofNat 52 (base + (va % 2 ^ 51 - lo)) ∧ hd.lo = BitVec.ofNat 51 lo
      ∧ hd.last = BitVec.ofNat 51 (lo + n - 1) := by
  refine ⟨(Seg.attrs { read := true, write := true, pinned := true } va ro).place (va % 2 ^ 51) base lo n, ?_, rfl,
    (BitVec.toNat_ofNat va 57).trans (Nat.mod_eq_of_lt below), rfl, rfl, rfl, rfl, rfl, rfl, rfl⟩
  rw [translate_local s va ro below seg, part]

theorem translateHandle : Stated.TranslateHandle := by
  intro s ro d h x imm va address seg off g
  have fills := xlat_fills s ro d h x imm va address
  have traps := xlat_traps s ro d h x imm va address
  have vaLt (below : va < 2 ^ 57) : (BitVec.ofNat 57 va).toNat = va := BitVec.toNat_ofNat va 57 ▸ Nat.mod_eq_of_lt below
  refine ⟨fun refused => ?_, fun below valid inside home pinned near => ?_, fun segLocal below inside => ?_, fun segLocal below spad banks => ⟨fun p hp from_ to_ => ?_, fun apart => ?_⟩⟩
  · obtain above | ⟨below, refused⟩ := refused
    · exact traps (translate_above s va ro above)
    · exact traps ((translate_segment s va ro below).trans (segmentTranslation_refused s g va ro refused))
  · have lt : va < 2 ^ 57 := by omega
    refine ⟨_, fills _ ((translate_segment s va ro below).trans (segmentTranslation_pinned s g va ro valid inside home pinned near)), rfl, rfl, rfl, vaLt lt, ?_,
      pinned, rfl, rfl, ?_, rfl, rfl, rfl, rfl, rfl⟩
    · show (BitVec.ofNat 6 (vaSeg va)).toNat = seg
      rw [vaSeg_eq va lt, BitVec.toNat_ofNat, Nat.mod_eq_of_lt (by omega)]
    · show BitVec.ofNat 51 (0 + g.len64k * 65536 - 1) = _
      rw [Nat.zero_add]
  · obtain ⟨hd, run, valid, addr, rd, wr, claim, checked, pa, lo, last⟩ :=
      localHandle s va ro below segLocal 0 _ _ (localPart_scratchpad s off inside)
    exact ⟨hd, fills hd run, valid, addr, rd, wr, claim, checked, pa, lo, by rw [last, Nat.zero_add]⟩
  · obtain ⟨hd, run, fields⟩ := localHandle s va ro below segLocal _ _ _ (localPart_some s off spad banks p hp from_ to_)
    exact ⟨hd, fills hd run, fields⟩
  · refine traps ((translate_local s va ro below segLocal).trans ?_)
    rw [localPart_none s off apart]

/-! ### Leaves and tiles (R87, R389, R390) -/

/-- The start of a page or tile within a larger one, and the way to an offset from there. -/
theorem part_of_part (off m n : Nat) (h : m ∣ n) : off / m * m - off / n * n + (off - off / m * m) = off % n := by
  obtain ⟨k, rfl⟩ := h
  have below : off / (m * k) * (m * k) ≤ off / m * m := by
    rw [← Nat.div_div_eq_div_mul, Nat.mul_comm m k, ← Nat.mul_assoc]
    exact Nat.mul_le_mul_right m (Nat.div_mul_le_self _ _)
  have inner := Nat.div_mul_le_self off m
  have whole := Nat.div_add_mod' off (m * k)
  omega

/-- Of two powers of two the smaller divides the larger. -/
theorem two_pow_dvd_of_le {a b : Nat} (h : 2 ^ a ≤ 2 ^ b) : 2 ^ a ∣ 2 ^ b := Nat.pow_dvd_pow 2 ((Nat.pow_le_pow_iff_right (by decide)).1 h)

theorem pageBytes_eq (big : Bool) : (if big then 2 ^ 21 else 2 ^ 16 : Nat) = 2 ^ (if big then 21 else 16) := by cases big <;> rfl

/-- A handle filled from a leaf covers the page, or the tile where one is smaller or bound to the task; a bound tile's version is what it reaches. -/
theorem fillHandle_place (s : State) (i : Nat) (h : Handle) (frame : Nat) (big ro : Bool) :
    let off := h.va.toNat % 2 ^ 51
    let g := (s.launch (s.task i).launch).seg h.seg.toNat
    let page := if big then 2 ^ 21 else 2 ^ 16
    let tile := 2 ^ g.tileLog
    let bound := if g.tiled then s.boundTile i h.seg.toNat off else none
    let n := if bound.isSome || (g.tiled && decide (tile < page)) then min page tile else page
    ∃ base, s.fillHandle i h frame big ro = ({ h with pg2m := big, write := h.write && !ro }).place off base (off / n * n) n
      ∧ base + (off - off / n * n) = match bound with
        | some f => f + off % tile
        | none => frame + off % page := by
  intro off g page tile bound n
  have pagePow : page = 2 ^ (if big then 21 else 16) := pageBytes_eq big
  have whole (m : Nat) : off - off / m * m = off % m := by have := Nat.div_add_mod' off m; omega
  have fill : s.fillHandle i h frame big ro = match bound with
      | some f => ({ h with pg2m := big, write := h.write && !ro }).place off (f + (off / min page tile * min page tile - off / tile * tile))
          (off / min page tile * min page tile) (min page tile)
      | none =>
        if g.tiled && decide (tile < page) then
          ({ h with pg2m := big, write := h.write && !ro }).place off (frame + (off / tile * tile - off / page * page)) (off / tile * tile) tile
        else ({ h with pg2m := big, write := h.write && !ro }).place off frame (off / page * page) page := rfl
  rw [fill]
  clear_value bound
  cases bound with
  | some f =>
    have divides : min page tile ∣ tile := by
      obtain le | le := le_total page tile
      · rw [min_eq_left le]
        rw [pagePow] at le ⊢
        exact two_pow_dvd_of_le le
      · rw [min_eq_right le]
    refine ⟨_, rfl, ?_⟩
    show f + (off / min page tile * min page tile - off / tile * tile) + (off - off / min page tile * min page tile) = f + off % tile
    rw [Nat.add_assoc, part_of_part off _ _ divides]
  | none =>
    by_cases small : (g.tiled && decide (tile < page)) = true
    · have n_eq : n = tile := by
        have lt : tile < page := by
          rw [Bool.and_eq_true, decide_eq_true_eq] at small
          exact small.2
        show (if _ then _ else _) = tile
        rw [small, Bool.or_true, if_pos rfl, min_eq_right lt.le]
      have divides : tile ∣ page := by
        rw [Bool.and_eq_true, decide_eq_true_eq] at small
        have le := small.2.le
        rw [pagePow] at le ⊢
        exact two_pow_dvd_of_le le
      rw [n_eq]
      refine ⟨frame + (off / tile * tile - off / page * page), if_pos small, ?_⟩
      show frame + (off / tile * tile - off / page * page) + (off - off / tile * tile) = frame + off % page
      rw [Nat.add_assoc, part_of_part off _ _ divides]
    · have n_eq : n = page := by
        show (if _ then _ else _) = page
        rw [Bool.not_eq_true] at small
        rw [small]
        rfl
      rw [n_eq]
      refine ⟨frame, if_neg small, ?_⟩
      show frame + (off - off / page * page) = frame + off % page
      rw [whole]

theorem translateHit : Stated.TranslateHit := by
  intro s ro d h x imm va big w address seg off g page tile bound n lo below valid inside home pageable hit
  have lt : va < 2 ^ 57 := by omega
  have run := (translate_segment s va ro below).trans (segmentTranslation_hit s g va ro valid inside home pageable big w hit)
  have attrsVa : (g.attrs va ro).va.toNat = va := (BitVec.toNat_ofNat va 57).trans (Nat.mod_eq_of_lt lt)
  have attrsSeg : (g.attrs va ro).seg.toNat = seg := by
    show (BitVec.ofNat 6 (vaSeg va)).toNat = seg
    rw [vaSeg_eq va lt, BitVec.toNat_ofNat, Nat.mod_eq_of_lt (by omega)]
  refine ⟨fun far => ?_, fun near => ?_⟩
  · exact xlat_traps s ro d h x imm va address (run.trans (if_neg far.not_gt))
  · obtain ⟨base, fill, reach⟩ := fillHandle_place s s.iss.task (g.attrs va ro) (leafFrame w) big (flag w 3)
    rw [attrsVa, attrsSeg] at fill reach
    refine ⟨_, xlat_fills s ro d h x imm va address _ (run.trans (if_pos near)), ?_⟩
    rw [fill]
    have readOnly : flag w 3 = w.testBit 3 := by
      rw [Nat.testBit_eq_decide_div_mod_eq]
      rfl
    have address52 (b : Option Nat) (y z : Nat) : BitVec.ofNat 52 (match b with | some f => f + y | none => z)
        = match b with | some f => BitVec.ofNat 52 (f + y) | none => BitVec.ofNat 52 z := by cases b <;> rfl
    exact ⟨rfl, rfl, rfl, attrsVa, attrsSeg, pageable, rfl, rfl, rfl, rfl, (congrArg (BitVec.ofNat 52) reach).trans (address52 bound _ _), rfl,
      by rw [← readOnly]; rfl, rfl, rfl, rfl⟩

theorem translateMiss : Stated.TranslateMiss := by
  intro s ro d h x imm va address seg off g below valid inside home pageable miss fresh w
  have lt : va < 2 ^ 57 := by omega
  have run := (translate_segment s va ro below).trans (segmentTranslation_miss s g va ro valid inside home pageable miss)
  refine ⟨{ g.attrs va ro with pending := true }, ?_, rfl, rfl, (BitVec.toNat_ofNat va 57).trans (Nat.mod_eq_of_lt lt)⟩
  rw [exec_xlat s ro d h x imm va address, run]
  exact congrArg Host.Outcome.next (if_neg (by rw [← Bool.not_eq_true] at fresh; exact fresh))

/-- Settles O19: each way that a translation ends, the reads of a handle, prefetches and carve-out changes. -/
theorem handleInstructions : Obligations.HandleInstructions :=
  ⟨translateHandle, translateHit, translateMiss, handleResults, prefetchAndPhase⟩

end Sys2Proof.Machine
end

section
/-! SUPPORT. Bytes of numbers and of memory, stores of a core that are performed at once (R105, R122, R136, R255), and claim operations (R119, R244 to
R247). -/

set_option Elab.async false

namespace Sys2Proof.Machine

open Stated

/-! ### Bytes of numbers (R7) -/

theorem byteAt_toNat (v k : Nat) : (byteAt v k).toNat = v / 2 ^ (8 * k) % 256 := BitVec.toNat_ofNat _ _

/-- Numbers of n bytes with the same bytes are the same. -/
theorem eq_of_byteAt (n x y : Nat) (hx : x < 2 ^ (8 * n)) (hy : y < 2 ^ (8 * n)) (same : ∀ k < n, byteAt x k = byteAt y k) : x = y := by
  induction n generalizing x y with
  | zero => simp_all
  | succ n ih =>
    have pow : (2 : Nat) ^ (8 * (n + 1)) = 256 * 2 ^ (8 * n) := by rw [Nat.mul_succ, Nat.add_comm, pow_add]; rfl
    have low : x % 256 = y % 256 := by
      have := congrArg BitVec.toNat (same 0 n.succ_pos)
      simpa [byteAt] using this
    have step (v k : Nat) : byteAt (v / 256) k = byteAt v (k + 1) := by
      rw [byteAt, byteAt, Nat.mul_succ, Nat.add_comm, pow_add, ← Nat.div_div_eq_div_mul]
      rfl
    have high : x / 256 = y / 256 := ih _ _ (Nat.div_lt_of_lt_mul (pow ▸ hx)) (Nat.div_lt_of_lt_mul (pow ▸ hy))
      fun k hk => by rw [step, step, same (k + 1) (by omega)]
    omega

theorem byteAt_mod (v n k : Nat) (hk : k < n) : byteAt (v % 2 ^ (8 * n)) k = byteAt v k := by
  apply BitVec.eq_of_toNat_eq
  rw [byteAt_toNat, byteAt_toNat]
  obtain ⟨d, rfl⟩ : ∃ d, n = k + 1 + d := ⟨n - (k + 1), by omega⟩
  have pow : (2 : Nat) ^ (8 * (k + 1 + d)) = 2 ^ (8 * k) * (256 * 2 ^ (8 * d)) := by
    rw [show 8 * (k + 1 + d) = 8 * k + (8 + 8 * d) by ring, pow_add, pow_add]; rfl
  rw [pow, Nat.mod_mul_right_div_self, Nat.mod_mul_right_mod]

theorem byteAt_shift (v a k : Nat) : byteAt (v / 2 ^ (8 * a)) k = byteAt v (a + k) := by
  rw [byteAt, byteAt, Nat.div_div_eq_div_mul, ← pow_add, Nat.mul_add]

/-! ### Reads of memory (R7) -/

theorem memRead_lt (m : Mem) (hm : Mem.wf m = true) (a n : Nat) : memRead m a n < 2 ^ (8 * n) := by
  induction n generalizing a with
  | zero =>
    rw [memRead_sum, List.sum_eq_zero]
    · exact Nat.one_pos
    · intro x hx
      obtain ⟨c, -, rfl⟩ := List.mem_map.1 hx
      exact if_neg (by omega)
  | succ n ih =>
    rw [memRead_succ m a n hm, Nat.mul_succ, pow_add]
    have := ih (a + 1)
    have := (memByte m a).isLt
    omega

/-- A read of bytes that a write has put there. -/
theorem memRead_memWrite_within (m : Mem) (a n v b k : Nat) (lo : a ≤ b) (hi : b + k ≤ a + n) :
    memRead (memWrite m a n v) b k = v / 2 ^ (8 * (b - a)) % 2 ^ (8 * k) := by
  have clean : memRead (memWrite m a n v) b k = memRead (memWrite [] a n v) b k := by
    have none_ (l : Mem) (h : ∀ c ∈ l, ¬ (b ≤ c.1 ∧ c.1 < b + k)) :
        (l.map fun c => if b ≤ c.1 ∧ c.1 < b + k then c.2.toNat * 2 ^ (8 * (c.1 - b)) else 0).sum = 0 := by
      refine List.sum_eq_zero fun x hx => ?_
      obtain ⟨c, hc, rfl⟩ := List.mem_map.1 hx
      exact if_neg (h c hc)
    simp only [memRead_sum, memWrite, List.map_append, List.sum_append, List.filter_nil, List.map_nil, List.sum_nil]
    rw [none_ (m.filter fun c => c.1 < a), none_ (m.filter fun c => a + n ≤ c.1)]
    · intro c hc
      have := of_decide_eq_true (List.mem_filter.1 hc).2
      omega
    · intro c hc
      have := of_decide_eq_true (List.mem_filter.1 hc).2
      omega
  have wf : Mem.wf (memWrite [] a n v) = true := wf_memWrite [] a n v rfl
  rw [clean]
  refine eq_of_byteAt k _ _ (memRead_lt _ wf b k) (Nat.mod_lt _ (Nat.two_pow_pos _)) fun j hj => ?_
  rw [byteAt_memRead _ wf b k j hj, memByte_memWrite, if_pos (by omega), byteAt_mod _ k j hj, byteAt_shift]
  congr 1
  omega

/-! ### Stores that are performed at once (R105, R122, R136, R255) -/

/-- A store from another party changes of a task its saved rows alone. -/
theorem putOutside_task (s : State) (pa n v i : Nat) : (s.putOutside pa n v).task i
    = { s.task i with shadow := ((s.putOutside pa n v).task i).shadow, shadowBad := ((s.putOutside pa n v).task i).shadowBad } := by
  have keeps : (fun t : Task => { t with shadow := [], shadowBad := [] }) ((s.putOutside pa n v).task i)
      = (fun t : Task => { t with shadow := [], shadowBad := [] }) (s.task i) := by
    unfold State.putOutside
    extract_lets u
    split
    next => exact smGet_mapKey_keeps (fun t : Task => { t with shadow := [], shadowBad := [] }) (fun _ t => shadowPut t u pa n v) (fun _ _ => rfl) {} u.tasks i
    next => rfl
  exact congrArg (fun t : Task => { t with shadow := ((s.putOutside pa n v).task i).shadow, shadowBad := ((s.putOutside pa n v).task i).shadowBad }) keeps

theorem putOutside_frame (s : State) (pa n v : Nat) : s.putOutside pa n v = { s with
    tasks := (s.putOutside pa n v).tasks, mem := memWrite s.mem pa n v, poison := (s.putOutside pa n v).poison, dirty := (s.putOutside pa n v).dirty } := by
  unfold State.putOutside
  extract_lets u
  split <;> rfl

/-- A core after a change of a core: the numbers of the two decide. -/
theorem core_modCore_key (s : State) (d c d' c' : Nat) (f : Core → Core) :
    (s.modCore d c f).core d' c' = if coreKey d' c' = coreKey d c then f (s.core d' c') else s.core d' c' := by
  by_cases same : coreKey d' c' = coreKey d c
  · rw [if_pos same, State.core, State.core, same]
    exact smGet_smPut_same _ _ _ _
  · rw [if_neg same]
    exact State.core_setCore_other _ _ _ _ _ _ same

/-- A core whose copies of lines change keeps all else, and so does its die. -/
theorem storeLeaves_core (s : State) (st : Store) (d c : Nat) :
    (s.storeLeaves st).core d c = { s.core d c with cache := ((s.storeLeaves st).core d c).cache } := by
  rw [State.storeLeaves, State.core_modDie, core_modCore_key]
  split <;> rfl

theorem storeLeaves_die (s : State) (st : Store) (d : Nat) : (s.storeLeaves st).die d = { s.die d with rdc := ((s.storeLeaves st).die d).rdc } := by
  by_cases same : d = st.die
  · subst same
    simp only [State.storeLeaves, State.modDie, State.die_setDie_same]
    rfl
  · rw [State.storeLeaves, State.modDie, State.die_setDie_other _ _ _ _ same]
    rfl

theorem putOwn_task (s : State) (pa n v i : Nat) : (s.putOwn pa n v).task i
    = { s.task i with shadow := ((s.putOwn pa n v).task i).shadow, shadowBad := ((s.putOwn pa n v).task i).shadowBad } := putOutside_task _ pa n v i

theorem putOwn_mem (s : State) (pa n v : Nat) : (s.putOwn pa n v).mem = memWrite s.mem pa n v := putOutside_mem _ pa n v

theorem putOwn_iss (s : State) (pa n v : Nat) : (s.putOwn pa n v).iss = s.iss := by
  rw [State.putOwn, putOutside_frame]
  rfl

theorem putOwn_tag (s : State) (pa n v l : Nat) : (s.putOwn pa n v).tag l = s.tag l := by
  rw [State.putOwn, putOutside_frame]
  rfl

/-- A store of the issuing core, performed at its home. -/
theorem memoryWritten_putOwn (s : State) (pa n v : Nat) : MemoryWritten s (s.putOwn pa n v) pa n v := by
  have frame := putOutside_frame (s.storeLeaves { pa := pa, len := n, data := v, die := s.iss.die, core := s.iss.core }) pa n v
  refine ⟨fun a => ?_, ?_, fun d c => ?_, fun d => ?_, fun i _ => putOwn_task s pa n v i⟩
  · rw [putOwn_mem]
    exact memByte_memWrite _ _ _ _ _
  · rw [State.putOwn, frame]
    rfl
  · rw [State.putOwn, frame]
    exact storeLeaves_core s _ d c
  · rw [State.putOwn, frame]
    exact storeLeaves_die s _ d

theorem putOwn_kept (s : State) (pa n v : Nat) : (s.putOwn pa n v).me.live = s.me.live ∧ (s.putOwn pa n v).me.latches = s.me.latches := by
  have task := putOwn_task s pa n v s.iss.task
  rw [State.me, putOwn_iss, task]
  exact ⟨rfl, rfl⟩

/-! ### Tags and claim entries (R115, R119, R172) -/

theorem smGet_smErase {α : Type} (d : α) (m : SMap α) (k j : Nat) : smGet d (smErase m k) j = if j = k then d else smGet d m j := by
  induction m with
  | nil => simp [smErase, smGet]
  | cons e m ih =>
    obtain ⟨k', v⟩ := e
    simp only [smErase, List.filter_cons, smGet] at ih ⊢
    by_cases gone : k' = k
    · subst gone
      simp only [ne_eq, not_true_eq_false, decide_false, Bool.false_eq_true, if_false, ih]
      split
      next => rfl
      next other => rw [if_neg (Ne.symm other)]
    · simp only [ne_eq, gone, not_false_eq_true, decide_true, if_true, smGet, ih]
      split
      next here => rw [if_neg (here ▸ gone)]
      next => rfl

theorem tag_setTag (s : State) (pa l : Nat) (t : Tag) : (s.setTag pa t).tag l = if lineOf l = lineOf pa then t else s.tag l := by
  by_cases value : t = .value
  · subst value
    simp only [State.tag, State.setTag, if_true, smGet_smErase]
  · simp only [State.tag, State.setTag, if_neg value]
    by_cases same : lineOf l = lineOf pa
    · rw [if_pos same, same, smGet_smPut_same]
    · rw [if_neg same, smGet_smPut_other _ _ _ _ _ same]

theorem relevel_task (s : State) (e : ClaimEntry) (i : Nat) : (s.relevel e).task i = { s.task i with level := ((s.relevel e).task i).level } := by
  by_cases same : i = e.evaluator
  · subst same
    rw [State.relevel, State.task_modTask_same]
  · rw [State.relevel, State.task_modTask_other _ _ _ _ same]

/-- Freeing an entry changes of a task its level alone. -/
theorem freeClaim_task (s : State) (cell i : Nat) : (s.freeClaim cell).task i = { s.task i with level := ((s.freeClaim cell).task i).level } := by
  unfold State.freeClaim
  split
  next e _ => exact relevel_task s _ i
  next => rfl

theorem freeClaim_frame (s : State) (cell : Nat) : s.freeClaim cell = { s with tasks := (s.freeClaim cell).tasks, dies := (s.freeClaim cell).dies } := by
  unfold State.freeClaim
  split <;> rfl

/-- The entry of a cell is gone once it is freed. -/
theorem claimEntry_freeClaim (s : State) (cell : Nat) : (s.freeClaim cell).claimEntry cell = none := by
  have filtered (l : List ClaimEntry) : (l.filter fun e => e.cell ≠ cell).find? (fun e => e.cell = cell) = none := by
    rw [List.find?_eq_none]
    intro e he
    simpa using (List.mem_filter.1 he).2
  unfold State.freeClaim State.claimEntry
  rw [State.modDie, State.die_setDie_same]
  exact filtered _

/-! ### Registers in a run (R199) -/

theorem regRun_length (s : State) (a : Fin 32) (n : Nat) : (s.regRun a n).length = n := by simp [State.regRun]

/-- Lane k of the number that a run of registers makes. -/
theorem ofLanes_regRun (s : State) (a : Fin 32) (n k : Nat) (hk : k < n) :
    ofLanes 64 ((s.regRun a n).map (·.toNat)) / 2 ^ (64 * k) % 2 ^ 64 = (s.regS (Fin.ofNat 32 (a.val + k))).toNat := by
  have lane := laneOf_ofLanes 64 ((s.regRun a n).map (·.toNat)) k (by simpa [State.regRun] using hk)
  rw [List.getElem_map] at lane
  refine lane.trans ?_
  rw [Nat.mod_eq_of_lt (BitVec.isLt _)]
  simp [State.regRun]

/-! ### stake (R244, R245) -/

/-- The fields of a staking record (R244). -/
theorem stakeRecord_fields (key : Word) (launch core : Nat) (hint : Bool) (call entry : Nat) (args : List Word) (six : args.length = 6) :
    let v := stakeRecord key launch core hint call entry args
    v / 2 ^ 448 = key.toNat ∧ v / 2 ^ 432 % 2 ^ 16 = launch % 2 ^ 16 ∧ v / 2 ^ 392 % 256 = call % 256 ∧ v / 2 ^ 384 % 256 = entry % 256
      ∧ v % 2 ^ 384 = ofLanes 64 (args.map (·.toNat)) := by
  have lanes := ofLanes_lt 64 (args.map (·.toNat))
  rw [List.length_map, six] at lanes
  have flag_ := ofFlag_lt hint
  simp only [stakeRecord]
  generalize ofLanes 64 (args.map (·.toNat)) = low at *
  refine ⟨?_, ?_, ?_, ?_, ?_⟩ <;> omega

/-- The tests of a claim operation pass (R244 to R247). -/
theorem claimReady_checks (s : State) (h : Handle) (off n reg : Nat) (ready : ClaimReady s h off n) :
    s.accessCheck h off n false true reg = .ok (paOf h off) ∧ aligned h off 64 true = .ok () ∧ h.claim = true
      ∧ s.atomicWaits s.me.launch s.iss.die s.iss.core (paOf h off) 64 = false := by
  obtain ⟨valid, claim, bounds, perm, align, free⟩ := ready
  exact ⟨accessCheck_passes s h off n reg false true valid bounds perm, if_pos align, claim, free⟩

/-- The state after a stake with a record v: the record written, the cell STAKED, its stake kept by its die (R244, R245, R401). -/
def staked (s : State) (pa v : Nat) : State :=
  let u := (s.modLive fun r => { r with callCount := s.me.live.callCount + 1 }).putOwn pa 64 v
  let u := { u.setTag pa .staked with dirty := u.dirty.filter (· ≠ pa) }
  u.modDie (paDie pa) fun x => { x with
    stakes := (x.stakes.filter fun e => e.cell ≠ pa) ++ [{ cell := pa, launch := s.me.launch, ancestry := s.me.ancestry }] }

theorem stakeResult : Stated.StakeResult := by
  intro s m d hd h off pa ctl ready line depth calls entry notStaked notWorking room
  obtain ⟨access, align, claim, free⟩ := claimReady_checks s h off 1 m.h.val ready
  have fields := stakeRecord_fields s.me.key s.myLaunch.number (field ctl 12 9) (flag ctl 8) (s.me.live.callCount + 1) (field ctl 7 0) (s.regRun d 6)
    (regRun_length s d 6)
  have args (k : Nat) (hk : k < 6) := ofLanes_regRun s d 6 k hk
  generalize record : stakeRecord s.me.key s.myLaunch.number (field ctl 12 9) (flag ctl 8) (s.me.live.callCount + 1) (field ctl 7 0) (s.regRun d 6)
    = v at fields
  obtain ⟨key, number, call, code, low⟩ := fields
  have run : exec (.stake m d) s = .next (staked s pa v) := by
    have entry' : field ctl 7 0 < s.myLaunch.entries.length := by simpa [field] using entry
    show resolve s (actStake m d s) = _
    simp only [actStake]
    rw [show s.accessCheck (s.regH m.h) (s.syOff m) 1 false true m.h.val = .ok pa from access, except_ok_bind,
      show aligned (s.regH m.h) (s.syOff m) 64 true = .ok () from align, except_ok_bind, show (s.regH m.h).claim = true from claim,
      decide_eq_true depth, decide_eq_true calls, decide_eq_true entry', free, decide_eq_true notStaked, decide_eq_true notWorking, room, ← record]
    rfl
  have kept := putOwn_kept (s.modLive fun r => { r with callCount := s.me.live.callCount + 1 }) pa 64 v
  have me : (staked s pa v).me = ((s.modLive fun r => { r with callCount := s.me.live.callCount + 1 }).putOwn pa 64 v).me := rfl
  have tag (l : Nat) : (staked s pa v).tag l = if lineOf l = lineOf pa then .staked else s.tag l := by
    refine (tag_setTag _ pa l .staked).trans ?_
    rw [putOwn_tag]
    rfl
  have own : lineOf pa = pa := by unfold lineOf; omega
  rw [State.me_modLive, ← me] at kept
  refine ⟨_, v, run, (tag pa).trans (if_pos rfl), by rw [kept.1], fun a => ?_, key, number, call, ?_, fun k hk => ?_, by rw [kept.1], kept.2,
    fun l away => (tag l).trans (if_neg (own.symm ▸ away))⟩
  · show memByte ((s.modLive fun r => { r with callCount := s.me.live.callCount + 1 }).putOwn pa 64 v).mem a = _
    rw [putOwn_mem]
    exact memByte_memWrite _ _ _ _ _
  · rw [code]
    simp [field]
  · rw [← args k hk, ← low]
    obtain ⟨e, he⟩ : ∃ e, 384 = 64 * k + 64 + e := ⟨384 - (64 * k + 64), by omega⟩
    rw [he, pow_add, pow_add, Nat.mul_assoc, Nat.mod_mul_right_div_self, Nat.mod_mul_right_mod]

/-! ### settle, unstake and ctag (R115, R119, R246, R247) -/

/-- A cell returned to VALUE, with its entry freed: what its write has left stands. -/
theorem freed_kept (u : State) (pa : Nat) : let t := (u.freeClaim pa).setTag pa .value
    t.tag pa = .value ∧ t.claimEntry pa = none ∧ t.mem = u.mem ∧ t.me.live = u.me.live ∧ t.me.latches = u.me.latches := by
  have task := freeClaim_task u pa u.iss.task
  have iss : (u.freeClaim pa).iss = u.iss := by rw [freeClaim_frame]
  have me : ((u.freeClaim pa).setTag pa .value).me = (u.freeClaim pa).task u.iss.task := by
    show (u.freeClaim pa).task (u.freeClaim pa).iss.task = _
    rw [iss]
  refine ⟨(tag_setTag _ _ _ _).trans (if_pos rfl), claimEntry_freeClaim u pa, ?_, ?_, ?_⟩
  · show (u.freeClaim pa).mem = u.mem
    rw [freeClaim_frame]
  · rw [me, task]
    rfl
  · rw [me, task]
    rfl

theorem settleAndUnstake : Stated.SettleAndUnstake := by
  intro s m d hd h off pa ready line
  obtain ⟨access, align, claim, free⟩ := claimReady_checks s h off 64 m.h.val ready
  have access' : s.accessCheck (s.regH m.h) (s.syOff m) 64 false true m.h.val = .ok pa := access
  have align' : aligned (s.regH m.h) (s.syOff m) 64 true = .ok () := align
  have claim' : (s.regH m.h).claim = true := claim
  refine ⟨fun working mine performed clean => ?_, fun idle key => ?_, fun busy => ?_⟩
  · let v := ofLanes 64 ((s.regRun d 8).map (·.toNat))
    have run : exec (.settle m d) s = .next (((s.putOwn pa 64 v).freeClaim pa).setTag pa .value) := by
      have evaluates : s.evaluates s.me.key pa = true := by rw [State.evaluates, decide_eq_true working, decide_eq_true mine]; rfl
      show resolve s (actSettle m d s) = _
      simp only [actSettle]
      rw [access', except_ok_bind, align', except_ok_bind, claim', evaluates, release_ok s performed, free, clean]
      rfl
    obtain ⟨tag, entry, mem, live, latches⟩ := freed_kept (s.putOwn pa 64 v) pa
    have kept := putOwn_kept s pa 64 v
    refine ⟨_, run, tag, entry, fun k hk => ?_, fun a away => ?_, live.trans kept.1, latches.trans kept.2⟩
    · rw [mem, putOwn_mem, memRead_memWrite_within _ _ _ _ _ _ (by omega) (by omega), Nat.add_sub_cancel_left, ← ofLanes_regRun s d 8 k hk]
      congr 2
      rw [← Nat.mul_assoc]
    · rw [mem, putOwn_mem, memByte_memWrite_outside _ _ _ _ _ away]
  · let u := s.storeLeaves { pa := pa, len := 64, data := 0, die := s.iss.die, core := s.iss.core }
    have run : exec (.unstake m) s = .next (((u.putOutside pa 64 0).freeClaim pa).setTag pa .value) := by
      have key' : s.bytes (pa + 56) 8 = s.me.key.toNat := key
      have unclaimed : (decide (s.tag pa = .staked) || decide (s.tag pa = .failed)) = true := by simpa using idle
      show resolve s (actUnstake m s) = _
      simp only [actUnstake]
      rw [access', except_ok_bind, align', except_ok_bind, free, claim', unclaimed, decide_eq_true key']
      rfl
    obtain ⟨tag, -, mem, live, latches⟩ := freed_kept (s.putOwn pa 64 0) pa
    have kept := putOwn_kept s pa 64 0
    have zeros : memRead (memWrite s.mem pa 64 0) pa 64 = 0 := by rw [memRead_memWrite_same, Nat.zero_mod]
    refine ⟨_, run, tag, ?_, fun a away => ?_, live.trans kept.1, latches.trans kept.2⟩
    · exact (congrArg (memRead · pa 64) (mem.trans (putOwn_mem s pa 64 0))).trans zeros
    · exact (congrArg (memByte · a) (mem.trans (putOwn_mem s pa 64 0))).trans (memByte_memWrite_outside _ _ _ _ _ away)
  · have taken : (decide (s.tag pa = .staked) || decide (s.tag pa = .failed)) = false := by
      obtain tag | tag := busy <;> rw [tag] <;> rfl
    show resolve s (actUnstake m s) = _
    simp only [actUnstake]
    rw [access', except_ok_bind, align', except_ok_bind, free, claim', taken]
    rfl

theorem ctagResult : Stated.CtagResult := by
  intro s m d h off pa valid bounds perm free
  have access : s.accessCheck (s.regH m.h) (s.syOff m) 1 true false m.h.val = .ok pa := accessCheck_passes s h off 1 _ true false valid bounds perm
  have run : exec (.ctag d m) s = .next (s.resS d (BitVec.ofNat 64 (if h.claim then (s.tag pa).code else 0))) := by
    show resolve s (actCtag d m s) = _
    simp only [actCtag]
    rw [access, except_ok_bind, free]
    rfl
  refine ⟨_, run, ?_⟩
  have code : BitVec.ofNat 64 (if h.claim then (s.tag pa).code else 0) = if h.claim = false then 0 else match s.tag pa with
      | .value => 0 | .staked => 1 | .working => 2 | .failed => 3 := by
    cases h.claim
    · rfl
    · cases s.tag pa <;> rfl
  exact Eq.subst (motive := fun w => ResultS s _ d w false) code (resultS_resS s d _ false)

/-- Settles O21: the record and the tag of a stake, the value of a settled cell, the zeros of an unstaked one, and the code of a tag. -/
theorem claimInstructions : Obligations.ClaimInstructions := ⟨stakeResult, settleAndUnstake, ctagResult⟩

end Sys2Proof.Machine
end

section
/-! SUPPORT. A vector store over claim cells whose first part frees what its second part then waits for (R118, R229, R231, R401, R407). -/

set_option Elab.async false

namespace Sys2Proof.Machine

open Stated

/-! ### The state

The page table of a launch lies in the line that the store writes first, and maps the claim area of die 1: the area is then misplaced and has no room
(R401; log 20), so that a touch of a cell there is kept at its home (R118). -/

/-- The table, and the first byte that the store writes: an address of die 1. -/
def tableLine : Nat := 2 ^ 39 + 0x20000

/-- The cell whose touch is kept for want of room. -/
def keptCell : Nat := 2 ^ 39 + 0x30000

/-- The claim-enabled handle of the store. -/
def tableHandle : Handle :=
  { valid := true, read := true, write := true, claim := true, pinned := true, pa := BitVec.ofNat 52 tableLine, last := 0xFFFF }

/-- Entry 0 of the table is a node, the table itself again; entry 1 is a leaf for the first page of die 1, where its claim area lies. -/
def tableState : State where
  tasks := [(0, { rowCount := 64, live := { h := Vector.replicate 16 tableHandle } })]
  launches := [(0, { accepted := true, segs := [{ valid := true, base := tableLine }] })]
  mem := memWrite (memWrite [] tableLine 8 (tableLine + 2)) (tableLine + 8) 8 (2 ^ 39 + 4)
  tags := [(keptCell, .working)]
  dies := [(1, { clBase := BitVec.ofNat 64 (2 ^ 39), clLen := 1
                 claims := [{ cell := keptCell, evaluator := 7, waiters := List.replicate 8 { task := 9, since := 0, timeout := 0 } }] })]
  claimReqs := [{ task := 8, cell := keptCell }]
  sent := 1
  iss := { snap := { h := Vector.replicate 16 tableHandle } }

/-- A store of 128 bytes of zeros from the table on. -/
def tableStore : MmOp := { sz := 1, hint := .none, d := 1, h := 0, x := 0, imm := 0 }

/-! ### What it meets -/

/-- The register may be named, and the tests of R229 pass. -/
theorem tableStore_passes : RowUsable tableState tableStore.d
    ∧ Passes tableState (tableState.regH tableStore.h) (mmOffset tableState tableStore.x tableStore.imm 64) 128 64 true := by
  unfold RowUsable RowFree Passes InBounds Permitted InFootprint
  decide +kernel

/-- Before the store nothing holds back its parts, and both go to VALUE lines: the touch that is kept has arrived at its home. -/
theorem tableStore_free : ∀ j < 2, (tableState.issueStalls (tableLine + 64 * j) 64 true = false ∧ tableState.sameHomeStore (tableLine + 64 * j) = false
      ∧ tableState.atomicWaits tableState.me.launch tableState.iss.die tableState.iss.core (tableLine + 64 * j) 64 = false)
    ∧ tableState.tag (tableLine + 64 * j) = .value := by decide +kernel

/-- The first part clears the table. The claim area has room then, so that the touch is on its way again, and the second part would overtake it. -/
theorem tableStore_waits : (tableState.putOwn tableLine 64 0).atomicWaits 0 0 0 (tableLine + 64) 64 = true := by decide +kernel

/-- So the bundle waits, and nothing of the store is performed. -/
theorem tableStore_stalls : (match exec (.stv tableStore) tableState with
    | .next t => decide (t.mem = tableState.mem)
    | _ => false) = true := by decide +kernel

/-- The first byte keeps its 2, where the store was to leave a 0. -/
theorem tableStore_byte :
    let pa := paOf (tableState.regH tableStore.h) (mmOffset tableState tableStore.x tableStore.imm 64)
    ¬ memByte tableState.mem tableLine = if pa ≤ tableLine ∧ tableLine < pa + 64 * 2 ^ tableStore.sz.val
      then byteAt ((tableState.rowBefore (tableState.vrow tableStore.d)).toNat % 2 ^ (512 * 2 ^ tableStore.sz.val)) (tableLine - pa)
      else memByte tableState.mem tableLine := by decide +kernel

/-- Refutes O17, by its clause for stv through a claim-enabled handle: that nothing holds back any of the parts before the store does not let it complete,
since its first part can change what its second part waits for. -/
theorem not_loadsAndStores : ¬ Obligations.LoadsAndStores := by
  unfold Obligations.LoadsAndStores
  rintro ⟨-, -, -, rows⟩
  obtain ⟨-, store⟩ := rows tableState tableStore rfl (by decide)
  obtain ⟨written, -⟩ := store tableStore_passes.1 tableStore_passes.2 fun j hj => (tableStore_free j hj).1
  obtain ⟨t, run, ⟨bytes, -⟩, -⟩ := written fun j hj => (tableStore_free j hj).2
  have same : t.mem = tableState.mem := by
    have stalls := tableStore_stalls
    rw [run] at stalls
    exact of_decide_eq_true stalls
  have first := bytes tableLine
  rw [same] at first
  exact absurd first tableStore_byte

end Sys2Proof.Machine
end

section
/-! SUPPORT. Planes of seam vectors as numbers, their rows in memory, and the run of the seam arithmetic (R101, R103, R317, R319, R320). -/

set_option Elab.async false

namespace Sys2Proof.Machine

open Stated

/-! ### Masked bits -/

theorem land_add_ldiff (x m : Nat) : (x &&& m) + Nat.ldiff x m = x := by
  induction x using Nat.binaryRec generalizing m with
  | zero => simp [Nat.ldiff]
  | bit a x ih =>
    obtain ⟨b, n, rfl⟩ : ∃ b n, m = Nat.bit b n := ⟨m.testBit 0, m / 2, (Nat.bit_testBit_zero_shiftRight_one m).symm⟩
    have rest := ih n
    rw [Nat.land_bit, Nat.ldiff_bit]
    simp only [Nat.bit_val]
    cases a <;> cases b <;> simp <;> omega

/-- The bits of p where the mask has them, and those of old elsewhere. -/
def masked (mask old p : Nat) : Nat := (p &&& mask) ||| (old - (old &&& mask))

theorem masked_bit (mask old p j : Nat) : (masked mask old p).testBit j = if mask.testBit j then p.testBit j else old.testBit j := by
  have rest : old - (old &&& mask) = Nat.ldiff old mask := by have := land_add_ldiff old mask; omega
  rw [masked, rest, Nat.testBit_or, Nat.testBit_and, Nat.testBit_ldiff]
  cases mask.testBit j <;> simp

/-! ### Columns as numbers (R317) -/

/-- The number whose bits are given, the highest first. -/
def bitsNumber (a : Nat) (l : List Nat) : Nat := l.foldl (fun a b => 2 * a + b % 2) a

theorem bitsNumber_eq (a : Nat) (l : List Nat) : bitsNumber a l = a * 2 ^ l.length + bitsNumber 0 l := by
  induction l generalizing a with
  | nil => simp [bitsNumber]
  | cons b l ih =>
    have step (a : Nat) : bitsNumber a (b :: l) = bitsNumber (2 * a + b % 2) l := rfl
    rw [step, step, ih (2 * a + b % 2), ih (2 * 0 + b % 2), List.length_cons, pow_succ]
    ring

theorem bitsNumber_lt (l : List Nat) : bitsNumber 0 l < 2 ^ l.length := by
  induction l with
  | nil => exact Nat.one_pos
  | cons b l ih =>
    show bitsNumber (2 * 0 + b % 2) l < _
    rw [bitsNumber_eq, List.length_cons, pow_succ, Nat.mul_zero, Nat.zero_add]
    have : b % 2 * 2 ^ l.length ≤ 1 * 2 ^ l.length := Nat.mul_le_mul_right _ (by omega)
    omega

theorem bitsNumber_append (l r : List Nat) : bitsNumber 0 (l ++ r) = bitsNumber 0 l * 2 ^ r.length + bitsNumber 0 r := by
  rw [← bitsNumber_eq]
  exact List.foldl_append

/-- The bits of a number. -/
theorem bitsNumber_bits (w x : Nat) : bitsNumber 0 ((List.range w).map fun p => x / 2 ^ (w - 1 - p)) = x % 2 ^ w := by
  induction w with
  | zero => simp [bitsNumber, Nat.mod_one]
  | succ w ih =>
    have next : (List.range w).map ((fun p => x / 2 ^ (w + 1 - 1 - p)) ∘ Nat.succ) = (List.range w).map fun p => x / 2 ^ (w - 1 - p) :=
      List.map_congr_left fun p _ => by simp only [Function.comp_apply]; congr 2; omega
    rw [List.range_succ_eq_map, List.map_cons, List.map_map, next]
    show bitsNumber (2 * 0 + _ % 2) _ = _
    rw [bitsNumber_eq, ih, List.length_map, List.length_range, Nat.mod_pow_succ]
    simp only [Nat.mul_zero, Nat.zero_add, Nat.add_sub_cancel, Nat.sub_zero]
    ring

theorem planeBits_eq (l : List Nat) (k j : Nat) : planeBits l k j = bitsNumber 0 ((l.take k).map fun p => p / 2 ^ j) := by
  rw [planeBits, bitsNumber, List.foldl_map]

/-- The first planes of a column are its highest bits. -/
theorem planeBits_take (l : List Nat) (k j : Nat) : planeBits l k j = planeBits l l.length j / 2 ^ (l.length - k) := by
  have split : (l.take l.length).map (fun p => p / 2 ^ j) = (l.take k).map (fun p => p / 2 ^ j) ++ (l.drop k).map fun p => p / 2 ^ j := by
    rw [List.take_length, ← List.map_append, List.take_append_drop]
  have low := bitsNumber_lt ((l.drop k).map fun p => p / 2 ^ j)
  rw [planeBits_eq l l.length, split, bitsNumber_append, ← planeBits_eq]
  rw [List.length_map, List.length_drop] at low ⊢
  rw [Nat.mul_comm, Nat.mul_add_div (Nat.two_pow_pos _), Nat.div_eq_of_lt low, Nat.add_zero]

/-- Columns of planes with the same bits. -/
theorem planeBits_congr (l r : List Nat) (k j : Nat) (len : l.length = r.length)
    (same : ∀ i (hl : i < l.length) (hr : i < r.length), l[i] / 2 ^ j % 2 = r[i] / 2 ^ j % 2) : planeBits l k j = planeBits r k j := by
  have bits : l.map (fun p => p / 2 ^ j % 2) = r.map fun p => p / 2 ^ j % 2 :=
    List.ext_getElem (by simpa using len) fun i hl hr => by simpa using same i (by simpa using hl) (by simpa using hr)
  have fold (l : List Nat) : planeBits l k j = ((l.map fun p => p / 2 ^ j % 2).take k).foldl (fun a b => 2 * a + b) 0 := by
    rw [← List.map_take, List.foldl_map, planeBits]
  rw [fold, fold, bits]

theorem toPlanes_length (w : Nat) (f : Nat → Nat) : (toPlanes w f).length = w := by simp [toPlanes]

/-- The bit of a column in a plane. -/
theorem toPlanes_bit (w : Nat) (f : Nat → Nat) (p j : Nat) (hp : p < (toPlanes w f).length) (hj : j < 1024) :
    (toPlanes w f)[p] / 2 ^ j % 2 = f j / 2 ^ (w - 1 - p) % 2 := by
  have plane : (toPlanes w f)[p] = ofLanes 1 (((List.range 1024).map f).map fun x => x / 2 ^ (w - 1 - p)) := by
    simp only [toPlanes, List.getElem_map, List.getElem_range, ofLanes, pow_one, List.foldr_map]
  have lane := laneOf_ofLanes 1 (((List.range 1024).map f).map fun x => x / 2 ^ (w - 1 - p)) j (by simpa using hj)
  rw [plane]
  simpa [laneOf] using lane

/-- The column of a number in its planes. -/
theorem planeBits_toPlanes (w : Nat) (f : Nat → Nat) (j : Nat) (hj : j < 1024) : planeBits (toPlanes w f) w j = f j % 2 ^ w := by
  have bits : (toPlanes w f).map (fun p => p / 2 ^ j % 2) = (List.range w).map fun p => f j / 2 ^ (w - 1 - p) % 2 :=
    List.ext_getElem (by simp [toPlanes]) fun i hl _ => by
      have hi : i < (toPlanes w f).length := by simpa using hl
      simpa using toPlanes_bit w f i j hi hj
  have modded (l : List Nat) : bitsNumber 0 (l.map (· % 2)) = bitsNumber 0 l := by simp [bitsNumber, List.foldl_map]
  calc planeBits (toPlanes w f) w j
      = bitsNumber 0 ((toPlanes w f).map fun p => p / 2 ^ j) := by rw [planeBits_eq, List.take_of_length_le (toPlanes_length w f).le]
    _ = bitsNumber 0 ((toPlanes w f).map fun p => p / 2 ^ j % 2) := by rw [← modded, List.map_map]; rfl
    _ = bitsNumber 0 ((List.range w).map fun p => f j / 2 ^ (w - 1 - p)) := by rw [bits, ← modded ((List.range w).map fun p => f j / 2 ^ (w - 1 - p)), List.map_map]; rfl
    _ = f j % 2 ^ w := bitsNumber_bits w (f j)

/-! ### The rows of a vector in memory (R101) -/

/-- The rows of a bank from row r take a list of planes in the columns of a mask. -/
def putRows (base mask : Nat) : Mem → List Nat → Nat → Mem
  | m, [], _ => m
  | m, p :: l, r => putRows base mask (memWrite m (base + r * 128) 128 (masked mask (memRead m (base + r * 128) 128) p)) l (r + 1)

theorem memByte_putRows (base mask : Nat) (m : Mem) (l : List Nat) (r a : Nat)
    (h : ¬ (base + r * 128 ≤ a ∧ a < base + r * 128 + 128 * l.length)) : memByte (putRows base mask m l r) a = memByte m a := by
  induction l generalizing m r with
  | nil => rfl
  | cons p l ih =>
    rw [List.length_cons] at h
    rw [putRows, ih _ _ (by omega), memByte_memWrite_outside _ _ _ _ _ (by omega)]

theorem memRead_putRows_before (base mask : Nat) (m : Mem) (l : List Nat) (r b : Nat) (h : b + 128 ≤ base + r * 128) :
    memRead (putRows base mask m l r) b 128 = memRead m b 128 := by
  induction l generalizing m r with
  | nil => rfl
  | cons p l ih => rw [putRows, ih _ _ (by omega), memRead_memWrite_apart _ _ _ _ _ _ (.inl h)]

/-- Each row holds its plane in the columns of the mask and its old bits elsewhere. -/
theorem memRead_putRows (base mask : Nat) (m : Mem) (l : List Nat) (r i : Nat) (hi : i < l.length) :
    memRead (putRows base mask m l r) (base + (r + i) * 128) 128 = masked mask (memRead m (base + (r + i) * 128) 128) l[i] % 2 ^ (8 * 128) := by
  induction l generalizing m r i with
  | nil => cases hi
  | cons p l ih =>
    cases i with
    | zero => rw [putRows, memRead_putRows_before _ _ _ _ _ _ (by omega)]; exact memRead_memWrite_same _ _ _ _
    | succ i =>
      have next : r + (i + 1) = r + 1 + i := by omega
      rw [putRows, next, ih _ _ _ (by simpa using hi), memRead_memWrite_apart _ _ _ _ _ _ (.inr (by omega))]
      rfl

/-- The poison after plane k of a vector is written (R421, R422). -/
def planePoison (d c bank : Nat) (v : SVec) (mask : Nat) (bad : Nat → Bool) (s : State) (k : Nat) : List Nat :=
  let a := s.seamRow d c bank (v.row + k)
  let hit := (List.range 16).filter fun g => bad g && decide (segCols mask g ≠ 0)
  let cured := (List.range 16).filter fun g => !bad g && decide (segCols mask g = 2 ^ 64 - 1)
  hit.foldl (fun l g => setInsert l (a + 8 * g)) (s.poison.filter fun u => !cured.any fun g => u = a + 8 * g)

/-- A vector written in the columns of a mask changes memory in its rows, and the poison. -/
theorem putPlanes_eq (s : State) (d c bank : Nat) (v : SVec) (mask : Nat) (f : Nat → Nat) (bad : Nat → Bool) :
    ∃ poison, s.putPlanes d c bank v mask f bad
      = { s with mem := putRows (bankAddr (s.modId d) d c bank) mask s.mem (toPlanes v.w f) v.row, poison := poison } := by
  have rows (l : List Nat) (k : Nat) (m : Mem) (q : List Nat) : ∃ poison,
      (l.zipIdx k).foldl (fun u e => { u with
          mem := memWrite u.mem (u.seamRow d c bank (v.row + e.2)) 128 (masked mask (u.bytes (u.seamRow d c bank (v.row + e.2)) 128) e.1)
          poison := planePoison d c bank v mask bad u e.2 }) { s with mem := m, poison := q }
        = { s with mem := putRows (bankAddr (s.modId d) d c bank) mask m l (v.row + k), poison := poison } := by
    induction l generalizing k m q with
    | nil => exact ⟨q, rfl⟩
    | cons p l ih => exact ih (k + 1) _ _
  exact rows (toPlanes v.w f) 0 s.mem s.poison

/-! ### Columns after a vector is written (R317) -/

theorem planes_length (s : State) (d c bank : Nat) (v : SVec) : (s.planes d c bank v).length = v.w := by simp [State.planes]

/-- A column that the mask has takes the low bits of its number; another keeps its bits. -/
theorem column_putPlanes (s : State) (d c bank : Nat) (x : Word) (mask : Nat) (f : Nat → Nat) (bad : Nat → Bool) (j : Nat) (hj : j < 1024) :
    column (s.putPlanes d c bank (svec x) mask f bad) d c bank x j
      = if mask.testBit j then f j % 2 ^ seamW x else column s d c bank x j := by
  obtain ⟨poison, result⟩ := putPlanes_eq s d c bank (svec x) mask f bad
  obtain ⟨n, cols⟩ : ∃ n, 8 * 128 = n := ⟨_, rfl⟩
  have row (i : Nat) (hi : i < (toPlanes (svec x).w f).length) (hr : i < ((s.putPlanes d c bank (svec x) mask f bad).planes d c bank (svec x)).length) :
      ((s.putPlanes d c bank (svec x) mask f bad).planes d c bank (svec x))[i]
        = masked mask (s.bytes (s.seamRow d c bank ((svec x).row + i)) 128) ((toPlanes (svec x).w f)[i]'hi) % 2 ^ n := by
    rw [← cols]
    simp only [State.planes, List.getElem_map, List.getElem_range, result]
    exact memRead_putRows _ _ _ _ _ _ hi
  have bit (n : Nat) (i : Nat) : n / 2 ^ i % 2 = (n.testBit i).toNat := (Nat.toNat_testBit n i).symm
  have inRow : decide (j < n) = true := decide_eq_true (by omega)
  by_cases m : mask.testBit j = true
  · rw [if_pos m, ← planeBits_toPlanes _ _ _ hj]
    refine planeBits_congr _ _ _ _ (by rw [planes_length, toPlanes_length]; rfl) fun i hl hr => ?_
    rw [row i hr, bit, bit, Nat.testBit_mod_two_pow, inRow, masked_bit, if_pos m, Bool.true_and]
    rfl
  · rw [if_neg m]
    refine planeBits_congr _ _ _ _ (by rw [planes_length, planes_length]) fun i hl hr => ?_
    rw [row i (by rw [toPlanes_length]; rwa [planes_length] at hl), bit, bit, Nat.testBit_mod_two_pow, inRow, masked_bit, if_neg m, Bool.true_and]
    simp only [State.planes, List.getElem_map, List.getElem_range]

/-- Val of a source is the value of its column (R317). -/
theorem planeVal_planes (s : State) (d c bank : Nat) (x : Word) (j : Nat) :
    planeVal (s.planes d c bank (svec x)) (svec x).k j = columnVal s d c bank x j := by
  rw [planeVal, planeBits_take, planes_length]
  rfl

/-! ### The run of a seam operation with two sources (R103, R319, R320) -/

theorem columnMask_bit (pred : Bool) (p : BitVec 1024) (j : Nat) (hj : j < 1024) :
    (if pred then p.toNat else allCols).testBit j = true ↔ pred = false ∨ p.getLsbD j = true := by
  cases pred with
  | true => simp [BitVec.getLsbD]
  | false =>
    have all : allCols.testBit j = true := by rw [allCols, Nat.testBit_two_pow_sub_one]; exact decide_eq_true hj
    simp [all]

/-- The columns of the destination after a seam operation with two sources. -/
theorem column_seam2 (s : State) (d c bank : Nat) (m : Macro) (pred : Bool) (f : Int → Int → Nat) (j : Nat) (hj : j < 1024) :
    column (s.seam2 d c bank m pred f) d c bank m.a j
      = if pred = false ∨ ((s.core d c).bank bank).pred.getLsbD j = true then
          f (columnVal s d c bank m.b j) (columnVal s d c bank m.c j) % 2 ^ seamW m.a
        else column s d c bank m.a j := by
  rw [State.seam2, column_putPlanes _ _ _ _ _ _ _ _ _ hj, planeVal_planes, planeVal_planes, if_congr (columnMask_bit pred _ j hj) rfl rfl]

/-- A seam operation with two sources changes memory and poison alone. -/
theorem seam2_eq (s : State) (d c bank : Nat) (m : Macro) (pred : Bool) (f : Int → Int → Nat) :
    ∃ mem poison, s.seam2 d c bank m pred f = { s with mem := mem, poison := poison }
      ∧ ∀ a, ¬ (s.seamRow d c bank (m.a.toNat % 2 ^ 10) ≤ a ∧ a < s.seamRow d c bank (m.a.toNat % 2 ^ 10) + 128 * seamW m.a) →
        memByte mem a = memByte s.mem a := by
  obtain ⟨poison, result⟩ := putPlanes_eq s d c bank (svec m.a) (if pred then ((s.core d c).bank bank).pred.toNat else allCols)
    (fun j => f (planeVal (s.planes d c bank (svec m.b)) (svec m.b).k j) (planeVal (s.planes d c bank (svec m.c)) (svec m.c).k j))
    fun g => s.segPoisoned d c bank (svec m.b) g || s.segPoisoned d c bank (svec m.c) g
  have row : (svec m.a).row = m.a.toNat % 2 ^ 10 := by simp [svec, field]
  refine ⟨_, poison, result, fun a outside => memByte_putRows _ _ _ _ _ _ ?_⟩
  rw [toPlanes_length, row]
  exact outside

/-- The queue of a bank after its head has left it. -/
theorem queue_left (s : State) (d c bank : Nat) (rest : List Macro) :
    (((s.modCore d c fun x => { x with banks := smPut x.banks bank { x.bank bank with queue := rest } }).core d c).bank bank).queue = rest := by
  rw [State.core_modCore_same, Core.bank, smGet_smPut_same]

/-- The seam operation at the head of a bank whose commands are done runs and leaves the queue. -/
theorem seamMacro_runs (s : State) (d c bank : Nat) (m : Macro) (rest : List Macro) (queue : ((s.core d c).bank bank).queue = m :: rest)
    (free : ∀ x ∈ s.cmds, x.id ∉ m.after) :
    exec (.seamMacroExecute d c bank) s
      = .next ((s.seamRun d c bank m).modCore d c fun x => { x with banks := smPut x.banks bank { x.bank bank with queue := rest } }) := by
  have waits : (s.cmds.any fun x => m.after.contains x.id) = false := by simpa using free
  show execSeamMacroExecute d c bank s = _
  simp only [execSeamMacroExecute, queue, waits, Bool.false_eq_true, if_false]

/-- A seam operation whose run is that of two sources writes f of them in its columns and leaves all else in memory. -/
theorem seam2_runs (s : State) (d c bank : Nat) (m : Macro) (rest : List Macro) (pred : Bool) (f : Int → Int → Nat) (g : Int → Int → Int)
    (queue : ((s.core d c).bank bank).queue = m :: rest) (free : ∀ x ∈ s.cmds, x.id ∉ m.after)
    (run : s.seamRun d c bank m = s.seam2 d c bank m pred f) (exact_ : ∀ x y, ((f x y % 2 ^ seamW m.a : Nat) : Int) = g x y % 2 ^ seamW m.a) :
    ∃ t, exec (.seamMacroExecute d c bank) s = .next t ∧ ((t.core d c).bank bank).queue = rest
      ∧ (∀ j < 1024, (column t d c bank m.a j : Int) =
          if pred = false ∨ ((s.core d c).bank bank).pred.getLsbD j = true then g (columnVal s d c bank m.b j) (columnVal s d c bank m.c j) % 2 ^ seamW m.a
          else column s d c bank m.a j)
      ∧ ∀ a, ¬ (s.seamRow d c bank (m.a.toNat % 2 ^ 10) ≤ a ∧ a < s.seamRow d c bank (m.a.toNat % 2 ^ 10) + 128 * seamW m.a) →
          memByte t.mem a = memByte s.mem a := by
  refine ⟨_, seamMacro_runs s d c bank m rest queue free, queue_left _ _ _ _ _, fun j hj => ?_, fun a outside => ?_⟩
  · have written := column_seam2 s d c bank m pred f j hj
    rw [← run] at written
    refine (congrArg Nat.cast written).trans ?_
    by_cases lane : pred = false ∨ ((s.core d c).bank bank).pred.getLsbD j = true
    · rw [if_pos lane, if_pos lane, exact_]
    · rw [if_neg lane, if_neg lane]
  · obtain ⟨mem, poison, result, frame⟩ := seam2_eq s d c bank m pred f
    rw [run, result]
    exact frame a outside

/-! ### Results of the operations (R319, R320) -/

theorem wrapInt_exact (w : Nat) (x : Int) : ((wrapInt w x % 2 ^ w : Nat) : Int) = x % 2 ^ w := by
  rw [Nat.mod_eq_of_lt (wrapInt_lt w x), wrapInt_cast]

theorem seamFlag_exact (cond : SeamCond) (w : Nat) (x y : Int) :
    ((ofFlag (seamCond cond x y) % 2 ^ w : Nat) : Int) = (if seamHolds cond x y then 1 else 0) % 2 ^ w := by
  have same : seamHolds cond x y = seamCond cond x y := by cases cond <;> rfl
  rw [same]
  cases seamCond cond x y <;> simp [ofFlag]

/-- Settles O6: a seam operation's planes are written row by row under the mask of its predicate row, and a column of them is the number written there. -/
theorem seamArithmetic : Obligations.SeamArithmetic := by
  intro s d c bank m rest o sat cond _ queue free _ _ _ w fit p hp instr
  have runs := seam2_runs s d c bank m rest o.pred
  simp only [List.mem_cons, List.not_mem_nil, or_false] at hp
  rcases hp with rfl | rfl | rfl | rfl
  · refine runs (fun x y => wrapInt w (if sat then clampInt w true (x + y) else x + y)) _ queue free (by rw [State.seamRun, instr]; rfl) fun x y => ?_
    exact wrapInt_exact _ _
  · refine runs (fun x y => wrapInt w (if sat then clampInt w true (x - y) else x - y)) _ queue free (by rw [State.seamRun, instr]; rfl) fun x y => ?_
    exact wrapInt_exact _ _
  · exact runs (fun x y => wrapInt w (x * y)) _ queue free (by rw [State.seamRun, instr]; rfl) fun x y => wrapInt_exact _ _
  · exact runs (fun x y => ofFlag (seamCond cond x y)) _ queue free (by rw [State.seamRun, instr]) fun x y => seamFlag_exact cond _ x y

end Sys2Proof.Machine
end

section
/-! SUPPORT. Claim requests at their homes: first touches, waiters, and the ends of waits (R118 to R120, R169 to R172). -/

set_option Elab.async false

namespace Sys2Proof.Machine

open Stated

/-! ### First touches (R119, R169) -/

/-- The state after request n has made a cell WORKING, with its evaluator and its first waiter. -/
def State.touched (s : State) (n : Nat) (r : ClaimReq) (st : Stake) : State :=
  let u := ((s.dropClaim n).setTag r.cell .working).setTask s.freshTask (s.evaluatorOf r.cell st.launch r.level st.ancestry)
  u.modDie (cellDie r.cell) fun x => { x with claims := x.claims ++ [{ cell := r.cell, evaluator := s.freshTask, waiters := [u.waiterOf r] }] }

theorem claimFirstTouch_touched (s : State) (n : Nat) (r : ClaimReq) (st : Stake) (req : s.claimReqs[n]? = some r) (held : s.claimHeld r = false)
    (staked : s.tag r.cell = .staked) (sound : s.poisoned r.cell 64 = false) (room : (s.die (cellDie r.cell)).claims.length < 1024)
    (stake : (s.die (cellDie r.cell)).stakes.find? (fun x => x.cell = r.cell) = some st) :
    exec (.claimFirstTouch n) s = .next (s.touched n r st) := by
  show execClaimFirstTouch n s = _
  simp only [execClaimFirstTouch, req, held, staked, sound, stake, Nat.not_le.2 room, ne_eq, not_true_eq_false, decide_false, Bool.or_false,
    Bool.false_eq_true, if_false]
  rfl

/-- The first waiter of a touched cell. -/
theorem waiterOf_touched (s : State) (n : Nat) (r : ClaimReq) (t : Task) (apart : r.task ≠ s.freshTask) :
    (((s.dropClaim n).setTag r.cell .working).setTask s.freshTask t).waiterOf r = s.waiterOf r := by
  have same : (((s.dropClaim n).setTag r.cell .working).setTask s.freshTask t).task r.task = s.task r.task :=
    State.task_setTask_other _ _ _ _ apart
  rw [State.waiterOf, same]
  rfl

theorem touched_tag (s : State) (n : Nat) (r : ClaimReq) (st : Stake) : (s.touched n r st).tag r.cell = .working :=
  (tag_setTag (s.dropClaim n) r.cell r.cell .working).trans (if_pos rfl)

theorem touched_evaluator (s : State) (n : Nat) (r : ClaimReq) (st : Stake) :
    (s.touched n r st).task s.freshTask = s.evaluatorOf r.cell st.launch r.level st.ancestry :=
  State.task_setTask_same _ _ _

theorem touched_claims (s : State) (n : Nat) (r : ClaimReq) (st : Stake) :
    ((s.touched n r st).die (cellDie r.cell)).claims = (s.die (cellDie r.cell)).claims ++ [{
      cell := r.cell, evaluator := s.freshTask, waiters := [(((s.dropClaim n).setTag r.cell .working).setTask s.freshTask (s.evaluatorOf r.cell st.launch r.level st.ancestry)).waiterOf r] }] := by
  rw [State.touched, State.modDie, State.die_setDie_same]
  rfl

/-! ### Waiters (R118, R170) -/

/-- The entry of a cell once its waiters have changed. -/
theorem claimEntry_modClaim (s : State) (cell : Nat) (f : ClaimEntry → ClaimEntry) (keeps : ∀ e, (f e).cell = e.cell) :
    (s.modClaim cell f).claimEntry cell = (s.claimEntry cell).map f := by
  have mapped (l : List ClaimEntry) : (l.map fun e => if e.cell = cell then f e else e).find? (fun e => e.cell = cell)
      = (l.find? fun e => e.cell = cell).map f := by
    induction l with
    | nil => rfl
    | cons e l ih =>
      by_cases here : e.cell = cell
      · simp [here, keeps]
      · simp [here, ih]
  rw [State.claimEntry, State.modClaim, State.modDie, State.die_setDie_same]
  exact mapped _

/-- A change of waiters changes the table, and of a task its level alone. -/
theorem setWaiters_cases (s : State) (cell : Nat) (f : List Waiter → List Waiter) :
    let u := s.modClaim cell fun e => { e with waiters := f e.waiters }
    s.setWaiters cell f = u ∨ ∃ e, s.setWaiters cell f = u.relevel e := by
  intro u
  cases entry : u.claimEntry cell with
  | none => exact .inl (by simp only [State.setWaiters, u] at entry ⊢; simp only [entry])
  | some e => exact .inr ⟨e, by simp only [State.setWaiters, u] at entry ⊢; simp only [entry]⟩

theorem claimEntry_setWaiters (s : State) (cell : Nat) (f : List Waiter → List Waiter) (e : ClaimEntry) (entry : s.claimEntry cell = some e) :
    (s.setWaiters cell f).claimEntry cell = some { e with waiters := f e.waiters } := by
  have found := claimEntry_modClaim s cell (fun e => { e with waiters := f e.waiters }) fun _ => rfl
  rw [entry] at found
  rcases setWaiters_cases s cell f with same | ⟨x, leveled⟩
  · rw [same]; exact found
  · rw [leveled]; exact found

theorem setWaiters_task (s : State) (cell : Nat) (f : List Waiter → List Waiter) (i : Nat) :
    (s.setWaiters cell f).task i = { s.task i with level := ((s.setWaiters cell f).task i).level } := by
  rcases setWaiters_cases s cell f with same | ⟨x, leveled⟩
  · rw [same]; rfl
  · rw [leveled]; exact relevel_task (s.modClaim cell fun e => { e with waiters := f e.waiters }) _ i

theorem setWaiters_claimReqs (s : State) (cell : Nat) (f : List Waiter → List Waiter) : (s.setWaiters cell f).claimReqs = s.claimReqs := by
  rcases setWaiters_cases s cell f with same | ⟨x, leveled⟩
  · rw [same]; rfl
  · rw [leveled]; rfl

theorem willTrap_pendTrap (s : State) (i : Nat) (r : TrapRec) : WillTrap s (s.pendTrap i r) i r := by
  rw [WillTrap, State.pendTrap, State.task_modTask_same]

/-- The request of a task joins the waiters of a WORKING cell that has room for it. -/
theorem claimWaiterAdd_waits (s : State) (n : Nat) (r : ClaimReq) (e : ClaimEntry) (req : s.claimReqs[n]? = some r) (held : s.claimHeld r = false)
    (working : s.tag r.cell = .working) (entry : s.claimEntry r.cell = some e) (stranger : r.cell ∉ (s.task r.task).ancestry)
    (room : s.waiterRoom e = true) :
    exec (.claimWaiterAdd n) s = .next ((s.dropClaim n).setWaiters r.cell fun l => l ++ [s.waiterOf r]) := by
  have other : (s.task r.task).ancestry.contains r.cell = false := by simpa using stranger
  show execClaimWaiterAdd n s = _
  simp only [execClaimWaiterAdd, req, held, working, entry, other, room, Bool.false_eq_true, if_false, Bool.not_true]

/-- The request of a task that evaluates its own cell is answered with CLAIM_SELF. -/
theorem claimWaiterAdd_self (s : State) (n : Nat) (r : ClaimReq) (e : ClaimEntry) (req : s.claimReqs[n]? = some r) (held : s.claimHeld r = false)
    (working : s.tag r.cell = .working) (entry : s.claimEntry r.cell = some e) (own : r.cell ∈ (s.task r.task).ancestry) :
    exec (.claimWaiterAdd n) s = .next ((s.dropClaim n).pendTrap r.task { code := Trap.claimSelf.code, addr := (s.task r.task).claimVa }) := by
  have mine : (s.task r.task).ancestry.contains r.cell = true := by simpa using own
  show execClaimWaiterAdd n s = _
  simp only [execClaimWaiterAdd, req, held, working, entry, mine, Bool.false_eq_true, if_false, if_true]

theorem claimEvents_hold : ClaimEvents := by
  intro s n r req held
  refine ⟨fun st staked sound room stake => ?_, fun e working entry => ⟨fun stranger room => ?_, fun own => ?_⟩⟩
  · refine ⟨_, _, claimFirstTouch_touched s n r st req held staked sound room stake, touched_tag s n r st, rfl, rfl, rfl, fun apart => ?_, ?_, ?_, ?_, ?_,
      touched_claims s n r st⟩
    · exact congrArg Waiter.since (waiterOf_touched s n r _ apart)
    all_goals rw [touched_evaluator]; rfl
  · exact ⟨_, s.waiterOf r, claimWaiterAdd_waits s n r e req held working entry stranger room, setWaiters_claimReqs _ _ _, rfl, rfl, rfl,
      claimEntry_setWaiters (s.dropClaim n) r.cell _ e entry⟩
  · exact ⟨_, claimWaiterAdd_self s n r e req held working entry own, willTrap_pendTrap (s.dropClaim n) r.task _⟩

/-! ### The ends of waits (R119, R171, R172) -/

theorem willTrap_endWait (s : State) (i cell : Nat) (t : Trap) : WillTrap s (s.endWait i cell t) i { code := t.code, addr := (s.task i).claimVa } := by
  rw [WillTrap, State.endWait, setWaiters_task]
  exact willTrap_pendTrap s i _

theorem mem_tasksWith (s : State) (f : Nat → Task → Bool) (k : Nat) : k ∈ s.tasksWith f ↔ ∃ u ∈ s.tasks, f u.1 u.2 = true ∧ u.1 = k := by
  simp only [State.tasksWith, List.mem_map, List.mem_filter]
  exact ⟨fun ⟨u, ⟨hu, hf⟩, hk⟩ => ⟨u, hu, hf, hk⟩, fun ⟨u, hu, hf, hk⟩ => ⟨u, ⟨hu, hf⟩, hk⟩⟩

theorem neededBy_of_mem (s : State) (l : List Nat) (v k : Nat) (hv : v ∈ l) (needs : s.neededBy [v] k = true) : s.neededBy l k = true := by
  rw [State.neededBy, List.any_eq_true] at needs ⊢
  obtain ⟨w, hw, need⟩ := needs
  exact ⟨w, List.mem_singleton.1 hw ▸ hv, need⟩

/-- What a list of tasks needs holds the tasks of the list. -/
theorem mem_needs (s : State) (n : Nat) (l : List Nat) (u : Nat × Task) (hu : u ∈ s.tasks) (hl : u.1 ∈ l) : u.1 ∈ s.needs n l := by
  induction n generalizing l with
  | zero => exact hl
  | succ n ih => exact ih _ ((mem_tasksWith _ _ _).2 ⟨u, hu, by simp [hl], rfl⟩)

/-- It holds what a task of the list needs at once. -/
theorem mem_needs_of_neededBy (s : State) (l : List Nat) (u : Nat × Task) (hu : u ∈ s.tasks) (needs : s.neededBy l u.1 = true) :
    u.1 ∈ s.needs s.tasks.length l := by
  obtain ⟨n, count⟩ := Nat.exists_eq_succ_of_ne_zero (List.length_pos_of_mem hu).ne'
  rw [count, State.needs]
  exact mem_needs s n _ u hu ((mem_tasksWith _ _ _).2 ⟨u, hu, by simp [needs], rfl⟩)

theorem claimWaitEnds_hold : ClaimWaitEnds := by
  intro s i cell w waits
  refine ⟨fun timed late => ⟨s.endWait i cell .claimTimeout, ?_, willTrap_endWait s i cell _⟩, fun e u entry hu need keeps =>
    ⟨s.endWait i cell .claimSelf, ?_, willTrap_endWait s i cell _⟩⟩
  · show execClaimTimeout i s = _
    simp only [execClaimTimeout, waits]
    rw [if_pos ⟨timed, late⟩]
  · have reached : u.1 ∈ s.needs s.tasks.length (s.tasksWith fun k _ => s.inTree e.evaluator k) := by
      rcases need with tree | ⟨v, hv, tree, need⟩
      · exact mem_needs s _ _ u hu ((mem_tasksWith _ _ _).2 ⟨u, hu, tree, rfl⟩)
      · exact mem_needs_of_neededBy s _ u hu (neededBy_of_mem s _ v.1 u.1 ((mem_tasksWith _ _ _).2 ⟨v, hv, tree, rfl⟩) need)
    show execClaimSelfDetect i s = _
    simp only [execClaimSelfDetect, waits, entry]
    rw [if_pos (List.any_eq_true.2 ⟨u.1, reached, keeps⟩)]

/-- Settles O37: the first touch and the waiters by the entry of the cell, the ends of waits by the needs of the evaluator's tree. -/
theorem claimEvents : Obligations.ClaimEvents := ⟨claimEvents_hold, claimWaitEnds_hold⟩

end Sys2Proof.Machine
end

section
/-! SUPPORT. Records that die 0 takes, and the starts and ends of launches (R110, R145, R154, R173, R368, R370, R376, R378). -/

set_option Elab.async false

namespace Sys2Proof.Machine

open Stated

/-! ### Properties along a list -/

/-- What a step establishes and no step undoes holds after a list of steps. -/
theorem foldl_reaches {σ α : Type} (P : σ → Prop) (f : σ → α → σ) (a : α) (keeps : ∀ s b, P s → P (f s b)) (makes : ∀ s, P (f s a))
    (l : List α) (s : σ) (ha : a ∈ l) : P (l.foldl f s) := by
  have later (l : List α) (s : σ) (h : P s) : P (l.foldl f s) := by
    induction l generalizing s with
    | nil => exact h
    | cons b l ih => exact ih _ (keeps s b h)
  obtain ⟨before, after, rfl⟩ := List.append_of_mem ha
  rw [List.foldl_append]
  exact later after _ (makes _)

/-- What holds of every entry of a table and of its default holds of each reading. -/
theorem smGet_all {α : Type} (P : α → Prop) (d : α) (m : SMap α) (k : Nat) (default : P d) (entries : ∀ e ∈ m, P e.2) : P (smGet d m k) := by
  induction m with
  | nil => exact default
  | cons e m ih =>
    obtain ⟨j, v⟩ := e
    unfold smGet
    split
    · exact entries (j, v) List.mem_cons_self
    · exact ih fun e he => entries e (List.mem_cons_of_mem _ he)

/-- What every log entry keeps, the notes of lost areas keep. -/
theorem noteAreas_keeps {α : Type} (f : State → α) (hf : ∀ s e, f (State.logEvent s e) = f s) (s t : State) : f (s.noteAreas t) = f t :=
  foldl_keeps f s.noteLost (fun u d => by simp only [State.noteLost, noteArea_keeps f hf]) _ _

theorem logEvent_scan (s : State) (e : LogEvent) : (s.logEvent e).host.scan = s.host.scan := by
  obtain ⟨l, v, logged⟩ := s.logEvent_eq e
  rw [logged]
  rfl

/-! ### Records (R368, R370, R376) -/

theorem acceptLaunch_keeps {α : Type} (p : State → α) (hgang : ∀ s g, p { s with gangs := g } = p s) (hlaunch : ∀ s n l, p (s.setLaunch n l) = p s)
    (htask : ∀ s i t, p (s.setTask i t) = p s) (s : State) (r q : Nat) : p (s.acceptLaunch r q) = p s := by
  unfold State.acceptLaunch
  extract_lets n base l cs u v
  have gang : p u = p s := by
    simp only [u]
    split
    · exact hgang _ _
    · rfl
  exact ((foldl_keeps p _ (fun _ _ => htask _ _ _) _ _).trans (hlaunch u n l)).trans gang

/-- The launch of a record that is accepted. -/
theorem acceptLaunch_launch (s : State) (r q : Nat) : (s.acceptLaunch r q).launch s.freshLaunch = s.launchOf r q s.freshTask := by
  unfold State.acceptLaunch
  extract_lets n base l cs u v
  have launches := foldl_keeps (fun t : State => t.launch n) (fun s i => s.setTask (base + i)
    (s.newTask n (i * 2 ^ 40) (staticCore l cs i).1 (staticCore l cs i).2 (s.staticEntry r i) i [] 0)) (fun _ _ => rfl) (List.range (recTasks r)) v
  exact launches.trans (smGet_smPut_same _ _ _ _)

/-- A record that passes the checks gives the machine with its launch. -/
theorem submit_ok (s u : State) (r q : Nat) (h : s.submit r q = .ok u) : u = s.acceptLaunch r q := by
  unfold State.submit at h
  split at h
  · cases h
  split at h
  · cases h
  split at h
  · cases h
  split at h
  · cases h
  split at h
  · cases h
  dsimp only at h
  split at h
  · exact (Except.ok.inj h).symm
  · cases h

/-- The record at the head of queue q is passed and the scan goes on to the next queue. -/
def State.passRecord (s : State) (q : Nat) : State :=
  { (s.modQueue q fun x => { x with qhead := (x.qhead + 1) % 2 ^ 32 }) with host :=
    { (s.modQueue q fun x => { x with qhead := (x.qhead + 1) % 2 ^ 32 }).host with scan := (q + 1) % 8 } }

theorem queue_passRecord (s : State) (q : Nat) : (s.passRecord q).queue q = { s.queue q with qhead := ((s.queue q).qhead + 1) % 2 ^ 32 } :=
  State.queue_modQueue_same s q fun x => { x with qhead := (x.qhead + 1) % 2 ^ 32 }

theorem takeFrom_accepts (s u : State) (q r : Nat) (sound : s.poisoned (s.recordAddr q) 256 = false) (word : s.bytes (s.recordAddr q) 256 = r)
    (ok : s.submit r q = .ok u) (room : s.dieFull (field r 863 856) = false) : s.takeFrom q = some (s.noteAreas (u.passRecord q)) := by
  unfold State.takeFrom
  extract_lets a bad rec take
  have same : rec = r := by simp only [rec, bad, a, sound, word, Bool.false_eq_true, if_false]
  have pass (u : State) : take u = u.passRecord q := rfl
  clear_value rec take
  subst same
  rw [ok]
  dsimp only
  rw [room, pass]
  exact if_neg Bool.false_ne_true

/-- The completion of a record that is refused. -/
def refusal (s : State) (r : Nat) (st : LStat) : BitVec 512 :=
  ({ tag := BitVec.ofNat 64 r, dies := field r 863 856 } : Launch).completion 0 st 0 (s.time 0) 0xFFFF

theorem takeFrom_refuses (s : State) (q r : Nat) (st : LStat) (sound : s.poisoned (s.recordAddr q) 256 = false)
    (word : s.bytes (s.recordAddr q) 256 = r) (bad : s.submit r q = .error st) :
    s.takeFrom q = some ((s.passRecord q).postCompletion q (refusal s r st)) := by
  unfold State.takeFrom
  extract_lets a poison rec take
  have same : rec = r := by simp only [rec, poison, a, sound, word, Bool.false_eq_true, if_false]
  have pass (u : State) : take u = u.passRecord q := rfl
  clear_value rec take
  subst same
  rw [bad]
  dsimp only
  rw [pass, refusal]

/-- The scan takes the record of the queue that it has reached. -/
theorem recordTake_takes (s t : State) (up : s.moduleDown = false) (quiet : ∀ x ∈ s.host.bar2, x.isWrite = false)
    (offers : (s.queue s.host.scan).offers = true) (taken : s.takeFrom s.host.scan = some t) : exec .recordTake s = .next t := by
  have none_ : s.host.bar2.any (·.isWrite) = false := List.any_eq_false.2 fun x hx => by simp [quiet x hx]
  show execRecordTake s = _
  simp only [execRecordTake, up, none_, Bool.false_eq_true, or_self, if_false, State.scanQueues, offers, if_true, taken]

/-- A completion of a queue with an empty list and a free place is in its ring at once. -/
theorem postCompletion_written (s : State) (q : Nat) (c : BitVec 512) (empty : (s.queue q).waiting = [])
    (room : (s.queue q).unread < ringRecords (s.queue q).csize) :
    s.postCompletion q c
      = ((s.modQueue q fun x => { x with waiting := x.waiting ++ [c] }).modQueue q fun x => { x with waiting := [] }).ringWrite q c := by
  have waiting : ((s.modQueue q fun x => { x with waiting := x.waiting ++ [c] }).queue q) = { s.queue q with waiting := [c] } := by
    rw [State.queue_modQueue_same, empty]
    rfl
  have space : ({ s.queue q with waiting := [c] } : Queue).unread < ringRecords (s.queue q).csize := room
  simp only [State.postCompletion, waiting, List.length_singleton, State.flushRing, if_pos space]

/-- t is s but for the host link. -/
def HostOnly (s t : State) : Prop := t = { s with host := t.host }

theorem HostOnly.trans {s t u : State} (first : HostOnly s t) (then_ : HostOnly t u) : HostOnly s u :=
  Eq.trans then_ (congrArg (fun x : State => { x with host := u.host }) first)

theorem hostOnly_modQueue (s : State) (q : Nat) (f : Queue → Queue) : HostOnly s (s.modQueue q f) := rfl

theorem hostOnly_ringWrite (s : State) (q : Nat) (c : BitVec 512) : HostOnly s (s.ringWrite q c) := rfl

theorem hostOnly_flushRing (s : State) (q n : Nat) : HostOnly s (s.flushRing q n) := by
  induction n generalizing s with
  | zero => rfl
  | succ n ih =>
    rw [State.flushRing]
    split
    next c l _ =>
      split
      · exact (hostOnly_modQueue s q _).trans ((hostOnly_ringWrite _ q c).trans (ih _))
      · rfl
    next => rfl

/-- Completions reach the host and leave the machine. -/
theorem postCompletion_eq (s : State) (q : Nat) (c : BitVec 512) : s.postCompletion q c = { s with host := (s.postCompletion q c).host } :=
  (hostOnly_modQueue s q _).trans (hostOnly_flushRing _ q _)

theorem queue_ringWrite (s : State) (q : Nat) (c : BitVec 512) :
    (s.ringWrite q c).queue q = { s.queue q with ctail := ((s.queue q).ctail + 1) % 2 ^ 32 } :=
  State.queue_modQueue_same _ q fun x => { x with ctail := (x.ctail + 1) % 2 ^ 32 }

theorem recordsTaken_hold : RecordsTaken := by
  intro s up quiet _ offers sound q r
  have word : s.bytes (s.recordAddr q) 256 = r := rfl
  clear_value r
  refine ⟨fun u ok room => ?_, fun st bad empty room => ?_⟩
  · have accepted := submit_ok s u r q ok
    subst accepted
    have host := acceptLaunch_keeps (·.host) (fun _ _ => rfl) (fun _ _ _ => rfl) (fun _ _ _ => rfl) s r q
    have mem := acceptLaunch_keeps (·.mem) (fun _ _ => rfl) (fun _ _ _ => rfl) (fun _ _ _ => rfl) s r q
    have launch := acceptLaunch_launch s r q
    generalize s.acceptLaunch r q = u at ok host mem launch ⊢
    have queue : u.queue q = s.queue q := congrArg (fun h : HostIf => h.queue q) host
    have launches : (s.noteAreas (u.passRecord q)).launches = u.launches := noteAreas_keeps (·.launches) (fun _ _ => by simp) s (u.passRecord q)
    have same : (s.noteAreas (u.passRecord q)).launch s.freshLaunch = s.launchOf r q s.freshTask :=
      (congrArg (fun l : SMap Launch => smGet ({} : Launch) l s.freshLaunch) launches).trans launch
    refine ⟨_, recordTake_takes s _ up quiet offers (takeFrom_accepts s u q r sound word ok room), ?_, ?_, launches, ?_, ?_, ?_, ?_, ?_⟩
    · rw [noteAreas_keeps (fun t => t.queue q) (fun _ _ => by simp), queue_passRecord, queue]
    · exact noteAreas_keeps (·.host.scan) logEvent_scan s (u.passRecord q)
    · exact noteAreas_keeps (·.tasks) (fun _ _ => by simp) s (u.passRecord q)
    · exact (noteAreas_mem s (u.passRecord q)).trans mem
    all_goals rw [same]; rfl
  · have head := queue_passRecord s q
    have posted := postCompletion_written (s.passRecord q) q (refusal s r st) (by rw [head]; exact empty) (by rw [head]; exact room)
    have keeps := postCompletion_eq (s.passRecord q) q (refusal s r st)
    have queue : ((s.passRecord q).postCompletion q (refusal s r st)).queue q
        = { s.queue q with qhead := ((s.queue q).qhead + 1) % 2 ^ 32, ctail := ((s.queue q).ctail + 1) % 2 ^ 32, waiting := [] } := by
      rw [posted, queue_ringWrite, State.queue_modQueue_same, State.queue_modQueue_same, head]
    refine ⟨_, recordTake_takes s _ up quiet offers (takeFrom_refuses s q r st sound word bad), by rw [queue], by rw [queue], ?_, ?_, ?_, ?_⟩
    · rw [keeps]; rfl
    · rw [keeps]; rfl
    · rw [keeps]; rfl
    · rw [posted]; rfl

/-! ### The start of a launch (R370) -/

theorem fillTable_keeps {α : Type} (p : State → α) (h : ∀ s i f, p (State.modTask s i f) = p s) (s : State) (d n : Nat) : p (s.fillTable d n) = p s := by
  induction n generalizing s with
  | zero => rfl
  | succ n ih =>
    rw [State.fillTable]
    split
    · split
      · rw [ih, h]
      · rfl
    · rfl

theorem gangReady_eq (s : State) (l : Launch) : s.gangReady l = { s with gangs := (s.gangReady l).gangs } := by
  unfold State.gangReady
  split <;> rfl

/-- What carve-outs, RDCs and caches do not hold stays when a die is invalidated. -/
theorem invalidateDie_keeps {α : Type} (p : State → α) (hcore : ∀ s d c, p (State.dropCarve s d c) = p s) (hdie : ∀ s d, p (State.dropRdc s d) = p s)
    (s : State) (d : Nat) : p (s.invalidateDie d) = p s :=
  (foldl_keeps p _ (fun _ _ => hcore _ _ _) _ _).trans (hdie s d)

/-- The RDC of an invalidated die is empty. -/
theorem invalidateDie_rdc (s : State) (d : Nat) : ((s.invalidateDie d).die d).rdc = [] := by
  rw [State.invalidateDie, foldl_keeps (fun t : State => (t.die d).rdc) (fun t c => t.dropCarve d c) fun _ _ => rfl, State.dropRdc, State.modDie, State.die_setDie_same]

theorem rdc_stays_empty (s : State) (d d' : Nat) (empty : (s.die d).rdc = []) : ((s.invalidateDie d').die d).rdc = [] := by
  rw [State.invalidateDie, foldl_keeps (fun t : State => (t.die d).rdc) (fun t c => t.dropCarve d' c) fun _ _ => rfl, State.dropRdc, State.modDie]
  by_cases same : d = d'
  · rw [same, State.die_setDie_same]
  · rw [State.die_setDie_other _ _ _ _ same, empty]

theorem cache_stays_empty (s : State) (d c d' c' : Nat) (empty : (s.core d c).cache = []) : ((s.dropCarve d' c').core d c).cache = [] := by
  rw [State.dropCarve, core_modCore_key]
  split
  · rfl
  · exact empty

/-- The cache of each carve-out of an invalidated die is empty. -/
theorem invalidateDie_cache (s : State) (d c : Nat) (hc : c < 16) : ((s.invalidateDie d).core d c).cache = [] :=
  foldl_reaches (fun t : State => (t.core d c).cache = []) _ c (fun t b h => cache_stays_empty t d c d b h)
    (fun t => by rw [State.dropCarve, State.core_modCore_same]) _ _ (List.mem_range.2 hc)

theorem invalidateDie_cache_stays (s : State) (d c d' : Nat) (empty : (s.core d c).cache = []) : ((s.invalidateDie d').core d c).cache = [] := by
  have later (l : List Nat) (t : State) (h : (t.core d c).cache = []) : ((l.foldl (fun t c' => t.dropCarve d' c') t).core d c).cache = [] := by
    induction l generalizing t with
    | nil => exact h
    | cons b l ih => exact ih _ (cache_stays_empty t d c d' b h)
  exact later _ _ empty

theorem flag_eq_testBit (x k : Nat) : flag x k = x.testBit k := by
  rw [Nat.testBit_eq_decide_div_mod_eq]
  rfl

/-- A die of a mask is a die of each mask that is added to it. -/
theorem mem_diesOf_foldl (l : List Nat) (f : Nat → Nat) (m d : Nat) (h : d ∈ diesOf m) : d ∈ diesOf (l.foldl (fun m n => m ||| f n) m) := by
  induction l generalizing m with
  | nil => exact h
  | cons n l ih => exact ih _ (mem_diesOf_or m (f n) d h)
where
  mem_diesOf_or (m k d : Nat) (h : d ∈ diesOf m) : d ∈ diesOf (m ||| k) := by
    rw [diesOf, List.mem_filter] at h ⊢
    obtain ⟨small, bit⟩ := h
    rw [flag_eq_testBit] at bit ⊢
    exact ⟨small, by rw [Nat.testBit_or, bit, Bool.true_or]⟩

/-- The machine with the caches of a launch's dies, and of those of its boundary, empty and the launch started. -/
def State.startOf (s : State) (n : Nat) : State :=
  let l := s.launch n
  let mask := l.after.foldl (fun m n => m ||| (s.launch n).dies) (l.dies ||| l.priorDies)
  ((diesOf mask).foldl State.invalidateDie s).modLaunch n fun l => { l with started := true }

theorem launchStart_starts (s : State) (n : Nat) (alive : (s.launch n).alive = true) (waiting : (s.launch n).started = false)
    (kept : (s.launch n).retired = false) (gang : (s.launch n).gangFail = false) (passed : ∀ k ∈ (s.launch n).after, s.boundaryPassed k = true) :
    exec (.launchStart n) s = .next ((diesOf (s.launch n).dies).foldl State.fillDie ((s.startOf n).gangReady (s.launch n))) := by
  have boundaries : (s.launch n).after.all s.boundaryPassed = true := List.all_eq_true.2 passed
  show execLaunchStart n s = _
  simp only [execLaunchStart, alive, waiting, kept, gang, boundaries, Bool.not_true, Bool.false_eq_true, or_self, if_false]
  rfl

/-- The tasks that enter the tables change neither launches, caches, RDCs nor memory. -/
theorem started_keeps {α : Type} (p : State → α) (htask : ∀ s i f, p (State.modTask s i f) = p s) (hgang : ∀ s g, p { s with gangs := g } = p s)
    (s : State) (l : Launch) (ds : List Nat) : p (ds.foldl State.fillDie (s.gangReady l)) = p s := by
  rw [foldl_keeps p State.fillDie fun t d => fillTable_keeps p htask t d tableSize, gangReady_eq, hgang]

theorem startOf_launch (s : State) (n : Nat) : ((s.startOf n).launch n).started = true := by
  rw [State.startOf, State.modLaunch, State.launch_setLaunch_same]

theorem startOf_mem (s : State) (n : Nat) : (s.startOf n).mem = s.mem := by
  exact foldl_keeps (fun t : State => t.mem) _ (fun t d => invalidateDie_keeps (·.mem) (fun _ _ _ => rfl) (fun _ _ => rfl) t d) _ _

theorem mem_startDies (s : State) (l : Launch) (d : Nat) (h : d ∈ diesOf l.dies) :
    d ∈ diesOf (l.after.foldl (fun m n => m ||| (s.launch n).dies) (l.dies ||| l.priorDies)) :=
  mem_diesOf_foldl l.after (fun n => (s.launch n).dies) _ d (mem_diesOf_foldl.mem_diesOf_or _ _ d h)

theorem startOf_rdc (s : State) (n d : Nat) (h : d ∈ diesOf (s.launch n).dies) : ((s.startOf n).die d).rdc = [] :=
  foldl_reaches (fun t : State => (t.die d).rdc = []) State.invalidateDie d (fun t b empty => rdc_stays_empty t d b empty) (fun t => invalidateDie_rdc t d)
    _ s (mem_startDies s _ d h)

theorem startOf_cache (s : State) (n d c : Nat) (h : d ∈ diesOf (s.launch n).dies) (hc : c < 16) : ((s.startOf n).core d c).cache = [] :=
  foldl_reaches (fun t : State => (t.core d c).cache = []) State.invalidateDie d (fun t b empty => invalidateDie_cache_stays t d c b empty)
    (fun t => invalidateDie_cache t d c hc) _ s (mem_startDies s _ d h)

/-! ### The end of a launch (R110, R154, R173, R378) -/

theorem mergeTile_launches (s : State) (launch seg tile frame : Nat) : (s.mergeTile launch seg tile frame).launches = s.launches := by
  refine foldl_keeps (fun t : State => t.launches) _ (fun t k => ?_) _ _
  split
  next pa _ =>
    show (t.putOutside pa _ (t.bytes (frame + k * _) _)).launches = t.launches
    rw [putOutside_frame]
  next => rfl

/-- Merging the tiles of a launch changes of it its versions and pools. -/
theorem mergeTiles_launch (s : State) (n : Nat) :
    (s.mergeTiles n).launch n = { s.launch n with versions := [], pools := ((s.mergeTiles n).launch n).pools } := by
  have kept := foldl_keeps (fun t : State => t.launches) (fun (t : State) (v : Nat × Nat × Nat × Nat) => t.mergeTile n v.1 v.2.1 v.2.2.1)
    (fun t v => mergeTile_launches t n v.1 v.2.1 v.2.2.1) (s.launch n).versions s
  have same : ((s.launch n).versions.foldl (fun (t : State) v => t.mergeTile n v.1 v.2.1 v.2.2.1) s).launch n = s.launch n :=
    congrArg (fun l : SMap Launch => smGet ({} : Launch) l n) kept
  rw [State.mergeTiles, State.modLaunch, State.launch_setLaunch_same, same]

theorem complete_launch (s : State) (n kind k : Nat) : (s.complete n kind).launch k = s.launch k := by
  rw [State.complete, postCompletion_eq]
  rfl

/-- A launch that has ended owns no barrier, relay entry or queue of a core. -/
theorem release_owns_none (x : Core) (n k : Nat) :
    ((x.release n).cb k).owner ≠ some n ∧ ((x.release n).relay k).owner ≠ some n ∧ ((x.release n).rq k).owner ≠ some n := by
  refine ⟨smGet_all (fun e : CB => e.owner ≠ some n) _ _ _ (by simp) fun e he => ?_, smGet_all (fun e : Relay => e.owner ≠ some n) _ _ _ (by simp) fun e he => ?_,
    smGet_all (fun e : RQ => e.owner ≠ some n) _ _ _ (by simp) fun e he => ?_⟩
  all_goals
    obtain ⟨e0, -, rfl⟩ := List.mem_map.1 he
    split
    · simp
    · assumption

theorem endLaunch_owns_none (s : State) (n kind d c k : Nat) : (((s.endLaunch n kind).core d c).cb k).owner ≠ some n
    ∧ (((s.endLaunch n kind).core d c).relay k).owner ≠ some n ∧ (((s.endLaunch n kind).core d c).rq k).owner ≠ some n := by
  have released : (s.endLaunch n kind).core d c = (((s.mergeTiles n).complete n kind).core d c).release n :=
    smGet_map (fun x : Core => x.release n) {} _ _
  rw [released]
  exact release_owns_none _ n k

theorem endLaunch_launch (s : State) (n kind : Nat) :
    (s.endLaunch n kind).launch n = { ((s.mergeTiles n).complete n kind).launch n with ended := true, held := false } :=
  smGet_smPut_same _ _ _ _

theorem launchCompletion_ends (s : State) (n : Nat) (alive : (s.launch n).alive = true) (started : (s.launch n).started = true)
    (settled : s.gangSettled (s.launch n) = true) (own : s.quiet n false = true) (all : s.quiet n true = true) (none_ : s.stakesOf n = []) :
    exec (.launchCompletion n) s = .next (s.endLaunch n (if (s.launch n).held then 2 else 0)) := by
  show execLaunchCompletion n s = _
  simp only [execLaunchCompletion, alive, started, settled, own, all, none_, Bool.not_true, Bool.false_eq_true, true_or, decide_true, or_self,
    if_false, List.isEmpty_nil, if_true]

theorem launchCompletion_holds (s : State) (n : Nat) (alive : (s.launch n).alive = true) (started : (s.launch n).started = true)
    (settled : s.gangSettled (s.launch n) = true) (own : s.quiet n false = true) (stakes : s.stakesOf n ≠ []) (kept : (s.launch n).retired = false)
    (free : (s.launch n).held = false) (room : ∀ d ∈ diesOf (s.launch n).dies, s.heldOn d < 64) :
    exec (.launchCompletion n) s = .next (((s.mergeTiles n).modLaunch n fun l => { l with held := true }).complete n 1) := by
  have some_ : (s.stakesOf n).isEmpty = false := by simpa using stakes
  have space : ((diesOf (s.launch n).dies).all fun d => decide (s.heldOn d < 64)) = true := List.all_eq_true.2 fun d hd => decide_eq_true (room d hd)
  show execLaunchCompletion n s = _
  simp only [execLaunchCompletion, alive, started, settled, own, some_, kept, free, space, Bool.not_true, Bool.false_eq_true, true_or, decide_true,
    or_self, if_false, if_true]

theorem launchEvents_hold : LaunchEvents := by
  intro s n accepted running
  have alive : (s.launch n).alive = true := by simp [Launch.alive, accepted, running]
  refine ⟨fun waiting kept gang passed => ?_, fun started settled own all none_ => ?_, fun started settled own stakes kept free room => ?_⟩
  · have after {α : Type} (p : State → α) (htask : ∀ s i f, p (State.modTask s i f) = p s) (hgang : ∀ s g, p { s with gangs := g } = p s) :=
      started_keeps p htask hgang (s.startOf n) (s.launch n) (diesOf (s.launch n).dies)
    refine ⟨_, launchStart_starts s n alive waiting kept gang passed, ?_, ?_, fun d hd => ?_, fun d hd c hc => ?_⟩
    · exact (after (fun t => (t.launch n).started) (fun _ _ _ => rfl) fun _ _ => rfl).trans (startOf_launch s n)
    · exact (after (·.mem) (fun _ _ _ => rfl) fun _ _ => rfl).trans (startOf_mem s n)
    · exact (after (fun t => (t.die d).rdc) (fun _ _ _ => rfl) fun _ _ => rfl).trans (startOf_rdc s n d hd)
    · exact (after (fun t => (t.core d c).cache) (fun _ _ _ => rfl) fun _ _ => rfl).trans (startOf_cache s n d c hd hc)
  · refine ⟨_, launchCompletion_ends s n alive started settled own all none_, ?_, ?_, fun d c k => endLaunch_owns_none s n _ d c k⟩
    all_goals rw [endLaunch_launch]
  · have held : (((s.mergeTiles n).modLaunch n fun l => { l with held := true }).complete n 1).launch n = { (s.mergeTiles n).launch n with held := true } := by
      rw [complete_launch, State.modLaunch, State.launch_setLaunch_same]
    refine ⟨_, launchCompletion_holds s n alive started settled own stakes kept free room, by rw [held], ?_⟩
    rw [held, mergeTiles_launch]
    exact running

end Sys2Proof.Machine

namespace Sys2Proof

/-- Settles O41: the scan takes a record as its checks answer, and a launch starts, ends or is held by what each step of it keeps. -/
theorem launchEvents : Obligations.LaunchEvents := ⟨Machine.recordsTaken_hold, Machine.launchEvents_hold⟩

end Sys2Proof
end

section
/-! SUPPORT. What homes perform: stores, loads, atomics and deterministic updates (R105, R122, R123, R125, R142, R242, R360, R361, R418). -/

set_option Elab.async false

namespace Sys2Proof.Machine

open Stated

/-! ### Stores (R105, R116, R122) -/

theorem clearTags_frame (s : State) (pa n : Nat) : s.clearTags pa n
    = { s with tasks := (s.clearTags pa n).tasks, dies := (s.clearTags pa n).dies, tags := (s.clearTags pa n).tags } := by
  have erase := foldl_keeps (fun t : State => { t with tasks := [], dies := [], tags := [] })
    (fun (t : State) l => if t.tag l = .value then t else (t.setTag l .value).freeClaim l) (fun t l => by
      split
      · rfl
      · rw [freeClaim_frame]; rfl) (wholeLines pa n) s
  exact congrArg (fun t : State => { t with tasks := (s.clearTags pa n).tasks, dies := (s.clearTags pa n).dies, tags := (s.clearTags pa n).tags }) erase

/-- Clearing tags changes of a task its level alone. -/
theorem clearTags_task (s : State) (pa n i : Nat) : (s.clearTags pa n).task i = { s.task i with level := ((s.clearTags pa n).task i).level } := by
  have erase := foldl_keeps (fun t : State => { t.task i with level := 0 })
    (fun (t : State) l => if t.tag l = .value then t else (t.setTag l .value).freeClaim l) (fun t l => by
      split
      · rfl
      · rw [freeClaim_task]; rfl) (wholeLines pa n) s
  exact congrArg (fun t : Task => { t with level := ((s.clearTags pa n).task i).level }) erase

/-- A store in memory, before the tags of its lines change. -/
def State.stored (s : State) (x : Store) : State :=
  { s.putOutside x.pa x.len x.data with dirty := if x.hint = .none then (s.putBytes x.pa x.len x.data).dirty else s.dirty }

theorem performStore_eq (s : State) (x : Store) : s.performStore x = if x.claimSeg then s.stored x else (s.stored x).clearTags x.pa x.len := rfl

theorem stored_frame (s : State) (x : Store) : s.stored x = { s with
    mem := memWrite s.mem x.pa x.len x.data, tasks := (s.stored x).tasks, poison := (s.stored x).poison, dirty := (s.stored x).dirty } :=
  congrArg (fun t : State => { t with dirty := (s.stored x).dirty }) (putOutside_frame s x.pa x.len x.data)

theorem performStore_mem (s : State) (x : Store) : (s.performStore x).mem = memWrite s.mem x.pa x.len x.data := by
  have put : (s.stored x).mem = memWrite s.mem x.pa x.len x.data := by rw [stored_frame]
  rw [performStore_eq]
  split
  · exact put
  · rw [clearTags_frame, ← put]

theorem performStore_stores (s : State) (x : Store) : (s.performStore x).stores = s.stores := by
  have put : (s.stored x).stores = s.stores := by rw [stored_frame]
  rw [performStore_eq]
  split
  · exact put
  · rw [clearTags_frame, ← put]

/-- A store changes of a task its saved rows, and its level where it evaluates a cell of the line. -/
theorem performStore_task (s : State) (x : Store) (i : Nat) : let t := (s.performStore x).task i
    t = { s.task i with shadow := t.shadow, shadowBad := t.shadowBad, level := t.level } := by
  have put : (s.stored x).task i = { s.task i with shadow := ((s.stored x).task i).shadow, shadowBad := ((s.stored x).task i).shadowBad } :=
    putOutside_task s x.pa x.len x.data i
  have clear := clearTags_task (s.stored x) x.pa x.len i
  rw [performStore_eq]
  split
  · exact put.trans (by rw [put])
  · rw [put] at clear
    exact clear.trans (by rw [clear])

theorem bytesAre_memWrite (s t : State) (pa n v : Nat) (h : t.mem = memWrite s.mem pa n v) : BytesAre s t pa n v := by
  intro a
  rw [h, memByte_memWrite]

theorem storePerform_performs (s : State) (n : Nat) (x : Store) (store : s.stores[n]? = some x) (ready : s.storeReady n x = true)
    (kept : s.gangDrops x.launch x.die x.pa = false) :
    exec (.storePerform n) s = .next (State.performStore { s with stores := dropAt s.stores n } x) := by
  have stays : State.gangDrops { s with stores := dropAt s.stores n } x.launch x.die x.pa = false := kept
  show execStorePerform n s = _
  simp only [execStorePerform, store, ready, stays, Bool.not_true, Bool.false_eq_true, if_false]

theorem storePerform_drops (s : State) (n : Nat) (x : Store) (store : s.stores[n]? = some x) (ready : s.storeReady n x = true)
    (dropped : s.gangDrops x.launch x.die x.pa = true) : exec (.storePerform n) s = .next { s with stores := dropAt s.stores n } := by
  have gone : State.gangDrops { s with stores := dropAt s.stores n } x.launch x.die x.pa = true := dropped
  show execStorePerform n s = _
  simp only [execStorePerform, store, ready, gone, Bool.not_true, Bool.false_eq_true, if_false, if_true]

/-! ### Loads (R29, R123) -/

theorem memRead_add (m : Mem) (hm : Mem.wf m = true) (a n k : Nat) : memRead m a (n + k) = memRead m a n + memRead m (a + n) k * 2 ^ (8 * n) := by
  induction n generalizing a with
  | zero =>
    have none_ : memRead m a 0 = 0 := by have := memRead_lt m hm a 0; omega
    rw [none_]
    simp
  | succ n ih =>
    have order : n + 1 + k = n + k + 1 := by omega
    have next : a + 1 + n = a + (n + 1) := by omega
    rw [order, memRead_succ m a (n + k) hm, ih, memRead_succ m a n hm, next, Nat.mul_succ, pow_add]
    ring

/-- The lines from an address, read one after another. -/
theorem memRead_lines (m : Mem) (hm : Mem.wf m = true) (base c : Nat) :
    (((List.range c).map fun k => base + 64 * k).map fun l => memRead m l 64).foldr (fun x acc => x + acc * 2 ^ 512) 0 = memRead m base (64 * c) := by
  induction c generalizing base with
  | zero =>
    have := memRead_lt m hm base 0
    simp only [List.range_zero, List.map_nil, List.foldr_nil, Nat.mul_zero] at this ⊢
    omega
  | succ c ih =>
    have tail : ((List.range c).map ((fun k => base + 64 * k) ∘ Nat.succ)) = (List.range c).map fun k => base + 64 + 64 * k :=
      List.map_congr_left fun k _ => by simp only [Function.comp_apply]; omega
    have order : 64 * (c + 1) = 64 + 64 * c := by omega
    have bits : 8 * 64 = 512 := rfl
    rw [List.range_succ_eq_map, List.map_cons, List.map_map, tail, List.map_cons, List.foldr_cons, ih (base + 64), order, memRead_add m hm, bits,
      Nat.mul_zero, Nat.add_zero]

/-- A load that no cache may serve reads its bytes from memory. -/
theorem fetch_uncached (s : State) (hm : Mem.wf s.mem = true) (d c pa n : Nat) (hint : Hint) : (s.fetch d c pa n hint false).2 = memRead s.mem pa n := by
  have line (l : Nat) : s.lineFor d c l hint false = memRead s.mem l 64 := by simp [State.lineFor, State.copyFor, State.cachedPath]
  have lines : (((linesOf pa n).map fun l => (l, s.lineFor d c l hint false)).foldr (fun x acc => x.2 + acc * 2 ^ 512) 0)
      = memRead s.mem (lineOf pa) (64 * ((pa + n + 63) / 64 - pa / 64)) := by
    rw [← memRead_lines s.mem hm, linesOf, List.foldr_map, List.foldr_map, List.foldr_map, List.foldr_map]
    simp only [line]
  show _ / 2 ^ (8 * (pa - lineOf pa)) % 2 ^ (8 * n) = _
  rw [lines]
  refine eq_of_byteAt n _ _ (Nat.mod_lt _ (Nat.two_pow_pos _)) (memRead_lt _ hm _ _) fun k hk => ?_
  have start : lineOf pa + (pa - lineOf pa + k) = pa + k := by simp only [lineOf]; omega
  rw [byteAt_mod _ n k hk, byteAt_shift, byteAt_memRead _ hm _ _ _ (by simp only [lineOf]; omega), byteAt_memRead _ hm _ _ _ hk, start]

/-- The state without its caches and the open values drawn for them. -/
def State.cacheless (s : State) : State := { s with cores := [], dies := [], freeCount := 0 }

theorem fetchLine_cacheless (s : State) (d c line : Nat) (hint : Hint) (cache : Bool) (v : Nat) :
    (s.fetchLine d c line hint cache v).cacheless = s.cacheless := by
  unfold State.fetchLine
  split
  · rfl
  · extract_lets pick co fill far u w full
    have remote : u.cacheless = s.cacheless := by
      simp only [u]
      split <;> rfl
    have near : w.cacheless = u.cacheless := by
      simp only [w]
      split <;> rfl
    clear_value w
    split
    · exact near.trans remote
    · exact near.trans remote

/-- A load changes caches alone. -/
theorem fetch_cacheless (s : State) (d c pa n : Nat) (hint : Hint) (cache : Bool) : (s.fetch d c pa n hint cache).1.cacheless = s.cacheless :=
  foldl_keeps State.cacheless _ (fun _ _ => fetchLine_cacheless _ _ _ _ _ _ _) _ _

/-- The state without load request n. -/
def State.dropLoad (s : State) (n : Nat) : State := { s with loads := dropAt s.loads n }

theorem loadServe_serves (s : State) (n : Nat) (r : LoadReq) (req : s.loads[n]? = some r)
    (free : s.loadStands r.die r.core r.pa r.len r.hint r.cache (some r.no) = false) :
    exec (.loadServe n) s = .next (if s.meetsPoison r.die r.core r.pa r.len r.hint r.cache then s.dropLoad n
      else ((s.dropLoad n).fetch r.die r.core r.pa r.len r.hint r.cache).1.replyTo r.task r.pa r.len
        ((s.dropLoad n).fetch r.die r.core r.pa r.len r.hint r.cache).2) := by
  have poison : (s.dropLoad n).meetsPoison r.die r.core r.pa r.len r.hint r.cache = s.meetsPoison r.die r.core r.pa r.len r.hint r.cache := rfl
  show execLoadServe n s = _
  simp only [execLoadServe, req, free, Bool.false_eq_true, if_false, State.dropLoad] at poison ⊢
  rw [poison]

theorem replyTo_reply (s : State) (i pa n v : Nat) : ((s.replyTo i pa n v).task i).reply = some (pa, n, v) := by
  rw [State.replyTo, State.task_modTask_same]

/-! ### Atomics (R142, R239) -/

/-- A bundle that waits with its home follows what the home has done. -/
theorem bundleFollows_withBundle (x : Instr) (s s0 s' : State) (i : Nat) (h : exec x s = .next (s.withBundle s0 s' i)) : BundleFollows x s s0 s' i := by
  refine ⟨fun u run => ?_, fun e run => ?_, fun run => ?_⟩
  all_goals rw [h, State.withBundle, run]

theorem amoApply_eq (op : AmoOp) (w old v : Nat) : amoApply op w old v = amoNew op w old (v % 2 ^ w) := by
  cases op with
  | minN => simp only [amoApply, amoNew]; split <;> omega
  | maxN => simp only [amoApply, amoNew]; split <;> omega
  | _ => rfl

theorem performAtomic_old (s : State) (d c pa : Nat) (k : AtomKind) : (s.performAtomic d c pa k).2 = memRead s.mem pa k.bytes := by
  simp only [State.performAtomic]
  split <;> rfl

theorem performAtomic_atomics (s : State) (d c pa : Nat) (k : AtomKind) : (s.performAtomic d c pa k).1.atomics = s.atomics := by
  simp only [State.performAtomic]
  split
  · show (s.putOutside pa k.bytes _).atomics = _
    rw [putOutside_frame]
  · rfl

theorem performAtomic_amo (s : State) (d c pa : Nat) (op : AmoOp) (w32 : Bool) (v : Word) : (s.performAtomic d c pa (.amo op w32 v)).1.mem
    = memWrite s.mem pa (if w32 then 4 else 8) (amoNew op (if w32 then 32 else 64) (memRead s.mem pa (if w32 then 4 else 8))
        (v.toNat % 2 ^ (if w32 then 32 else 64))) := by
  rw [← amoApply_eq]
  exact putOutside_mem _ _ _ _

/-- The state without atomic request n. -/
def State.dropAtomic (s : State) (n : Nat) : State := { s with atomics := dropAt s.atomics n }

/-- The state after request n has been performed at its home, which has replied. -/
def State.atomicDone (s : State) (n : Nat) (r : AtomReq) : State :=
  let p := (s.dropAtomic n).performAtomic (s.task r.task).die (s.task r.task).core r.pa r.kind
  p.1.replyTo r.task r.pa r.kind.bytes p.2

theorem atomicPerform_meets (s : State) (n : Nat) (r : AtomReq) (req : s.atomics[n]? = some r)
    (free : s.atomicWaits (s.task r.task).launch (s.task r.task).die (s.task r.task).core r.pa r.kind.bytes (some r.no) = false)
    (refused : s.poisoned r.pa r.kind.bytes = true ∨ (r.claim = true ∧ s.tag r.pa ≠ .value)) : exec (.atomicPerform n) s = .next (s.dropAtomic n) := by
  have bad : (s.poisoned r.pa r.kind.bytes || (r.claim && decide (s.tag r.pa ≠ .value))) = true := by simpa using refused
  show execAtomicPerform n s = _
  simp only [execAtomicPerform, req, free, bad, Bool.false_eq_true, if_false, if_true]
  rfl

theorem atomicPerform_performs (s : State) (n : Nat) (r : AtomReq) (req : s.atomics[n]? = some r)
    (free : s.atomicWaits (s.task r.task).launch (s.task r.task).die (s.task r.task).core r.pa r.kind.bytes (some r.no) = false)
    (sound : s.poisoned r.pa r.kind.bytes = false) (value : r.claim = true → s.tag r.pa = .value) :
    exec (.atomicPerform n) s = .next (s.withBundle (s.dropAtomic n) (s.atomicDone n r) r.task) := by
  have fine : (s.poisoned r.pa r.kind.bytes || (r.claim && decide (s.tag r.pa ≠ .value))) = false := by simpa [sound] using value
  show execAtomicPerform n s = _
  simp only [execAtomicPerform, req, free, fine, Bool.false_eq_true, if_false]
  rfl

theorem homeAccesses_hold : HomeAccesses := by
  intro s n wf
  have memWf : Mem.wf s.mem = true := (memWf_iff s).1 wf |>.1
  refine ⟨fun x store ready => ⟨fun kept => ?_, fun dropped => storePerform_drops s n x store ready dropped⟩, fun r req free => ⟨fun poison => ?_, fun sound => ?_⟩,
    fun r req free => ⟨fun refused => atomicPerform_meets s n r req free refused, fun sound value => ?_⟩⟩
  · exact ⟨_, storePerform_performs s n x store ready kept, performStore_stores _ x, bytesAre_memWrite _ _ _ _ _ (performStore_mem _ x),
      fun i => performStore_task { s with stores := dropAt s.stores n } x i⟩
  · rw [loadServe_serves s n r req free, poison]
    rfl
  · have bare := fetch_cacheless (s.dropLoad n) r.die r.core r.pa r.len r.hint r.cache
    have loads := congrArg State.loads bare
    have mem := congrArg State.mem bare
    have served := loadServe_serves s n r req free
    rw [sound, if_neg Bool.false_ne_true] at served
    refine ⟨_, _, served, loads, replyTo_reply _ _ _ _ _, mem, fun uncached => ?_⟩
    rw [uncached]
    exact fetch_uncached (s.dropLoad n) memWf _ _ _ _ _
  · have old := performAtomic_old (s.dropAtomic n) (s.task r.task).die (s.task r.task).core r.pa r.kind
    refine ⟨s.atomicDone n r, bundleFollows_withBundle _ _ _ _ _ (atomicPerform_performs s n r req free sound value), performAtomic_atomics _ _ _ _ _, ?_,
      fun op w32 v kind => ?_⟩
    · exact (replyTo_reply _ _ _ _ _).trans (by rw [old]; rfl)
    · have written := performAtomic_amo (s.dropAtomic n) (s.task r.task).die (s.task r.task).core r.pa op w32 v
      rw [← kind] at written
      rw [kind]
      exact bytesAre_memWrite _ _ _ _ _ written

/-! ### Deterministic updates (R242, R360, R361) -/

theorem writeRecord_updates (s : State) (launch k : Nat) : (s.writeRecord launch k).updates = s.updates
    ∧ (s.writeRecord launch k).famoSent = s.famoSent ∧ (s.writeRecord launch k).famoWait = s.famoWait := by
  unfold State.writeRecord
  rw [putOutside_frame]
  exact ⟨rfl, rfl, rfl⟩

/-- An update that is accepted joins the updates, in a buffer entry or in a record of the log region. -/
theorem acceptFamo_eq (s : State) (u : Update) :
    ∃ v, v = { u with spilled := v.spilled, place := v.place } ∧ (s.acceptFamo u).updates = s.updates ++ [v]
      ∧ (s.acceptFamo u).famoSent = s.famoSent ∧ (s.acceptFamo u).famoWait = s.famoWait := by
  unfold State.acceptFamo
  extract_lets held k
  split
  · exact ⟨{ u with spilled := false }, rfl, rfl, rfl, rfl⟩
  · obtain ⟨-, sent, waiting⟩ := writeRecord_updates s u.launch (s.freeRecord u.launch)
    exact ⟨{ u with spilled := true, place := s.freeRecord u.launch }, rfl, rfl, sent, waiting⟩

theorem famoRefused_false (s : State) (u : Update) (sound : s.poisoned u.pa ((famoFmt u.ty).width / 8) = false)
    (value : u.claim = true → s.tag u.pa = .value) : s.famoRefused u = false := by
  simpa [State.famoRefused, sound] using value

/-- The state without update n of those sent. -/
def State.dropSent (s : State) (n : Nat) : State := { s with famoSent := dropAt s.famoSent n }

/-- The state without update n of those that wait. -/
def State.dropWaiting (s : State) (n : Nat) : State := { s with famoWait := dropAt s.famoWait n }

theorem famoHold_arrives (s : State) (n : Nat) (u : Update) (sent : s.famoSent[n]? = some u)
    (free : s.atomicWaits u.launch (s.task u.task).die (s.task u.task).core u.pa ((famoFmt u.ty).width / 8) (some u.no) = false) :
    exec (.famoHold n) s = .next (if s.famoRefused u then s.dropSent n else if s.famoRoom u.pa u.launch then s.takeFamo (s.dropSent n) u
      else { s with famoSent := dropAt s.famoSent n, famoWait := s.famoWait ++ [u] }) := by
  show execFamoHold n s = _
  simp only [execFamoHold, sent, free, Bool.false_eq_true, if_false]
  rfl

theorem famoAccept_accepts (s : State) (n : Nat) (u : Update) (waits : s.famoWait[n]? = some u) (free : s.replyWaits (s.task u.task).die u.pa = false) :
    exec (.famoAccept n) s = .next (if s.famoRefused u then s.dropWaiting n else if s.famoRoom u.pa u.launch then s.takeFamo (s.dropWaiting n) u else s) := by
  show execFamoAccept n s = _
  simp only [execFamoAccept, waits, free, Bool.false_eq_true, if_false]
  rfl

/-- The update of an instruction event takes its place with the bundle that holds it. -/
theorem takeFamo_follows (x : Instr) (s s0 : State) (u : Update) (h : exec x s = .next (s.takeFamo s0 u)) :
    ∃ s' v, BundleFollows x s s0 s' u.task ∧ s'.famoSent = s0.famoSent ∧ s'.famoWait = s0.famoWait ∧ s'.updates = s0.updates ++ [v]
      ∧ v = { u with spilled := v.spilled, place := v.place } ∧ (s'.task u.task).reply = some (u.pa, 0, 0) := by
  obtain ⟨v, same, updates, sent, waiting⟩ := acceptFamo_eq s0 u
  exact ⟨_, v, bundleFollows_withBundle x s s0 _ u.task h, sent, waiting, updates, same, replyTo_reply _ _ _ _ _⟩

/-! ### Epochs (R143, R242) -/

theorem mem_keyOrder (l : List Update) (u : Update) : u ∈ keyOrder l ↔ u ∈ l := by
  have inserted (a : Update) (l : List Update) : u ∈ insertUpdate a l ↔ u = a ∨ u ∈ l := by
    induction l with
    | nil => simp [insertUpdate]
    | cons b l ih =>
      rw [insertUpdate]
      split
      · simp
      · rw [List.mem_cons, ih, List.mem_cons]
        tauto
  induction l with
  | nil => simp [keyOrder]
  | cons a l ih =>
    have step : keyOrder (a :: l) = insertUpdate a (keyOrder l) := rfl
    rw [step, inserted, List.mem_cons]
    exact or_congr_right ih

theorem applyUpdate_refused (s : State) (u : Update) (h : s.famoRefused u = true) : s.applyUpdate u = s := by
  simp only [State.applyUpdate, h, if_true]

theorem applyUpdate_mem (s : State) (u : Update) (h : s.famoRefused u = false) : (s.applyUpdate u).mem
    = memWrite s.mem u.pa ((famoFmt u.ty).width / 8) (famoApply u.op u.ty (memRead s.mem u.pa ((famoFmt u.ty).width / 8)) u.v.toNat) := by
  simp only [State.applyUpdate, h, Bool.false_eq_true, if_false]
  exact putOutside_mem _ _ _ _

theorem applyUpdate_updates (s : State) (u : Update) : (s.applyUpdate u).updates = s.updates := by
  unfold State.applyUpdate
  extract_lets n t
  split
  · rfl
  · show (s.putOutside u.pa n _).updates = _
    rw [putOutside_frame]

/-- An update changes its own bytes alone. -/
theorem applyUpdate_outside (s : State) (u : Update) (a : Nat) (h : ¬ (u.pa ≤ a ∧ a < u.pa + (famoFmt u.ty).width / 8)) :
    memByte (s.applyUpdate u).mem a = memByte s.mem a := by
  by_cases refused : s.famoRefused u = true
  · rw [applyUpdate_refused s u refused]
  · rw [applyUpdate_mem s u (Bool.eq_false_iff.2 refused), memByte_memWrite, if_neg h]

theorem applyUpdates_outside (l : List Update) (s : State) (a : Nat) (h : ∀ u ∈ l, ¬ (u.pa ≤ a ∧ a < u.pa + (famoFmt u.ty).width / 8)) :
    memByte (l.foldl State.applyUpdate s).mem a = memByte s.mem a := by
  induction l generalizing s with
  | nil => rfl
  | cons u l ih =>
    rw [List.foldl_cons, ih _ fun v hv => h v (List.mem_cons_of_mem u hv)]
    exact applyUpdate_outside s u a (h u List.mem_cons_self)

theorem epochApply_applies (s : State) (n : Nat) (e : Nat × Nat) (due : s.dueEpochs[n]? = some e) :
    exec (.epochApply n) s = .next (s.applyEpoch e.1 e.2) := by
  show execEpochApply n s = _
  simp only [execEpochApply, due]

theorem homeUpdates_hold : HomeUpdates := by
  intro s n
  refine ⟨?_, fun u waits free refused => ?_, fun u waits free sound value room => ?_, ?_⟩
  · intro u sent k s0 free
    refine ⟨fun refused => ?_, fun sound value => ⟨fun room => ?_, fun full => ?_⟩⟩
    · have bad : s.famoRefused u = true := by simpa [State.famoRefused] using refused
      rw [famoHold_arrives s n u sent free, bad]
      rfl
    · have takes := famoHold_arrives s n u sent free
      rw [famoRefused_false s u sound value, room] at takes
      obtain ⟨s', v, follows, gone, -, updates, same, reply⟩ := takeFamo_follows _ s (s.dropSent n) u takes
      exact ⟨s', v, follows, gone, updates, same, reply⟩
    · rw [famoHold_arrives s n u sent free, famoRefused_false s u sound value, full]
      rfl
  · rw [famoAccept_accepts s n u waits free, refused]
    rfl
  · have takes := famoAccept_accepts s n u waits free
    rw [famoRefused_false s u sound value, room] at takes
    obtain ⟨s', v, follows, -, gone, updates, same, reply⟩ := takeFamo_follows _ s (s.dropWaiting n) u takes
    exact ⟨s', v, follows, gone, updates, same, reply⟩
  · intro e due mine
    refine ⟨_, epochApply_applies s n e due, fun u => ?_, fun a outside => ?_, fun u only => ?_⟩
    · have kept := foldl_keeps (fun t : State => t.updates) State.applyUpdate applyUpdate_updates
        (keyOrder (s.updates.filter fun u => decide (u.domain = e.1) && decide (u.ep = e.2))) s
      simp only [State.applyEpoch, kept, List.mem_filter, mine, Bool.not_eq_true', Bool.and_eq_false_iff, decide_eq_false_iff_not]
      tauto
    · refine applyUpdates_outside _ s a fun u hu => ?_
      obtain ⟨here, own⟩ := List.mem_filter.1 ((mem_keyOrder _ u).1 hu)
      rw [Bool.and_eq_true, decide_eq_true_eq, decide_eq_true_eq] at own
      exact outside u here own
    · have one : (s.applyEpoch e.1 e.2).mem = (s.applyUpdate u).mem := by
        simp only [State.applyEpoch, only]
        rfl
      refine ⟨fun sound value => ?_, fun claim stale => ?_⟩
      · exact bytesAre_memWrite _ _ _ _ _ (one.trans (applyUpdate_mem s u (famoRefused_false s u sound value)))
      · rw [one, applyUpdate_refused s u (by simp [State.famoRefused, claim, stale])]

end Sys2Proof.Machine

namespace Sys2Proof

/-- Settles O36: each home by what it performs, and the bundle that waits for it follows. -/
theorem homeEvents : Obligations.HomeEvents := ⟨Machine.homeAccesses_hold, Machine.homeUpdates_hold⟩

end Sys2Proof
end

section
/-! SUPPORT. Chunks of copies in memory, and the starts and acknowledgements of copies (R109, R304, R307, R308, R311). -/

set_option Elab.async false

namespace Sys2Proof.Machine

open Stated

/-! ### Runs of bytes in memory (R307) -/

/-- Memory with a list of runs of bytes from base, the last run of the list first. -/
def putRuns (base : Nat) (m : Mem) (l : List (Nat × Nat × Nat)) : Mem := l.foldr (fun r m => memWrite m (base + r.1) r.2.1 r.2.2) m

/-- The runs so far, and the byte of an offset. -/
def addByte (a : List (Nat × Nat × Nat)) (e : Option Nat × Nat) : List (Nat × Nat × Nat) :=
  match e.1, a with
  | some v, (o, n, x) :: rest => if o + n = e.2 then (o, n + 1, x + v * 2 ^ (8 * n)) :: rest else (e.2, 1, v) :: a
  | some v, [] => [(e.2, 1, v)]
  | none, _ => a

theorem byteRuns_eq (l : List (Option Nat)) : byteRuns l = (l.zipIdx.foldl addByte []).reverse := rfl

/-- The newest run holds a number of its length. -/
def headFits : List (Nat × Nat × Nat) → Prop
  | (_, n, x) :: _ => x < 2 ^ (8 * n)
  | [] => True

theorem byteAt_append_low (x v n k : Nat) (hk : k < n) : byteAt (x + v * 2 ^ (8 * n)) k = byteAt x k := by
  rw [← byteAt_mod _ n k hk, Nat.add_mul_mod_self_right, byteAt_mod _ n k hk]

theorem byteAt_append_top (x v n : Nat) (hx : x < 2 ^ (8 * n)) : byteAt (x + v * 2 ^ (8 * n)) n = BitVec.ofNat 8 v := by
  rw [byteAt, Nat.add_mul_div_right _ _ (Nat.two_pow_pos _), Nat.div_eq_of_lt hx, Nat.zero_add]

theorem byteAt_zero (v : Nat) : byteAt v 0 = BitVec.ofNat 8 v := by simp [byteAt]

/-- A byte that joins the runs is the byte of its offset. -/
theorem putRuns_addByte (base : Nat) (m : Mem) (acc : List (Nat × Nat × Nat)) (e : Option Nat × Nat) (fits : headFits acc)
    (small : ∀ v, e.1 = some v → v < 256) : headFits (addByte acc e) ∧ ∀ a, memByte (putRuns base m (addByte acc e)) a
      = match e.1 with
        | some v => if a = base + e.2 then BitVec.ofNat 8 v else memByte (putRuns base m acc) a
        | none => memByte (putRuns base m acc) a := by
  obtain ⟨b, k⟩ := e
  cases b with
  | none => cases acc <;> exact ⟨fits, fun _ => rfl⟩
  | some v =>
    have v_lt : v < 256 := small v rfl
    have single (l : List (Nat × Nat × Nat)) (a : Nat) : memByte (putRuns base m ((k, 1, v) :: l)) a
        = if a = base + k then BitVec.ofNat 8 v else memByte (putRuns base m l) a := by
      show memByte (memWrite (putRuns base m l) (base + k) 1 v) a = _
      rw [memByte_memWrite]
      by_cases here : a = base + k
      · rw [if_pos (by omega), if_pos here, here, Nat.sub_self, byteAt_zero]
      · rw [if_neg (by omega), if_neg here]
    cases acc with
    | nil => exact ⟨by simpa [headFits, addByte] using v_lt, single []⟩
    | cons r rest =>
      obtain ⟨o, n, x⟩ := r
      by_cases next : o + n = k
      · have run : addByte ((o, n, x) :: rest) (some v, k) = (o, n + 1, x + v * 2 ^ (8 * n)) :: rest := if_pos next
        have x_lt : x < 2 ^ (8 * n) := fits
        refine ⟨?_, fun a => ?_⟩
        · rw [run]
          have room : v * 2 ^ (8 * n) ≤ 255 * 2 ^ (8 * n) := Nat.mul_le_mul_right _ (by omega)
          show x + v * 2 ^ (8 * n) < 2 ^ (8 * (n + 1))
          rw [Nat.mul_succ, pow_add]
          omega
        · rw [run]
          show memByte (memWrite (putRuns base m rest) (base + o) (n + 1) (x + v * 2 ^ (8 * n))) a
            = if a = base + k then BitVec.ofNat 8 v else memByte (memWrite (putRuns base m rest) (base + o) n x) a
          rw [memByte_memWrite, memByte_memWrite]
          by_cases last : a = base + k
          · have place : a - (base + o) = n := by omega
            rw [if_pos (by omega), if_pos last, place, byteAt_append_top x v n x_lt]
          · rw [if_neg last]
            by_cases inside : base + o ≤ a ∧ a < base + o + n
            · rw [if_pos (by omega), if_pos inside, byteAt_append_low x v n _ (by omega)]
            · rw [if_neg (by omega), if_neg inside]
      · have run : addByte ((o, n, x) :: rest) (some v, k) = (k, 1, v) :: (o, n, x) :: rest := if_neg next
        rw [run]
        exact ⟨by simpa [headFits] using v_lt, single _⟩

theorem putRuns_addBytes (base : Nat) (m : Mem) (l : List (Option Nat)) (k : Nat) (acc : List (Nat × Nat × Nat)) (fits : headFits acc)
    (small : ∀ b ∈ l, ∀ v, b = some v → v < 256) (a : Nat) : memByte (putRuns base m ((l.zipIdx k).foldl addByte acc)) a
      = match (if base + k ≤ a then l.getD (a - (base + k)) none else none) with
        | some v => BitVec.ofNat 8 v
        | none => memByte (putRuns base m acc) a := by
  induction l generalizing k acc with
  | nil => simp
  | cons b l ih =>
    obtain ⟨fits', byte⟩ := putRuns_addByte base m acc (b, k) fits (small b List.mem_cons_self)
    rw [List.zipIdx_cons, List.foldl_cons, ih (k + 1) _ fits' fun c hc => small c (List.mem_cons_of_mem b hc), byte a]
    by_cases here : a = base + k
    · subst here
      cases b <;> simp
    · by_cases after : base + k ≤ a
      · have later : base + (k + 1) ≤ a := by omega
        have place : a - (base + k) = (a - (base + (k + 1))) + 1 := by omega
        rw [if_pos later, if_pos after, place, List.getD_cons_succ]
        cases b <;> simp [here]
      · rw [if_neg (by omega), if_neg after]
        cases b <;> simp [here]

/-- The runs of a list of bytes put those bytes in memory. -/
theorem memByte_byteRuns (base : Nat) (m : Mem) (l : List (Option Nat)) (small : ∀ b ∈ l, ∀ v, b = some v → v < 256) (a : Nat) :
    memByte ((byteRuns l).foldl (fun m r => memWrite m (base + r.1) r.2.1 r.2.2) m) a
      = match (if base ≤ a then l.getD (a - base) none else none) with
        | some v => BitVec.ofNat 8 v
        | none => memByte m a := by
  rw [byteRuns_eq, List.foldl_reverse]
  exact putRuns_addBytes base m l 0 [] trivial small a

/-! ### What a chunk leaves alone (R109, R307) -/

/-- The state without cores and walks. -/
def State.coreless (s : State) : State := { s with cores := [], walks := [] }

theorem startWalk_coreless (s : State) (i : Nat) (h : Handle) : (s.startWalk i h).coreless = s.coreless := by
  simp only [State.startWalk, State.applySide]
  split <;> rfl

theorem relayLoad_coreless (s : State) (d c e : Nat) : (s.relayLoad d c e).coreless = s.coreless := by
  unfold State.relayLoad
  extract_lets r
  split
  · rfl
  · split
    · exact startWalk_coreless s _ _
    · dsimp only
      (repeat' split) <;> rfl

theorem relayFire_coreless (s : State) (d c e : Nat) : (s.relayFire d c e).coreless = s.coreless := by
  unfold State.relayFire
  extract_lets r u
  split
  · split
    · rfl
    · split <;> rfl
  · exact relayLoad_coreless u d c e

theorem relayTest_coreless (s : State) (d c : Nat) : (s.relayTest d c).coreless = s.coreless :=
  foldl_keeps State.coreless _ (fun s e => by split; exacts [relayFire_coreless s d c e.1, rfl]) _ s

theorem completeWait_coreless (s : State) (d c n : Nat) : (s.completeWait d c n).coreless = s.coreless := by
  unfold State.completeWait
  extract_lets b
  split
  · extract_lets t
    split <;> rfl
  · rfl

/-- A change of a barrier stays within cores and walks. -/
theorem cbChange_coreless (s : State) (d c n : Nat) (f : CB → CB) : (s.cbChange d c n f).coreless = s.coreless :=
  (completeWait_coreless _ d c n).trans (relayTest_coreless _ d c)

theorem countArrival_coreless (s : State) (d c n launch len : Nat) : (s.countArrival d c n launch len).1.coreless = s.coreless := by
  unfold State.countArrival
  split
  · rfl
  · exact cbChange_coreless s d c n _

/-! ### Chunks at their places (R307, R308) -/

/-- Memory with runs of bytes at a place. -/
def landRuns (runs : List (Nat × Nat × Nat)) (m : Mem) (place : Nat) : Mem := runs.foldl (fun m r => memWrite m (place + r.1) r.2.1 r.2.2) m

/-- A chunk that reaches a place is neither dropped with its gang nor lost on a window that nobody holds. -/
def State.lands (s : State) (x : Cmd) (p : Nat) : Prop :=
  s.gangDrops x.launch x.die p = false ∧ (isWindow p = true → s.onDie (paDie p) p = true → s.holder p ≠ none)

theorem landBytes_mem (s : State) (pa n v : Nat) (claim : Bool) : (s.landBytes pa n v claim).mem = memWrite s.mem pa n v := by
  unfold State.landBytes
  extract_lets u
  have put : u.mem = memWrite s.mem pa n v := putOutside_mem s pa n v
  split
  · exact put
  · rw [clearTags_frame]
    exact put

/-- The runs of a chunk land one after another. -/
def State.landAll (s : State) (claim : Bool) (runs : List (Nat × Nat × Nat)) (place : Nat) : State :=
  runs.foldl (fun s r => s.landBytes (place + r.1) r.2.1 r.2.2 claim) s

theorem landAll_mem (s : State) (claim : Bool) (runs : List (Nat × Nat × Nat)) (place : Nat) :
    (s.landAll claim runs place).mem = landRuns runs s.mem place := by
  induction runs generalizing s with
  | nil => rfl
  | cons r l ih => exact (ih (s.landBytes (place + r.1) r.2.1 r.2.2 claim)).trans (by rw [landBytes_mem]; rfl)

/-- A chunk that lands counts on the barrier of its command. -/
theorem landChunk_eq (s : State) (x : Cmd) (place : Nat) (runs : List (Nat × Nat × Nat)) (len : Nat) (lands : s.lands x place) :
    ∃ t : State, s.landChunk x place runs len = { t with cmds := (s.landChunk x place runs len).cmds }
      ∧ t.coreless = (s.landAll x.hd.claim runs place).coreless := by
  obtain ⟨kept, held⟩ := lands
  have found : (isWindow place && s.onDie (paDie place) place && (s.holder place).isNone) = false := by
    by_cases w : isWindow place = true
    · by_cases d : s.onDie (paDie place) place = true
      · simp [w, d, Option.isSome_iff_ne_none.2 (held w d)]
      · simp [d]
    · simp [w]
  unfold State.landChunk
  rw [kept, found, if_neg Bool.false_ne_true, if_neg Bool.false_ne_true]
  dsimp only
  split
  next n _ =>
    split
    · split
      · exact ⟨_, rfl, countArrival_coreless _ _ _ _ _ _⟩
      · exact ⟨_, rfl, countArrival_coreless _ _ _ _ _ _⟩
    · exact ⟨_, rfl, rfl⟩
  next => exact ⟨_, rfl, rfl⟩

/-- Sending a chunk lands it, and notes its acknowledgement. -/
theorem sendChunk_eq (s : State) (x : Cmd) (line place : Nat) (runs : List (Nat × Nat × Nat)) (len : Nat) (lands : s.lands x place) :
    ∃ t : State, s.sendChunk x line place runs len = { t with cmds := (s.sendChunk x line place runs len).cmds, sent := (s.sendChunk x line place runs len).sent }
      ∧ t.coreless = (s.landAll x.hd.claim runs place).coreless := by
  obtain ⟨t, landed, rest⟩ := landChunk_eq s x place runs len lands
  refine ⟨t, ?_, rest⟩
  unfold State.sendChunk
  extract_lets u
  have same : u = { t with cmds := u.cmds } := landed
  split
  · exact congrArg (fun w : State => State.modCmd { w with sent := u.sent + 1 } x.id fun c =>
      { c with unacked := c.unacked ++ [{ line := line, pa := place, no := u.sent }] }) same
  · exact same.trans (by rw [same])

theorem sendChunk_mem (s : State) (x : Cmd) (line place : Nat) (runs : List (Nat × Nat × Nat)) (len : Nat) (lands : s.lands x place) :
    (s.sendChunk x line place runs len).mem = landRuns runs s.mem place := by
  obtain ⟨t, sent, rest⟩ := sendChunk_eq s x line place runs len lands
  have mem : t.coreless.mem = (s.landAll x.hd.claim runs place).coreless.mem := by rw [rest]
  rw [sent, ← landAll_mem s x.hd.claim]
  exact mem

/-! ### Several places (R308) -/

/-- A task without its saved rows. -/
def Task.unsaved (t : Task) : Task := { t with shadow := [], shadowBad := [] }

/-- The state without memory, cores, commands and the saved rows of its tasks. -/
def State.ground (s : State) : State :=
  { s with cores := [], walks := [], mem := [], poison := [], dirty := [], cmds := [], sent := 0
           tasks := s.tasks.map fun e => (e.1, e.2.unsaved) }

theorem putOutside_ground (s : State) (pa n v : Nat) : (s.putOutside pa n v).ground = s.ground := by
  unfold State.putOutside
  extract_lets u
  split
  · simp only [State.ground, List.map_map]
    rfl
  · rfl

theorem landAll_ground (s : State) (claim : Bool) (runs : List (Nat × Nat × Nat)) (place : Nat) (small : ∀ r ∈ runs, isHbm (place + r.1) = false) :
    (s.landAll claim runs place).ground = s.ground := by
  induction runs generalizing s with
  | nil => rfl
  | cons r l ih =>
    have outside : s.landBytes (place + r.1) r.2.1 r.2.2 claim = s.putOutside (place + r.1) r.2.1 r.2.2 := by
      rw [State.landBytes, small r List.mem_cons_self]
      simp
    have first : (s.landBytes (place + r.1) r.2.1 r.2.2 claim).ground = s.ground := by rw [outside, putOutside_ground]
    exact (ih _ fun q hq => small q (List.mem_cons_of_mem r hq)).trans first

theorem ground_of_coreless {s t : State} (h : t.coreless = s.coreless) : t.ground = s.ground := by
  have both : t.coreless.ground = s.coreless.ground := by rw [h]
  exact both

/-- Where a chunk lands is seen in the rest of the state. -/
theorem lands_ground (s : State) (x : Cmd) (p : Nat) : s.ground.lands x p ↔ s.lands x p := by
  have residents (d c : Nat) : s.ground.residents d c = s.residents d c := by
    simp only [State.residents, State.tasksWith, State.ground, List.filter_map, List.map_map]
    rfl
  have task (i : Nat) : s.ground.task i = (s.task i).unsaved := smGet_map Task.unsaved ({} : Task) s.tasks i
  have holder : s.ground.holder p = s.holder p := by
    simp only [State.holder, residents, task]
    rfl
  rw [State.lands, holder]
  rfl

theorem sendChunk_lands (s : State) (x : Cmd) (line place : Nat) (runs : List (Nat × Nat × Nat)) (len p : Nat) (here : s.lands x place)
    (small : ∀ r ∈ runs, isHbm (place + r.1) = false) : (s.sendChunk x line place runs len).lands x p ↔ s.lands x p := by
  obtain ⟨t, sent, rest⟩ := sendChunk_eq s x line place runs len here
  have same : (s.sendChunk x line place runs len).ground = s.ground := by
    rw [sent]
    exact (ground_of_coreless rest).trans (landAll_ground s x.hd.claim runs place small)
  rw [← lands_ground, same, lands_ground]

/-- A chunk that lands at one place, or in windows alone, puts its runs at each place. -/
theorem sendChunks_mem (s : State) (x : Cmd) (line : Nat) (runs : List (Nat × Nat × Nat)) (len : Nat) (places : List Nat)
    (lands : ∀ p ∈ places, s.lands x p) (windows : places.length ≤ 1 ∨ ∀ p ∈ places, ∀ r ∈ runs, isHbm (p + r.1) = false) :
    (places.foldl (fun s p => s.sendChunk x line p runs len) s).mem = places.foldl (landRuns runs) s.mem := by
  induction places generalizing s with
  | nil => rfl
  | cons p l ih =>
    have here := lands p List.mem_cons_self
    rw [List.foldl_cons, List.foldl_cons, ← sendChunk_mem s x line p runs len here]
    rcases windows with one | windows
    · have none_ : l = [] := List.length_eq_zero_iff.1 (by simpa using one)
      rw [none_]
      rfl
    · exact ih _ (fun q hq => (sendChunk_lands s x line p runs len q here (windows p List.mem_cons_self)).2 (lands q (List.mem_cons_of_mem p hq)))
        (.inr fun q hq => windows q (List.mem_cons_of_mem p hq))

/-! ### The bytes of a chunk (R304, R307) -/

/-- The byte of a line at an address after the bytes of the line have been put at a list of places. -/
def chunkByte (bytes : List (Option Nat)) (m : Mem) (places : List Nat) (a : Nat) : Byte :=
  match places.find? (fun p => decide (p ≤ a) && decide (a < p + 64)) with
  | some p => match bytes.getD (a - p) none with
    | some v => BitVec.ofNat 8 v
    | none => memByte m a
  | none => memByte m a

theorem find_line_eq (places : List Nat) (a p : Nat) (aligned : ∀ p ∈ places, p % 64 = 0)
    (found : places.find? (fun p => decide (p ≤ a) && decide (a < p + 64)) = some p) : p = a / 64 * 64 := by
  have here := List.find?_some found
  have line := aligned p (List.mem_of_find?_eq_some found)
  simp only [Bool.and_eq_true, decide_eq_true_eq] at here
  omega

/-- Bytes put at lines stand at each of them, and the other bytes keep their values. -/
theorem memByte_places (bytes : List (Option Nat)) (len : bytes.length = 64) (small : ∀ b ∈ bytes, ∀ v, b = some v → v < 256) (m : Mem)
    (places : List Nat) (aligned : ∀ p ∈ places, p % 64 = 0) (a : Nat) :
    memByte (places.foldl (landRuns (byteRuns bytes)) m) a = chunkByte bytes m places a := by
  induction places generalizing m with
  | nil => rfl
  | cons p l ih =>
    have put := memByte_byteRuns p m bytes small a
    have line := aligned p List.mem_cons_self
    rw [List.foldl_cons, ih (landRuns (byteRuns bytes) m p) fun q hq => aligned q (List.mem_cons_of_mem p hq)]
    by_cases here : p ≤ a ∧ a < p + 64
    · have first : (p :: l).find? (fun p => decide (p ≤ a) && decide (a < p + 64)) = some p := List.find?_cons_of_pos (by simpa using here)
      rw [if_pos here.1] at put
      rw [chunkByte, chunkByte, first]
      cases found : l.find? (fun p => decide (p ≤ a) && decide (a < p + 64)) with
      | none => exact put
      | some q =>
        have same : q = p := (find_line_eq l a q (fun q hq => aligned q (List.mem_cons_of_mem p hq)) found).trans (by omega)
        subst same
        dsimp only
        cases byte : bytes.getD (a - q) none with
        | some v => rfl
        | none => rw [byte] at put; exact put
    · have rest : (p :: l).find? (fun p => decide (p ≤ a) && decide (a < p + 64)) = l.find? fun p => decide (p ≤ a) && decide (a < p + 64) :=
        List.find?_cons_of_neg (by simpa using here)
      have kept : memByte (landRuns (byteRuns bytes) m p) a = memByte m a := by
        refine Eq.trans put ?_
        split
        next v inside =>
          split at inside
          · rw [List.getD_eq_default _ _ (by omega)] at inside
            cases inside
          · cases inside
        next => rfl
      rw [chunkByte, chunkByte, rest, kept]

theorem lineBytes_length (x : Cmd) (line : Nat) (l : List Piece) : (x.lineBytes line l).length = 64 := by simp [Cmd.lineBytes]

theorem lineBytes_small (x : Cmd) (line : Nat) (l : List Piece) : ∀ b ∈ x.lineBytes line l, ∀ v, b = some v → v < 256 := by
  intro b hb
  obtain ⟨o, -, rfl⟩ := List.mem_map.1 hb
  have byte (l : List Piece) (b : Option Nat) (small : ∀ v, b = some v → v < 256) (pa : Nat) : ∀ v, l.foldl (fun a p =>
      if x.dstPa p.dst ≤ pa ∧ pa < x.dstPa p.dst + p.len then some (p.val / 2 ^ (8 * (pa - x.dstPa p.dst)) % 256) else a) b = some v → v < 256 := by
    induction l generalizing b with
    | nil => exact small
    | cons p l ih =>
      refine ih _ fun v hv => ?_
      dsimp only at hv
      split at hv
      · exact Option.some.inj hv ▸ Nat.mod_lt _ (by omega)
      · exact small v hv
  exact byte l none (fun _ h => by cases h) _

/-- A run starts at an offset of the list. -/
theorem byteRuns_start (l : List (Option Nat)) : ∀ r ∈ byteRuns l, r.1 < l.length := by
  have step (acc : List (Nat × Nat × Nat)) (e : Option Nat × Nat) (n : Nat) (before : ∀ r ∈ acc, r.1 < n) (here : e.2 < n) :
      ∀ r ∈ addByte acc e, r.1 < n := by
    obtain ⟨b, k⟩ := e
    have single (l : List (Nat × Nat × Nat)) (v : Nat) (hl : ∀ r ∈ l, r.1 < n) : ∀ r ∈ (k, 1, v) :: l, r.1 < n := by
      intro r hr
      rcases List.mem_cons.1 hr with rfl | hr
      · exact here
      · exact hl r hr
    cases b with
    | none => cases acc <;> exact before
    | some v =>
      cases acc with
      | nil => exact single [] v before
      | cons q rest =>
        intro r hr
        obtain ⟨o, m, x⟩ := q
        by_cases next : o + m = k
        · have run : addByte ((o, m, x) :: rest) (some v, k) = (o, m + 1, x + v * 2 ^ (8 * m)) :: rest := if_pos next
          rw [run] at hr
          rcases List.mem_cons.1 hr with rfl | hr
          · exact before (o, m, x) List.mem_cons_self
          · exact before r (List.mem_cons_of_mem _ hr)
        · have run : addByte ((o, m, x) :: rest) (some v, k) = (k, 1, v) :: (o, m, x) :: rest := if_neg next
          rw [run] at hr
          exact single _ v before r hr
  have all (l : List (Option Nat)) (k : Nat) (acc : List (Nat × Nat × Nat)) (n : Nat) (before : ∀ r ∈ acc, r.1 < n) (room : k + l.length ≤ n) :
      ∀ r ∈ (l.zipIdx k).foldl addByte acc, r.1 < n := by
    induction l generalizing k acc with
    | nil => exact before
    | cons b l ih =>
      rw [List.length_cons] at room
      exact ih (k + 1) _ (step acc (b, k) n before (by simp only; omega)) (by omega)
  intro r hr
  rw [byteRuns_eq, List.mem_reverse] at hr
  exact all l 0 [] l.length (by simp) (by omega) r hr

/-! ### The places of a chunk (R308) -/

theorem base_aligned (x : Cmd) : x.base % 64 = 0 := by
  have aligned (a : Nat) : lineOf a % 64 = 0 := by rw [lineOf]; omega
  unfold Cmd.base
  extract_lets c
  split <;> exact aligned _

theorem mem_multicast (pa n mdie mcore p : Nat) (h : p ∈ (multicast pa n mdie mcore).map (·.1)) :
    ∃ d c, d < 8 ∧ c < 16 ∧ p = winAddr (paModule pa) d c + paWinOff pa := by
  simp only [multicast, List.mem_map, List.mem_flatMap, List.mem_filterMap, List.mem_range] at h
  obtain ⟨r, ⟨d, hd, c, hc, named⟩, rfl⟩ := h
  split at named
  · have same := Option.some.inj named
    exact ⟨d, c, hd, hc, by rw [← same]⟩
  · cases named

theorem window_aligned (pa d c : Nat) (aligned : pa % 64 = 0) : (winAddr (paModule pa) d c + paWinOff pa) % 64 = 0 := by
  simp only [winAddr, paWinOff, paLocal, field, winBase0, winSize]
  omega

theorem window_not_hbm (m pa d c o : Nat) (hc : c < 16) (ho : o < 64) : isHbm (winAddr m d c + paWinOff pa + o) = false := by
  simp only [isHbm, winAddr, paWinOff, paLocal, field, winBase0, winSize, hbmEnd]
  refine decide_eq_false ?_
  omega

theorem places_aligned (x : Cmd) (line : Nat) : ∀ p ∈ x.places line, p % 64 = 0 := by
  have pa : (x.base + 64 * line) % 64 = 0 := by have := base_aligned x; omega
  intro p hp
  unfold Cmd.places at hp
  dsimp only at hp
  split at hp
  · obtain ⟨d, c, -, -, window⟩ := mem_multicast _ _ _ _ p hp
    rw [window]
    exact window_aligned _ d c pa
  · rw [List.mem_singleton.1 hp, pa]

/-- A chunk goes to one place, or to windows alone. -/
theorem places_windows (x : Cmd) (line : Nat) (l : List Piece) :
    (x.places line).length ≤ 1 ∨ ∀ p ∈ x.places line, ∀ r ∈ byteRuns (x.lineBytes line l), isHbm (p + r.1) = false := by
  unfold Cmd.places
  dsimp only
  split
  · refine .inr fun p hp r hr => ?_
    have start := byteRuns_start _ r hr
    rw [lineBytes_length] at start
    obtain ⟨d, c, -, hc, window⟩ := mem_multicast _ _ _ _ p hp
    rw [window]
    exact window_not_hbm _ _ d c r.1 hc start
  · exact .inl (by simp)

/-! ### Events of copies (R307, R311) -/

theorem endCmd_mem (s : State) (x : Cmd) (st : Status) : (s.endCmd x st).mem = s.mem := rfl

/-- The settling of a command takes it away, or leaves the state. -/
theorem settleCmd_cases (s : State) (id : Nat) : s.settleCmd id = s ∨ ∃ x st, s.settleCmd id = s.endCmd x st := by
  unfold State.settleCmd
  split
  · split
    · split
      · exact .inr ⟨_, _, rfl⟩
      · exact .inl rfl
    · split
      · exact .inr ⟨_, _, rfl⟩
      · exact .inl rfl
  · exact .inl rfl

theorem settleCmd_mem (s : State) (id : Nat) : (s.settleCmd id).mem = s.mem := by
  rcases settleCmd_cases s id with same | ⟨x, st, ended⟩
  · rw [same]
  · rw [ended, endCmd_mem]

theorem settleCmd_core (s : State) (id d c : Nat) : (s.settleCmd id).core d c = s.core d c := by
  rcases settleCmd_cases s id with same | ⟨x, st, ended⟩
  · rw [same]
  · rw [ended]; rfl

theorem settleCmd_cmds (s : State) (id : Nat) : ∀ z ∈ (s.settleCmd id).cmds, z ∈ s.cmds := by
  intro z hz
  rcases settleCmd_cases s id with same | ⟨x, st, ended⟩
  · rwa [same] at hz
  · rw [ended] at hz
    exact (List.mem_filter.1 hz).1

/-- Nothing keeps a line of a copy: its rows are there, and neither its sources nor its places make it wait or stop it. -/
structure LineFree (s : State) (x : Cmd) (line : Nat) : Prop where
  running : x.stop = none
  fresh : line ∉ x.moved
  some_ : s.linePieces x line 0 ≠ []
  present : ∀ p ∈ s.linePieces x line 0, x.present p = true
  sound : ∀ p ∈ s.linePieces x line 0, p.edge = false → ∀ n w, p.row = some n → x.rowsIn[n]? = some w → w.poison = false
  sources : ∀ r ∈ x.srcPa (s.linePieces x line 0), s.cmdWaits x r.1 r.2 false = false
  readable : s.firstBad x.hs ((s.linePieces x line 0).flatMap (·.reads)) = none
  gang : ∀ p ∈ x.places line, s.gangHolds x.launch x.die p = false
  homes : ∀ p ∈ x.places line, s.cmdWaits x p 64 true = false
  tags : ∀ p ∈ x.places line, s.claimBars p x.hd.claim = false

/-- A line that nothing keeps goes to each of its places. -/
theorem moveChunk_moves (s : State) (x : Cmd) (line : Nat) (free : LineFree s x line) : s.moveChunk x line 0
    = State.settleCmd (((x.places line).foldl (fun u p => u.sendChunk x line p (byteRuns (x.lineBytes line (s.linePieces x line 0)))
        (x.chunkLen line (s.linePieces x line 0))) s).modCmd x.id fun c => { c with moved := setInsert c.moved line }) x.id := by
  obtain ⟨running, fresh, some_, present, sound, sources, readable, gang, homes, tags⟩ := free
  have here : (s.linePieces x line 0).filter x.present = s.linePieces x line 0 := List.filter_eq_self.2 present
  have none_held : (x.places line).filter (s.gangHolds x.launch x.die) = [] := List.filter_eq_nil_iff.2 fun p hp => by simp [gang p hp]
  have all_now : ((x.places line).filter fun p => !s.gangHolds x.launch x.die p) = x.places line :=
    List.filter_eq_self.2 fun p hp => by simp [gang p hp]
  simp only [State.moveChunk, here, none_held, all_now, readable, List.foldl_nil, List.any_nil, Bool.or_false]
  rw [if_neg (by simp [fresh, running, some_]), if_neg (by simpa using fun p hp absent => absurd (present p hp) (by simp [absent])), if_neg, if_neg, if_neg]
  · simpa using tags
  · intro any
    obtain ⟨p, hp, bad⟩ := List.any_eq_true.1 any
    rw [Bool.and_eq_true, Bool.not_eq_true'] at bad
    obtain ⟨inner, poisoned⟩ := bad
    split at poisoned
    next n row =>
      cases taken : x.rowsIn[n]? with
      | none => rw [taken] at poisoned; cases poisoned
      | some w =>
        rw [taken] at poisoned
        exact absurd poisoned (by simp [sound p hp inner n w row taken])
    next => cases poisoned
  · rw [Bool.not_eq_true, Bool.or_eq_false_iff]
    exact ⟨List.any_eq_false.2 fun r hr => by simp [sources r hr], List.any_eq_false.2 fun p hp => by simp [homes p hp]⟩

theorem copyChunk_moves (s : State) (i ticket line : Nat) (x : Cmd) (cmd : s.cmdOf i ticket = some x) (started : x.started = true)
    (pieces : x.count ≠ 0) (ready : s.stackReady x = true) (more : s.cmdDone x = false) (inside : line < x.lines) :
    exec (.copyChunk i ticket line) s = .next (s.moveChunk x line 0) := by
  show execCopyChunk i ticket line s = _
  simp only [execCopyChunk, cmd, started, ready, more, pieces, Nat.mod_eq_of_lt inside, Nat.div_eq_of_lt inside, Bool.not_true, Bool.false_eq_true,
    Bool.or_false, decide_false, if_false]

/-- The kinds of copies. -/
def isCopy (k : CmdKind) : Prop := k ∈ [CmdKind.cpy, .cpym, .cpyc] ∨ ∃ q, k = .cpyr q

theorem copyStart_starts (s : State) (i ticket : Nat) (x : Cmd) (cmd : s.cmdOf i ticket = some x) (waiting : x.started = false)
    (due : isCopy x.kind → (copyCard x.card).notBefore ≤ s.time x.die) : exec (.copyStart i ticket) s = .next { s with
      issued := s.issued + 1, sent := s.sent + 1
      cmds := s.cmds.map fun y => if y.id = x.id then { y with started := true, order := s.issued, no := s.sent } else y } := by
  show execCopyStart i ticket s = _
  have later (copy : isCopy x.kind) : ¬ s.time x.die < (copyCard x.card).notBefore := Nat.not_lt.2 (due copy)
  simp only [execCopyStart, cmd, waiting, Bool.false_or]
  cases kind : x.kind with
  | cpy | cpym | cpyc | cpyr q =>
    have copy : isCopy x.kind := by simp [isCopy, kind]
    simp only [later copy, decide_false, Bool.false_eq_true, if_false]
    rfl
  | _ =>
    simp only [Nat.not_lt_zero, decide_false, Bool.false_eq_true, if_false]
    rfl

/-- The state without an acknowledgement that a command awaits. -/
def State.acked (s : State) (x : Cmd) (y : Ack) : State := s.modCmd x.id fun c => { c with unacked := c.unacked.erase y }

/-- The state after the barrier of a command has counted n bytes, and whether it is the command's own. -/
def State.counted (s : State) (x : Cmd) (n : Nat) : State × Bool :=
  match x.barrier with
  | some k => s.countArrival x.die x.core k x.launch n
  | none => (s, true)

/-- The bytes of the chunk of a line. -/
def State.lineLen (s : State) (x : Cmd) (k : Nat) : Nat := x.chunkLen k ((s.linePieces x k 0).filter x.present)

/-- A command whose bytes another launch's barrier has not counted ends with BAD_ADDRESS: the command notes it. -/
def State.noted (s : State) (x : Cmd) (ok : Bool) : State := if ok then s else s.modCmd x.id fun c => { c with dropped := true }

theorem noted_mem (s : State) (x : Cmd) (ok : Bool) : (s.noted x ok).mem = s.mem := by cases ok <;> rfl

theorem noted_core (s : State) (x : Cmd) (ok : Bool) (d c : Nat) : (s.noted x ok).core d c = s.core d c := by cases ok <;> rfl

theorem noted_cmds (s : State) (x : Cmd) (ok : Bool) : ∀ z ∈ (s.noted x ok).cmds, ∃ z1 ∈ s.cmds, z.id = z1.id ∧ z.unacked = z1.unacked := by
  intro z hz
  cases ok with
  | true => exact ⟨z, hz, rfl, rfl⟩
  | false =>
    obtain ⟨z1, hz1, rfl⟩ := List.mem_map.1 hz
    refine ⟨z1, hz1, ?_, ?_⟩
    all_goals split <;> rfl

theorem copyChunkAck_counts (s : State) (i ticket k : Nat) (x : Cmd) (y : Ack) (cmd : s.cmdOf i ticket = some x)
    (ack : x.unacked.find? (fun y => y.line = k) = some y) (arrived : s.responseWaits x.die y.pa y.no = false) :
    exec (.copyChunkAck i ticket k) s = .next ((((s.acked x y).counted x (s.lineLen x k)).1.noted x
      ((s.acked x y).counted x (s.lineLen x k)).2).settleCmd x.id) := by
  show execCopyChunkAck i ticket k s = _
  simp only [execCopyChunkAck, cmd, ack, arrived, Bool.false_eq_true, if_false]
  rfl

theorem counted_coreless (s : State) (x : Cmd) (n : Nat) : (s.counted x n).1.coreless = s.coreless := by
  unfold State.counted
  split
  · exact countArrival_coreless _ _ _ _ _ _
  · rfl

/-- A change of a barrier with no entry and no wait to test. -/
theorem cbChange_cb (s : State) (d c n : Nat) (f : CB → CB) (relays : (s.core d c).relays = []) (issuing : (s.core d c).issuing = none) :
    ((s.cbChange d c n f).core d c).cb n = f ((s.core d c).cb n) := (barrierChange s d c n f relays issuing).1

theorem change_countedDown (b : CB) (n : Nat) : b.change (-(n : Int)) = countedDown b n := by
  rw [CB.change, countedDown, ← Int.sub_eq_add_neg]

theorem counted_cb (s : State) (x : Cmd) (n len : Nat) (barrier : x.barrier = some n) (relays : (s.core x.die x.core).relays = [])
    (issuing : (s.core x.die x.core).issuing = none)
    (owner : ((s.core x.die x.core).cb n).owner = none ∨ ((s.core x.die x.core).cb n).owner = some x.launch) :
    (((s.counted x len).1.core x.die x.core).cb n) = { countedDown ((s.core x.die x.core).cb n) len with owner := some x.launch } := by
  have mine : foreign ((s.core x.die x.core).cb n).owner x.launch = false := by
    rcases owner with none_ | own <;> simp [foreign, *]
  rw [State.counted, barrier]
  dsimp only
  rw [State.countArrival, mine, if_neg Bool.false_ne_true]
  dsimp only
  rw [cbChange_cb s _ _ _ _ relays issuing, change_countedDown]

/-- Settles O34: a line's runs put its bytes at each place, and starts and acknowledgements change the command and its barrier. -/
theorem copyEvents : Obligations.CopyEvents := by
  intro s i ticket x cmd
  refine ⟨fun waiting due => copyStart_starts s i ticket x cmd waiting due, ?_, ?_⟩
  · intro started running pieces ready more line inside fresh l places some_ present sound sources readable free
    have gang : ∀ p ∈ places, s.gangHolds x.launch x.die p = false := fun p hp => (free p hp).1
    have homes : ∀ p ∈ places, s.cmdWaits x p 64 true = false := fun p hp => (free p hp).2.2.1
    have tags : ∀ p ∈ places, s.claimBars p x.hd.claim = false := fun p hp => (free p hp).2.2.2.1
    have moves := moveChunk_moves s x line ⟨running, fresh, some_, present, sound, sources, readable, gang, homes, tags⟩
    refine ⟨_, (copyChunk_moves s i ticket line x cmd started pieces ready more inside).trans (congrArg Host.Outcome.next moves), fun a => ?_⟩
    have lands : ∀ p ∈ places, s.lands x p := fun p hp => ⟨(free p hp).2.1, (free p hp).2.2.2.2⟩
    have mem := sendChunks_mem s x line (byteRuns (x.lineBytes line l)) (x.chunkLen line l) places lands (places_windows x line l)
    rw [settleCmd_mem]
    refine (congrArg (fun m => memByte m a) mem).trans ?_
    exact memByte_places (x.lineBytes line l) (lineBytes_length x line l) (lineBytes_small x line l) s.mem places (places_aligned x line) a
  · intro k y ack arrived
    have bare := counted_coreless (s.acked x y) x (s.lineLen x k)
    refine ⟨_, copyChunkAck_counts s i ticket k x y cmd ack arrived, ?_, ?_, ?_⟩
    · rw [settleCmd_mem, noted_mem]
      have mem : ((s.acked x y).counted x (s.lineLen x k)).1.coreless.mem = s.coreless.mem := by rw [bare]; rfl
      exact mem
    · intro z hz same
      have cmds : ((s.acked x y).counted x (s.lineLen x k)).1.coreless.cmds = (s.acked x y).cmds := by rw [bare]; rfl
      obtain ⟨z1, hz1, id1, unacked1⟩ := noted_cmds _ x _ z (settleCmd_cmds _ _ z hz)
      have mapped : z1 ∈ (s.acked x y).cmds := cmds ▸ hz1
      obtain ⟨z0, hz0, rfl⟩ := List.mem_map.1 mapped
      have named : z0.id = x.id := by
        by_cases mine : z0.id = x.id
        · exact mine
        · rw [if_neg mine] at id1
          exact absurd (id1.symm.trans same) mine
      refine ⟨z0, hz0, named, ?_⟩
      rw [unacked1, if_pos named]
    · intro n barrier relays issuing old owner len
      rw [settleCmd_core]
      refine (congrArg (fun c : Core => c.cb n) (noted_core _ x _ _ _)).trans ?_
      exact counted_cb (s.acked x y) x n len barrier relays issuing owner

end Sys2Proof.Machine
end

section
/-! SUPPORT. A running job whose operand lies on a page that can never be given (R290, R291, R390; log 71). -/

set_option Elab.async false

namespace Sys2Proof.Machine

open Stated

/-- An operand whose handle has been revoked: its page is page 0 of segment 0. -/
def revokedOperand : Operand := { desc := 0, h := { revoked := true } }

/-- Task 0 runs a job with that operand on core 0 of die 0. The walk for its page has found a fatal configuration error, so that the page is gone for good. -/
def deadPageState : State :=
  { tasks := [(0, { status := .ready, started := true, job := { state := .running }, active := { opA := some revokedOperand, opB := some revokedOperand } })]
    walks := [{ die := 0, launch := 0, seg := 0, off := 0, dead := true }] }

theorem deadPage_running : deadPageState.runningJob 0 0 = some 0 ∧ (deadPageState.task 0).job.halt = false
    ∧ (deadPageState.task 0).active.usable = none := by decide +kernel

/-- The job does not park for the walk: it ends with a fault. -/
theorem deadPage_faults : (match exec (.matrixStep 0 0) deadPageState with
    | .next t => decide ((t.task 0).job.state = .done)
    | _ => false) = true := by decide +kernel

/-- Refutes O33, by its clause for a job whose handles are not usable: where a walk has found that the page of a handle can never be given, the job faults and
is done, and is not parked. -/
theorem not_engineEvents : ¬ Obligations.EngineEvents := by
  unfold Obligations.EngineEvents
  rintro ⟨matrix, -⟩
  obtain ⟨running, going, unusable⟩ := deadPage_running
  obtain ⟨-, leaves, -⟩ := (matrix deadPageState 0 0 0 []).2 running
  obtain ⟨t, run, parked, -⟩ := leaves going unusable
  have faults := deadPage_faults
  rw [run] at faults
  exact absurd ((of_decide_eq_true faults).symm.trans parked) (by decide)

end Sys2Proof.Machine
end

section
/-! SUPPORT. Atomics of the issuing task at their homes, deterministic updates on their way, and fences (R136 to R138, R238 to R243). -/

set_option Elab.async false

namespace Sys2Proof.Machine

open Stated

/-! ### Writes of memory and caches (R97, R106, R136, R138) -/

theorem onlyCaches_me {s t : State} (h : OnlyCaches s t) : t.me = s.me := by
  rw [h.1]
  rfl

theorem onlyCaches_dropOwnCopies (s : State) (pa : Nat) : OnlyCaches s (s.dropOwnCopies s.iss.die s.iss.core pa) :=
  onlyCaches_trans (onlyCaches_carveOut s fun x => smErase x.cache (lineOf pa)) (onlyCaches_remote _ s.iss.die fun x => smErase x.rdc (lineOf pa))

theorem onlyCaches_acquired (s : State) (sc : Scope) : OnlyCaches s (acquired s sc) := by
  have near := onlyCaches_carveOut s fun _ => []
  have far := onlyCaches_trans near (onlyCaches_remote _ s.iss.die fun _ => [])
  cases sc with
  | core => exact onlyCaches_refl s
  | die => exact near
  | mod => exact far
  | dom => exact far

/-- The acquire part of an ordering. -/
def acquiredBy (s : State) (ord : Ord) (sc : Scope) : State := if ordAcqs ord then acquired s sc else s

theorem onlyCaches_acquiredBy (s : State) (ord : Ord) (sc : Scope) : OnlyCaches s (acquiredBy s ord sc) := by
  unfold acquiredBy
  split
  · exact onlyCaches_acquired s sc
  · exact onlyCaches_refl s

theorem acquiredBy_freeCount (s : State) (ord : Ord) (sc : Scope) : (acquiredBy s ord sc).freeCount = s.freeCount := by
  unfold acquiredBy
  split
  · cases sc <;> rfl
  · rfl

/-- A store of another party. -/
theorem memoryWritten_putOutside (s : State) (pa n v : Nat) : MemoryWritten s (s.putOutside pa n v) pa n v := by
  have frame := putOutside_frame s pa n v
  refine ⟨fun a => ?_, ?_, fun d c => ?_, fun d => ?_, fun i _ => putOutside_task s pa n v i⟩
  · rw [putOutside_mem]
    exact memByte_memWrite _ _ _ _ _
  · rw [frame]
  · rw [frame]
    rfl
  · rw [frame]
    rfl

/-- Copies of lines may change after a write. -/
theorem memoryWritten_onlyCaches {s t u : State} {pa n v : Nat} (h : MemoryWritten s t pa n v) (caches : OnlyCaches t u)
    (drawn : u.freeCount = t.freeCount) : MemoryWritten s u pa n v := by
  obtain ⟨bytes, state, cores, dies, tasks⟩ := h
  obtain ⟨state', cores', -, dies'⟩ := caches
  rw [drawn] at state'
  refine ⟨fun a => ?_, ?_, fun d c => ?_, fun d => ?_, fun i other => ?_⟩
  · rw [state']
    exact bytes a
  · rw [state', state]
  · rw [cores' d c, cores d c]
  · rw [dies' d, dies d]
  · rw [state']
    exact tasks i other

/-- The record of the issuing task may change after a write. -/
theorem memoryWritten_modMe {s t : State} {pa n v : Nat} (h : MemoryWritten s t pa n v) (f : Task → Task) :
    MemoryWritten s (t.modMe f) pa n v := by
  obtain ⟨bytes, state, cores, dies, tasks⟩ := h
  have iss : t.iss = s.iss := by rw [state]
  refine ⟨bytes, ?_, cores, dies, fun i other => ?_⟩
  · show { t with tasks := _ } = _
    rw [state]
    rfl
  · rw [State.task_modMe_other t f i (iss ▸ other)]
    exact tasks i other

/-- What a result of port S leaves in the registers and the latches. -/
theorem resS_me (s : State) (d : Fin 32) (v : Word) :
    (∀ r : Fin 32, (s.resS d v).me.live.rdS r = if r = d ∧ d ≠ 0 then v else s.me.live.rdS r)
      ∧ (s.resS d v).me.latches = { s.me.latches with ls := some v } := by
  obtain ⟨-, me, reads⟩ := resultS_resS s d v false
  exact ⟨reads, by rw [me]⟩

/-! ### An atomic at its home (R105, R119, R142, R238 to R241) -/

/-- The tests of an atomic pass. -/
theorem atomicPasses_checks (s : State) (h : Handle) (off n reg : Nat) (passes : AtomicPasses s h off n) :
    s.accessCheck h off n true true reg = .ok (paOf h off) ∧ aligned h off n true = .ok () ∧ s.me.reply = none
      ∧ s.atomCheck h (paOf h off) n (h.vaAt off) = .ok () := by
  obtain ⟨valid, bounds, perm, align, reply, value, clean⟩ := passes
  have tag : (!(h.claim && decide (s.tag (paOf h off) ≠ .value))) = true := by simpa [imp_iff_not_or] using value
  refine ⟨accessCheck_passes s h off n reg true true valid bounds perm, if_pos align, reply, ?_⟩
  rw [State.atomCheck, tag, clean]
  rfl

/-- An atomic that nothing holds back is performed. -/
theorem atHome_performs (s : State) (h : Handle) (off : Nat) (k : AtomKind) (ready : AtomicReady s h off k.bytes) :
    s.atHome h (paOf h off) (h.vaAt off) k = .ok (s.performAtomic s.iss.die s.iss.core (paOf h off) k) := by
  obtain ⟨passes, free⟩ := ready
  obtain ⟨-, -, -, tests⟩ := atomicPasses_checks s h off k.bytes 0 passes
  simp only [State.atHome, free, Bool.false_eq_true, if_false, tests, except_ok_bind]

/-- The state after the issuing task's atomic has been performed. -/
def atomicHome (s : State) (pa : Nat) (k : AtomKind) : State := (s.performAtomic s.iss.die s.iss.core pa k).1

/-- An atomic whose comparison fails changes nothing. -/
theorem atomicHome_none (s : State) (pa : Nat) (k : AtomKind) (fails : k.result (memRead s.mem pa k.bytes) = none) : atomicHome s pa k = s := by
  have fails' : k.result (s.bytes pa k.bytes) = none := fails
  simp only [atomicHome, State.performAtomic, fails']

/-- An atomic with a new value writes it to its bytes, and keeps the registers and latches of its task. -/
theorem atomicHome_some (s : State) (pa : Nat) (k : AtomKind) (v : Nat) (new : k.result (memRead s.mem pa k.bytes) = some v) :
    MemoryWritten s (atomicHome s pa k) pa k.bytes v ∧ (atomicHome s pa k).me.live = s.me.live ∧ (atomicHome s pa k).me.latches = s.me.latches := by
  let put := s.putOutside pa k.bytes v
  have iss : put.iss = s.iss := by rw [show put = s.putOutside pa k.bytes v from rfl, putOutside_frame]
  have new' : k.result (s.bytes pa k.bytes) = some v := new
  have home : atomicHome s pa k = put.dropOwnCopies put.iss.die put.iss.core pa := by
    simp only [atomicHome, State.performAtomic, new', iss]
    rfl
  have caches := onlyCaches_dropOwnCopies put pa
  have me : put.me = { s.me with shadow := put.me.shadow, shadowBad := put.me.shadowBad } := by
    rw [State.me, iss]
    exact putOutside_task s pa k.bytes v s.iss.task
  rw [home, onlyCaches_me caches, me]
  exact ⟨memoryWritten_onlyCaches (memoryWritten_putOutside s pa k.bytes v) caches rfl, rfl, rfl⟩

/-! ### amo and cas (R239, R240) -/

/-- An amo or cas that nothing holds back is performed, acquires as its ordering says, and returns the old value. -/
theorem atomicOp_performs (s : State) (k : AtomKind) (ord : Ord) (sc : Scope) (d : Fin 32) (m : SyAddr)
    (ready : AtomicReady s (s.regH m.h) (s.regS m.a).toNat k.bytes) (rel : (ord = .rel ∨ ord = .ar) → s.releaseWaits s.iss.task = false) :
    let pa := paOf (s.regH m.h) (s.regS m.a).toNat
    atomicOp k ord sc d m s = .ok ((acquiredBy (atomicHome s pa k) ord sc).resS d (BitVec.ofNat 64 (memRead s.mem pa k.bytes))) := by
  intro pa
  obtain ⟨access, align, reply, -⟩ := atomicPasses_checks s _ _ _ m.h.val ready.1
  have old := performAtomic_old s s.iss.die s.iss.core pa k
  have home := atHome_performs s _ _ k ready
  simp only [atomicOp, reply, State.syOff, access, align, except_ok_bind, acquire_eq]
  split
  next rels =>
    rw [release_ok s (rel (by simpa [ordRels] using rels)), except_ok_bind, home, except_ok_bind, old]
    rfl
  next =>
    rw [home, except_ok_bind, old]
    rfl

/-- What an amo or cas with a new value leaves. -/
theorem atomicOp_written (s : State) (k : AtomKind) (ord : Ord) (sc : Scope) (d : Fin 32) (pa v : Nat) (old : Word)
    (new : k.result (memRead s.mem pa k.bytes) = some v) :
    let t := (acquiredBy (atomicHome s pa k) ord sc).resS d old
    MemoryWritten s t pa k.bytes v ∧ (∀ r : Fin 32, t.me.live.rdS r = if r = d ∧ d ≠ 0 then old else s.me.live.rdS r)
      ∧ t.me.latches = { s.me.latches with ls := some old } := by
  obtain ⟨written, live, latches⟩ := atomicHome_some s pa k v new
  have caches := onlyCaches_acquiredBy (atomicHome s pa k) ord sc
  obtain ⟨reads, latched⟩ := resS_me (acquiredBy (atomicHome s pa k) ord sc) d old
  rw [onlyCaches_me caches, live] at reads
  rw [onlyCaches_me caches, latches] at latched
  refine ⟨?_, reads, latched⟩
  rw [State.resS_eq]
  exact memoryWritten_modMe (memoryWritten_onlyCaches written caches (acquiredBy_freeCount _ ord sc)) _

theorem atomicResults : Stated.AtomicResults := by
  intro s op w32 ord sc d e m _ n h off pa old ready rel
  have width : (if w32 then 32 else 64) = 8 * n := by cases w32 <;> rfl
  have compared : (AtomKind.cas w32 (s.regS d) (s.regS e)).result old
      = if old = (s.regS d).toNat % 2 ^ (8 * n) then some ((s.regS e).toNat % 2 ^ (8 * n)) else none := by rw [← width]; rfl
  have cas : exec (.cas w32 ord sc d m e) s = .next _ :=
    congrArg (resolve s) (atomicOp_performs s (.cas w32 (s.regS d) (s.regS e)) ord sc d m ready rel)
  refine ⟨?_, fun equal => ?_, fun differs => ?_⟩
  · have amo : exec (.amo op w32 ord sc d m) s = .next _ := congrArg (resolve s) (atomicOp_performs s (.amo op w32 (s.regS d)) ord sc d m ready rel)
    have new : (AtomKind.amo op w32 (s.regS d)).result old = some (amoNew op (8 * n) old ((s.regS d).toNat % 2 ^ (8 * n))) := by
      rw [← amoApply_eq, ← width]
      rfl
    exact ⟨_, amo, atomicOp_written s _ ord sc d pa _ _ new⟩
  · rw [if_pos equal] at compared
    exact ⟨_, cas, atomicOp_written s _ ord sc d pa _ _ compared⟩
  · rw [if_neg differs] at compared
    have caches := onlyCaches_acquiredBy s ord sc
    obtain ⟨reads, -⟩ := resS_me (acquiredBy s ord sc) d (BitVec.ofNat 64 old)
    rw [onlyCaches_me caches] at reads
    rw [atomicHome_none s _ _ compared] at cas
    refine ⟨_, cas, ?_, reads⟩
    have state := caches.1
    rw [acquiredBy_freeCount] at state
    rw [State.resS_eq, state]
    rfl

/-! ### famo (R241, R242) -/

theorem famo_bytes (op : FamoOp) (ty : FamoTy) (v : Word) : (AtomKind.famo op ty v).bytes = if ty = .f32 then 4 else 2 := by
  cases ty <;> rfl

/-- The update of a famo of the issuing task (R242). -/
def updateOf (s : State) (op : FamoOp) (ty : FamoTy) (h : Handle) (pa : Nat) (v : Word) : Update :=
  { domain := s.me.domain, ep := s.me.live.ep, key := s.me.key, seq := s.me.live.seq, pa := pa, op := op, ty := ty, v := v,
    launch := s.me.launch, task := s.iss.task, claim := h.claim }

section Famo

variable (s : State) (op : FamoOp) (ty : FamoTy) (sc : Scope) (m : SyAddr) (d : SSrc) (v : Word) (src : s.srcS d = .ok v)
include src

theorem actFamo_atOnce (hbm : isHbm (paOf (s.regH m.h) (s.regS m.a).toNat) = true) (det : s.myLaunch.det = false)
    (ready : AtomicReady s (s.regH m.h) (s.regS m.a).toNat (AtomKind.famo op ty v).bytes) :
    actFamo op ty sc m d s = .ok (atomicHome s (paOf (s.regH m.h) (s.regS m.a).toNat) (.famo op ty v)) := by
  obtain ⟨access, align, reply, -⟩ := atomicPasses_checks s _ _ _ m.h.val ready.1
  have home := atHome_performs s _ _ (.famo op ty v) ready
  simp only [actFamo, src, reply, State.syOff, access, align, hbm, det, home, except_ok_bind, require_true]
  rfl

theorem actFamo_sends (hbm : isHbm (paOf (s.regH m.h) (s.regS m.a).toNat) = true) (det : s.myLaunch.det = true)
    (passes : AtomicPasses s (s.regH m.h) (s.regS m.a).toNat (AtomKind.famo op ty v).bytes) (rel : s.releaseWaits s.iss.task = false) :
    let pa := paOf (s.regH m.h) (s.regS m.a).toNat
    actFamo op ty sc m d s = .error (.wait (.famo s.me.domain s.me.live.ep pa) (.famo (updateOf s op ty (s.regH m.h) pa v))) := by
  intro pa
  obtain ⟨access, align, reply, tests⟩ := atomicPasses_checks s _ _ _ m.h.val passes
  simp only [actFamo, src, reply, State.syOff, access, align, hbm, det, release_ok s rel, tests, except_ok_bind, require_true]
  rfl

/-- A bundle that finds its update accepted takes the reply and advances SEQ. -/
theorem actFamo_accepted (det : s.myLaunch.det = true) (reply : s.me.reply ≠ none) : actFamo op ty sc m d s
    = .ok (s.modMe fun t => { t with reply := none, live := { t.live with seq := t.live.seq + 1 } }) := by
  obtain ⟨r, reply⟩ := Option.ne_none_iff_exists'.1 reply
  simp only [actFamo, src, reply, det, except_ok_bind, if_true]
  exact congrArg Except.ok (State.modMe_modMe s (fun t => { t with reply := none }) fun t => { t with live := { t.live with seq := t.live.seq + 1 } })

end Famo

theorem famoResults : Stated.FamoResults := by
  intro s op ty sc m d v src n h off pa
  have bytes : (AtomKind.famo op ty v).bytes = n := famo_bytes op ty v
  refine ⟨fun hbm det ready => ?_, fun hbm det passes rel => ?_, fun det reply => ?_⟩
  · have new : (AtomKind.famo op ty v).result (memRead s.mem pa (AtomKind.famo op ty v).bytes) = some (famoApply op ty (memRead s.mem pa n) v.toNat) := by
      rw [bytes]
      rfl
    have written := atomicHome_some s pa _ _ new
    rw [← bytes] at ready
    rw [bytes] at written
    exact ⟨_, congrArg (resolve s) (actFamo_atOnce s op ty sc m d v src hbm det ready), written⟩
  · rw [← bytes] at passes
    exact ⟨updateOf s op ty h pa v, congrArg (resolve s) (actFamo_sends s op ty sc m d v src hbm det passes rel), rfl, rfl, rfl, rfl, rfl, rfl⟩
  · exact congrArg (resolve s) (actFamo_accepted s op ty sc m d v src det reply)

/-! ### fence (R137, R138, R243) -/

/-- The acquire part of a fence. -/
def fenced (s : State) (md : FenceMode) (sc : Scope) : State := if md = .rel then s else acquired s sc

/-- A fence whose release part has nothing to wait for. -/
theorem actFence_passes (s : State) (md : FenceMode) (sc : Scope) (performed : md ≠ .acq → s.releaseWaits s.iss.task = false) :
    actFence md sc s = .ok (fenced s md sc) := by
  simp only [actFence, acquire_eq]
  by_cases acq : md = .acq
  · subst acq
    rfl
  · rw [if_pos acq, release_ok s (performed acq)]
    rfl

/-- A fence with a release part waits for the task's stores. -/
theorem actFence_waits (s : State) (md : FenceMode) (sc : Scope) (rel : md ≠ .acq) (waiting : s.releaseWaits s.iss.task = true) :
    actFence md sc s = waits .release := by
  simp only [actFence, if_pos rel, release_waits s waiting]
  rfl

theorem fenceResults : Stated.FenceResults := by
  intro s sc
  refine ⟨?_, fun performed => ⟨?_, ?_, ?_⟩, fun waiting md hmd => ?_⟩
  · exact congrArg (resolve s) (actFence_passes s .acq sc fun h => absurd rfl h)
  · exact congrArg (resolve s) (actFence_passes s .rel sc fun _ => performed)
  · exact congrArg (resolve s) (actFence_passes s .ar sc fun _ => performed)
  · exact congrArg (resolve s) (actFence_passes s .sc sc fun _ => performed)
  · have rel : md ≠ .acq := by rintro rfl; exact absurd hmd (by decide)
    exact congrArg (resolve s) (actFence_waits s md sc rel waiting)

/-- Settles O20: an atomic writes its new value to its bytes and returns the old one, an update leaves for its home, and a fence waits and acquires. -/
theorem atomics : Obligations.Atomics := ⟨atomicResults, famoResults, fenceResults⟩

end Sys2Proof.Machine
end

section
/-! SUPPORT. Crews: joins, leaves, the arrivals and the ends of rounds, and crew.sync (R137, R138, R162, R163, R242, R248). -/

set_option Elab.async false

namespace Sys2Proof.Machine

open Stated

/-! ### Crews of a launch (R162) -/

/-- The launch of the issuing task with one of its crews changed. -/
def crewed (s : State) (n : Nat) (f : Crew → Crew) : Launch := { s.myLaunch with crews := s.myLaunch.crews.modify n f }

theorem modCrew_mine (s : State) (n : Nat) (f : Crew → Crew) : s.modCrew s.me.launch n f = s.setLaunch s.me.launch (crewed s n f) := rfl

theorem crewed_becomes (s : State) (n : Nat) (f : Crew → Crew) (inside : n < s.myLaunch.crews.length) :
    CrewBecomes s.myLaunch (crewed s n f) n (f (s.myLaunch.crew n)) := by
  refine ⟨rfl, List.length_modify .., ?_, fun k other => ?_⟩
  · simp [crewed, Launch.crew, List.getD_eq_getElem?_getD, inside]
  · simp [crewed, Launch.crew, List.getD_eq_getElem?_getD, Ne.symm other]

theorem myLaunch_setLaunch (s : State) (l : Launch) : (s.setLaunch s.me.launch l).myLaunch = l := State.launch_setLaunch_same s _ l

theorem myLaunch_modMe (s : State) (f : Task → Task) (keeps : (f s.me).launch = s.me.launch) : (s.modMe f).myLaunch = s.myLaunch := by
  rw [State.myLaunch, State.me_modMe, keeps]
  rfl

/-- A change of a crew and of the issuing task's record replaces these two and nothing else. -/
theorem modCrew_modMe_eq (s : State) (n : Nat) (f : Crew → Crew) (g : Task → Task) (keeps : (g s.me).launch = s.me.launch) :
    let t := (s.modCrew s.me.launch n f).modMe g
    t = (s.setLaunch s.me.launch t.myLaunch).setTask s.iss.task t.me ∧ t.myLaunch = crewed s n f ∧ t.me = g s.me := by
  intro t
  have launch : t.myLaunch = crewed s n f := (myLaunch_modMe (s.modCrew s.me.launch n f) g keeps).trans (myLaunch_setLaunch s (crewed s n f))
  have me : t.me = g s.me := State.me_modMe _ g
  refine ⟨?_, launch, me⟩
  rw [launch, me]
  rfl

/-! ### Rounds (R163; log 72) -/

/-- A crew after the end of its round: those who joined during it are members of the next. -/
def nextRound (c : Crew) : Crew := { c with arrived := [], rounds := c.rounds + 1, members := c.members ++ c.joining, joining := [] }

theorem crewSettle_ends (c : Crew) (begun : c.arrived ≠ []) (all : ∀ j ∈ c.members, j ∈ c.arrived) : crewSettle c = nextRound c :=
  if_pos (by simpa [begun] using all)

theorem crewSettle_open (c : Crew) (away : ∃ j ∈ c.members, j ∉ c.arrived) : crewSettle c = c :=
  if_neg (by simpa using fun _ => away)

theorem crewSettle_idle (c : Crew) (idle : c.arrived = []) : crewSettle c = c := if_neg (by simp [idle])

/-- A leave as the statements write it out. -/
theorem crewDrop_eq (i : Nat) (c : Crew) : crewDrop i c = crewLeft i c := by
  let rest : Crew := { c with members := c.members.filter (· ≠ i), joining := c.joining.filter (· ≠ i), arrived := c.arrived.filter (· ≠ i) }
  have drop : crewDrop i c = if (crewSettle rest).arrived.isEmpty then
      { crewSettle rest with members := (crewSettle rest).members ++ (crewSettle rest).joining, joining := [] } else crewSettle rest := rfl
  rw [drop]
  by_cases idle : rest.arrived = []
  · have left : crewLeft i c = { c with members := rest.members ++ rest.joining, joining := [], arrived := [] } := if_pos idle
    rw [crewSettle_idle rest idle, left, if_pos (by simp [idle])]
    exact congrArg (fun a => { rest with members := rest.members ++ rest.joining, joining := [], arrived := a }) idle
  · by_cases all : ∀ j ∈ rest.members, j ∈ rest.arrived
    · have left : crewLeft i c = nextRound rest := (if_neg idle).trans (if_pos all)
      rw [crewSettle_ends rest idle all, left]
      simp [nextRound]
    · have left : crewLeft i c = rest := (if_neg idle).trans (if_neg all)
      rw [crewSettle_open rest (by simpa using all), left, if_neg (by simpa using idle)]

/-- An arrival that another member has still to follow. -/
theorem crewArrive_waits (i : Nat) (c : Crew) (new : c.arrived.contains i = false)
    (others : ∃ j ∈ c.members, j ≠ i ∧ c.arrived.contains j = false) : crewSettle (crewArrive i c) = { c with arrived := c.arrived ++ [i] } := by
  obtain ⟨j, member, other, away⟩ := others
  have arrive : crewArrive i c = { c with arrived := c.arrived ++ [i] } := if_neg (by rw [new]; decide)
  have away' : j ∉ c.arrived := by simpa using away
  rw [arrive]
  exact crewSettle_open _ ⟨j, member, by simp [away', other]⟩

/-- The arrival of the last member ends the round. -/
theorem crewArrive_ends (i : Nat) (c : Crew) (others : ∀ j ∈ c.members, j = i ∨ c.arrived.contains j = true) :
    crewSettle (crewArrive i c) = nextRound c := by
  have mine : i ∈ (crewArrive i c).arrived := by
    unfold crewArrive
    split
    next here => simpa using here
    next => simp
  have kept (j : Nat) (here : j ∈ c.arrived) : j ∈ (crewArrive i c).arrived := by
    unfold crewArrive
    split
    · exact here
    · exact List.mem_append_left _ here
  have same : crewArrive i c = { c with arrived := (crewArrive i c).arrived } := by
    unfold crewArrive
    split <;> rfl
  have all (j : Nat) (member : j ∈ c.members) : j ∈ (crewArrive i c).arrived := by
    obtain rfl | here := others j member
    · exact mine
    · exact kept j (by simpa using here)
  rw [crewSettle_ends _ (List.ne_nil_of_mem mine) (by rw [same]; exact all), same]
  rfl

/-! ### Joins and leaves (R162, R163, R248) -/

/-- An instruction about a crew that the launch does not have, or that its task is no member of, raises CREW_STATE. -/
theorem crew_refused (s : State) (n : Fin 256)
    (bad : s.myLaunch.crews.length ≤ n.val ∨ (s.myLaunch.crew n.val).members.contains s.iss.task = false) :
    actCrewLeave n s = crewTrap n.val ∧ ∀ close, actCrewSync n close s = crewTrap n.val := by
  have test : (decide (n.val < s.myLaunch.crews.length) && (s.myLaunch.crew n.val).members.contains s.iss.task) = false := by
    obtain outside | other := bad
    · rw [decide_eq_false (by omega), Bool.false_and]
    · rw [other, Bool.and_false]
  refine ⟨?_, fun close => ?_⟩
  · simp only [actCrewLeave, test, require_false]
    rfl
  · simp only [actCrewSync, test, require_false]
    rfl

theorem crewMembers : Stated.CrewMembers := by
  intro s n l i c
  refine ⟨fun inside die new few fits => ?join, fun bad => ?noJoin, fun inside member => ?leave, fun bad => ?noLeave⟩
  case join =>
    let f : Crew → Crew := fun c => if c.arrived.isEmpty then { c with members := c.members ++ [i] } else { c with joining := c.joining ++ [i] }
    have run : exec (.crewJoin n) s = .next (s.setLaunch s.me.launch (crewed s n.val f)) := by
      show resolve s (actCrewJoin n s) = _
      simp only [actCrewJoin]
      rw [decide_eq_true inside, decide_eq_true die, new, decide_eq_true few, fits]
      rfl
    have joined : f c = if c.arrived = [] then { c with members := c.members ++ [i] } else { c with joining := c.joining ++ [i] } := by
      simp only [f, List.isEmpty_iff]
    refine ⟨_, run, ?_, ?_⟩
    · rw [myLaunch_setLaunch]
    · rw [myLaunch_setLaunch, ← joined]
      exact crewed_becomes s n.val f inside
  case noJoin =>
    have test : (decide (n.val < l.crews.length) && decide (c.die = s.iss.die) && !c.all.contains i && decide (l.crewsOf i < 4)
        && s.groupFits (s.joinGroup i n.val)) = false := by
      by_contra passes
      simp only [Bool.not_eq_false, Bool.and_eq_true, decide_eq_true_eq, Bool.not_eq_true'] at passes
      obtain ⟨⟨⟨⟨inside, die⟩, new⟩, few⟩, fits⟩ := passes
      obtain outside | away | member | many | full := bad
      · omega
      · exact away die
      · exact absurd (new.symm.trans member) (by decide)
      · omega
      · exact absurd (fits.symm.trans full) (by decide)
    show resolve s (actCrewJoin n s) = _
    simp only [actCrewJoin]
    rw [test]
    rfl
  case leave =>
    let g : Task → Task := fun t => { t with arrival := if t.arrival.map (·.1) = some n.val then none else t.arrival }
    have run : exec (.crewLeave n) s = .next ((s.modCrew s.me.launch n.val (crewDrop i)).modMe g) := by
      show resolve s (actCrewLeave n s) = _
      simp only [actCrewLeave]
      rw [decide_eq_true inside, member]
      rfl
    obtain ⟨state, launch, me⟩ := modCrew_modMe_eq s n.val (crewDrop i) g rfl
    refine ⟨_, run, state, ?_, me⟩
    rw [launch, ← crewDrop_eq]
    exact crewed_becomes s n.val (crewDrop i) inside
  case noLeave =>
    obtain ⟨leave, sync⟩ := crew_refused s n bad
    exact ⟨congrArg (resolve s) leave, fun close => congrArg (resolve s) (sync close)⟩

/-! ### crew.sync (R137, R138, R163, R242, R248) -/

/-- What the arrival of the issuing task at round r of crew n leaves in its record. -/
def arrivedAt (n r : Nat) (closes : Bool) (t : Task) : Task :=
  { t with arrival := some (n, r), closedTo := if closes then max t.closedTo (t.live.ep + 1) else t.closedTo }

/-- The arrival of the issuing task (R163, R242). -/
theorem applySide_arrive (s : State) (n : Nat) (close : Bool) : s.applySide (.arrive n (close && s.myLaunch.det))
    = (s.modCrew s.me.launch n fun c => crewSettle (crewArrive s.iss.task c)).modMe
        (arrivedAt n (s.myLaunch.crew n).rounds (close && s.myLaunch.det)) := by
  let u := (s.modCrew s.me.launch n fun c => crewSettle (crewArrive s.iss.task c)).modMe fun t =>
    { t with arrival := some (n, (s.myLaunch.crew n).rounds) }
  have launch : u.launch s.me.launch = crewed s n fun c => crewSettle (crewArrive s.iss.task c) := myLaunch_setLaunch s _
  have det : (u.launch s.me.launch).det = s.myLaunch.det := by
    rw [launch]
    rfl
  have side : s.applySide (.arrive n (close && s.myLaunch.det)) = if (close && s.myLaunch.det && (u.launch s.me.launch).det) = true
    then u.closePart s.iss.task else u := rfl
  rw [side, det, Bool.and_assoc, Bool.and_self]
  cases close && s.myLaunch.det
  · rfl
  · exact State.modMe_modMe _ _ _

/-- What follows the arrival at round r of crew n in state u: the task waits for the round, then for the epoch that it has closed, and departs. -/
def syncEnds (s u : State) (n r : Nat) (closes : Bool) (side : Side) : Act :=
  if (u.myLaunch.crew n).rounds = r then .error (.wait (.crew n r) side)
  else if closes && !u.epochDone s.me.domain s.me.live.ep then .error (.wait (.epoch s.me.domain s.me.live.ep) side)
  else .ok (u.crewDepart closes)

/-- No record of an arrival at crew n is found. -/
theorem no_arrival_found (s : State) (n : Fin 256) (new : s.me.arrival.map (·.1) ≠ some n.val) :
    (s.me.arrival.filter fun a => decide (a.1 = n.val)).map (·.2) = none := by
  cases record : s.me.arrival with
  | none => rfl
  | some a =>
    have other : a.1 ≠ n.val := fun h => new (by rw [record, Option.map_some, h])
    rw [Option.filter_some, if_neg (by simpa using other)]
    rfl

section Sync

variable (s : State) (n : Fin 256) (close : Bool) (inside : n.val < s.myLaunch.crews.length)
  (member : (s.myLaunch.crew n.val).members.contains s.iss.task = true)
include inside member

/-- A replay finds the record of the arrival. -/
theorem actCrewSync_found (r : Nat) (record : s.me.arrival = some (n.val, r)) :
    actCrewSync n close s = syncEnds s s n.val r (close && s.myLaunch.det) .none := by
  simp only [actCrewSync, decide_eq_true inside, member, record, Option.filter_some, decide_true, if_true, Option.map_some]
  rfl

variable (new : s.me.arrival.map (·.1) ≠ some n.val)
include new

/-- The arrival waits for the task's stores. -/
theorem actCrewSync_releases (waiting : s.releaseWaits s.iss.task = true) : actCrewSync n close s = waits .release := by
  simp only [actCrewSync, decide_eq_true inside, member, no_arrival_found s n new, release_waits s waiting]
  rfl

theorem actCrewSync_arrives (performed : s.releaseWaits s.iss.task = false) : actCrewSync n close s
    = syncEnds s (s.applySide (.arrive n.val (close && s.myLaunch.det))) n.val (s.myLaunch.crew n.val).rounds (close && s.myLaunch.det)
        (.arrive n.val (close && s.myLaunch.det)) := by
  simp only [actCrewSync, decide_eq_true inside, member, no_arrival_found s n new, release_ok s performed]
  rfl

end Sync

/-- The round is open after the arrival: the task waits for it. -/
theorem syncEnds_waits (s u : State) (n r : Nat) (closes : Bool) (side : Side) (same : (u.myLaunch.crew n).rounds = r) :
    syncEnds s u n r closes side = .error (.wait (.crew n r) side) := if_pos same

/-- The round is over, and no epoch has still to be applied: the task departs. -/
theorem syncEnds_departs (s u : State) (n r : Nat) (closes : Bool) (side : Side) (ended : (u.myLaunch.crew n).rounds ≠ r)
    (applied : closes = true → u.epochDone s.me.domain s.me.live.ep = true) : syncEnds s u n r closes side = .ok (u.crewDepart closes) := by
  refine (if_neg ended).trans (if_neg ?_)
  cases closes
  · simp
  · simp [applied rfl]

/-- The round is over, and the epoch is not: the task waits for the epoch. -/
theorem syncEnds_epoch (s u : State) (n r : Nat) (side : Side) (ended : (u.myLaunch.crew n).rounds ≠ r)
    (going : u.epochDone s.me.domain s.me.live.ep = false) :
    syncEnds s u n r true side = .error (.wait (.epoch s.me.domain s.me.live.ep) side) :=
  (if_neg ended).trans (if_pos (by rw [going]; rfl))

theorem crewDepart_open (s : State) : s.crewDepart false = (acquired s .die).modMe fun t => { t with arrival := none } := rfl

theorem crewDepart_closed (s : State) : s.crewDepart true = (acquired s .die).modMe fun t =>
    { t with arrival := none, live := { t.live with ep := t.live.ep + 1, seq := 0 } } :=
  State.modMe_modMe (acquired s .die) (fun t => { t with arrival := none }) fun t => { t with live := t.live.nextEpoch }

/-- The departure clears a record that the arrival of the same bundle has made. -/
theorem crewDepart_arrived (s : State) (n r : Nat) :
    (s.modMe (arrivedAt n r false)).crewDepart false = (acquired s .die).modMe fun t => { t with arrival := none } :=
  State.modMe_modMe (acquired s .die) (arrivedAt n r false) fun t => { t with arrival := none }

theorem crewResults : Stated.CrewResults := by
  intro s n close l i c closes u inside member
  have found (close : Bool) (r : Nat) (record : s.me.arrival = some (n.val, r)) : exec (.crewSync n close) s = _ :=
    congrArg (resolve s) (actCrewSync_found s n close inside member r record)
  have arrives (close : Bool) (new : s.me.arrival.map (·.1) ≠ some n.val) (performed : s.releaseWaits i = false) : exec (.crewSync n close) s = _ :=
    congrArg (resolve s) (actCrewSync_arrives s n close inside member new performed)
  let f : Crew → Crew := fun c => crewSettle (crewArrive i c)
  have crew : (crewed s n.val f).crew n.val = f c := (crewed_becomes s n.val f inside).2.2.1
  refine ⟨fun r record ended => ?departs, fun r record same => ?waits, fun new waiting => ?release, fun new performed away others => ?arrive,
    fun new performed others => ?last, fun r record ended => ⟨fun det => ?plain, fun det applied => ?applied, fun det going => ?going⟩⟩
  case departs =>
    rw [found false r record, Bool.false_and, syncEnds_departs s s n.val r false .none ended (fun h => absurd h (by decide)), crewDepart_open]
    rfl
  case waits =>
    rw [found close r record, syncEnds_waits s s n.val r _ .none same]
    rfl
  case release => exact congrArg (resolve s) (actCrewSync_releases s n close inside member new waiting)
  case arrive =>
    have side : u = (s.modCrew s.me.launch n.val f).modMe (arrivedAt n.val c.rounds closes) := applySide_arrive s n.val close
    obtain ⟨state, launch, me⟩ := modCrew_modMe_eq s n.val f (arrivedAt n.val c.rounds closes) rfl
    rw [← side] at state launch me
    have open_ : f c = { c with arrived := c.arrived ++ [i] } := crewArrive_waits i c away others
    have same : (u.myLaunch.crew n.val).rounds = c.rounds := by rw [launch, crew, open_]
    refine ⟨?_, state, ?_, me⟩
    · rw [arrives close new performed, syncEnds_waits s _ n.val c.rounds _ _ same]
      rfl
    · rw [launch, ← open_]
      exact crewed_becomes s n.val f inside
  case last =>
    let v := (s.modCrew s.me.launch n.val f).modMe (arrivedAt n.val c.rounds false)
    have side : s.applySide (.arrive n.val (false && l.det)) = v := applySide_arrive s n.val false
    obtain ⟨-, launch, -⟩ := modCrew_modMe_eq s n.val f (arrivedAt n.val c.rounds false) rfl
    have ends : f c = nextRound c := crewArrive_ends i c others
    have ended : (v.myLaunch.crew n.val).rounds ≠ c.rounds := by
      rw [launch, crew, ends]
      exact Nat.succ_ne_self c.rounds
    refine ⟨crewed s n.val f, ?_, ?_⟩
    · rw [arrives false new performed, side, Bool.false_and, syncEnds_departs s v n.val c.rounds false _ ended (fun h => absurd h (by decide)),
        crewDepart_arrived, modCrew_mine]
      rfl
    · have becomes := crewed_becomes s n.val f inside
      rwa [show f (s.myLaunch.crew n.val) = nextRound c from ends] at becomes
  case plain => rw [found true r record, found false r record, det, Bool.and_false, Bool.and_false]
  case applied =>
    rw [found true r record, det, Bool.and_self, syncEnds_departs s s n.val r true .none ended (fun _ => applied), crewDepart_closed]
    rfl
  case going =>
    rw [found true r record, det, Bool.and_self, syncEnds_epoch s s n.val r .none ended going]
    rfl

/-- Settles O22: joins and leaves by the crew that they leave, and crew.sync by its arrival, its waits and its departure. -/
theorem crews : Obligations.Crews := ⟨crewMembers, crewResults⟩

end Sys2Proof.Machine
end

section
/-! SUPPORT. spawn and done, and the end of a task (R119, R146, R150, R154, R163, R168, R200, R227, R228, R338). -/

set_option Elab.async false

namespace Sys2Proof.Machine

open Stated

/-! ### The place of a child (R150; log 74) -/

/-- The position of a core in a list is that of its first appearance. -/
theorem findIdx?_core (cs : List (Nat × Nat)) (core q : Nat) (here : (cs.map (·.2))[q]? = some core) (first : core ∉ (cs.map (·.2)).take q) :
    cs.findIdx? (fun p => p.2 = core) = some q := by
  obtain ⟨inside, at_q⟩ := List.getElem?_eq_some_iff.1 here
  rw [List.findIdx?_eq_some_iff_getElem]
  refine ⟨by simpa using inside, by simpa using at_q, fun j earlier same => first ?_⟩
  rw [List.mem_take_iff_getElem]
  exact ⟨j, by omega, by simpa using same⟩

theorem findIdx?_core_none (cs : List (Nat × Nat)) (core : Nat) (away : core ∉ cs.map (·.2)) : cs.findIdx? (fun p => p.2 = core) = none := by
  rw [List.findIdx?_eq_none_iff]
  intro p hp
  exact decide_eq_false fun same => away (same ▸ List.mem_map_of_mem hp)

/-- A child without a named core stands call places after its parent's position on the ring of eligible cores. -/
theorem childCore_at (l : Launch) (die core call : Nat) (some_ : l.eligOn die ≠ []) :
    ((l.eligOn die).map (·.2))[(((l.eligOn die).findIdx? fun p => p.2 = core).getD 0 + call) % ((l.eligOn die).map (·.2)).length]?
      = some (childCore l die core call) := by
  have inside : (((l.eligOn die).findIdx? fun p => p.2 = core).getD 0 + call) % (l.eligOn die).length < (l.eligOn die).length :=
    Nat.mod_lt _ (List.length_pos_of_ne_nil some_)
  simp only [childCore, List.length_map, List.getElem?_map, List.getD_eq_getElem?_getD, List.getElem?_eq_getElem inside, Option.map_some,
    Option.getD_some]

/-! ### spawn (R146, R168, R200, R227) -/

/-- A named core is on the launch's list for the die exactly where it is eligible. -/
theorem any_eligOn (l : Launch) (d c : Nat) : (l.eligOn d).any (fun p => decide (p.2 = c)) = decide ((d, c) ∈ l.eligible) := by
  rw [Bool.eq_iff_iff, List.any_eq_true, decide_eq_true_iff]
  constructor
  · rintro ⟨⟨d', c'⟩, listed, same⟩
    obtain ⟨eligible, onDie⟩ := List.mem_filter.1 listed
    obtain rfl : d' = d := of_decide_eq_true onDie
    obtain rfl : c' = c := of_decide_eq_true same
    exact eligible
  · exact fun eligible => ⟨(d, c), List.mem_filter.2 ⟨eligible, decide_eq_true rfl⟩, decide_eq_true rfl⟩

theorem regRun_head (s : State) (a : Fin 32) : (s.regRun a 6).headD 0 = s.regS a := by
  show s.regS (Fin.ofNat 32 (a.val + 0)) = s.regS a
  rw [Nat.add_zero, Fin.ofNat_val_eq_self]

/-- The pending child that a spawn creates (R146, R150, R200, R227). -/
def State.childOf (s : State) (a : Fin 32) (named : Bool) (core : Fin 16) (entry : Fin 256) : Task :=
  let t := s.me
  let call := t.live.callCount + 1
  let c := if named then core.val else childCore s.myLaunch t.die t.core call
  { s.newTask t.launch (childKey t.key.toNat call) t.die c entry.val ((s.regS a).toNat % 2 ^ 24) (s.regRun a 6) t.live.ep with
    parent := some s.iss.task, domain := t.domain, ancestry := t.ancestry, named := named }

/-- What limits a spawn: depth, call count and entry. -/
theorem actSpawn_limit (s : State) (a : Fin 32) (named : Bool) (core : Fin 16) (entry : Fin 256)
    (bad : keyDepth s.me.key.toNat = 5 ∨ s.me.live.callCount = 255 ∨ s.myLaunch.entries[entry.val]? = none) :
    actSpawn a named core entry s = raiseInfo .spawnLimit s.me.live.callCount := by
  unfold actSpawn
  by_cases room : keyDepth s.me.key.toNat ≠ 5 ∧ s.me.live.callCount ≠ 255
  · have unknown : s.myLaunch.entries[entry.val]? = none := by
      obtain depth | count | unknown := bad
      · exact absurd depth room.1
      · exact absurd count room.2
      · exact unknown
    simp only [decide_eq_true room.1, decide_eq_true room.2, Bool.and_self, require_true, except_ok_bind, unknown]
  · have full : (decide (keyDepth s.me.key.toNat ≠ 5) && decide (s.me.live.callCount ≠ 255)) = false := by simpa using room
    simp only [full, require_false]
    rfl

section Entry

variable (s : State) (a : Fin 32) (named : Bool) (core : Fin 16) (entry : Fin 256) (e : Entry) (depth : keyDepth s.me.key.toNat ≠ 5)
  (count : s.me.live.callCount ≠ 255) (known : s.myLaunch.entries[entry.val]? = some e)

include depth count known

theorem actSpawn_away (away : named = true ∧ (s.me.die, core.val) ∉ s.myLaunch.eligible) :
    actSpawn a named core entry s = raiseInfo .spawnLimit s.me.live.callCount := by
  unfold actSpawn
  simp only [decide_eq_true depth, decide_eq_true count, Bool.and_self, require_true, except_ok_bind, known, any_eligOn, away.1,
    decide_eq_false away.2, Bool.not_true, Bool.or_self, require_false]
  rfl

/-- Past its other tests, a spawn tests the child's footprint and the spawn area. -/
theorem actSpawn_placed (place : named = true → (s.me.die, core.val) ∈ s.myLaunch.eligible) :
    actSpawn a named core entry s = (require (s.childFits e ((s.regS a).toNat % 2 ^ 24)) (raise .footprintViolation) >>= fun _ =>
      if 4096 ≤ s.spawnWaiting s.me.die then .error (.park .spawnArea .none)
      else .ok ((s.modLive fun r => { r with callCount := r.callCount + 1 }).addTask (s.childOf a named core entry))) := by
  have eligible : (!named || decide ((s.me.die, core.val) ∈ s.myLaunch.eligible)) = true := by
    cases named with
    | false => rfl
    | true => simpa using place rfl
  unfold actSpawn
  simp only [decide_eq_true depth, decide_eq_true count, Bool.and_self, require_true, except_ok_bind, known, any_eligOn, eligible, regRun_head]
  rfl

end Entry

/-- The registers of a child: S1 to S6 hold the spawn's six arguments (R200). -/
theorem childOf_rdS (s : State) (a : Fin 32) (named : Bool) (core : Fin 16) (entry : Fin 256) (k : Fin 32) :
    (s.childOf a named core entry).live.rdS k = if 1 ≤ k.val ∧ k.val ≤ 6 then s.regS (Fin.ofNat 32 (a.val + k.val - 1)) else 0 := by
  show (if k = 0 then 0 else (Vector.ofFn fun k : Fin 32 => if 1 ≤ k.val ∧ k.val ≤ 6 then (s.regRun a 6).getD (k.val - 1) 0 else 0)[k]) = _
  by_cases zero : k = 0
  · subst zero; rfl
  · rw [if_neg zero, Fin.getElem_fin, Vector.getElem_ofFn]
    refine if_ctx_congr Iff.rfl (fun args => ?_) fun _ => rfl
    have inside : k.val - 1 < 6 := by omega
    show (s.regRun a 6).getD (k.val - 1) 0 = _
    rw [State.regRun, List.getD_eq_getElem?_getD, List.getElem?_map, List.getElem?_range inside, Nat.add_sub_assoc args.1]
    rfl

theorem spawnCreates : Stated.SpawnCreates := by
  intro s a named core entry e _ depth count known place fits room cores
  have run : exec (.spawn a named core entry) s
      = .next ((s.modLive fun r => { r with callCount := r.callCount + 1 }).addTask (s.childOf a named core entry)) := by
    show resolve s (actSpawn a named core entry s) = _
    rw [actSpawn_placed s a named core entry e depth count known place, fits, require_true, except_ok_bind, if_neg (Nat.not_le.2 room), resolve_ok]
  have placed (away : named = false) : (s.childOf a named core entry).core = childCore s.myLaunch s.me.die s.me.core (s.me.live.callCount + 1) :=
    if_neg (by rw [away]; decide)
  refine ⟨s.childOf a named core entry, run, rfl, rfl, rfl, rfl, rfl, rfl, rfl, rfl, rfl, fun byName => if_pos byName,
    fun away q here first => ?ring, fun away outside others => ?outside, ?pc, rfl, rfl, childOf_rdS s a named core entry⟩
  case ring =>
    have listed : s.myLaunch.eligOn s.me.die ≠ [] := by
      intro none
      simp [cores, none] at here
    rw [placed away, Nat.add_assoc, ← childCore_at _ _ _ _ listed, findIdx?_core _ _ q here first]
    rfl
  case outside =>
    have listed : s.myLaunch.eligOn s.me.die ≠ [] := fun none => others (congrArg (List.map (·.2)) none)
    rw [placed away, ← childCore_at _ _ _ _ listed, findIdx?_core_none _ _ outside, Option.getD_none, Nat.zero_add]
  case pc =>
    show ((s.myLaunch.entries[entry.val]?).map (·.code)).getD 0 * 16 = e.code * 16
    rw [known]
    rfl

theorem spawnWaits : Stated.SpawnWaits := by
  intro s a named core entry e _ depth count known place fits full
  show resolve s (actSpawn a named core entry s) = _
  rw [actSpawn_placed s a named core entry e depth count known place, fits, require_true, except_ok_bind, if_pos full, resolve_park]
  rfl

theorem spawnTraps : Stated.SpawnTraps := by
  intro s a named core entry
  refine ⟨fun bad => congrArg (resolve s) (actSpawn_limit s a named core entry bad), fun e depth count known => ⟨fun away => ?_, fun placed unfit => ?_⟩⟩
  · exact congrArg (resolve s) (actSpawn_away s a named core entry e depth count known away)
  · show resolve s (actSpawn a named core entry s) = _
    rw [actSpawn_placed s a named core entry e depth count known (fun byName => by_contra fun outside => placed ⟨byName, outside⟩), unfit, require_false]
    rfl

/-! ### done (R228, R338) -/

theorem doneEnds : Stated.DoneEnds := by
  intro s
  have run : exec .done s = resolve s (s.jobWait >>= fun _ => .ok (s.modMe fun t => { t with ending := some none })) := rfl
  refine ⟨fun pend ended => ?_, fun pend running old => ?_, fun r pend => ?_⟩
  · rw [run, jobWait_ok s pend ended]
    rfl
  · rw [run, jobWait_running s pend running old]
    rfl
  · rw [run, jobWait_trap s r pend]
    rfl

/-! ### Tables in order -/

/-- The keys of a table rise. -/
def Rising {α : Type} (m : SMap α) : Prop := (m.map (·.1)).Pairwise (· < ·)

theorem rising_smPut {α : Type} (m : SMap α) (k : Nat) (v : α) (h : Rising m) : Rising (smPut m k v) := by
  induction m with
  | nil => exact List.pairwise_singleton _ _
  | cons e m ih =>
    obtain ⟨k', v'⟩ := e
    obtain ⟨first, rest⟩ := List.pairwise_cons.1 h
    simp only [smPut]
    split
    next lower =>
      refine List.pairwise_cons.2 ⟨fun j hj => ?_, h⟩
      obtain rfl | later := List.mem_cons.1 hj
      · exact lower
      · exact lower.trans (first j later)
    next notLower =>
      split
      next same => exact same ▸ h
      next other =>
        refine List.pairwise_cons.2 ⟨fun j hj => ?_, ih rest⟩
        obtain ⟨x, hx, rfl⟩ := List.mem_map.1 hj
        obtain rfl | later := mem_smPut m k v x hx
        · show k' < k
          omega
        · exact first _ (List.mem_map_of_mem later)

/-- In a table with rising keys each listed value is the one read at its key. -/
theorem smGet_of_mem {α : Type} (d : α) (m : SMap α) (h : Rising m) (e : Nat × α) (he : e ∈ m) : smGet d m e.1 = e.2 := by
  induction m with
  | nil => cases he
  | cons x m ih =>
    obtain ⟨first, rest⟩ := List.pairwise_cons.1 h
    unfold smGet
    obtain rfl | later := List.mem_cons.1 he
    · exact if_pos rfl
    · rw [if_neg (Nat.ne_of_lt (first _ (List.mem_map_of_mem later)))]
      exact ih rest later

/-- In a table of tasks with rising numbers, a number is found by a test only if its task passes it. -/
theorem tasksWith_passes (s : State) (h : Rising s.tasks) (f : Nat → Task → Bool) (i : Nat) (hi : i ∈ s.tasksWith f) : f i (s.task i) = true := by
  obtain ⟨u, hu, passes, rfl⟩ := (mem_tasksWith s f i).1 hi
  rwa [show s.task u.1 = u.2 from smGet_of_mem _ _ h u hu]

theorem tasksWith_nodup (s : State) (h : Rising s.tasks) (f : Nat → Task → Bool) : (s.tasksWith f).Nodup :=
  (List.Pairwise.sublist (List.filter_sublist.map _) h).imp Nat.ne_of_lt

/-! ### What the end of a task leaves alone (R119, R154, R168, R170, R228) -/

/-- Of the tasks, levels, pending traps and the marks of the dependence table may differ, and no ended task starts again; of the launches, tile versions and
their pools; and the tables of dies, tags, claim requests and gangs. -/
structure Around (s t : State) : Prop where
  frame : t = { s with tasks := t.tasks, launches := t.launches, dies := t.dies, tags := t.tags, claimReqs := t.claimReqs, gangs := t.gangs }
  launch : ∀ n, t.launch n = { s.launch n with versions := (t.launch n).versions, pools := (t.launch n).pools }
  task : ∀ j, t.task j = { s.task j with level := (t.task j).level, pendTrap := (t.task j).pendTrap
                                         status := (t.task j).status, waitedInTable := (t.task j).waitedInTable }
  order : Rising s.tasks → Rising t.tasks
  ended : Rising s.tasks → ∀ j, (s.task j).status = .ended → (t.task j).status = .ended

namespace Around

theorem refl (s : State) : Around s s := ⟨rfl, fun _ => rfl, fun _ => rfl, id, fun _ _ => id⟩

theorem trans {s t u : State} (h : Around s t) (k : Around t u) : Around s u where
  frame := by rw [k.frame, h.frame]
  launch n := by rw [k.launch, h.launch]
  task j := by rw [k.task, h.task]
  order rising := k.order (h.order rising)
  ended rising j past := k.ended (h.order rising) j (h.ended rising j past)

theorem foldl {α : Type} (f : State → α → State) (h : ∀ s a, Around s (f s a)) (l : List α) (s : State) : Around s (l.foldl f s) := by
  induction l generalizing s with
  | nil => exact refl s
  | cons a l ih => exact (h s a).trans (ih _)

/-- A change of tables of dies, tags, claim requests and gangs alone. -/
theorem tables (s : State) (dies : SMap Die) (tags : SMap Tag) (reqs : List ClaimReq) (gangs : List Gang) :
    Around s { s with dies := dies, tags := tags, claimReqs := reqs, gangs := gangs } := ⟨rfl, fun _ => rfl, fun _ => rfl, id, fun _ _ => id⟩

/-- A change of a task in the fields that may differ, where an ended task stays ended. -/
theorem modTask (s : State) (i : Nat) (f : Task → Task)
    (keeps : f (s.task i) = { s.task i with level := (f (s.task i)).level, pendTrap := (f (s.task i)).pendTrap
                                            status := (f (s.task i)).status, waitedInTable := (f (s.task i)).waitedInTable })
    (ended : Rising s.tasks → (s.task i).status = .ended → (f (s.task i)).status = .ended) : Around s (s.modTask i f) where
  frame := rfl
  launch _ := rfl
  task j := by
    by_cases same : j = i
    · subst same
      rw [State.task_modTask_same]
      exact keeps
    · rw [State.task_modTask_other _ _ _ _ same]
  order := rising_smPut _ _ _
  ended rising j past := by
    by_cases same : j = i
    · subst same
      rw [State.task_modTask_same]
      exact ended rising past
    · rwa [State.task_modTask_other _ _ _ _ same]

theorem relevel (s : State) (e : ClaimEntry) : Around s (s.relevel e) := modTask s _ _ rfl fun _ past => past

theorem pendTrap (s : State) (i : Nat) (r : TrapRec) : Around s (s.pendTrap i r) := modTask s _ _ rfl fun _ past => past

theorem setTag (s : State) (pa : Nat) (t : Tag) : Around s (s.setTag pa t) := tables s _ _ _ _

theorem freeClaim (s : State) (cell : Nat) : Around s (s.freeClaim cell) := by
  unfold State.freeClaim
  split
  · exact (relevel s _).trans (tables _ _ _ _ _)
  · exact tables s _ _ _ _

theorem failClaim (s : State) (cell : Nat) : Around s (s.failClaim cell) :=
  ((foldl _ (fun _ _ => pendTrap _ _ _) _ s).trans (freeClaim _ cell)).trans (setTag _ cell .failed)

theorem dropVersions (s : State) (n : Nat) : Around s (s.dropVersions n) where
  frame := rfl
  launch k := by
    by_cases same : k = n
    · subst same
      rw [State.dropVersions, State.launch_setLaunch_same]
    · rw [State.dropVersions, State.launch_setLaunch_other _ _ _ _ same]
  task _ := rfl
  order := id
  ended _ _ := id

end Around

/-- A loop that at each turn keeps its choice or takes the turn's element ends with its first choice or with an element of the list. -/
theorem foldl_picks {α : Type} (f : Option α → α → Option α) (picks : ∀ a b, f a b = a ∨ f a b = some b) (l : List α) (a : Option α) (i : α)
    (picked : l.foldl f a = some i) : a = some i ∨ i ∈ l := by
  induction l generalizing a with
  | nil => exact .inl picked
  | cons b l ih =>
    obtain here | later := ih (f a b) picked
    · obtain kept | taken := picks a b
      · exact .inl (kept ▸ here)
      · exact .inr (Option.some.inj (taken.symm.trans here) ▸ List.mem_cons_self)
    · exact .inr (List.mem_cons_of_mem b later)

theorem firstTask_mem (s : State) (l : List Nat) (i : Nat) (first : s.firstTask l = some i) : i ∈ l := by
  refine (foldl_picks _ (fun a b => ?_) l none i first).resolve_left nofun
  cases a with
  | none => exact .inr rfl
  | some j =>
    dsimp only
    split
    · exact .inr rfl
    · exact .inl rfl

theorem Around.fillTable (s : State) (d n : Nat) : Around s (s.fillTable d n) := by
  induction n generalizing s with
  | zero => exact .refl s
  | succ n ih =>
    rw [State.fillTable]
    split
    · split
      next i first =>
        refine .trans (Around.modTask s i _ rfl fun rising past => ?_) (ih _)
        have passes := tasksWith_passes s rising _ i (firstTask_mem s _ i first)
        simp [past] at passes
      next => exact .refl s
    · exact .refl s

/-! ### The steps of the end of a task (R119, R163, R228, R351) -/

/-- A core that task i has left. -/
def Core.leftBy (i : Nat) (x : Core) : Core :=
  { x with
    issuing := if x.issuing = some i then none else x.issuing
    engine := x.engine.filter (· ≠ i) }

/-- A claim entry that task i no longer waits for. -/
def ClaimEntry.leftBy (i : Nat) (x : ClaimEntry) : ClaimEntry := { x with waiters := x.waiters.filter fun w => w.task ≠ i }

/-- The slot on the core and the crews that a task gives up as it ends, and the abort that its launch notes. -/
def State.slotLeft (s : State) (i : Nat) (status : Option (Nat × Bool)) : State :=
  let t := s.task i
  let s := s.modCore t.die t.core (Core.leftBy i)
  let s := s.modLaunch t.launch fun l => { l with crews := l.crews.map (crewDrop i) }
  match status with
  | some (c, f) => s.modLaunch t.launch fun l => noteAbort l t.key c f
  | none => s

/-- The claim that task i evaluated and did not settle has failed (R119). -/
def State.evalEnds (s : State) (i : Nat) : Option Nat → State
  | some cell =>
    if (s.claimEntry cell).map ClaimEntry.evaluator ≠ some i then s
    else if s.tag cell = Tag.working then s.failClaim cell
    else s.freeClaim cell
  | none => s

/-- Task i waits for no claim any more (R170). -/
def State.waitsLeft (s : State) (i : Nat) : State :=
  let left := s.dies.flatMap fun (e : Nat × Die) => e.2.claims.filter fun x => x.waiters.any fun w => decide (w.task = i)
  let s := left.foldl (fun s x => s.relevel (x.leftBy i)) s
  { s with
    claimReqs := s.claimReqs.filter fun r => r.task ≠ i
    dies := s.dies.map fun (e : Nat × Die) => (e.1, { e.2 with claims := e.2.claims.map (ClaimEntry.leftBy i) }) }

/-- The record of a task that has ended. -/
def Task.gone (t : Task) : Task :=
  { t with
    status := .ended, ending := none, parkedOn := .none, arrival := none, pendTrap := none
    withheld := [], shadow := [], shadowBad := [], tiles := [], swapFrame := none, reply := none, cReply := [], scans := [], opened := none, stallSince := none
    yieldDue := none, walkPoison := none }

/-- The abort request of a gang's task that has failed (R351, R419). -/
def State.abortAsked (s : State) (t : Task) (status : Option (Nat × Bool)) : State :=
  match status, (s.launch t.launch).gang with
  | some (_, f), some g =>
    if !f && !(s.launch t.launch).retired && t.live.hnd && decide (field t.live.s[24].toNat 7 0 = Trap.abortToken.code) then s
    else { s with gangs := s.gangs.modify g (Gang.ask t.die 6 t.key.toNat (s.modId t.die + t.die * 2 ^ 10 + t.core * 2 ^ 13)) }
  | _, _ => s

/-- The end of a task is these steps, with its record cleared among them. -/
theorem finishTask_eq (s : State) (i : Nat) (status : Option (Nat × Bool)) : s.finishTask i status
    = ((((((s.slotLeft i status).evalEnds i (s.task i).evalCell).waitsLeft i).modTask i Task.gone).abortAsked (s.task i) status).dropVersions
        (s.task i).launch).fillTable (s.task i).die tableSize := rfl

theorem slotLeft_frame (s : State) (i : Nat) (status : Option (Nat × Bool)) :
    s.slotLeft i status = { s with cores := (s.slotLeft i status).cores, launches := (s.slotLeft i status).launches } := by
  cases status <;> rfl

theorem leftBy_issuing (i : Nat) (x : Core) : (x.leftBy i).issuing ≠ some i := by
  unfold Core.leftBy
  by_cases mine : x.issuing = some i <;> simp [mine]

theorem slotLeft_issuing (s : State) (i : Nat) (status : Option (Nat × Bool)) :
    ((s.slotLeft i status).core (s.task i).die (s.task i).core).issuing ≠ some i := by
  have left : (s.slotLeft i status).core (s.task i).die (s.task i).core = (s.core (s.task i).die (s.task i).core).leftBy i := by
    cases status <;> exact State.core_modCore_same s _ _ (Core.leftBy i)
  rw [left]
  exact leftBy_issuing i _

/-- A change of a launch keeps what it keeps of that launch. -/
theorem launch_modLaunch_keeps {α : Type} (p : Launch → α) (s : State) (n k : Nat) (f : Launch → Launch) (keeps : ∀ l, p (f l) = p l) :
    p ((s.modLaunch n f).launch k) = p (s.launch k) := by
  by_cases same : k = n
  · subst same
    rw [State.launch_modLaunch_same, keeps]
  · rw [State.modLaunch, State.launch_setLaunch_other _ _ _ _ same]

theorem noteAbort_keeps (l : Launch) (key : Word) (code : Nat) (fatal : Bool) :
    (noteAbort l key code fatal).retired = l.retired ∧ (noteAbort l key code fatal).crews = l.crews := by
  unfold noteAbort
  extract_lets counted
  split <;> exact ⟨rfl, rfl⟩

theorem slotLeft_retired (s : State) (i n : Nat) (status : Option (Nat × Bool)) :
    ((s.slotLeft i status).launch n).retired = (s.launch n).retired := by
  have dropped (s : State) (k : Nat) : ((s.modLaunch k fun l => { l with crews := l.crews.map (crewDrop i) }).launch n).retired = (s.launch n).retired :=
    launch_modLaunch_keeps Launch.retired s k n _ fun _ => rfl
  cases status with
  | none => exact dropped _ _
  | some x => exact (launch_modLaunch_keeps Launch.retired _ _ n _ fun l => (noteAbort_keeps l _ _ _).1).trans (dropped _ _)

theorem slotLeft_crews (s : State) (i : Nat) (status : Option (Nat × Bool)) :
    ((s.slotLeft i status).launch (s.task i).launch).crews = (s.launch (s.task i).launch).crews.map (crewDrop i) := by
  have dropped (s : State) (k : Nat) :
      ((s.modLaunch k fun l => { l with crews := l.crews.map (crewDrop i) }).launch k).crews = (s.launch k).crews.map (crewDrop i) :=
    congrArg Launch.crews (State.launch_modLaunch_same s k _)
  cases status with
  | none => exact dropped _ _
  | some x => exact (launch_modLaunch_keeps Launch.crews _ _ _ _ fun l => (noteAbort_keeps l _ _ _).2).trans (dropped _ _)

/-- A task that has left a crew is nowhere in it. -/
theorem crewDrop_without (i : Nat) (c : Crew) : i ∉ (crewDrop i c).members ∧ i ∉ (crewDrop i c).joining ∧ i ∉ (crewDrop i c).arrived := by
  rw [crewDrop_eq, crewLeft]
  split
  · simp
  · split <;> simp

theorem evalEnds_around (s : State) (i : Nat) (cell : Option Nat) : Around s (s.evalEnds i cell) := by
  cases cell with
  | none => exact .refl s
  | some cell =>
    rw [State.evalEnds]
    split
    · exact .refl s
    · split
      · exact .failClaim s cell
      · exact .freeClaim s cell

/-- An evaluator that ends with its cell WORKING leaves it FAILED. -/
theorem evalEnds_fails (s : State) (i cell : Nat) (mine : (s.claimEntry cell).map ClaimEntry.evaluator = some i) (working : s.tag cell = .working) :
    (s.evalEnds i (some cell)).tag cell = .failed := by
  have fails : s.evalEnds i (some cell) = s.failClaim cell := by
    rw [State.evalEnds, if_neg (not_not_intro mine), if_pos working]
  rw [fails]
  exact (tag_setTag _ cell cell .failed).trans (if_pos rfl)

theorem waitsLeft_around (s : State) (i : Nat) : Around s (s.waitsLeft i) := (Around.foldl _ (fun _ _ => .relevel _ _) _ s).trans (.tables _ _ _ _ _)

theorem waitsLeft_tags (s : State) (i : Nat) : (s.waitsLeft i).tags = s.tags :=
  foldl_keeps State.tags (fun s (x : ClaimEntry) => s.relevel (x.leftBy i)) (fun _ _ => rfl) _ s

theorem abortAsked_around (s : State) (t : Task) (status : Option (Nat × Bool)) : Around s (s.abortAsked t status) := by
  unfold State.abortAsked
  split
  · split
    · exact .refl s
    · exact .tables s _ _ _ _
  · exact .refl s

theorem abortAsked_tags (s : State) (t : Task) (status : Option (Nat × Bool)) : (s.abortAsked t status).tags = s.tags := by
  unfold State.abortAsked
  split
  · split <;> rfl
  · rfl

/-! ### The end of a task (R119, R163, R228) -/

/-- The end of a task takes it off its core and out of its crews, and ends its record; what lies between and after these leaves the rest alone. -/
theorem finishTask_steps (s : State) (i : Nat) (status : Option (Nat × Bool)) : ∃ v, Around (s.slotLeft i status) v
    ∧ Around (v.modTask i Task.gone) (s.finishTask i status) ∧ (s.finishTask i status).tags = ((s.slotLeft i status).evalEnds i (s.task i).evalCell).tags := by
  refine ⟨_, (evalEnds_around _ i (s.task i).evalCell).trans (waitsLeft_around _ i), ?_, ?_⟩
  · rw [finishTask_eq]
    exact ((abortAsked_around _ _ status).trans (.dropVersions _ _)).trans (.fillTable _ _ _)
  · rw [finishTask_eq, fillTable_keeps State.tags fun _ _ _ => rfl]
    exact (abortAsked_tags _ _ status).trans (waitsLeft_tags _ i)

section Finish

variable (s : State) (i : Nat) (status : Option (Nat × Bool))

theorem finishTask_mem : (s.finishTask i status).mem = s.mem := by
  obtain ⟨v, left, ended, -⟩ := finishTask_steps s i status
  rw [ended.frame]
  show v.mem = s.mem
  rw [left.frame, slotLeft_frame]

theorem finishTask_issuing : ((s.finishTask i status).core (s.task i).die (s.task i).core).issuing ≠ some i := by
  obtain ⟨v, left, ended, -⟩ := finishTask_steps s i status
  have cores : (s.finishTask i status).cores = (s.slotLeft i status).cores := by
    rw [ended.frame]
    show v.cores = _
    rw [left.frame]
  rw [State.core, cores]
  exact slotLeft_issuing s i status

theorem finishTask_launch (n : Nat) : ((s.finishTask i status).launch n).retired = ((s.slotLeft i status).launch n).retired
    ∧ ((s.finishTask i status).launch n).crews = ((s.slotLeft i status).launch n).crews := by
  obtain ⟨v, left, ended, -⟩ := finishTask_steps s i status
  rw [ended.launch, State.launch_modTask, left.launch]
  exact ⟨rfl, rfl⟩

theorem finishTask_crews : ∀ k ∈ ((s.finishTask i status).launch (s.task i).launch).crews, i ∉ k.members ∧ i ∉ k.joining ∧ i ∉ k.arrived := by
  rw [(finishTask_launch s i status _).2, slotLeft_crews]
  intro k hk
  obtain ⟨c, -, rfl⟩ := List.mem_map.1 hk
  exact crewDrop_without i c

/-- No other task ends, nor changes its launch, where a task ends. -/
theorem finishTask_others (j : Nat) (other : j ≠ i) :
    ((s.finishTask i status).task j).ending = (s.task j).ending ∧ ((s.finishTask i status).task j).launch = (s.task j).launch := by
  obtain ⟨v, left, ended, -⟩ := finishTask_steps s i status
  rw [ended.task, State.task_modTask_other _ _ _ _ other, left.task, slotLeft_frame]
  exact ⟨rfl, rfl⟩

theorem finishTask_closedTo : ((s.finishTask i status).task i).closedTo = (s.task i).closedTo := by
  obtain ⟨v, left, ended, -⟩ := finishTask_steps s i status
  rw [ended.task, State.task_modTask_same, left.task, slotLeft_frame]
  rfl

theorem finishTask_ended (rising : Rising s.tasks) :
    Rising (s.finishTask i status).tasks ∧ ((s.finishTask i status).task i).status = .ended := by
  obtain ⟨v, left, ended, -⟩ := finishTask_steps s i status
  have before : Rising (v.modTask i Task.gone).tasks := rising_smPut _ _ _ (left.order (by rwa [slotLeft_frame]))
  exact ⟨ended.order before, ended.ended before i (congrArg Task.status (State.task_modTask_same v i Task.gone))⟩

theorem finishTask_tags (plain : (s.task i).evalCell = none) : (s.finishTask i status).tags = s.tags := by
  obtain ⟨-, -, -, tags⟩ := finishTask_steps s i status
  rw [tags, plain, slotLeft_frame]
  rfl

theorem finishTask_failed (cell : Nat) (evaluates : (s.task i).evalCell = some cell)
    (mine : (s.claimEntry cell).map ClaimEntry.evaluator = some i) (working : s.tag cell = .working) : (s.finishTask i status).tag cell = .failed := by
  obtain ⟨-, -, -, tags⟩ := finishTask_steps s i status
  rw [State.tag, tags, evaluates]
  exact evalEnds_fails _ i cell (by rw [slotLeft_frame]; exact mine) (by rw [slotLeft_frame]; exact working)

end Finish

/-! ### The steps after a done (R161, R228) -/

/-- What a core does for one of its tasks that is to end. -/
def State.endTurn (s : State) (i : Nat) : State :=
  let s := s.retireTask i
  match (s.task i).ending with
  | some st =>
    let s := if s.enginesDone i then s.closePart i else s
    if s.canFinish i then s.finishTask i st else s
  | none => s

theorem finishTasks_eq (s : State) (d c : Nat) : s.finishTasks d c
    = (s.tasksWith fun _ t => decide (t.die = d) && decide (t.core = c) && decide (t.status ≠ .ended) && t.opened.isNone).foldl State.endTurn s := rfl

theorem retireTask_kept (s : State) (i : Nat) (kept : (s.launch (s.task i).launch).retired = false) : s.retireTask i = s := by
  simp [State.retireTask, kept]

/-- A task that is not to end, of a launch that goes on. -/
theorem endTurn_idle (s : State) (i : Nat) (kept : (s.launch (s.task i).launch).retired = false) (going : (s.task i).ending = none) :
    s.endTurn i = s := by
  simp only [State.endTurn, retireTask_kept s i kept, going]

section Turn

variable (s : State) (i : Nat) (st : Option (Nat × Bool)) (kept : (s.launch (s.task i).launch).retired = false) (ends : (s.task i).ending = some st)

include kept ends

theorem endTurn_busy (busy : s.enginesDone i = false) : s.endTurn i = s := by
  simp [State.endTurn, retireTask_kept s i kept, ends, State.canFinish, busy]

theorem endTurn_closes (engines : s.enginesDone i = true) :
    s.endTurn i = if ∃ x ∈ s.stores, x.task = i then s.closePart i else (s.closePart i).finishTask i st := by
  have still : (s.closePart i).enginesDone i = true := by
    rw [← engines]
    simp [State.enginesDone, State.hasCommands, State.closePart]
  have stores : (s.closePart i).stores = s.stores := rfl
  simp only [State.endTurn, retireTask_kept s i kept, ends, engines, if_true, State.canFinish, still, stores, Bool.true_and]
  by_cases pending : ∃ x ∈ s.stores, x.task = i
  · simp [pending]
  · rw [if_neg pending, if_pos (by simpa using pending)]

end Turn

/-- A loop in which one turn acts, and the others neither before it nor after it. -/
theorem foldl_once {σ : Type} (f : σ → Nat → σ) (i : Nat) (l : List Nat) (s : σ) (nodup : l.Nodup) (hi : i ∈ l) (before : ∀ j, j ≠ i → f s j = s)
    (after : ∀ j, j ≠ i → f (f s i) j = f s i) : l.foldl f s = f s i := by
  have still (l : List Nat) (t : σ) (others : i ∉ l) (h : ∀ j, j ≠ i → f t j = t) : l.foldl f t = t := by
    induction l with
    | nil => rfl
    | cons j l ih =>
      rw [List.mem_cons, not_or] at others
      rw [List.foldl_cons, h j (Ne.symm others.1)]
      exact ih others.2
  obtain ⟨first, rest, rfl⟩ := List.append_of_mem hi
  obtain ⟨away, -⟩ := List.nodup_cons.1 (List.nodup_middle.1 nodup)
  rw [List.mem_append, not_or] at away
  rw [List.foldl_append, still first s away.1 before, List.foldl_cons, still rest _ away.2 after]

/-- A core where one task is to end gives this task its turn. -/
theorem finishTasks_one (s : State) (i : Nat) (rising : Rising s.tasks) (listed : (i, s.task i) ∈ s.tasks) (alive : (s.task i).status ≠ .ended)
    (closed : (s.task i).opened = none) (before : ∀ j, j ≠ i → s.endTurn j = s) (after : ∀ j, j ≠ i → (s.endTurn i).endTurn j = s.endTurn i) :
    s.finishTasks (s.task i).die (s.task i).core = s.endTurn i := by
  rw [finishTasks_eq]
  refine foldl_once _ i _ s (tasksWith_nodup s rising _) ((mem_tasksWith _ _ _).2 ⟨_, listed, ?_, rfl⟩) before after
  simp [alive, closed]

theorem doneSteps : Stated.DoneSteps := by
  rintro s i _ _ st rising listed rfl rfl alive closed ends others kept
  have idle (j : Nat) (other : j ≠ i) : s.endTurn j = s := endTurn_idle s j (kept j) (others j other)
  refine ⟨fun busy => ?busy, fun job commands => ?ends⟩
  case busy =>
    have stays : s.endTurn i = s := by
      refine endTurn_busy s i st (kept i) ends ?_
      obtain running | commands := busy
      · rw [State.enginesDone, decide_eq_false running, Bool.false_and]
      · rw [State.enginesDone, commands, Bool.not_true, Bool.and_false]
    exact (finishTasks_one s i rising listed alive closed idle (by rwa [stays])).trans stays
  case ends =>
    have turn := endTurn_closes s i st (kept i) ends (by rw [State.enginesDone, decide_eq_true job, commands]; rfl)
    have mine : (s.closePart i).task i = { s.task i with closedTo := max (s.task i).closedTo ((s.task i).live.ep + 1) } := State.task_modTask_same s i _
    have same (j : Nat) (other : j ≠ i) : (s.closePart i).task j = s.task j := State.task_modTask_other s i j _ other
    refine ⟨fun pending => ?stores, fun performed => ?finish⟩
    case stores =>
      rw [if_pos pending] at turn
      refine (finishTasks_one s i rising listed alive closed idle fun j other => ?_).trans turn
      rw [turn]
      exact endTurn_idle _ j (by rw [same j other]; exact kept j) (by rw [same j other]; exact others j other)
    case finish =>
      rw [if_neg (by simpa using performed)] at turn
      have all : s.finishTasks (s.task i).die (s.task i).core = (s.closePart i).finishTask i st := by
        refine (finishTasks_one s i rising listed alive closed idle fun j other => ?_).trans turn
        obtain ⟨ending, launch⟩ := finishTask_others (s.closePart i) i st j other
        rw [turn]
        refine endTurn_idle _ j ?_ (by rw [ending, same j other]; exact others j other)
        rw [launch, (finishTask_launch _ i st _).1, slotLeft_retired, same j other]
        exact kept j
      obtain ⟨order, ended⟩ := finishTask_ended (s.closePart i) i st (rising_smPut _ _ _ rising)
      have issuing := finishTask_issuing (s.closePart i) i st
      have crews := finishTask_crews (s.closePart i) i st
      rw [mine] at issuing crews
      rw [all]
      refine ⟨finishTask_mem _ i st, ended, ?_, fun resident => ?_, issuing, crews, fun plain => ?_, fun cell evaluates entry working => ?_⟩
      · rw [finishTask_closedTo, mine]
      · have holds := tasksWith_passes _ order _ i resident
        simp [ended, TStatus.resident] at holds
      · exact finishTask_tags _ i st (by rw [mine]; exact plain)
      · exact finishTask_failed _ i st cell (by rw [mine]; exact evaluates) entry working

/-- Settles O16: spawn by its tests in order and the child it makes, done by its wait, and the steps after it by the turns of its core. -/
theorem spawnAndDone : Obligations.SpawnAndDone := ⟨spawnCreates, spawnWaits, spawnTraps, doneEnds, doneSteps⟩

end Sys2Proof.Machine
end

section
/-! SUPPORT. Words, lends and their fields both ways (R174 to R190, R202): what a reader of fields answers, words put together again from their
fields, and the bounds of encoded words and lends. -/

set_option Elab.async false

namespace Sys2Proof.Laws

open Sys2Proof Sys2Proof.Machine

/-! ### What the readers of fields answer (R179, R185, R198) -/

/-- A reader that gives every value back from its code, and answers a value from its code alone, answers the value that the field codes. -/
theorem answers_reads {α : Type} {get : Nat → Except Reject α} {code : α → Nat} (back : ∀ a, get (code a) = .ok a)
    (only : ∀ v a, get v = .ok a → v = code a) (p : α → Prop) (v : Nat) : Answers p (get v) ↔ ∀ a, v = code a → p a :=
  ⟨fun h a e => h a (e ▸ back a), fun h a e => h a (only v a e)⟩

@[simp] theorem answers_need (p : Unit → Prop) (b : Bool) (r : Reject) : Answers p (need b r) ↔ (b = true → p ()) := by
  cases b <;> simp [need]

@[simp] theorem answers_getReg (p : Fin 32 → Prop) (v : Nat) : Answers p (getReg v) ↔ ∀ d : Fin 32, v = d.val → p d :=
  answers_reads getReg_val (fun v d h => by
    unfold getReg at h
    split at h
    · cases h; rfl
    · split at h <;> cases h) p v

@[simp] theorem answers_getFin (n : Nat) (r : Reject) (p : Fin n → Prop) (v : Nat) :
    Answers p (getFin n v r) ↔ ∀ d : Fin n, v = d.val → p d :=
  answers_reads (get := fun v => getFin n v r) (fun d => getFin_val n d r) (fun v d h => by
    simp only [getFin] at h
    split at h <;> cases h
    rfl) p v

@[simp] theorem answers_getS (p : SSrc → Prop) (v : Nat) : Answers p (getS v) ↔ ∀ a, v = a.code → p a :=
  answers_reads getS_code (fun v a h => by
    unfold getS at h
    split at h
    · cases h; rfl
    · split at h <;> cases h <;> rfl) p v

@[simp] theorem answers_getV (p : VSrc → Prop) (v : Nat) : Answers p (getV v) ↔ ∀ a, v = a.code → p a :=
  answers_reads getV_code (fun v a h => by
    unfold getV at h
    split at h
    · cases h; rfl
    · split at h <;> cases h <;> rfl) p v

@[simp] theorem answers_getPlainS (p : SSrc → Prop) (v : Nat) :
    Answers p (getPlainS v) ↔ ∀ d : Fin 32, v = d.val → p (.reg d) := by
  have plain : getPlainS v = getReg v >>= fun d => .ok (.reg d) := by unfold getPlainS; cases getReg v <;> rfl
  simp [plain]

@[simp] theorem answers_getTy (p : VTy → Prop) (v : Nat) : Answers p (getTy v) ↔ ∀ a, v = a.code → p a :=
  answers_reads getTy_code (fun v a h => by unfold getTy at h; split at h <;> cases h <;> rfl) p v
@[simp] theorem answers_getMode (p : RMode → Prop) (v : Nat) : Answers p (getMode v) ↔ ∀ a, v = a.code → p a :=
  answers_reads getMode_code (fun v a h => by unfold getMode at h; split at h <;> cases h <;> rfl) p v
@[simp] theorem answers_getScope (p : Scope → Prop) (v : Nat) : Answers p (getScope v) ↔ ∀ a, v = a.code → p a :=
  answers_reads getScope_code (fun v a h => by unfold getScope at h; split at h <;> cases h <;> rfl) p v
@[simp] theorem answers_getHint (p : Hint → Prop) (v : Nat) : Answers p (getHint v) ↔ ∀ a, v = a.code → p a :=
  answers_reads getHint_code (fun v a h => by unfold getHint at h; split at h <;> cases h <;> rfl) p v
@[simp] theorem answers_getOrd (p : Ord → Prop) (v : Nat) : Answers p (getOrd v) ↔ ∀ a, v = a.code → p a :=
  answers_reads getOrd_code (fun v a h => by unfold getOrd at h; split at h <;> cases h <;> rfl) p v
@[simp] theorem answers_getFence (p : FenceMode → Prop) (v : Nat) : Answers p (getFence v) ↔ ∀ a, v = a.code → p a :=
  answers_reads getFence_code (fun v a h => by unfold getFence at h; split at h <;> cases h <;> rfl) p v
@[simp] theorem answers_getSCond (p : SCond → Prop) (v : Nat) : Answers p (getSCond v) ↔ ∀ a, v = a.code → p a :=
  answers_reads getSCond_code (fun v a h => by unfold getSCond at h; split at h <;> cases h <;> rfl) p v
@[simp] theorem answers_getFCond (p : FCond → Prop) (v : Nat) : Answers p (getFCond v) ↔ ∀ a, v = a.code → p a :=
  answers_reads getFCond_code (fun v a h => by unfold getFCond at h; split at h <;> cases h <;> rfl) p v
@[simp] theorem answers_getICond (p : ICond → Prop) (v : Nat) : Answers p (getICond v) ↔ ∀ a, v = a.code → p a :=
  answers_reads getICond_code (fun v a h => by unfold getICond at h; split at h <;> cases h <;> rfl) p v
@[simp] theorem answers_getAmo (p : AmoOp → Prop) (v : Nat) : Answers p (getAmo v) ↔ ∀ a, v = a.code → p a :=
  answers_reads getAmo_code (fun v a h => by unfold getAmo at h; split at h <;> cases h <;> rfl) p v
@[simp] theorem answers_getFamo (p : FamoOp → Prop) (v : Nat) : Answers p (getFamo v) ↔ ∀ a, v = a.code → p a :=
  answers_reads getFamo_code (fun v a h => by unfold getFamo at h; split at h <;> cases h <;> rfl) p v
@[simp] theorem answers_getFamoTy (p : FamoTy → Prop) (v : Nat) : Answers p (getFamoTy v) ↔ ∀ a, v = a.code → p a :=
  answers_reads getFamoTy_code (fun v a h => by unfold getFamoTy at h; split at h <;> cases h <;> rfl) p v
@[simp] theorem answers_getHchk (p : HchkSel → Prop) (v : Nat) : Answers p (getHchk v) ↔ ∀ a, v = a.code → p a :=
  answers_reads getHchk_code (fun v a h => by unfold getHchk at h; split at h <;> cases h <;> rfl) p v
@[simp] theorem answers_getEng (p : EngFmt → Prop) (v : Nat) : Answers p (getEng v) ↔ ∀ a, v = a.code → p a :=
  answers_reads getEng_code (fun v a h => by unfold getEng at h; split at h <;> cases h <;> rfl) p v
@[simp] theorem answers_getSeamCond (p : SeamCond → Prop) (v : Nat) : Answers p (getSeamCond v) ↔ ∀ a, v = a.code → p a :=
  answers_reads getSeamCond_code (fun v a h => by unfold getSeamCond at h; split at h <;> cases h <;> rfl) p v
@[simp] theorem answers_getSeamLog (p : SeamLog → Prop) (v : Nat) : Answers p (getSeamLog v) ↔ ∀ a, v = a.code → p a :=
  answers_reads getSeamLog_code (fun v a h => by unfold getSeamLog at h; split at h <;> cases h <;> rfl) p v
@[simp] theorem answers_getSeamRow (p : SeamRow → Prop) (v : Nat) : Answers p (getSeamRow v) ↔ ∀ a, v = a.code → p a :=
  answers_reads getSeamRow_code (fun v a h => by unfold getSeamRow at h; split at h <;> cases h <;> rfl) p v
@[simp] theorem answers_getQscl (p : QsclFmt → Prop) (v : Nat) : Answers p (getQscl v) ↔ ∀ a, v = a.code → p a :=
  answers_reads getQscl_code (fun v a h => by unfold getQscl at h; split at h <;> cases h <;> rfl) p v

/-! ### Words put together again from their fields (R180 to R188) -/

theorem ofFlag_flag (x n : Nat) : ofFlag (flag x n) = x / 2 ^ n % 2 := by
  rcases Nat.mod_two_eq_zero_or_one (x / 2 ^ n) with h | h <;> simp [flag, h, ofFlag]

/-- A field is zero where both its parts are. -/
theorem field_zero_iff (w hi mid lo : Nat) (h1 : lo < mid) (h2 : mid ≤ hi) :
    field w hi lo = 0 ↔ field w hi mid = 0 ∧ field w (mid - 1) lo = 0 := by
  have parts : hi + 1 - lo = mid - lo + (hi + 1 - mid) := by omega
  have low : mid - 1 + 1 - lo = mid - lo := by omega
  have high : w / 2 ^ lo / 2 ^ (mid - lo) = w / 2 ^ mid := by rw [Nat.div_div_eq_div_mul, ← Nat.pow_add]; congr 2; omega
  have pos : 0 < 2 ^ (mid - lo) := Nat.two_pow_pos _
  rw [field, field, field, low, parts, Nat.pow_add, Nat.mod_mul, high]
  simp only [Nat.add_eq_zero_iff, Nat.mul_eq_zero, Nat.ne_of_gt pos, false_or]
  exact And.comm

section
variable {w : Nat} (hw : w < 2 ^ 32)
include hw

theorem packSr_eq_iff {c m d a b l : Nat} (hm : m < 64) (hd : d < 64) (ha : a < 64) (hb : b < 64) (hl : l < 16) :
    packSr c m d a b l = w ↔
      field w 31 28 = c ∧ field w 27 22 = m ∧ field w 21 16 = d ∧ field w 15 10 = a ∧ field w 9 4 = b ∧ field w 3 0 = l := by
  simp only [packSr, field]
  constructor <;> omega

theorem packSi_eq_iff {c m d a i : Nat} (hm : m < 64) (hd : d < 64) (ha : a < 64) (hi : i < 1024) :
    packSi c m d a i = w ↔
      field w 31 28 = c ∧ field w 27 22 = m ∧ field w 21 16 = d ∧ field w 15 10 = a ∧ field w 9 0 = i := by
  simp only [packSi, field]
  constructor <;> omega

theorem packCt_eq_iff {m a i : Nat} (hm : m < 64) (ha : a < 64) (hi : i < 65536) :
    packCt m a i = w ↔ field w 31 28 = 2 ∧ field w 27 22 = m ∧ field w 21 16 = a ∧ field w 15 0 = i := by
  simp only [packCt, field]
  constructor <;> omega

theorem packMm_eq_iff {m sz hint d h x i : Nat} (hm : m < 64) (hs : sz < 4) (hh : hint < 4) (hd : d < 32) (hb : h < 16) (hx : x < 8)
    (hi : i < 64) : packMm m sz hint d h x i = w ↔
      field w 31 28 = 3 ∧ field w 27 22 = m ∧ field w 21 20 = sz ∧ field w 19 18 = hint ∧ field w 17 13 = d ∧ field w 12 9 = h
        ∧ field w 8 6 = x ∧ field w 5 0 = i := by
  simp only [packMm, field]
  constructor <;> omega

theorem packSy_eq_iff {m n a d sc : Nat} (hm : m < 64) (hn : n < 256) (ha : a < 64) (hd : d < 64) (hs : sc < 4) :
    packSy m n a d sc = w ↔
      field w 31 28 = 4 ∧ field w 27 22 = m ∧ field w 21 14 = n ∧ field w 13 8 = a ∧ field w 7 2 = d ∧ field w 1 0 = sc := by
  simp only [packSy, field]
  constructor <;> omega

theorem short_eq_iff (x y : ShortForm) :
    14 * 2 ^ 28 + x.index.val * 2 ^ 19 + x.ofs.val * 2 ^ 14 + y.index.val * 2 ^ 5 + y.ofs.val = w ↔
      field w 31 28 = 14 ∧ field w 27 19 = x.index.val ∧ field w 18 14 = x.ofs.val ∧ field w 13 5 = y.index.val
        ∧ field w 4 0 = y.ofs.val := by
  simp only [field]
  constructor <;> omega

end

/-! ### Bounds of fields -/

@[simp] theorem field_9_0_lt (w : Nat) : field w 9 0 < 1024 := Nat.mod_lt _ (by decide)
@[simp] theorem field_15_0_lt (w : Nat) : field w 15 0 < 65536 := Nat.mod_lt _ (by decide)
@[simp] theorem field_5_0_lt (w : Nat) : field w 5 0 < 64 := Nat.mod_lt _ (by decide)
@[simp] theorem flag_lt4 (b : Bool) : ofFlag b < 4 := by cases b <;> decide
@[simp] theorem flag_lt16 (b : Bool) : ofFlag b < 16 := by cases b <;> decide
@[simp] theorem flag_lt1024 (b : Bool) : ofFlag b < 1024 := by cases b <;> decide
@[simp] theorem flagPred_lt64 (b : Bool) (p : Fin 8) : ofFlag b * 8 + p.val < 64 := by have := ofFlag_lt b; omega
@[simp] theorem condPred_lt64 (c : SCond) (p : Fin 8) : c.code * 8 + p.val < 64 := by have := c.code_lt; omega
@[simp] theorem part_lt64 (p : Fin 4) (t : VTy) : p.val * 16 + t.code < 64 := by have := t.code_lt; omega
@[simp] theorem fin16_lt32 (d : Fin 16) : d.val < 32 := by omega
@[simp] theorem fin16_lt256 (d : Fin 16) : d.val < 256 := by omega
@[simp] theorem fin64_lt256 (d : Fin 64) : d.val < 256 := by omega
@[simp] theorem fence_lt256 (m : FenceMode) : m.code < 256 := by have := m.code_lt; omega
@[simp] theorem amoHandle_lt256 (x : AmoOp) (d : Fin 16) : x.code * 16 + d.val < 256 := by have := x.code_lt; omega
@[simp] theorem famoHandle_lt256 (x : FamoOp) (d : Fin 16) : x.code * 16 + d.val < 256 := by have := x.code_lt; omega
@[simp] theorem loopField_lt (b : Bool) (k : Fin 8) (n : Fin 4096) : ofFlag b * 2 ^ 15 + k.val * 2 ^ 12 + n.val < 65536 := by
  have := ofFlag_lt b; omega
@[simp] theorem spawnField_lt (b : Bool) (c : Fin 16) (n : Fin 256) : ofFlag b * 2 ^ 12 + c.val * 2 ^ 8 + n.val < 65536 := by
  have := ofFlag_lt b; omega
@[simp] theorem code_reg (d : Fin 32) : (SSrc.reg d).code = d.val := rfl
@[simp] theorem isReg_reg (d : Fin 32) : (SSrc.reg d).isReg = true := rfl

/-! ### Fields of two parts

The left side is the field as the encoder packs it, the right side its parts as the decoder reads them. -/

section
variable (w : Nat)

theorem low_iff (x : Nat) : field w 3 0 = ofFlag (flag w 3) * 8 + x ↔ field w 2 0 = x := by simp only [ofFlag_flag, field]; omega
theorem lowBit_iff : field w 3 0 = ofFlag (flag w 0) ↔ field w 3 1 = 0 := by simp only [ofFlag_flag, field]; omega
theorem immBit_iff : field w 9 0 = ofFlag (flag w 0) ↔ field w 9 1 = 0 := by simp only [ofFlag_flag, field]; omega
theorem immTwo_iff (k : Nat) (hk : k < 4) : field w 9 0 = k ↔ field w 9 2 = 0 ∧ field w 1 0 = k := by simp only [field]; omega
theorem condPred_iff (c : Nat) (p : Fin 8) : field w 21 16 = c * 8 + p.val ↔ field w 21 19 = c ∧ field w 18 16 = p.val := by
  simp only [field]; omega
theorem flagPred_iff (p : Fin 8) :
    field w 21 16 = ofFlag (flag w 19) * 8 + p.val ↔ field w 21 20 = 0 ∧ field w 18 16 = p.val := by
  simp only [ofFlag_flag, field]; omega
theorem loopField_iff (k : Fin 8) (n : Fin 4096) : field w 15 0 = ofFlag (flag w 15) * 2 ^ 15 + k.val * 2 ^ 12 + n.val ↔
    field w 14 12 = k.val ∧ field w 11 0 = n.val := by
  simp only [ofFlag_flag, field]; omega
theorem spawnField_iff (c : Fin 16) (n : Fin 256) : field w 15 0 = ofFlag (flag w 12) * 2 ^ 12 + c.val * 2 ^ 8 + n.val ↔
    field w 15 13 = 0 ∧ field w 11 8 = c.val ∧ field w 7 0 = n.val := by
  simp only [ofFlag_flag, field]; omega
theorem readOnly_iff : field w 21 20 = ofFlag (flag w 20) ↔ flag w 21 = false := by
  have high : flag w 21 = false ↔ w / 2 ^ 21 % 2 = 0 := by simp [flag]
  rw [high]
  simp only [ofFlag_flag, field]; omega
theorem handleDest_iff (d : Fin 16) : field w 17 13 = d.val ↔ field w 17 17 = 0 ∧ field w 16 13 = d.val := by simp only [field]; omega
theorem opHandle_iff (x : Nat) (d : Fin 16) : field w 21 14 = x * 16 + d.val ↔ field w 21 18 = x ∧ field w 17 14 = d.val := by
  simp only [field]; omega
theorem handle_iff (d : Fin 16) : field w 21 14 = d.val ↔ field w 21 18 = 0 ∧ field w 17 14 = d.val := by simp only [field]; omega
theorem fence_iff (m : FenceMode) : field w 21 14 = m.code ↔ field w 21 16 = 0 ∧ field w 15 14 = m.code := by
  have := m.code_lt
  simp only [field]; omega
theorem part_iff (p : Fin 4) (t : VTy) : field w 9 4 = p.val * 16 + t.code ↔ field w 9 8 = p.val ∧ field w 7 4 = t.code := by
  have := t.code_lt
  simp only [field]; omega

end

/-! ### Immediates and lends taken apart and put together (R178) -/

theorem imm18_low (w e : Nat) : (imm18 w e).toNat % 1024 = field w 9 0 := by simp only [imm18, BitVec.toNat_ofNat, field]; omega
theorem imm24_low (w e : Nat) : (imm24 w e).toNat % 65536 = field w 15 0 := by simp only [imm24, BitVec.toNat_ofNat, field]; omega
theorem imm14_low (w e : Nat) : (imm14 w e).toNat % 64 = field w 5 0 := by simp only [imm14, BitVec.toNat_ofNat, field]; omega

theorem casLend_iff (e n : Nat) (x : Ord) : n * 8 + x.code * 2 + ofFlag (flag e 0) = e ↔ e / 8 = n ∧ field e 2 1 = x.code := by
  have := x.code_lt
  simp only [ofFlag_flag, field]; omega

section
variable {e : Nat} (he : e < 2 ^ 8)
include he

theorem imm18_high (w : Nat) : (imm18 w e).toNat / 1024 = e := by simp only [imm18, BitVec.toNat_ofNat, field]; omega
theorem imm24_high (w : Nat) : (imm24 w e).toNat / 65536 = e := by simp only [imm24, BitVec.toNat_ofNat, field]; omega
theorem imm14_high (w : Nat) : (imm14 w e).toNat / 64 = e := by simp only [imm14, BitVec.toNat_ofNat, field]; omega

theorem modeLend_iff (x : Nat) (m : Fin 8) :
    x * 16 + ofFlag (flag e 3) * 8 + m.val = e ↔ field e 7 4 = x ∧ field e 2 0 = m.val := by
  simp only [ofFlag_flag, field]; omega
theorem satLend_iff : field e 7 4 = ofFlag (flag e 4) ↔ field e 7 5 = 0 := by simp only [ofFlag_flag, field]; omega
theorem maskedLend_iff (m : Fin 8) : ofFlag (flag e 3) * 8 + m.val = e ↔ field e 7 4 = 0 ∧ field e 2 0 = m.val := by
  simp only [ofFlag_flag, field]; omega
theorem plainLend_iff : ofFlag (flag e 3) * 8 = e ↔ field e 7 4 = 0 ∧ field e 2 0 = 0 := by simp only [ofFlag_flag, field]; omega
theorem maskOpLend_iff (x : Nat) (hx : x % 16 = 0) : x + ofFlag (flag e 3) * 8 = e ↔ field e 7 4 = x / 16 ∧ field e 2 0 = 0 := by
  simp only [ofFlag_flag, field]; omega
theorem amoLend_iff (x : Ord) : x.code * 2 + ofFlag (flag e 0) = e ↔ e < 8 ∧ field e 2 1 = x.code := by
  have := x.code_lt
  simp only [ofFlag_flag, field]; omega
theorem bitLend_iff : ofFlag (flag e 0) = e ↔ e ≤ 1 := by simp only [ofFlag_flag]; omega
theorem quantLend_iff (x : RMode) : ofFlag (flag e 3) * 8 + x.code = e ↔ e < 16 ∧ field e 2 0 = x.code := by
  have := x.code_lt
  simp only [ofFlag_flag, field]; omega
theorem widthLend_iff (z : Fin 4) : ofFlag (flag e 2) * 4 + z.val = e ↔ e < 8 ∧ field e 1 0 = z.val := by
  simp only [ofFlag_flag, field]; omega
theorem seamLend_iff : ofFlag (flag e 1) * 2 + ofFlag (flag e 0) = e ↔ e < 4 := by simp only [ofFlag_flag]; omega
theorem predLend_iff : ofFlag (flag e 1) * 2 = e ↔ e = 0 ∨ e = 2 := by simp only [ofFlag_flag]; omega

end

/-! ### Bounds of lends -/

theorem imm18_div_lt (k : BitVec 18) : k.toNat / 1024 < 256 := by omega
theorem imm24_div_lt (k : BitVec 24) : k.toNat / 65536 < 256 := by omega
theorem imm14_div_lt (k : BitVec 14) : k.toNat / 64 < 256 := by omega

/-- A lend of three parts that hold a code below 16, a bit and three bits is one byte. -/
theorem modeLend_lt {x : Nat} (hx : x < 16) (b : Bool) (m : Fin 8) : x * 16 + ofFlag b * 8 + m.val < 256 := by
  have := ofFlag_lt b; omega
theorem maskedLend_lt (b : Bool) (m : Fin 8) : ofFlag b * 8 + m.val < 256 := by have := ofFlag_lt b; omega
theorem plainLend_lt (b : Bool) : ofFlag b * 8 < 256 := by have := ofFlag_lt b; omega
theorem maskOpLend_lt {x : Nat} (hx : x < 248) (b : Bool) : x + ofFlag b * 8 < 256 := by have := ofFlag_lt b; omega
theorem amoLend_lt (x : Ord) (b : Bool) : x.code * 2 + ofFlag b < 256 := by have := x.code_lt; have := ofFlag_lt b; omega
theorem casLend_lt (n : Fin 32) (x : Ord) (b : Bool) : n.val * 8 + x.code * 2 + ofFlag b < 256 := by
  have := x.code_lt; have := ofFlag_lt b; omega
theorem bitLend_lt (b : Bool) : ofFlag b < 256 := by cases b <;> decide
theorem quantLend_lt (b : Bool) (x : RMode) : ofFlag b * 8 + x.code < 256 := by have := x.code_lt; have := ofFlag_lt b; omega
theorem widthLend_lt (b : Bool) (z : Fin 4) : ofFlag b * 4 + z.val < 256 := by have := ofFlag_lt b; omega
theorem seamLend_lt (b c : Bool) : ofFlag b * 2 + ofFlag c < 256 := by have := ofFlag_lt b; have := ofFlag_lt c; omega
theorem predLend_lt (b : Bool) : ofFlag b * 2 < 256 := by have := ofFlag_lt b; omega
theorem byte_lt256 (k : BitVec 8) : k.toNat < 256 := k.isLt
theorem fin8_lt256 (k : Fin 8) : k.val < 256 := by omega
theorem source_lt256 (a : SSrc) : a.code < 256 := by have := a.code_lt; omega
theorem famoTy_lt256 (t : FamoTy) : t.code < 256 := by have := t.code_lt; omega
theorem qscl_lt256 (t : QsclFmt) : t.code < 256 := by have := t.code_lt; omega
theorem mode_lt256 (t : RMode) : t.code < 256 := by have := t.code_lt; omega

/-- Every lend is one byte (R178). -/
theorem encode_lend_lt (i : Instr) : (encode i).2 < 2 ^ 8 := by
  cases i
  case vmask op d nw => cases op <;> simp [encode, plainLend_lt, maskOpLend_lt]
  all_goals
    simp [encode, imm18_div_lt, imm24_div_lt, imm14_div_lt, modeLend_lt, maskedLend_lt, plainLend_lt, amoLend_lt, casLend_lt, bitLend_lt,
      quantLend_lt, widthLend_lt, seamLend_lt, predLend_lt, fin8_lt256, source_lt256, famoTy_lt256, qscl_lt256, mode_lt256, byte_lt256]

/-! ### Bounds of words -/

section
variable {c m d a b l h i n x sz sc hint : Nat}

theorem packSr_lt (hc : c < 16) (hm : m < 64) (hd : d < 64) (ha : a < 64) (hb : b < 64) (hl : l < 16) : packSr c m d a b l < 2 ^ 32 := by
  simp only [packSr]; omega
theorem packSi_lt (hc : c < 16) (hm : m < 64) (hd : d < 64) (ha : a < 64) (hi : i < 1024) : packSi c m d a i < 2 ^ 32 := by
  simp only [packSi]; omega
theorem packCt_lt (hm : m < 64) (ha : a < 64) (hi : i < 65536) : packCt m a i < 2 ^ 32 := by simp only [packCt]; omega
theorem packMm_lt (hm : m < 64) (hs : sz < 4) (hh : hint < 4) (hd : d < 32) (hb : h < 16) (hx : x < 8) (hi : i < 64) :
    packMm m sz hint d h x i < 2 ^ 32 := by simp only [packMm]; omega
theorem packSy_lt (hm : m < 64) (hn : n < 256) (ha : a < 64) (hd : d < 64) (hs : sc < 4) : packSy m n a d sc < 2 ^ 32 := by
  simp only [packSy]; omega
theorem short_lt (x y : ShortForm) :
    14 * 2 ^ 28 + x.index.val * 2 ^ 19 + x.ofs.val * 2 ^ 14 + y.index.val * 2 ^ 5 + y.ofs.val < 2 ^ 32 := by omega

end

/-- Every word is one of 32 bits (R174). -/
theorem encode_word_lt (i : Instr) : (encode i).1 < 2 ^ 32 := by
  cases i
  case vmask op d nw => cases op <;> simp [encode, packSr_lt, -Nat.reducePow]
  all_goals simp [encode, packSr_lt, packSi_lt, packCt_lt, packMm_lt, packSy_lt, short_lt, Nat.mod_lt, -Nat.reducePow]

end Sys2Proof.Laws
end

section
/-! SUPPORT. Words and lends that decode are the encoding of what they decode to (R187, R198, R202): class by class, each arm of the class's
decoder by the fields that it reads. -/

set_option Elab.async false

namespace Sys2Proof.Laws

open Sys2Proof Sys2Proof.Machine

/-- The instruction is well-formed, and its word and lend are w and e. -/
def Encodes (w e : Nat) (i : Instr) : Prop := encode i = (w, e) ∧ i.wf = true

/-- The one form of `add` that is not well-formed has the word of the empty slot (R175). -/
theorem Encodes.add {w e : Nat} {o : SrOp} (h : encode (.add o) = (w, e)) (h0 : w ≠ 0) : Encodes w e (.add o) := by
  refine ⟨h, ?_⟩
  by_contra hz
  have zero : o.d = 0 ∧ o.a = .reg 0 ∧ o.b = .reg 0 ∧ o.nw = false ∧ o.g = 0 := by simpa [Instr.wf, and_assoc] using hz
  obtain ⟨hd, ha, hb, hn, hg⟩ := zero
  have word : (encode (.add o)).1 = 0 := by simp [encode, hd, ha, hb, hn, hg, ofFlag]
  rw [h] at word
  exact h0 word

section
variable {w e : Nat} (hw : w < 2 ^ 32) (he : e < 2 ^ 8)
include hw

theorem encodes_decScalar (h0 : w ≠ 0) (hc : field w 31 28 = 0) : Answers (Encodes w e) (decScalar w e) := by
  unfold decScalar
  split <;> simp [decSr, decSrOne] <;> intros
  case h_1 => exact .add (by simp [encode, packSr_eq_iff hw, low_iff, *]) h0
  all_goals simp [Encodes, encode, Instr.wf, packSr_eq_iff hw, low_iff, condPred_iff, *]

include he

theorem encodes_decImmediate (hc : field w 31 28 = 1) : Answers (Encodes w e) (decImmediate w e) := by
  unfold decImmediate
  split <;> simp [decSi] <;> intros
  all_goals simp [Encodes, encode, Instr.wf, packSi_eq_iff hw, condPred_iff, imm18_low, imm18_high he, *]

theorem encodes_decControl (hc : field w 31 28 = 2) : Answers (Encodes w e) (decControl w e) := by
  unfold decControl
  split <;> simp [field_zero_iff w 21 16 0] <;> intros
  all_goals
    simp [Encodes, encode, Instr.wf, packCt_eq_iff hw, flagPred_iff, loopField_iff, spawnField_iff, imm24_low, imm24_high he,
      -Nat.reducePow, *]

theorem encodes_decMemory (hc : field w 31 28 = 3) : Answers (Encodes w e) (decMemory w e) := by
  unfold decMemory
  split <;> simp [decMm, field_zero_iff w 8 6 0, field_zero_iff w 21 17 13, field_zero_iff w 21 13 6, field_zero_iff w 21 20 17,
    field_zero_iff w 19 18 17, field_zero_iff w 12 9 6] <;> intros
  all_goals
    simp [Encodes, encode, Instr.wf, packMm_eq_iff hw, readOnly_iff, handleDest_iff, field_zero_iff w 17 17 13, imm14_low, imm14_high he, *]

theorem encodes_decSync (hc : field w 31 28 = 4) : Answers (Encodes w e) (decSync w e) := by
  unfold decSync
  split <;> simp [decSyAddr, field_zero_iff w 13 8 0, field_zero_iff w 7 2 0, field_zero_iff w 13 8 2, field_zero_iff w 21 14 2] <;> intros
  all_goals
    simp [Encodes, encode, Instr.wf, packSy_eq_iff hw, opHandle_iff, handle_iff, fence_iff, amoLend_iff he, casLend_iff, bitLend_iff he, *]

theorem encodes_decVFloat (hc : field w 31 28 = 5) : Answers (Encodes w e) (decVFloat w e) := by
  unfold decVFloat
  split <;> simp [decVBin, decVBinR, decVUn, decVUnR] <;> intros
  all_goals simp [Encodes, encode, Instr.wf, packSr_eq_iff hw, modeLend_iff he, maskedLend_iff he, *]

theorem encodes_decVInt (hc : field w 31 28 = 6) : Answers (Encodes w e) (decVInt w e) := by
  unfold decVInt
  split <;> simp [decVBin, decVBinS, decVUn, decVUnR, field_zero_iff w 9 4 0] <;> intros
  case h_20 =>
    unfold decMaskOp
    split <;> simp <;> intros
    all_goals simp [Encodes, encode, Instr.wf, packSr_eq_iff hw, plainLend_iff he, maskOpLend_iff he, *]
  all_goals
    simp [Encodes, encode, Instr.wf, packSr_eq_iff hw, part_iff, modeLend_iff he, maskedLend_iff he, satLend_iff he, plainLend_iff he, *]

theorem encodes_decVSpecial (hc : field w 31 28 = 7) : Answers (Encodes w e) (decVSpecial w e) := by
  unfold decVSpecial
  split <;> simp [decVBin, decVBinR, decVUn, decVUnR] <;> intros
  all_goals simp [Encodes, encode, Instr.wf, packSr_eq_iff hw, modeLend_iff he, maskedLend_iff he, *]

theorem encodes_decMatrix (hc : field w 31 28 = 8) : Answers (Encodes w e) (decMatrix w e) := by
  unfold decMatrix
  split <;> simp [decEn3, field_zero_iff w 21 16 0, field_zero_iff w 15 10 0, field_zero_iff w 9 4 0, field_zero_iff w 9 4 1] <;> intros
  case h_5 => simp [Encodes, encode, Instr.wf, packSr_eq_iff hw, Nat.mod_eq_of_lt he, -Nat.reducePow, *]
  all_goals simp [Encodes, encode, Instr.wf, packSr_eq_iff hw, low_iff, lowBit_iff, *]

theorem encodes_decCopy (hc : field w 31 28 = 9) : Answers (Encodes w e) (decCopy w e) := by
  unfold decCopy
  split <;> simp [decCpy, field_zero_iff w 9 4 0] <;> intros
  all_goals simp [Encodes, encode, Instr.wf, packSr_eq_iff hw, quantLend_iff he, *]

theorem encodes_decSeamOp (hc : field w 31 28 = 10) : Answers (Encodes w e) (decSeamOp w e) := by
  unfold decSeamOp
  split <;> simp [decSeam, field_zero_iff w 15 10 1, field_zero_iff w 9 4 0, field_zero_iff w 9 4 1] <;> intros
  all_goals simp [Encodes, encode, Instr.wf, packSr_eq_iff hw, lowBit_iff, widthLend_iff he, seamLend_iff he, predLend_iff he, *]

omit he in
theorem encodes_decRelay (hc : field w 31 28 = 11) : Answers (Encodes w e) (decRelay w e) := by
  unfold decRelay
  split <;> simp [field_zero_iff w 9 4 0] <;> intros
  all_goals simp [Encodes, encode, Instr.wf, packSr_eq_iff hw, *]

theorem encodes_decSystem (hc : field w 31 28 = 12) : Answers (Encodes w e) (decSystem w e) := by
  unfold decSystem
  split
  case h_6 =>
    simp only [answers_bind, answers_need, beq_iff_eq]
    intros
    split <;> simp <;> intros
    all_goals simp [Encodes, encode, Instr.wf, packSi_eq_iff hw, immTwo_iff w 0, immTwo_iff w 1, immTwo_iff w 2, *]
  all_goals simp [field_zero_iff w 21 16 10, field_zero_iff w 21 16 1, field_zero_iff w 15 10 1]
  all_goals
    intros
    simp [Encodes, encode, Instr.wf, packSi_eq_iff hw, immBit_iff, imm18_low, imm18_high he, *]

omit he in
theorem encodes_decShort (hc : field w 31 28 = 14) : Answers (Encodes w e) (decShort w e) := by
  simp only [decShort, answers_bind, answers_need, answers_getFin, answers_ok, beq_iff_eq]
  rintro rfl index hi ofs ho index' hi' ofs' ho'
  have word := (short_eq_iff hw ⟨index, ofs⟩ ⟨index', ofs'⟩).2 ⟨hc, hi, ho, hi', ho'⟩
  exact ⟨by rw [encode, word], rfl⟩

theorem encodes_decodeWord : Answers (Encodes w e) (decodeWord w e) := by
  unfold decodeWord
  split
  · exact answers_error _ _
  next h0 =>
    split
    next hc => exact encodes_decScalar hw h0 hc
    next hc => exact encodes_decImmediate hw he hc
    next hc => exact encodes_decControl hw he hc
    next hc => exact encodes_decMemory hw he hc
    next hc => exact encodes_decSync hw he hc
    next hc => exact encodes_decVFloat hw he hc
    next hc => exact encodes_decVInt hw he hc
    next hc => exact encodes_decVSpecial hw he hc
    next hc => exact encodes_decMatrix hw he hc
    next hc => exact encodes_decCopy hw he hc
    next hc => exact encodes_decSeamOp hw he hc
    next hc => exact encodes_decRelay hw hc
    next hc => exact encodes_decSystem hw he hc
    next hc => exact encodes_decShort hw hc
    · exact answers_error _ _
    · exact answers_error _ _

end

/-- Settles O46, class by class. -/
theorem decodeThenEncode : Obligations.DecodeThenEncode := fun _ _ i hw he h => encodes_decodeWord hw he i h

end Sys2Proof.Laws
end

section
/-! SUPPORT. The round trip of every instruction, and a bundle that holds one (R174 to R178, R202). -/

set_option Elab.async false

namespace Sys2Proof.Laws

open Sys2Proof Sys2Proof.Machine Sys2Proof.Stated

/-- Every instruction is read back from its word and lend, each by its own round trip. -/
theorem roundTrip (i : Instr) : RoundTrip.Statement i :=
  Instr.rec (motive := RoundTrip.Statement)
    RoundTrip.add RoundTrip.sub RoundTrip.mul RoundTrip.mulhI RoundTrip.mulhN RoundTrip.and RoundTrip.or RoundTrip.xor RoundTrip.andn
    RoundTrip.shl RoundTrip.shr RoundTrip.sra RoundTrip.minI RoundTrip.maxI RoundTrip.minN RoundTrip.maxN RoundTrip.cmp RoundTrip.sel
    RoundTrip.clz RoundTrip.ctz RoundTrip.popc RoundTrip.bfx RoundTrip.bfi RoundTrip.mov RoundTrip.divI RoundTrip.divN RoundTrip.remI
    RoundTrip.remN RoundTrip.addi RoundTrip.andi RoundTrip.ori RoundTrip.xori RoundTrip.shli RoundTrip.shri RoundTrip.srai
    RoundTrip.cmpi RoundTrip.movi RoundTrip.movhi RoundTrip.vaddr RoundTrip.nop RoundTrip.br RoundTrip.brc RoundTrip.brz RoundTrip.brnz
    RoundTrip.call RoundTrip.ret RoundTrip.jmpr RoundTrip.loop RoundTrip.lbreak RoundTrip.spawn RoundTrip.done RoundTrip.ld RoundTrip.st
    RoundTrip.ldv RoundTrip.stv RoundTrip.xlat RoundTrip.hchk RoundTrip.hdrop RoundTrip.hmov RoundTrip.pf RoundTrip.phase RoundTrip.amo
    RoundTrip.cas RoundTrip.famo RoundTrip.fence RoundTrip.stake RoundTrip.settle RoundTrip.ctag RoundTrip.unstake RoundTrip.crewJoin
    RoundTrip.crewLeave RoundTrip.crewSync RoundTrip.cbArm RoundTrip.cbWait RoundTrip.cbAdd RoundTrip.cbRead RoundTrip.stepCommit
    RoundTrip.atmClose RoundTrip.vadd RoundTrip.vsub RoundTrip.vmul RoundTrip.vfma RoundTrip.vfms RoundTrip.vfnma RoundTrip.vmin
    RoundTrip.vmax RoundTrip.vabs RoundTrip.vneg RoundTrip.vcmp RoundTrip.vsel RoundTrip.vscale RoundTrip.vround RoundTrip.vclass
    RoundTrip.viadd RoundTrip.visub RoundTrip.vimul RoundTrip.vimulh RoundTrip.vand RoundTrip.vor RoundTrip.vxor RoundTrip.vshl
    RoundTrip.vshr RoundTrip.vsra RoundTrip.vimin RoundTrip.vimax RoundTrip.vicmp RoundTrip.vcvt RoundTrip.vbcast RoundTrip.vperm
    RoundTrip.vlrot RoundTrip.vext RoundTrip.vins RoundTrip.vmask RoundTrip.vmcnt RoundTrip.vpop RoundTrip.vwin RoundTrip.vmov
    RoundTrip.vrcpA RoundTrip.vrsqA RoundTrip.vexp2A RoundTrip.vlog2A RoundTrip.vdiv RoundTrip.vsqrt RoundTrip.vidiv RoundTrip.virem
    RoundTrip.vredsum RoundTrip.vredmax RoundTrip.vredmin RoundTrip.vdot RoundTrip.mshape RoundTrip.mcfg RoundTrip.mopnd RoundTrip.mrot
    RoundTrip.mprof RoundTrip.mdrain RoundTrip.mgo RoundTrip.mwait RoundTrip.mstat RoundTrip.mzero RoundTrip.rqbind RoundTrip.cpy
    RoundTrip.cpym RoundTrip.cpyc RoundTrip.cpyr RoundTrip.cwait RoundTrip.cstat RoundTrip.qnt RoundTrip.qscl RoundTrip.dqnt
    RoundTrip.sld RoundTrip.sst RoundTrip.sadd RoundTrip.ssub RoundTrip.smul RoundTrip.scmp RoundTrip.ssel RoundTrip.slog RoundTrip.scp
    RoundTrip.spred RoundTrip.spop RoundTrip.srow RoundTrip.swait RoundTrip.rpost RoundTrip.rarm RoundTrip.rcancel RoundTrip.rstat
    RoundTrip.stend RoundTrip.sfold RoundTrip.sflush RoundTrip.mfsr RoundTrip.mtsr RoundTrip.trap RoundTrip.resume RoundTrip.abort
    RoundTrip.time RoundTrip.timeUnc RoundTrip.timeUntil RoundTrip.cwtld RoundTrip.cw RoundTrip.divideComplete RoundTrip.phaseComplete
    RoundTrip.vectorDivideComplete RoundTrip.matrixJobStart RoundTrip.matrixStep RoundTrip.atbankChunkReturn RoundTrip.copyStart
    RoundTrip.copyChunk RoundTrip.copyChunkAck RoundTrip.seamMacroExecute RoundTrip.relayTimeFire RoundTrip.relayDelivery
    RoundTrip.flushCommand RoundTrip.stackCommandRelease RoundTrip.tendBlock RoundTrip.foldContribution RoundTrip.foldStagingTake
    RoundTrip.asyncEventTake RoundTrip.stallPark RoundTrip.yieldLimit RoundTrip.coreParityError RoundTrip.timeUntilReached
    RoundTrip.assayScanComplete RoundTrip.taskAdmission RoundTrip.taskSwitch RoundTrip.balancingExchange RoundTrip.shiftBoundary
    RoundTrip.groupSwapOut RoundTrip.groupSwapIn RoundTrip.crewDeadlock RoundTrip.epochDeadlock RoundTrip.claimSelfDetect
    RoundTrip.storePerform RoundTrip.loadServe RoundTrip.atomicPerform RoundTrip.famoHold RoundTrip.famoAccept RoundTrip.epochApply
    RoundTrip.claimFirstTouch RoundTrip.claimWaiterAdd RoundTrip.claimTimeout RoundTrip.walkComplete RoundTrip.pageFaultResolve
    RoundTrip.handleRevoke RoundTrip.migrateFrame RoundTrip.migrationCopy RoundTrip.recordTake RoundTrip.launchStart
    RoundTrip.launchCompletion RoundTrip.qtailWrite RoundTrip.qstatClear RoundTrip.cheadWrite RoundTrip.peeridWrite
    RoundTrip.stagingConfigWrite RoundTrip.claimAreaWrite RoundTrip.registerWrite RoundTrip.bar2Read RoundTrip.bar2Write
    RoundTrip.certify RoundTrip.unstamp RoundTrip.unstampComplete RoundTrip.retire RoundTrip.mbUnstake RoundTrip.attest
    RoundTrip.getcert RoundTrip.fwupdate RoundTrip.coldReset RoundTrip.warmReset RoundTrip.firmwareBoot RoundTrip.timeSyncMessage
    RoundTrip.flitCrcError RoundTrip.linkRetrain RoundTrip.linkRetrainComplete RoundTrip.ready RoundTrip.arm
    RoundTrip.gangReserveComplete RoundTrip.ack RoundTrip.gangGuardExpiry RoundTrip.commit RoundTrip.cancel RoundTrip.gangStart
    RoundTrip.gangLateExpiry RoundTrip.started RoundTrip.confirm RoundTrip.gangAbort RoundTrip.freeze RoundTrip.freezeReply
    RoundTrip.token RoundTrip.patrolScrub RoundTrip.hbmRefresh RoundTrip.dieContainment RoundTrip.watchdogFailure
    RoundTrip.thermalSample RoundTrip.coolantFlowLost RoundTrip.hostLinkLoss RoundTrip.queueConfigWrite RoundTrip.pageOut i

/-! ### A bundle that holds one instruction (R174, R175, R177) -/

/-- A word that stands for an instruction is neither an empty slot nor a header (R175). -/
theorem decodeWord_holds {w e : Nat} {i : Instr} (h : decodeWord w e = .ok i) : w ≠ 0 ∧ field w 31 28 ≠ 15 := by
  constructor
  · rintro rfl
    rw [decodeWord, if_pos rfl] at h
    cases h
  · intro hc
    unfold decodeWord at h
    rw [hc] at h
    split at h <;> cases h

/-- The header whose only set field is the lend e of slot k (R177). -/
def lendHeader (k e : Nat) : Nat := 15 * 2 ^ 28 + e * 2 ^ (8 * k - 8)

/-- The four words of a bundle of one instruction. -/
theorem slotWord_bundleOf (i : Instr) {k j : Nat} (hk : k < 4) (hj : j < 4) :
    slotWord (bundleOf k i) j = if j = k then (encode i).1 else if j = 0 then lendHeader k (encode i).2 else 0 := by
  have hw := encode_word_lt i
  have he := encode_lend_lt i
  interval_cases k <;> interval_cases j <;> simp [slotWord, bundleOf, lendHeader] <;> omega

/-- The fields of that header. -/
theorem lendHeader_fields {k e : Nat} (h1 : 1 ≤ k) (hk : k < 4) (he : e < 2 ^ 8) :
    field (lendHeader k e) 31 28 = 15 ∧ field (lendHeader k e) 25 24 = 0 ∧ flag (lendHeader k e) 27 = false
      ∧ flag (lendHeader k e) 26 = false ∧ ∀ j, 1 ≤ j → j < 4 → field (lendHeader k e) (8 * j - 1) (8 * j - 8) = if j = k then e else 0 := by
  refine ⟨?_, ?_, ?_, ?_, fun j j1 hj => ?_⟩
  · interval_cases k <;> simp only [lendHeader, field] <;> omega
  · interval_cases k <;> simp only [lendHeader, field] <;> omega
  · interval_cases k <;> simp [lendHeader, flag] <;> omega
  · interval_cases k <;> simp [lendHeader, flag] <;> omega
  · interval_cases k <;> interval_cases j <;> simp [lendHeader, field] <;> omega

section
variable {i : Instr} (h : decodeWord (encode i).1 (encode i).2 = .ok i) {k : Nat} (hk : k < 4) (h0 : k = 0 → (encode i).2 = 0)
include h hk h0

/-- The lend of the instruction is read in its slot. -/
theorem slotLend_bundleOf {j : Nat} (hj : j < 4) : slotLend (bundleOf k i) j = if j = k then (encode i).2 else 0 := by
  obtain ⟨-, hc⟩ := decodeWord_holds h
  rcases Nat.eq_zero_or_pos k with rfl | h1
  · simp [slotLend, slotWord_bundleOf i hk, hc, h0]
  · obtain ⟨hcl, -, -, -, hl⟩ := lendHeader_fields h1 hk (encode_lend_lt i)
    have h1' : ¬ 0 = k := by omega
    rcases Nat.eq_zero_or_pos j with rfl | j1
    · simp [slotLend, h1']
    · have j1' : 1 ≤ j := j1
      simp [slotLend, slotWord_bundleOf i hk, h1', hcl, j1', hl j j1 hj]

theorem decodeSlot_bundleOf {j : Nat} (hj : j < 4) : decodeSlot (bundleOf k i) j =
    if j = k then some { num := k, word := (encode i).1, lend := (encode i).2, instr := .ok i } else none := by
  obtain ⟨hw, hc⟩ := decodeWord_holds h
  rw [decodeSlot, slotWord_bundleOf i hk hj, slotLend_bundleOf h hk h0 hj]
  by_cases hjk : j = k
  · subst hjk; simp [hw, hc, h]
  · by_cases j0 : j = 0
    · subst j0
      obtain ⟨hcl, -⟩ := lendHeader_fields (by omega) hk (encode_lend_lt i)
      simp [hjk, hcl]
    · simp [hjk, j0]

theorem decodeBundle_bundleOf : let b := decodeBundle (bundleOf k i)
    b.slots = [{ num := k, word := (encode i).1, lend := (encode i).2, instr := .ok i }]
      ∧ b.lateHeader = none ∧ b.badHeader = none ∧ b.ckpt = false ∧ b.yieldPt = false := by
  obtain ⟨hw, hc⟩ := decodeWord_holds h
  have slot := fun j (hj : j < 4) => decodeSlot_bundleOf h hk h0 hj
  have word := fun j (hj : j < 4) => slotWord_bundleOf i hk hj
  refine ⟨?_, ?_, ?_⟩
  · simp only [decodeBundle, List.filterMap_cons, List.filterMap_nil, slot 0 (by omega), slot 1 (by omega), slot 2 (by omega), slot 3 (by omega)]
    interval_cases k <;> rfl
  · have plain : ∀ j ∈ [1, 2, 3], field (slotWord (bundleOf k i) j) 31 28 ≠ 15 := by
      intro j hj
      have : j < 4 ∧ j ≠ 0 := by simp at hj; omega
      rw [word j this.1, if_neg this.2]
      split
      · exact hc
      · decide
    have : ([1, 2, 3].find? fun j => decide (field (slotWord (bundleOf k i) j) 31 28 = 15)) = none := by
      simpa using plain
    simp [decodeBundle, this]
  · rcases Nat.eq_zero_or_pos k with rfl | h1
    · simp [decodeBundle, word 0 (by omega), hc]
    · obtain ⟨hcl, hr, hck, hy, -⟩ := lendHeader_fields h1 hk (encode_lend_lt i)
      have : ¬ 0 = k := by omega
      simp [decodeBundle, word 0 (by omega), this, hcl, hr, hck, hy]
end

/-- Settles O45: each instruction's own round trip, the bounds of its word and lend, and the bundle that holds it. -/
theorem encodeThenDecode : Obligations.EncodeThenDecode := fun i wf =>
  ⟨roundTrip i wf, encode_word_lt i, encode_lend_lt i, fun _ hk h0 => decodeBundle_bundleOf (roundTrip i wf) hk h0⟩

/-- Settles O47: the decoder evaluated at each word. -/
theorem specWordsDecode : Obligations.SpecWordsDecode := by
  unfold Obligations.SpecWordsDecode
  decide

end Sys2Proof.Laws
end

section
/-! SUPPORT. The limits of ports and write-backs of a bundle, and NW (R194, R196, R197). -/

set_option Elab.async false

namespace Sys2Proof.Machine

open Sys2Proof Sys2Proof.Stated

/-! ### Limits of ports and write-backs (R196, R197) -/

/-- How many operations of a bundle may use a port (R196). -/
def Port.limit : Port → Nat
  | .s | .m => 1
  | .v | .c => 2

/-- Two operations write back to one register that counts (R197). -/
def SameDest (x y : Op) : Prop := ∃ d, destOf x.instr = some d ∧ destOf y.instr = some d ∧ d.counts = true

/-- No port is used above its limit. -/
def FitsPorts (l : List Op) : Prop := ∀ p : Port, uses p l ≤ p.limit

/-- No two operations write back to one register. -/
def WritesOnce (l : List Op) : Prop := l.Pairwise fun x y => ¬ SameDest x y

theorem overPorts_iff (l : List Op) : OverPorts l ↔ ¬ FitsPorts l := by
  constructor
  · rintro h fits
    have hs := fits .s
    have hv := fits .v
    have hm := fits .m
    have hc := fits .c
    simp only [Port.limit] at hs hv hm hc
    rcases h with h | h | h | h <;> omega
  · intro h
    obtain ⟨p, hp⟩ := not_forall.1 h
    cases p <;> simp only [Port.limit, Nat.not_le] at hp <;> simp [OverPorts, hp]

theorem counts_iff (d : Dest) : d.counts = true ↔ d ≠ .s 0 ∧ d ≠ .p 0 ∧ d ≠ .m 0 := by
  cases d <;> simp [Dest.counts]

theorem writesTwice_iff (l : List Op) : WritesTwice l ↔ ¬ WritesOnce l := by
  rw [WritesOnce, List.pairwise_iff_getElem]
  constructor
  · rintro ⟨j, k, x, y, d, hjk, hx, hy, hdx, hdy, hc⟩ once
    obtain ⟨hj, rfl⟩ := List.getElem?_eq_some_iff.1 hx
    obtain ⟨hk, rfl⟩ := List.getElem?_eq_some_iff.1 hy
    exact once j k hj hk hjk ⟨d, hdx, hdy, (counts_iff d).2 hc⟩
  · intro h
    push Not at h
    obtain ⟨j, k, hj, hk, hjk, d, hdx, hdy, hc⟩ := h
    exact ⟨j, k, l[j], l[k], d, hjk, List.getElem?_eq_getElem hj, List.getElem?_eq_getElem hk, hdx, hdy, (counts_iff d).1 hc⟩

theorem uses_append_singleton (p : Port) (l : List Op) (o : Op) :
    uses p (l ++ [o]) = uses p l + if portOf o.instr = p then 1 else 0 := by
  unfold uses
  by_cases h : portOf o.instr = p <;> simp [h]

/-- What the check of an operation asks: room at its port, and no write-back before it to its register. -/
theorem clashes_eq_false_iff (before : List Op) (o : Op) : clashes before o = false ↔
    uses (portOf o.instr) before < (portOf o.instr).limit ∧ ∀ x ∈ before, ¬ SameDest x o := by
  have room : clashes before o = (decide ((portOf o.instr).limit ≤ uses (portOf o.instr) before) ||
      match destOf o.instr with
      | some d => d.counts && before.any fun x => decide (destOf x.instr = some d)
      | none => false) := by
    unfold clashes uses
    cases portOf o.instr <;> rfl
  rw [room, Bool.or_eq_false_iff, decide_eq_false_iff_not, Nat.not_le]
  refine and_congr_right fun _ => ?_
  unfold SameDest
  cases h : destOf o.instr with
  | none => simp
  | some d => cases hd : d.counts <;> simp [hd]

theorem fitsPorts_append_singleton {l : List Op} (o : Op) (fits : FitsPorts l) :
    FitsPorts (l ++ [o]) ↔ uses (portOf o.instr) l < (portOf o.instr).limit := by
  refine ⟨fun h => ?_, fun h p => ?_⟩
  · have all := h (portOf o.instr)
    rw [uses_append_singleton, if_pos rfl] at all
    exact all
  · rw [uses_append_singleton]
    have := fits p
    split
    next e => subst e; omega
    · omega

/-- An operation clashes with those before it, which keep the limits, where it breaks a limit with them. -/
theorem clashes_iff {before : List Op} (o : Op) (fits : FitsPorts before) (once : WritesOnce before) :
    clashes before o = false ↔ FitsPorts (before ++ [o]) ∧ WritesOnce (before ++ [o]) := by
  have pairs : WritesOnce (before ++ [o]) ↔ ∀ x ∈ before, ¬ SameDest x o := by
    unfold WritesOnce at once ⊢
    simp [List.pairwise_append, once]
  rw [clashes_eq_false_iff, fitsPorts_append_singleton o fits, pairs]

theorem FitsPorts.of_append {l m : List Op} (h : FitsPorts (l ++ m)) : FitsPorts l := fun p =>
  Nat.le_trans (by simp [uses]) (h p)

theorem WritesOnce.of_append {l m : List Op} (h : WritesOnce (l ++ m)) : WritesOnce l := (List.pairwise_append.1 h).1

/-- Check 3 of R198 passes where the bundle keeps the limits. -/
theorem checkPorts_eq_none_iff (l before : List Op) (fits : FitsPorts before) (once : WritesOnce before) :
    checkPorts before l = none ↔ FitsPorts (before ++ l) ∧ WritesOnce (before ++ l) := by
  induction l generalizing before with
  | nil => simp [checkPorts, fits, once]
  | cons o l ih =>
    have step := clashes_iff o fits once
    rw [List.append_cons before o l, checkPorts]
    split
    next hc =>
      have not : ¬ (FitsPorts (before ++ [o] ++ l) ∧ WritesOnce (before ++ [o] ++ l)) := fun h =>
        absurd (step.2 ⟨h.1.of_append, h.2.of_append⟩) (by simp [hc])
      simpa using not
    next hc =>
      obtain ⟨f, w⟩ := step.1 (by simpa using hc)
      rw [ih _ f w]

/-- What check 3 refuses raises ILLEGAL_BUNDLE. -/
theorem checkPorts_code {l before : List Op} {x : Ill} (h : checkPorts before l = some x) : x.record.code = 0x02 := by
  induction l generalizing before with
  | nil => cases h
  | cons o l ih =>
    rw [checkPorts] at h
    split at h
    · cases h; rfl
    · exact ih h

/-- The checks of a bundle whose header and operations pass: the limits, and then the latches (R198). -/
theorem checkBundle_of_legal {b : Bundle} {l : List (Except Ill Op)} {rows : Bool} (latches : Latches) (late : b.lateHeader = none)
    (bad : b.badHeader = none) (legal : checkIllegal rows l = none) :
    checkBundle b l rows latches = (checkPorts [] (goodOps l)).or (checkLatches latches (goodOps l)) := by
  simp [checkBundle, late, bad, legal]

/-! ### NW (R194, R197) -/

theorem class_packSr {c m d a b l : Nat} (hm : m < 64) (hd : d < 64) (ha : a < 64) (hb : b < 64) (hl : l < 16) :
    packSr c m d a b l / 2 ^ 28 = c := by simp only [packSr]; omega
theorem class_packSi {c m d a i : Nat} (hm : m < 64) (hd : d < 64) (ha : a < 64) (hi : i < 1024) :
    packSi c m d a i / 2 ^ 28 = c := by simp only [packSi]; omega
theorem class_packCt {m a i : Nat} (hm : m < 64) (ha : a < 64) (hi : i < 65536) : packCt m a i / 2 ^ 28 = 2 := by
  simp only [packCt]; omega
theorem class_packMm {m sz hint d h x i : Nat} (hm : m < 64) (hs : sz < 4) (hh : hint < 4) (hd : d < 32) (hb : h < 16) (hx : x < 8)
    (hi : i < 64) : packMm m sz hint d h x i / 2 ^ 28 = 3 := by simp only [packMm]; omega
theorem class_packSy {m n a d sc : Nat} (hm : m < 64) (hn : n < 256) (ha : a < 64) (hd : d < 64) (hs : sc < 4) :
    packSy m n a d sc / 2 ^ 28 = 4 := by simp only [packSy]; omega
theorem class_short (x y : ShortForm) :
    (14 * 2 ^ 28 + x.index.val * 2 ^ 19 + x.ofs.val * 2 ^ 14 + y.index.val * 2 ^ 5 + y.ofs.val) / 2 ^ 28 = 14 := by omega

theorem word_nw (c m d a b : Nat) (nw : Bool) (g : Fin 8) :
    packSr c m d a b (ofFlag nw * 8 + g.val) / 2 ^ 3 % 2 = 1 ↔ nw = true := by
  have : packSr c m d a b (ofFlag nw * 8 + g.val) / 2 ^ 3 % 2 = ofFlag nw := by
    have := ofFlag_lt nw
    simp only [packSr]; omega
  rw [this]
  cases nw <;> decide
theorem modeLend_nw (x : Nat) (nw : Bool) (m : Fin 8) : (x * 16 + ofFlag nw * 8 + m.val) / 2 ^ 3 % 2 = 1 ↔ nw = true := by
  have : (x * 16 + ofFlag nw * 8 + m.val) / 2 ^ 3 % 2 = ofFlag nw := by have := ofFlag_lt nw; omega
  rw [this]
  cases nw <;> decide
theorem maskedLend_nw (nw : Bool) (m : Fin 8) : (ofFlag nw * 8 + m.val) / 2 ^ 3 % 2 = 1 ↔ nw = true := by
  simpa using modeLend_nw 0 nw m
theorem maskOpLend_nw {x : Nat} (hx : x % 16 = 0) (nw : Bool) : (x + ofFlag nw * 8) / 2 ^ 3 % 2 = 1 ↔ nw = true := by
  have : (x + ofFlag nw * 8) / 2 ^ 3 % 2 = ofFlag nw := by have := ofFlag_lt nw; omega
  rw [this]
  cases nw <;> decide
theorem plainLend_nw (nw : Bool) : ofFlag nw * 8 / 2 ^ 3 % 2 = 1 ↔ nw = true := by cases nw <;> decide

/-- The bit of NW, bit 3 of the word in class 0x0 and bit 3 of the lend in classes 0x5 to 0x7, takes the write-back away. -/
theorem destOf_of_nw (i : Instr) (h : (classOf i = 0 ∧ (encode i).1 / 2 ^ 3 % 2 = 1)
    ∨ ((classOf i = 5 ∨ classOf i = 6 ∨ classOf i = 7) ∧ (encode i).2 / 2 ^ 3 % 2 = 1)) : destOf i = none := by
  revert h
  cases i
  case vmask op d nw =>
    cases op <;> simp [classOf, encode, destOf, class_packSr, plainLend_nw, maskOpLend_nw, -Nat.reducePow]
  all_goals
    simp [classOf, encode, destOf, class_packSr, class_packSi, class_packCt, class_packMm, class_packSy, class_short, word_nw, modeLend_nw,
      maskedLend_nw, plainLend_nw, Nat.mod_lt, -Nat.reducePow]

/-- Settles O48: the ports and write-backs by the operations that keep the limits, NW by the words of the instructions. -/
theorem bundleLimits : Obligations.BundleLimits := by
  refine ⟨fun b cwt rows l late bad legal => ?_, destOf_of_nw⟩
  have fits : FitsPorts [] := fun p => Nat.zero_le _
  have ports := checkPorts_eq_none_iff (opsOf cwt b) [] fits List.Pairwise.nil
  have checks := checkBundle_of_legal l late bad legal
  rw [List.nil_append] at ports
  rw [checks, overPorts_iff, writesTwice_iff]
  refine ⟨fun h => ?_, fun hp hw => ?_⟩
  · obtain ⟨x, hx⟩ := Option.ne_none_iff_exists'.1 (mt ports.1 (by tauto))
    exact ⟨x, by rw [show checkPorts [] (goodOps (b.slots.flatMap (expandSlot cwt))) = some x from hx]; rfl, checkPorts_code hx⟩
  · have none : checkPorts [] (opsOf cwt b) = none := ports.2 (by tauto)
    rw [show checkPorts [] (goodOps (b.slots.flatMap (expandSlot cwt))) = .none from none]
    rfl

end Sys2Proof.Machine
end

section
/-! SUPPORT. The header slot of a bundle: its marks, the lends of slots 1 to 3, and what is refused (R174 to R178, R198). -/

set_option Elab.async false

namespace Sys2Proof.Machine

open Sys2Proof Sys2Proof.Stated

/-! ### The slots of a bundle (R174, R175, R178) -/

theorem slotWord_class (w k : Nat) : field (slotWord w k) 31 28 = slotClass w k := by
  rw [slotClass, Nat.pow_add, ← Nat.div_div_eq_div_mul]
  simp only [field, slotWord]
  omega

theorem decodeSlot_eq_some_iff (w k : Nat) (sl : Slot) : decodeSlot w k = some sl ↔
    (slotWord w k ≠ 0 ∨ slotLend w k ≠ 0) ∧ slotClass w k ≠ 15
      ∧ sl = { num := k, word := slotWord w k, lend := slotLend w k, instr := decodeWord (slotWord w k) (slotLend w k) } := by
  simp only [decodeSlot, slotWord_class, Option.ite_none_left_eq_some, Option.some.injEq, not_or, not_and_or, and_assoc, ne_eq,
    eq_comm (a := sl)]

/-- The slots of a bundle are those that hold something to issue or to refuse. -/
theorem mem_slots_iff (w : Nat) (sl : Slot) : sl ∈ (decodeBundle w).slots ↔ ∃ k < 4, decodeSlot w k = some sl := by
  simp only [decodeBundle, List.mem_filterMap]
  constructor
  · rintro ⟨k, hk, h⟩
    exact ⟨k, by simp at hk; omega, h⟩
  · rintro ⟨k, hk, h⟩
    exact ⟨k, by simp; omega, h⟩

/-- A slot of a bundle is its word and lend, and what they stand for. -/
theorem slot_of_mem {w : Nat} {sl : Slot} (h : sl ∈ (decodeBundle w).slots) :
    sl.num < 4 ∧ slotClass w sl.num ≠ 15 ∧ sl.word = slotWord w sl.num ∧ sl.lend = slotLend w sl.num
      ∧ sl.instr = decodeWord sl.word sl.lend := by
  obtain ⟨k, hk, hs⟩ := (mem_slots_iff w sl).1 h
  obtain ⟨-, hc, rfl⟩ := (decodeSlot_eq_some_iff w k sl).1 hs
  exact ⟨hk, hc, rfl, rfl, rfl⟩

/-! ### The header (R177) -/

theorem slotLend_of_header {w k : Nat} (h : slotClass w 0 = 15) (h1 : 1 ≤ k) (hk : k < 4) :
    slotLend w k = w / 2 ^ (8 * (k - 1)) % 2 ^ 8 := by
  rw [slotLend, slotWord_class, if_pos ⟨h, h1⟩]
  interval_cases k <;> simp only [field, slotWord] <;> omega

theorem slotLend_of_no_header {w : Nat} (h : slotClass w 0 ≠ 15) (k : Nat) : slotLend w k = 0 := by
  rw [slotLend, slotWord_class, if_neg (fun e => h e.1)]

theorem slotFlag (w n : Nat) (hn : n < 32) : flag (slotWord w 0) n = decide (w / 2 ^ n % 2 = 1) :=
  calc flag (slotWord w 0) n = (w % 2 ^ 32).testBit n := by
        simp only [flag, slotWord, Nat.mul_zero, Nat.pow_zero, Nat.div_one, Nat.testBit_eq_decide_div_mod_eq]; rfl
    _ = w.testBit n := by rw [Nat.testBit_mod_two_pow, decide_eq_true hn, Bool.true_and]
    _ = decide (w / 2 ^ n % 2 = 1) := Nat.testBit_eq_decide_div_mod_eq

theorem decodeBundle_ckpt (w : Nat) : (decodeBundle w).ckpt = (decide (slotClass w 0 = 15) && decide (w / 2 ^ 27 % 2 = 1)) := by
  simp only [decodeBundle, slotWord_class, slotFlag w 27 (by decide)]

theorem decodeBundle_yieldPt (w : Nat) : (decodeBundle w).yieldPt = (decide (slotClass w 0 = 15) && decide (w / 2 ^ 26 % 2 = 1)) := by
  simp only [decodeBundle, slotWord_class, slotFlag w 26 (by decide)]

/-- A header has a reserved bit where bits 25 and 24 of the bundle are not both zero. -/
theorem decodeBundle_badHeader (w : Nat) : (decodeBundle w).badHeader =
    if slotClass w 0 = 15 ∧ w / 2 ^ 24 % 4 ≠ 0 then some (0, slotWord w 0) else none := by
  have reserved : field (slotWord w 0) 25 24 = w / 2 ^ 24 % 4 := by simp only [field, slotWord]; omega
  simp [decodeBundle, slotWord_class, reserved]

theorem lateHeader_eq_none_iff (w : Nat) : (decodeBundle w).lateHeader = none ↔ ∀ k, 1 ≤ k → k ≤ 3 → slotClass w k ≠ 15 := by
  simp only [decodeBundle, slotWord_class, Option.map_eq_none_iff, List.find?_eq_none, decide_eq_true_eq]
  constructor
  · intro h k h1 h3
    exact h k (by simp; omega)
  · intro h k hk
    exact h k (by simp at hk; omega) (by simp at hk; omega)

/-! ### What the checks make of a header (R198, checks 1 and 2) -/

theorem checkBundle_late {b : Bundle} (h : b.lateHeader ≠ none) (l : List (Except Ill Op)) (rows : Bool) (latches : Latches) :
    ∃ x, checkBundle b l rows latches = some x ∧ x.record.code = 0x02 := by
  obtain ⟨⟨k, w⟩, hk⟩ := Option.ne_none_iff_exists'.1 h
  exact ⟨badAt k 0 w .illegalBundle, by simp [checkBundle, hk], rfl⟩

theorem checkBundle_bad {b : Bundle} {k w : Nat} (late : b.lateHeader = none) (bad : b.badHeader = some (k, w))
    (l : List (Except Ill Op)) (rows : Bool) (latches : Latches) :
    ∃ x, checkBundle b l rows latches = some x ∧ x.record.code = 0x01 ∧ x.slot = k :=
  ⟨badAt k 0 w .illegalInstruction, by simp [checkBundle, late, bad], rfl, rfl⟩

/-- What opening a committing bundle asks of it is all but its CKPT (R177, R336). -/
theorem openBundle_congr (s : State) {w v : Nat} (slots : (decodeBundle w).slots = (decodeBundle v).slots)
    (late : (decodeBundle w).lateHeader = (decodeBundle v).lateHeader) (bad : (decodeBundle w).badHeader = (decodeBundle v).badHeader)
    (yieldPt : (decodeBundle w).yieldPt = (decodeBundle v).yieldPt)
    (committing : ((opsOf s.iss.snapCwt (decodeBundle v)).any fun o => commits s.iss.snap.rdH o.instr) = true) :
    s.openBundle w = s.openBundle v := by
  unfold opsOf at committing
  simp only [State.openBundle, checkBundle, slots, late, bad, yieldPt, committing, Bool.true_or]

section
variable {w v : Nat} (low : w % 2 ^ 27 = v % 2 ^ 27) (high : w / 2 ^ 28 = v / 2 ^ 28)
include high

theorem slotClass_of_high (k : Nat) : slotClass w k = slotClass v k := by
  have split : w / 2 ^ (32 * k + 28) = v / 2 ^ (32 * k + 28) := by
    rw [Nat.add_comm, Nat.pow_add, ← Nat.div_div_eq_div_mul, ← Nat.div_div_eq_div_mul, high]
  rw [slotClass, slotClass, split]

theorem slotWord_of_high {k : Nat} (h1 : 1 ≤ k) : slotWord w k = slotWord v k := by
  have split : w / 2 ^ (32 * k) = v / 2 ^ (32 * k) := by
    rw [show 32 * k = 28 + (32 * k - 28) by omega, Nat.pow_add, ← Nat.div_div_eq_div_mul, ← Nat.div_div_eq_div_mul, high]
  rw [slotWord, slotWord, split]

include low

/-- Headers that differ in CKPT alone have the same slots behind them, with the same lends. -/
theorem decodeSlot_of_ckpt (h : slotClass w 0 = 15) {k : Nat} (hk : k < 4) : decodeSlot w k = decodeSlot v k := by
  have h' : slotClass v 0 = 15 := (slotClass_of_high high 0).symm.trans h
  rcases Nat.eq_zero_or_pos k with rfl | h1
  · simp [decodeSlot, slotWord_class, h, h']
  · have lend : slotLend w k = slotLend v k := by
      rw [slotLend_of_header h h1 hk, slotLend_of_header h' h1 hk]
      interval_cases k <;> omega
    rw [decodeSlot, decodeSlot, slotWord_of_high high h1, lend]

end

/-- Settles O49: the slots and marks by the bits of the header, the checks by its place and reserved bits, and CKPT by what a committing bundle asks. -/
theorem headerSlot : Obligations.HeaderSlot := by
  refine ⟨fun w => ⟨fun h => ⟨?_, ?_, fun sl hsl => ?_⟩, fun h => ⟨?_, ?_, fun sl hsl => ?_⟩, fun sl hsl => ?_, fun k hk hw hc => ?_,
    fun cwt rows l => ⟨?_, fun none h bad => ?_⟩⟩, fun s w v h reserved low high committing => ?_⟩
  · simp [decodeBundle_ckpt, h]
  · simp [decodeBundle_yieldPt, h]
  · obtain ⟨hk, hc, -, hl, -⟩ := slot_of_mem hsl
    have h1 : 1 ≤ sl.num := Nat.one_le_iff_ne_zero.2 fun e => hc (by rw [e]; exact h)
    exact ⟨h1, hl.trans (slotLend_of_header h h1 hk)⟩
  · simp [decodeBundle_ckpt, h]
  · simp [decodeBundle_yieldPt, h]
  · obtain ⟨-, -, -, hl, -⟩ := slot_of_mem hsl
    exact hl.trans (slotLend_of_no_header h _)
  · obtain ⟨hk, -, hw, -, hi⟩ := slot_of_mem hsl
    exact ⟨hk, hw, hi⟩
  · exact ⟨_, (mem_slots_iff w _).2 ⟨k, hk, (decodeSlot_eq_some_iff w k _).2 ⟨.inl hw, hc, rfl⟩⟩, rfl⟩
  · rintro ⟨k, h1, h3, hk⟩
    exact checkBundle_late (fun none => (lateHeader_eq_none_iff w).1 none k h1 h3 hk) _ _ _
  · refine checkBundle_bad (k := 0) (w := slotWord w 0) ((lateHeader_eq_none_iff w).2 none) ?_ _ _ _
    rw [decodeBundle_badHeader, if_pos ⟨h, bad⟩]
  · have h' : slotClass v 0 = 15 := (slotClass_of_high high 0).symm.trans h
    have slots : (decodeBundle w).slots = (decodeBundle v).slots :=
      List.filterMap_congr fun k hk => decodeSlot_of_ckpt low high h (by simp at hk; omega)
    have late : (decodeBundle w).lateHeader = (decodeBundle v).lateHeader := by
      simp only [decodeBundle, slotWord_class, slotClass_of_high high]
      refine Option.map_congr fun k hk => ?_
      have behind := List.mem_of_find?_eq_some hk
      rw [slotWord_of_high high (show 1 ≤ k by simp at behind; omega)]
    have bad : (decodeBundle w).badHeader = (decodeBundle v).badHeader := by
      have reserved' : v / 2 ^ 24 % 4 = 0 := by omega
      rw [decodeBundle_badHeader, decodeBundle_badHeader, if_neg fun e => e.2 reserved, if_neg fun e => e.2 reserved']
    have yieldPt : (decodeBundle w).yieldPt = (decodeBundle v).yieldPt := by
      have bit : w / 2 ^ 26 % 2 = v / 2 ^ 26 % 2 := by omega
      rw [decodeBundle_yieldPt, decodeBundle_yieldPt, h, h', bit]
    have commits : ((opsOf s.iss.snapCwt (decodeBundle v)).any fun o => commits s.iss.snap.rdH o.instr) = true := by
      rw [List.any_eq_true, opsOf, ← slots]
      exact committing
    rw [State.issueBundle, State.issueBundle, openBundle_congr s slots late bad yieldPt commits]

end Sys2Proof.Machine
end

section
/-! SUPPORT. The run of a bundle's operations in slot order, and short pairs among them (R174, R176, R188 to R190, R198, R336, R338). -/

set_option Elab.async false

namespace Sys2Proof.Machine

open Sys2Proof Sys2Proof.Stated

/-! ### The run of operations (R176) -/

/-- The ports that an operation has used are those of its instruction (R192). -/
theorem used_eq_portCounted (s : State) (o : Op) : s.used o = portCounted o.instr s := by
  unfold State.used portCounted
  cases portOf o.instr <;> rfl

theorem runOps_cons_ok (s0 s t : State) (o : Op) (l : List Op) (h : actOf o.instr (s.at o) = .ok t) :
    runOps s0 (o :: l) s none = runOps s0 l (portCounted o.instr t) none := by
  rw [runOps, h, ← used_eq_portCounted]

/-- The place that a state's record of the bundle holds before an operation does not matter to it. -/
def AlikeAt (s t : State) : Prop := ∀ o : Op, s.at o = t.at o

theorem alikeAt_at (s : State) (o : Op) : AlikeAt (s.at o) s := fun _ => rfl

theorem AlikeAt.used {s t : State} (h : AlikeAt s t) (o : Op) : AlikeAt (s.used o) (t.used o) := fun x => by
  have swap (u : State) : (u.used o).at x = ((u.at o).used o).at x := by unfold State.used; cases portOf o.instr <;> rfl
  rw [swap s, swap t, h o]

/-- The run of a list of operations does not depend on the place held before the first of them. -/
theorem runOps_alikeAt (l : List Op) {s0 t0 s t : State} (h0 : AlikeAt s0 t0) (h : AlikeAt s t) (stop : Option (State × Stop))
    (hs : l = [] → stop = none → s = t) : runOps s0 l s stop = runOps t0 l t stop := by
  induction l generalizing s t stop with
  | nil =>
    cases stop with
    | none => rw [hs rfl rfl]; rfl
    | some e => rfl
  | cons o l ih =>
    unfold runOps
    rw [h o, h0 o]
    split
    · exact ih (fun _ => rfl) _ fun _ _ => rfl
    · exact ih (fun _ => rfl) _ fun _ _ => rfl
    · split
      · rfl
      · exact ih (h.used o) _ fun _ e => by cases e

/-! ### A bundle that passes the checks of R198 -/

/-- A bundle that passes the checks is opened to its operations, in a state that is committed first where it must be (R336). -/
theorem openBundle_passes (s : State) {word : Nat} {b : Bundle} {l : List (Except Ill Op)} {cm ck : Bool} (hb : decodeBundle word = b)
    (hl : b.slots.flatMap (expandSlot s.iss.snapCwt) = l) (hcm : ((goodOps l).any fun o => commits s.iss.snap.rdH o.instr) = cm)
    (hck : (cm || b.ckpt || b.yieldPt) = ck) (past : s.pastImage = false)
    (poison : s.poisoned (s.myLaunch.codeBase + s.iss.pc) 16 = false) (room : ck = true → s.holdFull s.iss.task s.iss.die = false)
    (checks : checkBundle b l (decide (s.me.rowCount ≠ 0)) s.iss.snapL = none) :
    s.openBundle word = .ok (if ck then s.commit s.iss.task else s, goodOps l, cm, b.yieldPt) := by
  have rows : (s.commit s.iss.task).me.rowCount = s.me.rowCount := by
    rw [State.me, State.commit_iss, State.commit_task_same]; rfl
  unfold State.openBundle
  simp only [past, poison, hb, hl, hcm, hck, Bool.false_eq_true, if_false]
  cases ck with
  | false => rw [Bool.false_and, if_neg Bool.false_ne_true, if_neg Bool.false_ne_true, checks]
  | true => rw [room rfl, Bool.and_false, if_neg Bool.false_ne_true, if_pos rfl, rows, State.commit_iss, checks]

/-- The commits before a bundle leave its record as it is. -/
theorem opened_iss (s : State) (d c i : Nat) (l : List Op) (ck : Bool) : (opened s d c i l ck).iss = (s.present i d c).iss := by
  simp only [opened]
  split <;> split <;> simp only [State.commit_iss]

theorem opened_rowCount (s : State) (d c i : Nat) (l : List Op) (ck : Bool) :
    (opened s d c i l ck).me.rowCount = (s.task i).rowCount := by
  have keeps (u : State) : ((u.commit i).task i).rowCount = (u.task i).rowCount := by rw [State.commit_task_same]
  rw [State.me, opened_iss]
  simp only [opened]
  split <;> split <;> simp only [State.present, keeps] <;> rfl

theorem checkIllegal_of_passes {b : Bundle} {l : List (Except Ill Op)} {rows : Bool} {latches : Latches}
    (h : checkBundle b l rows latches = none) : checkIllegal rows l = none := by
  unfold checkBundle at h
  split at h
  · cases h
  · split at h
    · cases h
    · exact (Option.or_eq_none_iff.1 h).1

/-! ### Short pairs (R188 to R190) -/

/-- A short pair whose operations are legal and run is their run. -/
theorem execCw_ok {x y : ShortForm} {s t : State} {l : List (Except Ill Op)}
    (hl : expandSlot s.iss.snapCwt { num := s.iss.slot, word := s.iss.word, lend := 0, instr := .ok (.cw x y) } = l)
    (legal : checkIllegal (decide (s.me.rowCount ≠ 0)) l = none) (run : runOps s (goodOps l) s none = .ok t) :
    exec (.cw x y) s = .next t := by
  change execCw x y s = _
  simp only [execCw, hl, legal, run]

/-- The same with the pair's place set in a state: its operations run as they do before. -/
theorem execCw_at_ok {x y : ShortForm} {r t : State} {l : List (Except Ill Op)} (o : Op)
    (hl : expandSlot r.iss.snapCwt { num := o.slot, word := o.word, lend := 0, instr := .ok (.cw x y) } = l)
    (legal : checkIllegal (decide (r.me.rowCount ≠ 0)) l = none) (run : runOps r (goodOps l) r none = .ok t) (some : goodOps l ≠ []) :
    exec (.cw x y) (r.at o) = .next t :=
  execCw_ok hl legal ((runOps_alikeAt _ (alikeAt_at r o) (alikeAt_at r o) none fun e => absurd e some).trans run)

/-- What a slot that holds a short pair stands for depends on its number and word alone. -/
theorem expandSlot_short (cwt : SMap Nat) {sl : Slot} {x y : ShortForm} (h : sl.instr = .ok (.cw x y)) :
    expandSlot cwt { num := sl.num, word := sl.word, lend := 0, instr := .ok (.cw x y) } = expandSlot cwt sl := by
  obtain ⟨num, word, lend, instr⟩ := sl
  cases h
  rfl

/-- Settles O51: the run of a list of operations by its equations, and the step by the bundle that it opens. -/
theorem stepRunsBundles : Obligations.StepRunsBundles := by
  refine ⟨fun s0 s t o l => ⟨rfl, runOps_cons_ok s0 s t o l⟩, ?_⟩
  intro s d c i rest ha hp u p b l cm ck r hi past poison room checks t run
  have hopen : p.openBundle p.fetchBundle = .ok (if ck then p.commit i else p, goodOps l, cm, b.yieldPt) :=
    openBundle_passes p rfl rfl rfl rfl past poison room checks
  have task : (if ck then p.commit i else p).iss.task = i := by
    split
    · rw [State.commit_iss]; rfl
    · rfl
  have perform : State.perform (if ck then p.commit i else p) (goodOps l) = .ok t := by
    rw [State.perform, task]; exact run
  have stepped : step s = State.settleBundle (.ok t) cm b.yieldPt := by
    rw [step_of_opened s d c i rest ha hp hi _ _ _ _ hopen, perform]
  refine ⟨stepped, fun sl x y slots pair nonempty => ?_⟩
  let o : Op := { slot := sl.num, half := 0, word := sl.word, instr := .cw x y }
  have cwt : r.iss.snapCwt = p.iss.snapCwt := congrArg Issue.snapCwt (opened_iss u d c i _ ck)
  have expand : expandSlot r.iss.snapCwt { num := sl.num, word := sl.word, lend := 0, instr := .ok (.cw x y) } = l := by
    rw [cwt, expandSlot_short _ pair]
    exact (List.flatMap_singleton _ sl).symm.trans (by rw [← slots])
  have legal : checkIllegal (decide (r.me.rowCount ≠ 0)) l = none := by
    rw [opened_rowCount]
    exact checkIllegal_of_passes checks
  exact execCw_at_ok o expand legal run nonempty

/-! ### The two halves of a pair -/

/-- The instruction that a short form of the bundle in issue stands for (R190). -/
def State.shortInstr (s : State) (x : ShortForm) : Except Reject Instr := decodeShort (smGet 0 s.iss.snapCwt x.index.val) x.ofs.val

/-- The operation of a half of the pair in issue. -/
def State.halfOp (s : State) (half : Nat) (i : Instr) : Op := { slot := s.iss.slot, half := half, word := s.iss.word, instr := i }

/-- The slot of the pair in issue. -/
def State.pairSlot (s : State) (x y : ShortForm) : Slot := { num := s.iss.slot, word := s.iss.word, lend := 0, instr := .ok (.cw x y) }

theorem expandShort_zero (cwt : SMap Nat) (sl : Slot) (half : Nat) {x : ShortForm} (hi : x.index = 0) (ho : x.ofs = 0) :
    expandShort cwt sl half x = none := if_pos ⟨hi, ho⟩

section

variable {s : State} {x y z : ShortForm}

theorem expandShort_ok (half : Nat) (hz : z.index ≠ 0 ∨ z.ofs ≠ 0) {i : Instr} (hi : s.shortInstr z = .ok i) :
    expandShort s.iss.snapCwt (s.pairSlot x y) half z = some (.ok (s.halfOp half i)) := by
  unfold State.shortInstr at hi
  rw [expandShort, if_neg (by tauto), hi]
  rfl

theorem expandShort_error (half : Nat) (hz : z.index ≠ 0 ∨ z.ofs ≠ 0) {r : Reject} (hr : s.shortInstr z = .error r) :
    expandShort s.iss.snapCwt (s.pairSlot x y) half z = some (.error (badAt s.iss.slot half s.iss.word .illegalInstruction)) := by
  unfold State.shortInstr at hr
  rw [expandShort, if_neg (by tauto), hr]
  rfl

/-- The slot of a pair stands for what its two forms stand for (R190). -/
theorem expandSlot_pairSlot : expandSlot s.iss.snapCwt (s.pairSlot x y) =
    (expandShort s.iss.snapCwt (s.pairSlot x y) 0 x).toList ++ (expandShort s.iss.snapCwt (s.pairSlot x y) 1 y).toList := rfl

/-- In a task with rows, operations are legal (R23). -/
theorem checkIllegal_ok (ops : List Op) : checkIllegal true (ops.map .ok) = none := by
  simp [checkIllegal]

theorem goodOps_ok (ops : List Op) : goodOps (ops.map .ok) = ops := by
  induction ops with
  | nil => rfl
  | cons o l ih => simpa [goodOps, Except.toOption] using ih

/-- A pair whose forms stand for operations that run is their run. -/
theorem exec_cw_of_run (rows : s.me.rowCount ≠ 0) {ops : List Op} {t : State}
    (hl : expandSlot s.iss.snapCwt (s.pairSlot x y) = ops.map .ok) (run : runOps s ops s none = .ok t) : exec (.cw x y) s = .next t := by
  refine execCw_ok hl ?_ (by rw [goodOps_ok, run])
  rw [decide_eq_true rows, checkIllegal_ok]

/-- The place of the first half is that of the pair. -/
theorem at_halfOp_zero (h0 : s.iss.half = 0) (i : Instr) : s.at (s.halfOp 0 i) = s :=
  congrArg (fun k => { s with iss := { s.iss with half := k } }) h0.symm

end

section
variable {s : State} {x y : ShortForm} (h0 : s.iss.half = 0) (hx : x.index ≠ 0 ∨ x.ofs ≠ 0)
include h0 hx

/-- A pair of one form is the operation of that form. -/
theorem exec_cw_one (rows : s.me.rowCount ≠ 0) {i : Instr} {t : State} (hi : s.shortInstr x = .ok i) (ht : actOf i s = .ok t)
    (yi : y.index = 0) (yo : y.ofs = 0) : exec (.cw x y) s = .next (portCounted i t) := by
  refine exec_cw_of_run (ops := [s.halfOp 0 i]) rows ?_ ?_
  · rw [expandSlot_pairSlot, expandShort_ok 0 hx hi, expandShort_zero _ _ _ yi yo]
    rfl
  · rw [runOps_cons_ok s s t _ _ (by rw [at_halfOp_zero h0]; exact ht)]
    rfl

/-- A pair of two forms is the operation of the second on what that of the first leaves. -/
theorem exec_cw_two (rows : s.me.rowCount ≠ 0) {i j : Instr} {t u : State} (hi : s.shortInstr x = .ok i) (ht : actOf i s = .ok t)
    (hy : y.index ≠ 0 ∨ y.ofs ≠ 0) (hj : s.shortInstr y = .ok j) (hu : actOf j ((portCounted i t).at (s.halfOp 1 j)) = .ok u) :
    exec (.cw x y) s = .next (portCounted j u) := by
  refine exec_cw_of_run (ops := [s.halfOp 0 i, s.halfOp 1 j]) rows ?_ ?_
  · rw [expandSlot_pairSlot, expandShort_ok 0 hx hi, expandShort_ok 1 hy hj]
    rfl
  · rw [runOps_cons_ok s s t _ _ (by rw [at_halfOp_zero h0]; exact ht), runOps_cons_ok s _ u _ _ hu]
    rfl

/-- A first form that stands for no instruction raises ILLEGAL_INSTRUCTION. -/
theorem exec_cw_illegal {r : Reject} (hr : s.shortInstr x = .error r) : Traps (.cw x y) s { code := 0x01, info := s.iss.word } := by
  have illegal : checkIllegal (decide (s.me.rowCount ≠ 0)) (expandSlot s.iss.snapCwt (s.pairSlot x y))
      = some (badAt s.iss.slot 0 s.iss.word .illegalInstruction) := by
    rw [expandSlot_pairSlot, expandShort_error 0 hx hr]
    rfl
  unfold State.pairSlot at illegal
  change execCw x y s = _
  simp only [execCw, illegal, h0]
  rfl

end

/-- A pair of two forms that are all zero does nothing. -/
theorem exec_cw_zero (s : State) {z : ShortForm} (zi : z.index = 0) (zo : z.ofs = 0) : exec (.cw z z) s = .next s := by
  refine execCw_ok (l := []) ?_ rfl rfl
  change (expandShort _ _ 0 z).toList ++ (expandShort _ _ 1 z).toList = []
  rw [expandShort_zero _ _ _ zi zo, expandShort_zero _ _ _ zi zo]
  rfl

/-- Settles O9: a pair by the run of the operations of its forms, and `vand` by its lanes. -/
theorem shortPairs : Obligations.ShortPairs := by
  intro s x y h0 rows hx form next
  refine ⟨fun i t hi ht => ⟨exec_cw_one h0 hx rows hi ht, fun hy j u hj hu => exec_cw_two h0 hx rows hi ht hy hj hu⟩, ?_,
    fun r hr => exec_cw_illegal h0 hx hr, fun z zi zo => exec_cw_zero s zi zo⟩
  intro o v w hi yi yo ha hb usable
  obtain ⟨t, ht, -, lanes⟩ := lane2_ok o.t o.d o.a o.b o.m o.nw false (fun _ _ _ p q _ => p &&& q) s v w ha hb usable
  exact ⟨t, exec_cw_one h0 hx rows hi ht yi yo, lanes⟩

end Sys2Proof.Machine
end

section
/-! SUPPORT. The guard of an instruction of class 0x0, and lost scalar latches among its operands (R193, R195, R215). -/

set_option Elab.async false

namespace Sys2Proof.Machine

open Sys2Proof Sys2Proof.Stated

/-! ### Operands before the guard (R195) -/

/-- The instruction reads operands a and b, whatever its guard, and acts only where its guard is true. -/
def Reads2 (s : State) (a b : SSrc) (g : Fin 8) (i : Instr) : Prop :=
  ∃ f : Word → Word → Act, exec i s = resolve s (do
    let x ← s.srcS a
    let y ← s.srcS b
    if s.guardOn g then f x y else .ok s)

/-- The same of an instruction with one source. -/
def Reads1 (s : State) (a : SSrc) (g : Fin 8) (i : Instr) : Prop :=
  ∃ f : Word → Act, exec i s = resolve s (do
    let x ← s.srcS a
    if s.guardOn g then f x else .ok s)

/-- The instruction reads operand a first. -/
def ReadsFirst (s : State) (a : SSrc) (i : Instr) : Prop := ∃ f : Word → Act, exec i s = resolve s (s.srcS a >>= f)

section

variable {s : State} {a b : SSrc} {g : Fin 8} {i : Instr}

theorem Reads1.first (h : Reads1 s a g i) : ReadsFirst s a i := ⟨_, h.choose_spec⟩

theorem Reads2.first (h : Reads2 s a b g i) : ReadsFirst s a i := ⟨_, h.choose_spec⟩

theorem Reads2.off (h : Reads2 s a b g i) {x y : Word} (ha : s.srcS a = .ok x) (hb : s.srcS b = .ok y) (hg : s.guardOn g = false) :
    exec i s = .next s := by
  obtain ⟨f, h⟩ := h
  simp [h, ha, hb, hg]

theorem Reads1.off (h : Reads1 s a g i) {x : Word} (ha : s.srcS a = .ok x) (hg : s.guardOn g = false) : exec i s = .next s := by
  obtain ⟨f, h⟩ := h
  simp [h, ha, hg]

/-- A source that names a lost latch stops the instruction, with the latch's specifier (R193). -/
theorem srcS_lost {n : Nat} (h : LatchLost s a n) : s.srcS a = raiseInfo .staleLatch n := by
  rcases h with ⟨rfl, hl, rfl⟩ | ⟨rfl, hl, rfl⟩ | ⟨rfl, hl, rfl⟩ | ⟨rfl, hl, rfl⟩ <;> simp only [State.srcS, hl] <;> rfl

theorem ReadsFirst.lost (h : ReadsFirst s a i) {n : Nat} (ha : LatchLost s a n) : Traps i s { code := 0x03, info := n } := by
  obtain ⟨f, h⟩ := h
  rw [Traps, h, srcS_lost ha]
  rfl

theorem Reads2.lost_b (h : Reads2 s a b g i) {x : Word} (ha : s.srcS a = .ok x) {n : Nat} (hb : LatchLost s b n) :
    Traps i s { code := 0x03, info := n } := by
  obtain ⟨f, h⟩ := h
  rw [Traps, h, ha, srcS_lost hb]
  rfl

end

/-! ### The instructions of class 0x0 (R209 to R215) -/

section

variable (s : State)

theorem sr2_reads (o : SrOp) (f : Word → Word → Word) : ∃ h : Word → Word → Act, resolve s (sr2 o f s) = resolve s (do
    let x ← s.srcS o.a
    let y ← s.srcS o.b
    if s.guardOn o.g then h x y else .ok s) := by
  refine ⟨fun x y => .ok (s.resS o.d (f x y) o.nw), ?_⟩
  unfold sr2
  congr; funext x; congr; funext y
  split <;> rfl

theorem sr1_reads (o : SrOne) (f : Word → Word) : ∃ h : Word → Act, resolve s (sr1 o f s) = resolve s (do
    let x ← s.srcS o.a
    if s.guardOn o.g then h x else .ok s) := by
  refine ⟨fun x => .ok (s.resS o.d (f x) o.nw), ?_⟩
  unfold sr1
  congr; funext x
  split <;> rfl

/-- A divide tests its guard before its divider (R214). -/
theorem divOp_reads (o : SrOp) (signed rem : Bool) : ∃ h : Word → Word → Act, resolve s (divOp o signed rem s) = resolve s (do
    let x ← s.srcS o.a
    let y ← s.srcS o.b
    if s.guardOn o.g then h x y else .ok s) := by
  unfold divOp
  cases hg : s.guardOn o.g with
  | false => exact ⟨fun _ _ => .ok s, rfl⟩
  | true => exact ⟨_, rfl⟩

theorem cmp_reads (c : SCond) (p : Fin 8) (a b : SSrc) (nw : Bool) (g : Fin 8) : Reads2 s a b g (.cmp c p a b nw g) := by
  refine ⟨fun x y => .ok (s.resP p (scondHolds c x y) nw), ?_⟩
  change resolve s (actCmp c p a b nw g s) = _
  unfold actCmp
  congr; funext x; congr; funext y
  split <;> rfl

/-- `bfi` reads its control word first, and is then one of two sources (R213). -/
theorem bfi_reads (o : SrOp) (e : SSrc) {z : Word} (hz : s.srcS e = .ok z) : Reads2 s o.a o.b o.g (.bfi o e) := by
  obtain ⟨f, h⟩ := sr2_reads s o fun a b => bfiVal a b z
  refine ⟨f, Eq.trans ?_ h⟩
  change resolve s (s.srcS e >>= fun c => sr2 o (fun a b => bfiVal a b c) s) = _
  rw [hz]
  rfl

theorem bfi_readsFirst (o : SrOp) (e : SSrc) : ReadsFirst s e (.bfi o e) := ⟨_, rfl⟩

theorem guarded2_reads (o : SrOp) (k : Fin 8) (e : SSrc) {z : Word} (hz : s.srcS e = .ok z) :
    ∀ i ∈ guarded2 o k e, Reads2 s o.a o.b o.g i := by
  have two := sr2_reads s o
  have div := divOp_reads s o
  simp only [guarded2, List.forall_mem_cons]
  exact ⟨two _, two _, two _, two _, two _, two _, two _, two _, two _, two _, two _, two _, two _, two _, two _, two _, two _, two _,
    bfi_reads s o e hz, div _ _, div _ _, div _ _, div _ _, List.forall_mem_nil _⟩

theorem guarded1_reads (q : SrOne) : ∀ i ∈ guarded1 q, Reads1 s q.a q.g i := by
  have one := sr1_reads s q
  simp only [guarded1, List.forall_mem_cons]
  exact ⟨one _, one _, one _, one _, List.forall_mem_nil _⟩

/-! ### Class 0x1 and transfers (R216, R218) -/

theorem immediate_readsFirst (u : SiOp) : ∀ i ∈ immediate u, ReadsFirst s u.a i.1 := by
  simp only [immediate, List.forall_mem_cons]
  exact ⟨⟨_, rfl⟩, ⟨_, rfl⟩, ⟨_, rfl⟩, ⟨_, rfl⟩, ⟨_, rfl⟩, List.forall_mem_nil _⟩

theorem immediate6_readsFirst (d : Fin 32) (a : SSrc) (m : Fin 64) : ∀ i ∈ immediate6 d a m, ReadsFirst s a i.1 := by
  simp only [immediate6, List.forall_mem_cons]
  exact ⟨⟨_, rfl⟩, ⟨_, rfl⟩, ⟨_, rfl⟩, ⟨_, rfl⟩, List.forall_mem_nil _⟩

theorem transfer_readsFirst (a : SSrc) (w : BitVec 24) : ∀ i ∈ ([.brz a w, .brnz a w, .ret a, .jmpr a w] : List Instr), ReadsFirst s a i := by
  simp only [List.forall_mem_cons]
  exact ⟨⟨_, rfl⟩, ⟨_, rfl⟩, ⟨_, rfl⟩, ⟨_, rfl⟩, List.forall_mem_nil _⟩

end

theorem guardOff : GuardOff := by
  intro s o q k e c p a b z ha hb he hq g2 g1
  exact ⟨fun i hi => (guarded2_reads s o k e he i hi).off ha hb g2, fun i hi => (guarded1_reads s q i hi).off hq g1,
    (cmp_reads s c p o.a o.b o.nw o.g).off ha hb g2⟩

theorem lostLatchTraps : LostLatchTraps := by
  intro s o q u k e c p x d m j w n r
  have cmp := cmp_reads s c p o.a o.b o.nw o.g
  refine ⟨fun lost he => ⟨fun i hi => (guarded2_reads s o k e he i hi).first.lost lost, cmp.first.lost lost⟩,
    fun lost ha he => ⟨fun i hi => (guarded2_reads s o k e he i hi).lost_b ha lost, cmp.lost_b ha lost⟩,
    (bfi_readsFirst s o e).lost, fun lost i hi => (guarded1_reads s q i hi).first.lost lost, fun lost => ?_⟩
  have cmpi : ReadsFirst s u.a (.cmpi c p u.a j) := ⟨_, rfl⟩
  exact ⟨fun i hi => (immediate_readsFirst s u i hi).lost lost, cmpi.lost lost,
    fun i hi => (immediate6_readsFirst s d u.a m i hi).lost lost, fun i hi => (transfer_readsFirst s u.a w i hi).lost lost⟩

/-- Settles O13: each instruction by the operands that it reads before its guard. -/
theorem guardsAndLatches : Obligations.GuardsAndLatches := ⟨guardOff, lostLatchTraps⟩

end Sys2Proof.Machine
end

section
/-! SUPPORT. System registers, device time, and the load of control words (R201, R348, R352, R353). -/

set_option Elab.async false

namespace Sys2Proof.Machine

open Sys2Proof Sys2Proof.Stated

/-! ### System registers (R201, R348) -/

theorem exec_mfsr_assigned (s : State) (d : Fin 32) (n : Fin 1024) {v : Word} (h : s.sysReg n.val = some v) :
    ∃ t, exec (.mfsr d n) s = .next t ∧ ResultS s t d v false := by
  refine ⟨s.resS d v, ?_, resultS_resS s d v false⟩
  change resolve s (actMfsr d n s) = _
  rw [actMfsr, h]
  rfl

/-- The fourteen assigned registers hold the listed values. -/
theorem sysReg_of_mem (s : State) : ∀ p ∈ systemRegisters s, s.sysReg p.1.val = some p.2 := by
  simp only [systemRegisters, List.forall_mem_cons]
  exact ⟨rfl, rfl, rfl, rfl, rfl, rfl, rfl, rfl, rfl, rfl, rfl, rfl, rfl, rfl, List.forall_mem_nil _⟩

theorem sysReg_unassigned (s : State) {n : Nat} (h : 14 ≤ n) : s.sysReg n = none := by
  obtain ⟨m, rfl⟩ := Nat.exists_eq_add_of_le' h
  rfl

theorem exec_mfsr_unassigned (s : State) (d : Fin 32) {n : Fin 1024} (h : 14 ≤ n.val) :
    Traps (.mfsr d n) s { code := 0x01, info := s.iss.word } := by
  change resolve s (actMfsr d n s) = _
  rw [actMfsr, sysReg_unassigned s h]
  rfl

section

variable {s : State} {a : SSrc} {v : Word} (ha : s.srcS a = .ok v)
include ha

theorem exec_mtsr_seed : exec (.mtsr 1 a) s = .next (s.modMe fun t => { t with live := { t.live with seed := v } }) := by
  change resolve s (actMtsr 1 a s) = _
  rw [actMtsr, ha]
  rfl

theorem exec_mtsr_claimTimeout :
    exec (.mtsr 8 a) s = .next (s.modMe fun t => { t with live := { t.live with claimTimeout := v } }) := by
  change resolve s (actMtsr 8 a s) = _
  rw [actMtsr, ha]
  rfl

theorem exec_mtsr_readOnly {n : Fin 1024} (h1 : n ≠ 1) (h8 : n ≠ 8) : Traps (.mtsr n a) s { code := 0x01, info := s.iss.word } := by
  change resolve s (actMtsr n a s) = _
  rw [actMtsr, ha, except_ok_bind]
  split
  next h => exact absurd (Fin.ext h) h1
  next h => exact absurd (Fin.ext h) h8
  · rfl

/-! ### Device time (R352) -/

theorem exec_timeUntil_reached (hr : s.me.reply = none) (hv : v.toNat ≤ s.myDie.time) : exec (.timeUntil a) s = .next s := by
  have reached : v.toNat ≤ s.time s.iss.die := hv
  change resolve s (actTimeUntil a s) = _
  simp [actTimeUntil, ha, hr, reached]

theorem exec_timeUntil_waits (hr : s.me.reply = none) (hv : s.myDie.time < v.toNat) :
    exec (.timeUntil a) s = .next (s.stall (.timeUntil v.toNat)) := by
  have late : ¬ v.toNat ≤ s.time s.iss.die := Nat.not_le.2 hv
  change resolve s (actTimeUntil a s) = _
  simp [actTimeUntil, ha, hr, late]
  rfl

theorem exec_timeUntil_answered (hr : s.me.reply ≠ none) : exec (.timeUntil a) s = .next (s.modMe fun t => { t with reply := none }) := by
  have answered : s.me.reply.isSome = true := Option.isSome_iff_ne_none.2 hr
  change resolve s (actTimeUntil a s) = _
  simp [actTimeUntil, ha, answered]
  rfl

end

theorem systemRegisters_settled : SystemRegisters := by
  intro s d n a v ha
  exact ⟨fun p hp => exec_mfsr_assigned s d p.1 (sysReg_of_mem s p hp), exec_mfsr_unassigned s d, exec_mtsr_seed ha, exec_mtsr_claimTimeout ha,
    exec_mtsr_readOnly ha, ⟨_, rfl, resultS_resS s d _ false⟩, ⟨_, rfl, resultS_resS s d _ false⟩, exec_timeUntil_reached ha,
    exec_timeUntil_waits ha, exec_timeUntil_answered ha⟩

/-! ### Control words (R353) -/

/-- The table after n entries from first on are put into it. -/
theorem smGet_foldl_smPut (m : SMap Nat) (first n : Nat) (f : Nat → Nat) (k : Nat) :
    smGet 0 ((List.range n).foldl (fun m i => smPut m (first + i) (f i)) m) k
      = if first ≤ k ∧ k < first + n then f (k - first) else smGet 0 m k := by
  induction n with
  | zero => simp
  | succ n ih =>
    rw [List.range_succ, List.foldl_append]
    simp only [List.foldl_cons, List.foldl_nil]
    by_cases hk : k = first + n
    · subst hk
      rw [smGet_smPut_same, if_pos (by omega), Nat.add_sub_cancel_left]
    · rw [smGet_smPut_other _ _ _ _ _ hk, ih]
      congr 1
      exact propext (by omega)

/-- The record of a task whose table takes n control words from pa, entry first on (R353). -/
def State.cwtLoaded (s : State) (first n pa : Nat) (t : Task) : Task :=
  { t with
    cwtDirty := t.cwtDirty || decide (0 < n)
    cwt := (List.range n).foldl (fun m i => smPut m (first + i) (s.bytes (pa + 32 * i) 32)) t.cwt }

section

variable {s : State} {d : Fin 32} {a : SSrc} {first : Fin 512} {x : Word} (ha : s.srcS a = .ok x) (aligned : x.toNat % 32 = 0)
include ha aligned

theorem exec_cwtld_bounds
    (out : 512 < first.val + (s.regS d).toNat ∨ ((s.regS d).toNat ≠ 0 ∧ s.me.spadSize < x.toNat + 32 * (s.regS d).toNat)) :
    Traps (.cwtld d a first) s { code := 0x04, addr := 63 * 2 ^ 51 + x.toNat } := by
  have test : (decide (first.val + (s.regS d).toNat ≤ 512)
      && (decide ((s.regS d).toNat = 0) || decide (x.toNat + 32 * (s.regS d).toNat ≤ s.me.spadSize))) = false := by
    simp only [Bool.and_eq_false_iff, Bool.or_eq_false_iff, decide_eq_false_iff_not]
    omega
  change resolve s (actCwtld d a first s) = _
  simp only [actCwtld, ha, except_ok_bind, aligned, decide_true, require_true, test, require_false]
  rfl

theorem exec_cwtld_loads : let n := (s.regS d).toNat
    let pa := winAddr (s.modId s.iss.die) s.iss.die s.iss.core + s.me.spadBase + x.toNat
    first.val + n ≤ 512 → (n = 0 ∨ x.toNat + 32 * n ≤ s.me.spadSize) → s.releaseWaits s.iss.task = false →
    s.scoreboardHolds s.iss.die s.iss.core pa (32 * n) false = false → s.poisoned pa (32 * n) = false →
      exec (.cwtld d a first) s = .next (s.modMe (s.cwtLoaded first n pa)) := by
  intro n pa table extent release board poison
  have test : (decide (first.val + n ≤ 512) && (decide (n = 0) || decide (x.toNat + 32 * n ≤ s.me.spadSize))) = true := by
    simp only [Bool.and_eq_true, Bool.or_eq_true, decide_eq_true_eq]
    exact ⟨table, extent⟩
  change resolve s (actCwtld d a first s) = _
  simp only [n, pa] at test board poison
  simp only [actCwtld, ha, except_ok_bind, aligned, decide_true, require_true, test, release_ok s release, board, poison, Bool.not_false]
  rfl

end

theorem controlWords : ControlWords := by
  intro s d a first x ha aligned n pa
  refine ⟨exec_cwtld_bounds ha aligned, fun table extent release board poison =>
    ⟨_, exec_cwtld_loads ha aligned table extent release board poison, onlyMe_modMe s _, ?_, fun k => ?_⟩⟩
  · rw [State.me_modMe]
    rfl
  · rw [State.me_modMe]
    exact smGet_foldl_smPut s.me.cwt first n (fun i => s.bytes (pa + 32 * i) 32) k

/-- Settles O31: the registers by their list, time by the die's, and the control words by the table after the load. -/
theorem systemRegisters : Obligations.SystemRegisters := ⟨systemRegisters_settled, controlWords⟩

end Sys2Proof.Machine
end

section
/-! SUPPORT. The values of the scalar instructions (R46, R210 to R217), and the results of arithmetic, counting, moves, bit fields, comparisons and
immediates (R192, R194, R210, R211, R213, R216, R217). -/

set_option Elab.async false

namespace Sys2Proof.Machine

open Sys2Proof Sys2Proof.Stated

/-! ### Arithmetic, shifts and extremes (R46, R210) -/

section

variable (a b : Word)

/-- The low w bits of a number, read as two's complement. -/
theorem sextNat_eq_toInt (w x : Nat) : sextNat w x = (BitVec.ofNat w x).toInt := by
  rw [BitVec.toInt_eq_toNat_cond, BitVec.toNat_ofNat, sextNat]
  cases w with
  | zero => simp [Nat.mod_one]
  | succ w =>
    have half : 2 ^ (w + 1 - 1) ≤ x % 2 ^ (w + 1) ↔ ¬ 2 * (x % 2 ^ (w + 1)) < 2 ^ (w + 1) := by
      rw [Nat.add_sub_cancel, Nat.pow_succ]
      omega
    simp only [half, ite_not]
    norm_cast

theorem sextNat_toNat : sextNat 64 a.toNat = a.toInt := by
  rw [sextNat_eq_toInt, BitVec.ofNat_toNat, BitVec.setWidth_eq]

theorem sub_eq_ofInt : a - b = BitVec.ofInt 64 (a.toNat - b.toNat) := by
  have := b.isLt
  apply BitVec.eq_of_toNat_eq
  rw [BitVec.toNat_sub, BitVec.toNat_ofInt]
  omega

theorem shiftLeft_eq_ofNat (n : Nat) : a <<< n = BitVec.ofNat 64 (a.toNat * 2 ^ n) := by
  apply BitVec.eq_of_toNat_eq
  rw [BitVec.toNat_shiftLeft, BitVec.toNat_ofNat, Nat.shiftLeft_eq]

theorem shiftRight_eq_ofNat (n : Nat) : a >>> n = BitVec.ofNat 64 (a.toNat / 2 ^ n) := by
  apply BitVec.eq_of_toNat_eq
  rw [BitVec.toNat_ushiftRight, BitVec.toNat_ofNat, Nat.shiftRight_eq_div_pow,
    Nat.mod_eq_of_lt ((Nat.div_le_self _ _).trans_lt a.isLt)]

theorem sshiftRight_eq_ofInt (n : Nat) : a.sshiftRight n = BitVec.ofInt 64 (a.toInt / 2 ^ n) := by
  rw [← BitVec.ofInt_toInt (x := a.sshiftRight n), BitVec.toInt_sshiftRight, Int.shiftRight_eq_div_pow]
  norm_cast

/-- The lesser of two words, signed. -/
theorem min_signed : (if b.slt a then b else a) = BitVec.ofInt 64 (min a.toInt b.toInt) := by
  simp only [BitVec.slt_iff_toInt_lt]
  split
  next h => rw [min_eq_right h.le, BitVec.ofInt_toInt]
  next h => rw [min_eq_left (not_lt.1 h), BitVec.ofInt_toInt]

/-- The greater of two words, signed. -/
theorem max_signed : (if a.slt b then b else a) = BitVec.ofInt 64 (max a.toInt b.toInt) := by
  simp only [BitVec.slt_iff_toInt_lt]
  split
  next h => rw [max_eq_right h.le, BitVec.ofInt_toInt]
  next h => rw [max_eq_left (not_lt.1 h), BitVec.ofInt_toInt]

/-- The lesser of two words, unsigned. -/
theorem min_unsigned : (if b.ult a then b else a) = BitVec.ofNat 64 (min a.toNat b.toNat) := by
  simp only [BitVec.ult_iff_toNat_lt]
  split
  next h => rw [min_eq_right h.le, BitVec.ofNat_toNat, BitVec.setWidth_eq]
  next h => rw [min_eq_left (not_lt.1 h), BitVec.ofNat_toNat, BitVec.setWidth_eq]

/-- The greater of two words, unsigned. -/
theorem max_unsigned : (if a.ult b then b else a) = BitVec.ofNat 64 (max a.toNat b.toNat) := by
  simp only [BitVec.ult_iff_toNat_lt]
  split
  next h => rw [max_eq_right h.le, BitVec.ofNat_toNat, BitVec.setWidth_eq]
  next h => rw [max_eq_left (not_lt.1 h), BitVec.ofNat_toNat, BitVec.setWidth_eq]

/-- `movhi`: the word shifted by the immediate's 18 bits, with the immediate below it (R217). -/
theorem movhi_eq_ofNat (k : BitVec 18) : (a <<< 18 ||| k.zeroExtend 64) = BitVec.ofNat 64 (a.toNat * 2 ^ 18 + k.toNat) := by
  have low : k.toNat < 2 ^ 18 := k.isLt
  apply BitVec.eq_of_toNat_eq
  rw [BitVec.toNat_or, BitVec.toNat_shiftLeft, BitVec.toNat_setWidth, BitVec.toNat_ofNat,
    Nat.shiftLeft_eq, Nat.mul_comm, Nat.two_pow_add_eq_or_of_lt low, Nat.or_mod_two_pow]

end

/-! ### Counts (R210) -/

section

variable (a : Word)

theorem lt_two_pow_bitLength (x : Nat) : x < 2 ^ bitLength x := by
  unfold bitLength
  split
  next h => rw [h]; exact Nat.one_pos
  next => exact Nat.lt_log2_self

theorem bitLength_le {x n : Nat} (h : x < 2 ^ n) : bitLength x ≤ n := by
  unfold bitLength
  split
  next => exact Nat.zero_le n
  next hx => exact (Nat.log2_lt hx).2 h

/-- The highest one bit. -/
theorem testBit_bitLength_sub_one {x : Nat} (h : 0 < bitLength x) : x.testBit (bitLength x - 1) = true := by
  unfold bitLength at h ⊢
  split at h
  next => exact absurd h (lt_irrefl 0)
  next hx => rw [if_neg hx]; exact Nat.testBit_log2 hx

theorem clz64_toNat : (clz64 a).toNat = 64 - bitLength a.toNat := by
  rw [clz64, BitVec.toNat_ofNat, Nat.mod_eq_of_lt (by omega)]

theorem clz64_above (i : Nat) (hi : 64 - (clz64 a).toNat ≤ i) : a.getLsbD i = false := by
  have top : bitLength a.toNat ≤ i := by
    have := bitLength_le a.isLt
    rw [clz64_toNat] at hi
    omega
  exact Nat.testBit_lt_two_pow ((lt_two_pow_bitLength _).trans_le (Nat.pow_le_pow_right Nat.two_pos top))

theorem clz64_bit (h : (clz64 a).toNat < 64) : a.getLsbD (63 - (clz64 a).toNat) = true := by
  have := bitLength_le a.isLt
  rw [clz64_toNat] at h ⊢
  rw [show 63 - (64 - bitLength a.toNat) = bitLength a.toNat - 1 by omega]
  exact testBit_bitLength_sub_one (by omega)

/-- The lowest one bit of a word, where it is bit k. -/
theorem and_neg_eq_twoPow {k : Nat} (hk : a.getLsbD k = true) (below : ∀ j < k, a.getLsbD j = false) : a &&& -a = BitVec.twoPow 64 k := by
  have k_lt : k < 64 := BitVec.lt_of_getLsbD hk
  apply BitVec.eq_of_getLsbD_eq
  intro i hi
  rw [BitVec.getLsbD_and, BitVec.getLsbD_neg, BitVec.getLsbD_twoPow, decide_eq_true hi, decide_eq_true k_lt, Bool.true_and, Bool.true_and]
  rcases lt_trichotomy i k with h | rfl | h
  · simp [below i h, h.ne']
  · have none : ¬ ∃ j < i, a.getLsbD j = true := fun ⟨j, hj, one⟩ => by simp [below j hj] at one
    simp [hk, none]
  · have some : ∃ j < i, a.getLsbD j = true := ⟨k, h, hk⟩
    simp [some, h.ne]

theorem ctz64_toNat {k : Nat} (hk : a.getLsbD k = true) (below : ∀ j < k, a.getLsbD j = false) : (ctz64 a).toNat = k := by
  have k_lt : k < 64 := BitVec.lt_of_getLsbD hk
  have nonzero : a ≠ 0 := fun h => by simp [h] at hk
  rw [ctz64, if_neg nonzero, and_neg_eq_twoPow a hk below, BitVec.toNat_twoPow, Nat.mod_eq_of_lt (Nat.pow_lt_pow_right one_lt_two k_lt),
    Nat.log2_two_pow, BitVec.toNat_ofNat, Nat.mod_eq_of_lt (by omega)]

theorem ctz64_spec : (ctz64 a).toNat ≤ 64 ∧ (∀ i, i < (ctz64 a).toNat → a.getLsbD i = false)
    ∧ ((ctz64 a).toNat < 64 → a.getLsbD (ctz64 a).toNat = true) := by
  by_cases some : ∃ i, a.getLsbD i = true
  · have below : ∀ j < Nat.find some, a.getLsbD j = false := fun j hj => Bool.eq_false_iff.2 (Nat.find_min some hj)
    rw [ctz64_toNat a (Nat.find_spec some) below]
    exact ⟨(BitVec.lt_of_getLsbD (Nat.find_spec some)).le, below, fun _ => Nat.find_spec some⟩
  · have none : ∀ i, a.getLsbD i = false := fun i => Bool.eq_false_iff.2 fun h => some ⟨i, h⟩
    have zero : a = 0 := BitVec.eq_of_getLsbD_eq fun i _ => (none i).trans BitVec.getLsbD_zero.symm
    subst zero
    exact ⟨le_rfl, fun i _ => none i, fun h => absurd h (lt_irrefl 64)⟩

theorem popc64_toNat : (popc64 a).toNat = ((List.range 64).filter fun i => a.getLsbD i).length := by
  have := popCount_le 64 a.toNat
  rw [popc64, BitVec.toNat_ofNat, Nat.mod_eq_of_lt (by omega), popCount_eq]
  rfl

end

/-! ### Bit fields (R213) -/

section

variable (a b c : Word)

theorem bfLo_eq : bfLo c = c.toNat % 64 := by simp [bfLo, field]

theorem bfLen_eq : bfLen c = min (c.toNat / 64 % 128) (64 - bfLo c) := by simp [bfLen, field]

/-- Bit i of a field that is read out, sign-extended or not. -/
theorem bfxVal_getLsbD (i : Nat) (hi : i < 64) : (bfxVal a c).getLsbD i =
    if i < bfLen c then a.getLsbD (bfLo c + i) else (c.getLsbD 13 && decide (1 ≤ bfLen c) && a.getLsbD (bfLo c + bfLen c - 1)) := by
  have bit : ∀ j, (a.toNat / 2 ^ bfLo c % 2 ^ bfLen c).testBit j = (decide (j < bfLen c) && a.getLsbD (bfLo c + j)) := by
    intro j
    rw [Nat.testBit_mod_two_pow, Nat.testBit_div_two_pow, Nat.add_comm]
    rfl
  rw [bfxVal, flag_eq_testBit, show c.toNat.testBit 13 = c.getLsbD 13 from rfl]
  cases hs : (c.getLsbD 13 && decide (1 ≤ bfLen c)) with
  | false =>
    rw [if_neg Bool.false_ne_true, BitVec.getLsbD_ofNat, bit, decide_eq_true hi, Bool.true_and]
    by_cases inside : i < bfLen c <;> simp [inside]
  | true =>
    have one : 1 ≤ bfLen c := of_decide_eq_true (Bool.and_eq_true_iff.1 hs).2
    have signed : ∀ x : Nat, BitVec.ofInt 64 (sextNat (bfLen c) x) = (BitVec.ofNat (bfLen c) x).signExtend 64 :=
      fun x => congrArg _ (sextNat_eq_toInt _ x)
    rw [if_pos rfl, signed, BitVec.getLsbD_signExtend, BitVec.msb_eq_getLsbD_last, BitVec.getLsbD_ofNat, BitVec.getLsbD_ofNat, bit, bit,
      show bfLo c + (bfLen c - 1) = bfLo c + bfLen c - 1 by omega]
    by_cases inside : i < bfLen c
    · simp [hi, inside]
    · simp [hi, inside, Nat.sub_lt one Nat.one_pos]

/-- Bit i of a number whose l bits from lo on are replaced. -/
theorem testBit_replaced (x y lo l i : Nat) : (x - x / 2 ^ lo % 2 ^ l * 2 ^ lo + y % 2 ^ l * 2 ^ lo).testBit i =
    if lo ≤ i ∧ i < lo + l then y.testBit (i - lo) else x.testBit i := by
  have low : x % 2 ^ lo < 2 ^ lo := Nat.mod_lt _ (Nat.two_pow_pos lo)
  have mid : y % 2 ^ l < 2 ^ l := Nat.mod_lt _ (Nat.two_pow_pos l)
  have parts : x - x / 2 ^ lo % 2 ^ l * 2 ^ lo + y % 2 ^ l * 2 ^ lo = 2 ^ lo * (2 ^ l * (x / 2 ^ lo / 2 ^ l) + y % 2 ^ l) + x % 2 ^ lo := by
    have h1 : x = 2 ^ lo * (2 ^ l * (x / 2 ^ lo / 2 ^ l) + x / 2 ^ lo % 2 ^ l) + x % 2 ^ lo := by
      rw [Nat.div_add_mod, Nat.div_add_mod]
    rw [Nat.mul_add] at h1 ⊢
    rw [Nat.mul_comm (y % 2 ^ l), Nat.mul_comm (x / 2 ^ lo % 2 ^ l)]
    omega
  rw [parts, Nat.testBit_two_pow_mul_add _ low, Nat.testBit_two_pow_mul_add _ mid, Nat.testBit_mod_two_pow, Nat.testBit_mod_two_pow,
    Nat.testBit_div_two_pow, Nat.testBit_div_two_pow]
  by_cases below : i < lo
  · simp [below, show ¬ lo ≤ i by omega]
  · by_cases inside : i < lo + l
    · simp [below, show i - lo < l by omega, inside, not_lt.1 below]
    · simp [below, show ¬ i - lo < l by omega, inside, show i - lo - l + l + lo = i by omega]

/-- Bit i of a word with a field inserted. -/
theorem bfiVal_getLsbD (i : Nat) (hi : i < 64) : (bfiVal a b c).getLsbD i =
    if bfLo c ≤ i ∧ i < bfLo c + bfLen c then a.getLsbD (i - bfLo c) else b.getLsbD i := by
  rw [bfiVal, BitVec.getLsbD_ofNat, testBit_replaced, decide_eq_true hi, Bool.true_and]
  rfl

end

/-! ### Comparisons (R211) -/

theorem scondHolds_eq (c : SCond) (a b : Word) : scondHolds c a b = condOf c a b := by
  cases c with
  | eq | ne | tst | ntst => simp [scondHolds, condOf, bne, beq_eq_decide]
  | ltI => exact BitVec.slt_eq_decide
  | geI => simp only [scondHolds, condOf, BitVec.slt_eq_decide, ← not_lt, decide_not]
  | ltN => exact BitVec.ult_eq_decide
  | geN => simp only [scondHolds, condOf, BitVec.ult_eq_decide, ← not_lt, decide_not]

/-- A predicate result of port S. -/
theorem resultP_resP (s : State) (p : Fin 8) (b nw : Bool) : ResultP s (s.resP p b nw) p b nw := by
  rw [State.resP_eq]
  refine ⟨onlyMe_modMe s _, ?_, fun q => ?_⟩
  · cases nw <;> simp [← Regs.wrP_eq]
  · cases nw <;> simp [Regs.rdP_wrP]

/-! ### Instructions that write one S register (R192, R194) -/

section

variable {s : State} {o : SrOp} {a b : Word} (ha : s.srcS o.a = .ok a) (hb : s.srcS o.b = .ok b) (hg : s.guardOn o.g = true)
include ha hb hg

theorem resolve_sr2 (f : Word → Word → Word) : resolve s (sr2 o f s) = .next (s.resS o.d (f a b) o.nw) := by
  rw [sr2_ok o f s a b ha hb, hg]
  rfl

/-- The result of a two-source form, its value said in another way. -/
theorem result_sr2 {i : Instr} {f : Word → Word → Word} (run : exec i s = resolve s (sr2 o f s)) {v : Word} (value : f a b = v) :
    ∃ t, exec i s = .next t ∧ ResultS s t o.d v o.nw :=
  ⟨_, run.trans (resolve_sr2 ha hb hg f), value ▸ resultS_resS s o.d _ o.nw⟩

theorem exec_twoSource : ∀ x ∈ twoSource o, ∃ t, exec x.1 s = .next t ∧ ResultS s t o.d (x.2 a b) o.nw := by
  have two {i f} := @result_sr2 s o a b ha hb hg i f
  simp only [twoSource, List.forall_mem_cons]
  exact ⟨two rfl (BitVec.add_def a b), two rfl (sub_eq_ofInt a b), two rfl BitVec.mul_def, two rfl rfl, two rfl rfl, two rfl rfl, two rfl rfl,
    two rfl rfl, two rfl rfl, two rfl (shiftLeft_eq_ofNat a _), two rfl (shiftRight_eq_ofNat a _), two rfl (sshiftRight_eq_ofInt a _),
    two rfl (min_signed a b), two rfl (max_signed a b), two rfl (min_unsigned a b), two rfl (max_unsigned a b), List.forall_mem_nil _⟩

theorem exec_bfi (e : SSrc) {c : Word} (hc : s.srcS e = .ok c) : exec (.bfi o e) s = .next (s.resS o.d (bfiVal a b c) o.nw) := by
  change resolve s (s.srcS e >>= fun c => sr2 o (fun a b => bfiVal a b c) s) = _
  rw [hc]
  exact resolve_sr2 ha hb hg _

end

theorem resolve_sr1 {s : State} {o : SrOne} {a : Word} (ha : s.srcS o.a = .ok a) (hg : s.guardOn o.g = true) (f : Word → Word) :
    resolve s (sr1 o f s) = .next (s.resS o.d (f a) o.nw) := by
  rw [sr1_ok o f s a ha, hg]
  rfl

/-- The result of a form that reads one source first and then has no guard, its value said in another way. -/
theorem result_ofSource {s : State} {i : Instr} {a : SSrc} {x : Word} (ha : s.srcS a = .ok x) {d : Fin 32} {f : Word → Word}
    (run : exec i s = resolve s (s.srcS a >>= fun y => .ok (s.resS d (f y)))) {v : Word} (value : f x = v) :
    ∃ t, exec i s = .next t ∧ ResultS s t d v false := by
  rw [ha] at run
  exact ⟨_, run, value ▸ resultS_resS s d _ false⟩

theorem exec_immediate {s : State} {o : SiOp} {x : Word} (ha : s.srcS o.a = .ok x) :
    ∀ i ∈ immediate o, ∃ t, exec i.1 s = .next t ∧ ResultS s t o.d (i.2 x) false := by
  have one {i f} := @result_ofSource s i o.a x ha o.d f
  simp only [immediate, List.forall_mem_cons]
  exact ⟨one rfl rfl, one rfl rfl, one rfl rfl, one rfl rfl, one rfl (movhi_eq_ofNat x o.imm), List.forall_mem_nil _⟩

theorem exec_immediate6 {s : State} (d : Fin 32) {a : SSrc} (n : Fin 64) {y : Word} (ha : s.srcS a = .ok y) :
    ∀ i ∈ immediate6 d a n, ∃ t, exec i.1 s = .next t ∧ ResultS s t d (i.2 y) false := by
  have one {i f} := @result_ofSource s i a y ha d f
  simp only [immediate6, List.forall_mem_cons]
  exact ⟨one rfl (shiftLeft_eq_ofNat y _), one rfl (shiftRight_eq_ofNat y _), one rfl (sshiftRight_eq_ofInt y _), one rfl rfl,
    List.forall_mem_nil _⟩

/-! ### The statements -/

theorem twoSourceResults : TwoSourceResults := fun _ _ _ _ ha hb hg => exec_twoSource ha hb hg

theorem oneSourceResults : OneSourceResults := by
  intro s o a ha hg
  have one := resolve_sr1 ha hg
  have result : ∀ v, ResultS s (s.resS o.d v o.nw) o.d v o.nw := fun v => resultS_resS s o.d v o.nw
  refine ⟨⟨_, one _, result a⟩, ⟨_, clz64 a, one _, result _, ?_, clz64_above a, clz64_bit a⟩,
    ⟨_, ctz64 a, one _, result _, ctz64_spec a⟩, ⟨_, popc64 a, one _, result _, popc64_toNat a⟩⟩
  rw [clz64_toNat]
  exact Nat.sub_le _ _

theorem bitfieldResults : BitfieldResults := by
  intro s o e a b c ha hb he hg
  refine ⟨⟨_, bfxVal a b, resolve_sr2 ha hb hg _, resultS_resS s o.d _ o.nw, fun i hi => ?_⟩,
    ⟨_, bfiVal a b c, exec_bfi ha hb hg e he, resultS_resS s o.d _ o.nw, fun i hi => ?_⟩⟩
  · simp only [← bfLo_eq, ← bfLen_eq]
    exact bfxVal_getLsbD a b i hi
  · simp only [← bfLo_eq, ← bfLen_eq]
    exact bfiVal_getLsbD a b c i hi

/-- Settles O11: each value by its lemma, and the frame by that of a result of port S. -/
theorem scalarArithmetic : Obligations.ScalarArithmetic := ⟨twoSourceResults, oneSourceResults, bitfieldResults⟩

theorem compareResults : CompareResults := by
  intro s c p a b x y nw g k ha hb
  refine ⟨fun hg => ⟨s.resP p (condOf c x y) nw, ?_, resultP_resP s p _ nw⟩,
    ⟨s.resP p (condOf c x (k.signExtend 64)) false, ?_, resultP_resP s p _ false⟩⟩
  · change resolve s (actCmp c p a b nw g s) = _
    simp [actCmp, ha, hb, hg, scondHolds_eq]
  · change resolve s (actCmpi c p a k s) = _
    simp [actCmpi, ha, scondHolds_eq]

theorem immediateResults : ImmediateResults := by
  intro s o d a n x y k hx hy
  exact ⟨exec_immediate hx, exec_immediate6 d n hy, _, rfl, resultS_resS s d _ false⟩

/-- Settles O12: comparisons by the outcome of their condition, and each immediate form by its value. -/
theorem compareAndImmediate : Obligations.CompareAndImmediate := ⟨compareResults, immediateResults⟩

end Sys2Proof.Machine
end

section
/-! SUPPORT. Quotients and remainders of words, and the divider of a core (R214). -/

set_option Elab.async false

namespace Sys2Proof.Machine

open Sys2Proof Sys2Proof.Stated

/-! ### Quotients and remainders (R214) -/

theorem divide_eq_quotRem (signed : Bool) (a b : Word) : divide 64 signed a.toNat b.toNat = quotRem signed a b := by
  cases signed <;> simp [divide, quotRem, sextNat_toNat]

/-- 4 clocks and half the significant bits of the quotient, rounded up; none of them by zero. -/
theorem divClocks_eq (signed : Bool) (a b : Word) :
    divClocks signed a b = 4 + ((if b = 0 then 0 else quotBits (quotRem signed a b).1) + 1) / 2 := by
  unfold divClocks quotBits bitLength
  by_cases hb : b = 0
  · simp only [hb, true_or, if_true]
  · by_cases hq : (quotRem signed a b).1.natAbs = 0
    · simp only [hq, or_true, if_true, ite_self]
    · simp only [hb, hq, or_self, if_false]

/-! ### The divider of a core (R214) -/

/-- The state whose issuing task has taken the divider of its core for a division. -/
def State.scalarDividing (s : State) (signed : Bool) (a b : Word) : State :=
  s.modMyCore fun y => { y with divider := { task := some s.iss.task, doneAt := s.clock + divClocks signed a b } }

section

variable {s : State} {o : SrOp} {a b : Word} (ha : s.srcS o.a = .ok a) (hb : s.srcS o.b = .ok b) (hg : s.guardOn o.g = true)
include ha hb hg

theorem divOp_free (signed rem : Bool) (free : s.myCore.divider.task = none) : divOp o signed rem s =
    .ok ((s.scalarDividing signed a b).resS o.d
      (BitVec.ofInt 64 (if rem then (quotRem signed a b).2 else (quotRem signed a b).1)) o.nw) := by
  simp only [divOp, ha, hb, hg, free, except_ok_bind, require_true, divide_eq_quotRem, State.scalarDividing, divClocks_eq, decide_true, Bool.not_true,
    Bool.false_eq_true, if_false, Nat.add_assoc]

theorem divOp_busy (signed rem : Bool) (busy : s.myCore.divider.task ≠ none) : divOp o signed rem s = waits .divider := by
  simp only [divOp, ha, hb, hg, busy, except_ok_bind, decide_false, Bool.not_true, Bool.false_eq_true, if_false]
  rfl

/-- What a divide does, its divider free or busy. -/
theorem exec_divide {i : Instr} {signed rem : Bool} (run : exec i s = resolve s (divOp o signed rem s)) :
    (s.myCore.divider.task = none → ∃ t, exec i s = .next t ∧ ResultS (s.scalarDividing signed a b) t o.d
        (BitVec.ofInt 64 (if rem then (quotRem signed a b).2 else (quotRem signed a b).1)) o.nw)
      ∧ (s.myCore.divider.task ≠ none → exec i s = .next (s.stall (.stall .divider))) := by
  refine ⟨fun free => ⟨_, ?_, resultS_resS _ o.d _ o.nw⟩, fun busy => ?_⟩
  · rw [run, divOp_free ha hb hg signed rem free, resolve_ok]
  · rw [run, divOp_busy ha hb hg signed rem busy]
    rfl

end

/-- Settles O2: one divide, of either signedness, for its quotient or its remainder. -/
theorem divideResults : Obligations.DivideResults := by
  intro s o a b ha hb hg
  have div {i signed rem} := @exec_divide s o a b ha hb hg i signed rem
  simp only [divides, List.forall_mem_cons]
  exact ⟨div (signed := true) (rem := false) rfl, div (signed := false) (rem := false) rfl, div (signed := true) (rem := true) rfl,
    div (signed := false) (rem := true) rfl, List.forall_mem_nil _⟩

end Sys2Proof.Machine
end

section
/-! SUPPORT. sel: its result, and the lend that holds its predicate (R212). -/

set_option Elab.async false

namespace Sys2Proof.Laws

open Sys2Proof

/-- The word of `sel`, whatever its predicate, with a lend that is not the number of a predicate. -/
theorem decodeWord_sel_badLend (o : SrOp) (e : Nat) (he : 8 ≤ e) : decodeWord (encode (.sel o 0)).1 e = .error .badLend := by
  have := o.a.code_lt
  have := o.b.code_lt
  have := o.d.isLt
  have := o.g.isLt
  have := ofFlag_lt o.nw
  have cls : field (encode (.sel o 0)).1 31 28 = 0 := sr_class _ _ _ _ _ _ (by omega) (by omega) (by omega) (by omega) (by omega) (by omega)
  have minor : field (encode (.sel o 0)).1 27 22 = 17 := sr_minor _ _ _ _ _ _ (by omega) (by omega) (by omega) (by omega) (by omega)
  have nonzero : (encode (.sel o 0)).1 ≠ 0 := fun h => by simp [h, field] at minor
  rw [decodeWord_class0 _ _ nonzero cls, decScalar, minor]
  simp only [getFin, dif_neg (Nat.not_lt.2 he)]
  rfl

end Sys2Proof.Laws

namespace Sys2Proof.Machine

open Sys2Proof Sys2Proof.Stated

/-- A slot that holds no instruction is refused with ILLEGAL_INSTRUCTION (R198). -/
theorem checkIllegal_expandSlot_error (rows : Bool) (cwt : SMap Nat) {sl : Slot} {r : Reject} (h : sl.instr = .error r) :
    checkIllegal rows (expandSlot cwt sl) = some (badAt sl.num 0 sl.word .illegalInstruction) := by
  rw [expandSlot, h]
  rfl

/-- Settles O1: the run with readable operands, the round trip of sel, and the lends beyond the predicates. -/
theorem selectResult : Obligations.SelectResult := by
  refine ⟨fun s o k a b ha hb hg => result_sr2 ha hb hg rfl rfl, fun s => rfl, fun o k => Laws.roundTrip (.sel o k) rfl,
    fun o e he _ => ⟨_, Laws.decodeWord_sel_badLend o e he⟩, fun rows cwt sl r h => ⟨_, checkIllegal_expandSlot_error rows cwt h, rfl⟩⟩

end Sys2Proof.Machine
end

section
/-! SUPPORT. Fetch that goes on elsewhere than after its bundle, and branches, calls, returns and jumps (R218, R219, R224). -/

set_option Elab.async false

namespace Sys2Proof.Machine

open Sys2Proof Sys2Proof.Stated

/-! ### Fetch that goes on elsewhere (R218, R222) -/

/-- The state whose issuing task is changed and whose bundle has said where fetch goes on. -/
def State.redirect (s : State) (f : Task → Task) : State := { s.modMe f with iss := { s.iss with taken := true } }

section

variable (s : State) (f : Task → Task)

@[simp] theorem State.redirect_iss : (s.redirect f).iss = { s.iss with taken := true } := rfl

@[simp] theorem State.me_redirect : (s.redirect f).me = f s.me := State.me_modMe s f

theorem onlyMeIss_redirect : OnlyMeIss s (s.redirect f) := by
  refine ⟨?_, rfl⟩
  rw [State.me_redirect]
  rfl

theorem State.redirect_modMe (g : Task → Task) : (s.modMe f).redirect g = s.redirect fun t => g (f t) :=
  congrArg (fun u : State => { u with iss := { s.iss with taken := true } }) (State.modMe_modMe s f g)

/-- Fetch that goes on at a target with the levels and latches of the changed task, and its S registers. -/
theorem jumps_redirect {target : Nat} {levels : List LoopRec} {l : Latches}
    (h : f s.me = { s.me with live := { s.me.live with pc := target, loops := levels, s := (f s.me).live.s }, latches := l }) :
    Jumps s (s.redirect f) target levels l := by
  refine ⟨onlyMeIss_redirect s f, rfl, ?_⟩
  rw [State.me_redirect]
  exact h

end

/-! ### Targets (R218) -/

theorem add_displacement_toNat (x : Word) (d : BitVec 24) :
    (x + 16 * d.signExtend 64).toNat = (((x.toNat : Int) + 16 * d.toInt) % 2 ^ 64).toNat := by
  have sum : x + 16 * d.signExtend 64 = BitVec.ofInt 64 ((x.toNat : Int) + 16 * d.toInt) := by
    rw [BitVec.ofInt_add, BitVec.ofInt_mul, BitVec.ofInt_natCast, BitVec.ofNat_toNat, BitVec.setWidth_eq]
    rfl
  rw [sum, BitVec.toNat_ofInt]
  rfl

theorem target_eq_displaced (s : State) (d : BitVec 24) : s.target d = displaced s d := by
  rw [State.target, add_displacement_toNat, displaced, BitVec.toNat_ofNat, Int.natCast_emod]
  exact congrArg Int.toNat (Int.emod_add_emod _ _ _)

/-! ### Levels that a transfer keeps (R224) -/

theorem holds_iff (l : LoopRec) (pc : Nat) : l.holds pc = true ↔ l.body ≤ pc ∧ pc ≤ l.last := by
  simp [LoopRec.holds]

theorem keptLevels_keepLevels (target : Nat) (levels : List LoopRec) : KeptLevels target levels (keepLevels target levels) := by
  induction levels with
  | nil => exact ⟨0, rfl, by simp [keepLevels], by simp⟩
  | cons l ls ih =>
    rw [keepLevels]
    split
    next hold =>
      rw [Bool.and_eq_true, List.all_eq_true] at hold
      refine ⟨0, rfl, fun e he => (holds_iff e target).1 ?_, by simp⟩
      rcases List.mem_cons.1 he with rfl | he
      · exact hold.2
      · exact hold.1 e he
    next out =>
      obtain ⟨k, kept, inside, rest⟩ := ih
      have outside : ∃ e ∈ l :: ls, ¬ (e.body ≤ target ∧ target ≤ e.last) := by
        by_contra all
        refine out ?_
        rw [Bool.and_eq_true, List.all_eq_true]
        have hold : ∀ e ∈ l :: ls, e.holds target = true := fun e he =>
          (holds_iff e target).2 (not_not.1 fun h => all ⟨e, he, h⟩)
        exact ⟨fun e he => hold e (List.mem_cons_of_mem l he), hold l List.mem_cons_self⟩
      refine ⟨k + 1, kept, inside, fun j hj => ?_⟩
      cases j with
      | zero => exact outside
      | succ j => exact rest j (Nat.lt_of_succ_lt_succ hj)

/-! ### Transfers (R218, R219, R224) -/

section

variable {s : State} {target : Nat} (isCall : Bool)

theorem transfer_taken (aligned : target % 16 = 0) (inside : target < s.myLaunch.codeLen) : s.transfer target isCall =
    .ok (s.redirect fun t => { t with live :=
      { t.live with pc := target, loops := if isCall then t.live.loops else keepLevels target t.live.loops } }) := by
  simp only [State.transfer, aligned, inside, decide_true, require_true, except_ok_bind]
  rfl

theorem transfer_misaligned (unaligned : target % 16 ≠ 0) : s.transfer target isCall = .error (.trap { code := 0x08, addr := target }) := by
  simp only [State.transfer, unaligned, decide_false, require_false]
  rfl

theorem transfer_outside (aligned : target % 16 = 0) (outside : s.myLaunch.codeLen ≤ target) :
    s.transfer target isCall = .error (.trap { code := 0x07, addr := target }) := by
  simp only [State.transfer, aligned, Nat.not_lt.2 outside, decide_true, decide_false, require_true, require_false, except_ok_bind]
  rfl

end

/-- Every transfer but call: a transfer to its target where its condition holds, and nothing elsewhere. -/
theorem exec_transfers {s : State} {a : SSrc} (p : Fin 8) (n : Bool) (d : BitVec 24) {x : Word} (hx : s.srcS a = .ok x) :
    ∀ i ∈ transfers s a p n d x, exec i.1 s = resolve s (if i.2.1 then s.transfer i.2.2 false else .ok s) := by
  simp only [transfers, List.forall_mem_cons, ← target_eq_displaced, ← add_displacement_toNat]
  refine ⟨rfl, ?_, ?_, ?_, ?_, ?_, List.forall_mem_nil _⟩
  · change resolve s (actBrc p n d s) = _
    cases hp : s.regP p <;> cases n <;> simp [actBrc, State.branchIf, hp]
  · change resolve s (actBrz a d s) = _
    simp only [actBrz, hx, except_ok_bind, State.branchIf, beq_eq_decide]
  · change resolve s (actBrnz a d s) = _
    simp only [actBrnz, hx, except_ok_bind, State.branchIf, bne, beq_eq_decide, decide_not]
  · change resolve s (actRet a s) = _
    rw [actRet, hx]
    rfl
  · change resolve s (actJmpr a d s) = _
    rw [actJmpr, hx]
    rfl

/-- A call: its link written, and a transfer that keeps every level. -/
theorem exec_call (s : State) (l : Fin 32) (d : BitVec 24) : exec (.call l d) s
    = resolve s ((s.resS l (BitVec.ofNat 64 (s.iss.pc + 16))).transfer (displaced s d) true) := by
  rw [← target_eq_displaced]
  rfl

theorem myLaunch_resS (s : State) (d : Fin 32) (v : Word) (nw : Bool) : (s.resS d v nw).myLaunch = s.myLaunch := by
  rw [State.resS_eq]
  simp only [State.myLaunch, State.me_modMe]
  rfl

/-! ### The statements -/

theorem transfersTaken : TransfersTaken := by
  intro s a p n d x hx i hi taken aligned inside
  have run : exec i.1 s = .next (s.redirect fun t =>
      { t with live := { t.live with pc := i.2.2, loops := keepLevels i.2.2 t.live.loops } }) := by
    rw [exec_transfers p n d hx i hi, taken, if_pos rfl, transfer_taken false aligned inside]
    rfl
  refine ⟨_, _, run, keptLevels_keepLevels i.2.2 s.me.live.loops, jumps_redirect s _ rfl, ?_⟩
  rw [State.me_redirect]

theorem transfersNotTaken : TransfersNotTaken := by
  intro s a p n d x hx
  refine ⟨fun i hi stays => ?_, rfl⟩
  rw [exec_transfers p n d hx i hi, stays]
  rfl

/-- The two traps of an instruction that transfers in a state with the code image of the state that it issues in. -/
theorem transfer_traps {s u : State} {i : Instr} {target : Nat} {isCall : Bool} (run : exec i s = resolve s (u.transfer target isCall))
    (image : u.myLaunch = s.myLaunch) : (target % 16 ≠ 0 → Traps i s { code := 0x08, addr := target })
      ∧ (target % 16 = 0 → s.myLaunch.codeLen ≤ target → Traps i s { code := 0x07, addr := target }) := by
  refine ⟨fun unaligned => ?_, fun aligned outside => ?_⟩
  · rw [Traps, run, transfer_misaligned isCall unaligned, resolve_trap]
  · rw [Traps, run, transfer_outside isCall aligned (image ▸ outside), resolve_trap]

theorem transfersTrap : TransfersTrap := by
  intro s a p n d x l hx i hi taken
  rcases List.mem_append.1 hi with hi | hi
  · have run : exec i.1 s = resolve s (s.transfer i.2.2 false) := by rw [exec_transfers p n d hx i hi, taken, if_pos rfl]
    exact transfer_traps run rfl
  · rw [List.mem_singleton.1 hi]
    exact transfer_traps (exec_call s l d) (myLaunch_resS s l _ false)

theorem callLinks : CallLinks := by
  intro s l d aligned inside
  have run : exec (.call l d) s = .next (s.redirect fun t =>
      { t with latches := { t.latches with ls := some (BitVec.ofNat 64 (s.iss.pc + 16)) }
               live := { t.live.wrS l (BitVec.ofNat 64 (s.iss.pc + 16)) with
                 pc := displaced s d, loops := (t.live.wrS l (BitVec.ofNat 64 (s.iss.pc + 16))).loops } }) := by
    rw [exec_call, transfer_taken true aligned (by rwa [myLaunch_resS]), State.resS_eq, State.redirect_modMe]
    rfl
  refine ⟨_, run, jumps_redirect s _ ?_, fun r => ?_⟩
  · rw [Regs.wrS_eq]
  · rw [State.me_redirect]
    exact Regs.rdS_wrS _ _ _ _

/-- Settles O14: each transfer as one to its target under its condition, and the levels that the target keeps by induction on them. -/
theorem transfers : Obligations.Transfers := ⟨transfersTaken, transfersNotTaken, transfersTrap, callLinks⟩

end Sys2Proof.Machine
end

section
/-! SUPPORT. The loop engine: stage predicates, the way past a body, `loop`, `lbreak` and iteration boundaries (R221 to R225). -/

set_option Elab.async false

namespace Sys2Proof.Machine

open Sys2Proof Sys2Proof.Stated

/-! ### Stage predicates (R222) -/

/-- The write of one stage predicate of a level. -/
def writeStage (lv : LoopRec) (r : Regs) (k : Fin 4) : Regs :=
  if k.val < lv.stages then r.wrP (Fin.ofNat 8 (4 + k.val)) (decide (k.val ≤ lv.j) && decide (lv.j < lv.n + k.val)) else r

theorem setStages_eq_foldl (lv : LoopRec) (r : Regs) :
    setStages lv r = if lv.stages < 2 then r else (List.finRange 4).foldl (writeStage lv) r := rfl

theorem foldl_writeStage_frame (lv : LoopRec) (l : List (Fin 4)) (r : Regs) : ∃ p, l.foldl (writeStage lv) r = { r with p := p } := by
  induction l generalizing r with
  | nil => exact ⟨r.p, rfl⟩
  | cons k l ih =>
    obtain ⟨p, hp⟩ : ∃ p, writeStage lv r k = { r with p := p } := by
      rw [writeStage]
      split
      · exact ⟨_, Regs.wrP_eq r _ _⟩
      · exact ⟨r.p, rfl⟩
    obtain ⟨q, hq⟩ := ih { r with p := p }
    exact ⟨q, by rw [List.foldl_cons, hp, hq]⟩

/-- SetStages touches the predicates only. -/
theorem setStages_eq (lv : LoopRec) (r : Regs) : setStages lv r = { r with p := (setStages lv r).p } := by
  rw [setStages_eq_foldl]
  split
  · rfl
  · obtain ⟨p, hp⟩ := foldl_writeStage_frame lv (List.finRange 4) r
    rw [hp]

/-- Predicate q where level lv owns it as a stage predicate (R222). -/
def stageValue (lv : LoopRec) (q : Fin 8) : Bool := decide (q.val - 4 ≤ lv.j ∧ lv.j < lv.n + (q.val - 4))

theorem rdP_writeStage (lv : LoopRec) (r : Regs) (k : Fin 4) (q : Fin 8) :
    (writeStage lv r k).rdP q = if k.val < lv.stages ∧ q.val = 4 + k.val then stageValue lv q else r.rdP q := by
  have number : (Fin.ofNat 8 (4 + k.val)).val = 4 + k.val := Nat.mod_eq_of_lt (by omega)
  rw [writeStage]
  generalize Fin.ofNat 8 (4 + k.val) = m at number ⊢
  have nonzero : m ≠ 0 := Fin.ne_of_val_ne (by rw [number]; exact (Nat.add_pos_left (by decide) _).ne')
  have same : q = m ↔ q.val = 4 + k.val := by rw [Fin.ext_iff, number]
  by_cases owned : k.val < lv.stages
  · rw [if_pos owned, Regs.rdP_wrP]
    by_cases hq : q.val = 4 + k.val
    · simp [same, hq, nonzero, owned, stageValue]
    · simp [same, hq]
  · simp [owned]

theorem rdP_foldl_writeStage (lv : LoopRec) (l : List (Fin 4)) (r : Regs) (q : Fin 8) : (l.foldl (writeStage lv) r).rdP q =
    if ∃ k ∈ l, k.val < lv.stages ∧ q.val = 4 + k.val then stageValue lv q else r.rdP q := by
  induction l generalizing r with
  | nil => simp
  | cons k l ih =>
    rw [List.foldl_cons, ih, rdP_writeStage]
    by_cases later : ∃ k ∈ l, k.val < lv.stages ∧ q.val = 4 + k.val
    · simp [later]
    · simp [later]

theorem stagesSet_setStages (lv : LoopRec) (r : Regs) (h : lv.stages ≤ 4) : StagesSet lv r (setStages lv r) := by
  intro q
  rw [setStages_eq_foldl]
  by_cases staged : lv.stages < 2
  · simp [staged]
  · have owns : (∃ k ∈ List.finRange 4, k.val < lv.stages ∧ q.val = 4 + k.val) ↔ 2 ≤ lv.stages ∧ 4 ≤ q.val ∧ q.val < 4 + lv.stages := by
      constructor
      · rintro ⟨k, -, hk, hq⟩
        omega
      · rintro ⟨-, low, high⟩
        exact ⟨⟨q.val - 4, by omega⟩, List.mem_finRange _, by dsimp only; omega, by dsimp only; omega⟩
    rw [if_neg staged, rdP_foldl_writeStage, if_congr owns rfl rfl]
    rfl

/-! ### Past a body (R222, R225) -/

section

variable {s : State} {last : Nat}

theorem leaveBody_eq (s : State) (last : Nat) : s.leaveBody last =
    let t := s.redirect fun t => { t with live := { t.live with pc := last + 16 } }
    (t.boundaryAt last).getD t := rfl

theorem leaveBody_alone (h : ∀ e ∈ s.me.live.loops, e.last ≠ last) :
    s.leaveBody last = s.redirect fun t => { t with live := { t.live with pc := last + 16 } } := by
  have none : s.me.live.loops.findIdx? (fun e => decide (e.last = last)) = none := by
    rw [List.findIdx?_eq_none_iff]
    exact fun e he => decide_eq_false (h e he)
  simp only [leaveBody_eq, State.boundaryAt, State.me_redirect, none, Option.map_none, Option.getD_none]

theorem leaveBody_enclosed (h : ∃ e ∈ s.me.live.loops.head?, e.last = last) : s.leaveBody last =
    State.boundary (s.redirect fun t => { t with live := { t.live with pc := last + 16 } }) 4 := by
  obtain ⟨e, he, hl⟩ := h
  obtain ⟨es, loops⟩ : ∃ es, s.me.live.loops = e :: es := List.head?_eq_some_iff.1 he
  have first : s.me.live.loops.findIdx? (fun e => decide (e.last = last)) = some 0 := by
    rw [loops, List.findIdx?_cons, decide_eq_true hl]
    rfl
  simp only [leaveBody_eq, State.boundaryAt, State.me_redirect, first, Option.map_some, Option.getD_some]

end

/-! ### `loop` (R221 to R223) -/

section

variable {s : State} {a : SSrc} {pre : Bool} {stages : Fin 8} {len : Fin 4096} {x : Word}

/-- The record that `loop` pushes (R222). -/
def State.loopRec (s : State) (pre : Bool) (stages : Fin 8) (len : Fin 4096) (x : Word) : LoopRec :=
  { body := s.iss.pc + 16, last := s.iss.pc + 16 * len.val, t := x.toNat, n := x.toNat, j := 0
    stages := stages.val, sEff := max stages.val 1, pre := pre, left := 0 }

/-- The state in which the body of a new level is fetched, with its stage predicates (R222). -/
def State.enterLoop (s : State) (lv : LoopRec) : State :=
  s.redirect fun t => { t with live := setStages lv { t.live with loops := lv :: s.me.live.loops, pc := lv.body } }

/-- A `loop` with room for its level, inside the level that holds it, and no second staged level. -/
theorem exec_loop (hx : s.srcS a = .ok x) (room : s.me.live.loops.length < 4)
    (within : ∀ e ∈ s.me.live.loops.find? (fun e => decide (e.body ≤ s.iss.pc) && decide (s.iss.pc ≤ e.last)), s.iss.pc + 16 * len.val ≤ e.last)
    (single : ∀ e ∈ s.me.live.loops, e.stages < 2 ∨ stages.val < 2) : exec (.loop a pre stages len) s =
      .next (if x = 0 then s.leaveBody (s.iss.pc + 16 * len.val) else s.enterLoop (s.loopRec pre stages len x)) := by
  change resolve s (actLoop a pre stages len s) = _
  have unstaged : (!(decide (2 ≤ stages.val) && s.me.live.loops.any fun e => decide (2 ≤ e.stages))) = true := by
    rw [Bool.not_eq_true', Bool.and_eq_false_iff, List.any_eq_false, decide_eq_false_iff_not]
    by_cases staged : 2 ≤ stages.val
    · exact .inr fun e he => by have := single e he; simp; omega
    · exact .inl staged
  cases found : s.me.live.loops.find? fun e => e.holds s.iss.pc with
  | none =>
    simp only [actLoop, hx, room, found, unstaged, except_ok_bind, decide_true, require_true]
    split <;> rfl
  | some e =>
    have fits : s.iss.pc + 16 * len.val ≤ e.last := within e found
    simp only [actLoop, hx, room, found, fits, unstaged, except_ok_bind, decide_true, require_true]
    split <;> rfl

theorem exec_loop_full (hx : s.srcS a = .ok x) (full : 4 ≤ s.me.live.loops.length) :
    Traps (.loop a pre stages len) s { code := 0x01, info := s.iss.word } := by
  change resolve s (actLoop a pre stages len s) = _
  simp only [actLoop, hx, Nat.not_lt.2 full, except_ok_bind, decide_false, require_false]
  rfl

end

/-! ### `lbreak` (R225) -/

theorem exec_lbreak_none {s : State} (p : Fin 8) (none : s.me.live.loops = []) : Traps (.lbreak p) s { code := 0x01, info := s.iss.word } := by
  change resolve s (actLbreak p s) = _
  rw [actLbreak, none]
  rfl

theorem exec_lbreak {s : State} (p : Fin 8) {lv : LoopRec} {ls : List LoopRec} (loops : s.me.live.loops = lv :: ls) : exec (.lbreak p) s =
    .next (if s.regP p = true then
        if lv.sEff = 1 then (s.modLive fun r => { r with loops := ls }).leaveBody lv.last
        else s.modLive fun r => { r with loops := { lv with n := min lv.n (lv.j + 1), left := 0 } :: ls }
      else s) := by
  change resolve s (actLbreak p s) = _
  rw [actLbreak, loops]
  cases s.regP p with
  | false => rfl
  | true =>
    simp only [Bool.not_true, Bool.false_eq_true, if_false, if_true]
    split <;> rfl

/-! ### Iteration boundaries (R222) -/

section

variable {s : State} {lv : LoopRec} {ls : List LoopRec} (n : Nat) (loops : s.me.live.loops = lv :: ls) (plain : lv.pre = false)
include loops plain

theorem boundary_next (more : lv.j + 1 < lv.n + lv.sEff - 1) : s.boundary (n + 1) =
    s.modLive fun r => setStages { lv with j := lv.j + 1 } { r with loops := { lv with j := lv.j + 1 } :: ls, pc := lv.body } := by
  simp [State.boundary, loops, plain, more]

theorem boundary_ends (left : lv.left = 0) (done : ¬ lv.j + 1 < lv.n + lv.sEff - 1) (alone : ∀ e ∈ ls.head?, e.last ≠ lv.last) :
    s.boundary (n + 1) = s.modLive fun r => { r with loops := ls, pc := lv.last + 16 } := by
  cases ls with
  | nil => simp [State.boundary, loops, plain, left, done]
  | cons up rest =>
    have other : up.last ≠ lv.last := alone up rfl
    simp [State.boundary, loops, plain, left, done, other]

end

/-! ### The statements -/

theorem loopTraps : LoopTraps := fun _ _ _ _ _ _ p hx => ⟨exec_lbreak_none p, exec_loop_full hx⟩

theorem iterationBoundary : IterationBoundary := by
  intro s lv ls n loops plain left
  refine ⟨fun more stages => ?_, fun done alone => boundary_ends n loops plain left done alone⟩
  intro next
  rw [boundary_next n loops plain more, State.me_modLive]
  refine ⟨onlyMe_modMe s _, ?_, stagesSet_setStages next _ stages⟩
  rw [setStages_eq]

theorem loopEngine : LoopEngine := by
  intro s a pre stages len x p lv ls hx few room within single
  have loop := exec_loop (pre := pre) hx room within single
  refine ⟨fun nonzero => ?start, fun zero alone => ?skip, fun zero enclosed => ?skipEnclosed, fun loops => ?lbreak⟩
  case start =>
    intro new
    rw [if_neg nonzero] at loop
    refine ⟨s.enterLoop new, loop, onlyMeIss_redirect s _, rfl, ?_, ?_⟩
    · rw [State.enterLoop, State.me_redirect, setStages_eq]
    · rw [State.enterLoop, State.me_redirect]
      exact stagesSet_setStages new _ few
  case skip =>
    rw [if_pos zero, leaveBody_alone alone] at loop
    exact ⟨_, loop, jumps_redirect s _ rfl, by rw [State.me_redirect]⟩
  case skipEnclosed =>
    rw [if_pos zero, leaveBody_enclosed enclosed] at loop
    exact loop
  case lbreak =>
    have lbreak := exec_lbreak p loops
    refine ⟨fun off => ?off, fun on plain alone => ?leave, fun on plain enclosed => ?leaveEnclosed, fun on staged => ?drain⟩
    case off => rwa [off, if_neg Bool.false_ne_true] at lbreak
    all_goals rw [if_pos on] at lbreak
    case leave =>
      rw [if_pos plain, leaveBody_alone (by rwa [State.me_modLive]), State.modLive_eq, State.redirect_modMe] at lbreak
      exact ⟨_, lbreak, jumps_redirect s _ rfl, by rw [State.me_redirect]⟩
    case leaveEnclosed =>
      rw [if_pos plain, leaveBody_enclosed (by rwa [State.me_modLive]), State.modLive_eq, State.redirect_modMe] at lbreak
      exact lbreak
    case drain => rwa [if_neg staged] at lbreak

/-- Settles O15: `loop` and `lbreak` by their effects, the stage predicates by the writes that make them, and the boundary by its two outcomes. -/
theorem loops : Obligations.Loops := ⟨loopEngine, loopTraps, iterationBoundary⟩

end Sys2Proof.Machine
end

section
/-! SUPPORT. The lane results of the floating, integer and bit instructions, of minima, maxima, selection and permutation, and of the
instructions with one source (R253, R254, R257, R258, R260, R261, R263, R264, R268). -/

set_option Elab.async false

namespace Sys2Proof.Machine

open Stated

/-! ### Forms of two sources and of one (R253) -/

/-- A lane result is read modulo the width of its lanes. -/
theorem laneResult_congr {s t : State} {ty : VTy} {d : Fin 32} {m : Fin 8} {nw : Bool} {f g : Nat → Nat}
    (same : ∀ i, f i % 2 ^ ty.width = g i % 2 ^ ty.width) (h : LaneResult s t ty d m nw f) : LaneResult s t ty d m nw g := by
  obtain ⟨v, result, lanes⟩ := h
  exact ⟨v, result, fun i hi => (lanes i hi).trans (by rw [same])⟩

section TwoSources

variable {s : State} {x y : Row}

/-- A lane-wise instruction with two sources, where its rows can be read. -/
theorem lane2_result (t : VTy) (d : Fin 32) {a b : VSrc} (m : Fin 8) (nw usesD : Bool) (f : State → Nat → Nat → Nat → Nat → Nat → Nat)
    (ha : s.srcV a = .ok x) (hb : s.srcV b = .ok y) (hd : RowUsable s d) :
    ∃ u, resolve s (lane2 t d a b m nw usesD f s) = .next u ∧ LaneResult s u t d m nw fun i =>
      f s (s.vrow d) i (lane t x i) (lane t y i) (lane t (s.rowBefore (s.vrow d)) i) := by
  obtain ⟨u, run, -, lanes⟩ := lane2_ok t d a b m nw usesD f s x y ha hb hd
  exact ⟨u, congrArg (resolve s) run, lanes⟩

theorem float2_result (o : VBinR) (usesD : Bool) (f : RMode → FVal → FVal → FVal → FVal) (ha : s.srcV o.a = .ok x) (hb : s.srcV o.b = .ok y)
    (hd : RowUsable s o.d) : ∃ t, resolve s (float2 o usesD f s) = .next t ∧ LaneResult s t o.t o.d o.m o.nw fun i =>
      roundF o.md (s.laneDraw o.md (s.vrow o.d) i) (vfmt o.t) (f o.md (flane o.t x i) (flane o.t y i) (flane o.t (s.rowBefore (s.vrow o.d)) i)) :=
  lane2_result o.t o.d o.m o.nw usesD (fun s q i x y z =>
    roundF o.md (s.laneDraw o.md q i) (vfmt o.t) (f o.md (decodeF (vfmt o.t) x) (decodeF (vfmt o.t) y) (decodeF (vfmt o.t) z))) ha hb hd

/-- `vscale`: the lanes of A times the power of two that the signed lanes of B give (R258). -/
theorem vscale_result (o : VBinR) (ha : s.srcV o.a = .ok x) (hb : s.srcV o.b = .ok y) (hd : RowUsable s o.d) :
    ∃ t, exec (.vscale o) s = .next t ∧ LaneResult s t o.t o.d o.m o.nw fun i =>
      roundF o.md (s.laneDraw o.md (s.vrow o.d) i) (vfmt o.t) (scaleF (flane o.t x i) (sextNat o.t.width (lane o.t y i))) :=
  lane2_result o.t o.d o.m o.nw false (fun s q i x y _ =>
    roundF o.md (s.laneDraw o.md q i) (vfmt o.t) (scaleF (decodeF (vfmt o.t) x) (sextNat o.t.width y))) ha hb hd

theorem bits2_result (o : VBin) (f : Nat → Nat → Nat) (ha : s.srcV o.a = .ok x) (hb : s.srcV o.b = .ok y) (hd : RowUsable s o.d) :
    ∃ t, resolve s (bits2 o f s) = .next t ∧ LaneResult s t o.t o.d o.m o.nw fun i => f (lane o.t x i) (lane o.t y i) :=
  lane2_result o.t o.d o.m o.nw false (fun _ _ _ x y _ => f x y) ha hb hd

theorem int2_result (o : VBin) (f : Int → Int → Int) (ha : s.srcV o.a = .ok x) (hb : s.srcV o.b = .ok y) (hd : RowUsable s o.d) :
    ∃ t, resolve s (int2 o f s) = .next t ∧ LaneResult s t o.t o.d o.m o.nw fun i =>
      (f (ilane o.t x i) (ilane o.t y i) % 2 ^ o.t.width).toNat :=
  bits2_result o (fun x y => wrapInt o.t.width (f (vint o.t x) (vint o.t y))) ha hb hd

/-- `vmin` and `vmax` choose as the statements write it out (R258). -/
theorem fpick_eq_pickOf (g : Fmt) (largest : Bool) (x y : Nat) : fpick g largest x y = pickOf g largest x y := by
  simp only [fpick, pickOf, Bool.or_eq_true]

theorem fpick_result (o : VBin) (largest : Bool) (ha : s.srcV o.a = .ok x) (hb : s.srcV o.b = .ok y) (hd : RowUsable s o.d) :
    ∃ t, resolve s (bits2 o (fpick (vfmt o.t) largest) s) = .next t
      ∧ LaneResult s t o.t o.d o.m o.nw fun i => pickOf (vfmt o.t) largest (lane o.t x i) (lane o.t y i) := by
  simpa only [fpick_eq_pickOf] using bits2_result o (fpick (vfmt o.t) largest) ha hb hd

/-- A shift to the left is cut to the lane whether or not its instruction cuts it (R261). -/
theorem vshl_result (o : VBin) (ha : s.srcV o.a = .ok x) (hb : s.srcV o.b = .ok y) (hd : RowUsable s o.d) :
    ∃ t, exec (.vshl o) s = .next t ∧ LaneResult s t o.t o.d o.m o.nw fun i => lane o.t x i * 2 ^ (lane o.t y i % o.t.width) := by
  obtain ⟨t, run, lanes⟩ := bits2_result o (fun a b => a * 2 ^ (b % o.t.width) % 2 ^ o.t.width) ha hb hd
  exact ⟨t, run, laneResult_congr (fun i => Nat.mod_mod _ _) lanes⟩

/-- `vperm`: each lane of the result is the lane of A that the lane of B numbers (R264). -/
theorem vperm_result (o : VBin) (ha : s.srcV o.a = .ok x) (hb : s.srcV o.b = .ok y) (hd : RowUsable s o.d) :
    ∃ t, exec (.vperm o) s = .next t ∧ LaneResult s t o.t o.d o.m o.nw fun i => lane o.t x (lane o.t y i % o.t.lanes) := by
  show ∃ t, resolve s (actVperm o s) = _ ∧ _
  rw [actVperm, ha, except_ok_bind]
  exact lane2_result o.t o.d o.m o.nw false (fun _ _ _ _ y _ => lane o.t x (y % o.t.lanes)) ha hb hd

/-- The row that `vsel` writes: every lane from one of its sources (R257). -/
def selectedRow (t : VTy) (m : Mask) (x y : Row) : Row :=
  rowOfLanes t.width ((laneIdx t).map fun i => if active m i then lane t x i else lane t y i)

theorem lane_selectedRow (t : VTy) (m : Mask) (x y : Row) (i : Nat) (hi : i < t.lanes) :
    lane t (selectedRow t m x y) i = if m.getLsbD i then lane t x i else lane t y i := by
  rw [lane, selectedRow, laneOf_rowOfLanes _ _ _ (by simp [laneIdx, VTy.width_mul_lanes]) (by simpa [laneIdx] using hi)]
  simp only [laneIdx, List.getElem_map, List.getElem_range, active]
  split <;> exact laneOf_mod _ _ _

theorem vsel_result (o : VBin) (ha : s.srcV o.a = .ok x) (hb : s.srcV o.b = .ok y) (hd : RowFree s o.d) :
    exec (.vsel o) s = .next (s.resV o.d (selectedRow o.t (s.regM o.m) x y) o.nw) := by
  show resolve s (actVsel o s) = _
  simp only [actVsel, ha, hb, destV_ok s o.d hd, except_ok_bind, resolve_ok]
  rfl

/-- A lane of a sum or difference, saturated to the type or wrapped (R261). -/
def summedLane (o : VBinS) (f : Int → Int → Int) (x y : Nat) : Nat :=
  let z := f (vint o.t x) (vint o.t y)
  wrapInt o.t.width (if o.sat then clampInt o.t.width (vsigned o.t) z else z)

theorem viadd_result (o : VBinS) (ha : s.srcV o.a = .ok x) (hb : s.srcV o.b = .ok y) (hd : RowUsable s o.d) :
    ∃ t, exec (.viadd o) s = .next t ∧ LaneResult s t o.t o.d o.m o.nw fun i => summedLane o (· + ·) (lane o.t x i) (lane o.t y i) :=
  lane2_result o.t o.d o.m o.nw false (fun _ _ _ x y _ => summedLane o (· + ·) x y) ha hb hd

theorem visub_result (o : VBinS) (ha : s.srcV o.a = .ok x) (hb : s.srcV o.b = .ok y) (hd : RowUsable s o.d) :
    ∃ t, exec (.visub o) s = .next t ∧ LaneResult s t o.t o.d o.m o.nw fun i => summedLane o (· - ·) (lane o.t x i) (lane o.t y i) :=
  lane2_result o.t o.d o.m o.nw false (fun _ _ _ x y _ => summedLane o (· - ·) x y) ha hb hd

end TwoSources

/-- A lane-wise instruction with one source, where its row can be read (R253). -/
theorem lane1_result {s : State} {x : Row} (t : VTy) (d : Fin 32) {a : VSrc} (m : Fin 8) (nw : Bool) (f : State → Nat → Nat → Nat → Nat)
    (ha : s.srcV a = .ok x) (hd : RowUsable s d) :
    ∃ u, resolve s (lane1 t d a m nw f s) = .next u ∧ LaneResult s u t d m nw fun i => f s (s.vrow d) i (lane t x i) := by
  obtain ⟨u, run, -, lanes⟩ := lane1_ok t d a m nw f s x ha hd
  exact ⟨u, congrArg (resolve s) run, lanes⟩

/-! ### Conversions (R263) -/

/-- The lane of the source that lane j of a conversion takes, if it takes one. -/
def cvtSource (td ts : VTy) (p j : Nat) : Option Nat :=
  if ts.lanes < td.lanes then (if p * ts.lanes ≤ j ∧ j < (p + 1) * ts.lanes then some (j - p * ts.lanes) else none)
  else some (p * td.lanes + j)

/-- The row that `vcvt` writes over the old row of its destination. -/
def convertedRow (s : State) (o : VUnR) (ts : VTy) (p : Nat) (x old : Row) : Row :=
  lanesOf o.t (s.regM o.m) old fun j =>
    match cvtSource o.t ts p j with
    | some i => convertLane ts o.t o.md (s.laneDraw o.md (s.vrow o.d) j) (lane ts x i)
    | none => lane o.t old j

theorem lane_convertedRow (s : State) (o : VUnR) (ts : VTy) (p : Nat) (x old : Row) (j : Nat) (hj : j < o.t.lanes) :
    lane o.t (convertedRow s o ts p x old) j =
      if (s.regM o.m).getLsbD j ∧ (ts.lanes < o.t.lanes → p * ts.lanes ≤ j ∧ j < (p + 1) * ts.lanes) then
        convertLane ts o.t o.md (s.laneDraw o.md (s.vrow o.d) j)
          (lane ts x (if ts.lanes < o.t.lanes then j - p * ts.lanes else p * o.t.lanes + j)) % 2 ^ o.t.width
      else lane o.t old j := by
  refine (laneOf_lanesOf o.t (s.regM o.m) old _ j hj).trans ?_
  by_cases on : (s.regM o.m).getLsbD j = true
  · by_cases narrow : ts.lanes < o.t.lanes
    · by_cases inPart : p * ts.lanes ≤ j ∧ j < (p + 1) * ts.lanes
      · simp [on, cvtSource, narrow, inPart]
      · simp only [on, cvtSource, narrow, inPart, if_true, if_false, true_and, forall_const]
        exact laneOf_mod _ _ _
    · simp [on, cvtSource, narrow]
  · simp only [on, Bool.false_eq_true, if_false, false_and]
    rfl

theorem vcvt_result (s : State) (o : VUnR) (ts : VTy) (p : Fin 4) (x : Row) (ha : s.srcV o.a = .ok x) (hd : RowUsable s o.d) :
    exec (.vcvt o ts p) s = .next (s.resV o.d (convertedRow s o ts p.val x (s.rowBefore (s.vrow o.d))) o.nw) := by
  have source (j : Nat) : (if ts.lanes < o.t.lanes then
        (if p.val * min o.t.lanes ts.lanes ≤ j ∧ j < p.val * min o.t.lanes ts.lanes + min o.t.lanes ts.lanes then
          some (j - p.val * min o.t.lanes ts.lanes) else none)
      else some (p.val * min o.t.lanes ts.lanes + j)) = cvtSource o.t ts p.val j := by
    rw [cvtSource]
    split
    next narrow => rw [min_eq_right narrow.le, Nat.succ_mul]
    next wide => rw [min_eq_left (not_lt.1 wide)]
  show resolve s (actVcvt o ts p s) = _
  simp only [actVcvt, ha, source, dstRow_ok s o.d _ hd, except_ok_bind, resolve_ok]
  rfl

/-! ### The statements -/

/-- Settles O3: integers and bits by their forms of two sources, minima and maxima by the choice of R258, sums by one rule for both. -/
theorem vectorIntResults : Obligations.VectorIntResults := by
  intro s o q x y ha hb hd hqa hqb hqd
  refine ⟨fun p hp => ?ints, fun p hp => ?bits, fpick_result o false ha hb hd, fpick_result o true ha hb hd, vperm_result o ha hb hd,
    ⟨_, _, vsel_result o ha hb hd.1, resultV_resV s _ _ _, lane_selectedRow o.t _ x y⟩, fun p hp => ?sums⟩
  case ints =>
    simp only [intOps, List.mem_cons, List.not_mem_nil, or_false] at hp
    obtain rfl | rfl | rfl | rfl := hp
    all_goals exact int2_result o _ ha hb hd
  case bits =>
    simp only [bitOps, List.mem_cons, List.not_mem_nil, or_false] at hp
    obtain rfl | rfl | rfl | rfl | rfl | rfl := hp
    on_goal 4 => exact vshl_result o ha hb hd
    all_goals exact bits2_result o _ ha hb hd
  case sums =>
    simp only [List.mem_cons, List.not_mem_nil, or_false] at hp
    obtain rfl | rfl := hp
    · simp only [one_mul]
      exact viadd_result q hqa hqb hqd
    · simp only [neg_one_mul, ← sub_eq_add_neg]
      exact visub_result q hqa hqb hqd

theorem vectorFloatResults : Stated.VectorFloatResults := by
  intro s o x y ha hb hd
  refine ⟨fun p hp => ?_, vscale_result o ha hb hd⟩
  simp only [floatOps, List.mem_cons, List.not_mem_nil, or_false] at hp
  obtain rfl | rfl | rfl | rfl | rfl | rfl := hp
  all_goals exact float2_result o _ _ ha hb hd

theorem vectorOneSourceResults : Stated.VectorOneSourceResults := by
  intro s o r x ts p ha hd hra hrd
  refine ⟨lane1_result o.t o.d o.m o.nw (fun _ _ _ => fsign (vfmt o.t) false) ha hd, lane1_result o.t o.d o.m o.nw (fun _ _ _ => fsign (vfmt o.t) true) ha hd,
    lane1_result o.t o.d o.m o.nw (fun _ _ _ => fclass (vfmt o.t)) ha hd, lane1_result o.t o.d o.m o.nw (fun _ _ _ x => x) ha hd, ?round,
    fun f hf single => ?seeds, fun _ => ⟨_, _, vcvt_result s r ts p x hra hrd, resultV_resV s _ _ _, lane_convertedRow s r ts p.val x _⟩⟩
  case round =>
    exact lane1_result r.t r.d r.m r.nw (fun s q i x =>
      roundF .rne 0 (vfmt r.t) (roundInt r.md (s.laneDraw r.md q i) (decodeF (vfmt r.t) x))) hra hrd
  case seeds =>
    have seed (g : Nat → Nat) := lane1_result .f32 o.d o.m o.nw (fun _ _ _ => g) ha hd
    simp only [List.mem_cons, List.not_mem_nil, or_false] at hf
    obtain rfl | rfl | rfl | rfl := hf
    all_goals exact seed _

/-- Settles O23: the forms of two sources that round once, and each instruction of one source by its lane value. -/
theorem vectorFloat : Obligations.VectorFloat := ⟨vectorFloatResults, vectorOneSourceResults⟩

end Sys2Proof.Machine
end

section
/-! SUPPORT. `vpop` and `rqbind` (R110, R266, R298, R299). -/

set_option Elab.async false

namespace Sys2Proof.Machine

open Stated

/-! ### A queue of the issuing core (R110) -/

/-- Two changes of the issuing core are one. -/
theorem State.modMyCore_modMyCore (s : State) (f g : Core → Core) : (s.modMyCore f).modMyCore g = s.modMyCore fun c => g (f c) := by
  show (s.modMyCore f).setCore s.iss.die s.iss.core (g ((s.modCore s.iss.die s.iss.core f).core s.iss.die s.iss.core)) = _
  rw [State.core_modCore_same]
  exact State.setCore_setCore _ _ _ _ _

theorem Core.rq_put (c : Core) (q : Nat) (r : RQ) : ({ c with rqs := smPut c.rqs q r } : Core).rq q = r := smGet_smPut_same _ _ _ _

/-- A queue that a launch takes and then changes is written once. -/
theorem takeRq_change (s : State) (q : Nat) (f : RQ → RQ) :
    (s.takeRq q).modMyCore (fun x => { x with rqs := smPut x.rqs q (f (x.rq q)) })
      = s.modMyCore fun x => { x with rqs := smPut x.rqs q (f { x.rq q with owner := some s.me.launch }) } := by
  rw [State.takeRq, State.modMyCore_modMyCore]
  simp only [Core.rq_put, smPut_smPut]

theorem modMyCore_congr (s : State) (f g : Core → Core) (h : f s.myCore = g s.myCore) : s.modMyCore f = s.modMyCore g :=
  congrArg (s.setCore s.iss.die s.iss.core) h

theorem rqForeign_mine (s : State) (q : Nat) (mine : (s.myCore.rq q).owner = none ∨ (s.myCore.rq q).owner = some s.me.launch) :
    s.rqForeign q = false := by
  rw [← Bool.not_eq_true, rqForeign_iff, not_not]
  exact mine

/-! ### vpop (R266) -/

/-- The first row of a queue, where nobody has taken it, is marked. -/
theorem RQ.take_head (r : RQ) (i : Nat) (row : QRow) (rest : List QRow) (rows : r.rows = row :: rest) (untaken : row.takenBy = none) :
    r.take i = { r with rows := { row with takenBy := some i } :: rest } := by
  simp [RQ.take, rows, List.findIdx?_cons, untaken]

/-- `vpop` past its tests, by the first row that nobody has taken. -/
def State.popFirst (s : State) (d : Fin 32) (q : Fin 8) (nw : Bool) (first : Option QRow) : Act :=
  match first with
  | some row => do
    require (!row.poison) (raise .memPoison)
    .ok (((s.takeRq q.val).modMyCore fun x => { x with rqs := smPut x.rqs q.val ((x.rq q.val).take s.iss.task) }).resV d row.row nw)
  | none => if s.me.drainsTo q.val then waits (.queueRow q.val) else rqTrap q.val

section Pop

variable {s : State} {q : Fin 8} {d : Fin 32} (nw : Bool)

theorem actVpop_bound (free : RowFree s d) (bound : (s.myCore.rq q.val).bound ≠ none) : actVpop d q nw s = rqTrap q.val := by
  have some : (s.myCore.rq q.val).bound.isNone = false := Bool.eq_false_iff.2 (mt Option.isNone_iff_eq_none.1 bound)
  simp only [actVpop, destV_ok s d free, some, Bool.and_false, except_ok_bind, require_false, rqTrap, raiseInfo, except_error_bind]

variable (mine : (s.myCore.rq q.val).owner = none ∨ (s.myCore.rq q.val).owner = some s.me.launch) (free : RowFree s d)
  (unbound : (s.myCore.rq q.val).bound = none) (unreserved : s.reserved s.iss.die s.iss.core q.val = 0)
include mine free unbound unreserved

theorem actVpop_open : actVpop d q nw s = s.popFirst d q nw ((s.myCore.rq q.val).rows.find? fun x => x.takenBy.isNone) := by
  simp only [actVpop, destV_ok s d free, rqForeign_mine s q.val mine, unbound, unreserved, except_ok_bind, Bool.not_false, Option.isNone_none,
    Bool.and_self, decide_true, require_true]
  rfl

theorem actVpop_empty (rows : (s.myCore.rq q.val).rows = []) (dry : s.me.drainsTo q.val = false) : actVpop d q nw s = rqTrap q.val := by
  rw [actVpop_open nw mine free unbound unreserved, rows, List.find?_nil, State.popFirst, dry, if_neg Bool.false_ne_true]

theorem actVpop_head {row : QRow} {rest : List QRow} (rows : (s.myCore.rq q.val).rows = row :: rest) (untaken : row.takenBy = none)
    (clean : row.poison = false) : actVpop d q nw s = .ok ((s.modMyCore fun x => { x with rqs := smPut x.rqs q.val { x.rq q.val with
      owner := some s.me.launch, rows := { row with takenBy := some s.iss.task } :: rest } }).resV d row.row nw) := by
  have first : (s.myCore.rq q.val).rows.find? (fun x => x.takenBy.isNone) = some row := by simp [rows, untaken]
  have passes : require (!row.poison) (raise .memPoison) = .ok () := by rw [clean]; rfl
  have taken := RQ.take_head { s.myCore.rq q.val with owner := some s.me.launch } s.iss.task row rest rows untaken
  rw [actVpop_open nw mine free unbound unreserved, first, State.popFirst, passes, except_ok_bind, takeRq_change s q.val (·.take s.iss.task)]
  exact congrArg (fun u : State => Except.ok (u.resV d row.row nw)) (modMyCore_congr s _ _ (by rw [taken]))

end Pop

/-! ### rqbind (R299) -/

section Bind

variable {s : State} {q : Fin 8} {b : SSrc} {e : Word} (he : s.srcS b = .ok e)
  (mine : (s.myCore.rq q.val).owner = none ∨ (s.myCore.rq q.val).owner = some s.me.launch)
include he mine

theorem actRqbind_on (entry : e.toNat < 64) : actRqbind q b true s = .ok (State.relayTest
    (s.modMyCore fun x => { x with rqs := smPut x.rqs q.val { x.rq q.val with owner := some s.me.launch, bound := some e.toNat } })
    s.iss.die s.iss.core) := by
  simp only [actRqbind, he, rqForeign_mine s q.val mine, entry, except_ok_bind, Bool.not_false, require_true, decide_true, if_true,
    takeRq_change s q.val (fun r => { r with bound := some e.toNat })]
  rfl

theorem actRqbind_off (unbound : (s.myCore.rq q.val).bound = none) : actRqbind q b false s = .ok
    (s.modMyCore fun x => { x with rqs := smPut x.rqs q.val { x.rq q.val with owner := some s.me.launch, bound := none } }) := by
  simp only [actRqbind, he, rqForeign_mine s q.val mine, unbound, except_ok_bind, Bool.not_false, require_true, Bool.false_eq_true, if_false,
    takeRq_change s q.val (fun r => { r with bound := none })]

end Bind

/-- Settles O5: `vpop` by the head of its queue, or by what the queue lacks, and `rqbind` by its two forms. -/
theorem queueResults : Obligations.QueueResults := by
  intro s q d nw b e row rest he r mine
  refine ⟨fun free unbound unreserved rows untaken clean => ?head, fun free unbound unreserved rows dry => ?empty, fun free bound => ?bound,
    fun entry => ?bind, fun unbound => ?unbind⟩
  case head => exact ⟨_, congrArg (resolve s) (actVpop_head nw mine free unbound unreserved rows untaken clean), resultV_resV _ d row.row nw⟩
  case empty => exact congrArg (resolve s) (actVpop_empty nw mine free unbound unreserved rows dry)
  case bound => exact congrArg (resolve s) (actVpop_bound nw free bound)
  case bind => exact congrArg (resolve s) (actRqbind_on he mine entry)
  case unbind => exact congrArg (resolve s) (actRqbind_off he mine unbound)

end Sys2Proof.Machine
end

section
/-! SUPPORT. What a commit keeps and what a rollback restores (R255, R266, R335, R422). -/

set_option Elab.async false

namespace Sys2Proof.Machine

open Stated

/-! ### Popped rows of a queue (R266) -/

/-- A core whose queues are another's with f applied, where f leaves an empty queue as it is. -/
theorem rq_of_rqs_map {x c : Core} (f : RQ → RQ) (empty : f {} = {}) (rqs : x.rqs = c.rqs.map fun e => (e.1, f e.2)) (q : Nat) :
    x.rq q = f (c.rq q) := by
  have get := smGet_map f {} c.rqs q
  rwa [empty, ← rqs] at get

/-- A rollback leaves no row of a queue taken by its task. -/
theorem takenBy_rollbackQueue (i : Nat) (q : RQ) (r : QRow) (hr : r ∈ (rollbackQueue i q).rows) : r.takenBy ≠ some i := by
  obtain ⟨x, -, rfl⟩ := List.mem_map.1 hr
  split
  next => exact fun h => nomatch h
  next other => exact other

/-! ### Commits (R335) -/

section Commit

variable (s : State) (i : Nat)

/-- The state in which the withheld stores of task i have left its core. -/
def storesLeft : State := (s.task i).withheld.foldl State.storeLeaves s

/-- A commit, from the state in which the stores have left. -/
theorem commit_eq : s.commit i = (State.modCore { storesLeft s i with
      stores := (storesLeft s i).stores ++ leaving (storesLeft s i) (s.task i).withheld
      sent := (storesLeft s i).sent + (s.task i).withheld.length }
    (s.task i).die (s.task i).core fun x => { x with rqs := x.rqs.map fun e => (e.1, commitQueue i e.2) }).modTask i
      fun t => { t with dup := t.live, withheld := [], shadow := [], shadowBad := [] } := rfl

theorem storesLeft_keeps {β : Type} (p : State → β) (h : ∀ s st, p (State.storeLeaves s st) = p s) : p (storesLeft s i) = p s :=
  foldl_keeps p State.storeLeaves h _ s

theorem commit_task_other (j : Nat) (other : j ≠ i) : (s.commit i).task j = s.task j :=
  (State.task_modTask_other _ _ _ _ other).trans (storesLeft_keeps s i (·.task j) fun _ _ => rfl)

theorem commit_mem : (s.commit i).mem = s.mem := storesLeft_keeps s i State.mem fun _ _ => rfl

theorem commit_sent : (s.commit i).sent = s.sent + (s.task i).withheld.length :=
  congrArg (· + (s.task i).withheld.length) (storesLeft_keeps s i State.sent fun _ _ => rfl)

theorem commit_stores : (s.commit i).stores = s.stores ++ leaving s (s.task i).withheld := by
  have stores : (storesLeft s i).stores = s.stores := storesLeft_keeps s i State.stores fun _ _ => rfl
  have sent : (storesLeft s i).sent = s.sent := storesLeft_keeps s i State.sent fun _ _ => rfl
  rw [leaving, ← stores, ← sent]
  rfl

/-- The rows that the task has popped leave the queues of its core (R266). -/
theorem commit_rows (q : Nat) : (((s.commit i).core (s.task i).die (s.task i).core).rq q).rows
    = ((s.core (s.task i).die (s.task i).core).rq q).rows.filter fun r => decide (r.takenBy ≠ some i) := by
  have before : ((storesLeft s i).core (s.task i).die (s.task i).core).rqs = (s.core (s.task i).die (s.task i).core).rqs :=
    storesLeft_keeps s i (fun u => (u.core (s.task i).die (s.task i).core).rqs) fun u st => by rw [storeLeaves_core]
  have after : ((s.commit i).core (s.task i).die (s.task i).core).rqs
      = (s.core (s.task i).die (s.task i).core).rqs.map fun e => (e.1, commitQueue i e.2) := by
    rw [commit_eq, State.core_modTask, State.core_modCore_same, ← before]
    rfl
  rw [rq_of_rqs_map (commitQueue i) rfl after]
  rfl

end Commit

/-! ### Rollbacks (R335) -/

/-- Saved rows written back, each at its address. -/
def rowsWritten (addr : Nat → Nat) (l : List (Nat × Row)) (m : Mem) : Mem := l.foldl (fun m e => memWrite m (addr e.1) 256 e.2.toNat) m

/-- A byte outside of all rows that are written is unchanged. -/
theorem memByte_rowsWritten_outside (addr : Nat → Nat) (l : List (Nat × Row)) (m : Mem) (a : Nat)
    (outside : ∀ e ∈ l, ¬ (addr e.1 ≤ a ∧ a < addr e.1 + 256)) : memByte (rowsWritten addr l m) a = memByte m a := by
  induction l generalizing m with
  | nil => rfl
  | cons e l ih =>
    obtain ⟨here, rest⟩ := List.forall_mem_cons.1 outside
    exact (ih _ rest).trans (memByte_memWrite_outside _ _ _ _ _ (by omega))

/-- The rows of a task lie apart, so that each of several different ones holds after the writes what was saved of it. -/
theorem memByte_rowsWritten_inside (addr : Nat → Nat) (apart : ∀ j n, j ≠ n → addr j + 256 ≤ addr n ∨ addr n + 256 ≤ addr j) (l : List (Nat × Row))
    (distinct : (l.map (·.1)).Nodup) (m : Mem) (e : Nat × Row) (he : e ∈ l) (k : Nat) (hk : k < 256) :
    memByte (rowsWritten addr l m) (addr e.1 + k) = byteAt e.2.toNat k := by
  induction l generalizing m with
  | nil => exact absurd he List.not_mem_nil
  | cons x l ih =>
    obtain ⟨new, distinct⟩ := List.nodup_cons.1 distinct
    obtain rfl | he := List.mem_cons.1 he
    · have later : ∀ y ∈ l, ¬ (addr y.1 ≤ addr e.1 + k ∧ addr e.1 + k < addr y.1 + 256) := fun y hy => by
        have := apart y.1 e.1 fun same => new (List.mem_map.2 ⟨y, hy, same⟩)
        omega
      refine (memByte_rowsWritten_outside addr l _ _ later).trans ?_
      rw [memByte_memWrite, if_pos (by omega), Nat.add_sub_cancel_left]
    · exact ih distinct _ he

/-- Two rows of a task are 256 bytes apart (R98). -/
theorem taskRow_apart (s : State) (i j n : Nat) (h : j ≠ n) : taskRow s i j + 256 ≤ taskRow s i n ∨ taskRow s i n + 256 ≤ taskRow s i j := by
  simp only [taskRow, rowAddr]
  omega

section Rollback

variable (s : State) (i : Nat)

/-- The state in which the saved rows of task i are back in memory. -/
def rowsBack : State := { s with mem := rowsWritten (taskRow s i) (s.task i).shadow s.mem }

/-- The rows are put back one by one, and memory alone changes. -/
theorem foldl_rowsBack : (s.task i).shadow.foldl (fun u e => { u with
    mem := memWrite u.mem (rowAddr (s.modId (s.task i).die) (s.task i).die (s.task i).core ((s.task i).rowBase + e.1)) 256 e.2.toNat }) s
      = rowsBack s i := by
  have mem (l : List (Nat × Row)) (u : State) : l.foldl (fun u e => { u with mem := memWrite u.mem (taskRow s i e.1) 256 e.2.toNat }) u
      = { u with mem := rowsWritten (taskRow s i) l u.mem } := by
    induction l generalizing u with
    | nil => rfl
    | cons e l ih => exact ih _
  exact mem _ s

/-- A core without the operations and the popped rows of task i (R109, R214, R256, R266). -/
def coreBack (x : Core) : Core :=
  { x with
    rqs := x.rqs.map fun e => (e.1, rollbackQueue i e.2)
    cbs := x.cbs.map fun e => (e.1, unmeet i e.2)
    divider := abandon i x.divider
    fdiv := x.fdiv.map fun e => (e.1, abandon i e.2)
    idiv := x.idiv.map fun e => (e.1, abandon i e.2) }

/-- A task as it was at its last commit. -/
def taskBack (t : Task) : Task :=
  { t with live := t.dup, withheld := [], shadow := [], shadowBad := [], latches := {}, reply := none, cReply := [], stallSince := none }

/-- A rollback, with the requests of the task gone. -/
theorem rollback_eq : s.rollback i =
    let u := State.modCore { rowsBack s i with poison := (s.task i).shadowBad.foldl setInsert s.poison } (s.task i).die (s.task i).core (coreBack i)
    State.modTask { u with
      loads := s.loads.filter fun r => r.task ≠ i
      atomics := s.atomics.filter fun r => r.task ≠ i
      famoSent := s.famoSent.filter fun u => u.task ≠ i
      famoWait := s.famoWait.filter fun u => u.task ≠ i } i taskBack := by
  have rows := foldl_rowsBack s i
  simp only [State.rollback, rows]
  rfl

theorem rollback_mem : (s.rollback i).mem = rowsWritten (taskRow s i) (s.task i).shadow s.mem := by
  rw [rollback_eq]
  rfl

theorem rollback_stores : (s.rollback i).stores = s.stores := by
  rw [rollback_eq]
  rfl

theorem rollback_task_same : (s.rollback i).task i = taskBack (s.task i) := by
  rw [rollback_eq]
  exact State.task_modTask_same _ _ _

theorem rollback_task_other (j : Nat) (other : j ≠ i) : (s.rollback i).task j = s.task j := by
  rw [rollback_eq]
  exact State.task_modTask_other _ _ _ _ other

theorem mem_rollback_poison (u : Nat) : u ∈ (s.rollback i).poison ↔ u ∈ s.poison ∨ u ∈ (s.task i).shadowBad := by
  rw [rollback_eq]
  exact mem_foldl_setInsert _ _ _

/-- No row of a queue of its core stays taken by the task (R266). -/
theorem rollback_rows (q : Nat) (r : QRow) (hr : r ∈ (((s.rollback i).core (s.task i).die (s.task i).core).rq q).rows) : r.takenBy ≠ some i := by
  have core : (s.rollback i).core (s.task i).die (s.task i).core = coreBack i (s.core (s.task i).die (s.task i).core) := by
    rw [rollback_eq]
    exact State.core_modCore_same _ _ _ _
  rw [core, rq_of_rqs_map (rollbackQueue i) rfl rfl] at hr
  exact takenBy_rollbackQueue i _ r hr

end Rollback

/-- Settles O57: a commit by the stores that leave and the rows that are gone, a rollback by the rows that are put back. -/
theorem commitAndRollback : Obligations.CommitAndRollback := by
  intro s i
  refine ⟨⟨State.commit_task_same s i, commit_stores s i, commit_sent s i, commit_mem s i, commit_task_other s i, commit_rows s i⟩,
    rollback_task_same s i, mem_rollback_poison s i, rollback_stores s i, rollback_task_other s i, rollback_rows s i, fun distinct => ?rows⟩
  case rows =>
    rw [rollback_mem]
    exact ⟨memByte_rowsWritten_inside _ (taskRow_apart s i) _ distinct s.mem, memByte_rowsWritten_outside _ _ s.mem⟩

end Sys2Proof.Machine
end

section
/-! SUPPORT. A plain load that nothing holds back (R29, R107, R123), and the instructions that write the shadow set of the matrix engine (R275, R276,
R278 to R280, R282 to R285). -/

set_option Elab.async false

namespace Sys2Proof.Machine

open Stated

/-! ### Withheld stores laid over the bytes of a load (R123) -/

/-- The store writes the byte at an address. -/
def Store.has (x : Store) (a : Nat) : Bool := decide (x.pa ≤ a) && decide (a < x.pa + x.len)

/-- The newest store of a list that writes the byte at an address. -/
def newestAt (l : List Store) (a : Nat) : Option Store := (l.filter (·.has a)).getLast?

/-- A store laid over the bytes of [pa, pa+n). -/
def laidOver (pa n : Nat) (m : Mem) (x : Store) : Mem := if overlaps x.pa x.len pa n then memWrite m x.pa x.len x.data else m

theorem wf_laidOver (pa n : Nat) (m : Mem) (x : Store) (hm : Mem.wf m = true) : Mem.wf (laidOver pa n m x) = true := by
  unfold laidOver
  split
  next => exact wf_memWrite _ _ _ _ hm
  next => exact hm

theorem wf_foldl_laidOver (pa n : Nat) (l : List Store) (m : Mem) (hm : Mem.wf m = true) : Mem.wf (l.foldl (laidOver pa n) m) = true := by
  induction l generalizing m with
  | nil => exact hm
  | cons x l ih => exact ih _ (wf_laidOver pa n m x hm)

/-- A byte of the load after one store: the store's where it writes it. -/
theorem memByte_laidOver (pa n : Nat) (m : Mem) (x : Store) (a : Nat) (lo : pa ≤ a) (hi : a < pa + n) :
    memByte (laidOver pa n m x) a = if x.has a then byteAt x.data (a - x.pa) else memByte m a := by
  simp only [laidOver, Store.has, overlaps, Bool.and_eq_true, decide_eq_true_eq]
  by_cases has : x.pa ≤ a ∧ a < x.pa + x.len
  · rw [if_pos has, if_pos (by omega), memByte_memWrite, if_pos has]
  · rw [if_neg has]
    split
    · rw [memByte_memWrite, if_neg has]
    · rfl

/-- A byte of the load after all stores: the newest one's, or the byte that was there. -/
theorem memByte_foldl_laidOver (pa n : Nat) (l : List Store) (m : Mem) (a : Nat) (lo : pa ≤ a) (hi : a < pa + n) :
    memByte (l.foldl (laidOver pa n) m) a = (newestAt l a).elim (memByte m a) fun x => byteAt x.data (a - x.pa) := by
  induction l using List.reverseRecOn with
  | nil => rfl
  | append_singleton l x ih =>
    rw [List.foldl_concat, memByte_laidOver _ _ _ _ _ lo hi, ih, newestAt, newestAt, List.filter_append]
    by_cases has : x.has a = true
    · simp [has]
    · simp [has]

theorem forward_lt (l : List Store) (pa n v : Nat) : forward l pa n v < 2 ^ (8 * n) :=
  memRead_lt _ (wf_foldl_laidOver pa n l _ ((wf_iff _).2 (memCells_sorted pa v n 0))) pa n

/-- A byte of a forwarded value. -/
theorem byteAt_forward (l : List Store) (pa n v k : Nat) (hk : k < n) :
    byteAt (forward l pa n v) k = (newestAt l (pa + k)).elim (byteAt v k) fun x => byteAt x.data (pa + k - x.pa) := by
  have wf := wf_foldl_laidOver pa n l _ ((wf_iff _).2 (memCells_sorted pa v n 0))
  calc byteAt (forward l pa n v) k = memByte (l.foldl (laidOver pa n) (memCells pa v n 0)) (pa + k) := byteAt_memRead _ wf pa n k hk
    _ = _ := by rw [memByte_foldl_laidOver _ _ _ _ _ (by omega) (by omega), memByte_memCells, if_pos (by omega), Nat.add_sub_cancel_left]

/-- Where the stores cover a load, each of its bytes has a newest one. -/
theorem newestAt_covered (l : List Store) (pa n k : Nat) (all : covered l pa n = true) (hk : k < n) : newestAt l (pa + k) ≠ none := by
  obtain ⟨x, hx, has⟩ := List.any_eq_true.1 (List.all_eq_true.1 all k (List.mem_range.2 hk))
  have mem : x ∈ l.filter (·.has (pa + k)) := by
    simp only [inside, Bool.and_eq_true, decide_eq_true_eq] at has
    simp only [List.mem_filter, hx, Store.has, Bool.and_eq_true, decide_eq_true_eq, true_and]
    omega
  exact fun gone => List.ne_nil_of_mem mem (List.getLast?_eq_none_iff.1 gone)

/-- The byte that a load sees, by the newest withheld store to it. -/
theorem byteSeen_eq (s : State) (h : Handle) (hint : Hint) (a : Nat) : byteSeen s h hint a
    = ((newestAt s.me.withheld a).elim (byteAt (lineSeen s h hint (lineOf a)) (a - lineOf a)) fun x => byteAt x.data (a - x.pa)).toNat := by
  unfold byteSeen
  split
  next x store =>
    rw [show newestAt s.me.withheld a = some x from store]
    exact (byteAt_toNat _ _).symm
  next gone =>
    rw [show newestAt s.me.withheld a = none from gone]
    exact (byteAt_toNat _ _).symm

/-! ### Lines of a load (R29, R106, R107) -/

/-- The bytes of a line are those of its 512 bits. -/
theorem byteAt_mod_line (v i : Nat) (hi : i < 64) : byteAt (v % 2 ^ 512) i = byteAt v i := by
  simpa only [Nat.reduceMul] using byteAt_mod v 64 i hi

theorem lineFor_mine (s : State) (h : Handle) (hint : Hint) (line : Nat) : s.lineFor s.iss.die s.iss.core line hint (h.cache && !h.claim)
    = ((copySeen s h hint line).map (· % 2 ^ 512)).getD (memRead s.mem line 64) :=
  congrArg (fun c : Option Nat => c.getD (memRead s.mem line 64)) (copyFor_mine s h hint line)

theorem lineFor_lt (s : State) (h : Handle) (hint : Hint) (line : Nat) (wf : Mem.wf s.mem = true) :
    s.lineFor s.iss.die s.iss.core line hint (h.cache && !h.claim) < 2 ^ 512 := by
  rw [lineFor_mine]
  cases copySeen s h hint line with
  | none => simpa only [Nat.reduceMul, Option.map_none, Option.getD_none] using memRead_lt _ wf line 64
  | some v => exact Nat.mod_lt v (pow_pos Nat.two_pos 512)

/-- A byte of a line that a lookup of the issuing core finds. -/
theorem byteAt_lineFor (s : State) (h : Handle) (hint : Hint) (line i : Nat) (hi : i < 64) :
    byteAt (s.lineFor s.iss.die s.iss.core line hint (h.cache && !h.claim)) i = byteAt (lineSeen s h hint line) i := by
  rw [lineFor_mine, lineSeen]
  cases copySeen s h hint line with
  | none => rfl
  | some v => exact byteAt_mod_line v i hi

/-- Byte i of line j of a number made of lines. -/
theorem byteAt_lines (l : List Nat) (j i : Nat) (hj : j < l.length) (hi : i < 64) : byteAt (ofLanes 512 l) (64 * j + i) = byteAt l[j] i :=
  calc byteAt (ofLanes 512 l) (64 * j + i) = byteAt (laneOf 512 (ofLanes 512 l) j) i := by
        rw [← byteAt_shift, laneOf, byteAt_mod_line _ i hi, show 8 * (64 * j) = 512 * j by omega]
    _ = byteAt l[j] i := by rw [laneOf_ofLanes 512 l j hj]; exact byteAt_mod_line l[j] i hi

/-- Lines put together, lowest first. -/
theorem foldr_lines (l : List (Nat × Nat)) (fits : ∀ x ∈ l, x.2 < 2 ^ 512) :
    l.foldr (fun x acc => x.2 + acc * 2 ^ 512) 0 = ofLanes 512 (l.map (·.2)) := by
  induction l with
  | nil => rfl
  | cons x l ih =>
    obtain ⟨head, tail⟩ := List.forall_mem_cons.1 fits
    rw [List.foldr_cons, ih tail, List.map_cons, ofLanes_cons, Nat.mod_eq_of_lt head, Nat.add_comm]

/-- A byte of what the lookups of the issuing core find. -/
theorem byteAt_fetch (s : State) (h : Handle) (pa n : Nat) (hint : Hint) (wf : Mem.wf s.mem = true) (k : Nat) (hk : k < n) :
    byteAt (s.fetch s.iss.die s.iss.core pa n hint (h.cache && !h.claim)).2 k
      = byteAt (lineSeen s h hint (lineOf (pa + k))) (pa + k - lineOf (pa + k)) := by
  let find (l : Nat) := s.lineFor s.iss.die s.iss.core l hint (h.cache && !h.claim)
  let found := (linesOf pa n).map fun l => (l, find l)
  have fits : ∀ x ∈ found, x.2 < 2 ^ 512 := fun x hx => by
    obtain ⟨l, -, rfl⟩ := List.mem_map.1 hx
    exact lineFor_lt s h hint l wf
  have place : pa - lineOf pa + k = 64 * ((pa + k) / 64 - pa / 64) + (pa + k - lineOf (pa + k)) := by unfold lineOf; omega
  have line : lineOf pa + 64 * ((pa + k) / 64 - pa / 64) = lineOf (pa + k) := by unfold lineOf; omega
  have small : pa + k - lineOf (pa + k) < 64 := by unfold lineOf; omega
  have length : (pa + k) / 64 - pa / 64 < (found.map (·.2)).length := by
    simp only [found, linesOf, List.length_map, List.length_range]
    omega
  have here : (found.map (·.2))[(pa + k) / 64 - pa / 64] = find (lineOf (pa + k)) := by
    simp only [found, linesOf, List.getElem_map, List.getElem_range, line]
  show byteAt (found.foldr (fun x acc => x.2 + acc * 2 ^ 512) 0 / 2 ^ (8 * (pa - lineOf pa)) % 2 ^ (8 * n)) k = _
  rw [byteAt_mod _ n k hk, byteAt_shift, foldr_lines found fits, place, byteAt_lines _ _ _ length small, here]
  exact byteAt_lineFor s h hint _ _ small

/-- The lookups of the lines of a load change caches alone. -/
theorem onlyCaches_fetchLines (s : State) (hint : Hint) (cache : Bool) (l : List (Nat × Nat)) (u : State) (same : u.iss = s.iss) :
    OnlyCaches u (l.foldl (fun t x => t.fetchLine s.iss.die s.iss.core x.1 hint cache x.2) u) := by
  induction l generalizing u with
  | nil => exact onlyCaches_refl u
  | cons x l ih =>
    have first : OnlyCaches u (u.fetchLine s.iss.die s.iss.core x.1 hint cache x.2) := by
      rw [← same]
      exact onlyCaches_fetchLine u x.1 hint cache x.2
    exact onlyCaches_trans first (ih _ ((onlyCaches_iss first).trans same))

/-! ### A plain load that nothing holds back (R123, R230) -/

theorem not_meetsPoison (s : State) (h : Handle) (pa n : Nat) (hint : Hint)
    (clean : ∀ k < n, copySeen s h hint (lineOf (pa + k)) = none → s.poisoned (pa + k) 1 = false) :
    s.meetsPoison s.iss.die s.iss.core pa n hint (h.cache && !h.claim) = false := by
  refine Bool.eq_false_iff.2 fun meets => ?_
  obtain ⟨k, hk, copy, bad⟩ := (meetsPoison_iff _ _ _ _ _ _ _).1 meets
  rw [copyFor_mine, Option.map_eq_none_iff] at copy
  exact Bool.noConfusion ((clean k hk copy).symm.trans bad)

theorem loadPlain_covered (s : State) (h : Handle) (pa n : Nat) (hint : Hint) (va : Nat) (all : covered s.me.withheld pa n = true) :
    s.loadPlain h pa n hint va = .ok (s, forward s.me.withheld pa n 0) := by
  simp only [State.loadPlain, all, if_true]

theorem loadPlain_fetched (s : State) (h : Handle) (pa n : Nat) (hint : Hint) (va : Nat) (away : covered s.me.withheld pa n = false)
    (reply : s.me.reply = none) (stands : s.loadStands s.iss.die s.iss.core pa n hint (h.cache && !h.claim) = false)
    (clean : s.meetsPoison s.iss.die s.iss.core pa n hint (h.cache && !h.claim) = false) :
    let f := s.fetch s.iss.die s.iss.core pa n hint (h.cache && !h.claim)
    s.loadPlain h pa n hint va = .ok (f.1, forward s.me.withheld pa n f.2) := by
  simp only [State.loadPlain, away, reply, stands, clean, Bool.false_eq_true, if_false, Bool.not_false, require_true, except_ok_bind]

/-- A load that is ready answers the bytes that its task sees, and changes caches alone. -/
theorem loadPlain_ready (s : State) (h : Handle) (pa n : Nat) (hint : Hint) (va : Nat) (wf : s.memWf = true) (ready : LoadReady s h hint pa n) :
    ∃ u v, s.loadPlain h pa n hint va = .ok (u, v) ∧ OnlyCaches s u ∧ v < 2 ^ (8 * n)
      ∧ ∀ k < n, v / 2 ^ (8 * k) % 256 = byteSeen s h hint (pa + k) := by
  by_cases all : covered s.me.withheld pa n = true
  · refine ⟨s, _, loadPlain_covered s h pa n hint va all, onlyCaches_refl s, forward_lt _ _ _ _, fun k hk => ?_⟩
    obtain ⟨x, newest⟩ := Option.ne_none_iff_exists'.1 (newestAt_covered _ pa n k all hk)
    rw [← byteAt_toNat, byteAt_forward _ _ _ _ _ hk, byteSeen_eq, newest]
    rfl
  · obtain ⟨reply, stands, clean⟩ := ready.resolve_left all
    refine ⟨_, _, loadPlain_fetched s h pa n hint va (Bool.eq_false_iff.2 all) reply stands (not_meetsPoison s h pa n hint clean),
      onlyCaches_fetchLines s hint _ _ s rfl, forward_lt _ _ _ _, fun k hk => ?_⟩
    rw [← byteAt_toNat, byteAt_forward _ _ _ _ _ hk, byteAt_fetch s h pa n hint ((memWf_iff s).1 wf).1 k hk, byteSeen_eq]

/-! ### The configuration instructions with readable operands (R275, R276, R278, R283 to R285) -/

/-- Without a grant nothing that needs one goes on (R275). -/
theorem granted_bind_none {α : Type} (s : State) (f : Grant → Except Stop α) (h : s.me.shadowSet.grant = none) :
    (s.granted >>= f) = .error (.trap { code := 0x10 }) := by
  rw [granted_none s h]
  rfl

theorem granted_bind_some (s : State) (e : Act) (h : s.me.shadowSet.grant ≠ none) : (s.granted >>= fun _ => e) = e := by
  obtain ⟨g, grant⟩ := Option.ne_none_iff_exists'.1 h
  rw [granted_ok s g grant, except_ok_bind]

/-- The word of a grant (R276). -/
theorem grantWord_toNat (g : Option Grant) (k : Grant) (h : g = some k) :
    (BitVec.ofNat 64 (grantWord g)).toNat % 2 ^ 64 = (k.m + k.n * 2 ^ 20 + k.k * 2 ^ 40) % 2 ^ 64 := by
  subst h
  rw [BitVec.toNat_ofNat, Nat.mod_mod]
  rfl

theorem published_iff (p : Nat) : published p = true ↔ p ∈ [1, 2, 3, 4, 0x11] := by
  simp [published, or_assoc]

section Readable

variable {s : State} {o : En3} {x y z : Word}

/-- mshape grants from what its words ask, whatever stood (R276). -/
theorem actMshape_eq (fmt : EngFmt) (a : Fin 32) (hb : s.srcS o.b = .ok y) (hc : s.srcS o.c = .ok z) :
    let g := grantOf fmt (y.toNat % 2 ^ 20) (y.toNat / 2 ^ 20 % 2 ^ 20) (y.toNat / 2 ^ 40) z.toNat (s.me.rowCount - z.toNat)
    actMshape fmt a o.b o.c s = .ok ((shadowed s fun m => { m with grant := g }).resM a (BitVec.ofNat 64 (grantWord g))) := by
  have low : field y.toNat 19 0 = y.toNat % 2 ^ 20 := by rw [field, pow_zero, Nat.div_one]
  have high : field y.toNat 63 40 = y.toNat / 2 ^ 40 := Nat.mod_eq_of_lt (Nat.div_lt_of_lt_mul y.isLt)
  simp only [actMshape, hb, hc, except_ok_bind, low, high]
  rfl

theorem actMcfg_eq (level : Fin 8) (dr : Bool) (ha : s.srcS o.a = .ok x) (hb : s.srcS o.b = .ok y) (hc : s.srcS o.c = .ok z) :
    actMcfg level dr o s = s.granted >>= fun _ =>
      if h : level.val < 6 then .ok (shadowed s fun m => { m with levels := m.levels.set level.val { a := x, b := y, c := z, drain := dr } h })
      else require (decide (x.toNat % 2 ^ 32 = 0)) (raiseInfo .illegalInstruction s.iss.word) >>= fun _ =>
        .ok (shadowed s fun m => { m with orgA := x, orgB := y, orgC := z }) := by
  simp only [actMcfg, ha, hb, hc, except_ok_bind]
  rfl

theorem actMrot_eq (ha : s.srcS o.a = .ok x) (hb : s.srcS o.b = .ok y) (hc : s.srcS o.c = .ok z) :
    actMrot o s = s.granted >>= fun _ => .ok (shadowed s fun m =>
      { m with rot := x, rk := if x.getLsbD 20 then y else m.rk, qk := if x.getLsbD 21 then z else m.qk }) := by
  simp only [actMrot, ha, hb, hc, except_ok_bind, flag_bits]
  rfl

theorem actMdrain_eq (a : Fin 32) (hb : s.srcS o.b = .ok y) (hc : s.srcS o.c = .ok z) :
    actMdrain a o.b o.c s = s.granted >>= fun _ =>
      .ok (if drainRefused y.toNat then s.resM a 1
        else (shadowed s fun m => { m with drain := y, dk := if y.getLsbD 20 then z else m.dk }).resM a 0) := by
  simp only [actMdrain, hb, hc, except_ok_bind, flag_bits]
  congr 1
  funext _
  split <;> rfl

end Readable

theorem matrixConfiguration : Stated.MatrixConfiguration := by
  intro s fmt a o x y z level dr p ha hb hc
  refine ⟨?shape, fun grant => ⟨fun below => ?level, fun six zero => ?origins, ?rotation, fun named => ?profile, fun unnamed => ?unnamed,
    fun taken => ?drain, fun refused => ?refused⟩, fun ungranted i hi => ?ungranted⟩
  case shape =>
    intro g
    refine ⟨_, BitVec.ofNat 64 (grantWord g), congrArg (resolve s) (actMshape_eq fmt a hb hc), resultM_resM _ _ _, fun refused => ?_,
      grantWord_toNat g⟩
    rw [refused]
    rfl
  case level => exact congrArg (resolve s) ((actMcfg_eq level dr ha hb hc).trans ((granted_bind_some s _ grant).trans (dif_pos below)))
  case origins =>
    show resolve s (actMcfg level dr o s) = _
    rw [actMcfg_eq level dr ha hb hc, granted_bind_some s _ grant, dif_neg (by omega), decide_eq_true zero, require_true, except_ok_bind, resolve_ok]
  case rotation => exact congrArg (resolve s) ((actMrot_eq ha hb hc).trans (granted_bind_some s _ grant))
  case profile =>
    show resolve s (actMprof p s) = _
    rw [actMprof, granted_bind_some s _ grant, (published_iff _).2 named, require_true, except_ok_bind]
    rfl
  case unnamed =>
    show resolve s (actMprof p s) = _
    rw [actMprof, granted_bind_some s _ grant, Bool.eq_false_iff.2 fun h => unnamed ((published_iff _).1 h)]
    rfl
  case drain =>
    refine ⟨_, ?_, resultM_resM _ a 0⟩
    show resolve s (actMdrain a o.b o.c s) = _
    rw [actMdrain_eq a hb hc, granted_bind_some s _ grant, taken]
    rfl
  case refused =>
    refine ⟨_, ?_, resultM_resM s a 1⟩
    show resolve s (actMdrain a o.b o.c s) = _
    rw [actMdrain_eq a hb hc, granted_bind_some s _ grant, refused]
    rfl
  case ungranted =>
    simp only [List.mem_cons, List.not_mem_nil, or_false] at hi
    obtain rfl | rfl | rfl | rfl := hi
    · exact congrArg (resolve s) ((actMcfg_eq level dr ha hb hc).trans (granted_bind_none s _ ungranted))
    · exact congrArg (resolve s) ((actMrot_eq ha hb hc).trans (granted_bind_none s _ ungranted))
    · exact congrArg (resolve s) (granted_bind_none s _ ungranted)
    · exact congrArg (resolve s) ((actMdrain_eq a hb hc).trans (granted_bind_none s _ ungranted))

/-! ### mopnd (R280, R282) -/

/-- The state after the load of a descriptor: one through a claim-enabled handle is an acquire (R139). -/
def operandLoaded (u : State) (h : Handle) : State := if h.claim then acquired u .dom else u

theorem onlyCaches_operandLoaded (u : State) (h : Handle) : OnlyCaches u (operandLoaded u h) := by
  unfold operandLoaded
  split
  · exact onlyCaches_acquired u .dom
  · exact onlyCaches_refl u

/-- mopnd past its tests, with the descriptor that its load answers. -/
theorem actMopnd_eq (s : State) (isB : Bool) (a : Fin 32) (b : SSrc) (h : Fin 16) (off : Word) (hb : s.srcS b = .ok off)
    (inSegment : off.toNat < 2 ^ 51) (grant : s.me.shadowSet.grant ≠ none) :
    let hd := s.regH h
    let k := hd.toSeg off.toNat
    Passes s hd k 64 64 false → (hd.claim = true → s.tag (paOf hd k) = .value) →
    ∀ v d, s.loadPlain hd (paOf hd k) 64 .none (vaOf hd k) = .ok (v, d) →
      let u := operandLoaded v hd
      let st := u.mopndStatus isB (viewOf d) hd
      actMopnd isB a b h s = .ok ((shadowed u fun m =>
          let op : Option Operand := if st = 0 then some { desc := BitVec.ofNat 512 d, h := hd } else none
          if isB then { m with opB := op } else { m with opA := op }).resM a (BitVec.ofNat 64 st)) := by
  classical
  intro hd k passes value v d load
  obtain ⟨valid, bounds, perm, align, foot⟩ := passes
  obtain ⟨g, granted⟩ := Option.ne_none_iff_exists'.1 grant
  have access : s.accessCheck hd k 64 true false h.val = .ok (paOf hd k) := accessCheck_passes s hd k 64 _ true false valid bounds perm
  have place : (hd.valid && decide (off.toNat < 2 ^ 51) || !hd.valid) = true := by rw [valid, decide_eq_true inSegment]; rfl
  have aligned' : aligned hd k 64 false = .ok () := if_pos align
  have idle : (!(hd.claim && decide (s.tag (paOf hd k) ≠ .value))) = true := by
    cases claim : hd.claim with
    | false => rfl
    | true => rw [value claim]; rfl
  simp only [actMopnd, hb, granted_ok s g granted, except_ok_bind]
  rw [place, require_true, except_ok_bind, access, except_ok_bind, aligned', except_ok_bind, footprintCheck_eq, if_pos foot, except_ok_bind,
    idle, require_true, except_ok_bind, vaAt_eq, load, except_ok_bind]
  rfl

theorem matrixOperand : Stated.MatrixOperand := by
  intro s isB a b h off hb hd k inSegment grant passes value ready wf
  obtain ⟨v, d, load, caches, fits, bytes⟩ := loadPlain_ready s hd (paOf hd k) 64 .none (vaOf hd k) wf ready
  exact ⟨operandLoaded v hd, _, d, _, congrArg (resolve s) (actMopnd_eq s isB a b h off hb inSegment grant passes value v d load),
    onlyCaches_trans caches (onlyCaches_operandLoaded v hd), by simpa only [Nat.reduceMul] using fits, rfl, bytes, resultM_resM _ a _⟩

/-- Settles O26: each configuration instruction by its words, behind the grant, and mopnd by the bytes that its load sees. -/
theorem matrixSetup : Obligations.MatrixSetup := ⟨matrixConfiguration, matrixOperand⟩

end Sys2Proof.Machine
end

section
/-! SUPPORT. The issue of engine commands: tickets, copies and assay commands (R300, R301, R305, R306, R310, R311, R313,
R315, R316). -/

set_option Elab.async false

namespace Sys2Proof.Machine

open Stated

/-! ### Tickets (R301, R306, R313) -/

/-- The command as the engine holds it, with the next ticket of the issuing task. -/
def accepted (s : State) (c : Cmd) : Cmd :=
  { c with id := s.issued, order := s.issued, no := s.sent, ticket := s.me.live.ticket + 1, task := s.iss.task, die := s.iss.die, core := s.iss.core
           launch := s.me.launch, seed := s.iss.snap.seed, det := s.myLaunch.det }

/-- The engine's commands after an issue that ends with a status. -/
def commandAdded (s : State) (c : Cmd) (status : Status) : State :=
  if status = 0 then { s with issued := s.issued + 1, sent := s.sent + 1, cmds := s.cmds ++ [accepted s c] } else s

/-- The task with ticket n as the result of its C port. -/
def ticketNext (cPort : Nat) (a : Fin 32) (n : Nat) (t : Task) : Task :=
  let v := BitVec.ofNat 64 n
  { t with
    live := { t.live with ticket := n }.wrS a v
    latches := if cPort = 0 then { t.latches with lc0 := some v } else { t.latches with lc1 := some v } }

/-- The task with ticket n open, or failed with a status. -/
def ticketKept (n : Nat) (status : Status) (t : Task) : Task :=
  if status = 0 then { t with openTickets := t.openTickets ++ [n] } else { t with failures := t.failures ++ [{ ticket := n, code := status }] }

/-- The issuing task after an issue that ends with a status. -/
def ticketed (cPort : Nat) (a : Fin 32) (n : Nat) (status : Status) (t : Task) : Task := ticketKept n status (ticketNext cPort a n t)

/-- The next ticket of the issuing task, as the result of its C port. -/
theorem ticket_resC (s : State) (a : Fin 32) (n : Nat) :
    (s.modLive fun r => { r with ticket := n }).resC a (BitVec.ofNat 64 n) = s.modMe (ticketNext s.iss.cPort a n) := by
  rw [State.resC_eq, State.modLive_eq, State.modMe_modMe]
  rfl

/-- An issue as one change of the engine and one of the task. -/
theorem issueCmd_eq (s : State) (a : Fin 32) (c : Cmd) (status : Status) :
    s.issueCmd a c status = (commandAdded s c status).modMe (ticketed s.iss.cPort a (s.me.live.ticket + 1) status) := by
  refine Eq.trans ?_ (State.modMe_modMe (commandAdded s c status) (ticketNext s.iss.cPort a (s.me.live.ticket + 1))
    (ticketKept (s.me.live.ticket + 1) status))
  by_cases ok : status = 0
  · subst ok
    have launch (f : Task → Task) : (s.modMe f).launch = s.launch := rfl
    simp only [State.issueCmd, ticket_resC, if_true, State.myLaunch, State.me_modMe, launch]
    rfl
  · have kept : ticketKept (s.me.live.ticket + 1) status
        = fun t => { t with failures := t.failures ++ [{ ticket := s.me.live.ticket + 1, code := status }] } := funext fun t => if_neg ok
    simp only [State.issueCmd, ticket_resC, commandAdded, if_neg ok, kept]

/-- What an issue writes of the task's record. -/
theorem ticketed_eq (cPort : Nat) (a : Fin 32) (n : Nat) (status : Status) (t : Task) :
    let u := ticketed cPort a n status t
    u = { t with live := { t.live with ticket := n, s := u.live.s }, latches := u.latches, failures := u.failures, openTickets := u.openTickets } := by
  have live := Regs.wrS_eq { t.live with ticket := n } a (BitVec.ofNat 64 n)
  unfold ticketed ticketKept ticketNext
  split <;> (dsimp only at live ⊢; rw [← live])

theorem ticketed_live (cPort : Nat) (a : Fin 32) (n : Nat) (status : Status) (t : Task) :
    (ticketed cPort a n status t).live = { t.live with ticket := n }.wrS a (BitVec.ofNat 64 n) := by
  unfold ticketed ticketKept
  split <;> rfl

theorem ticketed_latches (cPort : Nat) (a : Fin 32) (n : Nat) (status : Status) (t : Task) :
    (ticketed cPort a n status t).latches = (ticketNext cPort a n t).latches := by
  unfold ticketed ticketKept
  split <;> rfl

section Added

variable (s : State) (a : Fin 32) (c : Cmd) (status : Status)

theorem commandAdded_eq : commandAdded s c status
    = { s with cmds := (commandAdded s c status).cmds, issued := (commandAdded s c status).issued, sent := (commandAdded s c status).sent } := by
  unfold commandAdded
  split <;> rfl

theorem commandAdded_me : (commandAdded s c status).me = s.me := by rw [commandAdded_eq]; rfl

theorem commandAdded_iss : (commandAdded s c status).iss = s.iss := by rw [commandAdded_eq]

/-- The record of the issuing task after an issue. -/
theorem issueCmd_me : (s.issueCmd a c status).me = ticketed s.iss.cPort a (s.me.live.ticket + 1) status s.me := by
  rw [issueCmd_eq, State.me_modMe, commandAdded_me]

/-- An issue touches the engine's commands and the record of the issuing task. -/
theorem issueCmd_frame : s.issueCmd a c status
    = { s.setTask s.iss.task (s.issueCmd a c status).me with
        cmds := (s.issueCmd a c status).cmds, issued := (s.issueCmd a c status).issued, sent := (s.issueCmd a c status).sent } := by
  rw [issueCmd_eq]
  unfold commandAdded
  split <;> exact State.modMe_eq _ _

theorem issueCmd_foldMsgs : (s.issueCmd a c status).foldMsgs = s.foldMsgs := by
  rw [issueCmd_frame]
  rfl

/-- An issue with a status takes the ticket as the statements say. -/
theorem ticketTaken_issueCmd : TicketTaken s (s.issueCmd a c status) a c.kind c.card status c.started := by
  have me := issueCmd_me s a c status
  refine ⟨issueCmd_frame s a c status, ?_, fun r => ?_, ?_, fun ok => ?_, fun failed => ?_⟩
  · rw [me, ticketed_eq]
  · rw [me, ticketed_live]
    exact Regs.rdS_wrS _ _ _ _
  · rw [me, ticketed_latches]
    rfl
  · subst ok
    rw [me, issueCmd_eq]
    exact ⟨accepted s c, rfl, rfl, rfl, rfl, rfl, rfl, rfl, rfl, rfl, rfl, rfl, rfl, rfl, rfl, rfl⟩
  · rw [me, issueCmd_eq, ticketed, ticketKept, if_neg failed, commandAdded, if_neg failed]
    exact ⟨rfl, rfl, rfl, rfl, rfl⟩

end Added

/-- The late flag, which an issue may set, is no part of what the ticket changes (R311). -/
theorem ticketTaken_late {s t : State} {a : Fin 32} {kind : CmdKind} {card status : Nat} {started : Bool}
    (h : TicketTaken (s.modMe fun t => { t with late := true }) t a kind card status started) : TicketTaken s t a kind card status started := by
  have me := State.me_modMe s fun t => { t with late := true }
  have same : (s.modMe fun t => { t with late := true }).setTask s.iss.task t.me = s.setTask s.iss.task t.me := State.setTask_setTask _ _ _ _
  obtain ⟨frame, task, regs, latches, ok, failed⟩ := h
  rw [me] at task regs latches ok failed
  refine ⟨frame.trans ?_, task, regs, latches, ok, failed⟩
  exact congrArg (fun u : State => { u with cmds := t.cmds, issued := t.issued, sent := t.sent }) same

/-! ### Copies (R300, R305, R306, R310, R311) -/

theorem expired_trap (s : State) (nb : Nat) (strict : Bool) (is : strict = true) (passed : s.passed nb = true) :
    s.expired nb strict = .error (.trap { code := 0x1D, info := nb }) := by
  rw [State.expired, is, passed]
  rfl

theorem expired_ok (s : State) (nb : Nat) (strict : Bool) (h : ¬ (strict = true ∧ s.passed nb = true)) : s.expired nb strict = .ok () := by
  rw [← Bool.and_eq_true, Bool.not_eq_true] at h
  rw [State.expired, h]
  rfl

/-- A copy whose handles are settled, and for which the range scoreboard has room, takes its ticket with its status. -/
theorem startCopy_taken (s : State) (kind : CmdKind) (a : Fin 32) (d : Nat) (hs hd : Handle) (rs rd : Nat) (source : Settled hs)
    (dest : Settled hd) (room : s.scoreboardUsed s.iss.die s.iss.core < 16) :
    ∃ t, s.startCopy kind a d hs hd rs rd = .ok t ∧ TicketTaken s t a kind d (s.copyStatus kind (copyCard d) hs hd) := by
  have handles (fromMem : Bool) : s.needHandles (if fromMem then [(hs, rs), (hd, rd)] else [(hd, rd)]) = .ok false :=
    needHandles_settled s _ (by cases fromMem <;> simp [source, dest])
  simp only [State.startCopy, handles, except_ok_bind, decide_eq_true room, require_true, Bool.false_eq_true, if_false]
  refine ⟨_, rfl, ?_⟩
  split
  · exact ticketTaken_late (ticketTaken_issueCmd _ a _ _)
  · exact ticketTaken_issueCmd s a _ _

/-- A copy from memory past its card. -/
theorem copyOp_eq (s : State) (kind : CmdKind) (o : CpyOp) (off : Word) (d : Nat) (hb : s.srcS o.b = .ok off) (card : CardAt s off 64 d) :
    copyOp kind o s = (do
      s.expired (copyCard d).notBefore (copyCard d).strict
      s.startCopy kind o.a d (s.regH o.hs) (s.regH o.hd) o.hs.val o.hd.val) := by
  rw [copyOp, hb, except_ok_bind, readCard_ok s off 64 d card, except_ok_bind]

theorem copyIssue : Stated.CopyIssue := by
  intro s o off d hb card p hp
  have run : exec p.1 s = resolve s (copyOp p.2 o s) := by
    simp only [List.mem_cons, List.not_mem_nil, or_false] at hp
    obtain rfl | rfl | rfl := hp <;> rfl
  have op := copyOp_eq s p.2 o off d hb card
  refine ⟨fun strict passed => ?_, fun open_ source dest room => ?_⟩
  · rw [Traps, run, op, expired_trap s _ _ strict passed]
    rfl
  · obtain ⟨t, start, taken⟩ := startCopy_taken s p.2 o.a d (s.regH o.hs) (s.regH o.hd) o.hs.val o.hd.val source dest room
    refine ⟨t, ?_, taken⟩
    rw [run, op, expired_ok s _ _ open_, except_ok_bind, start, resolve_ok]

/-- Taking a queue leaves the range scoreboard alone. -/
theorem scoreboardUsed_takeRq (s : State) (q : Nat) : (s.takeRq q).scoreboardUsed s.iss.die s.iss.core = s.scoreboardUsed s.iss.die s.iss.core := by
  have core : (s.takeRq q).core s.iss.die s.iss.core = { s.myCore with rqs := smPut s.myCore.rqs q { s.myCore.rq q with owner := some s.me.launch } } :=
    State.core_modCore_same _ _ _ _
  rw [State.scoreboardUsed, core]
  rfl

/-- `cpyr` past its card, from a queue of the launch that holds its rows or that a job of the task fills. -/
theorem actCpyr_eq (s : State) (a : Fin 32) (b : SSrc) (q : Fin 8) (hd : Fin 16) (off : Word) (d : Nat) (hb : s.srcS b = .ok off)
    (card : CardAt s off 64 d) (open_ : ¬ ((copyCard d).strict = true ∧ s.passed (copyCard d).notBefore = true))
    (mine : (s.myCore.rq q.val).owner = none ∨ (s.myCore.rq q.val).owner = some s.me.launch) (unbound : (s.myCore.rq q.val).bound = none)
    (rows : s.me.drainsTo q.val = true ∨ (copyCard d).x1 * (copyCard d).x2 + s.reserved s.iss.die s.iss.core q.val
      ≤ ((s.myCore.rq q.val).rows.filter fun y => y.takenBy.isNone).length) :
    actCpyr a b q hd s = ((s.takeRq q.val).startCopy (.cpyr q.val) a d {} (s.regH hd) 0 hd.val >>= fun t =>
      .ok (t.rqStart s.issued s.iss.die s.iss.core q.val)) := by
  have held : (decide ((copyCard d).x1 * (copyCard d).x2 ≤ ((s.myCore.rq q.val).rows.filter fun y => y.takenBy.isNone).length
      - s.reserved s.iss.die s.iss.core q.val) || s.me.drainsTo q.val) = true := by
    rcases rows with drains | rows
    · rw [drains, Bool.or_true]
    · rw [decide_eq_true (Nat.le_sub_of_add_le rows), Bool.true_or]
  simp only [actCpyr, hb, readCard_ok s off 64 d card, expired_ok s _ _ open_, rqForeign_mine s q.val mine, unbound, held, except_ok_bind,
    Bool.not_false, Option.isNone_none, Bool.and_self, require_true]

theorem queueCopyIssue : Stated.QueueCopyIssue := by
  intro s a b q hd off d hb card open_ settled room r mine unbound rows own
  obtain ⟨u, start, taken⟩ := startCopy_taken (s.takeRq q.val) (.cpyr q.val) a d {} (s.regH hd) 0 hd.val (.inr ⟨rfl, rfl⟩) settled
    ((scoreboardUsed_takeRq s q.val).trans_lt room)
  refine ⟨u, ?_, taken⟩
  show resolve s (actCpyr a b q hd s) = _
  rw [actCpyr_eq s a b q hd off d hb card open_ mine unbound rows, start, except_ok_bind, resolve_ok]

/-! ### Assay commands (R315, R316) -/

/-- An assay command with settled handles takes its ticket with its status. -/
theorem assayOp_taken (kind : CmdKind) (bad : View → View → Bool) (o : CpyOp) (s : State) (off : Word) (d : Nat) (hb : s.srcS o.b = .ok off)
    (card : CardAt s off 128 d) (source : Settled (s.regH o.hs)) (dest : Settled (s.regH o.hd))
    (room : s.scoreboardUsed s.iss.die s.iss.core < 16) : ∃ t, assayOp kind bad o s = .ok t
      ∧ TicketTaken s t o.a kind d (assayCode s (bad (viewOf (d % 2 ^ 512)) (viewOf (d / 2 ^ 512))) d (s.regH o.hs) (s.regH o.hd)) := by
  have handles : s.needHandles [(s.regH o.hs, o.hs.val), (s.regH o.hd, o.hd.val)] = .ok false :=
    needHandles_settled s _ (by simp [source, dest])
  simp only [assayOp, hb, readCard_ok s off 128 d card, handles, except_ok_bind, decide_eq_true room, require_true, Bool.false_eq_true, if_false]
  exact ⟨_, rfl, ticketTaken_issueCmd s o.a _ _⟩

/-- An effect that completes is the instruction's next state. -/
theorem next_of_ok {s : State} {r : Act} {P : State → Prop} (h : ∃ t, r = .ok t ∧ P t) : ∃ t, resolve s r = .next t ∧ P t := by
  obtain ⟨t, rfl, result⟩ := h
  exact ⟨t, rfl, result⟩

theorem assayIssue : Stated.AssayIssue := by
  intro s o md esc off d hb card source dest room
  exact ⟨next_of_ok (assayOp_taken (.qnt md esc) _ o s off d hb card source dest room),
    next_of_ok (assayOp_taken (.dqnt md) _ o s off d hb card source dest room)⟩

/-- Settles O27: every copy and assay command ends in one rule for the ticket that it takes. -/
theorem commandIssue : Obligations.CommandIssue := ⟨copyIssue, queueCopyIssue, assayIssue⟩

end Sys2Proof.Machine
end

section
/-! SUPPORT. The issue of stack commands, and the messages of folds (R331 to R334). -/

set_option Elab.async false

namespace Sys2Proof.Machine

open Stated

/-- A command that is refused needs no place in the hold buffer (R417). -/
theorem holds_or_refused {status : Status} {room : Bool} (h : status = 0 → room = true) : (decide (status ≠ 0) || room) = true := by
  by_cases ok : status = 0
  · rw [h ok, Bool.or_true]
  · rw [decide_eq_true ok, Bool.true_or]

/-! ### stend (R331, R332) -/

/-- The status of `stend` in the order of the model's tests. -/
def tendStatus (s : State) (d : Nat) (h : Handle) : Status :=
  let st := if badTendCard d then CStat.badCard.code else s.stackStatus h (tendArrays d) true
  if st = 0 then
    match s.oneStack ((tendArrays d).map h.span2) with
    | some (k, j) => if s.inWindow k j (((tendArrays d).map h.span2).take 4) then 0 else CStat.badAddress.code
    | none => CStat.badAddress.code
  else st

theorem tendStatus_eq (s : State) (d : Nat) (h : Handle) : tendStatus s d h = tendCode s d h := by
  unfold tendStatus tendCode
  generalize s.oneStack _ = home
  cases home <;> exact (ite_not _ _ _).symm

/-- The command of `stend`. -/
def tendCmd (s : State) (d : Nat) (h : Handle) : Cmd :=
  let phys := (tendArrays d).map h.span2
  { Cmd.of .stend d with
    hs := h, hd := h, started := true, reads := phys.drop 4, writes := phys.take 4
    inHold := s.gangHolds s.me.launch s.iss.die (phys.headD (0, 0)).1 }

/-- `stend` past its card and its handle. -/
theorem actStend_eq (s : State) (a : Fin 32) (b : SSrc) (h : Fin 16) (off : Word) (d : Nat) (hb : s.srcS b = .ok off) (card : CardAt s off 64 d)
    (settled : Settled (s.regH h)) :
    actStend a b h s = (do
      require (decide (tendStatus s d (s.regH h) ≠ 0)
        || s.holdRoom s.me.launch s.iss.die (((tendArrays d).map (s.regH h).span2).headD (0, 0)).1 1) (waits .hold)
      .ok (s.issueCmd a (tendCmd s d (s.regH h)) (tendStatus s d (s.regH h)))) := by
  simp only [actStend, hb, readCard_ok s off 64 d card, needHandle_settled s _ h.val settled, except_ok_bind, Bool.false_eq_true, if_false]
  rfl

theorem tendIssue (s : State) (a : Fin 32) (b : SSrc) (h : Fin 16) (off : Word) (d : Nat) (hb : s.srcS b = .ok off) (card : CardAt s off 64 d)
    (settled : Settled (s.regH h))
    (room : tendCode s d (s.regH h) = 0 → s.holdRoom s.me.launch s.iss.die (((tendArrays d).map (s.regH h).span2).headD (0, 0)).1 1 = true) :
    ∃ t, exec (.stend a b h) s = .next t ∧ TicketTaken s t a .stend d (tendCode s d (s.regH h)) true := by
  refine ⟨_, ?_, ticketTaken_issueCmd s a (tendCmd s d (s.regH h)) (tendCode s d (s.regH h))⟩
  show resolve s (actStend a b h s) = _
  rw [actStend_eq s a b h off d hb card settled, tendStatus_eq, holds_or_refused room, require_true, except_ok_bind, resolve_ok]

/-! ### sfold and sflush (R331, R333, R334) -/

/-- The command of a fold. -/
def foldCmd (flush : Bool) (d : Nat) (h : Handle) : Cmd :=
  { Cmd.of (if flush then .sflush else .sfold) d with hs := h, hd := h, started := true, writes := [h.span2 (foldRun d)] }

/-- The message that an accepted fold sends: s is the state before the issue of its command, u the state after (R333, R334; log 42). -/
def foldMessage (s u : State) (flush : Bool) (d : Nat) (h : Handle) : FoldMsg :=
  { no := u.sent
    id := { addr := (h.span2 (foldRun d)).1, len := field d 119 96, bf16 := decide (field d 123 120 = 5), nrank := field d 159 144 }
    launch := u.me.launch, det := u.myLaunch.det, cmd := some s.issued, isFlush := flush
    inHold := s.gangHolds s.me.launch s.iss.die (h.span2 (foldRun d)).1
    src := winAddr (u.modId u.iss.die) u.iss.die u.iss.core + u.me.spadBase + field d 87 64
    part := { rank := field d 143 128, data := [], task := u.iss.task, ticket := u.me.live.ticket, claim := h.claim } }

/-- The messages that a fold with a status sends. -/
def foldSends (s u : State) (flush : Bool) (d : Nat) (h : Handle) (status : Status) : List FoldMsg :=
  if status = 0 then [foldMessage s u flush d h] else []

/-- The messages of a fold go out beside its command. -/
def foldSent (s u : State) (msgs : List FoldMsg) : State := { u with foldMsgs := s.foldMsgs ++ msgs, sent := u.sent + msgs.length }

theorem foldFits_iff (s : State) (flush : Bool) (x : Nat) :
    (!(flush || decide (x ≤ s.me.spadSize))) = true ↔ flush = false ∧ s.me.spadSize < x := by
  cases flush <;> simp

/-- The status of a fold as the model finds it. -/
theorem foldStatus_eq (s : State) (flush : Bool) (d : Nat) (h : Handle) :
    (if badFoldCard flush d then CStat.badCard.code
      else if !(flush || decide (field d 87 64 + 4 * field d 119 96 ≤ s.me.spadSize)) then CStat.badBounds.code
      else s.stackStatus h [foldRun d] false) = foldCode s flush d h := by
  simp only [foldFits_iff]
  rfl

/-- A fold past its card and its handle. -/
theorem foldOp_eq (s : State) (flush : Bool) (a : Fin 32) (b : SSrc) (h : Fin 16) (off : Word) (d : Nat) (hb : s.srcS b = .ok off)
    (card : CardAt s off 64 d) (settled : Settled (s.regH h))
    (room : foldCode s flush d (s.regH h) = 0 → s.holdRoom s.me.launch s.iss.die ((s.regH h).span2 (foldRun d)).1
      (if flush then 1 else (4 * (d / 2 ^ 96 % 2 ^ 24) + 63) / 64) = true) :
    let u := s.issueCmd a (foldCmd flush d (s.regH h)) (foldCode s flush d (s.regH h))
    foldOp flush a b h s = .ok (foldSent s u (foldSends s u flush d (s.regH h) (foldCode s flush d (s.regH h)))) := by
  intro u
  have msgs : u.foldMsgs = s.foldMsgs := issueCmd_foldMsgs s a _ _
  have held : (decide (foldCode s flush d (s.regH h) ≠ 0) || s.holdRoom s.me.launch s.iss.die ((s.regH h).span2 (foldRun d)).1
      (if flush then 1 else (4 * field d 119 96 + 63) / 64)) = true := holds_or_refused room
  simp only [foldOp, hb, readCard_ok s off 64 d card, needHandle_settled s _ h.val settled, except_ok_bind, Bool.false_eq_true, if_false,
    foldStatus_eq, held, require_true]
  by_cases ok : foldCode s flush d (s.regH h) = 0
  · rw [foldSends, if_pos ok, if_neg (not_not.2 ok), foldSent, ← msgs]
    rfl
  · rw [foldSends, if_neg ok, if_pos ok, foldSent, List.append_nil, ← msgs]
    rfl

/-- The message of an accepted fold says what its card says, and whose it is. -/
theorem foldMessage_says (s u : State) (flush : Bool) (a : Fin 32) (d : Nat) (h : Handle) (kind : CmdKind) (card status : Nat)
    (taken : TicketTaken s u a kind card status true) : let m := foldMessage s u flush d h
    m.isFlush = flush ∧ m.launch = s.me.launch ∧ m.det = s.myLaunch.det ∧ m.part.rank = d / 2 ^ 128 % 2 ^ 16 ∧ m.id.nrank = d / 2 ^ 144 % 2 ^ 16
      ∧ m.id.len = d / 2 ^ 96 % 2 ^ 24 ∧ (m.id.bf16 = true ↔ d / 2 ^ 120 % 2 ^ 4 = 5) ∧ m.part.task = s.iss.task
      ∧ m.part.ticket = s.me.live.ticket + 1 := by
  obtain ⟨frame, me, _⟩ := taken
  have launch : u.me.launch = s.me.launch := by rw [me]
  have ticket : u.me.live.ticket = s.me.live.ticket + 1 := by rw [me]
  have launches : u.launch = s.launch := by rw [frame]; rfl
  have task : u.iss.task = s.iss.task := by rw [frame]; rfl
  have det : u.myLaunch.det = s.myLaunch.det := by rw [State.myLaunch, launches, launch]; rfl
  exact ⟨rfl, launch, det, rfl, rfl, rfl, decide_eq_true_iff, task, ticket⟩

/-- The two folds by their common rule. -/
theorem foldIssue (s : State) (flush : Bool) (a : Fin 32) (b : SSrc) (h : Fin 16) (off : Word) (d : Nat) (hb : s.srcS b = .ok off)
    (card : CardAt s off 64 d) (settled : Settled (s.regH h))
    (room : foldCode s flush d (s.regH h) = 0 → s.holdRoom s.me.launch s.iss.die ((s.regH h).span2 (foldRun d)).1
      (if flush then 1 else (4 * (d / 2 ^ 96 % 2 ^ 24) + 63) / 64) = true) :
    let code := foldCode s flush d (s.regH h)
    let u := s.issueCmd a (foldCmd flush d (s.regH h)) code
    let msgs := foldSends s u flush d (s.regH h) code
    resolve s (foldOp flush a b h s) = .next (foldSent s u msgs)
      ∧ TicketTaken s u a (if flush then .sflush else .sfold) d code true := by
  intro code u msgs
  exact ⟨congrArg (resolve s) (foldOp_eq s flush a b h off d hb card settled room), ticketTaken_issueCmd s a (foldCmd flush d (s.regH h)) code⟩

/-- Settles O7: a stack command takes its ticket with its status, and an accepted fold sends its one message. -/
theorem stackIssue : Obligations.StackIssue := by
  intro s a b h off d hb card settled
  refine ⟨tendIssue s a b h off d hb card settled, fun p hp room => ?_⟩
  have run : exec p.1 s = resolve s (foldOp p.2.2 a b h s) ∧ p.2.1 = (if p.2.2 then CmdKind.sflush else .sfold) := by
    simp only [List.mem_cons, List.not_mem_nil, or_false] at hp
    obtain rfl | rfl := hp <;> exact ⟨rfl, rfl⟩
  obtain ⟨sends, taken⟩ := foldIssue s p.2.2 a b h off d hb card settled room
  rw [← run.2] at taken
  refine ⟨_, _, run.1.trans sends, taken, fun refused => if_neg refused, fun ok => ⟨_, if_pos ok, ?_⟩⟩
  exact foldMessage_says s _ p.2.2 a d (s.regH h) _ _ _ taken

end Sys2Proof.Machine
end

section
/-! SUPPORT. The scan of `qscl`, and the reports of `cwait` and `cstat` (R313, R314, R316, R338, R362). -/

set_option Elab.async false

namespace Sys2Proof.Machine

open Stated

/-! ### Scans (R316, R362) -/

/-- The status with which `qscl` is accepted or refused (R306, R315, R316). -/
def scanStatus (s : State) (d : Nat) (h : Handle) : Status :=
  if (viewOf d).assayBad || !(viewOf d).isFloat then CStat.badCard.code else s.assayStatus (viewOf d) h none

/-- `qscl` whose word the engine has not returned, past its card and its handle. -/
theorem actQscl_issue (s : State) (a : Fin 32) (b : SSrc) (hs : Fin 16) (fmt : QsclFmt) (off : Word) (d : Nat) (hb : s.srcS b = .ok off)
    (card : CardAt s off 64 d) (open_ : smFind s.me.cReply s.iss.cPort = none) (settled : Settled (s.regH hs)) :
    actQscl a b hs fmt s = if scanStatus s d (s.regH hs) = 0 then
        waitsOn (.scan { port := s.iss.cPort, desc := d, h := s.regH hs, fmt := fmt,
                         ranges := s.hoistRanges ((viewOf d).arrays.map (s.regH hs).span2) }) .engine
      else .ok (s.resC a (qsclBad (scanStatus s d (s.regH hs)))) := by
  simp only [actQscl, open_, hb, readCard_ok s off 64 d card, needHandle_settled s _ hs.val settled, except_ok_bind, Bool.false_eq_true, if_false]
  rfl

theorem scanResult : Stated.ScanResult := by
  intro s a b hs fmt
  refine ⟨fun v reply => ⟨_, ?_, resultC_resC _ a _⟩, fun off d hb card open_ settled => ⟨fun accepted => ?_, fun refused => ?_⟩⟩
  · show resolve s (actQscl a b hs fmt s) = _
    simp only [actQscl, reply]
    rfl
  · have issue := (actQscl_issue s a b hs fmt off d hb card open_ settled).trans (if_pos accepted)
    exact ⟨{ port := s.iss.cPort, desc := d, h := s.regH hs, fmt := fmt, order := s.issued,
             ranges := s.hoistRanges ((viewOf d).arrays.map (s.regH hs).span2) },
      congrArg (resolve s) issue, rfl, rfl, rfl, rfl, rfl, rfl⟩
  · have issue := (actQscl_issue s a b hs fmt off d hb card open_ settled).trans (if_neg refused)
    exact ⟨_, congrArg (resolve s) issue, resultC_resC s a _⟩

/-! ### The failure record (R313, R314) -/

/-- The lower of the record so far and a failure. -/
def lowerFailure (a : Option Failure) (f : Failure) : Option Failure :=
  match a with
  | some x => if f.ticket < x.ticket then some f else some x
  | none => some f

theorem record_eq (t : Task) : t.record = t.failures.foldl lowerFailure none := rfl

theorem lowerFailure_least (x z : Failure) :
    ∃ w, lowerFailure (some x) z = some w ∧ (w = x ∨ w = z) ∧ w.ticket ≤ x.ticket ∧ w.ticket ≤ z.ticket := by
  by_cases lower : z.ticket < x.ticket
  · exact ⟨z, if_pos lower, .inr rfl, lower.le, le_rfl⟩
  · exact ⟨x, if_neg lower, .inl rfl, le_rfl, not_lt.1 lower⟩

/-- Of a list that is not empty, a failure with the lowest ticket is left. -/
theorem foldl_lowerFailure (l : List Failure) (x : Failure) :
    ∃ w ∈ x :: l, l.foldl lowerFailure (some x) = some w ∧ ∀ y ∈ x :: l, w.ticket ≤ y.ticket := by
  induction l generalizing x with
  | nil => exact ⟨x, List.mem_singleton_self x, rfl, by simp⟩
  | cons z l ih =>
    obtain ⟨v, step, from_, below, below'⟩ := lowerFailure_least x z
    obtain ⟨w, mem, run, least⟩ := ih v
    have lowest := List.forall_mem_cons.1 least
    refine ⟨w, ?_, by rw [List.foldl_cons, step, run], ?_⟩
    · rcases List.mem_cons.1 mem with rfl | mem
      · rcases from_ with rfl | rfl <;> simp
      · exact List.mem_cons_of_mem _ (List.mem_cons_of_mem _ mem)
    · exact List.forall_mem_cons.2 ⟨lowest.1.trans below, List.forall_mem_cons.2 ⟨lowest.1.trans below', lowest.2⟩⟩

theorem record_none (t : Task) (h : t.failures = []) : t.record = none := by rw [record_eq, h]; rfl

/-- A task that has failures has a record, and no failure has a lower ticket. -/
theorem record_least (t : Task) (h : t.failures ≠ []) :
    ∃ w ∈ t.failures, t.record = some w ∧ ∀ y ∈ t.failures, w.ticket ≤ y.ticket := by
  obtain ⟨x, l, failures⟩ := List.exists_cons_of_ne_nil h
  rw [record_eq, failures]
  exact foldl_lowerFailure l x

/-- A failure whose ticket is below all others' is the record. -/
theorem record_lowest (t : Task) (f : Failure) (mem : f ∈ t.failures) (lowest : ∀ y ∈ t.failures, y ≠ f → f.ticket < y.ticket) :
    t.record = some f := by
  obtain ⟨w, mem', record, least⟩ := record_least t (List.ne_nil_of_mem mem)
  by_cases same : w = f
  · rw [record, same]
  · exact absurd (least f mem) (lowest w mem' same).not_ge

theorem record_isSome (t : Task) : t.record.isSome = decide (t.failures ≠ []) := by
  by_cases h : t.failures = []
  · rw [record_none t h, h]; rfl
  · obtain ⟨w, _, record, _⟩ := record_least t h
    rw [record, decide_eq_true h]; rfl

/-! ### cwait (R313) -/

/-- The failures that a report with a bound leaves. -/
def unreported (t : Task) (x : Word) : List Failure :=
  match t.reported x with
  | some f => t.failures.filter fun y => y.ticket ≠ f.ticket
  | none => t.failures

/-- The scope of the acquire: .mod where a ticket at or below the bound wrote another die's memory (R313). -/
def reportScope (t : Task) (x : Word) : Scope := if t.farTickets.any (fun n => decide (n ≤ x.toNat)) then .mod else .die

theorem acquired_me (s : State) (sc : Scope) : (acquired s sc).me = s.me := by cases sc <;> rfl

/-- The state in which `cwait` gives its result: the record and the late flag are cleared, and the acquire is done. -/
def reportTaken (s : State) (x : Word) : State :=
  acquired (s.modMe fun t => { t with late := false, failures := unreported s.me x }) (reportScope s.me x)

theorem reportTaken_failures (s : State) (x : Word) : (reportTaken s x).me.failures = unreported s.me x := by
  rw [reportTaken, acquired_me, State.me_modMe]

theorem actCwait_done (s : State) (a : Fin 32) (b : SSrc) (x : Word) (hb : s.srcS b = .ok x) (done : s.ticketsDone x = true) :
    actCwait a b s = .ok ((reportTaken s x).resC a (BitVec.ofNat 64 (recordWord (s.me.reported x) 0 + ofFlag s.me.late * 2 ^ 8))) := by
  simp only [actCwait, hb, done, require_true, except_ok_bind]
  rw [reportTaken, ← acquire_eq]
  rfl

theorem actCwait_waits (s : State) (a : Fin 32) (b : SSrc) (x : Word) (hb : s.srcS b = .ok x) (left : s.ticketsDone x = false) :
    actCwait a b s = waits (.tickets (min x.toNat s.iss.snap.ticket)) := by
  simp only [actCwait, hb, left, require_false, except_ok_bind]
  rfl

theorem reported_none (t : Task) (x : Word) (h : t.failures = []) : t.reported x = none := by
  rw [Task.reported, record_none t h]; rfl

theorem reported_lowest (t : Task) (x : Word) (f : Failure) (mem : f ∈ t.failures) (lowest : ∀ y ∈ t.failures, y ≠ f → f.ticket < y.ticket)
    (bound : f.ticket ≤ x.toNat ∨ x = 0) : t.reported x = some f := by
  rw [Task.reported, record_lowest t f mem lowest, Option.filter_some, if_pos (by simpa using bound)]

/-! ### cstat (R314) -/

/-- The two low bits of the word of `cstat`: CODE and TICKET stand above them. -/
theorem cstatWord_low (r : Option Failure) (done : Bool) :
    let w := BitVec.ofNat 64 (recordWord r 8 + ofFlag r.isSome * 2 + ofFlag done)
    w.getLsbD 0 = done ∧ w.getLsbD 1 = r.isSome := by
  have word : recordWord r 8 % 4 = 0 := by
    cases r with
    | none => rfl
    | some f => simp only [recordWord]; omega
  have some_lt := ofFlag_lt r.isSome
  have done_lt := ofFlag_lt done
  have low : (recordWord r 8 + ofFlag r.isSome * 2 + ofFlag done) % 2 = ofFlag done % 2 := by omega
  have high : (recordWord r 8 + ofFlag r.isSome * 2 + ofFlag done) / 2 % 2 = ofFlag r.isSome % 2 := by omega
  constructor
  · rw [BitVec.getLsbD_ofNat, Nat.testBit_eq_decide_div_mod_eq, pow_zero, Nat.div_one, low]
    cases done <;> rfl
  · rw [BitVec.getLsbD_ofNat, Nat.testBit_eq_decide_div_mod_eq, pow_one, high]
    cases r <;> rfl

theorem ticketReports : Stated.TicketReports := by
  intro s a b x hb
  refine ⟨fun done => ?_, fun left => congrArg (resolve s) (actCwait_waits s a b x hb left), ?_⟩
  · have failures := reportTaken_failures s x
    have result := resultC_resC (reportTaken s x) a (BitVec.ofNat 64 (recordWord (s.me.reported x) 0 + ofFlag s.me.late * 2 ^ 8))
    refine ⟨reportTaken s x, _, congrArg (resolve s) (actCwait_done s a b x hb done), by rw [failures]; rfl, fun none => ?_,
      fun f mem lowest bound _ => ?_⟩
    · have reported := reported_none s.me x none
      refine ⟨by rw [failures, unreported, reported, none], ?_⟩
      rw [reported] at result ⊢
      convert result using 1
      cases s.me.late <;> rfl
    · have reported := reported_lowest s.me x f mem lowest bound
      refine ⟨by rw [failures, unreported, reported], ?_⟩
      rw [reported] at result ⊢
      convert result using 2
      cases s.me.late <;> simp [recordWord, ofFlag]
  · refine ⟨_, _, ?_, resultC_resC s a (BitVec.ofNat 64 (recordWord s.me.record 8 + ofFlag s.me.record.isSome * 2 + ofFlag (s.ticketsDone x))), ?_⟩
    · show resolve s (actCstat a b s) = _
      simp only [actCstat, hb, except_ok_bind]
      rfl
    · obtain ⟨low, high⟩ := cstatWord_low s.me.record (s.ticketsDone x)
      exact ⟨low, high.trans (record_isSome s.me)⟩

/-- Settles O28: the scan by what its engine has returned, and the reports by the failure with the lowest ticket. -/
theorem ticketsAndScans : Obligations.TicketsAndScans := ⟨scanResult, ticketReports⟩

end Sys2Proof.Machine
end

section
/-! SUPPORT. Taking a trap, the return from a handler, and the end of a task by program (R342, R343, R346, R349 to R351). -/

set_option Elab.async false

namespace Sys2Proof.Machine

open Stated

/-! ### S24 to S31 -/

theorem getElem_setTop_high (r : Regs) (v : Vector Word 8) (k : Fin 8) : (r.setTop v).s[24 + k.val] = v[k] := by
  have written (l : List (Fin 8)) (x : Vector Word 32) :
      (l.foldl (fun (x : Vector Word 32) j => x.set (24 + j.val) v[j]) x)[24 + k.val] = if k ∈ l then v[k] else x[24 + k.val] := by
    induction l generalizing x with
    | nil => rfl
    | cons j l ih => rw [List.foldl_cons, ih, Vector.getElem_set]; grind
  exact (written _ _).trans (if_pos (List.mem_finRange k))

theorem getElem_setTop_low (r : Regs) (v : Vector Word 8) (k : Fin 32) (low : k.val < 24) : (r.setTop v).s[k] = r.s[k] := by
  have apart (l : List (Fin 8)) (x : Vector Word 32) : (l.foldl (fun (x : Vector Word 32) j => x.set (24 + j.val) v[j]) x)[k] = x[k] := by
    induction l generalizing x with
    | nil => rfl
    | cons j l ih => exact (ih _).trans (Vector.getElem_set_ne _ _ (by omega))
  exact apart _ _

theorem rdS_setTop_low (r : Regs) (v : Vector Word 8) (k : Fin 32) (low : k.val < 24) : (r.setTop v).rdS k = r.rdS k := by
  simp only [Regs.rdS, getElem_setTop_low r v k low]

theorem rdS_setTop_high (r : Regs) (v : Vector Word 8) (k : Fin 32) (high : 24 ≤ k.val) :
    (r.setTop v).rdS k = v[k.val - 24]'(by omega) := by
  have place : 24 + (k.val - 24) = k.val := by omega
  have read := getElem_setTop_high r v ⟨k.val - 24, by omega⟩
  simp only [place] at read
  rw [Regs.rdS, if_neg (by rintro rfl; exact absurd high (by decide))]
  exact read

theorem getElem_top (r : Regs) (k : Fin 8) : r.top[k] = r.s[24 + k.val] := by
  simp [Regs.top]

/-- Two updates of a task are one. -/
theorem State.modTask_modTask (s : State) (i : Nat) (f g : Task → Task) : (s.modTask i f).modTask i g = s.modTask i fun t => g (f t) := by
  show (s.modTask i f).setTask i (g ((s.modTask i f).task i)) = _
  rw [State.task_modTask_same]
  exact State.setTask_setTask _ _ _ _

/-! ### Taking a trap (R342, R343, R346) -/

/-- The task of a trap past the loss of its latches. -/
def latchesLost (t : Task) : Task := { t with latches := {}, stallSince := none }

/-- The state that a trap finds: task i is rolled back, but for USER_TRAP. -/
def trapRolled (s : State) (i : Nat) (r : TrapRec) : State := if decide (r.code = 0x14) then s else s.rollback i

/-- The state in which the record of a trap is made. -/
def trapState (s : State) (i : Nat) (r : TrapRec) : State := (trapRolled s i r).modTask i latchesLost

theorem trapState_task (s : State) (i : Nat) (r : TrapRec) : (trapState s i r).task i = latchesLost ((trapRolled s i r).task i) :=
  State.task_modTask_same _ _ _

/-- The registers with which a handler starts at h. -/
def handlerRegs (g : Regs) (r : TrapRec) (rec8 : Vector Word 8) (h : Nat) : Regs :=
  { g.setTop rec8 with stash := g.top, hnd := true, hse := decide (r.code = 0x19), yieldCount := 0, pc := h }

/-- The record of a trap of a task in the state in which it is made. -/
def recordIn (u : State) (i : Nat) (r : TrapRec) (slot half fpc : Nat) : Vector Word 8 :=
  trapRecord r (decide (r.code = 0x14)) slot half (u.task i).live.pc fpc (u.time (u.task i).die)

/-- The state in which task i stands before its handler at h, but for the commit. -/
def atHandler (u : State) (i : Nat) (r : TrapRec) (slot half fpc h : Nat) : State :=
  u.modTask i fun t => { t with live := handlerRegs t.live r (recordIn u i r slot half fpc) h }

section TakeTrap

variable {s : State} {i : Nat} {r : TrapRec} {slot half fpc : Nat}

/-- Taking a trap, by the handler of the launch and HND. -/
theorem takeTrap_eq : s.takeTrap i r slot half fpc =
    match ((trapState s i r).launch ((trapState s i r).task i).launch).handler, ((trapState s i r).task i).live.hnd with
    | some h, false => (atHandler (trapState s i r) i r slot half fpc h).commit i
    | _, _ => (trapState s i r).endTask i r.code true := rfl

theorem takeTrap_handled {h : Nat} (handler : ((trapRolled s i r).launch ((trapRolled s i r).task i).launch).handler = some h)
    (outside : ((trapRolled s i r).task i).live.hnd = false) :
    s.takeTrap i r slot half fpc = (atHandler (trapState s i r) i r slot half fpc h).commit i := by
  have task := trapState_task s i r
  have handler' : ((trapState s i r).launch ((trapState s i r).task i).launch).handler = some h := by rw [task]; exact handler
  have outside' : ((trapState s i r).task i).live.hnd = false := by rw [task]; exact outside
  rw [takeTrap_eq, handler', outside']

theorem takeTrap_unhandled (ends : ((trapRolled s i r).launch ((trapRolled s i r).task i).launch).handler = none
    ∨ ((trapRolled s i r).task i).live.hnd = true) :
    s.takeTrap i r slot half fpc = (trapState s i r).endTask i r.code true := by
  have task := trapState_task s i r
  rw [takeTrap_eq]
  rcases ends with absent | inside
  · have absent' : ((trapState s i r).launch ((trapState s i r).task i).launch).handler = none := by rw [task]; exact absent
    rw [absent']
  · have inside' : ((trapState s i r).task i).live.hnd = true := by rw [task]; exact inside
    rw [inside']
    split
    · contradiction
    · rfl

end TakeTrap

/-- The task of a trap as its handler starts. -/
theorem atHandler_commit_task (s : State) (i : Nat) (r : TrapRec) (slot half fpc h : Nat) :
    let u := trapRolled s i r
    let g := handlerRegs (u.task i).live r (recordIn u i r slot half fpc) h
    ((atHandler (trapState s i r) i r slot half fpc h).commit i).task i =
      { u.task i with latches := {}, stallSince := none, live := g, dup := g, withheld := [], shadow := [], shadowBad := [] } := by
  simp only [State.commit_task_same, atHandler, State.task_modTask_same, recordIn, trapState_task]
  rfl

theorem atHandler_withheld (s : State) (i : Nat) (r : TrapRec) (slot half fpc h : Nat) :
    ((atHandler (trapState s i r) i r slot half fpc h).task i).withheld = ((trapRolled s i r).task i).withheld := by
  simp only [atHandler, State.task_modTask_same, trapState_task]
  rfl

theorem rdS_handlerRegs_low (g : Regs) (r : TrapRec) (rec8 : Vector Word 8) (h : Nat) (k : Fin 32) (low : k.val < 24) :
    (handlerRegs g r rec8 h).rdS k = g.rdS k := rdS_setTop_low g rec8 k low

theorem rdS_handlerRegs_high (g : Regs) (r : TrapRec) (rec8 : Vector Word 8) (h : Nat) (k : Fin 32) (high : 24 ≤ k.val) :
    (handlerRegs g r rec8 h).rdS k = rec8[k.val - 24]'(by omega) := rdS_setTop_high g rec8 k high

/-- The fields of S24 in a trap record (R343). -/
def RecordFields (r : TrapRec) (after : Bool) (slot half w : Nat) : Prop :=
  w % 2 ^ 8 = r.code ∧ w / 2 ^ 8 % 4 = slot ∧ w / 2 ^ 10 % 2 = half ∧ w / 2 ^ 11 % 2 = (if r.write then 1 else 0)
    ∧ w / 2 ^ 12 % 2 = (if r.asyncT then 1 else 0) ∧ w / 2 ^ 13 % 2 = (if after then 1 else 0) ∧ w / 2 ^ 14 % 2 ^ 18 = 0 ∧ w / 2 ^ 32 = r.aux

theorem recordFields_trapWord (r : TrapRec) (after : Bool) {slot half : Nat} (hc : r.code < 2 ^ 8) (hs : slot < 4) (hh : half < 2)
    (ha : r.aux < 2 ^ 32) : RecordFields r after slot half (BitVec.ofNat 64 (trapWord r after slot half)).toNat := by
  simp only [RecordFields, BitVec.toNat_ofNat, trapWord, ofFlag]
  split <;> split <;> split <;> omega

/-- Settles O56: the task of a trap with a handler is the one that its record is made of, past the entry and a commit. -/
theorem trapEntry : Obligations.TrapEntry := by
  intro s i r slot half fpc hc hs hh ha
  refine ⟨fun h handler outside => ?handled, fun ends => ?unhandled⟩
  case handled =>
    have taken : s.takeTrap i r slot half fpc = (atHandler (trapState s i r) i r slot half fpc h).commit i :=
      takeTrap_handled handler outside
    have task := atHandler_commit_task s i r slot half fpc h
    have stores := commit_stores (atHandler (trapState s i r) i r slot half fpc h) i
    have high (k : Fin 32) (le : 24 ≤ k.val) := rdS_handlerRegs_high ((trapRolled s i r).task i).live r
      (recordIn (trapRolled s i r) i r slot half fpc) h k le
    have word : RecordFields r (decide (r.code = 0x14)) slot half
        ((handlerRegs ((trapRolled s i r).task i).live r (recordIn (trapRolled s i r) i r slot half fpc) h).rdS 24).toNat := by
      rw [high 24 (by decide)]
      exact recordFields_trapWord r _ hc hs hh ha
    rw [atHandler_withheld] at stores
    rw [taken, task]
    refine ⟨rfl, rfl, rfl, rfl, rfl, rfl, fun k => getElem_top _ k, fun k low => rdS_handlerRegs_low _ _ _ _ k low, word, high 25 (by decide),
      high 26 (by decide), high 27 (by decide), high 28 (by decide), high 29 (by decide), high 30 (by decide), high 31 (by decide),
      rfl, rfl, rfl, rfl, rfl, rfl, rfl, rfl, commit_mem _ _, stores⟩
  case unhandled =>
    refine (takeTrap_unhandled ends).trans ?_
    exact State.modTask_modTask _ i _ _

/-! ### trap, resume and abort (R349 to R351) -/

/-- The registers with which a task goes on past its handler, at a target. -/
def resumedRegs (g : Regs) (keep : Bool) (target : Nat) : Regs :=
  { (if keep then g else g.setTop g.stash) with hnd := false, hse := false, yieldCount := 0, pc := target }

theorem rdS_resumedRegs (g : Regs) (keep : Bool) (target : Nat) (k : Fin 32) : (resumedRegs g keep target).rdS k
    = if h : keep = false ∧ 24 ≤ k.val then g.stash[k.val - 24]'(by omega) else g.rdS k := by
  cases keep with
  | true => rfl
  | false =>
    by_cases high : 24 ≤ k.val
    · rw [dif_pos ⟨rfl, high⟩]
      exact rdS_setTop_high g g.stash k high
    · rw [dif_neg (fun h => high h.2)]
      exact rdS_setTop_low g g.stash k (by omega)

theorem resumedRegs_eq (g : Regs) (keep : Bool) (target : Nat) : resumedRegs g keep target
    = { g with s := (resumedRegs g keep target).s, hnd := false, hse := false, yieldCount := 0, pc := target } := by
  cases keep <;> rfl

/-- The state of a task that leaves its handler, but for the commit. -/
def pastHandler (s : State) (keep : Bool) (target : Nat) : State :=
  s.modMe fun t => { t with live := resumedRegs t.live keep target, latches := {} }

section Resume

variable {s : State} {keep : Bool}

theorem actResume_outside (hnd : s.iss.snap.hnd = false) : actResume keep s = .error (.trap { code := 0x01, info := s.iss.word }) := by
  simp only [actResume, hnd, require_false]
  rfl

variable (hnd : s.iss.snap.hnd = true)
include hnd

theorem actResume_softError (hse : s.iss.snap.hse = true) : actResume keep s = .ok (s.endTask s.iss.task 0x19 true) := by
  simp only [actResume, hnd, hse, require_true, except_ok_bind, if_true]
  rfl

variable (hse : s.iss.snap.hse = false)
include hse

theorem actResume_misaligned (unaligned : (s.regS 25).toNat % 16 ≠ 0) :
    actResume keep s = .error (.trap { code := 0x08, addr := (s.regS 25).toNat }) := by
  simp only [actResume, hnd, hse, unaligned, require_true, require_false, except_ok_bind, decide_false, Bool.false_eq_true, if_false]
  rfl

theorem actResume_beyond (aligned : (s.regS 25).toNat % 16 = 0) (beyond : s.myLaunch.codeLen ≤ (s.regS 25).toNat) :
    actResume keep s = .error (.trap { code := 0x07, addr := (s.regS 25).toNat }) := by
  simp only [actResume, hnd, hse, aligned, Nat.not_lt.2 beyond, require_true, require_false, except_ok_bind, decide_true, decide_false,
    Bool.false_eq_true, if_false]
  rfl

theorem actResume_returns (aligned : (s.regS 25).toNat % 16 = 0) (inside : (s.regS 25).toNat < s.myLaunch.codeLen) :
    actResume keep s = .ok (let t := (pastHandler s keep (s.regS 25).toNat).commit s.iss.task
      { t with iss := { t.iss with taken := true, resumed := true } }) := by
  simp only [actResume, hnd, hse, aligned, inside, require_true, except_ok_bind, decide_true, Bool.false_eq_true, if_false]
  rfl

end Resume

/-- The task past its handler and the commit of `resume`. -/
theorem pastHandler_commit_me (s : State) (keep : Bool) (target : Nat) :
    let g := resumedRegs s.me.live keep target
    ((pastHandler s keep target).commit s.iss.task).task s.iss.task =
      { s.me with live := g, dup := g, latches := {}, withheld := [], shadow := [], shadowBad := [] } := by
  have task : (pastHandler s keep target).task s.iss.task = { s.me with live := resumedRegs s.me.live keep target, latches := {} } :=
    State.me_modMe s _
  rw [State.commit_task_same, task]

/-- What `resume` leaves at its target (R349). -/
theorem resume_returns {s : State} {keep : Bool} (hnd : s.iss.snap.hnd = true) (hse : s.iss.snap.hse = false)
    (aligned : (s.regS 25).toNat % 16 = 0) (inside : (s.regS 25).toNat < s.myLaunch.codeLen) :
    let dest := (s.regS 25).toNat
    ∃ t, exec (.resume keep) s = .next t ∧ t.mem = s.mem ∧ t.stores = s.stores ++ leaving s s.me.withheld
      ∧ t.me = { s.me with live := resumedRegs s.me.live keep dest, dup := resumedRegs s.me.live keep dest, latches := {}, withheld := []
                           shadow := [], shadowBad := [] } := by
  have run := congrArg (resolve s) (actResume_returns (keep := keep) hnd hse aligned inside)
  refine ⟨_, run, commit_mem _ _, ?_, ?_⟩
  · have stores := commit_stores (pastHandler s keep (s.regS 25).toNat) s.iss.task
    have task : (pastHandler s keep (s.regS 25).toNat).task s.iss.task
      = { s.me with live := resumedRegs s.me.live keep (s.regS 25).toNat, latches := {} } := State.me_modMe s _
    rw [task] at stores
    exact stores
  · have task := pastHandler_commit_me s keep (s.regS 25).toNat
    show State.task _ (State.commit _ _).iss.task = _
    rw [State.commit_iss]
    exact task

/-- Settles O8: each check of `resume` by the equation of its branch, and the return by the task past its handler. -/
theorem trapResumeAbort : Obligations.TrapResumeAbort := by
  intro s n keep a v ha
  refine ⟨rfl, ?abort, fun outside => congrArg (resolve s) (actResume_outside outside),
    fun hnd hse => congrArg (resolve s) (actResume_softError hnd hse), fun hnd hse =>
    ⟨fun unaligned => congrArg (resolve s) (actResume_misaligned hnd hse unaligned),
     fun aligned beyond => congrArg (resolve s) (actResume_beyond hnd hse aligned beyond), fun aligned inside => ?returns⟩⟩
  case abort =>
    change resolve s (actAbort a s) = _
    rw [actAbort, ha]
    rfl
  case returns =>
    obtain ⟨t, run, mem, stores, me⟩ := resume_returns (keep := keep) hnd hse aligned inside
    refine ⟨t, run, mem, stores, ?_⟩
    rw [me]
    exact ⟨rfl, rfl, rfl, rfl, rfl, resumedRegs_eq _ _ _, rdS_resumedRegs _ _ _⟩

end Sys2Proof.Machine
end

section
/-! SUPPORT. What a step answers: the meaning of every instruction and event is a next state, and a step stops only without power or
on a stray move (R338, R416, R432). -/

set_option Elab.async false

namespace Sys2Proof.Machine

/-! ### Every meaning answers a next state (R338) -/

/-- An event is a state: none of them has a trap, a wait or a refusal. -/
theorem exec_event_next (i : Instr) (s : State) (he : isEvent i = true) : ∃ t, exec i s = .next t := by
  cases i <;> cases he
  all_goals exact ⟨_, rfl⟩

/-- A short pair traps, runs its operations, or stops as one of them does (R190). -/
theorem execCw_next (x y : ShortForm) (s : State) : ∃ t, execCw x y s = .next t := by
  simp only [execCw]
  split
  · exact ⟨_, rfl⟩
  · split
    · exact ⟨_, rfl⟩
    · exact resolve_next _ _

theorem exec_next (i : Instr) (s : State) : ∃ t, exec i s = .next t := by
  cases he : isEvent i with
  | true => exact exec_event_next i s he
  | false =>
    by_cases hc : ∃ x y, i = .cw x y
    · obtain ⟨x, y, rfl⟩ := hc
      exact execCw_next x y s
    · rw [exec_eq_resolve i s he fun x y h => hc ⟨x, y, h⟩]
      exact resolve_next s _

/-! ### Every move of a module answers a next state -/

theorem settleBundle_next (r : Except (State × Stop) State) (committing yieldPt : Bool) :
    ∃ t, State.settleBundle r committing yieldPt = .next t := by
  cases r with
  | ok s => exact ⟨_, rfl⟩
  | error e => exact resolve_next e.1 (.error e.2)

theorem issueBundle_next (s : State) (w : Nat) : ∃ t, s.issueBundle w = .next t := by
  unfold State.issueBundle
  split
  · exact ⟨_, rfl⟩
  · exact settleBundle_next _ _ _

/-- A core that moves: each of its branches is a state, or the bundle that it issues. -/
theorem coreMove_next (s : State) (d c : Nat) : ∃ t, s.coreMove d c = .next t := by
  unfold State.coreMove
  extract_lets u
  split
  · exact ⟨_, rfl⟩
  · extract_lets t v
    split
    · exact ⟨_, rfl⟩
    · split
      · exact ⟨_, rfl⟩
      · split
        · exact ⟨_, rfl⟩
        · split
          · exact ⟨_, rfl⟩
          · split
            · exact ⟨_, rfl⟩
            · split
              · exact ⟨_, rfl⟩
              · exact issueBundle_next _ _

theorem move_event (s : State) (i : Instr) (he : isEvent i = true) : s.move (.event i) = andStart (exec i s) := if_pos he

theorem move_stray (s : State) (i : Instr) (he : isEvent i = false) : s.move (.event i) = .fault .strayMove := if_neg (by simp [he])

theorem move_next (s : State) (m : Move) (hm : ∀ i, m = .event i → isEvent i = true) : ∃ t, s.move m = .next t := by
  cases m with
  | bundle d c => exact coreMove_next s d c
  | event i =>
    obtain ⟨t, run⟩ := exec_next i s
    exact ⟨t.startDue t, by rw [move_event s i (hm i rfl), run]; rfl⟩
  | evict d c line => cases c <;> exact ⟨_, rfl⟩
  | tick | writeBack | elapse | bar2 | resize | rotate | upset | answer | land | moduleFault | powerCap => exact ⟨_, rfl⟩

/-! ### What the machine tries by itself is an event -/

/-- The steps of a list are events. -/
def AllEvents (l : List Instr) : Prop := ∀ i ∈ l, isEvent i = true

@[simp] theorem allEvents_nil : AllEvents [] := List.forall_mem_nil _
@[simp] theorem allEvents_cons (i : Instr) (l : List Instr) : AllEvents (i :: l) ↔ isEvent i = true ∧ AllEvents l := List.forall_mem_cons
@[simp] theorem allEvents_append (l m : List Instr) : AllEvents (l ++ m) ↔ AllEvents l ∧ AllEvents m := List.forall_mem_append

@[simp] theorem allEvents_map {α : Type} (f : α → Instr) (l : List α) : AllEvents (l.map f) ↔ ∀ a ∈ l, isEvent (f a) = true :=
  List.forall_mem_map

@[simp] theorem allEvents_flatMap {α : Type} (f : α → List Instr) (l : List α) : AllEvents (l.flatMap f) ↔ ∀ a ∈ l, AllEvents (f a) :=
  List.forall_mem_flatMap

@[simp] theorem allEvents_option {α : Type} (f : α → Instr) (o : Option α) :
    AllEvents (o.map f).toList ↔ ∀ a ∈ o, isEvent (f a) = true := by
  cases o <;> simp

theorem allEvents_coreEvents (s : State) (d c : Nat) : AllEvents (coreEvents s d c) := by
  simp [coreEvents, isEvent]

theorem allEvents_commandEvents (s : State) (n : Nat) (c : Cmd) : AllEvents (commandEvents s n c) := by
  simp [commandEvents, isEvent]

theorem allEvents_homeEvents (s : State) : AllEvents (homeEvents s) := by
  simp [homeEvents, isEvent]

theorem allEvents_taskEvents (i : Nat) (t : Task) : AllEvents (taskEvents i t) := by simp [taskEvents, isEvent]

theorem allEvents_dieEvents (s : State) (d : Nat) : AllEvents (dieEvents s d) := by simp [dieEvents, isEvent]

theorem allEvents_launchEvents (n : Nat) (l : Launch) : AllEvents (launchEvents n l) := by simp [launchEvents, isEvent]

theorem allEvents_candidates (s : State) : AllEvents s.candidates := by
  simp [State.candidates, allEvents_coreEvents, allEvents_commandEvents,
    allEvents_homeEvents, allEvents_taskEvents, allEvents_dieEvents, allEvents_launchEvents, isEvent]

/-- The messages that move by themselves are no events. -/
theorem messageMoves_ne_event (s : State) (i : Instr) : ∀ m ∈ s.messageMoves, m ≠ .event i := by
  simp only [State.messageMoves, List.forall_mem_append, List.forall_mem_map, List.mem_filterMap, Option.map_eq_some_iff]
  refine ⟨⟨?_, fun _ _ => Move.noConfusion⟩, fun _ _ => Move.noConfusion⟩
  rintro m ⟨c, _, a, _, rfl⟩
  exact Move.noConfusion

/-- With an empty agenda the machine takes an event only of its candidates. -/
theorem isEvent_defaultMove (s : State) (i : Instr) (h : s.defaultMove = .event i) : isEvent i = true := by
  unfold State.defaultMove at h
  split at h
  · cases h
  · split at h
    next j found =>
      cases h
      exact allEvents_candidates s i (List.mem_of_find?_eq_some found)
    · split at h
      · cases h
      · split at h
        next m found => exact absurd h (messageMoves_ne_event s i m (List.mem_of_find?_eq_some found))
        · split at h <;> cases h

/-! ### Steps (R432) -/

theorem step_cons (s : State) (m : Move) (rest : List Move) (agenda : s.agenda = m :: rest) (awake : s.poweredOff = false ∨ m.wakes = true) :
    step s = State.move { s with agenda := rest } m := by
  simp only [step, State.moveNext, agenda]
  rcases awake with on | wakes
  · rw [on]; rfl
  · rw [wakes, Bool.not_true, Bool.and_false]; rfl

theorem step_nil (s : State) (agenda : s.agenda = []) (on : s.poweredOff = false) : step s = s.move s.defaultMove := by
  simp only [step, State.moveNext, agenda, on]
  rfl

theorem wakes_eq_false (m : Move) (h : m ≠ .event .coldReset) : m.wakes = false := by
  cases m with
  | event i => exact decide_eq_false fun e => h (congrArg Move.event e)
  | bundle | tick | evict | writeBack | elapse | bar2 | resize | rotate | upset | answer | land | moduleFault | powerCap => rfl

/-- Without power only a cold reset is a step (R432). -/
theorem step_noPower (s : State) (off : s.poweredOff = true) (h : ∀ m ∈ s.agenda.head?, m ≠ .event .coldReset) : step s = .fault .noPower := by
  simp only [step, State.moveNext]
  cases agenda : s.agenda with
  | nil => simp only [off, if_true]
  | cons m rest =>
    have asleep := wakes_eq_false m (h m (by rw [agenda]; rfl))
    simp only [off, asleep, Bool.not_false, Bool.and_true, if_true]

/-- A step that is no event, or an event of the machine, answers a next state. -/
theorem step_next (s : State) (on : s.poweredOff = false) (h : ∀ i, s.agenda.head? = some (.event i) → isEvent i = true) :
    ∃ t, step s = .next t := by
  cases agenda : s.agenda with
  | nil => rw [step_nil s agenda on]; exact move_next s _ (isEvent_defaultMove s)
  | cons m rest =>
    rw [step_cons s m rest agenda (.inl on)]
    refine move_next _ m fun i hm => h i ?_
    rw [agenda, hm]
    rfl

/-- A step whose move is an event: the event, and then every gang that can start does (R416). -/
theorem step_event (s : State) (i : Instr) (rest : List Move) (agenda : s.agenda = .event i :: rest) (he : isEvent i = true)
    (awake : s.poweredOff = false ∨ i = .coldReset) : step s = andStart (exec i { s with agenda := rest }) := by
  rw [step_cons s _ rest agenda (awake.imp_right fun cold => decide_eq_true cold), move_event _ i he]

theorem startDue_of_no_gangs (t : State) (h : t.gangs = []) : t.startDue t = t := by
  simp only [State.startDue, h, List.length_nil, List.range_zero, List.foldl_nil]

/-- Settles O52: every event is a state by its definition, every encoded instruction an effect that is resolved, and what the machine
takes by itself is an event. -/
theorem stepOutcomes : Obligations.StepOutcomes := by
  refine ⟨exec_next, fun s i rest agenda he awake t run => ?event, step_noPower, fun s i rest on agenda he => ?stray, step_next⟩
  case event =>
    have stepped : step s = .next (t.startDue t) := by rw [step_event s i rest agenda he awake, run]; rfl
    exact ⟨stepped, fun none => by rw [stepped, startDue_of_no_gangs t none]⟩
  case stray => rw [step_cons s _ rest agenda (.inl on), move_stray _ i he]

end Sys2Proof.Machine
end

section
/-! SUPPORT. The commands of the mailbox: their completion, the cell of UNSTAKE, stamps, retirement, reports, certificates and firmware
images (R380 to R382, R403, R404, R430, R431). -/

set_option Elab.async false

namespace Sys2Proof.Machine

open Stated

/-! ### Completions (R382) -/

/-- What a completed command leaves, but for the host's own registers. -/
theorem mbDone_ends (s : State) (st : MStat) (result : Nat) : MailboxEnds (s.mbDone st result) st.code result := ⟨rfl, rfl, rfl, rfl, rfl⟩

@[simp] theorem mbDone_stamps (s : State) (st : MStat) (result : Nat) : (s.mbDone st result).host.stamps = s.host.stamps := rfl
@[simp] theorem mbDone_hostMem (s : State) (st : MStat) (result : Nat) : (s.mbDone st result).host.mem = s.host.mem := rfl
@[simp] theorem mbDone_mem (s : State) (st : MStat) (result : Nat) : (s.mbDone st result).mem = s.mem := rfl
@[simp] theorem mbDone_tag (s : State) (st : MStat) (result pa : Nat) : (s.mbDone st result).tag pa = s.tag pa := rfl
@[simp] theorem mbDone_launch (s : State) (st : MStat) (result n : Nat) : (s.mbDone st result).launch n = s.launch n := rfl

/-! ### UNSTAKE (R119, R403) -/

theorem lineOf_lineOf (pa : Nat) : lineOf (lineOf pa) = lineOf pa := by simp only [lineOf]; omega

/-- A cell that is returned to VALUE holds zeroes, and no other tag changes. -/
theorem unstakeCell_tag (s : State) (cell pa : Nat) : (s.unstakeCell cell).tag pa = if lineOf pa = lineOf cell then .value else s.tag pa := by
  have tags : ((s.putOutside cell 64 0).freeClaim cell).tag pa = s.tag pa := by
    rw [State.tag, freeClaim_frame]
    show smGet _ (s.putOutside cell 64 0).tags _ = _
    simp only [State.putOutside]
    split <;> rfl
  rw [State.unstakeCell, tag_setTag, tags]

theorem unstakeCell_mem (s : State) (cell : Nat) : (s.unstakeCell cell).mem = memWrite s.mem cell 64 0 := by
  show ((s.putOutside cell 64 0).freeClaim cell).mem = _
  rw [freeClaim_frame]
  exact putOutside_mem s cell 64 0

section Unstake

variable {s : State} {addr : Word} (asked : Asked s 4 [addr]) (reach : addr.toNat < 2 ^ 42)
include asked reach

/-- UNSTAKE of an address on the module, by whether the cell may be returned. -/
theorem exec_mbUnstake : exec (.mbUnstake addr) s =
    let cell := lineOf (globalOf (s.modId 0) addr.toNat)
    .next (if s.inClaimSeg cell ∧ (s.tag cell = .staked ∨ s.tag cell = .failed) then (s.unstakeCell cell).mbDone .ok else s.mbDone .claimState) := by
  obtain ⟨holds, spare⟩ := asked
  have spare' : s.mbSpare 1 = true := spare
  show execMbUnstake addr s = _
  simp only [execMbUnstake, holds, spare', Nat.not_le.2 reach, Bool.not_true, Bool.false_eq_true, if_false]
  rfl

end Unstake

/-- Settles O10: the command by its one test, and the cell by what its return to VALUE writes. -/
theorem mailboxUnstake : Obligations.MailboxUnstake := by
  intro s addr asked reach
  have run := exec_mbUnstake asked reach
  refine ⟨fun claimed stakedOrFailed => ⟨_, run.trans (congrArg _ (if_pos ⟨claimed, stakedOrFailed⟩)), mbDone_ends _ _ _, ?_, ?_, fun pa other => ?_⟩,
    fun refused => ⟨_, run.trans (congrArg _ (if_neg ?_)), mbDone_ends _ _ _, rfl, rfl⟩⟩
  · rw [mbDone_tag, unstakeCell_tag, if_pos rfl]
  · exact bytesAre_memWrite _ _ _ _ _ ((mbDone_mem _ _ _).trans (unstakeCell_mem _ _))
  · rw [mbDone_tag, unstakeCell_tag, lineOf_lineOf, if_neg other]
  · rintro ⟨claimed, tag⟩
    rcases refused with no | value | working
    · rw [no] at claimed; exact Bool.false_ne_true claimed
    · rw [value] at tag; simp at tag
    · rw [working] at tag; simp at tag

/-! ### CERTIFY, UNSTAMP and the end of an unstamping (R380, R381) -/

section Certify

variable {s : State} {base len list count : Word} (asked : Asked s 1 [base, len, list, count]) (hbase : base.toNat < 2 ^ 42)
  (hlist : list.toNat < 2 ^ 42) (hcount : count.toNat ≤ 1024)

/-- The entry list of a certification. -/
def entryList (s : State) (list count : Word) : List Nat :=
  (List.range count.toNat).map fun k => s.entryAt (globalOf (s.modId 0) list.toNat + 4 * k)

/-- What a certification of an image finds. -/
def certFound (s : State) (base len list count : Word) : Option (Nat × Nat) :=
  s.certFault (globalOf (s.modId 0) base.toNat) len.toNat (entryList s list count) (s.die 0).yieldLimit

/-- The stamp of an image that keeps the rules. -/
def stampGiven (s : State) (base len list count : Word) : Stamp :=
  { valid := true, base := base.toNat, len := len.toNat,
    digest := sha256 (bytesOf (s.bytes (globalOf (s.modId 0) base.toNat) len.toNat) len.toNat)
    limit := (s.die 0).yieldLimit, entries := entryList s list count }

include asked hbase hlist hcount

theorem exec_certify_broken {rule k : Nat} (found : certFound s base len list count = some (rule, k)) :
    exec (.certify base len list count) s = .next (s.mbDone .cert (rule + k * 16)) := by
  have found' : s.certFault (s.here base.toNat) len.toNat ((List.range count.toNat).map fun k => s.entryAt (s.here list.toNat + 4 * k))
    (s.die 0).yieldLimit = some (rule, k) := found
  show execCertify base len list count s = _
  simp only [execCertify, asked.1, found', Nat.not_le.2 hbase, Nat.not_le.2 hlist, Nat.not_lt.2 hcount, Bool.not_true, Bool.false_eq_true,
    or_self, if_false]

theorem exec_certify_stamps {i : Nat} (found : certFound s base len list count = none) (free : s.host.freeStamp = some i) :
    exec (.certify base len list count) s = .next (State.mbDone { s with host := { s.host with
      stamps := smPut s.host.stamps i (stampGiven s base len list count) } } .ok i) := by
  have found' : s.certFault (s.here base.toNat) len.toNat ((List.range count.toNat).map fun k => s.entryAt (s.here list.toNat + 4 * k))
    (s.die 0).yieldLimit = none := found
  show execCertify base len list count s = _
  simp only [execCertify, asked.1, found', free, Nat.not_le.2 hbase, Nat.not_le.2 hlist, Nat.not_lt.2 hcount, Bool.not_true,
    Bool.false_eq_true, or_self, if_false]
  rfl

end Certify

section Unstamp

variable {s : State} {idx : Word} (asked : Asked s 2 [idx])
include asked

theorem exec_unstamp : exec (.unstamp idx) s = .next (if (smGet {} s.host.stamps idx.toNat : Stamp).valid then
    { s with host := { s.host with mailbox := { s.host.mailbox with unstamping := some idx.toNat } } } else s.mbDone .noStamp) := by
  obtain ⟨holds, spare⟩ := asked
  have spare' : s.mbSpare 1 = true := spare
  show execUnstamp idx s = _
  simp only [execUnstamp, holds, spare', Bool.not_true, Bool.false_eq_true, if_false]
  cases (smGet {} s.host.stamps idx.toNat : Stamp).valid <;> rfl

end Unstamp

theorem exec_unstampComplete {s : State} {i : Nat} (waits : s.host.mailbox.unstamping = some i) (unused : s.stampCount i = 0) :
    exec (.unstampComplete i) s = .next (State.mbDone { s with host := { s.host with stamps := smErase s.host.stamps i } } .ok) := by
  show execUnstampComplete i s = _
  simp only [execUnstampComplete, waits, unused, ne_eq, not_true_eq_false, or_self, if_false]

theorem stampCommands : StampCommands := by
  intro s base len list count idx
  refine ⟨fun asked hbase hlist hcount => ⟨fun rule k found => ?broken, fun i found free => ?stamped⟩, fun asked => ⟨fun invalid => ?absent, fun valid => ?waits⟩,
    fun waits unused => ⟨_, exec_unstampComplete waits unused, mbDone_ends _ _ _, rfl⟩⟩
  case broken => exact ⟨_, exec_certify_broken asked hbase hlist hcount found, mbDone_ends _ _ _, rfl⟩
  case stamped =>
    exact ⟨_, stampGiven s base len list count, exec_certify_stamps asked hbase hlist hcount found free, mbDone_ends _ _ _, rfl, rfl, rfl, rfl,
      rfl, rfl⟩
  case absent =>
    have run := exec_unstamp asked
    rw [invalid] at run
    exact ⟨_, run, mbDone_ends _ _ _⟩
  case waits =>
    have run := exec_unstamp asked
    rwa [valid] at run

/-! ### RETIRE (R381, R404) -/

section Retire

variable {s : State} {die launch : Word} (asked : Asked s 3 [die, launch]) (hdie : die.toNat < 8) (hlaunch : launch.toNat < 65536)
  (whole : (s.die die.toNat).contained = false)
include asked hdie hlaunch whole

theorem exec_retire : exec (.retire die launch) s = .next (match s.launchNamed die.toNat launch.toNat with
    | some n => ((s.retireLaunch n).modLaunch n fun l => { l with byDriver := true }).mbDone .ok
    | none => s.mbDone .noLaunch) := by
  obtain ⟨holds, spare⟩ := asked
  have spare' : s.mbSpare 2 = true := spare
  show execRetire die launch s = _
  simp only [execRetire, holds, spare', whole, Nat.not_le.2 hdie, Nat.not_le.2 hlaunch, Bool.not_true, Bool.false_eq_true, or_self, if_false]
    <;> rfl

end Retire

theorem retireCommand : RetireCommand := by
  intro s die launch n asked hdie hlaunch whole
  have run := exec_retire asked hdie hlaunch whole
  refine ⟨fun named => ?retires, fun unnamed => ?absent⟩
  case retires =>
    rw [named] at run
    refine ⟨_, run, mbDone_ends _ _ _, ?_⟩
    rw [mbDone_launch, State.launch_modLaunch_same, launch_retireLaunch, if_pos rfl]
  case absent =>
    rw [unnamed] at run
    exact ⟨_, run, mbDone_ends _ _ _, rfl⟩

/-! ### ATTEST, GETCERT and FWUPDATE (R430, R431) -/

/-- Bytes written to host memory are read back. -/
theorem memByte_hostPut (s : State) (a : Nat) (l : List Byte) (k : Nat) (hk : k < l.length) :
    memByte (s.hostPut a l).host.mem (a + k) = l.getD k 0 := by
  show memByte (memWrite s.host.mem a l.length _) (a + k) = _
  rw [memByte_memWrite, if_pos (by omega), Nat.add_sub_cancel_left, byteAt_ofLanes]

/-- The report of an attestation with its signature (R431). -/
def signedReport (s : State) (nonceAddr : Word) (salt : BitVec 256) : List Byte :=
  let body := s.report (BitVec.ofNat 256 (memRead s.host.mem nonceAddr.toNat 32))
  body ++ (bytesOf (Config.signature salt body).toNat 384).reverse

theorem exec_attest {s : State} {report nonceAddr : Word} (salt : BitVec 256) (asked : Asked s 5 [report, nonceAddr])
    (aligned : report.toNat % 64 = 0) :
    exec (.attest report nonceAddr salt) s = .next ((s.hostPut report.toNat (signedReport s nonceAddr salt)).mbDone .ok) := by
  obtain ⟨holds, spare⟩ := asked
  have spare' : s.mbSpare 2 = true := spare
  show execAttest report nonceAddr salt s = _
  simp only [execAttest, holds, spare', aligned, ne_eq, not_true_eq_false, Bool.not_true, Bool.false_eq_true, if_false]
  rfl

theorem exec_getcert {s : State} {addr len : Word} (asked : Asked s 6 [addr, len]) (fits : Config.certChain.length ≤ len.toNat) :
    exec (.getcert addr len) s = .next ((s.hostPut addr.toNat Config.certChain).mbDone .ok Config.certChain.length) := by
  obtain ⟨holds, spare⟩ := asked
  have spare' : s.mbSpare 2 = true := spare
  show execGetcert addr len s = _
  simp only [execGetcert, holds, spare', Nat.not_lt.2 fits, Bool.not_true, Bool.false_eq_true, if_false]

/-- A verified image: it goes to flash, unless its version is too low. -/
theorem exec_fwupdate {s : State} {addr len : Word} (asked : Asked s 7 [addr, len]) (reach : addr.toNat < 2 ^ 42)
    (clean : s.poisoned (globalOf (s.modId 0) addr.toNat) len.toNat = false)
    (verifies : Config.imageVerifies (bytesOf (memRead s.mem (globalOf (s.modId 0) addr.toNat) len.toNat) len.toNat) = true) :
    exec (.fwupdate addr len) s =
      let img := bytesOf (memRead s.mem (globalOf (s.modId 0) addr.toNat) len.toNat) len.toNat
      .next (if (Config.imageVersion img).toNat < Config.fusedVersion.toNat then s.mbDone .version
        else State.mbDone { s with flashImage := some img } .ok) := by
  obtain ⟨holds, spare⟩ := asked
  have spare' : s.mbSpare 2 = true := spare
  have clean' : s.poisoned (s.here addr.toNat) len.toNat = false := clean
  have verifies' : Config.imageVerifies (bytesOf (s.bytes (s.here addr.toNat) len.toNat) len.toNat) = true := verifies
  show execFwupdate addr len s = _
  simp only [execFwupdate, holds, spare', clean', verifies', Nat.not_le.2 reach, Bool.not_true, Bool.or_self, Bool.false_eq_true, if_false]
  rfl

theorem identityCommands : IdentityCommands := by
  intro s a b salt
  refine ⟨fun asked aligned => ⟨_, signedReport s b salt, exec_attest salt asked aligned, mbDone_ends _ _ _, rfl, rfl, memByte_hostPut s _ _⟩,
    fun asked fits => ⟨_, exec_getcert asked fits, mbDone_ends _ _ _, memByte_hostPut s _ _⟩, fun asked reach clean verifies => ?_⟩
  have run := exec_fwupdate asked reach clean verifies
  exact ⟨fun high => ⟨_, run.trans (congrArg _ (if_neg (Nat.not_lt.2 high))), mbDone_ends _ _ _, rfl⟩,
    fun low => ⟨_, run.trans (congrArg _ (if_pos low)), mbDone_ends _ _ _, rfl⟩⟩

/-- Settles O42: each command past its checks is one state with the completion of R382. -/
theorem mailboxEvents : Obligations.MailboxEvents := ⟨stampCommands, retireCommand, identityCommands⟩

end Sys2Proof.Machine
end

section
/-! SUPPORT. Walks and page faults, the revocation of frames, migrations and page-outs (R93, R389, R390, R393 to R395). -/

set_option Elab.async false

namespace Sys2Proof.Machine

open Stated

/-! ### Table entries (R389) -/

theorem byteAt_zero_bit (v : Nat) : (byteAt v 0).getLsbD 0 = flag v 0 := by
  rw [byteAt, BitVec.getLsbD_ofNat, Nat.testBit_eq_decide_div_mod_eq, flag]
  simp only [Nat.mul_zero, pow_zero, Nat.div_one]
  exact (beq_eq_decide _ _).symm

/-- The lowest bit of a value that memory holds is that of its first byte. -/
theorem memByte_low_bit (m : Mem) (hm : Mem.wf m = true) (a : Nat) : (memByte m a).getLsbD 0 = flag (memRead m a 8) 0 := by
  rw [← byteAt_zero_bit, byteAt_memRead m hm a 8 0 (by decide)]
  rfl

/-- A leaf word with its accessed bit set. -/
def accessed (x : Nat) : Nat := if flag x 0 then x else x + 1

theorem flag_accessed (x : Nat) : flag (accessed x) 0 = true := by
  unfold accessed
  split
  next set => exact set
  next clear =>
    simp only [flag, pow_zero, Nat.div_one, beq_iff_eq] at clear ⊢
    omega

theorem leafFrame_accessed (x : Nat) : leafFrame (accessed x) = leafFrame x := by
  unfold accessed
  split
  next => rfl
  next clear =>
    simp only [flag, pow_zero, Nat.div_one, beq_iff_eq] at clear
    simp only [leafFrame, field]
    omega

theorem entryKind_saved (w frame : Nat) (hw : w < 2 ^ 64) :
    let x := setField (setField w 51 8 frame) 2 1 3
    x < 2 ^ 64 ∧ entryKind x = 3 := by
  simp only [entryKind, setField, field]
  omega

/-! ### Walks (R390) -/

/-- The word of the leaf that ends a walk is that of its entry in memory. -/
theorem walkFrom_leaf (s : State) (module off fuel level node : Nat) (seen : List Nat) {e l x : Nat} {r : List Nat}
    (h : s.walkFrom module off fuel level node seen = (.leaf e l x, r)) : x = s.bytes e 8 := by
  induction fuel generalizing level node seen with
  | zero => cases h
  | succ fuel ih =>
    simp only [State.walkFrom] at h
    split at h
    · cases h
    · split at h
      · cases h
      · split at h
        · cases h
        · cases h
        · split at h
          · cases h
          · exact ih _ _ _ h
        · split at h
          · cases h
          · split at h
            · cases h
            · split at h <;> cases h
              rfl

theorem walk_leaf (s : State) (launch seg off : Nat) {e l x : Nat} {r : List Nat} (h : s.walk launch seg off = (.leaf e l x, r)) :
    x = s.bytes e 8 := by
  unfold State.walk at h
  extract_lets g at h
  split at h
  · cases h
  · exact walkFrom_leaf s _ _ _ _ _ _ h

/-- The entries that a walk has read are marked as nodes of its launch (R391). -/
def walkRead (s : State) (w : Walk) (seen : List Nat) : State :=
  { s with nodes := seen.foldl (fun l e => if l.contains (e / 65536, w.launch) then l else l ++ [(e / 65536, w.launch)]) s.nodes }

/-- The accessed bit of a leaf set in memory. -/
def leafAccessed (s : State) (e x : Nat) : State := if flag (s.bytes e 8) 0 then s else s.putBytes e 8 (accessed x)

/-- What a walk leaves that ends at a leaf. -/
def walkFills (s : State) (w : Walk) (e level x : Nat) : State :=
  let t := ((leafAccessed s e x).fillAll w.die w.launch w.seg w.off level (accessed x)).cacheLeaf w.die w.launch w.seg w.off level (accessed x)
  { t with walks := t.walks.filter fun y =>
    !(decide (y.die = w.die) && decide (y.launch = w.launch) && decide (y.seg = w.seg) && decide (y.off / pageSize level = w.off / pageSize level)) }

theorem walkFills_mem (s : State) (w : Walk) (e level x : Nat) :
    (walkFills s w e level x).mem = if flag (s.bytes e 8) 0 then s.mem else memWrite s.mem e 8 (accessed x) := by
  show (leafAccessed s e x).mem = _
  unfold leafAccessed
  split <;> rfl

theorem walkFills_caches (s : State) (w : Walk) (e level x : Nat) :
    (w.launch, w.seg, w.off / pageSize level * pageSize level, decide (level = 1), accessed x) ∈ ((walkFills s w e level x).die w.die).tlb := by
  show _ ∈ ((State.cacheLeaf _ w.die w.launch w.seg w.off level (accessed x)).die w.die).tlb
  rw [State.cacheLeaf, State.die_modDie_same]
  exact List.mem_append_right _ (List.mem_singleton.2 rfl)

theorem walkFills_ends (s : State) (w : Walk) (e level x : Nat) : w ∉ (walkFills s w e level x).walks := by
  intro mem
  simpa using (List.mem_filter.1 mem).2

section Walks

variable {s : State} {n : Nat} {w : Walk} (found : s.walks[n]? = some w)
include found

theorem walkComplete_leaf (open_ : w.faulted = false) (alive : w.dead = false) (slot : s.walkPlace n w < 32) {e level x : Nat} {seen : List Nat}
    (ends : s.walk w.launch w.seg w.off = (.leaf e level x, seen)) :
    exec (.walkComplete n) s = .next (walkFills (walkRead s w seen) w e level x) := by
  have slot' : ¬ walkSlots ≤ s.walkPlace n w := Nat.not_le.2 slot
  show execWalkComplete n s = _
  simp only [execWalkComplete, found, open_, alive, slot', ends, Bool.false_eq_true, or_self, if_false]
  rfl

theorem walkComplete_fault (open_ : w.faulted = false) (alive : w.dead = false) (slot : s.walkPlace n w < 32) {e level x : Nat} {seen : List Nat}
    (ends : s.walk w.launch w.seg w.off = (.fault e level x, seen)) :
    exec (.walkComplete n) s = .next { walkRead s w seen with walks := s.walks.set n { w with faulted := true } } := by
  have slot' : ¬ walkSlots ≤ s.walkPlace n w := Nat.not_le.2 slot
  show execWalkComplete n s = _
  simp only [execWalkComplete, found, open_, alive, slot', ends, Bool.false_eq_true, or_self, if_false]
  rfl

/-- The repeat of a walk whose entry firmware has written, where nothing has to be restored. -/
theorem pageFaultResolve_writes {e level x : Nat} {seen : List Nat} {entry : Word} (faulted : w.faulted = true)
    (ends : s.walk w.launch w.seg w.off = (.fault e level x, seen)) (absent : entryKind x = 0)
    (kind : entryKind entry.toNat = 1 ∨ entryKind entry.toNat = 2) :
    let s0 : State := { s with walks := s.walks.set n { w with faulted := false } }
    exec (.pageFaultResolve n entry) s = .next (s0.noteAreas (s0.putOutside e 8 entry.toNat)) := by
  have notSaved : ¬ entryKind x = 3 := by omega
  have allowed : ¬ (entryKind entry.toNat ≠ 1 ∧ entryKind entry.toNat ≠ 2) := by omega
  show execPageFaultResolve n entry s = _
  simp only [execPageFaultResolve, found, faulted, ends, notSaved, allowed, decide_false, Bool.and_false, Bool.false_and, Bool.not_true,
    Bool.false_eq_true, ne_eq, not_true_eq_false, or_self, if_false]

end Walks

theorem putOutside_walks (s : State) (pa n v : Nat) : (s.putOutside pa n v).walks = s.walks := by
  unfold State.putOutside
  extract_lets t
  split <;> rfl

theorem logEvent_walks (s : State) (e : LogEvent) : (s.logEvent e).walks = s.walks := by
  obtain ⟨l, v, logged⟩ := s.logEvent_eq e
  rw [logged]
  rfl

theorem walkEvents : WalkEvents := by
  intro s n w wf found
  have memWf : Mem.wf s.mem = true := ((memWf_iff s).1 wf).1
  refine ⟨fun open_ alive slot => ⟨fun e level x seen ends => ?leaf, fun e level x seen ends =>
    ⟨_, walkComplete_fault found open_ alive slot ends, rfl, rfl⟩⟩, fun e level x seen entry faulted ends absent kind => ?resolve⟩
  case leaf =>
    have word : (walkRead s w seen).bytes e 8 = x := (walk_leaf s _ _ _ ends).symm
    have mem := walkFills_mem (walkRead s w seen) w e level x
    rw [word] at mem
    refine ⟨_, accessed x, walkComplete_leaf found open_ alive slot ends, ?_, fun a outside => ?_, walkFills_caches _ _ _ _ _,
      leafFrame_accessed x, walkFills_ends _ _ _ _ _⟩
    · rw [mem]
      split
      next set => exact (memByte_low_bit _ memWf _).trans ((congrArg (flag · 0) word).trans set)
      next => rw [memByte_memWrite, if_pos (by omega), Nat.sub_self, byteAt_zero_bit, flag_accessed]
    · rw [mem]
      split
      next => rfl
      next => rw [memByte_memWrite, if_neg outside]; rfl
  case resolve =>
    refine ⟨_, pageFaultResolve_writes found faulted ends absent kind, bytesAre_memWrite _ _ _ _ _ ?_, ?_⟩
    · rw [noteAreas_mem, putOutside_mem]
    · rw [noteAreas_keeps (·.walks) logEvent_walks, putOutside_walks]

/-! ### Revocation (R93, R393) -/

/-- A task that loses its handles into a frame, with no store withheld. -/
def handlesLost (frame size : Nat) (t : Task) : Task :=
  { t.revoke frame size with revokedOut := if t.status = .swapped then t.revokedOut ++ [(frame, size)] else t.revokedOut }

/-- No core withholds a store for a task. -/
def NoneWithheld (s : State) : Prop := ∀ i, (s.task i).withheld = []

theorem revokeTask_eq {s : State} (idle : NoneWithheld s) (i frame size : Nat) :
    s.revokeTask i frame size = s.modTask i (handlesLost frame size) := by
  simp only [State.revokeTask, idle i, List.any_nil, Bool.false_eq_true, if_false]
  rfl

theorem Handle.revoke_revoke (frame size : Nat) (h : Handle) : (h.revoke frame size).revoke frame size = h.revoke frame size := by
  simp only [Handle.revoke]
  split
  next => rw [if_neg (by simp)]
  next => rfl

theorem mapH_revoke_twice (frame size : Nat) (r : Regs) :
    (r.mapH (Handle.revoke frame size)).mapH (Handle.revoke frame size) = r.mapH (Handle.revoke frame size) := by
  simp only [Regs.mapH, Vector.map_map]
  congr 2
  funext h
  exact Handle.revoke_revoke frame size h

/-- What the revocation of a frame for some tasks leaves: the tasks alone change, and each of those has lost its handles into the frame. -/
structure TasksRevoked (s : State) (l : List Nat) (frame size : Nat) (t : State) : Prop where
  rest : t = { s with tasks := t.tasks }
  idle : NoneWithheld t
  live : ∀ i, (t.task i).live = if i ∈ l then (s.task i).live.mapH (Handle.revoke frame size) else (s.task i).live

theorem tasksRevoked_foldl (frame size : Nat) (l : List Nat) (s : State) (idle : NoneWithheld s) :
    TasksRevoked s l frame size (l.foldl (fun s i => s.revokeTask i frame size) s) := by
  induction l generalizing s with
  | nil => exact ⟨rfl, idle, fun i => by simp⟩
  | cons j l ih =>
    have task (i : Nat) : ((s.modTask j (handlesLost frame size)).task i) = if i = j then handlesLost frame size (s.task j) else s.task i := by
      split
      next same => rw [same, State.task_modTask_same]
      next other => exact State.task_modTask_other _ _ _ _ other
    have idle' : NoneWithheld (s.modTask j (handlesLost frame size)) := fun i => by
      rw [task i]
      split
      · exact idle j
      · exact idle i
    obtain ⟨rest, idle'', live⟩ := ih _ idle'
    rw [List.foldl_cons, revokeTask_eq idle]
    refine ⟨rest, idle'', fun i => ?_⟩
    rw [live i, task i]
    by_cases same : i = j
    · subst same
      rw [if_pos rfl, if_pos List.mem_cons_self]
      split
      · exact mapH_revoke_twice frame size _
      · rfl
    · simp only [List.mem_cons, same, false_or, if_false]

/-- The tasks of a core that a revocation reaches. -/
def revokedTasks (s : State) (d c : Nat) : List Nat :=
  s.tasksWith fun _ t => decide (t.die = d) && decide (t.core = c) && decide (t.status ≠ .ended)

/-- A core whose posted relays have lost their handles into a frame. -/
def relaysLost (frame size : Nat) (x : Core) : Core :=
  { x with relays := x.relays.map fun r =>
    if r.2.state = .posted ∨ r.2.state = .armed then
      (r.1, { r.2 with hs := r.2.hs.revoke frame size, hd := r.2.hd.revoke frame size })
    else r }

/-- What the revocation of a frame on a core leaves: tasks and cores alone change. -/
structure CoreRevoked (s : State) (d c frame size : Nat) (t : State) : Prop where
  rest : t = { s with tasks := t.tasks, cores := t.cores }
  idle : NoneWithheld t
  live : ∀ i, (t.task i).live = if i ∈ revokedTasks s d c then (s.task i).live.mapH (Handle.revoke frame size) else (s.task i).live

theorem coreRevoked_revokeCore {s : State} (idle : NoneWithheld s) (d c frame size : Nat) :
    CoreRevoked s d c frame size (s.revokeCore d c frame size) := by
  obtain ⟨rest, idle', live⟩ := tasksRevoked_foldl frame size (revokedTasks s d c) s idle
  refine ⟨?_, idle', live⟩
  have run : s.revokeCore d c frame size
    = (List.foldl (fun s i => s.revokeTask i frame size) s (revokedTasks s d c)).modCore d c (relaysLost frame size) := rfl
  rw [run, rest]
  rfl

theorem Handle.revoke_of_inside {h : Handle} {frame size : Nat} (valid : h.valid = true) (loose : h.pinned = false)
    (lo : frame ≤ h.pa.toNat) (hi : h.pa.toNat < frame + size) : h.revoke frame size = { h with valid := false, revoked := true } :=
  if_pos (by simp [valid, loose, inFrame, lo, hi])

/-- A handle of a revoked task that led into the frame (R93). -/
theorem getElem_mapH_revoke (r : Regs) (frame size : Nat) (k : Fin 16) : (r.mapH (Handle.revoke frame size)).h[k] = r.h[k].revoke frame size :=
  Vector.getElem_map _ _

theorem mem_revokedTasks {s : State} {d c i : Nat} (listed : (i, s.task i) ∈ s.tasks) (die : (s.task i).die = d) (core : (s.task i).core = c)
    (alive : (s.task i).status ≠ .ended) : i ∈ revokedTasks s d c := by
  refine List.mem_map.2 ⟨(i, s.task i), List.mem_filter.2 ⟨listed, ?_⟩, rfl⟩
  simp only [die, core, decide_true, Bool.true_and, decide_eq_true_eq]
  exact alive

/-- The migrations of a frame that core c of die d has acknowledged. -/
def acknowledged (s : State) (d c frame : Nat) : State :=
  { s with migrations := s.migrations.map fun x => if x.src = frame then { x with waitCores := x.waitCores.filter (· ≠ (d, c)) } else x }

theorem acknowledged_waits (s : State) (d c frame : Nat) : ∀ x ∈ (acknowledged s d c frame).migrations, x.src = frame → (d, c) ∉ x.waitCores := by
  intro x mem src
  obtain ⟨y, _, rfl⟩ := List.mem_map.1 mem
  split at src
  next here => simp [here]
  next other => exact absurd src other

theorem handleRevoke_acknowledges {s : State} {d c frame : Nat} {m : Migration} (revokes : s.revoking d c frame = some m)
    (between : ∀ i, (s.core d c).issuing = some i → s.engaged i = false) (quiet : (s.revokeCore d c frame m.size).frameBusy d c frame m.size = false) :
    exec (.handleRevoke d c frame) s = .next (acknowledged (s.revokeCore d c frame m.size) d c frame) := by
  have free : (s.core d c).issuing.any s.engaged = false := by
    cases h : (s.core d c).issuing with
    | none => rfl
    | some i => exact between i h
  show execHandleRevoke d c frame s = _
  simp only [execHandleRevoke, revokes, free, quiet, Bool.false_eq_true, if_false]
  rfl

/-! ### Migrations (R394, R395) -/

section Migrate

variable {s : State} {leaf dst : Nat}

/-- A migration of the frame of a leaf as it starts. -/
def migrationOf (s : State) (leaf dst : Nat) : Migration :=
  { leaf := leaf, src := leafFrame (memRead s.mem (migLeaf leaf).1 8), dst := dst, size := (migLeaf leaf).2, waitCores := s.revokedCores }

theorem putOutside_keeps {β : Type} (p : State → β) (h1 : ∀ s m q y, p { s with mem := m, poison := q, dirty := y } = p s)
    (h2 : ∀ s l, p { s with tasks := l } = p s) (s : State) (pa n v : Nat) : p (s.putOutside pa n v) = p s := by
  unfold State.putOutside
  extract_lets t
  split
  · exact (h2 t _).trans (h1 s _ _ _)
  · exact h1 s _ _ _

/-- A migration that starts: MIG is set in the leaf, and the frame is revoked. -/
theorem migrateFrame_starts (w : Nat) (word : memRead s.mem (migLeaf leaf).1 8 = w) (present : entryKind w = 2) (still : flag w 5 = false)
    (sound : flag w 4 = false) (takes : s.frameTakes (leafFrame w) (migLeaf leaf).2 dst = true)
    (loose : s.frameFixed (leafFrame w) (migLeaf leaf).2 = false) :
    ∃ t, exec (.migrateFrame leaf dst) s = .next t ∧ t.mem = memWrite s.mem (migLeaf leaf).1 8 (w + 32)
      ∧ t.migrations = s.migrations ++ [migrationOf s leaf dst] := by
  have run : exec (.migrateFrame leaf dst) s = .next (let u := s.putOutside (migLeaf leaf).1 8 (w + 32)
      { u with
        dies := u.dies.map fun x => (x.1, { x.2 with tlb := x.2.tlb.filter fun k => !inFrame (leafFrame k.2.2.2.2) (leafFrame w) (migLeaf leaf).2 })
        migrations := u.migrations ++ [{ leaf := leaf, src := leafFrame w, dst := dst, size := (migLeaf leaf).2, waitCores := u.revokedCores }] }) := by
    have word' : s.bytes (migLeaf leaf).1 8 = w := word
    show execMigrateFrame leaf dst s = _
    simp only [execMigrateFrame, word', present, still, sound, takes, loose, ne_eq, not_true_eq_false, Bool.not_true, Bool.false_eq_true, or_self,
      if_false]
  refine ⟨_, run, putOutside_mem _ _ _ _, ?_⟩
  show (s.putOutside _ 8 _).migrations ++ [({ waitCores := (s.putOutside _ 8 _).revokedCores, .. } : Migration)] = _
  rw [putOutside_keeps (·.migrations) (fun _ _ _ _ => rfl) (fun _ _ => rfl), putOutside_keeps State.revokedCores (fun _ _ _ _ => rfl) (fun _ _ => rfl),
    migrationOf, word]

end Migrate

section Copy

variable {s : State} {n : Nat} {m : Migration} (found : s.migrations[n]? = some m) (ready : m.waitCores = [])
  (quiet : ∀ x ∈ s.cmds, anyMeet (x.reads ++ x.writes) [(m.src, m.size)] = false)

/-- The state past the copy of a frame to its first destination. -/
def frameCopied (s : State) (m : Migration) : State := (((s.dropLines m.src m.size).copyFrame m.src m.dst m.size).moveHeld m.src m.dst m.size)

include found ready quiet

theorem migrationCopy_copies : exec (.migrationCopy n []) s = .next ((frameCopied s m).endMigration m m.dst false) := by
  have free : (s.cmds.any fun c => anyMeet (c.reads ++ c.writes) [(m.src, m.size)]) = false := by
    rw [List.any_eq_false]
    intro c hc
    rw [quiet c hc]
    exact Bool.false_ne_true
  show execMigrationCopy n [] s = _
  simp only [execMigrationCopy, found, ready, free]
  rfl

end Copy

theorem endMigration_over (s : State) (m : Migration) (frame : Nat) : m ∉ (s.endMigration m frame false).migrations := by
  intro mem
  simpa using (List.mem_filter.1 mem).2

/-- The end of a migration writes its leaf entry and nothing else of memory. -/
theorem endMigration_mem (s : State) (m : Migration) (frame : Nat) : ∃ w, (s.endMigration m frame false).mem = memWrite s.mem (migLeaf m.leaf).1 8 w :=
  ⟨_, putOutside_mem _ _ _ _⟩

/-- A frame's bytes after its copy: those of the old frame. -/
theorem memByte_frameCopied (s : State) (wf : Mem.wf s.mem = true) (m : Migration) (k : Nat) (hk : k < m.size) :
    memByte (frameCopied s m).mem (m.dst + k) = memByte s.mem (m.src + k) := by
  show memByte (memWrite s.mem m.dst m.size (memRead s.mem m.src m.size)) (m.dst + k) = _
  rw [memByte_memWrite, if_pos (by omega), Nat.add_sub_cancel_left, byteAt_memRead _ wf _ _ _ hk]

theorem migrationEvents : MigrationEvents := by
  intro s leaf dst wf
  have memWf : Mem.wf s.mem = true := ((memWf_iff s).1 wf).1
  refine ⟨fun present still sound takes loose => ?starts, fun d c frame m revokes between idle quiet => ?revokes,
    fun n m found hleaf hsrc hsize hdst ready quiet apart => ?copies⟩
  case starts =>
    obtain ⟨t, run, mem, migrations⟩ := migrateFrame_starts _ rfl present still sound takes loose
    exact ⟨t, run, bytesAre_memWrite _ _ _ _ _ mem, migrations⟩
  case revokes =>
    obtain ⟨rest, _, live⟩ := coreRevoked_revokeCore idle d c frame m.size
    refine ⟨_, handleRevoke_acknowledges revokes between quiet, acknowledged_waits _ _ _ _, fun i listed die core alive k valid loose lo hi => ?_⟩
    show ((s.revokeCore d c frame m.size).task i).live.h[k] = _
    rw [live i, if_pos (mem_revokedTasks listed die core alive), getElem_mapH_revoke, Handle.revoke_of_inside valid loose lo hi]
  case copies =>
    subst hdst
    rw [← hsrc, ← hsize] at quiet
    refine ⟨_, migrationCopy_copies found ready quiet, endMigration_over _ _ _, fun k hk => ?_⟩
    obtain ⟨w, mem⟩ := endMigration_mem (frameCopied s m) m m.dst
    have entry : (migLeaf m.leaf).1 = leaf / 8 * 8 := by rw [hleaf]; rfl
    rw [← hsize] at hk apart
    rw [mem, entry, memByte_memWrite_outside _ _ _ _ _ (by omega), memByte_frameCopied s memWf m k hk, hsrc]

/-! ### Page-outs (R390, R393) -/

/-- The state in which a frame is revoked on every core. -/
def revokedEverywhere (s : State) (src size : Nat) : State := allCores.foldl (fun s k => s.revokeCore k.1 k.2 src size) s

theorem revokedEverywhere_mem {s : State} (idle : NoneWithheld s) (src size : Nat) : (revokedEverywhere s src size).mem = s.mem := by
  have fold (l : List (Nat × Nat)) (s : State) (idle : NoneWithheld s) : (l.foldl (fun s k => s.revokeCore k.1 k.2 src size) s).mem = s.mem := by
    induction l generalizing s with
    | nil => rfl
    | cons k l ih =>
      obtain ⟨rest, idle', _⟩ := coreRevoked_revokeCore idle k.1 k.2 src size
      rw [List.foldl_cons, ih _ idle', rest]
  exact fold _ _ idle

/-- The state in which no translation cache holds a page. -/
def pageDropped (u : State) (src size : Nat) : State :=
  { u with dies := u.dies.map fun x => (x.1, { x.2 with tlb := x.2.tlb.filter fun k => !inFrame (leafFrame k.2.2.2.2) src size }) }

theorem frameBusy_pageDropped (u : State) (src size d c frame n : Nat) :
    (pageDropped u src size).frameBusy d c frame n = u.frameBusy d c frame n := rfl

/-- The state past the saving of a page. -/
def pageSaved (u : State) (src save size : Nat) : State :=
  let t := (((pageDropped u src size).dropLines src size).moveBytes src save size).moveRanges src save size
  { t with saved := t.saved ++ [(save, size)] }

theorem pageSaved_mem (u : State) (src save size : Nat) : (pageSaved u src save size).mem = memWrite u.mem save size (memRead u.mem src size) :=
  putOutside_mem _ _ _ _

/-- The word of a leaf whose page is saved. -/
def savedLeaf (w save : Nat) : Nat := setField (setField w 51 8 (save / 256)) 2 1 3

theorem pageOut_saves {s : State} {leaf save n : Nat} {l : Launch} (listed : (n, l) ∈ s.launches) (alive : l.alive = true) (w : Nat)
    (word : memRead s.mem (migLeaf leaf).1 8 = w) (present : entryKind w = 2) (still : flag w 5 = false) (sound : flag w 4 = false)
    (loose : s.frameFixed (leafFrame w) (migLeaf leaf).2 = false) (room : s.swapFree n save (migLeaf leaf).2 = true) (aligned : save % 65536 = 0)
    (between : ∀ k ∈ allCores, ∀ i, (s.core k.1 k.2).issuing = some i → s.engaged i = false)
    (quiet : ∀ k ∈ allCores, (revokedEverywhere s (leafFrame w) (migLeaf leaf).2).frameBusy k.1 k.2 (leafFrame w) (migLeaf leaf).2 = false) :
    exec (.pageOut leaf save) s = .next ((pageSaved (revokedEverywhere s (leafFrame w) (migLeaf leaf).2) (leafFrame w) save (migLeaf leaf).2).putOutside
      (migLeaf leaf).1 8 (savedLeaf w save)) := by
  have word' : s.bytes (migLeaf leaf).1 8 = w := word
  have area : (s.launches.any fun x => x.2.alive && s.swapFree x.1 save (migLeaf leaf).2) = true :=
    List.any_eq_true.2 ⟨(n, l), listed, by rw [alive, room]; rfl⟩
  have free : (allCores.any fun k => (s.core k.1 k.2).issuing.any s.engaged) = false := by
    refine List.any_eq_false.2 fun k hk => ?_
    cases h : (s.core k.1 k.2).issuing with
    | none => exact Bool.false_ne_true
    | some i => rw [Option.any_some, between k hk i h]; exact Bool.false_ne_true
  have done : (allCores.any fun k => (pageDropped (revokedEverywhere s (leafFrame w) (migLeaf leaf).2) (leafFrame w) (migLeaf leaf).2).frameBusy
      k.1 k.2 (leafFrame w) (migLeaf leaf).2) = false :=
    List.any_eq_false.2 fun k hk => Bool.eq_false_iff.1 ((frameBusy_pageDropped _ _ _ _ _ _ _).trans (quiet k hk))
  show execPageOut leaf save s = _
  simp only [execPageOut, word', present, still, sound, loose, area, aligned, free, ne_eq, not_true_eq_false, Bool.not_true, Bool.false_eq_true,
    or_self, if_false]
  exact congrArg Host.Outcome.next (if_neg (Bool.eq_false_iff.1 done))

theorem pageOutEvent : PageOutEvent := by
  intro s leaf save n l wf listed alive e size w src u present still sound loose room aligned between quiet idle apart
  have memWf : Mem.wf s.mem = true := ((memWf_iff s).1 wf).1
  have lt : w < 2 ^ 64 := memRead_lt s.mem memWf e 8
  have run := pageOut_saves (leaf := leaf) listed alive w rfl present still sound loose room aligned between quiet
  have mem : (pageSaved (revokedEverywhere s src size) src save size).mem = memWrite s.mem save size (memRead s.mem src size) := by
    rw [pageSaved_mem, revokedEverywhere_mem idle]
  refine ⟨_, run, fun k hk => ?_, ?_⟩
  · rw [putOutside_mem]
    show memByte (memWrite (pageSaved (revokedEverywhere s src size) src save size).mem e 8 _) _ = _
    rw [mem, memByte_memWrite_outside _ _ _ _ _ (by omega), memByte_memWrite, if_pos (by omega), Nat.add_sub_cancel_left,
      byteAt_memRead _ memWf _ _ _ hk]
  · obtain ⟨small, kind⟩ := entryKind_saved w (save / 256) lt
    rw [putOutside_mem]
    show entryKind (memRead (memWrite _ e 8 _) e 8) = 3
    rw [memRead_memWrite_same]
    exact (congrArg entryKind (Nat.mod_eq_of_lt small)).trans kind

/-- Settles O39: walks by the word of the leaf that ends them, revocations by the handles of the tasks that they reach, and the copies of frames
and pages by the bytes that one write puts down. -/
theorem translationEvents : Obligations.TranslationEvents := ⟨walkEvents, migrationEvents, pageOutEvent⟩

end Sys2Proof.Machine
end

section
/-! SUPPORT. Gangs: what a message changes of a gang and of its descriptor, its reservation, its start, and its abort (R406, R413 to R420). -/

set_option Elab.async false

namespace Sys2Proof.Machine

open Stated

/-! ### A gang changed (R413) -/

theorem gangSet_gangSet (s : State) (g : Nat) (y z : Gang) : gangSet (gangSet s g y) g z = gangSet s g z :=
  congrArg (fun l => { s with gangs := l }) (List.set_set y)

section Changed

variable {s : State} {g : Nat} {x : Gang} (found : s.gangs[g]? = some x)
include found

/-- A change of a gang that is there replaces it. -/
theorem modGang_eq (f : Gang → Gang) : s.modGang g f = gangSet s g (f x) := by
  have list : s.gangs.modify g f = s.gangs.set g (f x) := by
    rw [List.modify_eq_set_getElem?, found]
    rfl
  exact congrArg (fun l => { s with gangs := l }) list

theorem gangSet_found (y : Gang) : (gangSet s g y).gangs[g]? = some y :=
  List.getElem?_set_self (List.getElem?_eq_some_iff.1 found).1

theorem setPhase_eq (d : Nat) (p : GPhase) : s.setPhase g d p = gangSet s g { x with phases := smPut x.phases d p } := modGang_eq found _

/-- A change of a gang that is noted in its descriptor. -/
theorem noteGang_eq (f : Gang → Gang) : s.noteGang g f = (gangSet s g (f x)).putOutside ((f x).desc + 64) 64 (f x).word := by
  have changed : (gangSet s g (f x)).gang g = some (f x) := gangSet_found found _
  rw [State.noteGang, modGang_eq found]
  simp only [changed]

end Changed

theorem phase_put (x : Gang) (d : Nat) (p : GPhase) : Gang.phase { x with phases := smPut x.phases d p } d = p := smGet_smPut_same _ _ _ _

theorem putOutside_gangs (s : State) (pa n v : Nat) : (s.putOutside pa n v).gangs = s.gangs :=
  putOutside_keeps (·.gangs) (fun _ _ _ _ => rfl) (fun _ _ => rfl) s pa n v

theorem putOutside_launch (s : State) (pa n v k : Nat) : (s.putOutside pa n v).launch k = s.launch k :=
  putOutside_keeps (·.launch k) (fun _ _ _ _ => rfl) (fun _ _ => rfl) s pa n v

/-- The descriptor of a gang in memory, after a change that is noted. -/
theorem bytesAre_noteGang {s : State} {g : Nat} {x : Gang} (found : s.gangs[g]? = some x) (f : Gang → Gang) :
    BytesAre s (s.noteGang g f) ((f x).desc + 64) 64 (f x).word := by
  rw [noteGang_eq found]
  exact bytesAre_memWrite _ _ _ _ _ (putOutside_mem _ _ _ _)

theorem noteGang_found {s : State} {g : Nat} {x : Gang} (found : s.gangs[g]? = some x) (f : Gang → Gang) :
    (s.noteGang g f).gangs[g]? = some (f x) := by
  rw [noteGang_eq found, putOutside_gangs]
  exact gangSet_found found _

theorem noteGang_launch {s : State} {g : Nat} {x : Gang} (found : s.gangs[g]? = some x) (f : Gang → Gang) (k : Nat) :
    (s.noteGang g f).launch k = s.launch k := by
  rw [noteGang_eq found]
  exact putOutside_launch _ _ _ _ _

theorem markLeaving_gangs (s : State) (d : Nat) : (s.markLeaving d).gangs = s.gangs := by
  rcases markLeaving_cases s d with h | h <;> rw [h]
  rfl

theorem markLeaving_launch (s : State) (d k : Nat) : (s.markLeaving d).launch k = s.launch k := by
  rcases markLeaving_cases s d with h | h <;> rw [h]
  rfl

theorem markLeaving_modId (s : State) (d k : Nat) : (s.markLeaving d).modId k = s.modId k := by
  rcases markLeaving_cases s d with h | h <;> rw [h]
  show ((s.shiftsOn d).die k).moduleId = _
  rw [State.shiftsOn, State.die_modDie]
  split
  next same => rw [same]; rfl
  next => rfl

/-! ### READY (R414) -/

/-- What the leader keeps of a member that reports. -/
def memberReady (s : State) (x : Gang) (m : Member) (unc : Word) (dig : BitVec 256) : Member :=
  { m with readyIn := true, unc := if s.isLocal m then (s.die m.die).timeUnc else unc, digest := if s.isLocal m then x.digest else dig }

/-- The leader's decision over all READYs: it arms the gang, or cancels it. -/
theorem checkReady_decides {s : State} {g : Nat} {x : Gang} (found : s.gangs[g]? = some x) :
    ∃ y, (s.checkReady g x).gangs[g]? = some y ∧ y.members = x.members ∧ (y.armSent = true ∨ y.cancelSent ≠ none) := by
  have cancels (cause : Nat) : ∃ y, (s.cancelOpen g cause).gangs[g]? = some y ∧ y.members = x.members ∧ (y.armSent = true ∨ y.cancelSent ≠ none) := by
    have found' : (State.gangs { s with freeCount := s.freeCount + 1 })[g]? = some x := found
    have cancelled := modGang_eq found' fun x => { x with cancelSent := some (cause, (Config.freeWord s.freeCount).toNat % 2 ^ 10,
      (Config.freeWord s.freeCount).toNat / 2 ^ 10 % 8) }
    exact ⟨_, (congrArg (fun t : State => t.gangs[g]?) cancelled).trans (gangSet_found found' _), rfl, .inr (Option.some_ne_none _)⟩
  unfold State.checkReady
  split
  · exact cancels 4
  · split
    · exact cancels 5
    · split
      · exact cancels 2
      · have arms := modGang_eq found fun x => { x with armSent := true }
        exact ⟨_, (congrArg (fun t : State => t.gangs[g]?) arms).trans (gangSet_found found _), rfl, .inl rfl⟩

section Ready

variable {s : State} {g k : Nat} {x : Gang} {m : Member} (found : s.gangs[g]? = some x) (listed : x.members[k]? = some m)
include found listed

/-- The gang past a READY. -/
def gangReadied (s : State) (x : Gang) (k : Nat) (m : Member) (unc : Word) (dig : BitVec 256) : Gang :=
  { x with members := x.members.set k (memberReady s x m unc dig) }

theorem exec_ready (hears : Hears s x) (linked : s.upWaits x m.mod m.die = false) (new : m.readyIn = false)
    (started : s.isLocal m = true → x.phase m.die ≠ .none) (unc : Word) (dig : BitVec 256) :
    exec (.ready g k unc dig) s = .next (let y := gangReadied s x k m unc dig
      if y.members.all (·.readyIn) then (gangSet s g y).checkReady g y else gangSet s g y) := by
  obtain ⟨leads, stands⟩ := hears
  have ready : (s.isLocal m && decide (x.phase m.die = .none)) = false := by
    cases here : s.isLocal m with
    | false => rfl
    | true => exact decide_eq_false (started here)
  have takes : (!s.leads x || m.readyIn || x.cancelSent.isSome || (s.isLocal m && decide (x.phase m.die = .none)) || s.upWaits x m.mod m.die) = false := by
    rw [leads, new, stands, ready, linked]
    rfl
  have gang : s.gang g = some x := found
  have changed : (gangSet s g (gangReadied s x k m unc dig)).gang g = some (gangReadied s x k m unc dig) := gangSet_found found _
  show execReady g k unc dig s = _
  simp only [execReady, gang, listed, takes, Bool.false_eq_true, if_false, modGang_eq found]
  change Host.Outcome.next (match (gangSet s g (gangReadied s x k m unc dig)).gang g with
    | some y => _
    | none => _) = _
  rw [changed]
  rfl

end Ready

/-! ### ACK and the expiry of the guard (R414) -/

section Leader

variable {s : State} {g : Nat} {x : Gang} (found : s.gangs[g]? = some x) (hears : Hears s x)
include found hears

theorem exec_ack {k : Nat} {m : Member} (listed : x.members[k]? = some m) (linked : s.upWaits x m.mod m.die = false) (armed : x.armSent = true)
    (acked : s.isLocal m = true → x.phase m.die = .acked) : exec (.ack g k) s = .next (if x.t ≤ s.time x.leadDie + x.guard then s else
      let l := x.members.set k { m with ackIn := true }
      gangSet s g { x with members := l, commitSent := x.commitSent || l.all (·.ackIn) }) := by
  obtain ⟨leads, stands⟩ := hears
  have reserved : (s.isLocal m && decide (x.phase m.die ≠ .acked)) = false := by
    cases here : s.isLocal m with
    | false => rfl
    | true => exact decide_eq_false (not_not.2 (acked here))
  have takes : (!s.leads x || !x.armSent || x.cancelSent.isSome || (s.isLocal m && decide (x.phase m.die ≠ .acked))
      || decide (x.t ≤ s.leadTime x + x.guard) || s.upWaits x m.mod m.die) = decide (x.t ≤ s.time x.leadDie + x.guard) := by
    rw [leads, armed, stands, reserved, linked, Bool.or_false]
    rfl
  have gang : s.gang g = some x := found
  show execAck g k s = _
  simp only [execAck, gang, listed, takes, decide_eq_true_eq, modGang_eq found]

theorem exec_gangGuardExpiry (uncommitted : x.commitSent = false) (expired : x.t ≤ s.time x.leadDie + x.guard) {f : Member}
    (silent : x.members.find? (fun m => !(m.readyIn && m.ackIn)) = some f) (hmod : f.mod < 2 ^ 10) (hdie : f.die < 8) :
    exec (.gangGuardExpiry g) s = .next (gangSet s g { x with cancelSent := some (1, f.mod, f.die) }) := by
  obtain ⟨leads, stands⟩ := hears
  have cancels : (!s.leads x || x.commitSent || x.cancelSent.isSome || decide (s.leadTime x + x.guard < x.t)) = false := by
    rw [leads, uncommitted, stands, decide_eq_false (Nat.not_lt.2 expired : ¬ s.leadTime x + x.guard < x.t)]
    rfl
  have gang : s.gang g = some x := found
  have origin : originWord f.mod f.die 0 % 2 ^ 10 = f.mod ∧ originWord f.mod f.die 0 / 2 ^ 10 % 8 = f.die := by
    simp only [originWord]
    omega
  show execGangGuardExpiry g s = _
  simp only [execGangGuardExpiry, gang, cancels, silent, Bool.false_eq_true, if_false, State.sendCancel, modGang_eq found, origin]

end Leader

/-! ### ARM, the end of a reservation, COMMIT: a die's phase (R414, R415) -/

section Phase

variable {s : State} {g die : Nat} {x : Gang} (found : s.gangs[g]? = some x)
include found

theorem exec_arm (linked : s.downWaits x die = false) (ready : x.phase die = .ready) (armed : s.leads x = true → x.armSent = true) :
    exec (.arm g die) s = .next ((gangSet s g { x with phases := smPut x.phases die .reserving }).markLeaving die) := by
  have gang : s.gang g = some x := found
  have sent : (!s.leads x) = true ∨ x.armSent = true := by cases h : s.leads x <;> simp_all
  show execArm g die s = _
  simp only [execArm, gang, ready, linked, sent, Bool.not_false, and_self, if_true, setPhase_eq found]

theorem exec_gangReserveComplete (reserving : x.phase die = .reserving) (reservable : s.reservable x die = true) :
    exec (.gangReserveComplete g die) s = .next ((gangSet s g { x with phases := smPut x.phases die .acked }).markLeaving die) := by
  have gang : s.gang g = some x := found
  show execGangReserveComplete g die s = _
  simp only [execGangReserveComplete, gang, reserving, reservable, and_self, if_true, setPhase_eq found]

theorem exec_commit (linked : s.downWaits x die = false) (acked : x.phase die = .acked) (sent : s.leads x = true → x.commitSent = true) :
    exec (.commit g die) s = .next (gangSet s g { x with phases := smPut x.phases die .committed }) := by
  have gang : s.gang g = some x := found
  have sent' : (!s.leads x) = true ∨ x.commitSent = true := by cases h : s.leads x <;> simp_all
  show execCommit g die s = _
  simp only [execCommit, gang, acked, linked, sent', Bool.not_false, and_self, if_true, setPhase_eq found]

end Phase

theorem gangReservation_holds : Stated.GangReservation := by
  intro s g k die x m unc dig found listed up down
  refine ⟨fun hears new started => ?ready, exec_arm found down, exec_gangReserveComplete found, fun hears armed acked => ?ack,
    fun hears uncommitted expired f silent hmod hdie => exec_gangGuardExpiry found hears uncommitted expired silent hmod hdie⟩
  case ready =>
    have run := exec_ready found listed hears up new started unc dig
    have lt : k < x.members.length := (List.getElem?_eq_some_iff.1 listed).1
    have member : (gangReadied s x k m unc dig).members[k]? = some (memberReady s x m unc dig) := List.getElem?_set_self lt
    have fields : (memberReady s x m unc dig).readyIn = true
        ∧ (s.isLocal m = false → (memberReady s x m unc dig).unc = unc ∧ (memberReady s x m unc dig).digest = dig)
        ∧ (s.isLocal m = true → (memberReady s x m unc dig).unc = (s.die m.die).timeUnc ∧ (memberReady s x m unc dig).digest = x.digest) :=
      ⟨rfl, fun away => by simp [memberReady, away], fun here => by simp [memberReady, here]⟩
    obtain ⟨ready, away, here⟩ := fields
    by_cases all : (gangReadied s x k m unc dig).members.all (·.readyIn) = true
    · obtain ⟨y, there, members, decided⟩ := checkReady_decides (gangSet_found found (gangReadied s x k m unc dig))
      exact ⟨_, y, _, run.trans (congrArg _ (if_pos all)), there, members ▸ member, ready, away, here, fun _ => decided⟩
    · exact ⟨_, _, _, run.trans (congrArg _ (if_neg all)), gangSet_found found _, member, ready, away, here, fun h => absurd h all⟩
  case ack =>
    have run := exec_ack found hears listed up armed acked
    exact ⟨fun early => run.trans (congrArg _ (if_neg (Nat.not_le.2 early))), fun late => run.trans (congrArg _ (if_pos late))⟩

/-- Settles O44: each event past its checks is one change of its gang, and the last READY is a decision of the leader. -/
theorem gangReservation : Obligations.GangReservation := gangReservation_holds

end Sys2Proof.Machine
end

section
/-! SUPPORT. The start and the abort of a gang: CANCEL, starts and their lateness, STARTED and CONFIRM, abort rounds and tokens (R415 to
R420). -/

set_option Elab.async false

namespace Sys2Proof.Machine

open Stated

/-! ### Tasks that a die never starts (R415, R416) -/

theorem releaseGang_keeps {β : Type} (p : State → β) (ht : ∀ s i f, p (State.modTask s i f) = p s) (hl : ∀ s n f, p (State.modLaunch s n f) = p s)
    (s : State) (x : Gang) (d : Nat) : p (s.releaseGang x d) = p s :=
  (fillTable_keeps p ht _ _ _).trans (foldl_keeps p _ (fun _ _ => (ht _ _ _).trans (hl _ _ _)) _ _)

/-- The state in which a die gives a gang up: its tasks have ended, and the launch is to complete with LAUNCH_GANG. -/
def gaveUp (s : State) (x : Gang) (d : Nat) : State := (s.releaseGang x d).failGang x

theorem gaveUp_gangs (s : State) (x : Gang) (d : Nat) : (gaveUp s x d).gangs = s.gangs :=
  releaseGang_keeps (·.gangs) (fun _ _ _ => rfl) (fun _ _ _ => rfl) s x d

theorem gaveUp_modId (s : State) (x : Gang) (d k : Nat) : (gaveUp s x d).modId k = s.modId k :=
  releaseGang_keeps (·.modId k) (fun _ _ _ => rfl) (fun _ _ _ => rfl) s x d

theorem modGang_launch (s : State) (g : Nat) (f : Gang → Gang) (n : Nat) : (s.modGang g f).launch n = s.launch n := rfl

theorem failGang_fails (s : State) (x : Gang) : ((s.failGang x).launch x.launch).gangFail = true := by
  rw [State.failGang, State.launch_modLaunch_same]

theorem gaveUp_found {s : State} {g : Nat} {x : Gang} (found : s.gangs[g]? = some x) (d : Nat) : (gaveUp s x d).gangs[g]? = some x := by
  rw [gaveUp_gangs, found]

/-! ### CANCEL (R415) -/

/-- The gang past CANCEL at a die. -/
def gangCancelled (x : Gang) (d cause origin : Nat) : Gang := Gang.blame { x with phases := smPut x.phases d .cancelled } cause origin

/-- The state past CANCEL at a die. -/
def cancelledAt (s : State) (g : Nat) (x : Gang) (d cause origin : Nat) : State :=
  (((gaveUp s x d).setPhase g d .cancelled).noteGang g fun x => x.blame cause origin).markLeaving d

section Cancel

variable {s : State} {g die : Nat} {x : Gang} (found : s.gangs[g]? = some x)
include found

theorem cancelledAt_found (cause origin : Nat) : (cancelledAt s g x die cause origin).gangs[g]? = some (gangCancelled x die cause origin) := by
  have there := gaveUp_found found die
  rw [cancelledAt, markLeaving_gangs, setPhase_eq there]
  exact noteGang_found (gangSet_found there _) _

theorem cancelledAt_fails (cause origin : Nat) : ((cancelledAt s g x die cause origin).launch x.launch).gangFail = true := by
  have there := gaveUp_found found die
  rw [cancelledAt, markLeaving_launch, setPhase_eq there, noteGang_launch (gangSet_found there _)]
  exact failGang_fails _ x

/-- CANCEL at a member die that is not committed, with the cause that its leader has sent. -/
theorem exec_cancel (linked : s.downWaits x die = false) (first : s.gangBehind x die = false) (member : s.hasMember x die = true)
    {cause origin : Nat} (sent : s.leads x = false ∨ ∃ o, x.cancelSent = some (cause, o))
    (before : x.phase die = .none ∨ x.phase die = .ready ∨ x.phase die = .reserving ∨ x.phase die = .acked) :
    ∃ o, exec (.cancel g die cause origin) s = .next (cancelledAt s g x die cause o) := by
  have gang : s.gang g = some x := found
  have what : ∃ o, (if s.leads x then x.cancelSent.map fun c => (c.1, c.2.1 + c.2.2 * 2 ^ 10) else some (cause, origin)) = some (cause, o) := by
    rcases sent with away | ⟨o, here⟩
    · exact ⟨origin, if_neg (by rw [away]; exact Bool.false_ne_true)⟩
    · rw [here]
      split
      · exact ⟨_, rfl⟩
      · exact ⟨_, rfl⟩
  obtain ⟨o, what⟩ := what
  refine ⟨o, ?_⟩
  have passes : s.hasMember x die = true ∧ (!s.downWaits x die) = true ∧ (!s.gangBehind x die) = true := by simp [member, linked, first]
  show execCancel g die cause origin s = _
  rcases before with phase | phase | phase | phase <;>
  · simp only [execCancel, gang, what, phase]
    exact congrArg Host.Outcome.next (if_pos passes)

end Cancel

/-! ### The start of a die, and its lateness (R416) -/

/-- The gang past the start of a die at a time. -/
def gangStarted (x : Gang) (d t : Nat) : Gang :=
  { x with phases := smPut x.phases d .started, startT := if x.startT = 0 then t else x.startT
           lateMark := x.lateMark || decide (x.t < t), mail := x.mail ++ [(d, .started)] }

/-- The state past the lateness of a die. -/
def lateAt (s : State) (g : Nat) (x : Gang) (d : Nat) : State := ((gaveUp s x d).setPhase g d .failed).markLeaving d

/-- The gang past the lateness of a die. -/
def gangLate (s : State) (x : Gang) (d : Nat) : Gang :=
  Gang.ask d 3 (2 ^ 64) (originWord (s.modId d) d 0) { x with phases := smPut x.phases d .failed }

section Start

variable {s : State} {g die : Nat} {x : Gang} (found : s.gangs[g]? = some x) (committed : x.phase die = .committed)
include found

theorem startGang_found (t : Nat) : (s.startGang g die t).gangs[g]? = some (gangStarted x die t) := by
  rw [State.startGang, setPhase_eq found]
  exact noteGang_found (gangSet_found found _) _

theorem startGang_bytes (t : Nat) : BytesAre s (s.startGang g die t) (x.desc + 64) 64 (gangStarted x die t).word := by
  rw [State.startGang, setPhase_eq found]
  exact bytesAre_noteGang (gangSet_found found _) _

include committed

theorem exec_gangStart (reserved : s.reserved_ x die = true) (due : x.t ≤ s.time die) (early : s.time die ≤ x.t + x.w) :
    exec (.gangStart g die) s = .next (s.startGang g die (s.time die)) := by
  have gang : s.gang g = some x := found
  show execGangStart g die s = _
  simp only [execGangStart, gang, committed, reserved, Nat.not_lt.2 due, Nat.not_lt.2 early, ne_eq, not_true_eq_false, Bool.not_true,
    Bool.false_eq_true, or_self, if_false]

theorem exec_gangLateExpiry (late : x.t + x.w < s.time die) : exec (.gangLateExpiry g die) s =
    .next ((lateAt s g x die).modGang g (Gang.ask die 3 (2 ^ 64) (originWord ((lateAt s g x die).modId die) die 0))) := by
  have gang : s.gang g = some x := found
  show execGangLateExpiry g die s = _
  simp only [execGangLateExpiry, gang, committed, Nat.not_le.2 late, ne_eq, not_true_eq_false, or_self, if_false]
  rfl

omit committed

theorem lateAt_found : (lateAt s g x die).gangs[g]? = some { x with phases := smPut x.phases die .failed } := by
  have there := gaveUp_found found die
  rw [lateAt, markLeaving_gangs, setPhase_eq there]
  exact gangSet_found there _

theorem lateAt_modId : (lateAt s g x die).modId die = s.modId die := by
  rw [lateAt, markLeaving_modId, setPhase_eq (gaveUp_found found die)]
  exact gaveUp_modId s x die die

theorem lateAt_fails : ((lateAt s g x die).launch x.launch).gangFail = true := by
  rw [lateAt, markLeaving_launch, setPhase_eq (gaveUp_found found die)]
  exact failGang_fails _ x

theorem gangLate_found : ((lateAt s g x die).modGang g (Gang.ask die 3 (2 ^ 64) (originWord ((lateAt s g x die).modId die) die 0))).gangs[g]?
    = some (gangLate s x die) := by
  rw [modGang_eq (lateAt_found found), lateAt_modId found]
  exact gangSet_found (lateAt_found found) _

end Start

/-! ### STARTED and CONFIRM (R417) -/

/-- The gang past STARTED of a member. -/
def gangHeard (s : State) (x : Gang) (k : Nat) (m : Member) : Gang :=
  { x with members := x.members.set k { m with startedIn := true }, mail := if s.isLocal m then x.mail.erase (m.die, .started) else x.mail }

section Confirm

variable {s : State} {g k die : Nat} {x : Gang} {m : Member} (found : s.gangs[g]? = some x)
include found

theorem exec_started (listed : x.members[k]? = some m) (linked : s.upWaits x m.mod m.die = false) (leads : s.leads x = true)
    (sent : x.commitSent = true) (started : s.isLocal m = true → x.phase m.die = .started ∧ x.mailLate m.die .started = false) :
    exec (.started g k) s = .next (let y := gangHeard s x k m
      gangSet s g (if y.members.all (·.startedIn) && x.round.isNone && x.dropped.isEmpty then { y with confirmSent := true } else y)) := by
  have inOrder : (s.isLocal m && (decide (x.phase m.die ≠ .started) || x.mailLate m.die .started)) = false := by
    cases here : s.isLocal m with
    | false => rfl
    | true =>
      obtain ⟨phase, mail⟩ := started here
      rw [mail, phase]
      rfl
  have takes : (!s.leads x || !x.commitSent || (s.isLocal m && (decide (x.phase m.die ≠ .started) || x.mailLate m.die .started))
      || s.upWaits x m.mod m.die) = false := by
    rw [leads, sent, inOrder, linked]
    rfl
  have gang : s.gang g = some x := found
  have changed : (gangSet s g (gangHeard s x k m)).gang g = some (gangHeard s x k m) := gangSet_found found _
  show execStarted g k s = _
  simp only [execStarted, gang, listed, takes, Bool.false_eq_true, if_false, modGang_eq found]
  change Host.Outcome.next (match (gangSet s g (gangHeard s x k m)).gang g with
    | some y => _
    | none => _) = _
  rw [changed]
  refine congrArg Host.Outcome.next ?_
  show (if _ then State.modGang _ g _ else _) = gangSet s g (if _ then _ else _)
  rw [modGang_eq (gangSet_found found _), gangSet_gangSet]
  exact (apply_ite (gangSet s g) _ _ _).symm

theorem exec_confirm (linked : s.downWaits x die = false) (started : x.phase die = .started) (kept : die ∉ x.dropped)
    (sent : s.leads x = true → x.confirmSent = true) :
    exec (.confirm g die) s = .next (s.noteGang g fun x => { x with confirmed := setInsert x.confirmed die }) := by
  have gang : s.gang g = some x := found
  have passes : x.phase die = .started ∧ (!x.dropped.contains die) = true ∧ ((!s.leads x) = true ∨ x.confirmSent = true)
      ∧ (!s.downWaits x die) = true := by
    refine ⟨started, by simpa using kept, ?_, by rw [linked]; rfl⟩
    cases leads : s.leads x with
    | false => exact .inl rfl
    | true => exact .inr (sent leads)
  show execConfirm g die s = _
  simp only [execConfirm, gang]
  exact congrArg Host.Outcome.next (if_pos passes)

end Confirm

theorem hasMember_of_listed {s : State} {x : Gang} {k : Nat} {m : Member} (listed : x.members[k]? = some m) (here : s.isLocal m = true) :
    s.hasMember x m.die = true :=
  List.any_eq_true.2 ⟨m, List.mem_of_getElem? listed, by rw [here, decide_eq_true rfl]; rfl⟩

theorem gangStarts_holds : Stated.GangStarts := by
  intro s g k die cause org x m found listed up down
  refine ⟨exec_commit found down, fun sent here same before first => ?cancel, fun committed reserved due early => ?start, fun committed late => ?late,
    fun leads sent started => exec_started found listed up leads sent started, fun started kept sent => ?confirm⟩
  case cancel =>
    obtain ⟨o, run⟩ := exec_cancel (origin := org) found down first (same ▸ hasMember_of_listed listed here) sent before
    exact ⟨_, gangCancelled x die cause o, run, cancelledAt_found found cause o, phase_put x die .cancelled, rfl, cancelledAt_fails found cause o⟩
  case start =>
    exact ⟨_, gangStarted x die (s.time die), exec_gangStart found committed reserved due early, startGang_found found _, phase_put x die .started, rfl,
      startGang_bytes found _⟩
  case late =>
    refine ⟨_, gangLate s x die, exec_gangLateExpiry found committed late, gangLate_found found, phase_put x die .failed, ?_, ?_⟩
    · rw [modGang_launch]
      exact lateAt_fails found
    · simp only [gangLate, Gang.ask, originWord, Nat.zero_mul, Nat.add_zero]
  case confirm =>
    refine ⟨_, { x with confirmed := setInsert x.confirmed die }, exec_confirm found down started kept sent, noteGang_found found _, ?_,
      bytesAre_noteGang found _⟩
    exact (mem_setInsert _ _ _).2 (.inl rfl)

/-- Settles O59: each event past its checks is one change of its gang, noted in the descriptor where the spec writes it. -/
theorem gangStarts : Obligations.GangStarts := gangStarts_holds

end Sys2Proof.Machine
end

section
/-! SUPPORT. The abort of a gang: requests, FREEZE and its replies, and TOKEN (R418 to R420). -/

set_option Elab.async false

namespace Sys2Proof.Machine

open Stated

/-! ### An abort request opens a round (R419) -/

/-- The gang past an abort request of a die that opens a round. -/
def gangAborting (x : Gang) (cause key org : Nat) : Gang :=
  { x with requests := x.requests.erase (cause, key, org), mail := x.mail.erase (org / 2 ^ 10 % 8, .request cause key org), round := some (cause, key, org)
           members := x.members.map fun m => { m with reply := none, frozen := none } }

theorem join_opens {x : Gang} (idle : x.round = none) (cause key org : Nat) : x.join cause key org
    = { x with round := some (cause, key, org), members := x.members.map fun m => { m with reply := none, frozen := none } } := by
  simp only [Gang.join, idle]

section Round

variable {s : State} {g : Nat} {x : Gang} (found : s.gangs[g]? = some x)
include found

theorem exec_gangAbort {cause key org : Nat} (hears : Hears s x) (mailed : org % 2 ^ 10 = s.modId 0 → (cause, key, org) ∈ x.requests
      ∧ x.unheard (org / 2 ^ 10 % 8) = false ∧ x.mailLate (org / 2 ^ 10 % 8) (.request cause key org) = false)
    (linked : s.upWaits x (org % 2 ^ 10) (org / 2 ^ 10 % 8) = false) (idle : x.round = none) :
    exec (.gangAbort g cause key org) s = .next (gangSet s g (gangAborting x cause key org)) := by
  obtain ⟨leads, stands⟩ := hears
  have inOrder : (decide (org % 2 ^ 10 = s.modId 0) && (!x.requests.contains (cause, key, org) || x.unheard (org / 2 ^ 10 % 8)
      || x.mailLate (org / 2 ^ 10 % 8) (.request cause key org))) = false := by
    by_cases here : org % 2 ^ 10 = s.modId 0
    · obtain ⟨asked, heard, mail⟩ := mailed here
      rw [heard, mail, List.contains_iff_mem.2 asked, Bool.not_true, Bool.or_false, Bool.or_false, Bool.and_false]
    · rw [decide_eq_false here, Bool.false_and]
  have takes : (!s.leads x || (decide (org % 2 ^ 10 = s.modId 0) && (!x.requests.contains (cause, key, org) || x.unheard (org / 2 ^ 10 % 8)
      || x.mailLate (org / 2 ^ 10 % 8) (.request cause key org))) || s.upWaits x (org % 2 ^ 10) (org / 2 ^ 10 % 8)) = false := by
    rw [leads, inOrder, linked]
    rfl
  have gang : s.gang g = some x := found
  have standing : x.cancelSent.isSome = false := by rw [stands]; rfl
  show execGangAbort g cause key org s = _
  simp only [execGangAbort, gang, takes, Bool.false_eq_true, if_false, modGang_eq found]
  rw [standing, if_neg Bool.false_ne_true, join_opens]
  · rfl
  · exact idle

/-! ### FREEZE and its replies (R420) -/

/-- The gang past FREEZE at a die. -/
def gangFrozen (s : State) (x : Gang) (die : Nat) : Gang :=
  { x with members := x.members.map (s.freezeMember die (s.smallestStep x die))
           mail := if x.members.any fun m => s.isLocal m && decide (m.die = die) && m.frozen.isNone then x.mail ++ [(die, .reply)] else x.mail }

theorem exec_freeze {die : Nat} (linked : s.downWaits x die = false) (first : s.gangBehind x die = false)
    (running : s.leads x = true → x.round ≠ none) : exec (.freeze g die) s = .next (gangSet s g (gangFrozen s x die)) := by
  have gang : s.gang g = some x := found
  have passes : ¬ ((s.leads x = true ∧ x.round.isNone = true) ∨ s.gangBehind x die = true ∨ s.downWaits x die = true) := by
    rw [linked, first]
    rintro (⟨leads, idle⟩ | h | h)
    · exact running leads (Option.isNone_iff_eq_none.1 idle)
    · exact Bool.false_ne_true h
    · exact Bool.false_ne_true h
  show execFreeze g die s = _
  simp only [execFreeze, gang]
  rw [if_neg passes, modGang_eq found]
  rfl

/-- The gang past the reply of a member on another module. -/
def gangReplied (x : Gang) (k : Nat) (m : Member) (step : Word) : Gang := { x with members := x.members.set k { m with reply := some step.toNat } }

/-- The smallest step among the replies of a gang's members, below 2^64. -/
def leastReply (l : List Member) : Nat := l.foldl (fun a m => min a (m.reply.getD 0)) (2 ^ 64 - 1)

/-- The gang whose members have all replied. -/
def gangAgreed (s : State) (x : Gang) : Gang :=
  { x with agreed := BitVec.ofNat 64 (leastReply x.members), tokenFor := (x.members.filter s.isLocal).map (·.die)
           round := if ((x.members.filter s.isLocal).map (·.die)).isEmpty then none else x.round }

theorem exec_freezeReply {k : Nat} {m : Member} {step : Word} (listed : x.members[k]? = some m) (linked : s.upWaits x m.mod m.die = false)
    (leads : s.leads x = true) (running : x.round ≠ none) (new : m.reply = none) (away : s.isLocal m = false) :
    exec (.freezeReply g k step) s = .next (let y := gangReplied x k m step
      if y.members.all (·.reply.isSome) then gangSet s g (gangAgreed s y) else gangSet s g y) := by
  have gang : s.gang g = some x := found
  have opened : x.round.isNone = false := by
    cases h : x.round with
    | none => exact absurd h running
    | some r => rfl
  have changed : (gangSet s g (gangReplied x k m step)).gang g = some (gangReplied x k m step) := gangSet_found found _
  show execFreezeReply g k step s = _
  simp only [execFreezeReply, gang, listed, leads, opened, new, away, linked, Option.isSome_none, Option.isNone_some, Bool.not_true, Bool.false_and,
    Bool.or_self, Bool.false_eq_true, if_false, modGang_eq found]
  change Host.Outcome.next (match (gangSet s g (gangReplied x k m step)).gang g with
    | some y => _
    | none => _) = _
  rw [changed]
  refine congrArg Host.Outcome.next ?_
  show (if _ then State.modGang _ g _ else _) = if _ then _ else _
  rw [modGang_eq (gangSet_found found _), gangSet_gangSet]
  rfl

end Round

theorem foldl_min_reply_le (l : List Member) (a : Nat) : l.foldl (fun a m => min a (m.reply.getD 0)) a ≤ a := by
  induction l generalizing a with
  | nil => exact le_rfl
  | cons m l ih => exact (ih _).trans (min_le_left _ _)

theorem foldl_min_reply_le_mem {l : List Member} {f : Member} (mem : f ∈ l) (a : Nat) :
    l.foldl (fun a m => min a (m.reply.getD 0)) a ≤ f.reply.getD 0 := by
  induction l generalizing a with
  | nil => exact absurd mem List.not_mem_nil
  | cons m l ih =>
    rcases List.mem_cons.1 mem with rfl | mem
    · exact (foldl_min_reply_le l _).trans (min_le_right _ _)
    · exact ih mem _

/-- The agreed step is no later than any reply. -/
theorem agreed_le {s : State} {x : Gang} {f : Member} (mem : f ∈ x.members) {v : Nat} (reply : f.reply = some v) :
    (gangAgreed s x).agreed.toNat ≤ v := by
  have le : leastReply x.members ≤ f.reply.getD 0 := foldl_min_reply_le_mem mem _
  rw [reply] at le
  exact (BitVec.toNat_ofNat _ _).trans_le ((Nat.mod_le _ _).trans le)

/-! ### TOKEN (R418, R420) -/

/-- The state in which the tasks of a gang on a die have ABORT_TOKEN pending, and the launch of one that was not confirmed is to fail. -/
def tokenTaken (s : State) (x : Gang) (d step org : Nat) : State :=
  let t := (s.gangTasks x d).foldl (fun s i => s.modTask i fun t => { t with abortTok := some (step, org) }) s
  if !x.confirmed.contains d then t.failGang x else t

theorem tokenTaken_keeps {β : Type} (p : State → β) (ht : ∀ s i f, p (State.modTask s i f) = p s) (hl : ∀ s n f, p (State.modLaunch s n f) = p s)
    (s : State) (x : Gang) (d step org : Nat) : p (tokenTaken s x d step org) = p s := by
  have fold := foldl_keeps p _ (fun s i => ht s i fun t => { t with abortTok := some (step, org) }) (s.gangTasks x d) s
  unfold tokenTaken
  split
  · exact (hl _ _ _).trans fold
  · exact fold

theorem tokenTaken_task (s : State) (x : Gang) (d step org i : Nat) : (tokenTaken s x d step org).task i
    = if i ∈ s.gangTasks x d then { s.task i with abortTok := some (step, org) } else s.task i := by
  have fold := foldl_task (fun s i => s.modTask i fun t => { t with abortTok := some (step, org) }) (fun t => { t with abortTok := some (step, org) })
    (fun _ _ => State.task_modTask_same _ _ _) (fun s i j h => State.task_modTask_other s i j _ h) (fun _ => rfl) (s.gangTasks x d) s i
  unfold tokenTaken
  split <;> exact fold

theorem tokenTaken_fails {s : State} {x : Gang} {d step org : Nat} (unconfirmed : d ∉ x.confirmed) :
    ((tokenTaken s x d step org).launch x.launch).gangFail = true := by
  have early : (!x.confirmed.contains d) = true := by simpa using unconfirmed
  rw [tokenTaken, if_pos early]
  exact failGang_fails _ x

theorem mem_gangTasks {s : State} {x : Gang} {d i : Nat} (listed : (i, s.task i) ∈ s.tasks) (launch : (s.task i).launch = x.launch)
    (die : (s.task i).die = d) (alive : (s.task i).status ≠ .ended) : i ∈ s.gangTasks x d := by
  refine List.mem_map.2 ⟨(i, s.task i), List.mem_filter.2 ⟨listed, ?_⟩, rfl⟩
  simp only [launch, die, decide_true, Bool.true_and, decide_eq_true_eq]
  exact alive

theorem tokenTaken_found {s : State} {g : Nat} {x : Gang} (found : s.gangs[g]? = some x) (d step org : Nat) :
    (tokenTaken s x d step org).gangs[g]? = some x := by
  rw [tokenTaken_keeps (·.gangs) (fun _ _ _ => rfl) (fun _ _ _ => rfl), found]

theorem takeToken_eq (s : State) (g d step cause org : Nat) (x : Gang) : s.takeToken g d step cause org x
    = (tokenTaken s x d step org).noteGang g fun y => { (y.blame cause org) with
        agreed := BitVec.ofNat 64 step, dropped := if !x.confirmed.contains d then setInsert y.dropped d else y.dropped
        members := y.members.map ((tokenTaken s x d step org).thawMember d) } := rfl

theorem noteGang_abortTok {s : State} {g : Nat} {x : Gang} (found : s.gangs[g]? = some x) (f : Gang → Gang) (i : Nat) :
    ((s.noteGang g f).task i).abortTok = (s.task i).abortTok := by
  rw [noteGang_eq found, putOutside_task]
  rfl

section Token

variable {s : State} {g die : Nat} {x : Gang} (found : s.gangs[g]? = some x)
include found

theorem exec_token (linked : s.downWaits x die = false) (first : s.gangBehind x die = false) (follows : s.leads x = false)
    (member : s.hasMember x die = true) (step : Word) (cause org : Nat) :
    exec (.token g die step cause org) s = .next (s.takeToken g die step.toNat cause org x) := by
  have gang : s.gang g = some x := found
  show execToken g die step cause org s = _
  simp only [execToken, gang, linked, first, follows, member, Bool.false_eq_true, or_self, if_false, if_true]

theorem takeToken_found (step cause org : Nat) : ∃ y, (s.takeToken g die step cause org x).gangs[g]? = some y
    ∧ y.agreed = BitVec.ofNat 64 step ∧ y.cause = cause ∧ (die ∉ x.confirmed → die ∈ y.dropped) := by
  refine ⟨_, noteGang_found (tokenTaken_found found die step org) _, rfl, rfl, fun unconfirmed => ?_⟩
  have early : (!x.confirmed.contains die) = true := by simpa using unconfirmed
  show die ∈ if (!x.confirmed.contains die) = true then setInsert x.dropped die else x.dropped
  rw [if_pos early]
  exact (mem_setInsert _ _ _).2 (.inl rfl)

theorem takeToken_fails (step cause org : Nat) (unconfirmed : die ∉ x.confirmed) :
    ((s.takeToken g die step cause org x).launch x.launch).gangFail = true := by
  rw [takeToken_eq, noteGang_launch (tokenTaken_found found die step org)]
  exact tokenTaken_fails unconfirmed

theorem takeToken_abortTok {i : Nat} (mem : i ∈ s.gangTasks x die) (step cause org : Nat) :
    ((s.takeToken g die step cause org x).task i).abortTok = some (step, org) := by
  rw [takeToken_eq, noteGang_abortTok (tokenTaken_found found die step org), tokenTaken_task, if_pos mem]

end Token

theorem gangAborts_holds : Stated.GangAborts := by
  intro s g k die cause key org step x m found listed up down first
  refine ⟨fun hears mailed linked idle => ?request, fun running here same new => ?freeze, fun leads running new away => ?reply,
    fun follows here same => ?token⟩
  case request =>
    refine ⟨_, _, exec_gangAbort found hears mailed linked idle, gangSet_found found _, rfl, rfl, fun m' mem => ?_⟩
    obtain ⟨n, _, rfl⟩ := List.mem_map.1 mem
    exact ⟨rfl, rfl⟩
  case freeze =>
    have member : (gangFrozen s x die).members[k]? = some (s.freezeMember die (s.smallestStep x die) m) := by
      show (x.members.map _)[k]? = _
      rw [List.getElem?_map, listed]
      rfl
    have freezes : m.mod = s.modId 0 ∧ m.die = die ∧ m.frozen.isNone = true := ⟨of_decide_eq_true here, same, by rw [new]; rfl⟩
    refine ⟨_, _, _, exec_freeze found down first running, gangSet_found found _, member, ?_⟩
    rw [State.freezeMember, if_pos freezes]
  case reply =>
    have run := exec_freezeReply (step := step) found listed up leads running new away
    refine ⟨fun some => run.trans (congrArg _ (if_neg (ne_true_of_eq_false some))), fun all => ?_⟩
    exact ⟨_, _, run.trans (congrArg _ (if_pos all)), gangSet_found found _, rfl, fun f mem v reply => agreed_le mem reply⟩
  case token =>
    obtain ⟨y, there, agreed, blamed, drops⟩ := takeToken_found (die := die) found step.toNat cause org
    refine ⟨_, y, exec_token found down first follows (same ▸ hasMember_of_listed listed here) step cause org, there, agreed, blamed,
      fun unconfirmed => ⟨drops unconfirmed, takeToken_fails found _ _ _ unconfirmed⟩, fun i listed launch die alive => ?_⟩
    exact takeToken_abortTok found (mem_gangTasks listed launch die alive) _ _ _

/-- Settles O60: each event of an abort past its checks is one change of its gang, and TOKEN also of the gang's tasks and launch. -/
theorem gangAborts : Obligations.GangAborts := gangAborts_holds

end Sys2Proof.Machine
end
